-- ==== Sys2Proof/Word.lean ====
section
/-! DEFINITION. Word types of the ZL9640 and the plainest arithmetic over them: bits, fields, saturating
counters, little-endian octets and the rounding rules that several chapters of the spec share. -/

namespace Sys2Proof

/-- A register or a command word: 32 bits (R393, "every register is 32 bits wide"). -/
abbrev Word := BitVec 32
/-- A 64-bit frame payload or timestamp. -/
abbrev Dword := BitVec 64
/-- One octet of a datagram body or of a record. -/
abbrev Byte := BitVec 8
/-- Device time, a count of ticks of 1/3 ns (R8). -/
abbrev Tick := Nat

/-- Field die d, zone Fd (R9). -/
abbrev DieId := Fin 6
/-- Channel c on its die (R9). -/
abbrev ChanId := Fin 16
/-- Hub H0 or H1 (R13). -/
abbrev HubId := Fin 2
/-- Network port P0 or P1 (R350). -/
abbrev PortId := Fin 2
/-- Master axis 0 to 3 (R162). -/
abbrev AxisId := Fin 4
/-- Spare slice 0 or 1 of a die (R183). -/
abbrev SpareId := Fin 2

/-- Ticks in 1 µs (R8: 3 GHz). -/
def us : Nat := 3000
/-- Ticks in 1 ms. -/
def ms : Nat := 3000000
/-- Ticks in 1 s. -/
def sec : Nat := 3000000000

/-- The field `[lo + n - 1 : lo]` of a register. -/
def fld (w : Word) (lo n : Nat) : Nat := (w.toNat >>> lo) % 2 ^ n
/-- Bit `i` of a register. -/
def bit (w : Word) (i : Nat) : Bool := w.getLsbD i
/-- A Bool placed at bit `i`. -/
def putBit (b : Bool) (i : Nat) : Nat := if b then 2 ^ i else 0
/-- A number placed in the field `[lo + n - 1 : lo]`, cut to `n` bits. -/
def putFld (v lo n : Nat) : Nat := (v % 2 ^ n) <<< lo
/-- A signed number as a two's complement 32-bit word. -/
def wordOfInt (v : Int) : Word := BitVec.ofInt 32 v
/-- The low half of a 64-bit quantity. -/
def lo32 (v : Nat) : Word := BitVec.ofNat 32 v
/-- The high half of a 64-bit quantity. -/
def hi32 (v : Nat) : Word := BitVec.ofNat 32 (v >>> 32)

/-- A count register marked "saturating": it stops at 0xFFFF_FFFF. -/
def satAdd (c : Word) (n : Nat) : Word := BitVec.ofNat 32 (min (c.toNat + n) 0xFFFFFFFF)
/-- One more on a saturating count. -/
def satInc (c : Word) : Word := satAdd c 1
/-- A natural count that saturates at `m`. -/
def satTo (m n : Nat) : Nat := min m n
/-- A signed value held within `[-b, b]`. -/
def clampInt (lo hi v : Int) : Int := if v < lo then lo else if hi < v then hi else v

/-- Rounded division of an integer by a positive natural, halves away from zero (R87, R222). -/
def divRound (a : Int) (b : Nat) : Int :=
  if 0 ≤ a then (2 * a + b) / (2 * b : Int) else -((2 * (-a) + b) / (2 * b : Int))
/-- Rounded division of two integers, halves away from zero; 0 for a zero divisor. -/
def divRoundI (a b : Int) : Int :=
  if 0 < b then divRound a b.toNat else if b < 0 then divRound (-a) (-b).toNat else 0
/-- Natural division rounded up. -/
def ceilDiv (a b : Nat) : Nat := (a + b - 1) / b

/-- The first multiple of `m` at or after `t`. -/
def nextMultiple (m t : Nat) : Nat := ceilDiv t m * m
/-- The first device-time multiple of 10 µs at least 20 µs after an acceptance (tm, tf, td, tc, ts ... of R45,
R74, R75, R93, R154, R170, R197, R216, R330). -/
def tenAfterTwenty (t : Tick) : Tick := nextMultiple (10 * us) (t + 20 * us)

/-- `n` octets of a number, least significant first (R58, R376: fields are little-endian). -/
def leBytes : Nat → Nat → List Byte
  | 0, _ => []
  | n + 1, v => BitVec.ofNat 8 v :: leBytes n (v >>> 8)
/-- The number that little-endian octets spell. -/
def leNat : List Byte → Nat
  | [] => 0
  | b :: bs => b.toNat + 256 * leNat bs
/-- `n` octets from offset `i`, as a little-endian number (missing octets read as 0). -/
def leAt (bs : List Byte) (i n : Nat) : Nat := leNat ((bs.drop i).take n)

/-- A list read at an index, with a default. -/
def nth {α : Type} (l : List α) (i : Nat) (d : α) : α := l.getD i d
/-- The entry of an association list at a key. -/
def assoc {α : Type} (l : List (Nat × α)) (k : Nat) : Option α := (l.find? (·.1 == k)).map (·.2)
/-- An association list with the entry at a key replaced or added. -/
def assocSet {α : Type} (l : List (Nat × α)) (k : Nat) (v : α) : List (Nat × α) :=
  (k, v) :: l.filter (fun p => p.1 != k)

/-- A vector with one place changed. -/
def vmod {α : Type} {n : Nat} (v : Vector α n) (i : Fin n) (f : α → α) : Vector α n :=
  v.set i.val (f v[i.val]) i.isLt
/-- A vector with every place changed, each by a function that also sees its index. -/
def vmap {α β : Type} {n : Nat} (v : Vector α n) (f : Fin n → α → β) : Vector β n :=
  Vector.ofFn fun i => f i v[i.val]

end Sys2Proof
end

