-- ==== Sys2Proof/Syntax.lean ====
section
/-! DEFINITION. The commands of the ZL9640: one constructor of `Instr` per row of spec/opcode_table.json, in the
table's order, with the operands that the row's sender or the world outside supplies. The rows are host commands
(ZCS, host SPI, register writes), frames arriving on the internal links, and events of the device and of the plant.
An operand is what arrives from outside at that step: a field of a command, the content of a frame that the model
does not itself build, a measured quantity at a terminal. -/

namespace Sys2Proof

/-- A channel d.c; its global number is g = 16·d + c (R9). -/
structure Chan where
  die : DieId
  c   : ChanId
  deriving DecidableEq, Repr

/-- The path of a register access, coded as ERR_CAPTURE.PATH (R405). -/
inductive Path where
  | spi (h : HubId)
  | zcs
  | tunnel
  deriving DecidableEq, Repr

/-- The session a request belongs to: one of 8 UDP sessions, which its EPOCH tells from those that had the slot before it, or the host
SPI session (R357). -/
inductive Who where
  | udp (slot : Fin 8) (epoch : Nat)
  | spi
  deriving DecidableEq, Repr

/-- A request as its session numbers it: the SEQ that the response echoes (R378) and the key that tags it (R364). -/
structure Req where
  who   : Who
  seq   : Word
  keyId : Byte
  deriving DecidableEq, Repr

/-- A scope: a channel, a die or the package (R377). -/
inductive Scope where
  | chan (g : BitVec 16)
  | die (d : Byte)
  | package
  deriving DecidableEq, Repr

/-- The schedule entry of R58, field by field. -/
structure SchedEntry where
  time    : Dword
  opcode  : Byte
  cls     : Byte
  channel : BitVec 16
  param   : Word
  slot    : Word
  flags   : BitVec 16
  count   : BitVec 16
  period  : Word
  tag     : Word
  deriving DecidableEq, Repr

/-- The 18 words of a channel image, in the order of R384. -/
structure ChanImg where
  cfg     : Word
  safe    : Word
  safeVal : Word
  linkloss : Word
  diag    : Word
  opt     : Word
  convCfg : Word
  filtCfg : Word
  perInt  : Word
  perFrac : Word
  maLen   : Word
  dcbCfg  : Word
  angCfg  : Word
  dinCfg  : Word
  encCfg  : Word
  outCfg  : Word
  fskCfg  : Word
  decl    : Word
  deriving DecidableEq, Repr

/-- The image that `ChannelConfigure` carries: 18 words at ZCS 3.x, 4 words at ZCS 2.x (R384, R392). -/
inductive ImageArg where
  | full (img : ChanImg)
  | forerunner (cfg presetWord safe safeVal : Word)
  deriving DecidableEq, Repr

/-- The fields of `SessionOpen` (R382), and the port and source address its datagram came from (R357, R366). -/
structure SessionOpenP where
  version : Byte
  retry   : Byte
  ka      : BitVec 16
  control : Byte
  evClasses : Byte
  port    : PortId
  src     : BitVec 128
  srcPort : BitVec 16
  deriving DecidableEq, Repr

structure StreamOpenP where
  stream : Byte
  port   : Byte
  form   : Byte
  bandwidth : Word
  stale  : Word
  udpPort : BitVec 16
  deriving DecidableEq, Repr

structure CalP where
  channel : BitVec 16
  v : Int
  w : Nat
  s : Nat
  deriving DecidableEq, Repr

structure PolicyP where
  scope : Byte
  die   : Byte
  cls   : Byte
  floor : BitVec 16
  ceil  : BitVec 16
  deriving DecidableEq, Repr

/-- A decoded ZCS command body (R376, R380 and the command tables of R382 to R391). -/
inductive ZcsCmd where
  | sessionOpen (p : SessionOpenP)
  | sessionClose
  | identify
  | regRead (addr : Word) (n : BitVec 16)
  | regWrite (addr : Word) (words : List Word)
  | channelConfigure (ch set : BitVec 16) (flags : Byte) (img : ImageArg)
  | channelEnable (ch set : BitVec 16)
  | channelDisable (ch : BitVec 16)
  | scheduleSubmit (entries : List SchedEntry) (octets : List Byte)
  | cancelTags (tags : List Word)
  | cancelRange (ch : BitVec 16) (lo hi : Dword)
  | resultFetch (w : Word)
  | streamOpen (p : StreamOpenP)
  | streamClose (n : Byte)
  | filterSync (tr : Dword)
  | calibrateZero (p : CalP)
  | calibrateSpan (p : CalP)
  | commitStore (sc : Scope)
  | commitRevert (sc : Scope)
  | commitIdentity (sc : Scope)
  | ledgerQuery (scope die : Byte)
  | ledgerPolicySet (p : PolicyP)
  | powerRequest (target scope die : Byte)
  | watchdogConfigure (period ctrl : Word) (which : Byte)
  | watchdogServe
  | eventLogRead (src hub n : Byte) (seq : Word)
  | faultClear (sc : Scope) (resume : Byte)
  | hubSwitchover
  | keyRotate (keyId : Byte) (grace : BitVec 16) (nonce : List Byte)
  | poolAudit
  | returnPrepare (conf : BitVec 16)
  | timeRead
  | timeLoad (t : Dword)
  | timeAccept (v : Byte)
  | auxTable (d : Byte) (entries : List Word)
  | auxSlot (d k : Byte) (priv : Word) (entries : List Word)
  deriving DecidableEq, Repr

/-- A ZCS datagram of R354; `src` and `srcPort` stand for the UDP source the responses go back to. -/
structure Datagram where
  magic   : BitVec 16
  version : Byte
  kind    : Byte
  boot    : Word
  session : Word
  epoch   : Word
  seq     : Word
  length  : BitVec 16
  keyId   : Byte
  flags   : Byte
  tag     : BitVec 128
  body    : List Byte
  src     : BitVec 128
  srcPort : BitVec 16
  /-- Address and UDP port it is sent to (R373). -/
  dst     : BitVec 128
  dstPort : BitVec 16
  deriving DecidableEq, Repr

/-- A network axis sample of R164. -/
structure NetAxisSample where
  time  : Dword
  angle : Word
  revs  : Int
  deriving DecidableEq, Repr

/-- A register access that a Management request frame carries to a field die (R26, R284: [63:60] = 0). -/
structure MgmtReq where
  write  : Bool
  page   : Nat
  offset : Nat
  data   : Word
  deriving DecidableEq, Repr

/-- The filter registers whose writes R154 governs. -/
inductive FiltReg where
  | filtCfg | perInt | perFrac | maLen | dcbCfg | angCfg
  deriving DecidableEq, Repr

/-- The auxiliary sequencer registers with a shadow copy (R137). -/
inductive AuxReg where
  | table (i : Fin 64)
  | len
  | priv (k : Fin 4)
  | inj (k : Fin 4) (j : Fin 8)
  deriving DecidableEq, Repr

/-- The axis registers whose writes reconfigure an axis (R181). -/
inductive AxisReg where
  | cfg | cpr | zero
  deriving DecidableEq, Repr

/-- Where a POLICY register lies: on the LEDGER page of a hub or on a die ledger page (R275). -/
inductive PolicyScope where
  | package (h : HubId)
  | die (d : DieId)
  deriving DecidableEq, Repr

/-- A declaration register (R261). -/
inductive DeclReg where
  | decl (c : ChanId)
  | lpDecl
  deriving DecidableEq, Repr

/-- A serial link: the Solder Lane of hub h to die d, or the String (R13). -/
inductive Link where
  | lane (h : HubId) (d : DieId)
  | string
  deriving DecidableEq, Repr

/-- A direction on a lane; on the String, `down` is from H0 to H1. -/
inductive Dir where
  | down | up
  deriving DecidableEq, Repr

/-- The two lockable roles of R291 that the other hub grants over the String. -/
inductive Role where
  | nvLock | keyRole
  deriving DecidableEq, Repr

/-- Link speeds of R350; the code of NET.PnSTATUS.SPEED. -/
inductive Speed where
  | g2_5 | g1 | m100
  deriving DecidableEq, Repr

/-- A block asked to grant a power request, coded as PWR.LAST_REFUSE [15:8] (R329, R345). -/
inductive PwrBlock where
  | die (d : DieId) | rom | schedule | nvStore | ports | standby
  deriving DecidableEq, Repr

/-- The answer of a block (R329): grant, refuse with a reason, or delay. -/
inductive PwrAnswer where
  | grant | refuse (reason : Byte) | delay
  deriving DecidableEq, Repr

/-- How a PTP message travels; the codes are those of TRANSPORT (R38, R57). -/
inductive PtpMedia where
  | udp4 | udp6 | ethernet
  deriving DecidableEq, Repr

/-- An Announce message as the BMCA compares it (R39, R40): the dataset's rank (lower is better), the grandmaster
identity, and the fields that choose a profile. -/
structure Announce where
  majorSdoId : BitVec 4
  domain : Byte
  rank   : Nat
  gm     : Dword
  /-- logMessageInterval, in which the Announce receipt timeout counts (R38). -/
  logInterval : Int
  /-- How the message travelled (R38, R57). -/
  media  : PtpMedia
  deriving DecidableEq, Repr

/-- A Sync message as the port takes it: the profile and domain it belongs to, the measured offset, and logMessageInterval (R38). -/
structure SyncMsg where
  majorSdoId  : BitVec 4
  domain      : Byte
  offset      : Int
  logInterval : Int
  deriving DecidableEq, Repr

/-- The level of a channel's comparator (R208, R211). -/
structure InputLevel where
  ch   : Chan
  high : Bool
  deriving DecidableEq, Repr

/-- Raw base-rate codes of a channel, from index `first` of its grid on (R125, R152). -/
structure BaseCodes where
  first : Int
  codes : List Int
  deriving DecidableEq, Repr

/-- The straps and TEST balls as they stand at t0 (R421, R422); `true` is high. -/
structure Straps where
  psel    : Bool
  hubmode : Bool
  test    : Bool
  deriving DecidableEq, Repr

/-- What the command tunnel write carries: R354's header minus TAG, and the body. -/
structure TunnelMsg where
  magic   : BitVec 16
  version : Byte
  kind    : Byte
  boot    : Word
  session : Word
  epoch   : Word
  seq     : Word
  length  : BitVec 16
  keyId   : Byte
  flags   : Byte
  body    : List Byte
  deriving DecidableEq, Repr

/-- What a die measures of one channel in a millisecond (R251, R267): the terminal current in µA, the voltages at IO and SN in mV, and the
switching edges and switch-offs per second. -/
structure HeatPoint where
  load : Int
  vio : Int
  vsn : Int
  edges : Nat
  offs : Nat
  deriving DecidableEq, Repr

/-- What a die measures each millisecond (R267): its channels in order, and V(Fd_LP) in mV. -/
structure HeatSample where
  points : List HeatPoint
  lpMv : Nat
  deriving DecidableEq, Repr

/-- One command or event: a row of spec/opcode_table.json. -/
inductive Instr where
  -- ZCS commands
  | sessionOpen (r : Req) (p : SessionOpenP)
  | sessionClose (r : Req)
  | identify (r : Req)
  | regRead (r : Req) (addr : Word) (n : BitVec 16)
  | regWrite (r : Req) (addr : Word) (words : List Word)
  | channelConfigure (r : Req) (ch set : BitVec 16) (flags : Byte) (img : ImageArg)
  | channelEnable (r : Req) (ch set : BitVec 16)
  | channelDisable (r : Req) (ch : BitVec 16)
  | scheduleSubmit (r : Req) (entries : List SchedEntry) (octets : List Byte)
  | scheduleCancelByTag (r : Req) (tags : List Word)
  | scheduleCancelByRange (r : Req) (ch : BitVec 16) (lo hi : Dword)
  | resultFetch (r : Req) (w : Word)
  | streamOpen (r : Req) (p : StreamOpenP)
  | streamClose (r : Req) (n : Byte)
  | filterSync (r : Req) (tr : Dword)
  | calibrateSystemZero (r : Req) (p : CalP)
  | calibrateSystemSpan (r : Req) (p : CalP)
  | calPointEnd (ch : Chan) (openSeen : Bool) (subMeans : List Int)
  | sysCorrectionApply (ch : Chan)
  | calibrationCommitStore (r : Req) (sc : Scope) (readBack : Bool)
  | calibrationCommitRevert (r : Req) (sc : Scope)
  | calibrationCommitIdentity (r : Req) (sc : Scope) (readBack : Bool)
  | ledgerQuery (r : Req) (scope die : Byte)
  | ledgerPolicySet (r : Req) (p : PolicyP)
  | powerStateRequest (r : Req) (target scope die : Byte)
  | watchdogConfigure (r : Req) (period ctrl : Word) (which : Byte)
  | watchdogServe (r : Req)
  | eventLogRead (r : Req) (src hub n : Byte) (seq : Word)
  | faultClear (r : Req) (sc : Scope) (resume : Byte)
  | hubSwitchover (r : Req)
  | keyRotate (r : Req) (keyId : Byte) (grace : BitVec 16) (nonce : List Byte) (stored : Bool)
  | poolAudit (r : Req)
  | returnPrepare (r : Req) (conf : BitVec 16)
  | timeStatusRead (r : Req)
  | timeStatusLoad (r : Req) (t : Dword)
  | timeStatusWriteAccept (r : Req) (v : Byte)
  | auxSequenceLoadTable (r : Req) (d : Byte) (entries : List Word)
  | auxSequenceLoadSlot (r : Req) (d k : Byte) (priv : Word) (entries : List Word)
  -- command transport
  | datagramReceive (p : PortId) (dg : Datagram)
  | heldRequestTimeout (w : Who) (seq : Word)
  | commandAccept
  | axisSamplesDatagram (p : PortId) (dg : Datagram)
  | spiRegisterRead (h : HubId) (quad : Bool) (addr : BitVec 24) (n : Nat)
  | spiRegisterWrite (h : HubId) (quad : Bool) (addr : BitVec 24) (words : List Word)
  | spiTunnelWrite (h : HubId) (m : TunnelMsg)
  | spiTunnelRead (h : HubId)
  -- register writes
  | registerWrite (p : Path) (addr : Word) (w : Word)
  | chCfgWrite (p : Path) (ch : Chan) (w : Word)
  | convCfgWrite (p : Path) (ch : Chan) (w : Word)
  | safeReq (p : Path) (ch : Chan) (w : Word)
  | serveKeyA (p : Path) (h : HubId)
  | serveKeyB (p : Path) (h : HubId)
  | serveOtherValue (p : Path) (h : HubId) (v : Word)
  | tsoldEnSet (p : Path) (h : HubId) (w : Word)
  | tsoldPeriodWrite (p : Path) (h : HubId) (w : Word)
  | tsoldActionWrite (p : Path) (h : HubId) (w : Word)
  | watchdogLate
  | pwrRequestWrite (p : Path) (h : HubId) (w : Word)
  | pageLock (p : Path) (page : Nat)
  | pageUnlock (p : Path) (page : Nat)
  | evClearWrite (p : Path) (page : Nat) (w : Word)
  | blockReset (p : Path) (page : Nat) (w : Word)
  | freezeWrite (p : Path) (page : Nat) (w : Word)
  | cntPresetWrite (p : Path) (ch : Chan) (w : Word)
  | countPresetApply (ch : Chan)
  | keyCommitWrite (p : Path) (h : HubId) (w : Word)
  | netFreqWrite (p : Path) (h : HubId) (w : Word)
  | mainsCtrlWrite (p : Path) (h : HubId) (w : Word)
  | filterRegisterWrite (p : Path) (ch : Chan) (r : FiltReg) (w : Word)
  | dinCfgWrite (p : Path) (ch : Chan) (w : Word)
  | outCfgWrite (p : Path) (ch : Chan) (w : Word)
  | parWrite (p : Path) (ch : Chan) (w : Word)
  | auxShadowWrite (p : Path) (d : DieId) (r : AuxReg) (w : Word)
  | refSelWrite (p : Path) (d : DieId) (w : Word)
  | axisCfgWrite (p : Path) (h : HubId) (a : AxisId) (r : AxisReg) (w : Word)
  | ledgerPtWrite (p : Path) (h : HubId) (w : Word)
  | policyWrite (p : Path) (sc : PolicyScope) (k : Fin 3) (w : Word)
  | declWrite (p : Path) (d : DieId) (r : DeclReg) (w : Word)
  | roleWrite (p : Path) (h : HubId) (w : Word)
  | portCfgWrite (p : Path) (h : HubId) (port : PortId) (w : Word)
  | acceptWrite (p : Path) (h : HubId) (w : Word)
  | admitWrite (p : Path) (h : HubId) (w : Word)
  | alarmWrite (p : Path) (h : HubId) (w : Word)
  | wakeCfgWrite (p : Path) (h : HubId) (w : Word)
  | hublossTWrite (p : Path) (d : DieId) (w : Word)
  -- Solder Lane frames
  | outputStateSend (d : DieId)
  | outputStateReceive (h : HubId) (d : DieId) (k : Fin 4)
  | statusSend (d : DieId)
  | statusReceive (h : HubId) (d : DieId) (k : Fin 8)
  | timeFrameSend (l : Link)
  | timeFrameReceive (h : HubId) (d : Option DieId)
  | coastingStart (d : DieId)
  | laneDelayMeasure (h : HubId) (d : Option DieId) (roundTrip : Nat)
  | promotionBegin (id : Nat)
  | promotionFrameReceive (h : HubId) (d : DieId)
  | managementRequestReceive (h : HubId) (d : DieId) (m : MgmtReq)
  | managementResponseReceive (h : HubId) (d : DieId)
  | resultFrameReceive (d : DieId)
  | captureFrameReceive (d : DieId)
  | angleTagFrameReceive (d : DieId)
  | eventFrameReceive (d : DieId)
  | frameConsume (l : Link) (dir : Dir)
  | frameCrcFail (l : Link) (dir : Dir) (buffered : Bool)
  | replayRequestReceive (l : Link) (dir : Dir) (seq : Fin 16)
  | laneCrcRun (h : HubId) (d : Option DieId)
  | trainingComplete (l : Link) (version occDown occUp : Nat)
  | laneFailed (h : HubId) (d : DieId)
  | laneTrainingRetry (h : HubId) (d : Option DieId)
  | idleFrameReceive (h : HubId) (d : Option DieId)
  -- leases and redundancy
  | renewSend (h : HubId)
  | renewReceive (h : HubId) (d : DieId)
  | claimSend (h : HubId)
  | claimReceive (h : HubId) (d : DieId)
  | releaseReceive (h : HubId) (d : DieId)
  | grantReceive (h : HubId) (d : DieId)
  | leaseExpiry (d : DieId)
  | hubLossExpiry (d : DieId)
  | heartbeatSend (h : HubId)
  | heartbeatReceive (h : HubId)
  | heartbeatMissed (h : HubId)
  | lossOfActiveHub
  | takeoverClaimTimeout
  | mirrorFrameReceive
  | mirrorCommitReceive
  | mirrorReady
  | roleLeaseExpiry (h : HubId) (r : Role)
  | portRelayReceive (p : PortId) (egress : Bool) (frame : List Byte)
  | stringFault
  | hubRestart (h : HubId)
  | hubRestartComplete (h : HubId)
  | hubSelfCheckFail (h : HubId)
  | poolCheck (d : DieId)
  | poolAuditSnapshot
  | idleEntry (h : HubId)
  | idleExit (h : HubId)
  -- time synchronisation
  | syncReceive (p : PortId) (media : PtpMedia) (m : SyncMsg)
  | announceReceive (p : PortId) (a : Announce)
  | syncReceiptTimeout (p : PortId)
  | announceReceiptTimeout (p : PortId)
  | holdoverLimit
  | timeStep
  | txTimestampMissing (p : PortId)
  | faultyEnd (p : PortId)
  | syncInEdge (lowFor highFor : Nat)
  -- schedule
  | deferralRetry
  | entryExecute (id : Nat)
  | entryRetire (id : Nat)
  | staleAgeExpiry (rec : Nat)
  -- channel modes and diagnostics
  | modeChangeStart (ch : Chan)
  | transitionEnd (x : InputLevel)
  | channelDisableInstant (ch : Chan)
  | cancelInstant
  | filterChange (ch : Chan)
  | overrangeConfirm (ch : Chan) (isOver : Bool)
  | openWireResult (ch : Chan) (isOpen : Bool)
  | terminalMonitorResult (ch : Chan) (sn : Bool) (mV : Int)
  | overloadConfirm (ch : Chan)
  | shortFgConfirm (ch : Chan)
  | backfeedConfirm (ch : Chan)
  | backfeedClear (ch : Chan)
  | thermalConfirm (ch : Chan)
  | lpUndervoltConfirm (d : DieId)
  | lpUndervoltEpisodeEnd (d : DieId)
  | offPulseStart (ch : Chan)
  | offPulseEnd (ch : Chan) (vioMv : Int)
  | rampStep (ch : Chan)
  | holdMsExpiry (ch : Chan)
  | shuntOpen (ch : Chan)
  | shuntRecloseTrial (ch : Chan)
  | currentLimitFoldback (ch : Chan)
  | foldbackRetry (ch : Chan)
  -- auxiliary converter and references
  | auxPassStart (d : DieId)
  | auxEntryEnd (d : DieId) (result : Int)
  | urgentTrigger (d : DieId) (id : Nat)
  | urgentArrival (d : DieId) (k : Fin 4)
  | pwmEventTimeout (d : DieId) (k : Fin 4)
  | injectedSequenceEnd (d : DieId) (results : List Int)
  | refCompare (d : DieId) (diff : Int)
  | refSwitch (d : DieId)
  | mainsZeroCrossing (x : BaseCodes)
  | mainsSourceTimeout
  | mainsHoldExpiry
  | mainsBoundarySend
  | mainsWindowEnd (ch : Chan) (raw : Int)
  -- filter chains and axes
  | chainOutput (ch : Chan) (samples : List Int) (window : Option Int)
  | decimatorReset
  | axisSample (a : AxisId) (time : Tick) (pos : Int)
  | angleEpisodeEnd (ch : Chan) (overspeed : Bool)
  | axisZReference (a : AxisId) (time : Tick)
  | axisStill (a : AxisId)
  -- carousel
  | carouselSlotStart (d : DieId) (k : SpareId)
  | carouselTakeover (d : DieId) (k : SpareId) (own spare : List Int)
  | carouselPointsEnd (d : DieId) (k : SpareId) (points : List Int) (pairs : List (Int × Int)) (temp : Int)
  | carouselHandback (d : DieId) (k : SpareId) (own spare : List Int)
  | carouselSelfCalEnd (d : DieId) (k : SpareId) (points : List Int) (temp : Int)
  | warmStartWrite
  -- digital inputs
  | comparatorEdge (ch : Chan) (rising : Bool)
  | filterTick (ch : Chan)
  | encoderEpisodeEnd (ch : Chan)
  | captureHeldTimeout (ch : Chan)
  | captureRetire (id : Nat)
  -- outputs
  | pwmPeriodStart (ch : Chan)
  | pwmDutyEnd (ch : Chan)
  | shareCompare (ch : Chan) (currents : List Nat)
  | fskCarrierDetect (ch : Chan)
  | fskOctetReceive (ch : Chan) (octet : Byte) (parityErr framingErr : Bool) (start : Tick)
  | fskTimeout (ch : Chan)
  | fskReceptionEnd (ch : Chan) (carrier : Bool)
  -- ledger
  | ledgerEpoch (d : DieId) (metered : Nat)
  | heatMetering (d : DieId) (m : HeatSample)
  | operatingPointAdjust (h : HubId) (busyPct : Nat)
  | policyEpisodeEnd (h : HubId) (clip : Bool)
  | voltageConfirm (h : HubId)
  | vreqAck (h : HubId)
  | vreqTimeout (h : HubId)
  -- power
  | powerHandshakeAnswer (b : PwrBlock) (a : PwrAnswer)
  | powerHandshakeTimeout
  | commitStart
  | entryComplete
  | wakeNEvent (low : Bool)
  | alarmWake
  | linkEnergyWake (p : PortId) (energy : Bool)
  | wakePattern (p : PortId) (addressed : Bool) (payload : List Byte)
  | wakeComplete
  | powerUp (st : Straps)
  | powerUpComplete
  | powerFailure
  | powerDownStep
  -- network
  | linkDown (p : PortId)
  | linkUp (p : PortId) (v : Speed)
  | linkLossDeclare (slot : Fin 8)
  | sessionTimeout (slot : Fin 8)
  | keyGraceExpiry
  | speedRenegotiate (p : PortId) (v : Speed)
  | streamBlockSend (stream : Fin 64)
  | gateCycleStart (p : PortId)
  | supervisionFrameSend
  | duplicateEntryExpiry
  -- event log
  | logWrite (h : HubId)
  | blackBoxCopy (h : HubId)
  | eventDatagramSend (w : Who)
  | isolatedPowerLost (d : DieId)
  | activeHubStop
  | fskTransmitEnd (ch : Chan)
  | roleLeaseReceive (h : HubId) (r : Role) (granted : Bool)
  | mirrorCommitAck
  deriving DecidableEq, Repr

end Sys2Proof
end

