-- ==== Sys2Proof/Decode.lean ====
section
/-! DEFINITION. The words of the opcode table. No row of spec/opcode_table.json gives an encoding of bits (a command
travels as a datagram body, a frame or a pin event), so no word spells a command. The command bodies of R376 to R391
are decoded in Machine/Operands.lean, from octets. -/

namespace Sys2Proof

/-- The command that a word spells by the table's bits: none, since the table gives no row any bits. -/
def decodeTableWord (_nbits _w : Nat) : Option Instr := none

end Sys2Proof
end

