-- ==== Sys2Proof/Config.lean ====
section
/-! DEFINITION. What the spec leaves open: each is an opaque constant, so that no proof can rest on its value. A
value that is open afresh at each use is applied to the counter `State.free`, which the using step advances. -/

namespace Sys2Proof.Config
open Sys2Proof

/-- HMAC-SHA-256 of a key over octets (R354, R364). The spec names the function and does not define it. -/
opaque hmacSha256 : List Byte → List Byte → BitVec 256
/-- CRC-32C over octets (R192, R200, R302): named, not defined, by the spec. -/
opaque crc32c : List Byte → Word
/-- The 16-octet device nonce of `KeyRotate` (R364): random, one per use. -/
opaque nonce : Nat → List Byte
/-- The value a calibration coefficient takes when its divisor is zero (R186, R198 state none). -/
opaque unsolved : Nat → Int
/-- The factory slice coefficients of the dies' OTP (R195): die, slice 0 to 17, quantity code; OFFSET, GAIN, BOW. -/
opaque factory : Nat → Nat → Nat → Int × Int × Int
/-- The factory-trimmed gate-to-50 % delay (R234): die, channel, SLEW, rising, V(Fd_LP) in mV. -/
opaque driverDelay : Nat → Nat → Nat → Bool → Nat → Int
/-- The device time error of the real-time clock over a Deep Sleep (R37), signed ticks, before its bound is imposed. -/
opaque rtcError : Nat → Int
/-- The frequency correction that the servo of LOCKED chooses at an offset (R44), in 10^-9, before its bound is imposed: use,
offset. -/
opaque servo : Nat → Int → Int
/-- The frequency correction of HOLDOVER compensated for die temperature (R44), in 10^-9: use, the average. -/
opaque holdoverFreq : Nat → Int → Int
/-- The error of a coasting replica's frequency (R49), in 10^-9, before its bound is imposed. -/
opaque coastError : Nat → Int
/-- The resampler's coefficients (R151), in 2^-30, by the distance from the middle of its symmetrical response, 0 to 4,095 phases of
1/256 of a base-rate interval. -/
opaque resampleTap : Nat → Int
/-- What the slope at the readback stage adds to a comparator crossing to make it a 50 % crossing (R235), in ticks: use. -/
opaque halfCrossing : Nat → Int
/-- The level of a comparator when it is watched anew after a sleep (R208, R216): use. -/
opaque inputLevel : Nat → Bool
/-- The fixed delay of the digital front end, which a timestamp removes (R51), in ticks. -/
opaque frontDelay : Nat
/-- The asymmetry trim of the String (R42), in ticks. -/
opaque stringAsymmetry : Int
/-- The factory lane asymmetry trim (R48): hub, die; ticks. -/
opaque laneAsymmetry : Nat → Nat → Int
/-- Whether a condition at the terminals, which no register reports, has gone when a `FaultClear` acts (R109): use,
0 thermal sensor below 140 °C, 1 Fd_LP at 16 V or above, 2 V(IO) below 3 V throughout BF_FILT. -/
opaque gone : Nat → Nat → Bool
/-- A reading that the spec states no number for: an angle without any axis sample (R222), what a standby's port shifts out for
another page (R372), the first SEQ of a response without records (R389). -/
opaque measured : Nat → Word
/-- LOAD_I, the measured terminal current, which the die updates every 10 µs (R252): global channel, number of the 10 µs
interval, driver on, value applied. -/
opaque loadCurrent : Nat → Nat → Bool → Int → Word

/-- The payload of a frame whose layout the spec does not give (R15): a function of the frame's content. -/
opaque framePayload : List Nat → Dword
/-- A new SESSION identifier (R357), before it is checked against those in use. -/
opaque sessionId : Nat → Nat
/-- Whether a store's read-back succeeds when a queued command or a warm-start write writes one (R194, R200, R363). -/
opaque storeOk : Nat → Bool

end Sys2Proof.Config
end

