-- ==== Sys2Proof/Machine/State.lean ====
section
/-! DEFINITION. The state of a ZL9640 package as plain data, its outcomes' reasons, and its state at reset. Every
field's comment ends with [rule; width; value at reset]; INVENTORY.md's '## State' lists the same lines. The spec is
a device of up to two hubs and six field dies; what the active hub holds and mirrors stands once in `Core`, and the
standby's applied copy of it is a second `Core` (R282). -/

namespace Sys2Proof.Machine
open Sys2Proof

/-- Status codes of R381. -/
inductive ZS where
  | ok | deferred | refusedEnergy | refusedPolicy | busy | badArg | version | auth | noTime | blockOff
  | storeFail | inputUnstable | inputOutOfWindow | openWire
  deriving DecidableEq, Repr

/-- Events of R388, in class and code order. -/
inductive Ev where
  | poolMismatch | deviceFault
  | hubTakeover | hubSwitchover | stringFault | mirrorReady | laneFailed | linkDown | linkUp
  | timeLock | timeLost | timeHoldover | timeStep | timeProfileMix | syncIn
  | schedTimer | schedDone | deferEnd
  | openWire | overload | shortFg | backfeed | foreignDrive | thermal | shortLp | lpUndervolt | overrange
  | inputOvercurrent | safeState | terminalVoltage | stateSkew | encoderError | shareImbalance | edgeCompLimit
  | mainsLock | mainsLost | refDisagree | urgentDropped | filterSync | angleLate | angleOverspeed | axisSlip
  | axisStill | calHallmark | calSkip | calReject | calSliceFault | calStoreLost
  | policyClip | policyConflict | ledgerOverdraw | pwrEntry | pwrAbort | yoyoWake | vreqTimeout
  | wdogEarly | wdogLate | wdogSeq | wdogCfgReject | authFail | sessionLost | keyRotated | streamSuspended | poolAudit
  deriving DecidableEq, Repr

/-- A log record of R302. `owner` is the session whose command the event completes (R386); it is not one of the 32
octets. -/
structure LogRec where
  time   : Tick
  code   : Nat
  source : Nat
  flags  : Nat
  seq    : Nat
  data   : List Byte
  owner  : Option Who
  deriving DecidableEq, Repr

/-- ERR_CAPTURE of R405. -/
structure ErrCapture where
  /-- CAUSE. [R405; 4; 0] -/
  cause  : Nat
  /-- PATH. [R405; 4; 0] -/
  path   : Nat
  /-- COUNT, saturating at 255. [R405; 8; 0] -/
  count  : Nat
  /-- OFFSET. [R405; 12; 0] -/
  offset : Nat
  deriving DecidableEq, Repr

/-- The part of a page header that is state of its own (R399). -/
structure PageHdr where
  /-- EV_PENDING. [R399; 32; 0] -/
  pending : Word
  /-- Bits that an event has set in the register cycle in progress; an EV_CLEAR of the same cycle leaves them set. [R11; 32; 0] -/
  fresh   : Word
  /-- EV_ENABLE: 1 in every bit that names an event. [R404; 32; event bits of the page] -/
  enable  : Word
  /-- EV_OVERFLOW_CNT, saturating. [R399; 32; 0] -/
  ovf     : Word
  /-- PAGE_CTRL.FREEZE with the frozen copies of the page's RO block registers. [R402; 1 and copies; 0] -/
  frozen  : Option (List (Nat × Word))
  /-- Read latches of the page's register pairs and pools. [R25, R30; 32 each; 0] -/
  latch   : List (Nat × Word)
  /-- LOCK.LOCKED. [R406; 1; 0] -/
  locked  : Bool
  /-- ERR_CAPTURE. [R405; 32; 0] -/
  err     : ErrCapture
  /-- PWR_REFUSE_REASON. [R399; 8; 0] -/
  refuse  : Nat
  deriving DecidableEq, Repr

/-- A counted pool of R27: free, reserved and in use. -/
structure Pool where
  /-- Free. [R27; count; the pool's size under R29] -/
  free : Nat
  /-- Reserved. [R27; count; 0] -/
  res  : Nat
  /-- In use. [R27; count; 0] -/
  use  : Nat
  deriving DecidableEq, Repr

/-- Since the last summary: events counted of one class (R301). -/
structure Summary where
  count : Nat
  first : Tick
  last  : Tick
  quality : Nat
  deriving DecidableEq, Repr

/-- The event log of a hub (R300 to R304). -/
structure Log where
  /-- Staging queue, oldest first, at most 64 records. [R300; 64 records; empty] -/
  staged  : List LogRec
  /-- RAM ring, newest first, at most 4,096 records. [R300; 4,096 records; empty] -/
  ring    : List LogRec
  /-- SEQ of the next record. [R302; 32; DESIGN CHOICE 0, log 3] -/
  seq     : Nat
  /-- RAISED. [R301; 64; 0] -/
  raised  : Nat
  /-- LOGGED. [R300; 64; 0] -/
  logged  : Nat
  /-- COUNTED. [R300; 64; 0] -/
  counted : Nat
  /-- OVF_CNTk. [R300; 8 × 32; 0] -/
  ovf     : Vector Word 8
  /-- Per class, what the next summary record will say. [R301; per class; none] -/
  sums    : Vector (Option Summary) 8
  /-- Black box, newest first, at most 1,024 records. [R303; 1,024 records; empty] -/
  bb      : List LogRec
  /-- BB_HEAD. [R309; 10; 0] -/
  bbHead  : Nat
  /-- Copies waiting for the black box, oldest first. [R303; list; empty] -/
  bbWait  : List LogRec
  /-- When the last copy began, in elapsed ticks. [R303; time; none] -/
  bbLast  : Option Nat
  /-- BB_SKIP. [R303; 32; 0] -/
  bbSkip  : Word
  /-- BB_FROZEN_CNT. [R304; 32; 0] -/
  bbFrozenCnt : Word
  /-- STATUS.BB_FROZEN. [R304; 1; 0] -/
  bbFrozen : Bool
  /-- STATUS.RETURN_MARK, in OTP. [R304; 1; 0] -/
  returnMark : Bool
  deriving DecidableEq, Repr

/-! ### Links -/

/-- Training state of a lane, coded as LANE_ERRd.STATE (R308). -/
inductive LaneState where
  | trained | training | failed | absent
  deriving DecidableEq, Repr

/-- One direction of a lane or of the String: the sender's and the receiver's books (R18, R19, R22). -/
structure Flow where
  /-- Sender's credit count (FREE of R409). [R18; 0 to 16; 0 while untrained] -/
  credits : Nat
  /-- Buffered frames sent and not yet credited (OUTSTANDING of R409). [R409; 0 to 16; 0] -/
  outstanding : Nat
  /-- Unacknowledged buffered frames: their SEQ, oldest first, at most 15. [R22; list; empty] -/
  unacked : List Nat
  /-- SEQ of the next buffered frame. [R15; 4; 0] -/
  nextSeq : Nat
  /-- Receiver: occupied places. [R18; 0 to 16; 0] -/
  places  : Nat
  /-- Receiver: places freed and not yet returned as credit. [R19; count; 0] -/
  toReturn : Nat
  /-- Receiver: next expected SEQ. [R22; 4; 0] -/
  expect  : Nat
  /-- Receiver: a Replay request is due, naming this SEQ. [R22; 4; none] -/
  replay  : Option Nat
  /-- Sender: resent frames still to leave, oldest first. [R22; list; empty] -/
  resend  : List Nat
  /-- Consecutive frames that failed their CRC. [R23; count; 0] -/
  crcRun  : Nat
  deriving DecidableEq, Repr

/-- A lease message of R284 in flight from a hub to a die. -/
inductive LeaseMsg where
  | renew
  | claim (resume : Nat)
  | release (consumed : Nat)
  deriving DecidableEq, Repr

/-- What a buffered frame from a hub to a die carries: frame 5 - n of an entry's promotion, a lease message, or a register access,
`none` where the frame was lost before a row named its access (R16, R20, R69, R284). -/
inductive DownItem where
  | promo (id n : Nat)
  | lease (m : LeaseMsg)
  | access (m : Option MgmtReq)
  deriving DecidableEq, Repr

/-- The lane of one hub to one die (R13 to R24). -/
structure Lane where
  /-- STATE of LANE_ERRd. [R308; 2; 0 in the register; training until trained, R24] -/
  st      : LaneState
  /-- Agreed protocol version, 0 while untrained. [R24; 4; 0] -/
  version : Nat
  /-- RETRAIN, saturating. [R308; 6; 0] -/
  retrain : Nat
  /-- REPLAY, saturating. [R308; 8; 0] -/
  replays : Nat
  /-- CRC, saturating. [R308; 16; 0] -/
  crc     : Nat
  /-- Consecutive failed trainings. [R298; count; 0] -/
  failRun : Nat
  /-- Elapsed instant at which the lane was last found FAILED. [R298; time; 0] -/
  failAt : Nat
  /-- Hub to field. [R18; books; empty] -/
  down    : Flow
  /-- Field to hub. [R18; books; empty] -/
  up      : Flow
  /-- The last four Output state frames sent. [R17; 4 × 64; 0] -/
  outState : Vector Dword 4
  /-- The last Time frame's payload. [R48; 64; none] -/
  timeFrame : Option Tick
  /-- Measured one-way delay. [R48; ticks; DESIGN CHOICE 0, log 3] -/
  delay   : Nat
  /-- The last eight Status frames received by the hub's holding registers. [R17; 8 × 64; 0] -/
  status  : Vector Dword 8
  /-- The lease report of the last Idle frame. [R288; 64; HOLDER none, the rest 0, before a frame] -/
  report  : Dword
  /-- A lease message in flight. [R284; message; none] -/
  lease   : Option LeaseMsg
  /-- GRANT in flight to the hub, with PROMO_CNT. [R287; 16; none] -/
  grant   : Option Nat
  /-- Entry whose promotion frames are in flight, and how many are still to arrive. [R69; id, count; none] -/
  promo   : List (Nat × Nat)
  /-- Index of the promotion last launched. [R283; 16; 0] -/
  promoIdx : Nat
  /-- What the unacknowledged frames to the die carry, oldest first: the sender keeps each until ACK covers it. [R22; list; empty] -/
  lostDown : List DownItem
  /-- Frames to the die that a retrain leaves to be replayed, oldest first. [R23; list; empty] -/
  again : List DownItem
  /-- Elapsed instants of the last management frame in each direction, from which 31 slots are counted. [R20; time; 0] -/
  mgmtDownAt : Nat
  mgmtUpAt : Nat
  /-- The last intact frame received in each direction, as its 96 bits. [R15; 96; none] -/
  lastDown : Option (BitVec 96)
  lastUp : Option (BitVec 96)
  deriving DecidableEq, Repr

/-! ### Schedule and results -/

/-- The outcome of an entry, coded as in EV_SCHED_DONE (R72, R389). -/
inductive EntryOutcome where
  | executed | cancelled | missed
  deriving DecidableEq, Repr

/-- Where an admitted entry stands between admission and retirement (R64, R69, R412). -/
inductive EntryPhase where
  | admitted | promoting | queued | active | finished (o : EntryOutcome)
  deriving DecidableEq, Repr

/-- An entry's share of the plans over device time (R64, R65). -/
structure LanePlan where
  /-- The instant its promotion begins: the promotion frames, and the near-term queue slot from there on. -/
  promoAt : Tick
  /-- Its planned retirement at the die, to which it holds the slot. -/
  untilAt : Tick
  /-- Field-to-hub frames, planned evenly over [lo, hi). -/
  frames : Nat
  lo : Tick
  hi : Tick
  deriving DecidableEq, Repr

/-- An admitted or deferred entry as the schedule store and the near-term queue hold it. -/
structure Entry where
  id     : Nat
  e      : SchedEntry
  octets : List Byte
  ch     : Chan
  owner  : Who
  ver2   : Bool
  phase  : EntryPhase
  /-- Occurrences or results done so far. -/
  done   : Nat
  /-- A CAPTURE that a cancellation or a step has stopped at an instant, with its outcome: it still takes the edges stamped
  before it (R73, R75). -/
  cut    : Option (Tick × EntryOutcome)
  /-- Promotion index once launched (R283). -/
  promo  : Option Nat
  /-- Reserved record length in words, 0 for no record (R78). -/
  words  : Nat
  /-- STATUS that the die gives the record at retirement, 4 after a capture overflow (R77, R219). -/
  st     : Nat
  /-- Image of a MODE_SET's stored set as it stood at admission; none with set 0 (R59, R384). -/
  img    : Option ChanImg
  plan   : LanePlan
  deriving DecidableEq, Repr

/-- A unit in the deferral queue (R68). -/
structure DeferUnit where
  entries : List (SchedEntry × List Byte)
  owner   : Who
  ver2    : Bool
  lastReason : Nat
  deriving DecidableEq, Repr

/-- A result-store record (R77 to R81). -/
structure Record where
  id     : Nat
  /-- Stream 1 to 63, or 0 for the fetch queue (R61). -/
  dest   : Nat
  tag    : Word
  /-- The host key, RESULT_SLOT [25:0] (R61): R77 gives it no word of the record, so that nothing delivered shows it (log 60). -/
  key    : Nat
  chan   : Nat
  opcode : Nat
  status : Nat
  done   : Nat
  len    : Nat
  time0  : Tick
  /-- Body words written, by word index in the record; an unwritten word reads 0 (R80). -/
  body   : List (Nat × Word)
  /-- Words delivered so far, from word 0. -/
  sent   : Nat
  /-- Elapsed instant of retirement. -/
  retired : Option Nat
  /-- COUNT of the entry. -/
  count  : Nat
  /-- A time-locked SAMPLE, which a compact stream carries in compact form (R367). -/
  compact : Bool
  /-- Its last word or sample has been delivered (R80). -/
  ended  : Bool
  deriving DecidableEq, Repr

/-- What a planned cost charges (R262). -/
inductive Cost where
  /-- Energy credits landing in an epoch. -/
  | energy (epoch credits : Nat)
  /-- Dissipation held over [lo, hi). -/
  | heat (lo hi mw : Nat)
  /-- A standing charge of a channel from an instant on: heat in mW, barrier draw in 0.1 mW. -/
  | standing (at_ : Tick) (c : ChanId) (heat barrier : Nat)
  deriving DecidableEq, Repr

/-- One item of the ledger's plan (R263, R264). -/
structure PlanItem where
  die   : DieId
  cls   : Nat
  owner : Option Nat
  cost  : Cost
  deriving DecidableEq, Repr

/-! ### Sessions -/

/-- A response as R376 lays it out. -/
structure Response where
  cmd    : Nat
  status : ZS
  detail : Nat
  body   : List Byte
  deriving DecidableEq, Repr

/-- A message that leaves the device: to a UDP session or into the SPI tunnel (R354, R370). -/
structure OutMsg where
  who   : Who
  version : Nat
  kind  : Nat
  boot  : Nat
  session : Nat
  epoch : Nat
  seq   : Nat
  keyId : Nat
  dup   : Bool
  body  : List Byte
  tag   : BitVec 128
  /-- Address it goes to, and port (R362, R366). -/
  dst   : BitVec 128 × Nat
  /-- The device's port it leaves by: 0 P0, 1 P1, 2 both, 3 none: a tunnel's message, or one to a session that has ended (R352,
  R360, R366). -/
  port  : Nat
  deriving DecidableEq, Repr

/-- A UDP session (R357 to R360). -/
structure Session where
  id      : Nat
  epoch   : Nat
  version : Nat
  retry   : Nat
  ka      : Nat
  control : Nat
  evClasses : Nat
  port    : PortId
  /-- Elapsed instant of the last authenticated datagram. -/
  lastRx  : Nat
  /-- N, the next SEQ expected (R356). -/
  next    : Nat
  held    : List (Nat × Nat × Datagram)
  cache   : List (Nat × Response)
  pendingSeq : List Nat
  evq     : List LogRec
  txSeq   : Nat
  /-- Link loss declared and not yet resumed (R358). -/
  lost    : Bool
  src     : BitVec 128
  srcPort : Nat
  deriving DecidableEq, Repr

/-- The host SPI session (R370, R382). -/
structure SpiSession where
  version : Nat
  evClasses : Nat
  tunnel  : List OutMsg
  evq     : List LogRec
  txSeq   : Nat
  /-- EPOCH that its last `SessionOpen` returned, 0 before one. [R357, R382; 32; 0] -/
  epoch   : Nat
  /-- N, the next SEQ expected, which the first request gives (log 52). [R356; 32; none] -/
  next    : Option Nat
  /-- Requests held for a gap: SEQ, elapsed instant and message. [R356; list of 7; empty] -/
  held    : List (Nat × Nat × TunnelMsg)
  /-- The last 16 responses with their SEQ. [R356; list of 16; empty] -/
  cache   : List (Nat × Response)
  /-- SEQ of the requests whose response is still to come. [R356; list; empty] -/
  pendingSeq : List Nat
  deriving DecidableEq, Repr

/-- A command in the command queue (R378). -/
structure QueuedCmd where
  req : Req
  /-- The body as it arrived, which is read when the command is taken, under the version that its session then has (R378, R392). -/
  body : List Byte
  /-- Where a `SessionOpen` over UDP came from: port, address and UDP port. -/
  origin : Option (PortId × BitVec 128 × BitVec 16)
  deriving DecidableEq, Repr

/-- An open stream (R366). -/
structure Stream where
  n     : Nat
  who   : Who
  port  : Nat
  form  : Nat
  bw    : Nat
  stale : Nat
  udpPort : Nat
  /-- Elapsed instant from which its bandwidth allows the next block (R366). -/
  nextAt : Nat
  suspended : Bool
  isOpen : Bool
  deriving DecidableEq, Repr

/-! ### Registers the active hub holds for both hubs -/

structure TimeRegs where
  /-- CTRL.ROLE. [R55; 2; 0] -/
  role : Nat
  /-- CTRL.ACCEPT. [R55; 1; 0] -/
  accept : Bool
  /-- HOLD_MAX in s. [R54; 32; 60] -/
  holdMax : Nat
  /-- STEP_THR in ticks. [R54; 32; 30,000] -/
  stepThr : Nat
  /-- P0_CFG and P1_CFG: PROFILE. [R57; 2; 0] -/
  profile : Vector Nat 2
  /-- DOMAIN. [R57; 8; 0] -/
  domain : Vector Nat 2
  /-- TRANSPORT. [R57; 2; 0] -/
  transport : Vector Nat 2
  deriving DecidableEq, Repr

structure SchedRegs where
  /-- CTRL.ADMIT. [R83; 1; 1] -/
  admits : Bool
  /-- CTRL.DONE_EV_ALL. [R83; 1; 0] -/
  doneEvAll : Bool
  /-- STALE_AGE in ms. [R82; 32; 10,000] -/
  staleAge : Nat
  /-- MIN_LEAD in µs. [R82; 32; 100] -/
  minLead : Nat
  /-- LAST_REFUSE. [R84; 32; 0] -/
  lastRefuse : Word
  /-- SUBMIT. [R76; 64; 0] -/
  submitted : Nat
  /-- EXEC. [R76; 64; 0] -/
  executed : Nat
  /-- CANCEL. [R76; 64; 0] -/
  cancelled : Nat
  /-- MISS. [R76; 64; 0] -/
  missed : Nat
  /-- REFUSE. [R76; 64; 0] -/
  refused : Nat
  /-- IN_FLIGHT. [R82; 32; 0] -/
  inFlight : Nat
  /-- DEFERRED. [R82; 32; 0] -/
  deferred : Nat
  /-- STRADDLE_CNT of the hub. [R82; 32; 0] -/
  straddle : Word
  /-- STALE_REC. [R82; 32; 0] -/
  staleRec : Word
  /-- STALE_WORDS. [R82; 32; 0] -/
  staleWords : Word
  deriving DecidableEq, Repr

structure Policy where
  /-- FLOOR. [R275; 16; 0] -/
  floor : Nat
  /-- CEIL. [R275; 16; 0xFFFF] -/
  ceil  : Nat
  deriving DecidableEq, Repr

structure LedgerRegs where
  /-- Package dissipation pool. [R27; 25,000; 25,000 free] -/
  pool : Pool
  /-- PT.MAX. [R276; 2; 0] -/
  ptMax : Nat
  /-- PT.MIN. [R276; 2; 2] -/
  ptMin : Nat
  /-- POLICY1 to POLICY3 of the package. [R275; 3 × 32; 0xFFFF_0000] -/
  policy : Vector Policy 3
  /-- PREEMPT_CNT. [R274; 32; 0] -/
  preemptCnt : Word
  /-- CLIP_CNT. [R274; 32; 0] -/
  clipCnt : Word
  /-- CONFLICT_CNT. [R274; 32; 0] -/
  conflictCnt : Word
  /-- Device charges of R259 in force, mW. [R259; mW; 0] -/
  devChg : Nat
  deriving DecidableEq, Repr

structure PwrRegs where
  /-- WAKE_CFG. [R347; 8; 0x03] -/
  wakeCfg : Nat
  /-- ALARM in force. [R345; 64; 0] -/
  alarm : Nat
  /-- ALARM_LO and ALARM_HI as last written. [R345; 2 × 32; 0] -/
  alarmLo : Word
  alarmHi : Word
  /-- TOKEN_LO and TOKEN_HI. [R335; 64; 0] -/
  token : List Byte
  deriving DecidableEq, Repr

/-- The Tin Soldier (R310 to R322). -/
structure Wdog where
  /-- CTRL.EN. [R320; 1; 0] -/
  en : Bool
  /-- CTRL.ACT_EARLY. [R320; 2; 0] -/
  actEarly : Nat
  /-- CTRL.ACT_LATE. [R320; 2; 0] -/
  actLate : Nat
  /-- CTRL.ACT_SEQ. [R320; 2; 0] -/
  actSeq : Nat
  /-- PERIOD.P in µs. [R321; 24; 100,000] -/
  p : Nat
  /-- PERIOD.CLOSE. [R321; 8; 128] -/
  close : Nat
  /-- PEND: the PERIOD value waiting. [R316; 32; none] -/
  pend : Option (Nat × Nat)
  /-- Elapsed instant of the period start, from which n is counted. [R310; 24; 0] -/
  start : Nat
  /-- STATUS.WAIVED. [R322; 1; 0] -/
  waived : Bool
  /-- STATUS.ARMED. [R322; 1; 0] -/
  armed : Bool
  /-- STATUS.PAUSED. [R322; 1; 0] -/
  paused : Bool
  /-- EARLY_CNT. [R319; 32; 0] -/
  earlyCnt : Word
  /-- LATE_CNT. [R319; 32; 0] -/
  lateCnt : Word
  /-- SEQ_CNT. [R319; 32; 0] -/
  seqCnt : Word
  /-- CFG_REJECT_CNT. [R319; 32; 0] -/
  rejectCnt : Word
  /-- Elapsed instant of the last late violation, in whose register cycle KEY_B is part of it. [R314; time; none] -/
  lateAt : Option Nat
  deriving DecidableEq, Repr

/-- Mains tracker states of R126. -/
inductive MainsState where
  | free | locked | hold
  deriving DecidableEq, Repr

/-- The mains tracker and the grid (R122 to R128). -/
structure Mains where
  /-- CTRL.SRC. [R128; 2; 0] -/
  src : Nat
  /-- CTRL.CH. [R128; 7; 0] -/
  ch : Nat
  /-- CTRL.NOM. [R128; 1; 0] -/
  nom : Bool
  /-- CTRL.HOLD_S. [R128; 16; 10] -/
  holdS : Nat
  /-- NET_FREQ in mHz. [R127; 32; 50,000] -/
  netFreq : Nat
  /-- STATUS.STATE. [R127; 2; 0] -/
  st : MainsState
  /-- PERIOD in ticks. [R126; 32; 60,000,000] -/
  period : Nat
  /-- The last measured periods, newest first, at most 8. [R126; 8 periods; empty] -/
  meas : List Nat
  /-- The last crossing. [R125; time; none] -/
  lastCross : Option Tick
  /-- Elapsed instant of the last measurement. [R126; time; 0] -/
  lastMeas : Nat
  /-- Elapsed instant at which HOLD began. [R126; time; 0] -/
  holdSince : Nat
  /-- ORIGIN. [R127; 64; 0] -/
  origin : Tick
  /-- Periods in use before, with the instants until which they were, since the last boundary, newest first. [R123; list; empty] -/
  perWas : List (Tick × Nat)
  /-- The last boundaries sent, newest first, at most 4: number from the origin, and instant. [R123; list; (0, 0)] -/
  bounds : List (Nat × Tick)
  /-- Fraction of a packet carried to the next period, in ticks below 125. [R123; 7; 0] -/
  carry : Nat
  deriving DecidableEq, Repr

/-- A master axis (R161 to R181). -/
structure Axis where
  /-- CFGa.SRC. [R181; 2; 0] -/
  src : Nat
  /-- CFGa.ZREF. [R181; 1; 0] -/
  zref : Bool
  /-- CFGa.DIR. [R181; 1; 0] -/
  dir : Bool
  /-- CFGa.ENC_DIE. [R181; 3; 0] -/
  encDie : Nat
  /-- CFGa.ENC_PAIR. [R181; 3; 0] -/
  encPair : Nat
  /-- CPRa. [R180; 24; 4,096] -/
  cpr : Nat
  /-- ZEROa. [R180; 32; 0] -/
  zero : Nat
  /-- STILLa in ms. [R180; 10; 10] -/
  still : Nat
  /-- POS: the position at the last sample. [R180; 64; 0] -/
  pos : Int
  /-- Its time. [R163; 64; none before a sample] -/
  posAt : Option Tick
  /-- STATUSa.MOVING. [R180; 1; 0] -/
  moving : Bool
  /-- Its samples, and its Z references, of the last 8 s and the last one before them, newest first: time, position, and the device
  time of its arrival. [R222, R223; list; empty] -/
  past : List (Tick × Int × Tick)
  /-- Serial number of the last edge taken from the encoder pair. [R163; MODEL'S OWN; 0] -/
  took : Nat
  /-- Elapsed instant of the last sample. [R180; time; 0] -/
  lastRx : Nat
  /-- Correction added by Z references. [R165; signed; 0] -/
  corr : Int
  /-- NET_DISCARDa. [R164; 32; 0] -/
  netDiscard : Word
  deriving DecidableEq, Repr

structure LogRegs where
  /-- CTRL.BB_MASK. [R309; 8; 0x03] -/
  bbMask : Nat
  /-- READ_IDX. [R309; 12; 0] -/
  readIdx : Nat
  deriving DecidableEq, Repr

structure RedunRegs where
  /-- CTRL.AUTO_TAKEOVER. [R306; 1; 1] -/
  autoTakeover : Bool
  /-- CTRL.LANE_SWITCH. [R306; 1; 1] -/
  laneSwitch : Bool
  /-- CTRL.FAULT_SWITCH. [R306; 1; 1] -/
  faultSwitch : Bool
  deriving DecidableEq, Repr

structure PortRegs where
  /-- PnCTRL.EN. [R374; 1; 1] -/
  en : Bool
  /-- PnCTRL.SPEED_MAX. [R374; 2; 0] -/
  speedMax : Nat
  /-- PnCTRL.GCL_LEN. [R374; 6; 0] -/
  gclLen : Nat
  /-- PnCTRL.CYCLE in µs. [R374; 14; 1,000] -/
  cycle : Nat
  /-- GCLn entries. [R373; 32 × 32; DESIGN CHOICE 0, log 3] -/
  gcl : Vector Word 32
  deriving DecidableEq, Repr

structure NetRegs where
  ports : Vector PortRegs 2
  /-- REDUN_CFG.MODE as written. [R373; 2; 0] -/
  mode : Nat
  /-- UDP_PORT. [R373; 16; 47,000] -/
  udpPort : Nat
  /-- IPV4_ADDR. [R373; 32; 0] -/
  ipv4 : Word
  /-- IPV4_MASK. [R373; 32; DESIGN CHOICE 0, log 3] -/
  mask : Word
  /-- IPV6_ADDR. [R373; 128; DESIGN CHOICE 0, log 3] -/
  ipv6 : Vector Word 4
  /-- KEY_LOAD0 to KEY_LOAD7. [R363; 256; DESIGN CHOICE 0, log 3] -/
  keyLoad : Vector Word 8
  deriving DecidableEq, Repr

/-- The hub's shadow of one channel (R112, R113). -/
structure Shadow where
  /-- Shadow word and epoch. [R112; 32; 0x0000_0A00 (DISABLED)] -/
  word : Word
  /-- Consecutive disagreeing Status words. [R113; count; 0] -/
  run  : Nat
  /-- Elapsed instants of the recent skews. [R113; list; empty] -/
  skews : List Nat
  /-- The last executed output entry's opcode and value as the hub knows it. [R113; option; none] -/
  lastOut : Option (Nat × Word)
  deriving DecidableEq, Repr

/-- The request levels of a channel that Output state frames carry (R110). -/
structure Levels where
  /-- HOST. [R110; 1; 0] -/
  host : Bool
  /-- WATCHDOG. [R110; 1; 0] -/
  wdog : Bool
  /-- SKEW. [R110; 1; 0] -/
  skew : Bool
  /-- HOLD_REQ. [R110; 1; 0] -/
  hold : Bool
  deriving DecidableEq, Repr

/-- Everything the active hub holds and mirrors (R282). -/
structure Core where
  time   : TimeRegs
  sched  : SchedRegs
  ledger : LedgerRegs
  pwr    : PwrRegs
  wd     : Wdog
  mains  : Mains
  axes   : Vector Axis 4
  logr   : LogRegs
  redun  : RedunRegs
  net    : NetRegs
  /-- AXIS.LAST_RESET. [R180; 64; 0] -/
  lastReset : Tick
  /-- AXIS.RESET_CNT. [R180; 32; 0] -/
  resetCnt : Word
  /-- Decimator resets to come: instant and source (0 SYNC_IN, 1 FilterSync). [R170; list; empty] -/
  resets : List (Tick × Nat)
  /-- Schedule-slot pool. [R27; 65,536; all free] -/
  slots  : Pool
  /-- Result-store pool. [R27; 1,048,576 words; all free] -/
  store  : Pool
  /-- Admitted entries in admission order. [R64; list; empty] -/
  entries : List Entry
  /-- Next entry identity. [model's own numbering; 0] -/
  nextId : Nat
  /-- Deferral queue in acceptance order. [R68; 1,024 entries; empty] -/
  defer  : List DeferUnit
  /-- Result-store records, oldest first. [R80; list; empty] -/
  records : List Record
  /-- The ledger's plan. [R263; list; empty] -/
  plan   : List PlanItem
  /-- Commands waiting. [R378; 32 commands; empty] -/
  cmdq   : List QueuedCmd
  /-- UDP sessions. [R357; 8; none] -/
  sess   : Vector (Option Session) 8
  /-- Host SPI session. [R382; version 0x32, EV_CLASSES 0] -/
  spi    : SpiSession
  /-- Session epoch, device-wide since power-up. [R357; 32; 0] -/
  epoch  : Nat
  /-- Streams. [R366; 63; none] -/
  streams : List Stream
  /-- Stored channel sets. [R384; 1,024 sets; none] -/
  sets   : List (Nat × BitVec 16 × ImageArg)
  /-- Shadows. [R112; 96; DISABLED] -/
  shadow : Vector (Vector Shadow 16) 6
  /-- Request levels. [R110; 96 × 4; 0] -/
  levels : Vector (Vector Levels 16) 6
  /-- A cancellation waiting for tc: requester, tc, the entries named with their TAGs, and the count of TAGs that name none. [R75; list;
  empty] -/
  cancels : List (Req × Tick × List (Nat × Word) × Nat)
  /-- Channels to be disabled at td: [R74; list; empty] -/
  disables : List (Chan × Tick)
  /-- The `PoolAudit` commands under way: requester and snapshot instant, oldest first. [R31; list; empty] -/
  audit  : List (Req × Tick)
  /-- AUDIT, AUDIT_MASK, AUDIT_CNT and CHECK. [R412; 64, 32, 32, 32; 0] -/
  auditAt : Tick
  auditMask : Word
  auditCnt : Word
  check  : Word
  /-- NET counters AUTH_FAIL, SEQ_DROP, DUP_DISCARD, RELAY_DROP. [R373; 32 each; 0] -/
  authFail : Word
  seqDrop : Word
  dupDiscard : Word
  relayDrop : Word
  /-- Elapsed instant of the last EV_AUTH_FAIL. [R355; time; none] -/
  authEvAt : Option Nat
  /-- Keys in force: KEY_ID and 32 octets, newest first. [R363; 4 keys; none] -/
  keys   : List (Nat × List Byte)
  /-- Buffered frames of each die whose content the hub has taken in: its count of frames consumed. [R283; 6 × 16; 0] -/
  taken  : Vector Nat 6
  /-- Grace: KEY_ID to delete, KEY_ID in force, elapsed end, session. [R364; option; none] -/
  grace  : Option (Nat × Nat × Nat × Who)
  /-- The hour of the last warm-start write. [R194; time; none] -/
  warmAt : Option Tick
  deriving DecidableEq, Repr

/-! ### Channels -/

/-- A configuration waiting for its instant tm. -/
structure PendCfg where
  tm  : Tick
  img : ChanImg
  set : Nat
  /-- The entry whose MODE_SET this is, if any. -/
  entry : Option Nat
  deriving DecidableEq, Repr

/-- What an output channel drives (R93, R104, R236). -/
structure Output where
  /-- The value applied, in the code scale of R89. [R93; 32; 0] -/
  value : Int
  /-- DRIVE: the driver is on. [R111; 1; 0] -/
  drive : Bool
  /-- The last output entry executed since the mode was entered: OPCODE and PARAM. [R109; option; none] -/
  last  : Option (Nat × Word)
  /-- Device time of the last on or high command, and of the last off, low or high-impedance command. [R102; time; none] -/
  onAt  : Option Tick
  offAt : Option Tick
  /-- Driving high before the last OUT_SET, which counts until that entry's T. [R233; 1; 0] -/
  wasHigh : Bool
  /-- Device time at which the driver last went off. [R109; time; none] -/
  offSince : Option Tick
  /-- A RAMP in progress: its next step's instant. [R104; time; none] -/
  ramp  : Option Tick
  /-- PWM: running. [R236; 1; 0] -/
  run   : Bool
  /-- PWM: period P in ticks. [R236; 32; 3,000,000] -/
  period : Nat
  /-- PWM: duty u. [R236; 16; 0] -/
  duty  : Nat
  /-- PWM: period start p_k in force, and the high phase's end. [R236; time; 0] -/
  pk    : Tick
  hEnd  : Tick
  /-- PWM: a period start due. [R236; time; none] -/
  nextPk : Option Tick
  /-- PWM_CLIP. [R237; 32; 0] -/
  clip  : Word
  /-- Adaptive compensations, rising and falling, in ticks, once an edge has moved them. [R235; signed; none: the fixed values] -/
  compRise : Option Int
  compFall : Option Int
  /-- Edges held at the bound, per direction. [R235; count; 0] -/
  limRise : Nat
  limFall : Nat
  /-- OUT_STATUS.COMP_LIMIT. [R254; 1; 0] -/
  compLimit : Bool
  /-- OUT_STATUS.EDGE_ERR. [R254; 16 signed; 0] -/
  edgeErr : Int
  /-- The last commanded edge awaiting its readback crossing: T and rising. [R235; option; none] -/
  edge  : Option (Tick × Bool)
  /-- SHARE, each member's run of comparisons beyond 15 %, and the run within 12 %. [R240; 32, counts; 0] -/
  share : Word
  shareBad : List Nat
  shareGood : Nat
  /-- Elapsed instant of the last comparison of the group's members. [R240; time; none] -/
  shareAt : Option Nat
  /-- OUT_STATUS.SHARE_IMBAL. [R254; 1; 0] -/
  imbal : Bool
  /-- An off-pulse in progress: its start. [R101; time; none] -/
  pulse : Option Tick
  /-- The last completed off-pulse: its end and whether V(IO) was at or below 5 V. [R109; option; none] -/
  lastPulse : Option (Tick × Bool)
  /-- OPT_SKIP. [R114; 32; 0] -/
  optSkip : Word
  deriving DecidableEq, Repr

/-- Status flags of the channel word, bits [7:0], and what else a diagnostic keeps (R111, R97 to R103). -/
structure Diag where
  /-- LP_UV. [R111; 1; 0] -/
  lpUv : Bool
  /-- THERMAL. [R111; 1; 0] -/
  thermal : Bool
  /-- SHORT_LP. [R111; 1; 0] -/
  shortLp : Bool
  /-- FOREIGN. [R111; 1; 0] -/
  foreign : Bool
  /-- BACKFEED. [R111; 1; 0] -/
  backfeed : Bool
  /-- Backfeed latched, modes 0xB and 0xC. [R100; 1; 0] -/
  bfLatch : Bool
  /-- The backfeed confirmed last has not been absent for BF_FILT since. [R100, R109; 1; 0] -/
  bfCond : Bool
  /-- SHORT_FG. [R111; 1; 0] -/
  shortFg : Bool
  /-- OVERLOAD. [R111; 1; 0] -/
  overload : Bool
  /-- OPEN. [R111; 1; 0] -/
  openW : Bool
  /-- Consecutive open results and consecutive good results. [R98; counts; 0] -/
  owBad : Nat
  owGood : Nat
  /-- Overrange episode open. [R88; 1; 0] -/
  overr : Bool
  /-- Shunt path open. [R95; 1; 0] -/
  shunt : Bool
  /-- Loop supply or excitation folded back. [R95; 1; 0] -/
  fold : Bool
  /-- Elapsed instants at which the shunt path last opened and the supply last folded back. [R95; time; none] -/
  shuntAt : Option Nat
  foldAt : Option Nat
  /-- TERM: IO class and SN class. [R114; 2 × 2; 0] -/
  termIo : Nat
  termSn : Nat
  /-- Backfeed on this channel awaits an uncorrelated clear. [R102; 1; 0] -/
  bfAlone : Bool
  /-- The channel that EV_FOREIGN_DRIVE named with this one. [R109; option; none] -/
  foreignWith : Option ChanId
  /-- Of the two, this is the channel on which the backfeed was confirmed. [R109; 1; 0] -/
  foreignOwn : Bool
  deriving DecidableEq, Repr

/-- What happens to a pair's count at an instant (R212, R215, R216); `config` is a change of DECODE and Z_MODE. -/
inductive PairAct where
  | preset (w : Word)
  | config (dec zMode : Nat)
  | level (isA high : Bool)
  | a (rising : Bool)
  | b (rising : Bool)
  | z
  deriving DecidableEq, Repr
/-- An act on a pair with its timestamp (R214). -/
structure PairEv where
  t : Tick
  act : PairAct
  deriving DecidableEq, Repr
/-- An encoder pair's count (R212 to R215): the count, the same count without the resets of Z_MODE 2, which an axis follows, the levels
of A and B, the last edge of each, the latched count, and the DECODE and Z_MODE by which edges count. -/
structure EncSt where
  /-- [R212; 32 signed; 0] -/
  cnt : Int
  /-- [R163, R215; 32 signed; 0] -/
  pos : Int
  /-- [R212; 2 × 1; 0] -/
  a : Bool
  b : Bool
  /-- [R213; time; none] -/
  la : Option Tick
  lb : Option Tick
  /-- [R225; 32; 0] -/
  zLatch : Word
  /-- [R227; 3, 2; 0] -/
  dec : Nat
  zMode : Nat
  deriving DecidableEq, Repr

/-- The digital input and counter of a channel (R207 to R228). -/
structure Din where
  /-- DIN_STATUS.RAW. [R228; 1; 0] -/
  raw : Bool
  /-- Last comparator transitions, rising and falling. [R210; time; none] -/
  lastRise : Option Tick
  lastFall : Option Tick
  /-- tm + 50 µs of the last mode change, which stamps a first rising output (R211). [R211; time; 0] -/
  since : Tick
  /-- The comparator's level is known since it was last watched from anew. [R208, R216; 1; 0] -/
  known : Bool
  /-- Integrator. [R210; 12; 0] -/
  integ : Nat
  /-- Filter output. [R210; 1; 0] -/
  filt : Bool
  /-- The last filter tick. [R210; time; 0] -/
  filtAt : Tick
  /-- EDGE. [R225; 64; DESIGN CHOICE 0, log 3] -/
  edgeAt : Tick
  /-- EDGE_CNT, modulo 2^32. [R225; 32; 0] -/
  edgeCnt : Word
  /-- CNT and Z_LATCH after the settled edges of the pair, with its input levels. [R212, R225; 32, 32; 0] -/
  enc : EncSt
  /-- Edges of the pair that earlier ones may still precede, and presets, in the order in which they act. [R214, R215; list; empty] -/
  book : List PairEv
  /-- Count changes, and rising Z edges, that the pair's axes have not taken, oldest first: serial number, instant and count.
  [R163, R165, R214; list; empty] -/
  feed : List (Nat × Tick × Option Int)
  /-- CNT_ERR. [R225; 32; 0] -/
  cntErr : Word
  /-- Serial number of the last of these. [R163; MODEL'S OWN; 0] -/
  feedN : Nat
  /-- Presets waiting: value and instant. [R216; list; empty] -/
  preset : List (Word × Tick)
  /-- Elapsed instant of the last illegal transition of the open episode. [R213; time; none] -/
  encEp : Option Nat
  /-- CAP_OVF. [R225; 32; 0] -/
  capOvf : Word
  /-- CAP_HELD. [R225; 32; 0] -/
  capHeld : Word
  /-- Captured edges that wait for axis information: entry, time, rising. [R222; list; empty] -/
  capWait : List (Nat × Tick × Bool)
  deriving DecidableEq, Repr

/-- The chain of a channel: its restart, lock, estimates and counters (R151 to R179, R122, R145). -/
structure ChainSt where
  /-- tq of the last restart. [R153; time; 0] -/
  tq : Tick
  /-- FILT_STATUS.SETTLING. [R179; 1; 0] -/
  settling : Bool
  /-- FILT_STATUS.LOCK_ACT. [R179; 2; 0] -/
  lockAct : Nat
  /-- DC blocker estimate e, in 2^-24 of a code. [R155; signed; 0] -/
  dcb : Int
  /-- Chain origin. [R152; time; 0] -/
  origin : Tick
  /-- High-water step. [R166; signed 32; none] -/
  high : Option Int
  /-- The last crossing that produced a result. [R168; time; none] -/
  lastCross : Option Tick
  /-- ANG_LATE. [R175; 32; 0] -/
  angLate : Word
  /-- ANG_OVERSPEED. [R175; 32; 0] -/
  angOver : Word
  /-- Elapsed instant of the last late crossing, and of the last overspeed crossing, of an open episode. [R167, R168; time; none] -/
  lateEp : Option Nat
  overEp : Option Nat
  /-- SAT_CNT. [R145; 32; 0] -/
  satCnt : Word
  /-- MC_LEN. [R145; 32; 0] -/
  mcLen : Word
  /-- Start of the mains-cycle window in progress. [R122; time; none] -/
  mcStart : Option Tick
  /-- Crossings found and not yet resampled: step angle and instant. [R166; list; empty] -/
  cross : List (Nat × Tick)
  /-- Index of the next base-rate sample, which represents origin + index × 12,000. [R152; integer; 0] -/
  next : Int
  /-- Base-rate samples since the restart as stage 4 leaves them, newest first, at most 6,200. [R151, R167; codes; empty] -/
  hist : List Int
  /-- Index of the next output: on the grid of R157, or of the next window of R160. [R157, R160; integer; 0] -/
  nextK : Int
  /-- Timestamp since which every result has been beyond 2^30, or within. [R88; time; none] -/
  overSince : Option Tick
  inSince : Option Tick
  deriving DecidableEq, Repr

/-- Slice coefficients for one input quantity (R182). -/
structure Coeffs where
  offset : Int
  gain   : Int
  bow    : Int
  deriving DecidableEq, Repr

/-- What served a channel up to an instant (R182, R185, R197): the slice's coefficients and, of a spare, its trim, a ramp of it and
the instant from which a calibration point holds the ramp. -/
structure Served where
  /-- Device time until which it served. -/
  till : Tick
  co   : Coeffs
  trim : Int
  ramp : Option (Int × Int × Tick)
  hold : Option Tick
  deriving DecidableEq, Repr

/-- A `CalibrateSystem` point in progress (R196, R197). -/
structure CalPoint where
  req  : Req
  span : Bool
  v    : Int
  w    : Nat
  s    : Nat
  tp   : Tick
  deriving DecidableEq, Repr

/-- Calibration of a channel (R182 to R203). -/
structure Cal where
  /-- Own slice coefficients, by quantity code. [R195; list; empty: the factory coefficients of Config.factory] -/
  slice : List (Nat × Coeffs)
  /-- SYS_OFFSET. [R202; signed 32; 0] -/
  sysOff : Int
  /-- SYS_GAIN. [R202; 32; 0x4000_0000] -/
  sysGain : Int
  /-- Coefficients to take effect: instant, offset, gain, and whether they come from a point. [R198, R199; option; none] -/
  next : Option (Tick × Int × Int × Bool)
  /-- Kept zero point (m0, v0). [R198; option; none] -/
  zero : Option (Int × Int)
  /-- LAST_POINT. [R203; 4; 0] -/
  lastPoint : Nat
  /-- PARKED. [R203; 1; 0] -/
  parked : Bool
  /-- WARM. [R203; 1; 0] -/
  warm : Bool
  /-- UNCOMMITTED. [R203; 1; 0] -/
  uncommitted : Bool
  /-- Point in progress. [R196; option; none] -/
  point : Option CalPoint
  /-- CONV_STATUS.SLICE: 0 own, 1 spare 0, 2 spare 1. [R147; 2; 0] -/
  server : Nat
  /-- What served before, newest first, at most 8. [R182, R185; list; empty] -/
  was : List Served
  /-- System corrections of the past with the instants until which they held, newest first, at most 8. [R198; list; empty] -/
  sysWas : List (Tick × Int × Int)
  /-- tp of the calibration points that have ended, newest first, at most 8. [R197; list; empty] -/
  ended : List Tick
  deriving DecidableEq, Repr

/-- FSK reception and transmission of an entry (R247, R248). -/
structure FskRun where
  id   : Nat
  t    : Tick
  tw   : Tick
  busy : Bool
  octets : List Byte
  parity : Bool
  framing : Bool
  firstErr : Option Nat
  time0 : Option Tick
  carrier : Bool
  /-- Time-quality code at the instant that TIME0 denotes (R52, R248). -/
  q : Nat
  deriving DecidableEq, Repr

structure Fsk where
  /-- The FSK_FRAME in progress. [R247; option; none] -/
  run : Option FskRun
  /-- FSK_STATUS.CD, TX, RX. [R252; 3; 0] -/
  cd : Bool
  tx : Bool
  rx : Bool
  /-- FSK_ERR: parity, framing, octets beyond NRX. [R252; 12, 12, 8; 0] -/
  parityErr : Nat
  framingErr : Nat
  beyond : Nat
  /-- Reception ended with NRX octets while the carrier was still there: further octets are beyond NRX. [R252; 1; 0] -/
  overrun : Bool
  deriving DecidableEq, Repr

/-- A universal channel (R85 to R118). -/
structure Channel where
  /-- Registers as last written. [R114 to R117, R145 to R150, R175 to R178, R225 to R227, R252 to R255, R278, R434; 18 × 32; the reset
  column of each table] -/
  want : ChanImg
  /-- The settings in force. [R434; 18 × 32; as the registers] -/
  img  : ChanImg
  /-- CFG_SET in force. [R115; 12; 0] -/
  cfgSet : Nat
  /-- Configurations waiting for tm. [R93; list; empty] -/
  pend : List PendCfg
  /-- PER_FRAC held until the next PER_INT write. [R154; 32; none] -/
  heldFrac : Option Word
  /-- Register settings waiting for tf: instant, register offset and value. [R154; list; empty] -/
  pendF : List (Tick × Nat × Word)
  /-- TRANSITION in progress: tm. [R93; time; none] -/
  trans : Option Tick
  /-- The channel is the odd member of a pair whose even member is in a pair mode. [R90; 1; 0] -/
  odd : Bool
  /-- Group membership: the lowest channel. [R92; option; none] -/
  group : Option ChanId
  /-- SAFE_CAUSE. [R105; 11; 0] -/
  cause : BitVec 11
  /-- Link-loss hold: elapsed instant of its start. [R107; time; none] -/
  hold : Option Nat
  /-- RESUME of the last `FaultClear` that lowered a request level of this channel. [R109; 1; 0] -/
  resume : Bool
  /-- State epoch. [R111; 16; 0] -/
  epoch : Nat
  /-- The last instant of the die's time at which bits [15:0] of the word changed, and the bits and the epoch before it. [R111; option;
  none] -/
  seen : Option (Tick × Nat × Nat)
  /-- Its parts, field by field below. [R93; structure; below] -/
  out  : Output
  diag : Diag
  din  : Din
  chain : ChainSt
  cal  : Cal
  fsk  : Fsk
  /-- Heat charge in mW and barrier charge in 0.1 mW. [R260; 16, 16; 0] -/
  chgHeat : Nat
  chgBar : Nat
  /-- Consecutive ms of computed heat above the charge. [R267; count; 0] -/
  overMs : Nat
  deriving DecidableEq, Repr

/-! ### Field dies -/

/-- What a field die sends to the lease holder as a buffered frame (R16). -/
inductive LaneItem where
  /-- A Result frame: the record words it writes, its timestamp and time quality, the number of results written with
  it, and the STATUS it gives the record (0 none). -/
  | result (id : Nat) (words : List (Nat × Word)) (stamp : Tick) (q : Nat) (n : Nat) (st : Nat)
  /-- A Capture frame: channel, timestamp [39:0], rising, quality, and whether an Angle tag frame follows (R221). -/
  | capture (id : Nat) (c : ChanId) (stamp : Nat) (rising : Bool) (q : Nat) (angle : Bool)
  /-- An Angle tag frame: record words, timestamp, quality, and the number of results written with it (R169, R221). -/
  | angle (id : Nat) (words : List (Nat × Word)) (stamp : Tick) (q : Nat) (n : Nat)
  /-- An event. -/
  | event (r : LogRec)
  /-- A Management response to a register access: page, offset, write, data (R16, R26). -/
  | mgmt (page offset : Nat) (write : Bool) (data : Word)
  /-- A GRANT to a hub, with PROMO_CNT (R287). -/
  | grant (h : HubId) (promoCnt : Nat)
  deriving DecidableEq, Repr

/-- The phase of a spare slice, coded as CAROUSEL.STATUS (R206). -/
inductive SparePhase where
  | idle | shadowIn | serve | shadowOut | selfCal | parked | fault
  deriving DecidableEq, Repr

structure Spare where
  /-- PHASE. [R206; 4; 0] -/
  phase : SparePhase
  /-- Channel served or shadowed. [R206; 4; 0] -/
  ch : ChanId
  /-- Slot start s. [R185; time; 0] -/
  slot : Tick
  /-- The next slot to begin is the first at or after this instant. [R183; time; 0] -/
  slotFrom : Tick
  /-- FAULT. [R206; 1; 0] -/
  fault : Bool
  /-- LOWPWR. [R410; 1; 0] -/
  lowpwr : Bool
  /-- TRIM at the end of the last ramp. [R410; signed 32; 0] -/
  trim : Int
  /-- A ramp of the trim: from, increment and start instant. [R185; option; none] -/
  ramp : Option (Int × Int × Tick)
  /-- Quantity taken at the start of the visit. [R185, R192; 8; 0] -/
  qty : Nat
  /-- Coefficients of the last self-calibration, in force from the next visit. [R193; option; none] -/
  next : Option (Nat × Coeffs)
  /-- Coefficients by quantity. [R195; list; empty: the factory coefficients of Config.factory] -/
  coeffs : List (Nat × Coeffs)
  /-- VISITS. [R410; 32; 0] -/
  visits : Word
  /-- Own-slice coefficients solved in this visit and its residual and temperature. [R186; option; none] -/
  solved : Option (Coeffs × Nat × Int)
  /-- Instant th at which the match check of the handback last failed. [R187; time; none] -/
  retry : Option Tick
  deriving DecidableEq, Repr

structure Hallmark where
  seq : Nat
  time : Tick
  die : Nat
  slice : Nat
  qty : Nat
  flags : Nat
  k : Coeffs
  temp : Int
  resid : Nat
  /-- CRC-32C as sealed. -/
  crc : Word
  deriving DecidableEq, Repr

structure Carousel where
  /-- CTRL.RUN. [R205; 1; 1] -/
  run : Bool
  /-- CTRL.PERSIST. [R205; 1; 1] -/
  persist : Bool
  /-- HM_SEQ. [R204; 32; 0] -/
  hmSeq : Nat
  /-- SKIP_CNT. [R204; 32; 0] -/
  skipCnt : Word
  /-- REJECT_CNT. [R204; 32; 0] -/
  rejectCnt : Word
  /-- HM: the latest hallmark of each slice. [R204; 18 × 288; none] -/
  hm : Vector (Option Hallmark) 18
  /-- The latest hallmark of each slice and quantity, for the warm-start set. [R194; list; empty] -/
  latest : List Hallmark
  /-- When the remaining spare's 16 s cycle starts. [R190; time; none] -/
  cycle16 : Option Tick
  /-- Device time of the last time step or decimator reset, from which an accumulation starts over. [R185; time; 0] -/
  cut : Tick
  spares : Vector Spare 2
  deriving DecidableEq, Repr

/-- A privileged slot's run (R139 to R142). -/
structure Urgent where
  id  : Nat
  occ : Nat
  /-- Occurrence instant to. -/
  occAt : Tick
  /-- Arrival ta once the trigger instant is known. -/
  ta  : Option Tick
  /-- The occurrence's PERIOD end, for PWM triggers. -/
  limit : Tick
  deriving DecidableEq, Repr

structure Aux where
  /-- CTRL.RUN. [R149; 1; 1] -/
  run : Bool
  /-- CTRL.AUTO. [R149; 1; 1] -/
  auto : Bool
  /-- CTRL.LEN in force and in the shadow. [R149, R137; 7; 0] -/
  len : Nat
  lenSh : Nat
  /-- CTRL.PASS_MS. [R149; 10; 100] -/
  passMs : Nat
  /-- TABLE in force and shadow. [R148, R137; 64 × 32; DESIGN CHOICE 0, log 3] -/
  table : Vector Word 64
  tableSh : Vector Word 64
  /-- PRIV in force and shadow. [R150; 4 × 32; 0] -/
  priv : Vector Word 4
  privSh : Vector Word 4
  /-- INJ in force and shadow. [R148; 32 × 32; DESIGN CHOICE 0, log 3] -/
  inj : Vector Word 32
  injSh : Vector Word 32
  /-- RESULT. [R148; 64 × 32; DESIGN CHOICE 0, log 3] -/
  result : Vector Word 64
  /-- PASS_SKIP. [R148; 32; 0] -/
  passSkip : Word
  /-- DROP_CNT. [R148; 32; 0] -/
  dropCnt : Word
  /-- The first device time whose pass start is still to come. [R135; time; 0] -/
  passFrom : Tick
  /-- Regular entry in progress and its start te. [R134; option; none] -/
  entry : Option (Nat × Tick)
  /-- Injected sequence in progress: slot, entry id, occurrence, start ta, the sequence's entries. [R140; option; none] -/
  injRun : Option (Nat × Nat × Nat × Tick × List Word)
  /-- Triggers waiting for their instant or inside their delay, by slot, oldest first. [R139; list; empty] -/
  waiting : Vector (List Urgent) 4
  /-- REF_CTRL.SEL as written, and reference in use (false A, true B). [R148; 1; 0] -/
  refSel : Bool
  inUse : Bool
  /-- REF_CTRL.AUTO_SW. [R148; 1; 1] -/
  autoSw : Bool
  /-- A reference switch to come: instant, target, and whether the die decided it. [R131; option; none] -/
  refNext : Option (Tick × Bool × Bool)
  /-- REF_STATUS.SUSPECT. [R148; 1; 0] -/
  suspect : Bool
  /-- REF_STATUS.SWITCHED. [R148; 1; 0] -/
  switched : Bool
  /-- REF_STATUS: episodes of SUSPECT. [R148; 16; 0] -/
  episodes : Nat
  /-- The last 16 comparisons, newest first: device time and difference. [R129; 16 × 32; empty] -/
  diffs : List (Tick × Int)
  /-- Elapsed instant of the last of them. [R129; time; none] -/
  cmpAt : Option Nat
  /-- Device times at which SUSPECT last rose and last fell. [R129, R186; time; none] -/
  suspAt : Option Tick
  clearAt : Option Tick
  /-- Device time of the last switch of the reference, across which no conversion is kept. [R131; time; none] -/
  cutAt : Option Tick
  /-- Elapsed instant since which the mean has been at or below 15 ppm. [R129; time; none] -/
  goodSince : Option Nat
  /-- Last bandgap checks of A and B in 10,000 ppm codes. [R131; 2 × 32; DESIGN CHOICE 0, log 3] -/
  bgA : Int
  bgB : Int
  deriving DecidableEq, Repr

structure DieLedger where
  /-- LEVEL in 0.01 credit. [R277; 0 to 60,000; 60,000 at power-up under R29] -/
  level : Nat
  /-- E_RESERVED in 0.01 credit. [R277; 32; 0] -/
  eRes : Nat
  /-- REFILLED. [R277; 64; 0] -/
  refilled : Nat
  /-- DRAWN. [R277; 64; 0] -/
  drawn : Nat
  /-- OVERFLOWED. [R277; 64; 0] -/
  overflowed : Nat
  /-- Dissipation pool. [R27; 4,000; all free] -/
  pool : Pool
  /-- LP_DECL.V_D as written and in force, V. [R277; 6; 32] -/
  vdWant : Nat
  vd : Nat
  /-- Declarations of V_D that wait: tf and value, oldest first. [R261; list; empty] -/
  vdAt : List (Tick × Nat)
  /-- POLICY1 to POLICY3. [R275; 3 × 32; 0xFFFF_0000] -/
  policy : Vector Policy 3
  /-- OVERDRAW_CNT. [R277; 32; 0] -/
  overdraw : Word
  /-- UNCOVERED. [R277; 32; 0] -/
  uncovered : Nat
  /-- Number of the next epoch boundary. [R257; count; 1] -/
  epoch : Nat
  /-- Consecutive ms of V(Fd_LP) above V_D. [R267; count; 0] -/
  lpMs : Nat
  /-- Elapsed instant of the last heat metering. [R267; time; none] -/
  meterAt : Option Nat
  /-- Level from which the running counts tell the present level. [R27, R29; 0.01 credit; 60,000] -/
  base : Int
  deriving DecidableEq, Repr

/-- Power state of a block, coded as R323. -/
inductive PwrState where
  | run | idle | sleep | deepSleep | off
  deriving DecidableEq, Repr

structure Die where
  /-- The die is in the package. [R2; 1; the variant's] -/
  present : Bool
  /-- Die power state. [R323; 3; run] -/
  pwr : PwrState
  /-- An entry or a wake of the die is in progress. [R323; 1; 0] -/
  pwrBusy : Bool
  /-- Isolated power received. [R256; 1; 0 until R342 starts it] -/
  isoPower : Bool
  /-- Page headers by relative page 0x00 to 0x16. [R396, R399; 23; reset of R399] -/
  hdr : Vector PageHdr 23
  /-- Time replica. [R48; 64; 0] -/
  replica : Tick
  /-- COASTING. [R49; 1; 0] -/
  coasting : Bool
  /-- Frequency at which the replicas coast, in 10^-9 beside the local oscillator, and what it has gathered short of a tick. [R49; signed;
  0] -/
  coastFreq : Int
  frac : Int
  /-- What a replica still has to make up after coasting, in ticks. [R49; signed; 0] -/
  realign : Int
  /-- Elapsed instant of the last valid Time frame. [R49; time; 0] -/
  lastTime : Nat
  /-- Lease holder. [R285; option; none] -/
  holder : Option HubId
  /-- Elapsed instant of the last RENEW or grant. [R284; time; 0] -/
  renewAt : Nat
  /-- Hub-loss timer's start; none before the first grant. [R106, R286; time; none] -/
  lossFrom : Option Nat
  /-- Elapsed instant at which the die entered its low state, from which Deep Sleep suspends lease and timer. [R331; time; 0] -/
  lowFrom : Nat
  /-- HUBLOSS_T in µs. [R408; 17; 2,000] -/
  hublossT : Nat
  /-- PROMO_CNT. [R283; 16; 0] -/
  promoCnt : Nat
  /-- NEXT_FRAME. [R288; 16; 0] -/
  nextFrame : Nat
  /-- Sent buffered frames whose place has not been returned: index and content. [R283; at most 16; empty] -/
  heldFrames : List (Nat × LaneItem)
  /-- Numbered frames that go out before any other: those to resend to a new holder, and those that have left and have not
  arrived intact and in order. [R22, R287; list; empty] -/
  resend : List (Nat × LaneItem)
  /-- Result FIFO, oldest first. [R33; 1,024 frames; empty] -/
  fifo : List LaneItem
  /-- Events waiting for the lane, oldest first. [R20; list; empty] -/
  evq : List LaneItem
  /-- A promotion of which fewer than four frames have arrived: entry and count. [R287; option; none] -/
  partialPromo : Option (Nat × Nat)
  /-- Management responses waiting: page, offset, write, data. [R16; list; empty] -/
  mgmt : List (Nat × Nat × Bool × Word)
  /-- FOREIGN_DISC. [R408; 32; 0] -/
  foreignDisc : Word
  /-- Request levels last received, bits [3:0] = host, watchdog, skew, hold. [R110; 16 × 4; 0] -/
  levels : Vector Levels 16
  /-- Status frames last built. [R17; 8 × 64; 0] -/
  statusTx : Vector Dword 8
  chans : Vector Channel 16
  /-- The last mains boundaries received, newest first, at most 4: number from the origin, and instant. [R123; list; (0, 0)] -/
  bounds : List (Nat × Tick)
  /-- Near-term queue. [R69; 256 entries; empty] -/
  ntq : List Entry
  /-- Near-term queue pool. [R27; 256; all free] -/
  ntqPool : Pool
  /-- HIGH_WATER. [R411; 9; 0] -/
  ntqHigh : Nat
  aux : Aux
  car : Carousel
  led : DieLedger
  /-- TEMP in 1/128 °C. [R408; 16; 0] -/
  temp : Int
  /-- LP_VOLT in mV. [R408; 16; 0] -/
  lpMv : Nat
  /-- An L+ undervoltage episode is open. [R440; 1; 0] -/
  uvEp : Bool
  /-- Fd_LP has been low since the last confirmation, and no `FaultClear` has found it back. [R109, R440; 1; 0] -/
  uvLow : Bool
  /-- PWR_CFG.ALLOW_SAFE_IN_DEEP. [R349; 1; 0] -/
  allowSafe : Bool
  /-- Conversions discarded on this die, its share of SCHED.STRADDLE_CNT. [R82; 32; 0] -/
  straddle : Word
  /-- Entries missed while no hub counted them. [R73, R297; list; empty] -/
  missed : List Nat
  deriving DecidableEq, Repr

/-! ### Hubs -/

/-- Hub states of R279. -/
inductive HState where
  | active | syncing | ready | detached | failed
  deriving DecidableEq, Repr

/-- The non-volatile store of a hub (R194, R200, R361, R363). -/
structure NvStore where
  /-- System-correction banks A and B: sequence number and corrections (g, SYS_OFFSET, SYS_GAIN). [R200; two banks; none, DESIGN CHOICE
  log 3] -/
  bankA : Option (Nat × List (Nat × Int × Int))
  bankB : Option (Nat × List (Nat × Int × Int))
  /-- Warm-start banks A and B: sequence number and hallmarks. [R194, R200; two banks; none, DESIGN CHOICE log 3] -/
  warmA : Option (Nat × List Hallmark)
  warmB : Option (Nat × List Hallmark)
  /-- Key banks. [R363; two banks; none, DESIGN CHOICE log 3] -/
  keyA : Option (Nat × List (Nat × List Byte))
  keyB : Option (Nat × List (Nat × List Byte))
  /-- Boot counter. [R361; 32; DESIGN CHOICE 0, log 3] -/
  boot : Nat
  deriving DecidableEq, Repr

/-- What a hub counts of the String's faults (R298, R308). -/
structure LinkErr where
  /-- RETRAIN, saturating. [R308; 6; 0] -/
  retrain : Nat
  /-- REPLAY, saturating. [R308; 8; 0] -/
  replays : Nat
  /-- CRC, saturating. [R308; 16; 0] -/
  crc     : Nat
  deriving DecidableEq, Repr

structure Hub where
  /-- The hub is in the package and not held unpowered by HUBMODE. [R1, R421; 1; the variant's] -/
  present : Bool
  /-- The hub runs (it is neither stopped nor restarting). [R293, R297; 1; 0 before power-up] -/
  up : Bool
  /-- A restart is in progress. [R297; 1; 0] -/
  booting : Bool
  /-- PWR_STATE Idle. [R324; 1; 0] -/
  idle : Bool
  /-- HSTATE. [R307; 3; ACTIVE on H0, SYNCING on H1] -/
  hstate : HState
  /-- Page headers by relative page 0x00 to 0x0B. [R395, R399; 12; reset of R399] -/
  hdr : Vector PageHdr 12
  log : Log
  lanes : Vector Lane 6
  nv : NvStore
  /-- TAKEOVER_CNT. [R305; 32; 0] -/
  takeoverCnt : Word
  /-- LAST_TO. [R305; 64; DESIGN CHOICE 0, log 3] -/
  lastTo : Tick
  /-- LAST_TO_US. [R305; 32; DESIGN CHOICE 0, log 3] -/
  lastToUs : Nat
  /-- CLAIM_DISC. [R305; 32; 0] -/
  claimDisc : Word
  /-- OFF_WRITE_COUNT. [R407; 32; 0] -/
  offWrites : Word
  /-- Operating point in force: 0 800 MHz, 1 400 MHz, 2 100 MHz. [R276; 2; 0] -/
  point : Nat
  /-- Operating point whose charge the package pool holds: a decrease keeps the old charge until it is confirmed. [R272; 2; 0] -/
  held : Nat
  /-- A point change in progress: target, elapsed start, whether up. [R340, R341; option; none] -/
  change : Option (Nat × Nat × Bool)
  /-- No further change before this elapsed instant. [R341; time; 0] -/
  changeHold : Nat
  /-- Elapsed instant at which the hub last considered its point. [R272; time; none] -/
  adjAt : Option Nat
  /-- Open episodes of EV_POLICY_CLIP and EV_POLICY_CONFLICT: elapsed instant of the last want. [R272; time; none] -/
  clipEp : Option Nat
  confEp : Option Nat
  /-- Elapsed instant of the last intact Heartbeat, and its device time. [R281, R292; time; 0] -/
  hbAt : Nat
  hbTime : Tick
  /-- Consecutive missed heartbeats. [R292; count; 0] -/
  hbMiss : Nat
  /-- Heartbeat count of the next Heartbeat. [R281; 16; 0] -/
  hbCount : Nat
  /-- The last Heartbeat this hub sent: unit index, HSTATE code, roles. [R281; 64; none] -/
  hbSent : Option (Nat × Nat × Nat)
  /-- The peer's HSTATE code, roles and unit index as last heard. [R281; fields; 0] -/
  peer : Nat × Nat × Nat
  /-- NV_LOCK: held until this elapsed instant. [R291; time; none] -/
  nvLock : Option Nat
  /-- KEY_ROLE: held until this elapsed instant. [R291; time; none] -/
  keyRole : Option Nat
  /-- tdet of a takeover under way. [R292; time; none] -/
  tdet : Option Nat
  /-- The multiples of 10 µs of its device time after which the hub last sent RENEW and CLAIM. [R284, R286, R292; count; none] -/
  renewMult : Option Nat
  claimMult : Option Nat
  /-- STRING_ERR: what the hub counts of the String. [R298, R308; three counts; 0] -/
  strErr : LinkErr
  /-- A planned switchover under way to this hub: its start in device time and elapsed ticks, its requester, and its cause
  (0 `HubSwitchover`, 1 Tin Soldier, 2 device fault, 3 lane). [R295; option; none] -/
  claiming : Option (Tick × Nat × Option Req × Nat)
  /-- PWR.VREQ_TO_CNT. [R345; 32; 0] -/
  vreqTo : Word
  /-- The VREQ frame last sent on VREQ_CODE. [R341; 4; none] -/
  vreqFrame : Option Nat
  deriving DecidableEq, Repr

/-! ### Time, network, power and the mirror -/

/-- Synchronisation states of R56. -/
inductive SyncState where
  | unlocked | acquiring | locked | holdover
  deriving DecidableEq, Repr

/-- PORT_STATE of R57. -/
inductive PortState where
  | disabled | listening | slave | master | passive | faulty
  deriving DecidableEq, Repr

structure PtpPort where
  /-- PORT_STATE. [R57; 3; 0] -/
  st : PortState
  /-- PROFILE_ACT. [R57; 2; 0] -/
  act : Nat
  /-- Domain in use under AUTO. [R39; 8; 0] -/
  dom : Nat
  /-- Qualified Announce information. [R40; option; none] -/
  ann : Option Announce
  /-- Sync interval for the receipt timeout, in ticks, and elapsed instant it runs from. [R38; time; 1 s, 0] -/
  interval : Nat
  syncFrom : Nat
  /-- Elapsed instant from which the Announce receipt timeout runs, and the interval it counts in, in ticks. [R38, R40; time; 0, 1 s] -/
  annFrom : Nat
  annInterval : Nat
  /-- Last offset measured on this port. [R42, R43; signed; 0] -/
  offset : Int
  /-- Elapsed instant at which FAULTY began. [R435; time; 0] -/
  faultyAt : Nat
  deriving DecidableEq, Repr

structure TimeSync where
  /-- STATE. [R56; 3; 0] -/
  st : SyncState
  /-- Elapsed instant at which the state was entered. [R44; time; 0] -/
  since : Nat
  /-- SET. [R56; 1; 0] -/
  set : Bool
  /-- OFFSET. [R54; signed 32; DESIGN CHOICE 0, log 3] -/
  offset : Int
  /-- EPOCH. [R54; 32; 0] -/
  epoch : Nat
  /-- Consecutive offsets within ±20 ns, and beyond ±1 µs. [R44; counts; 0] -/
  good : Nat
  bad : Nat
  /-- Slew still to be made, in ticks. [R45; signed; 0] -/
  slew : Int
  /-- The frequency correction in force, in 10^-9. [R44; within ±200,000; 0, the factory trim] -/
  freq : Int
  /-- The corrections that LOCKED has had: elapsed instant from which each held, newest first. [R44; list; empty] -/
  freqs : List (Nat × Int)
  /-- Time-quality codes: device time from which each held, newest first. [R52; list; empty] -/
  quals : List (Tick × Nat)
  /-- A step decided: ts and Δ. [R45; option; none] -/
  step : Option (Tick × Int)
  /-- GM_ID. [R54; 64; DESIGN CHOICE 0, log 3] -/
  gm : Dword
  /-- The SLAVE port. [R56; option; none] -/
  slave : Option PortId
  ports : Vector PtpPort 2
  /-- SYNC_IN timestamp. [R54; 64; DESIGN CHOICE 0, log 3] -/
  syncIn : Tick
  /-- SYNC_IN_CNT.ACCEPTED and IGNORED, saturating at 65,535. [R57; 16, 16; 0] -/
  syncAcc : Nat
  syncIgn : Nat
  /-- Elapsed instant of the last accepted SYNC_IN edge. [R53; time; none] -/
  syncLast : Option Nat
  /-- Time-loss intervals: start, and end once known, newest first. [R73; list; empty] -/
  losses : List (Tick × Option Tick)
  deriving DecidableEq, Repr

/-- A frame that a port sends (R352, R354). -/
inductive NetFrame where
  | zcs (m : OutMsg)
  /-- A supervision frame, with its number. -/
  | supervision (n : Nat)
  deriving DecidableEq, Repr

structure NetPort where
  /-- PnSTATUS.LINK. [R375; 1; 0] -/
  link : Bool
  /-- PnSTATUS.SPEED. [R375; 2; 0] -/
  speed : Speed
  /-- Start of the gate cycle in progress. [R365; time; 0] -/
  cycleAt : Tick
  /-- Link energy absent since this elapsed instant (armed wake source). [R334; time; none] -/
  energyOff : Option Nat
  /-- The port had link at tq. [R334; 1; 0] -/
  linkAtTq : Bool
  /-- Addresses in force since the last link up: IPV4_ADDR, IPV4_MASK and the words of IPV6_ADDR. [R373; 6 × 32; 0] -/
  addr : List Word
  deriving DecidableEq, Repr

structure Net where
  ports : Vector NetPort 2
  /-- REDUN_CFG.MODE in force since power-up. [R352; 2; 0] -/
  mode : Nat
  /-- Duplicate-discard table: frame identity and elapsed arrival, newest first. [R352; 1,024 entries; empty] -/
  dup : List (Nat × Nat)
  /-- Elapsed instant of the last supervision frame. [R352; time; 0] -/
  superAt : Nat
  /-- Supervision frames sent. [R352; count; 0] -/
  superCnt : Nat
  /-- The relay queue of the hub that is not active: frames received on its port, oldest first, each with the octets that Port relay
  frames have still to carry. [R351; 64 KiB; empty] -/
  relay : List (PortId × Datagram × Nat)
  /-- Datagrams handed to the ports, oldest first. [R354; list; empty] -/
  sent : List OutMsg
  /-- Frames that wait to leave each port, oldest first, each with the octets that Port relay frames have still to carry to the port's
  hub. [R351, R365; 2 lists; empty] -/
  egress : Vector (List (Nat × NetFrame)) 2
  /-- Frames that have left each port, oldest first, each with the traffic class that its IEEE 802.1Q priority tag shows. [R352, R365;
  2 lists; empty] -/
  wire : Vector (List (Nat × NetFrame)) 2
  deriving DecidableEq, Repr

/-- A power request in progress (R328 to R330). -/
structure PwrReq where
  target : PwrState
  die    : Option DieId
  req    : Option Req
  tq     : Nat
  granted : List PwrBlock
  tc     : Option Tick
  /-- te, once the commit has started. -/
  te     : Option Tick
  /-- A level wake source seen in the commit window. -/
  yoyo   : Option Nat
  deriving DecidableEq, Repr

/-- Power-up progress of the package. -/
inductive Boot where
  | unpowered | heldInReset | starting | complete | down
  deriving DecidableEq, Repr

structure Power where
  /-- STATUS.STATE. [R346; 3; 0] -/
  st : PwrState
  /-- Boot progress. [R342; phase; unpowered] -/
  boot : Boot
  /-- STATUS.PHASE is 3, waking: source, die and whether it was a yo-yo wake. [R346; option; none] -/
  waking : Option (Nat × Option DieId × Bool)
  /-- The request in progress. [R329; option; none] -/
  req : Option PwrReq
  /-- LAST_WAKE: source and yo-yo. [R345; 4; DESIGN CHOICE 0, log 3] -/
  lastWake : Nat × Bool
  /-- LAST_REFUSE: reason and block. [R345; 16; DESIGN CHOICE 0, log 3] -/
  lastRefuse : Nat × Nat
  /-- YOYO_CNT. [R345; 32; 0] -/
  yoyoCnt : Word
  /-- DOWN_EVENT. [R348; 8; 0] -/
  downEvent : Nat
  /-- A power-down is running: its step, 0 none. [R343; 0 to 5; 0] -/
  step : Nat
  /-- The elapsed instant at which the step began. [R343; time; 0] -/
  stepAt : Nat
  /-- It was started or overtaken by a power failure. [R344; 1; 0] -/
  failure : Bool
  /-- Events held for the next wake: code event, device time, data. [R330; list; empty] -/
  heldEvs : List (Ev × Tick × List Byte)
  /-- Level of WAKE_N (true low). [R333; pin; high] -/
  wakeN : Bool
  /-- Straps as sampled at t0. [R421; 3; psel high, hubmode high, TEST low] -/
  straps : Straps
  /-- Device time te at which the package entered Sleep or Deep Sleep. [R330, R336; time; none] -/
  sleepFrom : Option Tick
  /-- Device time that the real-time clock was loaded with for Deep Sleep. [R330, R336; time; none] -/
  rtcFrom : Option Tick
  deriving DecidableEq, Repr

/-- A mirror unit: its index, the mirrored state after it, and the writes to page headers it replays on the standby's
pages: relative page, offset, value (R282, R398). -/
structure MUnit where
  idx  : Nat
  core : Core
  hdr  : List (Nat × Nat × Word)
  deriving DecidableEq, Repr

/-- An action held back until the standby has acknowledged a unit (R282). -/
inductive HeldBack where
  | response (m : OutMsg) (slot : Who)
  | retire (id : Nat)
  | promote (id : Nat)
  | consume (d : DieId)
  /-- The completion of a host SPI write, with ACCESS_ERR of its status word. -/
  | spiWrite (err : Bool)
  deriving DecidableEq, Repr

structure Mirror where
  /-- Units sent and not yet received by the standby, oldest first. [R282; list; empty] -/
  wire : List MUnit
  /-- The unit whose Mirror frames the standby has buffered. [R282; option; none] -/
  rx : Option MUnit
  /-- Index of the last unit committed by the active hub. [R281; 32; 0] -/
  committed : Nat
  /-- Index of the last unit applied by the standby. [R281; 32; 0] -/
  applied : Nat
  /-- Index of the last unit whose commit frame ACK covers. [R282; 32; 0] -/
  acked : Nat
  /-- Actions held back, each with the unit it waits for, oldest first. [R282; list; empty] -/
  held : List (Nat × HeldBack)
  /-- Header writes of the unit being built: relative page, offset, value. [R398; list; empty] -/
  wr   : List (Nat × Nat × Word)
  /-- The String: STATE, RETRAIN, REPLAY and CRC, and its two directions. [R280, R305; books; training] -/
  str : Lane
  deriving DecidableEq, Repr

/-- The clocks. -/
structure Clk where
  /-- Device time of the active hub. [R36, R37; 64; 0] -/
  now : Tick
  /-- Ticks elapsed since power was applied, which no step or slew moves. [model's own time base, log 2; 0] -/
  elapsed : Nat
  /-- What the frequency correction has gathered short of a tick, in 10^-9 of a tick. [R44; signed; 0] -/
  frac : Int
  /-- The standby hub's own counter, which Time frames over the String discipline. [R43; 64; 0] -/
  peer : Tick
  deriving DecidableEq, Repr

/-- The variant (R1). -/
structure Variant where
  /-- Number of field dies, 1 to 6: nn/16. [R1; 1 to 6; DESIGN CHOICE 6, log 1] -/
  dies : Nat
  /-- The part is a D variant. [R1; 1; DESIGN CHOICE D, log 1] -/
  dPart : Bool
  /-- Both hubs operate: a D variant whose HUBMODE strap was high at power-up; with it low the part runs as an S part. [R1, R421; 1;
  dPart] -/
  dual : Bool
  deriving DecidableEq, Repr

/-- The part's identity (R382, R407). -/
structure Ident where
  /-- Serial number. [R407; 64; DESIGN CHOICE 0, log 3] -/
  serial : Nat
  /-- Die revisions for H0, H1, d0 to d5. [R382; 8 × 8; DESIGN CHOICE 0x10, log 3] -/
  revs : Vector Nat 8
  /-- Highest Solder Lane protocol version that H0, H1, d0 to d5 support; each supports the lower ones too. [R24; 8 × 1 to 2; DESIGN
  CHOICE 2, log 3] -/
  laneVers : Vector Nat 8
  deriving DecidableEq, Repr

/-- What the saturating counters of the pages stood at as the register cycle began: a BLOCK_RESET keeps the increments of its own cycle
(R402). -/
structure CycleBase where
  hubs  : Vector Hub 2
  dies  : Vector Die 6
  core  : Core
  copy  : Core
  /-- SYNC_IN_CNT.ACCEPTED. [R402; 16; 0] -/
  syncAcc : Nat
  /-- SYNC_IN_CNT.IGNORED. [R402; 16; 0] -/
  syncIgn : Nat
  /-- YOYO_CNT. [R402; 32; 0] -/
  yoyoCnt : Word
  deriving DecidableEq, Repr

/-- The whole package. -/
structure State where
  variant : Variant
  ident   : Ident
  clk     : Clk
  /-- The active hub. [R14; 1; H0] -/
  active  : HubId
  core    : Core
  copy    : Core
  hubs    : Vector Hub 2
  dies    : Vector Die 6
  sync    : TimeSync
  net     : Net
  power   : Power
  mirror  : Mirror
  /-- The word shifted out by the last host SPI transfer: status word then data words. [R370; list; empty] -/
  spiOut  : Vector (List Word) 2
  /-- The counters at the start of the register cycle in progress. [R402; the counters; their reset values] -/
  base    : CycleBase
  /-- The model's own counter, which indexes the free values of Config. [model's own; DESIGN CHOICE 0, log 4] -/
  free    : Nat
  /-- The commands waiting, first in, first out. [model's own queue; empty] -/
  pending : List Instr
  deriving DecidableEq, Repr

/-- Reasons a step stops with a fault. -/
inductive Fault where
  /-- Raised by no meaning: the spec gives every command and every event of its table an effect (possibly that
  nothing happens), so no step of this model faults. Safe. -/
  | noEffectStated
  deriving DecidableEq, Repr

/-- Reasons a step is refused. -/
inductive Refusal where
  /-- Raised by the arms of `exec` for a command that has no meaning yet; no arm does. Safe. -/
  | notModelled (mnemonic : String)
  deriving DecidableEq, Repr

/-! ### Reset -/

/-- A page header at reset, with the enable bits of its events (R399, R404). -/
def PageHdr.reset (en : Nat) : PageHdr where
  pending := 0#32
  fresh := 0#32
  enable := BitVec.ofNat 32 en
  ovf := 0#32
  frozen := none
  latch := []
  locked := false
  err := ⟨0, 0, 0, 0⟩
  refuse := 0

/-- The event bits of hub page r (R54, R82, R127, R180, R274, R305, R309, R319, R345, R373, R407, R412). -/
def hubEvBits : Vector Nat 12 :=
  #v[0, 0x3F, 0, 0x7, 0xF, 0xF, 0, 0x3, 0x1F, 0x3F, 0x3F, 0x3]

/-- The event bits of relative page r of a field die (R118, R148, R204, R277, R408, R410, R411). -/
def dieEvBits : Vector Nat 23 :=
  #v[1, 0xFFF, 0xFFF, 0xFFF, 0xFFF, 0xFFF, 0xFFF, 0xFFF, 0xFFF, 0xFFF, 0xFFF, 0xFFF, 0xFFF, 0xFFF, 0xFFF, 0xFFF,
    0xFFF, 0, 0, 0xF, 3, 0, 0]

def Log.reset : Log where
  staged := []
  ring := []
  seq := 0
  raised := 0
  logged := 0
  counted := 0
  ovf := Vector.replicate 8 0#32
  sums := Vector.replicate 8 none
  bb := []
  bbHead := 0
  bbWait := []
  bbLast := none
  bbSkip := 0#32
  bbFrozenCnt := 0#32
  bbFrozen := false
  returnMark := false

def Flow.reset : Flow := ⟨0, 0, [], 0, 0, 0, 0, none, [], 0⟩

def Lane.reset : Lane where
  st := .training
  version := 0
  retrain := 0
  replays := 0
  crc := 0
  failRun := 0
  failAt := 0
  down := Flow.reset
  up := Flow.reset
  outState := Vector.replicate 4 0#64
  timeFrame := none
  delay := 0
  status := Vector.replicate 8 0#64
  report := 0x8000000000000000#64
  lease := none
  grant := none
  promo := []
  promoIdx := 0
  lostDown := []
  again := []
  mgmtDownAt := 0
  mgmtUpAt := 0
  lastDown := none
  lastUp := none

/-- The image of a channel's registers at reset, from the reset columns of their tables. -/
def ChanImg.reset : ChanImg where
  cfg := 0#32
  safe := 0#32
  safeVal := 0#32
  linkloss := 1000#32
  diag := 0x1434#32
  opt := 1000#32
  convCfg := 0#32
  filtCfg := 1#32
  perInt := 12000#32
  perFrac := 0#32
  maLen := 1#32
  dcbCfg := 0x1000#32
  angCfg := 0xA00#32
  dinCfg := 0x1E0FA2#32
  encCfg := 0#32
  outCfg := 0x110#32
  fskCfg := 0x500#32
  decl := 0x40000000#32

def Output.reset : Output where
  value := 0
  drive := false
  last := none
  onAt := none
  offAt := none
  wasHigh := false
  offSince := none
  ramp := none
  run := false
  period := 3000000
  duty := 0
  pk := 0
  hEnd := 0
  nextPk := none
  clip := 0#32
  compRise := none
  compFall := none
  limRise := 0
  limFall := 0
  compLimit := false
  edgeErr := 0
  edge := none
  share := 0#32
  shareBad := []
  shareGood := 0
  shareAt := none
  imbal := false
  pulse := none
  lastPulse := none
  optSkip := 0#32

def Diag.reset : Diag where
  lpUv := false
  thermal := false
  shortLp := false
  foreign := false
  backfeed := false
  bfLatch := false
  bfCond := false
  shortFg := false
  overload := false
  openW := false
  owBad := 0
  owGood := 0
  overr := false
  shunt := false
  fold := false
  shuntAt := none
  foldAt := none
  termIo := 0
  termSn := 0
  bfAlone := false
  foreignWith := none
  foreignOwn := false

def EncSt.reset : EncSt := ⟨0, 0, false, false, none, none, 0#32, 0, 0⟩

def Din.reset : Din where
  raw := false
  lastRise := none
  lastFall := none
  since := 0
  known := false
  integ := 0
  filt := false
  filtAt := 0
  edgeAt := 0
  edgeCnt := 0#32
  enc := EncSt.reset
  book := []
  feed := []
  feedN := 0
  cntErr := 0#32
  preset := []
  encEp := none
  capOvf := 0#32
  capHeld := 0#32
  capWait := []

def ChainSt.reset : ChainSt where
  tq := 0
  settling := false
  lockAct := 0
  dcb := 0
  origin := 0
  high := none
  lastCross := none
  angLate := 0#32
  angOver := 0#32
  lateEp := none
  overEp := none
  satCnt := 0#32
  mcLen := 0#32
  mcStart := none
  cross := []
  next := 0
  hist := []
  nextK := 0
  overSince := none
  inSince := none

def Cal.reset : Cal where
  slice := []
  sysOff := 0
  sysGain := 0x40000000
  next := none
  zero := none
  lastPoint := 0
  parked := false
  warm := false
  uncommitted := false
  point := none
  server := 0
  was := []
  sysWas := []
  ended := []

def Fsk.reset : Fsk := ⟨none, false, false, false, 0, 0, 0, false⟩

def Channel.reset : Channel where
  want := ChanImg.reset
  img := ChanImg.reset
  cfgSet := 0
  pend := []
  heldFrac := none
  pendF := []
  trans := none
  odd := false
  group := none
  cause := 0#11
  hold := none
  resume := false
  epoch := 0
  seen := none
  out := Output.reset
  diag := Diag.reset
  din := Din.reset
  chain := ChainSt.reset
  cal := Cal.reset
  fsk := Fsk.reset
  chgHeat := 0
  chgBar := 0
  overMs := 0

def Spare.reset : Spare where
  phase := .idle
  ch := 0
  slot := 0
  slotFrom := 0
  fault := false
  lowpwr := false
  trim := 0
  ramp := none
  qty := 0
  next := none
  coeffs := []
  visits := 0#32
  solved := none
  retry := none

def Carousel.reset : Carousel where
  run := true
  persist := true
  hmSeq := 0
  skipCnt := 0#32
  rejectCnt := 0#32
  hm := Vector.replicate 18 none
  latest := []
  cycle16 := none
  cut := 0
  spares := Vector.replicate 2 Spare.reset

def Aux.reset : Aux where
  run := true
  auto := true
  len := 0
  lenSh := 0
  passMs := 100
  table := Vector.replicate 64 0#32
  tableSh := Vector.replicate 64 0#32
  priv := Vector.replicate 4 0#32
  privSh := Vector.replicate 4 0#32
  inj := Vector.replicate 32 0#32
  injSh := Vector.replicate 32 0#32
  result := Vector.replicate 64 0#32
  passSkip := 0#32
  dropCnt := 0#32
  passFrom := 0
  entry := none
  injRun := none
  waiting := Vector.replicate 4 []
  refSel := false
  inUse := false
  autoSw := true
  refNext := none
  suspect := false
  switched := false
  episodes := 0
  diffs := []
  cmpAt := none
  suspAt := none
  clearAt := none
  cutAt := none
  goodSince := none
  bgA := 0
  bgB := 0

def Policy.reset : Policy := ⟨0, 0xFFFF⟩

def DieLedger.reset : DieLedger where
  level := 60000
  eRes := 0
  refilled := 0
  drawn := 0
  overflowed := 0
  pool := ⟨4000, 0, 0⟩
  vdWant := 32
  vd := 32
  vdAt := []
  policy := Vector.replicate 3 Policy.reset
  overdraw := 0#32
  uncovered := 0
  epoch := 1
  lpMs := 0
  meterAt := none
  base := 60000

def Levels.reset : Levels := ⟨false, false, false, false⟩

/-- A field die at reset; `present` says whether the variant has it. -/
def Die.reset (present : Bool) : Die where
  present := present
  pwr := .run
  pwrBusy := false
  isoPower := false
  hdr := dieEvBits.map PageHdr.reset
  replica := 0
  coasting := false
  coastFreq := 0
  frac := 0
  realign := 0
  lastTime := 0
  holder := none
  renewAt := 0
  lossFrom := none
  lowFrom := 0
  hublossT := 2000
  promoCnt := 0
  nextFrame := 0
  heldFrames := []
  resend := []
  fifo := []
  evq := []
  partialPromo := none
  mgmt := []
  foreignDisc := 0#32
  levels := Vector.replicate 16 Levels.reset
  statusTx := Vector.replicate 8 0#64
  chans := Vector.replicate 16 Channel.reset
  bounds := [(0, 0)]
  ntq := []
  ntqPool := ⟨256, 0, 0⟩
  ntqHigh := 0
  aux := Aux.reset
  car := Carousel.reset
  led := DieLedger.reset
  temp := 0
  lpMv := 0
  uvEp := false
  uvLow := false
  allowSafe := false
  straddle := 0#32
  missed := []

def PortRegs.reset : PortRegs := ⟨true, 0, 0, 1000, Vector.replicate 32 0#32⟩

def Axis.reset : Axis where
  src := 0
  zref := false
  dir := false
  encDie := 0
  encPair := 0
  cpr := 4096
  zero := 0
  still := 10
  pos := 0
  posAt := none
  moving := false
  past := []
  took := 0
  lastRx := 0
  corr := 0
  netDiscard := 0#32

def Mains.reset : Mains where
  src := 0
  ch := 0
  nom := false
  holdS := 10
  netFreq := 50000
  st := .free
  period := 60000000
  meas := []
  lastCross := none
  lastMeas := 0
  holdSince := 0
  origin := 0
  perWas := []
  bounds := [(0, 0)]
  carry := 0

/-- TSOLD at its reset values (R315, R320, R321). -/
def Wdog.reset : Wdog where
  en := false
  actEarly := 0
  actLate := 0
  actSeq := 0
  p := 100000
  close := 128
  pend := none
  start := 0
  waived := false
  armed := false
  paused := false
  earlyCnt := 0#32
  lateCnt := 0#32
  seqCnt := 0#32
  rejectCnt := 0#32
  lateAt := none

/-- The hub-held state at power-up: registers at their reset values, every pool at its size (R29). -/
def Core.reset : Core where
  time := ⟨0, false, 60, 30000, Vector.replicate 2 0, Vector.replicate 2 0, Vector.replicate 2 0⟩
  sched :=
    { admits := true, doneEvAll := false, staleAge := 10000, minLead := 100, lastRefuse := 0#32, submitted := 0,
      executed := 0, cancelled := 0, missed := 0, refused := 0, inFlight := 0, deferred := 0, straddle := 0#32,
      staleRec := 0#32, staleWords := 0#32 }
  ledger :=
    { pool := ⟨25000, 0, 0⟩, ptMax := 0, ptMin := 2, policy := Vector.replicate 3 Policy.reset,
      preemptCnt := 0#32, clipCnt := 0#32, conflictCnt := 0#32, devChg := 0 }
  pwr := ⟨3, 0, 0#32, 0#32, List.replicate 8 0#8⟩
  wd := Wdog.reset
  mains := Mains.reset
  axes := Vector.replicate 4 Axis.reset
  logr := ⟨3, 0⟩
  redun := ⟨true, true, true⟩
  net := ⟨Vector.replicate 2 PortRegs.reset, 0, 47000, 0#32, 0#32, Vector.replicate 4 0#32, Vector.replicate 8 0#32⟩
  lastReset := 0
  resetCnt := 0#32
  resets := []
  slots := ⟨65536, 0, 0⟩
  store := ⟨1048576, 0, 0⟩
  entries := []
  nextId := 0
  defer := []
  records := []
  plan := []
  cmdq := []
  sess := Vector.replicate 8 none
  spi := ⟨0x32, 0, [], [], 0, 0, none, [], [], []⟩
  epoch := 0
  streams := []
  sets := []
  shadow := Vector.replicate 6 (Vector.replicate 16 ⟨0xA00#32, 0, [], none⟩)
  levels := Vector.replicate 6 (Vector.replicate 16 Levels.reset)
  cancels := []
  disables := []
  audit := []
  auditAt := 0
  auditMask := 0#32
  auditCnt := 0#32
  check := 0#32
  authFail := 0#32
  seqDrop := 0#32
  dupDiscard := 0#32
  relayDrop := 0#32
  authEvAt := none
  keys := []
  taken := Vector.replicate 6 0
  grace := none
  warmAt := none

def NvStore.reset : NvStore := ⟨none, none, none, none, none, none, 0⟩

/-- A hub at reset; `hs` is its HSTATE (R307: ACTIVE on H0, SYNCING on H1). -/
def Hub.reset (present : Bool) (hs : HState) : Hub where
  present := present
  up := false
  booting := false
  idle := false
  hstate := hs
  hdr := hubEvBits.map PageHdr.reset
  log := Log.reset
  lanes := Vector.replicate 6 Lane.reset
  nv := NvStore.reset
  takeoverCnt := 0#32
  lastTo := 0
  lastToUs := 0
  claimDisc := 0#32
  offWrites := 0#32
  point := 0
  held := 0
  change := none
  changeHold := 0
  adjAt := none
  clipEp := none
  confEp := none
  hbAt := 0
  hbTime := 0
  hbMiss := 0
  hbCount := 0
  hbSent := none
  peer := (0, 0, 0)
  nvLock := none
  keyRole := none
  tdet := none
  renewMult := none
  claimMult := none
  strErr := ⟨0, 0, 0⟩
  claiming := none
  vreqTo := 0#32
  vreqFrame := none

def PtpPort.reset : PtpPort := ⟨.disabled, 0, 0, none, sec, 0, 0, sec, 0, 0⟩

def TimeSync.reset : TimeSync where
  st := .unlocked
  since := 0
  set := false
  offset := 0
  epoch := 0
  good := 0
  bad := 0
  slew := 0
  freq := 0
  freqs := []
  quals := []
  step := none
  gm := 0#64
  slave := none
  ports := Vector.replicate 2 PtpPort.reset
  syncIn := 0
  syncAcc := 0
  syncIgn := 0
  syncLast := none
  losses := []

def Net.reset : Net where
  ports := Vector.replicate 2 ⟨false, .g2_5, 0, none, false, List.replicate 6 0#32⟩
  mode := 0
  dup := []
  superAt := 0
  superCnt := 0
  relay := []
  sent := []
  egress := Vector.replicate 2 []
  wire := Vector.replicate 2 []

def Power.reset : Power where
  st := .run
  boot := .unpowered
  waking := none
  req := none
  lastWake := (0, false)
  lastRefuse := (0, 0)
  yoyoCnt := 0#32
  downEvent := 0
  step := 0
  stepAt := 0
  failure := false
  heldEvs := []
  wakeN := false
  straps := ⟨true, true, false⟩
  sleepFrom := none
  rtcFrom := none

def Mirror.reset : Mirror := ⟨[], none, 0, 0, 0, [], [], Lane.reset⟩

/-- The hubs of a variant before its power-up. -/
def Variant.hubs (v : Variant) : Vector Hub 2 := #v[Hub.reset true .active, Hub.reset v.dual .syncing]
/-- The dies of a variant before its power-up. -/
def Variant.diesOf (v : Variant) : Vector Die 6 := Vector.ofFn fun d => Die.reset (decide (d.val < v.dies))
/-- A package of a given variant before its power-up sequence starts. -/
def State.resetOf (v : Variant) : State where
  variant := v
  ident := ⟨0, Vector.replicate 8 0x10, Vector.replicate 8 2⟩
  clk := ⟨0, 0, 0, 0⟩
  active := 0
  core := Core.reset
  copy := Core.reset
  hubs := v.hubs
  dies := v.diesOf
  sync := TimeSync.reset
  net := Net.reset
  power := Power.reset
  mirror := Mirror.reset
  spiOut := Vector.replicate 2 []
  base := ⟨v.hubs, v.diesOf, Core.reset, Core.reset, 0, 0, 0#32⟩
  free := 0
  pending := []

/-- The machine right after reset: a ZL9640-96D (log 1) whose registers hold their reset values and whose power-up
sequence of R342 has yet to run: its first command is POWER_UP (log 5). -/
def State.reset : State := State.resetOf ⟨6, true, true⟩

end Sys2Proof.Machine
end

