-- ==== Sys2Proof/Machine/Flags.lean ====
section
/-! DEFINITION. Codes and status words: the numbers the spec gives to statuses, events, states and modes, the fields
of a channel image, and the words that report state (the channel word of R111, the lease report of R288). -/

namespace Sys2Proof

/-- Global channel number g = 16·d + c (R9). -/
def Chan.g (ch : Chan) : Nat := 16 * ch.die.val + ch.c.val
/-- Opcode numbers of R59. -/
def SchedEntry.op (e : SchedEntry) : Nat := e.opcode.toNat
/-- FLAGS of R60. -/
def SchedEntry.deferOk (e : SchedEntry) : Bool := e.flags.getLsbD 0
def SchedEntry.freeRun (e : SchedEntry) : Bool := e.flags.getLsbD 1
def SchedEntry.readback (e : SchedEntry) : Bool := e.flags.getLsbD 2
def SchedEntry.evDone (e : SchedEntry) : Bool := e.flags.getLsbD 3
/-- An output entry of the output-held row of R73. -/
def SchedEntry.isHeldOut (e : SchedEntry) : Bool := e.op == 3 || e.op == 4 || e.op == 5 || e.op == 7 || e.op == 8
/-- An output entry of the mode-transition row of R73. -/
def SchedEntry.isTransOut (e : SchedEntry) : Bool := e.op == 3 || e.op == 4 || e.op == 5 || e.op == 7
/-- Instant of occurrence n, counted from 0 (R59). -/
def SchedEntry.occTime (e : SchedEntry) (n : Nat) : Tick := e.time.toNat + n * e.period.toNat
/-- FSK_FRAME parameters of R247. -/
def SchedEntry.ntx (e : SchedEntry) : Nat := fld e.param 0 8
def SchedEntry.tmo (e : SchedEntry) : Nat := fld e.param 8 8
def SchedEntry.nrx (e : SchedEntry) : Nat := if fld e.param 16 8 = 0 then 252 else fld e.param 16 8
/-- One FSK bit time in ticks (R246). -/
def bitTime : Nat := 2500000
/-- Span end of an FSK_FRAME (R247). -/
def SchedEntry.fskEnd (e : SchedEntry) (lead : Nat) : Tick :=
  e.time.toNat + (lead + 11 * e.ntx + e.tmo + 11 * (e.nrx + 1) + 2) * bitTime

end Sys2Proof

namespace Sys2Proof.Machine
open Sys2Proof

/-- STATUS values of R381. -/
def ZS.toNat : ZS → Nat
  | .ok => 0 | .deferred => 1 | .refusedEnergy => 2 | .refusedPolicy => 3 | .busy => 4 | .badArg => 5
  | .version => 6 | .auth => 7 | .noTime => 8 | .blockOff => 9 | .storeFail => 10 | .inputUnstable => 11
  | .inputOutOfWindow => 12 | .openWire => 13

/-- Event class k of R388. -/
def Ev.cls : Ev → Nat
  | .poolMismatch | .deviceFault => 0
  | .hubTakeover | .hubSwitchover | .stringFault | .mirrorReady | .laneFailed | .linkDown | .linkUp => 1
  | .timeLock | .timeLost | .timeHoldover | .timeStep | .timeProfileMix | .syncIn => 2
  | .schedTimer | .schedDone | .deferEnd => 3
  | .openWire | .overload | .shortFg | .backfeed | .foreignDrive | .thermal | .shortLp | .lpUndervolt | .overrange
  | .inputOvercurrent | .safeState | .terminalVoltage | .stateSkew | .encoderError | .shareImbalance
  | .edgeCompLimit => 4
  | .mainsLock | .mainsLost | .refDisagree | .urgentDropped | .filterSync | .angleLate | .angleOverspeed | .axisSlip
  | .axisStill | .calHallmark | .calSkip | .calReject | .calSliceFault | .calStoreLost => 5
  | .policyClip | .policyConflict | .ledgerOverdraw | .pwrEntry | .pwrAbort | .yoyoWake | .vreqTimeout => 6
  | .wdogEarly | .wdogLate | .wdogSeq | .wdogCfgReject | .authFail | .sessionLost | .keyRotated | .streamSuspended
  | .poolAudit => 7

/-- Event number within its class, from 1 in the order of R388. -/
def Ev.num : Ev → Nat
  | .poolMismatch => 1 | .deviceFault => 2
  | .hubTakeover => 1 | .hubSwitchover => 2 | .stringFault => 3 | .mirrorReady => 4 | .laneFailed => 5
  | .linkDown => 6 | .linkUp => 7
  | .timeLock => 1 | .timeLost => 2 | .timeHoldover => 3 | .timeStep => 4 | .timeProfileMix => 5 | .syncIn => 6
  | .schedTimer => 1 | .schedDone => 2 | .deferEnd => 3
  | .openWire => 1 | .overload => 2 | .shortFg => 3 | .backfeed => 4 | .foreignDrive => 5 | .thermal => 6
  | .shortLp => 7 | .lpUndervolt => 8 | .overrange => 9 | .inputOvercurrent => 10 | .safeState => 11
  | .terminalVoltage => 12 | .stateSkew => 13 | .encoderError => 14 | .shareImbalance => 15 | .edgeCompLimit => 16
  | .mainsLock => 1 | .mainsLost => 2 | .refDisagree => 3 | .urgentDropped => 4 | .filterSync => 5 | .angleLate => 6
  | .angleOverspeed => 7 | .axisSlip => 8 | .axisStill => 9 | .calHallmark => 10 | .calSkip => 11 | .calReject => 12
  | .calSliceFault => 13 | .calStoreLost => 14
  | .policyClip => 1 | .policyConflict => 2 | .ledgerOverdraw => 3 | .pwrEntry => 4 | .pwrAbort => 5 | .yoyoWake => 6
  | .vreqTimeout => 7
  | .wdogEarly => 1 | .wdogLate => 2 | .wdogSeq => 3 | .wdogCfgReject => 4 | .authFail => 5 | .sessionLost => 6
  | .keyRotated => 7 | .streamSuspended => 8 | .poolAudit => 9

/-- Event code: class in [15:12], number in [11:0] (R388). -/
def Ev.code (e : Ev) : Nat := e.cls * 4096 + e.num

/-- The bit of the event in its page's EV_PENDING; none for the events without a header bit (R54, R82, R113, R118,
R127, R148, R180, R204, R213, R252, R274, R305, R319, R345, R373, R408, R412). -/
def Ev.bit : Ev → Option Nat
  | .poolMismatch => some 0 | .deviceFault => some 5
  | .hubTakeover => some 0 | .hubSwitchover => some 1 | .stringFault => some 2 | .mirrorReady => some 3
  | .laneFailed => some 4 | .linkDown => some 0 | .linkUp => some 1
  | .timeLock => some 0 | .timeLost => some 1 | .timeHoldover => some 2 | .timeStep => some 3
  | .timeProfileMix => some 4 | .syncIn => some 5
  | .schedTimer => none | .schedDone => none | .deferEnd => none
  | .openWire => some 0 | .overload => some 1 | .shortFg => some 2 | .backfeed => some 3 | .foreignDrive => some 4
  | .thermal => some 5 | .shortLp => some 6 | .lpUndervolt => some 7 | .overrange => some 8
  | .inputOvercurrent => some 9 | .safeState => some 10 | .terminalVoltage => some 11 | .stateSkew => none
  | .encoderError => none | .shareImbalance => none | .edgeCompLimit => none
  | .mainsLock => some 0 | .mainsLost => some 1 | .refDisagree => some 1 | .urgentDropped => some 0
  | .filterSync => some 0 | .angleLate => some 1 | .angleOverspeed => some 2 | .axisSlip => some 3
  | .axisStill => some 4 | .calHallmark => some 0 | .calSkip => some 1 | .calReject => some 2
  | .calSliceFault => some 3 | .calStoreLost => none
  | .policyClip => some 0 | .policyConflict => some 1 | .ledgerOverdraw => some 2 | .pwrEntry => some 0
  | .pwrAbort => some 1 | .yoyoWake => some 2 | .vreqTimeout => some 3
  | .wdogEarly => some 0 | .wdogLate => some 1 | .wdogSeq => some 2 | .wdogCfgReject => some 3 | .authFail => some 2
  | .sessionLost => some 3 | .keyRotated => some 4 | .streamSuspended => some 5 | .poolAudit => some 1

/-- The relative hub page whose header carries the event's bit, for the events of hub pages (R395). -/
def Ev.hubPage : Ev → Fin 12
  | .timeLock | .timeLost | .timeHoldover | .timeStep | .timeProfileMix | .syncIn => 1
  | .policyClip | .policyConflict | .ledgerOverdraw => 3
  | .pwrEntry | .pwrAbort | .yoyoWake | .vreqTimeout => 4
  | .wdogEarly | .wdogLate | .wdogSeq | .wdogCfgReject => 5
  | .mainsLock | .mainsLost => 7
  | .filterSync | .angleLate | .angleOverspeed | .axisSlip | .axisStill => 8
  | .hubTakeover | .hubSwitchover | .stringFault | .mirrorReady | .laneFailed | .deviceFault => 9
  | .linkDown | .linkUp | .authFail | .sessionLost | .keyRotated | .streamSuspended => 10
  | .poolMismatch | .poolAudit => 11
  | _ => 0

/-- PWR_STATE codes of R323. -/
def PwrState.toNat : PwrState → Nat
  | .run => 0 | .idle => 1 | .sleep => 2 | .deepSleep => 3 | .off => 4

/-- The power state a TARGET code names (R323, R345). -/
def PwrState.ofCode : Nat → Option PwrState
  | 0 => some .run | 1 => some .idle | 2 => some .sleep | 3 => some .deepSleep | 4 => some .off | _ => none

/-- HSTATE codes of R307. -/
def HState.toNat : HState → Nat
  | .active => 0 | .syncing => 1 | .ready => 2 | .detached => 3 | .failed => 4
/-- TIME.STATUS.STATE codes of R56. -/
def SyncState.toNat : SyncState → Nat
  | .unlocked => 0 | .acquiring => 1 | .locked => 2 | .holdover => 3
/-- PORT_STATE codes of R57. -/
def PortState.toNat : PortState → Nat
  | .disabled => 0 | .listening => 1 | .slave => 2 | .master => 3 | .passive => 4 | .faulty => 5
/-- MAINS.STATUS.STATE codes of R127. -/
def MainsState.toNat : MainsState → Nat
  | .free => 0 | .locked => 1 | .hold => 2
/-- LANE_ERRd.STATE codes of R308. -/
def LaneState.toNat : LaneState → Nat
  | .trained => 0 | .training => 1 | .failed => 2 | .absent => 3
/-- SPARE phases of R206. -/
def SparePhase.toNat : SparePhase → Nat
  | .idle => 0 | .shadowIn => 1 | .serve => 2 | .shadowOut => 3 | .selfCal => 4 | .parked => 5 | .fault => 6
/-- SPEED codes of R374. -/
def Speed.toNat : Speed → Nat
  | .g2_5 => 0 | .g1 => 1 | .m100 => 2
/-- Port rate in kB/s: 2.5 Gbit/s, 1 Gbit/s, 100 Mbit/s (R366). -/
def Speed.rate : Speed → Nat
  | .g2_5 => 312500 | .g1 => 125000 | .m100 => 12500
/-- Outcome codes of R389. -/
def EntryOutcome.toNat : EntryOutcome → Nat
  | .executed => 0 | .cancelled => 1 | .missed => 2
/-- PATH codes of R405. -/
def pathCode : Path → Nat
  | .spi h => h.val | .zcs => 2 | .tunnel => 3
/-- PWR.LAST_REFUSE block codes of R345. -/
def blockCode : PwrBlock → Nat
  | .die d => d.val | .rom => 0x10 | .schedule => 0x11 | .nvStore => 0x12 | .ports => 0x13 | .standby => 0x14

/-! ### Fields of a channel image (R115 to R117, R146, R176 to R178, R226, R227, R253, R255, R278) -/

namespace Img
def mode (i : ChanImg) : Nat := fld i.cfg 0 4
def lowpwr (i : ChanImg) : Bool := bit i.cfg 4
def fskOn (i : ChanImg) : Bool := bit i.cfg 5
def range (i : ChanImg) : Nat := fld i.cfg 8 4
def zEn (i : ChanImg) : Bool := bit i.cfg 12
/-- The channel is the Z input of an encoder pair, which takes part in no pair: mode 0x7 with Z_EN (R91). -/
def zIn (i : ChanImg) : Bool := mode i == 7 && zEn i
def zOf (i : ChanImg) : Nat := fld i.cfg 16 4
def kind (i : ChanImg) : Nat := fld i.safe 30 2
def slpSafe (i : ChanImg) : Bool := bit i.safe 29
def fdSafe (i : ChanImg) : Bool := bit i.safe 28
def rate (i : ChanImg) : Nat := fld i.safe 0 24
def holdMs (i : ChanImg) : Nat := fld i.linkloss 0 16
def termMon (i : ChanImg) : Bool := bit i.diag 17
def optEn (i : ChanImg) : Bool := bit i.diag 16
/-- BF_FILT in ticks (units of 50 µs). -/
def bfFilt (i : ChanImg) : Nat := fld i.diag 8 8 * (50 * us)
def owFilt (i : ChanImg) : Nat := fld i.diag 4 4
def owSn (i : ChanImg) : Bool := bit i.diag 3
def owIo (i : ChanImg) : Bool := bit i.diag 2
def optPeriod (i : ChanImg) : Nat := fld i.opt 0 14
def mcEn (i : ChanImg) : Bool := bit i.convCfg 0
def mcN (i : ChanImg) : Nat := fld i.convCfg 8 6
def preset (i : ChanImg) : Nat := fld i.filtCfg 24 4
def lock (i : ChanImg) : Nat := fld i.filtCfg 20 2
def exempt (i : ChanImg) : Bool := bit i.filtCfg 19
def scsWin (i : ChanImg) : Nat := fld i.filtCfg 0 13
def ma (i : ChanImg) : Nat := fld i.maLen 0 13
def dcbK (i : ChanImg) : Nat := fld i.dcbCfg 8 5
def dcbFreeze (i : ChanImg) : Bool := bit i.dcbCfg 1
def dcbEn (i : ChanImg) : Bool := bit i.dcbCfg 0
def angK (i : ChanImg) : Nat := fld i.angCfg 8 5
def axis (i : ChanImg) : Nat := fld i.angCfg 0 2
def thr (i : ChanImg) : Nat := fld i.dinCfg 16 12
def tick (i : ChanImg) : Nat := fld i.dinCfg 2 14
def filtEn (i : ChanImg) : Bool := bit i.dinCfg 1
def zMode (i : ChanImg) : Nat := fld i.encCfg 6 2
def decode (i : ChanImg) : Nat := fld i.encCfg 0 3
def clampE (i : ChanImg) : Nat := fld i.outCfg 24 8
def par (i : ChanImg) : Nat := fld i.outCfg 16 2
def precomp (i : ChanImg) : Nat := fld i.outCfg 8 2
def slew (i : ChanImg) : Nat := fld i.outCfg 4 2
def lead (i : ChanImg) : Nat := fld i.fskCfg 8 4
def multidrop (i : ChanImg) : Bool := bit i.fskCfg 4
/-- Multidrop operation of a 4-to-20 mA output with FSK (R250). -/
def parked (i : ChanImg) : Bool := mode i == 11 && fskOn i && multidrop i
def sclass (i : ChanImg) : Nat := fld i.decl 30 2
def rm (i : ChanImg) : Nat := fld i.decl 16 12
def idDecl (i : ChanImg) : Nat := fld i.decl 0 13
/-- Output period in units of 2^−32 tick (R157). -/
def period (i : ChanImg) : Nat := i.perInt.toNat * 2 ^ 32 + i.perFrac.toNat
/-- The channel image with its mode code replaced. -/
def withMode (i : ChanImg) (m : Nat) : ChanImg :=
  { i with cfg := BitVec.ofNat 32 ((i.cfg.toNat / 16) * 16 + m % 16) }
end Img

/-- Output modes 0x8 to 0xC (R100, "all output modes"). -/
def isOutMode (m : Nat) : Bool := decide (8 ≤ m ∧ m ≤ 12)
/-- Digital input modes 0x6, 0x7 and 0xD (R207). -/
def isDinMode (m : Nat) : Bool := m == 6 || m == 7 || m == 13
/-- Pair modes 0x4, 0x5 and 0x7 (R90). -/
def isPairMode (m : Nat) : Bool := m == 4 || m == 5 || m == 7
/-- Modes whose chain runs: 0x1 to 0xC (R151). -/
def hasChain (m : Nat) : Bool := decide (1 ≤ m ∧ m ≤ 12)

/-- The mode code in force. -/
def Channel.mode (c : Channel) : Nat := Img.mode c.img
/-- A latched protection condition is present (R100, R108 row 4). -/
def Channel.latched (c : Channel) : Bool :=
  c.diag.lpUv || c.diag.thermal || c.diag.shortFg || c.diag.overload || c.diag.bfLatch
/-- Some safe-state cause is set (R104). -/
def Channel.isSafe (c : Channel) : Bool := c.cause != 0#11

/-- STATE codes of R111. -/
inductive ChState where
  | run | transition | hold | safe | latched | disabled
  deriving DecidableEq, Repr
def ChState.toNat : ChState → Nat
  | .run => 0 | .transition => 1 | .hold => 2 | .safe => 3 | .latched => 4 | .disabled => 5

/-- STATE reports the first applicable row of R108 from row 2 down (R111). -/
def Channel.state (c : Channel) : ChState :=
  if c.mode = 0 then .disabled
  else if c.trans.isSome then .transition
  else if c.latched then .latched
  else if c.isSafe then .safe
  else if c.hold.isSome then .hold
  else .run

/-- Bits [15:0] of the channel word (R111). -/
def Channel.word16 (c : Channel) : Nat :=
  putFld c.mode 12 4 + putFld c.state.toNat 9 3 + putBit c.out.drive 8 + putBit c.diag.lpUv 7 + putBit c.diag.thermal 6 +
    putBit c.diag.shortLp 5 + putBit c.diag.foreign 4 + putBit c.diag.backfeed 3 + putBit c.diag.shortFg 2 +
    putBit c.diag.overload 1 + putBit c.diag.openW 0

/-- The channel word, CH.STATUS (R111). -/
def Channel.word (c : Channel) : Word := BitVec.ofNat 32 (putFld c.epoch 16 16 + c.word16)

/-- Bits [15:0] and EPOCH as they stood before the instant t (R111). -/
def Channel.before (k : Channel) (t : Tick) : Nat × Nat :=
  match k.seen with
  | some (x, w, e) => if x = t then (w, e) else (k.word16, k.epoch)
  | none => (k.word16, k.epoch)
/-- A channel after a change at t: EPOCH rises by 1 modulo 65,536 at an instant that changes bits [15:0], however many causes act
there (R111). -/
def Channel.settle (old new : Channel) (t : Tick) : Channel :=
  if old.word16 = new.word16 then new
  else { new with
    seen := some (t, old.before t)
    epoch := (if (old.before t).1 = new.word16 then (old.before t).2 else ((old.before t).2 + 1) % 65536) }
/-- A channel whose driver is held off, whatever else governs it (R108 row 1, R440). -/
def Channel.held (k : Channel) (off : Bool) : Channel :=
  if off && k.out.drive then { k with out := { k.out with drive := false } } else k

/-- The lease report of R288; AGE is in µs. -/
def leaseReport (d : Die) (elapsed : Nat) : Nat :=
  putFld (match d.holder with | none => 2 | some h => h.val) 62 2 +
  putFld (min 1023 ((elapsed - d.renewAt) / us)) 52 10 + putFld d.promoCnt 32 16 + putFld d.nextFrame 16 16

/-- PWR.STATUS.PHASE: a handshake is open until tg; then to tc; then a wake (R346). -/
def Power.phase (p : Power) : Nat :=
  match p.req, p.waking with
  | some r, _ => if r.tc.isNone then 1 else 2
  | none, some _ => 3
  | none, none => 0

/-- Time is usable: in LOCKED and HOLDOVER, else only with ACCEPT (R46). -/
def State.usable (s : State) : Bool :=
  match s.sync.st with
  | .locked | .holdover => true
  | .unlocked | .acquiring => s.core.time.accept

/-- Time-quality code of R52. -/
def State.quality (s : State) : Nat :=
  match s.sync.st with
  | .locked => 0
  | .holdover => 1
  | .unlocked | .acquiring => if s.core.time.accept then 2 else 3
/-- The code of the state at the instant that a timestamp denotes (R52). -/
def State.qualityOf (s : State) (t : Tick) : Nat :=
  match s.sync.quals.find? fun p => decide (p.1 ≤ t) with
  | some p => p.2
  | none => s.quality
/-- The code changes at this instant (R52). -/
def State.noteQuality (old s : State) : State :=
  if old.quality = s.quality then s
  else { s with sync := { s.sync with quals := (s.clk.now, s.quality) :: (if s.sync.quals.isEmpty then [(0, old.quality)] else s.sync.quals) } }

end Sys2Proof.Machine
end

