-- ==== Sys2Proof/Machine/Frames.lean ====
section
/-! DEFINITION. The 96-bit frames of the Solder Lanes and the String: layout, CRC-16, the type codes, and the payloads that the
spec lays out (R15, R16, R58, R69, R110, R221, R280, R281, R284, R287, R288). -/

namespace Sys2Proof.Machine
open Sys2Proof

/-- Frame types of a Solder Lane (R16). -/
inductive FrameType where
  | idle | time | outputState | status | promotion | mgmtRequest | mgmtResponse | result | capture | event | angleTag
  | replayRequest | training
  deriving DecidableEq, Repr

/-- TYPE (R16). -/
def FrameType.code : FrameType → Nat
  | .idle => 0x0 | .time => 0x1 | .outputState => 0x2 | .status => 0x3 | .promotion => 0x4 | .mgmtRequest => 0x5
  | .mgmtResponse => 0x6 | .result => 0x7 | .capture => 0x8 | .event => 0x9 | .angleTag => 0xA | .replayRequest => 0xB
  | .training => 0xC
/-- The type is of the buffered class, which costs a credit and carries a SEQ (R16). -/
def FrameType.buffered : FrameType → Bool
  | .promotion | .mgmtRequest | .mgmtResponse | .result | .capture | .event | .angleTag => true
  | .idle | .time | .outputState | .status | .replayRequest | .training => false
/-- A lane trained at a version carries the type (R16, R24). -/
def FrameType.carriedAt (t : FrameType) (version : Nat) : Bool :=
  match t with
  | .angleTag => version == 2
  | _ => version == 1 || version == 2

/-- Frame types of the String (R280). -/
inductive StrType where
  | idle | time | heartbeat | mirror | mirrorCommit | roleLease | portRelay | replayRequest | training
  deriving DecidableEq, Repr
/-- TYPE (R280). -/
def StrType.code : StrType → Nat
  | .idle => 0x0 | .time => 0x1 | .heartbeat => 0x2 | .mirror => 0x3 | .mirrorCommit => 0x4 | .roleLease => 0x5
  | .portRelay => 0x6 | .replayRequest => 0xB | .training => 0xC
/-- The type is of the buffered class (R280). -/
def StrType.buffered : StrType → Bool
  | .mirror | .mirrorCommit | .roleLease | .portRelay => true
  | .idle | .time | .heartbeat | .replayRequest | .training => false

/-! ### The layout and the CRC (R15) -/

/-- One bit of the CRC-16 with polynomial 0x1021, the highest bit first. -/
def crcBit (c : BitVec 16) (b : Bool) : BitVec 16 := if c.msb != b then (c <<< 1) ^^^ 0x1021#16 else c <<< 1
/-- CRC-16 with initial value 0xFFFF over bits [95:16] of a frame (R15). -/
def crc16 (x : BitVec 80) : BitVec 16 := (List.range 80).foldl (fun c i => crcBit c (x.getMsbD i)) 0xFFFF#16

/-- The fields of a frame but its CRC (R15). -/
structure Frame where
  type    : BitVec 4
  seq     : BitVec 4
  ack     : BitVec 4
  credit  : BitVec 4
  payload : BitVec 64
  deriving DecidableEq, Repr

/-- Bits [95:16] (R15). -/
def Frame.head (f : Frame) : BitVec 80 := f.type ++ f.seq ++ f.ack ++ f.credit ++ f.payload
/-- The 96 bits, transmitted from bit 95 down (R15). -/
def Frame.bits (f : Frame) : BitVec 96 := f.head ++ crc16 f.head
/-- The fields that 96 bits hold (R15). -/
def Frame.ofBits (w : BitVec 96) : Frame where
  type := w.extractLsb' 92 4
  seq := w.extractLsb' 88 4
  ack := w.extractLsb' 84 4
  credit := w.extractLsb' 80 4
  payload := w.extractLsb' 16 64
/-- A received frame passes its CRC (R15, R22). -/
def frameIntact (w : BitVec 96) : Bool := w.extractLsb' 0 16 == crc16 (w.extractLsb' 16 80)

/-- SEQ of the next buffered frame to leave: the first one still to be resent, else a new one (R15, R22). -/
def Flow.outSeq (f : Flow) : Nat := match f.resend with | q :: _ => q | [] => f.nextSeq
/-- ACK of the frames that travel the other way: the last buffered frame received intact and in order (R15). -/
def Flow.ackNow (f : Flow) : Nat := (f.expect + 15) % 16
/-- CREDIT of the frames that travel the other way: places freed since the previous frame, at most 15 (R15, R19). -/
def Flow.creditNow (f : Flow) : Nat := min 15 f.toReturn

/-- A frame that leaves on `own`, whose far end sends on `back`: SEQ is 0 in a register-class frame (R15). -/
def Flow.frame (own back : Flow) (type : Nat) (buffered : Bool) (payload : Dword) : BitVec 96 :=
  Frame.bits
    { type := BitVec.ofNat 4 type
      seq := BitVec.ofNat 4 (if buffered then own.outSeq else 0)
      ack := BitVec.ofNat 4 back.ackNow
      credit := BitVec.ofNat 4 back.creditNow
      payload := payload }

/-! ### Payloads -/

/-- The 32 octets of a schedule entry (R58). -/
def entryBytes (e : SchedEntry) : List Byte :=
  leBytes 8 e.time.toNat ++ leBytes 1 e.opcode.toNat ++ leBytes 1 e.cls.toNat ++ leBytes 2 e.channel.toNat ++ leBytes 4 e.param.toNat ++
    leBytes 4 e.slot.toNat ++ leBytes 2 e.flags.toNat ++ leBytes 2 e.count.toNat ++ leBytes 4 e.period.toNat ++ leBytes 4 e.tag.toNat
/-- Promotion frame k of an entry, 0 to 3: octets 8k to 8k + 7 of the entry, lowest octet first; which octet stands where in
the payload is a DESIGN CHOICE (log 18). -/
def promotionPayload (e : SchedEntry) (k : Nat) : Dword := BitVec.ofNat 64 (leAt (entryBytes e) (8 * k) 8)
/-- A Capture frame (R221). -/
def capturePayload (stamp : Nat) (c : ChanId) (rising : Bool) (q : Nat) (angle : Bool) : Dword :=
  BitVec.ofNat 64 (putFld stamp 24 40 + putFld c.val 20 4 + putBit rising 19 + putFld q 17 2 + putBit angle 16)
/-- A lease message of hub h (R284). -/
def leasePayload (h : HubId) : LeaseMsg → Dword
  | .renew => BitVec.ofNat 64 (putFld 1 60 4 + putFld h.val 59 1)
  | .claim n => BitVec.ofNat 64 (putFld 2 60 4 + putFld h.val 59 1 + putFld n 32 16)
  | .release n => BitVec.ofNat 64 (putFld 3 60 4 + putFld h.val 59 1 + putFld n 32 16)
/-- A GRANT (R287). -/
def grantPayload (h : HubId) (promoCnt : Nat) : Dword := BitVec.ofNat 64 (putFld 2 60 4 + putFld h.val 59 1 + putFld promoCnt 32 16)
/-- A Heartbeat (R281). -/
def heartbeatPayload (idx hstate roles count : Nat) : Dword :=
  BitVec.ofNat 64 (putFld idx 32 32 + putFld hstate 24 8 + putFld roles 16 8 + putFld count 0 16)
/-- A Management frame of a register access: PAYLOAD [63:60] is 0 (R284), and the spec lays out no other bit of it. -/
def accessPayload (content : List Nat) : Dword := Config.framePayload content &&& 0x0FFFFFFFFFFFFFFF#64

/-- The type of the frame that carries an item of a hub (R16). -/
def DownItem.type : DownItem → FrameType
  | .promo .. => .promotion
  | .lease _ | .access _ => .mgmtRequest
/-- The type of the frame that carries an item of a die (R16). -/
def LaneItem.type : LaneItem → FrameType
  | .result .. => .result | .capture .. => .capture | .angle .. => .angleTag | .event _ => .event | .mgmt .. | .grant .. => .mgmtResponse
/-- Its payload: a capture and a GRANT are laid out; of the others the spec gives no layout, so that their payload is a free
value of their content (log 18). -/
def LaneItem.payload : LaneItem → Dword
  | .capture _ c stamp rising q tagged => capturePayload stamp c rising q tagged
  | .grant h n => grantPayload h n
  | .mgmt page off wr w => accessPayload [page, off, putBit wr 0, w.toNat]
  | .result id words stamp q n st => Config.framePayload ([7, id, stamp, q, n, st] ++ words.map fun p => p.1 + p.2.toNat * 65536)
  | .angle id words stamp q n => Config.framePayload ([0xA, id, stamp, q, n] ++ words.map fun p => p.1 + p.2.toNat * 65536)
  | .event r => Config.framePayload ([9, r.time, r.code, r.source, r.flags] ++ r.data.map (·.toNat))

end Sys2Proof.Machine
end

