-- ==== Sys2Proof/Machine/Ops.lean ====
section
/-! DEFINITION. The named operations that the meanings share: places in the state, raising an event on a die and on
a hub, the staging queue, counted pools, the books of a lane, rejected writes, mirroring and the answers to commands. -/

namespace Sys2Proof.Machine
open Sys2Proof

/-! ### Places -/

/-- One hub changed. -/
def State.modHub (s : State) (h : HubId) (f : Hub → Hub) : State := { s with hubs := vmod s.hubs h f }
/-- One die changed. -/
def State.modDie (s : State) (d : DieId) (f : Die → Die) : State := { s with dies := vmod s.dies d f }
/-- The active hub's mirrored state changed. -/
def State.modCore (s : State) (f : Core → Core) : State := { s with core := f s.core }
/-- Every output of the die is off: isolated power is lost (R108 row 1, R256), or Fd_LP is low in an episode of L+ undervoltage, whose
latch a channel that enters an output mode meets 10 µs later (R440). -/
def Die.allOff (d : Die) : Bool := !d.isoPower || d.uvLow
/-- One channel changed; its state epoch follows R111. -/
def Die.modCh (d : Die) (c : ChanId) (f : Channel → Channel) : Die :=
  { d with chans := vmod d.chans c fun k => k.settle ((f k).held d.allOff) d.replica }
/-- One channel of the package changed. -/
def State.modCh (s : State) (ch : Chan) (f : Channel → Channel) : State := s.modDie ch.die (·.modCh ch.c f)
/-- A die. -/
def State.die (s : State) (d : DieId) : Die := s.dies[d.val]
/-- A channel. -/
def State.chan (s : State) (ch : Chan) : Channel := (s.dies[ch.die.val]).chans[ch.c.val]
/-- A channel of a die. -/
def Die.chan (d : Die) (c : ChanId) : Channel := d.chans[c.val]
/-- A hub. -/
def State.hub (s : State) (h : HubId) : Hub := s.hubs[h.val]
/-- The active hub. -/
def State.act (s : State) : Hub := s.hubs[s.active.val]
/-- The other hub. -/
def other (h : HubId) : HubId := if h = 0 then 1 else 0
/-- The lane of a hub to a die. -/
def State.lane (s : State) (h : HubId) (d : DieId) : Lane := (s.hub h).lanes[d.val]
/-- The lane of a hub to a die changed. -/
def Hub.modLane (h : Hub) (d : DieId) (f : Lane → Lane) : Hub := { h with lanes := vmod h.lanes d f }
/-- The lane of a hub to a die changed. -/
def State.modLane (s : State) (h : HubId) (d : DieId) (f : Lane → Lane) : State := s.modHub h (·.modLane d f)
/-- The channel with global number g, if the die is in the package (R5, R9). -/
def State.chanOf (s : State) (g : Nat) : Option Chan :=
  if h : g < 96 then
    let ch : Chan := ⟨⟨g / 16, by omega⟩, ⟨g % 16, by omega⟩⟩
    if (s.die ch.die).present then some ch else none
  else none
/-- The die a command's byte names, if present (R5). -/
def State.dieOf (s : State) (b : Nat) : Option DieId :=
  if h : b < 6 then if (s.die ⟨b, h⟩).present then some ⟨b, h⟩ else none else none
/-- The dies of the package, in order. -/
def State.presentDies (s : State) : List DieId := (List.finRange 6).filter fun d => (s.die d).present
/-- The channels of one die. -/
def dieChans (d : DieId) : List Chan := (List.finRange 16).map fun c => ⟨d, c⟩
/-- Every channel of the package. -/
def State.allChans (s : State) : List Chan := s.presentDies.flatMap dieChans
/-- The next value of the free counter is taken. -/
def State.tickFree (s : State) : State := { s with free := s.free + 1 }
/-- The next n values of the free counter are taken. -/
def State.skipFree (s : State) (n : Nat) : State := { s with free := s.free + n }
/-- A die does its work: isolated power present and the state Run or Idle (R256, R323). -/
def Die.on (d : Die) : Bool := d.present && d.isoPower && (d.pwr == .run || d.pwr == .idle)
/-- The package is in Run, in which Idle counts too (R323, R324). -/
def State.awake (s : State) : Bool := s.power.st == .run || s.power.st == .idle
/-- The active hub serves: it runs, power-up is complete, and its controller is powered (R14, R325, R342). -/
def State.serving (s : State) : Bool := s.act.up && s.act.present && s.awake && s.power.boot == .complete
/-- The active hub's time-base island and its lane endpoints work: as it serves, and at keep-alive in Sleep (R325, R338). -/
def State.ticking (s : State) : Bool :=
  s.act.up && s.act.present && (s.awake || s.power.st == .sleep) && s.power.boot == .complete
/-- A request of which every block has granted is on its way into a low state of the die (R330). -/
def State.entering (s : State) (d : DieId) : Bool :=
  match s.power.req with
  | some r => r.tc.isSome && (match r.die with | some x => decide (x = d) | none => true)
  | none => false
/-- Every block has granted an entry of the die into Sleep, which abandons carousel visits (R330). -/
def State.enteringSleep (s : State) (d : DieId) : Bool := s.entering d && s.power.req.any fun r => r.target == .sleep
/-- The holder's lane to the die is trained. -/
def State.laneUp (s : State) (h : HubId) (d : DieId) : Bool := (s.hub h).up && (s.lane h d).st == .trained
/-- A die's lane endpoint is powered: in Run, Idle and, at keep-alive, Sleep, and in a wake from Deep Sleep, which trains it (R325,
R338). -/
def Die.laneOn (d : Die) : Bool := d.present && d.isoPower && (d.pwr != .deepSleep || d.pwrBusy) && d.pwr != .off
/-- Frames pass between hub h and die d. -/
def State.linked (s : State) (h : HubId) (d : DieId) : Bool := (s.hub h).present && s.laneUp h d && (s.die d).laneOn
/-- The active hub reaches the die: their lane is trained and the hub holds the die's field lease, without which the die
accepts no Management request (R13, R21, R285). -/
def State.reaches (s : State) (d : DieId) : Bool := s.linked s.active d && (s.die d).holder == some s.active
/-- What the active hub sends to the dies that p names: a die whose lane is not trained does not get it, and one whose lease the hub
does not hold discards and counts it (R13, R21). -/
def State.sendTo (s : State) (p : DieId → Bool) (f : DieId → Die → Die) : State :=
  { s with dies := vmap s.dies fun di d =>
      if !p di || !s.linked s.active di then d
      else if d.holder = some s.active then f di d else { d with foreignDisc := satInc d.foreignDisc } }
/-- What the active hub sends to every die. -/
def State.overLanes (s : State) (f : DieId → Die → Die) : State := s.sendTo (fun _ => true) f
/-- What keeps the active hub's commands from a die: the die or their lane does no work (R326, R327), or the hub does not hold
the die's lease (R21). The spec names no status for the lane and the lease; ZS_BLOCK_OFF and ZS_BUSY are a DESIGN CHOICE (log
22). -/
def State.barred (s : State) (d : DieId) : Option ZS :=
  if !(s.die d).on || !s.laneUp s.active d then some .blockOff
  else if (s.die d).holder = some s.active then none else some .busy
/-- A die discards a Management request or Promotion frame of a hub that does not hold its lease (R21, R285). -/
def Die.foreign (d : Die) : Die := { d with foreignDisc := satInc d.foreignDisc }
/-- Frames enter the result FIFO, which holds 1,024 (R33); what does not fit is not kept (log 19). -/
def Die.push (d : Die) (l : List LaneItem) : Die := { d with fifo := (d.fifo ++ l).take 1024 }
/-- A device time is past on a die's replica. -/
def Die.past (d : Die) (t : Tick) : Bool := decide (t ≤ d.replica)

/-- A conversion whose window runs from a to b straddles a switch of the reference, and is discarded (R131). -/
def Die.refCuts (d : Die) (a b : Int) : Bool := d.aux.cutAt.any fun t => decide (a < (t : Int)) && decide ((t : Int) < b)

/-! ### Page headers and events -/

/-- A page: a relative page of a hub or of a die (R394 to R396). -/
inductive PageRef where
  | hub (h : HubId) (r : Fin 12)
  | die (d : DieId) (r : Fin 23)
  deriving DecidableEq, Repr

def State.hdr (s : State) : PageRef → PageHdr
  | .hub h r => (s.hub h).hdr[r.val]
  | .die d r => (s.die d).hdr[r.val]
def Hub.modHdr (h : Hub) (r : Fin 12) (f : PageHdr → PageHdr) : Hub := { h with hdr := vmod h.hdr r f }
def Die.modHdr (d : Die) (r : Fin 23) (f : PageHdr → PageHdr) : Die := { d with hdr := vmod d.hdr r f }
def State.modHdr (s : State) (p : PageRef) (f : PageHdr → PageHdr) : State :=
  match p with
  | .hub h r => s.modHub h (·.modHdr r f)
  | .die d r => s.modDie d (·.modHdr r f)
/-- The relative page of channel c. -/
def chPage (c : ChanId) : Fin 23 := ⟨1 + c.val, by omega⟩

/-- The condition of an event: its pending bit is set, and a condition that finds it set is counted (R404). -/
def PageHdr.condition (p : PageHdr) (b : Nat) : PageHdr :=
  let m := BitVec.ofNat 32 (2 ^ b)
  let q := { p with fresh := p.fresh ||| m }
  if bit p.pending b then { q with ovf := satInc p.ovf } else { q with pending := p.pending ||| m }
/-- A write of EV_CLEAR: the bits written 1 are cleared, but those that an event has set in the same register cycle
(R10, R11, R399). -/
def PageHdr.clearBits (p : PageHdr) (w : Word) : PageHdr := { p with pending := p.pending &&& ~~~(w &&& ~~~p.fresh) }
/-- The next register cycle begins (R11). -/
def PageHdr.nextCycle (p : PageHdr) : PageHdr := { p with fresh := 0#32 }

/-- A rejected write is recorded (R405). -/
def PageHdr.reject (p : PageHdr) (cause path offset : Nat) : PageHdr :=
  { p with err := ⟨cause, path, satTo 255 (p.err.count + 1), offset % 4096⟩ }

/-- SOURCE byte of R302. -/
def srcCh (d : DieId) (c : ChanId) : Nat := d.val + 8 * c.val + 128
def srcDie (d : DieId) : Nat := d.val
def srcHub (h : HubId) : Nat := 6 + h.val

/-- A record of R302 for an event: at most 12 octets of items are carried (R389). -/
def mkRec (e : Ev) (time source q : Nat) (st : Bool) (data : List Byte) (owner : Option Who) : LogRec where
  time := time
  code := e.code
  source := source
  flags := q % 4 + putBit st 2 + 8 * e.cls
  seq := 0
  data := (data ++ List.replicate 12 0#8).take 12
  owner := owner

/-- Time quality a die stamps with: its hub's, whether or not it coasts (R52). -/
def Die.q (_d : Die) (hubQ : Nat) : Nat := hubQ

/-- An event of a die whose condition is on page r: the pending bit is set, and while the event is enabled its record
waits for the lane (R300, R404). -/
def Die.raise (d : Die) (e : Ev) (r : Fin 23) (rec : LogRec) : Die :=
  match e.bit with
  | none => { d with evq := d.evq ++ [.event rec] }
  | some b =>
    { d with
      hdr := vmod d.hdr r (·.condition b)
      evq := if bit d.hdr[r.val].enable b then d.evq ++ [.event rec] else d.evq }
/-- An event of a die that has its pending bit on a hub page, or none: its record goes to the lane and the hub
keeps the bit (R404). -/
def Die.raiseHub (d : Die) (rec : LogRec) : Die := { d with evq := d.evq ++ [.event rec] }
/-- An event of a channel. -/
def Die.raiseCh (d : Die) (di : DieId) (c : ChanId) (e : Ev) (time q : Nat) (st : Bool) (data : List Byte) : Die :=
  d.raise e (chPage c) (mkRec e time (srcCh di c) q st data none)

/-- A raised event enters the staging queue of 64 records, or is counted (R300). -/
def Log.stage (l : Log) (r : LogRec) : Log :=
  let k := (r.code >>> 12) % 8
  if h : l.staged.length < 64 then
    { l with staged := l.staged ++ [r], raised := l.raised + 1, logged := l.logged + 1 }
  else
    have : k < 8 := by omega
    { l with
      raised := l.raised + 1
      counted := l.counted + 1
      ovf := vmod l.ovf ⟨k, this⟩ satInc
      sums := vmod l.sums ⟨k, this⟩ fun o =>
        match o with
        | none => some ⟨1, r.time, r.time, r.flags % 4⟩
        | some m => some { m with count := m.count + 1, last := r.time, quality := r.flags % 4 } }

/-- A record arrives at a hub's log from a die: for an event whose pending bit stands on a hub page, the bit is set
there and the event is raised only while enabled (R404). -/
def Hub.take (h : Hub) (onHub : Option (Fin 12 × Nat)) (r : LogRec) : Hub :=
  match onHub with
  | none => { h with log := h.log.stage r }
  | some (p, b) =>
    { h with
      hdr := vmod h.hdr p (·.condition b)
      log := if bit h.hdr[p.val].enable b then h.log.stage r else h.log }

/-- An event raised by a hub. -/
def Hub.raise (h : Hub) (e : Ev) (r : LogRec) : Hub := h.take (e.bit.map fun b => (e.hubPage, b)) r

/-- An event raised by hub h at device time `time`. -/
def State.raise (s : State) (h : HubId) (e : Ev) (time : Nat) (st : Bool) (data : List Byte) : State :=
  s.modHub h (·.raise e (mkRec e time (srcHub h) s.quality st data none))
/-- An event raised by the active hub now. -/
def State.raiseNow (s : State) (e : Ev) (data : List Byte) : State := s.raise s.active e s.clk.now false data
/-- An event raised by the active hub that names a die or a channel, or completes a session's command. -/
def State.raiseSrc (s : State) (e : Ev) (time source : Nat) (st : Bool) (data : List Byte) (owner : Option Who) :
    State :=
  s.modHub s.active (·.raise e (mkRec e time source s.quality st data owner))

/-- A write to page p is rejected with a cause (R405). -/
def State.rejectAt (s : State) (p : PageRef) (cause : Nat) (path : Path) (offset : Nat) : State :=
  s.modHdr p (·.reject cause (pathCode path) offset)

/-! ### Pools (R27) -/

/-- n is reserved from free. -/
def Pool.reserve (p : Pool) (n : Nat) : Pool := { p with free := p.free - n, res := p.res + min n p.free }
/-- n reserved comes into use. -/
def Pool.begin (p : Pool) (n : Nat) : Pool := { p with res := p.res - n, use := p.use + min n p.res }
/-- n reserved goes back to free. -/
def Pool.cancel (p : Pool) (n : Nat) : Pool := { p with res := p.res - n, free := p.free + min n p.res }
/-- n in use goes back to free. -/
def Pool.finish (p : Pool) (n : Nat) : Pool := { p with use := p.use - n, free := p.free + min n p.use }
/-- n is taken into use at once. -/
def Pool.take (p : Pool) (n : Nat) : Pool := { p with free := p.free - n, use := p.use + min n p.free }
/-- The pool's size: its identity of R27. -/
def Pool.total (p : Pool) : Nat := p.free + p.res + p.use

/-! ### Lanes (R18 to R23) -/

/-- A buffered frame may leave: a resent one whenever it is due, another with a credit and fewer than 15 frames that ACK has
not covered (R18, R22). -/
def Flow.canSend (f : Flow) : Bool := !f.resend.isEmpty || (decide (1 ≤ f.credits) && decide (f.unacked.length < 15))
/-- The frame that leaves next is the one the receiver expects (R22). -/
def Flow.inSeq (f : Flow) : Bool := f.outSeq == f.expect
/-- A buffered frame may leave, and arrives in order (R18, R22). -/
def Flow.maySend (f : Flow) : Bool := f.canSend && f.inSeq
/-- A buffered frame arrives intact and in order and occupies a place; the receiver acknowledges it at once. A new frame
costs a credit; a resent frame uses the credit already spent for it (R18, R22). -/
def Flow.pass (f : Flow) : Flow :=
  match f.resend with
  | _ :: rest =>
    { f with resend := rest, unacked := f.unacked.tail, expect := (f.expect + 1) % 16, places := f.places + 1, crcRun := 0 }
  | [] =>
    { f with
      credits := f.credits - 1
      outstanding := f.outstanding + 1
      nextSeq := (f.nextSeq + 1) % 16
      expect := (f.nextSeq + 1) % 16
      places := f.places + 1
      crcRun := 0 }
/-- A buffered frame leaves and is discarded at the receiver: it occupies no place and stays unacknowledged. A new one has
spent its credit and its SEQ; a resent one spends neither (R22). -/
def Flow.lose (f : Flow) : Flow :=
  match f.resend with
  | _ :: rest => { f with resend := rest }
  | [] =>
    if 1 ≤ f.credits ∧ f.unacked.length < 15 then
      { f with
        credits := f.credits - 1
        outstanding := f.outstanding + 1
        unacked := f.unacked ++ [f.nextSeq]
        nextSeq := (f.nextSeq + 1) % 16 }
    else f
/-- A buffered frame arrives intact but out of sequence: it is discarded, and a Replay request names the next expected SEQ
(R22). -/
def Flow.stray (f : Flow) : Flow := { f.lose with replay := some f.expect, crcRun := 0 }
/-- How many frames stand before the next one to leave: those lost and not yet asked for again (R22). -/
def Flow.lag (f : Flow) : Nat := f.unacked.length - f.resend.length
/-- The receiver consumes one place (R19). -/
def Flow.consume (f : Flow) : Flow :=
  if f.places = 0 then f else { f with places := f.places - 1, toReturn := f.toReturn + 1 }
/-- A frame of the other direction carries CREDIT, at most 15, back to the sender (R15, R18, R19). -/
def Flow.credit (f : Flow) : Flow :=
  { f with credits := f.credits + f.creditNow, outstanding := f.outstanding - f.creditNow, toReturn := f.toReturn - f.creditNow }

/-- An intact frame of this direction ends a run of CRC failures (R23). -/
def Flow.intact (f : Flow) : Flow := { f with crcRun := 0 }
/-- An intact frame from the hub to the field: its CREDIT field returns places of the field-to-hub direction. -/
def Lane.gotDown (l : Lane) (type : Nat) (payload : Dword) : Lane :=
  { l with up := l.up.credit, down := l.down.intact, lastDown := some (l.down.frame l.up type false payload) }
/-- An intact frame from the field to the hub: its CREDIT field returns places of the hub-to-field direction. -/
def Lane.gotUp (l : Lane) (type : Nat) (payload : Dword) : Lane :=
  { l with down := l.down.credit, up := l.up.intact, lastUp := some (l.up.frame l.down type false payload) }
/-- A buffered frame hub to field passes. -/
def Lane.passDown (l : Lane) (type : Nat) (payload : Dword) : Lane :=
  { l with down := l.down.pass, up := l.up.credit, lastDown := some (l.down.frame l.up type true payload) }
/-- A buffered frame field to hub passes. -/
def Lane.passUp (l : Lane) (type : Nat) (payload : Dword) : Lane :=
  { l with up := l.up.pass, down := l.down.credit, lastUp := some (l.up.frame l.down type true payload) }
/-- A buffered frame hub to field arrives out of sequence. -/
def Lane.strayDown (l : Lane) (type : Nat) (payload : Dword) : Lane :=
  { l with down := l.down.stray, up := l.up.credit, lastDown := some (l.down.frame l.up type true payload) }
/-- A buffered frame field to hub arrives out of sequence, and the hub counts the Replay request it sends (R22, R298). -/
def Lane.strayUp (l : Lane) (type : Nat) (payload : Dword) : Lane :=
  { l with
    up := l.up.stray
    down := l.down.credit
    replays := satTo 0xFF (l.replays + 1)
    lastUp := some (l.up.frame l.down type true payload) }
/-- 31 slots of 32 ns have passed since an instant (R20). -/
def slots31 (at_ elapsed : Nat) : Bool := decide (at_ + 31 * 96 ≤ elapsed)
/-- The four frames of a promotion have begun to arrive and not all have (R20). -/
def Lane.midPromo (l : Lane) : Bool := match l.promo with | (_, n) :: _ => decide (n < 4) | [] => false
/-- A management frame from the hub may take the slot: no promotion waits, or the reserved slot is due and it does not part
the four frames of one (R20). -/
def Lane.mgmtSlot (l : Lane) (elapsed : Nat) : Bool := l.promo.isEmpty || (slots31 l.mgmtDownAt elapsed && !l.midPromo)
/-- A lease message waits and its reserved slot is due, which goes before a promotion (R20). -/
def Lane.leaseDue (l : Lane) (elapsed : Nat) : Bool := l.lease.isSome && slots31 l.mgmtDownAt elapsed && !l.midPromo

/-- The frame to the die that must leave before any new one: one that a Replay request asks for again, past those lost and not yet
asked for, or one that a retrain leaves to be replayed (R20, R22, R23). -/
def Lane.pastDown (l : Lane) : Option DownItem :=
  match l.down.resend with
  | _ :: _ => some ((l.lostDown[l.down.lag]?).getD (.access none))
  | [] => l.again.head?
/-- A frame may leave in the place of one kept: it is that one, or an access that the kept one does not name. -/
def DownItem.fits (kept x : DownItem) : Bool :=
  match kept, x with
  | .access none, .access _ => true
  | _, _ => kept == x
/-- The Promotion frame that leaves next: a kept one, or the next of the promotion under way (R20, R22). -/
def Lane.nextPromo (l : Lane) : Option (Nat × Nat) :=
  match l.pastDown with
  | some (.promo id n) => some (id, n)
  | some _ => none
  | none => l.promo.head?
/-- The lease message that leaves next: a kept one, or the one that waits (R20, R22). -/
def Lane.nextLease (l : Lane) : Option LeaseMsg :=
  match l.pastDown with
  | some (.lease m) => some m
  | some _ => none
  | none => l.lease
/-- A frame to the die may take the slot (R20, R22): the kept one; a Promotion frame unless a lease message is due; a management frame
where R20 gives it a slot. -/
def Lane.mayGo (l : Lane) (elapsed : Nat) (x : DownItem) : Bool :=
  match l.pastDown, x with
  | some y, _ => y.fits x
  | none, .promo id n => l.promo.head? == some (id, n) && !l.leaseDue elapsed
  | none, .lease m => l.lease == some m && l.mgmtSlot elapsed
  | none, .access _ => l.mgmtSlot elapsed
/-- The frame to the die that leaves next, where no row names it (R20). -/
def Lane.nextDown (l : Lane) (elapsed : Nat) : DownItem :=
  match l.pastDown, l.promo.head?, l.lease with
  | some y, _, _ => y
  | none, some p, some m => if l.leaseDue elapsed then .lease m else .promo p.1 p.2
  | none, some p, none => .promo p.1 p.2
  | none, none, some m => .lease m
  | none, none, none => .access none
/-- A frame to the die has left: a new one is taken from where it waited, a kept one of before a retrain from those, and 31 slots count
from a management frame (R20, R22, R23). -/
def Lane.leftDown (l : Lane) (x : DownItem) (elapsed : Nat) : Lane :=
  let y := match x with | .promo .. => l | _ => { l with mgmtDownAt := elapsed }
  match l.down.resend, l.again, x with
  | _ :: _, _, _ => y
  | [], _ :: rest, _ => { y with again := rest }
  | [], [], .promo id n => { y with promo := if n ≤ 1 then l.promo.tail else (id, n - 1) :: l.promo.tail }
  | [], [], .lease _ => { y with lease := none }
  | [], [], .access _ => y
/-- A frame to the die arrives in order: ACK covers it, and the sender keeps it no longer (R22). -/
def Lane.ackedDown (l : Lane) (x : DownItem) (elapsed : Nat) : Lane :=
  { l.leftDown x elapsed with lostDown := if l.down.resend.isEmpty then l.lostDown else l.lostDown.tail }
/-- A frame to the die is lost or discarded: the sender keeps it (R22). -/
def Lane.keptDown (l : Lane) (x : DownItem) (elapsed : Nat) : Lane :=
  { l.leftDown x elapsed with lostDown := if l.down.resend.isEmpty then l.lostDown ++ [x] else l.lostDown }

/-! ### Mirroring (R282) and the answers to commands (R376 to R378) -/

/-- The active hub mirrors: in a D variant to a READY standby, a retrain of the String included, and to one that is copying over a
trained String (R279, R282). -/
def State.mirroring (s : State) : Bool :=
  let o := s.hub (other s.active)
  s.variant.dual && o.present && o.up && s.act.up && (o.hstate == .ready || (o.hstate == .syncing && s.mirror.str.st == .trained))
/-- A planned switchover away from the active hub is under way (R295). -/
def State.switching (s : State) : Bool := (s.hub (other s.active)).claiming.isSome

/-- Everything the active hub changed in a step goes to the standby as one mirror unit. That units are formed after ts of a planned
switchover too, so that the standby lacks nothing that has left the old hub, is DEDUCED (R282, R295; log 65). -/
def State.commit (old new : State) : State :=
  { new with
    mirror :=
      if new.mirroring && (decide (new.core ≠ old.core) || !new.mirror.wr.isEmpty ||
          decide (new.mirror.held ≠ old.mirror.held)) then
        { new.mirror with
          wire := new.mirror.wire ++ [⟨new.mirror.committed + 1, new.core, new.mirror.wr⟩]
          committed := new.mirror.committed + 1
          wr := [] }
      else { new.mirror with wr := [] } }

/-- An action waits for the unit that this step makes, when the hub mirrors (R282). -/
def State.hold (s : State) (a : HeldBack) : State :=
  if s.mirroring then
    { s with mirror := { s.mirror with held := s.mirror.held ++ [(s.mirror.committed + 1, a)] } }
  else s
/-- An action is still held back. -/
def State.isHeld (s : State) (a : HeldBack) : Bool := s.mirror.held.any (·.2 == a)

/-- The hub that owns a port (R350). -/
def State.portOwner (s : State) (p : PortId) : HubId := if s.variant.dual then p else 0
/-- Octets on the wire of a datagram with a body of n octets, as the worked example of R368 counts them: 6 more under PRP. -/
def wireOctets (n : Nat) (prp : Bool) : Nat := 8 + 18 + 28 + 40 + n + (if prp then 6 else 0) + 4 + 12
/-- The octets of a frame that Port relay frames carry to the hub of port p, if that is not the active one (R351). -/
def State.relayed (s : State) (p : PortId) (n : Nat) : Nat := if s.portOwner p = s.active then 0 else n
/-- The message leaves by port p (R352, R366). -/
def OutMsg.by (m : OutMsg) (p : PortId) : Bool := m.port == p.val || m.port == 2
/-- A message leaves the controller: a datagram to its session is handed to the ports that it leaves by, of which each sends a copy when
its gate lets it; a message of the SPI session goes into the tunnel (R352, R354, R365, R370). -/
def State.emit (s : State) (m : OutMsg) : State :=
  match m.who with
  | .udp .. => { s with net := { s.net with
      sent := s.net.sent ++ [m]
      egress := vmap s.net.egress fun p l =>
        if m.by p then l ++ [(s.relayed p (wireOctets m.body.length (s.net.mode == 1)), .zcs m)] else l } }
  | .spi => s.modCore fun c => { c with spi := { c.spi with tunnel := c.spi.tunnel ++ [m] } }

/-- A response body: CMD, STATUS, DETAIL and the results (R376). -/
def respBody (r : Response) : List Byte :=
  leBytes 2 r.cmd ++ leBytes 1 r.status.toNat ++ leBytes 1 r.detail ++ r.body

/-- A UDP session keeps its last 16 responses for their duplicates (R356), and the SEQ is no longer pending. -/
def Session.answered (x : Session) (seq : Nat) (r : Response) : Session :=
  { x with cache := ((seq, r) :: x.cache).take 16, pendingSeq := x.pendingSeq.filter (· != seq) }

/-- The SPI session keeps its last 16 responses in the same way (R356, R370). -/
def SpiSession.answered (x : SpiSession) (seq : Nat) (r : Response) : SpiSession :=
  { x with cache := ((seq, r) :: x.cache).take 16, pendingSeq := x.pendingSeq.filter (· != seq) }

/-- One UDP session changed. -/
def Core.modSess (c : Core) (i : Fin 8) (f : Session → Session) : Core :=
  { c with sess := vmod c.sess i (·.map f) }
/-- A UDP session. -/
def Core.session (c : Core) (i : Fin 8) : Option Session := c.sess[i.val]

/-- The live UDP session of a requester: not one that has the slot of a session that has ended (R354, R360). -/
def Core.sessOf (c : Core) : Who → Option Session
  | .udp i e => (c.session i).filter fun x => x.epoch == e
  | .spi => none
/-- A requester's session has answered a request. -/
def Core.answered (c : Core) (w : Who) (seq : Nat) (r : Response) : Core :=
  match w with
  | .udp i e => c.modSess i fun x => if x.epoch = e then x.answered seq r else x
  | .spi => { c with spi := c.spi.answered seq r }
/-- A request of a requester's session waits for its answer. -/
def Core.asked (c : Core) (w : Who) (seq : Nat) : Core :=
  match w with
  | .udp i e => c.modSess i fun x => if x.epoch = e then { x with pendingSeq := x.pendingSeq ++ [seq] } else x
  | .spi => { c with spi := { c.spi with pendingSeq := c.spi.pendingSeq ++ [seq] } }

/-- The ZCS version of a requester's session (R357, R382): 0x32 unless a session offers less. -/
def State.verOf (s : State) : Who → Nat
  | .udp i e => match s.core.sessOf (.udp i e) with | some x => x.version | none => 0x32
  | .spi => s.core.spi.version
/-- The session is at ZCS 2.0 to 2.15 (R392). -/
def State.isV2 (s : State) (w : Who) : Bool := s.verOf w / 16 == 2

/-- Bytes 0 to 23 of a datagram's header (R354). -/
def headerBytes (version kind boot session epoch seq len keyId : Nat) (dup : Bool) : List Byte :=
  leBytes 2 0x5A4C ++ leBytes 1 version ++ leBytes 1 kind ++ leBytes 4 boot ++ leBytes 4 session ++ leBytes 4 epoch ++
    leBytes 4 seq ++ leBytes 2 len ++ leBytes 1 keyId ++ leBytes 1 (putBit dup 0)
/-- TAG: the first 128 bits of HMAC-SHA-256 under a key over the header and the body (R354). -/
def tagOf (key header body : List Byte) : BitVec 128 := (Config.hmacSha256 key (header ++ body)).extractLsb' 128 128
/-- A message of the device to a session: the header of R354 with the session's version and identity, and its TAG under the
key named, or none in the tunnel (R354, R370). -/
def State.message (s : State) (w : Who) (kind seq keyId : Nat) (dup : Bool) (body : List Byte) : OutMsg :=
  let boot := s.act.nv.boot
  let (sid, ep, dst, port) := match w, s.core.sessOf w with
    | _, some y => (y.id, y.epoch, (y.src, y.srcPort), if s.net.mode ≠ 0 then 2 else y.port.val)
    | .spi, none => (0, s.core.spi.epoch, (0#128, 0), 3)
    | .udp .., none => (0, 0, (0#128, 0), 3)
  let hdr := headerBytes (s.verOf w) kind boot sid ep seq body.length keyId dup
  ⟨w, s.verOf w, kind, boot, sid, ep, seq, keyId, dup, body, tagOf ((assoc s.core.keys keyId).getD []) hdr body, dst, port⟩

/-- The response to a request: kept in the session's cache, then sent, or held back until its unit is covered
(R282, R356, R376, R378). -/
def State.respond (s : State) (r : Req) (x : Response) : State :=
  let m := s.message r.who 2 r.seq.toNat r.keyId.toNat false (respBody x)
  let s1 := s.modCore (·.answered r.who r.seq.toNat x)
  if s1.mirroring then s1.hold (.response m r.who) else s1.emit m

/-- A response with a status and no results. -/
def resp (cmd : Nat) (st : ZS) (body : List Byte) : Response := ⟨cmd, st, 0, body⟩
/-- The fields of a `ScheduleSubmit` response, which are present whatever the STATUS (R385). -/
def submitBody (idx : Nat) (tag : Word) (now : Tick) : List Byte := leBytes 1 idx ++ leBytes 3 0 ++ leBytes 4 tag.toNat ++ leBytes 8 now
/-- The response with which a command is turned away unread: for `ScheduleSubmit` no entry has failed, and the instant of the answer stands
for that of acceptance (R385; log 52). -/
def State.turnAway (s : State) (cmd : Nat) (z : ZS) : Response := resp cmd z (if cmd = 0x0030 then submitBody 0 0#32 s.clk.now else [])

/-- Commands a session at ZCS 2.x may use (R392). -/
def v2Allows : Nat → Bool
  | 0x0001 | 0x0002 | 0x0003 | 0x0010 | 0x0011 | 0x0020 | 0x0021 | 0x0022 | 0x0030 | 0x0031 | 0x0032 | 0x0040 | 0x0041 | 0x0042
  | 0x0062 | 0x0070 | 0x0071 | 0x0090 => true
  | _ => false

/-- The status with which the controller refuses every command of its kind: during a planned switchover ZS_BUSY (R295), and
ZS_VERSION for a command that a 2.x session may not use (R392). -/
def State.turnedAway (s : State) (r : Req) (cmd : Nat) : Option ZS :=
  if s.switching then some .busy else if s.isV2 r.who && !v2Allows cmd then some .version else none

/-- A command as the controller of the active hub executes it: nothing happens while no hub serves (R14, R342); its
response is formed and everything the hub changed is mirrored as one unit (R282, R378). -/
def State.command (s : State) (r : Req) (cmd : Nat) (f : State → State × Response) : State :=
  if s.serving then
    match s.turnedAway r cmd with
    | some z => State.commit s (s.respond r (s.turnAway cmd z))
    | none => State.commit s ((f s).1.respond r (f s).2)
  else s
/-- A command whose response may come later. -/
def State.commandLater (s : State) (r : Req) (cmd : Nat) (f : State → State × Option Response) : State :=
  if s.serving then
    match s.turnedAway r cmd with
    | some z => State.commit s (s.respond r (s.turnAway cmd z))
    | none => match f s with
      | (t, some x) => State.commit s (t.respond r x)
      | (t, none) => State.commit s t
  else s

/-! ### The clock -/

/-- The correction a slew makes in this tick: one tick in every 5,000, which is 200 ppm (R45), until it is used up. -/
def State.slewNow (s : State) : Int :=
  if s.clk.elapsed % 5000 = 4999 then (if 0 < s.sync.slew then 1 else if s.sync.slew < 0 then -1 else 0) else 0
/-- The whole tick that a gathered fraction gives or takes, in 10^-9 of a tick (R44). -/
def wholeTick (acc : Int) : Int := if 1000000000 ≤ acc then 1 else if acc ≤ -1000000000 then -1 else 0
/-- The tick that the frequency correction gives or takes now; one that falls together with a slew's waits for the next (R36,
R44, R45). -/
def State.freqNow (s : State) : Int := if s.slewNow = 0 then wholeTick (s.clk.frac + s.sync.freq) else 0
/-- What a replica that realigns after coasting makes up in this tick: one tick in every 5,000 (R49; log 14). -/
def Die.realignNow (d : Die) (elapsed : Nat) : Int :=
  if elapsed % 5000 = 2499 then (if 0 < d.realign then 1 else if d.realign < 0 then -1 else 0) else 0
/-- A die's replica in one tick, in which the hub's counter moves by n: it follows the counter, and realigns where n is 1;
coasting, it runs on its own at the last measured frequency (R48, R49). -/
def Die.tick (d : Die) (n : Int) (elapsed : Nat) : Die :=
  if d.coasting then
    { d with
      replica := ((d.replica : Int) + 1 + wholeTick (d.frac + d.coastFreq)).toNat
      frac := d.frac + d.coastFreq - wholeTick (d.frac + d.coastFreq) * 1000000000 }
  else if n = 1 then
    { d with replica := ((d.replica : Int) + 1 + d.realignNow elapsed).toNat, realign := d.realign - d.realignNow elapsed }
  else { d with replica := ((d.replica : Int) + n).toNat }

/-- Every page's next register cycle begins (R11). -/
def Hub.nextCycle (h : Hub) : Hub := { h with hdr := h.hdr.map (·.nextCycle) }
def Die.nextCycle (d : Die) : Die := { d with hdr := d.hdr.map (·.nextCycle) }

/-- What the saturating counters stand at (R402). -/
def State.counters (s : State) : CycleBase := ⟨s.hubs, s.dies, s.core, s.copy, s.sync.syncAcc, s.sync.syncIgn, s.power.yoyoCnt⟩

/-- One tick of 1/3 ns passes with no command (R8): device time, the standby's counter and the dies' replicas, which share
every instant, count it, with the frequency correction and the slew in progress (R36, R43 to R45, R48, R49), and the next
register cycle begins. Nothing counts before power is applied, or while the device holds itself in reset (R422). -/
def State.tick (s : State) : State :=
  if s.power.boot == .unpowered || s.power.boot == .heldInReset then s
  else
    let n : Int := 1 + s.slewNow + s.freqNow
    { s with
      clk :=
        { now := (s.clk.now + n).toNat
          elapsed := s.clk.elapsed + 1
          frac := s.clk.frac + s.sync.freq - s.freqNow * 1000000000
          peer := (s.clk.peer + n).toNat }
      sync := { s.sync with slew := s.sync.slew - s.slewNow }
      hubs := s.hubs.map Hub.nextCycle
      dies := s.dies.map fun d => (d.tick n s.clk.elapsed).nextCycle
      base := s.counters }

end Sys2Proof.Machine
end

