-- ==== Sys2Proof/Machine/Charges.lean ====
section
/-! DEFINITION. The charges of the ledger: standing charges of channels (R260, R261), device charges (R259), and the
die and package pools that hold them (R258, R263). -/

namespace Sys2Proof.Machine
open Sys2Proof

/-- Declared current in 0.1 mA; a declaration of 0 selects the mode's maximum (R261, R278). -/
def declI (i : ChanImg) : Nat :=
  if Img.idDecl i ≠ 0 then Img.idDecl i
  else match Img.mode i with
    | 8 | 9 | 10 => 5000
    | 2 | 3 | 11 => 240
    | 4 => 400
    | _ => 0

/-- Rise time of R232 in ticks. -/
def riseTime (slew : Nat) : Nat := match slew with | 0 => 10 * us | 1 => 2 * us | _ => 1500

/-- Minimum phase MINP of R232 in ticks. -/
def minPhase (slew : Nat) : Nat := match slew with | 0 => 20 * us | 1 => 4 * us | _ => us

/-- A charge as a fraction: numerator in units of 10^-10 W and a denominator. -/
structure Frac where
  num : Nat
  den : Nat
  deriving DecidableEq, Repr

/-- 1 mW in units of 10^-10 W. -/
def mW : Nat := 10000000

/-- Standing heat of the mode (R260): image, odd member of a pair, V_D in volts, PWM period in ticks. -/
def modeHeat (i : ChanImg) (odd : Bool) (vd period : Nat) : Frac :=
  let a := declI i
  let r := Img.rm i
  let push := max (a * a * 17) (min a 2000 * min a 2000 * 150)
  match Img.mode i with
  | 2 => ⟨a * a * 5000, 1⟩
  | 3 => if Img.fskOn i then ⟨a * 1500000 + a * a * 30000 + 5 * mW, 1⟩ else ⟨a * 1500000 + a * a * 5000, 1⟩
  | 4 => if odd then ⟨0, 1⟩ else ⟨15 * mW, 1⟩
  | 5 => if odd then ⟨0, 1⟩ else ⟨5 * mW, 1⟩
  | 6 | 7 | 13 =>
    let type2 := Img.range i == 1
    ⟨vd * (if vd ≤ 32 then (if type2 then 80 else 29) else (if type2 then 90 else 35)) * 1000000, 1⟩
  | 8 => ⟨a * a * 17, 1⟩
  | 9 => ⟨push, 1⟩
  | 10 => ⟨push * period + vd * a * riseTime (Img.slew i) * 1000000 + Img.clampE i * 750000 * 10000000000, period⟩
  | 11 =>
    if r = 0 then ⟨a * vd * 1000000, 1⟩
    else if a * r ≤ 5000 * vd then ⟨a * vd * 1000000 - a * a * r * 100, 1⟩
    else ⟨vd * vd * 2500000000, r⟩
  | 12 => if r ≤ 420 then ⟨415 * mW, 1⟩ else ⟨1575000000000 + 40 * mW * r, r⟩
  | _ => ⟨0, 1⟩

/-- Standing barrier draw of the mode (R260). -/
def modeBarrier (i : ChanImg) (odd : Bool) : Frac :=
  let a := declI i
  let r := Img.rm i
  match Img.mode i with
  | 3 | 11 => if Img.fskOn i then ⟨5 * mW, 1⟩ else ⟨0, 1⟩
  | 4 => if odd then ⟨0, 1⟩ else ⟨(if bit i.cfg 11 then 5 else 10) * a * 1000000 + 15 * mW, 1⟩
  | 5 => if odd then ⟨0, 1⟩ else ⟨5 * mW, 1⟩
  | 12 => if r ≤ 420 then ⟨415 * mW, 1⟩ else ⟨1575000000000 + 40 * mW * r, r⟩
  | _ => ⟨0, 1⟩

/-- Slice charge: 15 mW, or 7.5 mW with LOWPWR, in any mode but 0x0 (R260). -/
def sliceCharge (i : ChanImg) : Nat := if Img.mode i = 0 then 0 else if Img.lowpwr i then 7 * mW + mW / 2 else 15 * mW

/-- A fraction plus a slice charge, rounded up once to whole units of `u` (R260). -/
def roundUp (slice : Nat) (f : Frac) (u : Nat) : Nat :=
  if f.den = 0 then 0 else ceilDiv (slice * f.den + f.num) (f.den * u)

/-- CHG of a channel: heat in mW and barrier draw in 0.1 mW (R260, R277). -/
def chargeOf (i : ChanImg) (odd : Bool) (vd period : Nat) : Nat × Nat :=
  if Img.mode i = 0 then (0, 0)
  else (roundUp (sliceCharge i) (modeHeat i odd vd period) mW, roundUp (sliceCharge i) (modeBarrier i odd) (mW / 10))

/-- A channel's charge for its settings in force. -/
def Channel.charge (k : Channel) (vd : Nat) : Nat × Nat := chargeOf k.img k.odd vd k.out.period

/-- The channel with its charge set to that of its settings in force. -/
def Channel.recharge (vd : Nat) (k : Channel) : Channel :=
  let c := k.charge vd
  { k with chgHeat := c.1, chgBar := c.2 }

/-- Standing draw of a die per epoch, in 0.01 credit: 250 mW and every channel's barrier charge (R260, R263, R277). -/
def Die.standing (d : Die) : Nat := 2500 + (d.chans.toList.map (·.chgBar)).sum
/-- Standing heat of a die in mW (R260). -/
def Die.standingHeat (d : Die) : Nat := 250 + (d.chans.toList.map (·.chgHeat)).sum

/-- Hub charge at an operating point (R259). -/
def pointCharge (p : Nat) : Nat := match p with | 0 => 2200 | 1 => 1300 | _ => 600
/-- Port charge (R259). -/
def portCharge (p : NetPort) : Nat :=
  if p.link then (match p.speed with | .g2_5 => 600 | .g1 => 400 | .m100 => 150) else 50

/-- Device charges of R259 for the hubs and dies present and the ports as they are. -/
def State.deviceCharge (s : State) : Nat :=
  ((s.hubs.toList.filter (·.present)).map fun h => pointCharge h.held).sum +
    (s.net.ports.toList.map portCharge).sum + 300 * s.presentDies.length

/-- Charge differences that operating-point increases have reserved (R272). -/
def State.deviceReserve (s : State) : Nat :=
  ((s.hubs.toList.filter (·.present)).map fun h => match h.change with
    | some (p, _, true) => pointCharge p - pointCharge h.held
    | _ => 0).sum

/-- Heat of the plan's bounded charges in force on a die at t (R262). -/
def heatAt (plan : List PlanItem) (d : DieId) (t : Tick) : Nat :=
  (plan.map fun p => match p.cost with
    | .heat lo hi m => if p.die = d ∧ lo ≤ t ∧ t < hi then m else 0
    | _ => 0).sum
/-- The largest standing heat that the plan brings to a channel after t and before u. -/
def standingPeak (plan : List PlanItem) (d : DieId) (c : ChanId) (t u : Tick) : Nat :=
  (plan.map fun p => match p.cost with
    | .standing a k h _ => if p.die = d ∧ k = c ∧ t < a ∧ a < u then h else 0
    | _ => 0).foldl max 0
/-- Heat that the plan adds to a die after t and before u: bounded charges that begin there and, of each channel, the rise to its
largest standing charge (R258). -/
def heatRising (plan : List PlanItem) (chans : Vector Channel 16) (d : DieId) (t u : Tick) : Nat :=
  (plan.map fun p => match p.cost with
    | .heat lo _ m => if p.die = d ∧ t < lo ∧ lo < u then m else 0
    | _ => 0).sum + ((List.finRange 16).map fun c => standingPeak plan d c t u - chans[c.val].chgHeat).sum
/-- Energy the plan lands on a die in an epoch, in 0.01 credit (R262). -/
def energyAt (plan : List PlanItem) (d : DieId) (e : Nat) : Nat :=
  (plan.map fun p => match p.cost with
    | .energy ep n => if p.die = d ∧ ep = e then n else 0
    | _ => 0).sum

/-- A dissipation pool holding `use` and `res`, cut to its size (R258). -/
def poolOf (size use res : Nat) : Pool :=
  let u := min use size
  let r := min res (size - u)
  ⟨size - u - r, r, u⟩

/-- The die's dissipation pool in the current interval (R258, R264). -/
def Die.poolNow (d : Die) (di : DieId) (plan : List PlanItem) (now : Tick) : Pool :=
  let e := (now / (10 * us)) * (10 * us)
  poolOf 4000 (d.standingHeat + heatAt plan di now) (heatRising plan d.chans di now (e + 10 * us))

/-- The package pool holds the device charges and every die's charges (R258). -/
def State.pkgPool (s : State) : Pool :=
  let p (d : DieId) : Pool := (s.die d).poolNow d s.core.plan s.clk.now
  poolOf 25000 (s.deviceCharge + (s.presentDies.map fun d => (p d).use).sum) (s.deviceReserve + (s.presentDies.map fun d => (p d).res).sum)

/-- Energy costs that land in the current epoch, in 0.01 credit (R258). -/
def Die.reservedNow (k : Die) (d : DieId) (plan : List PlanItem) (now : Tick) : Nat :=
  min k.led.level (energyAt plan d (now / (10 * us)))

/-- The charges in force are carried into the die's and the package's pools, and the costs that land in the current
epoch into its reserved energy (R258). -/
def State.settlePools (s : State) (d : DieId) : State :=
  let t := s.modDie d fun k => { k with led := { k.led with
    pool := k.poolNow d s.core.plan s.clk.now
    eRes := k.reservedNow d s.core.plan s.clk.now } }
  { t with core := { t.core with ledger := { t.core.ledger with pool := t.pkgPool, devChg := t.deviceCharge } } }

/-- The device charges are carried into the package pool (R258, R259). -/
def State.settlePackage (s : State) : State :=
  { s with core := { s.core with ledger := { s.core.ledger with pool := s.pkgPool, devChg := s.deviceCharge } } }

end Sys2Proof.Machine
end

