-- ==== Sys2Proof/Machine/Entries.lean ====
section
/-! DEFINITION. Admitted entries and their records: retirement with one outcome, what a die closes, and the words of
the result store. -/

namespace Sys2Proof.Machine
open Sys2Proof

/-- An entry of the schedule store. -/
def Core.entry (c : Core) (id : Nat) : Option Entry := c.entries.find? (·.id == id)
/-- One entry of the schedule store changed. -/
def Core.modEntry (c : Core) (id : Nat) (f : Entry → Entry) : Core :=
  { c with entries := c.entries.map fun e => if e.id = id then f e else e }
/-- One record changed. -/
def Core.modRecord (c : Core) (id : Nat) (f : Record → Record) : Core :=
  { c with records := c.records.map fun r => if r.id = id then f r else r }
/-- A record of the result store. -/
def Core.record (c : Core) (id : Nat) : Option Record := c.records.find? (·.id == id)

/-- The words of a record that hold results: none before its first result or its retirement, then the header and every
body word written (R77, R80). -/
def Record.used (r : Record) : Nat := if r.body.isEmpty ∧ r.retired.isNone then 0 else 5 + r.body.length

/-- Not yet retired at the die or at the hub. -/
def Entry.live (e : Entry) : Bool :=
  match e.phase with
  | .finished _ => false
  | _ => true
/-- Admitted, and its promotion has not begun (R64, R270). -/
def Entry.atHub (e : Entry) : Bool := e.phase == .admitted

/-- Admitted, and not yet in its die's near-term queue (R69). -/
def Entry.unqueued (e : Entry) : Bool := e.phase == .admitted || e.phase == .promoting

/-- STATUS of a record at retirement: complete, cut by disable or cancel, cut by step or miss; a status set by a result
stays (R77). -/
def retireStatus (o : EntryOutcome) (st : Nat) : Nat :=
  match o with
  | .executed => st
  | .cancelled => 1
  | .missed => 2

/-- The record of an entry at its retirement: the words of results never written go back, and all of them where every result
has been delivered (R64, R80). -/
def Core.closeRecord (c : Core) (id : Nat) (o : EntryOutcome) (elapsed : Nat) : Core :=
  match c.record id with
  | none => c
  | some r =>
    let was := r.used
    let r' := { r with status := retireStatus o r.status, retired := some elapsed }
    let store := c.store.begin (r'.used - was)
    let store := store.cancel (r.len - r'.used)
    if r.ended then { c with records := c.records.filter (·.id != id), store := store.finish r'.used }
    else { (c.modRecord id fun _ => r') with store := store }

/-- The counts of R76 at a retirement. -/
def SchedRegs.count (g : SchedRegs) (o : EntryOutcome) : SchedRegs :=
  match o with
  | .executed => { g with executed := g.executed + 1, inFlight := g.inFlight - 1 }
  | .cancelled => { g with cancelled := g.cancelled + 1, inFlight := g.inFlight - 1 }
  | .missed => { g with missed := g.missed + 1, inFlight := g.inFlight - 1 }

/-- The plan at an entry's outcome: charges already spent stay until their instants; those of an entry that did not
execute are released (R64, R262). -/
def releasePlan (plan : List PlanItem) (id : Nat) (o : EntryOutcome) : List PlanItem :=
  match o with
  | .executed => plan.map fun p => if p.owner = some id then { p with owner := none } else p
  | _ => plan.filter (·.owner != some id)

/-- The hub's books at the retirement of an entry: its slot, its plan, its record and the counts (R64, R72, R76). -/
def Core.retire (c : Core) (e : Entry) (o : EntryOutcome) (elapsed : Nat) : Core :=
  let c1 := c.closeRecord e.id o elapsed
  { c1 with
    entries := c1.entries.filter (·.id != e.id)
    slots := if e.promo.isNone then c1.slots.cancel 1 else c1.slots.finish 1
    plan := releasePlan c1.plan e.id o
    sched := c1.sched.count o }

/-- An entry retires at the hub, with EV_SCHED_DONE where its flag or DONE_EV_ALL asks for it (R60, R72, R83, R389). -/
def State.retire (s : State) (id : Nat) (o : EntryOutcome) : State :=
  match s.core.entry id with
  | none => s
  | some e =>
    let t := s.modCore (·.retire e o s.clk.elapsed)
    let t := t.modDie e.ch.die fun d => { d with ntq := d.ntq.filter (·.id != id) }
    if e.e.evDone || s.core.sched.doneEvAll then
      t.raiseSrc .schedDone s.clk.now (srcCh e.ch.die e.ch.c) false (leBytes 4 e.e.tag.toNat ++ leBytes 1 o.toNat)
        (some e.owner)
    else t

/-- The hub decides an outcome: the entry retires, at once or when the standby has acknowledged the unit that records
the outcome (R72, R282). -/
def State.outcome (s : State) (id : Nat) (o : EntryOutcome) : State :=
  if s.mirroring then
    (s.modCore fun c =>
      { (c.modEntry id fun e => { e with phase := .finished o }) with plan := releasePlan c.plan id o }).hold
      (.retire id)
  else s.retire id o

/-- Several entries get the same outcome. -/
def State.outcomes (s : State) (ids : List Nat) (o : EntryOutcome) : State := ids.foldl (fun t i => t.outcome i o) s

/-- A die closes queued or active entries with an outcome; their near-term queue slots return (R64, R73, R74). -/
def Die.close (d : Die) (p : Entry → Bool) (o : EntryOutcome) : Die :=
  { d with
    ntq := d.ntq.map fun e => if e.live && p e then { e with phase := .finished o } else e
    ntqPool := d.ntqPool.finish (d.ntq.countP fun e => e.live && p e) }

/-- The entry in the near-term queue. -/
def Die.queued (d : Die) (id : Nat) : Option Entry := d.ntq.find? (·.id == id)
/-- One entry of the near-term queue changed. -/
def Die.modEntry (d : Die) (id : Nat) (f : Entry → Entry) : Die :=
  { d with ntq := d.ntq.map fun e => if e.id = id then f e else e }
/-- The die finishes one entry. -/
def Die.finish (d : Die) (id : Nat) (o : EntryOutcome) : Die := d.close (fun e => e.id == id) o

/-- Body words written to a record by result n: new indices come into use, header included at the first (R77, R80).
An AUX_TRIGGER's TIME0 is that of its first occurrence that was not dropped (R142). -/
def Core.writeRecord (c : Core) (id : Nat) (words : List (Nat × Word)) (done : Nat) (time0 : Tick) (st : Nat) : Core :=
  match c.record id with
  | none => c
  | some r =>
    let was := r.used
    let body := words.foldl (fun b p => assocSet b p.1 p.2) r.body
    let r' := { r with body := body, done := max r.done done, time0 := (if r.done = 0 ∨ (r.opcode = 6 ∧ r.time0 = 0) then time0 else r.time0),
                       status := (if st = 0 then r.status else st) }
    { (c.modRecord id fun _ => r') with store := c.store.begin (r'.used - was) }

/-- Every word of a record has been delivered and it has retired: its words are freed together (R80). -/
def Core.freeRecord (c : Core) (id : Nat) : Core :=
  match c.record id with
  | none => c
  | some r => { c with records := c.records.filter (·.id != id), store := c.store.finish r.used }

/-- Word i of a record as it is delivered: header, body, and zero where nothing was written (R77, R80). -/
def Record.word (r : Record) (i : Nat) : Word :=
  match i with
  | 0 => r.tag
  | 1 => BitVec.ofNat 32 (putFld r.chan 16 16 + putFld r.opcode 8 8 + putFld r.status 4 4)
  | 2 => BitVec.ofNat 32 (putFld r.done 16 16 + putFld r.len 0 16)
  | 3 => lo32 r.time0
  | 4 => hi32 r.time0
  | _ => (assoc r.body i).getD 0#32

/-- Words of a record that can be read: all of them once it has retired, before that the header with the first result and the
body words written without a gap (R80). -/
def Record.readable (r : Record) : Nat :=
  if r.retired.isSome then r.len
  else if r.body.isEmpty then 0
  else ((List.range r.len).find? fun i => decide (5 ≤ i) && (assoc r.body i).isNone).getD r.len

/-- Words up to `sent` have been delivered; with the last of them the record ends, and its words are freed once it has
retired (R80). -/
def Core.delivered (c : Core) (id sent : Nat) (last : Bool) : Core :=
  let c1 := c.modRecord id fun r => { r with sent := sent, ended := r.ended || last }
  match c1.record id with
  | some r => if r.ended && r.retired.isSome then c1.freeRecord id else c1
  | none => c1

/-- Channels that share a pair or group with ch, ch among them, lowest first (R90, R92). -/
def Die.unit (d : Die) (c : ChanId) : List ChanId :=
  let k := d.chan c
  match k.group with
  | some g => (List.finRange 16).filter fun x => (d.chan x).group == some g
  | none =>
    if k.odd then (if h : c.val = 0 then [c] else [⟨c.val - 1, by omega⟩, c])
    else if isPairMode k.mode && c.val % 2 == 0 then
      (if h : c.val + 1 < 16 then (if (d.chan ⟨c.val + 1, h⟩).odd then [c, ⟨c.val + 1, h⟩] else [c]) else [c])
    else [c]

/-- The hub advances the shadows of some channels of a die in step with the die: they take the die's words (R112). -/
def State.syncShadow (s : State) (d : DieId) (cs : List ChanId) : State :=
  if s.serving then
    s.modCore fun c => { c with
      shadow := (vmod c.shadow d fun v =>
        vmap v fun i x => if cs.contains i then { x with word := ((s.die d).chan i).word } else x) }
  else s
/-- A write of a channel's register that the die has executed advances the shadow of the channel's unit (R112). -/
def State.shadowUnit (s : State) (ch : Chan) : State := s.syncShadow ch.die ((s.die ch.die).unit ch.c)

end Sys2Proof.Machine
end

