-- ==== Sys2Proof/Machine/AuxTable.lean ====
section
/-! DEFINITION. The entries of the auxiliary converter's tables and their windows (R132 to R134, R140). -/

namespace Sys2Proof.Machine
open Sys2Proof

/-! ### Table entries (R132 to R134) -/

namespace AuxEntry
def source (w : Word) : Nat := fld w 0 8
/-- SETTLE in ticks (units of 4 µs). -/
def settle (w : Word) : Tick := fld w 8 8 * (4 * us)
def reps (w : Word) : Nat := fld w 16 4
/-- WINDOW in ticks: 64 µs times a power of 4. -/
def window (w : Word) : Tick := 64 * us * 4 ^ fld w 20 2
def test (w : Word) : Nat := fld w 22 2
def isWait (w : Word) : Bool := source w == 0xFF
/-- A source code of R133 that is not reserved. -/
def known (w : Word) : Bool :=
  let s := source w
  decide (s ≤ 0x35) || (decide (0x40 ≤ s) && decide (s ≤ 0x57)) || s == 0xFF
/-- Power-up instant of a regular entry that begins at te (R134). -/
def powerUp (w : Word) (te : Tick) : Tick := te + (settle w - 40 * us)
/-- How long a regular entry lasts (R134). -/
def length (w : Word) : Tick := if isWait w then settle w else max (settle w) (40 * us) + reps w * window w
/-- The word with these fields (R132). -/
def make (src settleU rep win tst : Nat) : Word :=
  BitVec.ofNat 32 (putFld tst 22 2 + putFld win 20 2 + putFld rep 16 4 + putFld settleU 8 8 + putFld src 0 8)
end AuxEntry

/-- Windows of a regular entry that begins at te (R134). -/
def AuxEntry.windows (w : Word) (te : Tick) : List (Tick × Tick) :=
  let a := te + max (AuxEntry.settle w) (40 * us)
  if AuxEntry.isWait w then [] else (List.range (AuxEntry.reps w)).map fun k => (a + k * AuxEntry.window w, a + (k + 1) * AuxEntry.window w)
/-- Windows of an injected sequence that arrives at ta: start and end of each entry's window; entry 0 waits at least
40 µs, and a wait has no window (R140). -/
def injWindows : List Word → Tick → Bool → List (Tick × Tick)
  | [], _, _ => []
  | w :: rest, t, first =>
    let a := t + (if first && !AuxEntry.isWait w then max (AuxEntry.settle w) (40 * us) else AuxEntry.settle w)
    let b := if AuxEntry.isWait w then a else a + AuxEntry.window w
    (a, b) :: injWindows rest b false
/-- The end of an injected sequence. -/
def injEnd (l : List Word) (ta : Tick) : Tick := ((injWindows l ta true).getLast?.map (·.2)).getD ta

/-- Windows of the injected sequence in progress that straddle t, where its entry is one of those named (R74, R75, R140). -/
def Aux.injCut (a : Aux) (p : Nat → Bool) (t : Tick) : Nat :=
  match a.injRun with
  | some (_, id, _, ta, l) =>
    if p id then ((injWindows l ta true).zip l).countP fun v => !AuxEntry.isWait v.2 && decide (v.1.1 < t) && decide (t < v.1.2) else 0
  | none => 0

end Sys2Proof.Machine
end

