-- ==== Sys2Proof/Machine/Counts.lean ====
section
/-! DEFINITION. The count of an encoder pair in timestamp order, and the edges that captures record (R212 to R223). -/

namespace Sys2Proof.Machine
open Sys2Proof

/-- A count wraps modulo 2^32 as two's complement (R212). -/
def wrap32 (v : Int) : Int := (BitVec.ofInt 32 v).toInt
/-- What one accepted edge adds to a count (R212): decoding, input A or B, rising, level of the other input. -/
def encDelta (decode : Nat) (isA rising other : Bool) : Int :=
  let quad : Int := if isA then (if rising != other then 1 else -1) else (if rising == other then 1 else -1)
  match decode with
  | 0 => quad
  | 1 => if isA then quad else 0
  | 2 => if isA && rising then quad else 0
  | 3 => if isA && rising then (if other then -1 else 1) else 0
  | 4 => if rising then (if isA then 1 else -1) else 0
  | _ => 0

/-- Order of acts with one timestamp: a preset, a change of settings or a level taken anew before the edges at its instant, A before B, Z
after both (R214 to R216). -/
def PairAct.rank : PairAct → Nat
  | .preset _ | .config _ _ | .level _ _ => 0 | .a _ => 1 | .b _ => 2 | .z => 3
/-- An edge of input A, or of input B. -/
def PairAct.input : PairAct → Option Bool
  | .a _ => some true | .b _ => some false | _ => none
/-- x acts before y. -/
def PairEv.before (x y : PairEv) : Bool := decide (x.t < y.t) || (x.t == y.t && decide (x.act.rank ≤ y.act.rank))
/-- An act takes its place in the order. -/
def book (l : List PairEv) (x : PairEv) : List PairEv := (l.filter (·.before x)) ++ x :: l.filter fun y => !y.before x

/-- The pair after an edge of input A or B at t; `next`: the acts that follow. The new pair, whether the edge makes an illegal
transition with one of the other input less than 100 ns before, and whether it counts: neither edge of an illegal transition does
(R212, R213). -/
def EncSt.edge (e : EncSt) (isA rising : Bool) (t : Tick) (next : List PairEv) : EncSt × Bool × Bool :=
  let near (u v : Tick) : Bool := decide (e.dec ≤ 2) && decide (v < u + 300)
  let bad := (if isA then e.lb else e.la).any fun u => near u t
  let soon := next.any fun y => y.act.input == some (!isA) && near t y.t
  let n := if bad || soon then 0 else encDelta e.dec isA rising (if isA then e.b else e.a)
  ({ e with
    cnt := wrap32 (e.cnt + n)
    pos := wrap32 (e.pos + n)
    a := (if isA then rising else e.a)
    b := (if isA then e.b else rising)
    la := (if isA then some t else e.la)
    lb := (if isA then e.lb else some t) }, bad, !(bad || soon))
/-- A rising Z edge: Z_MODE latches the count, and with 2 sets it to 0, which leaves the axis's count alone (R215). -/
def EncSt.zEdge (e : EncSt) : EncSt :=
  match e.zMode with
  | 1 => { e with zLatch := wordOfInt e.cnt }
  | 2 => { e with zLatch := wordOfInt e.cnt, cnt := 0 }
  | _ => e
/-- The pair after one act, of which `next` follow; whether it makes an illegal transition, and whether it is an edge that counts (R212
to R216). -/
def EncSt.act (e : EncSt) (x : PairEv) (next : List PairEv) : EncSt × Bool × Bool :=
  match x.act with
  | .preset w => ({ e with cnt := w.toInt, pos := w.toInt }, false, false)
  | .config dec zMode => ({ e with dec := dec, zMode := zMode }, false, false)
  | .level isA high => (if isA then { e with a := high } else { e with b := high }, false, false)
  | .a r => e.edge true r x.t next
  | .b r => e.edge false r x.t next
  | .z => (e.zEdge, false, false)
/-- What an act gives the pair's axes: a count change of DECODE 0, or a Z edge (R163, R165, R214). -/
def EncSt.feed (e : EncSt) (x : PairEv) (next : List PairEv) : List (Tick × Option Int) :=
  match x.act with
  | .z => [(x.t, none)]
  | _ => if e.dec = 0 && (e.act x next).2.2 then [(x.t, some (e.act x next).1.pos)] else []
/-- The pair after acts in order, with the number of illegal transitions among them and what they give the axes. -/
def EncSt.run (e : EncSt) : List PairEv → EncSt × Nat × List (Tick × Option Int)
  | [] => (e, 0, [])
  | x :: l =>
    let r := e.act x l
    let s := r.1.run l
    (s.1, putBit r.2.1 0 + s.2.1, e.feed x l ++ s.2.2)
/-- The pair after those of the acts in order that have timestamps at or before t (R214, R217). -/
def EncSt.runTo (e : EncSt) (t : Tick) : List PairEv → EncSt
  | [] => e
  | x :: l => if x.t ≤ t then (e.act x l).1.runTo t l else e

/-- Acts of the pair have settled, and others stay: the count that the settled ones leave, and what they give an axis (R163, R214). -/
def Channel.settleActs (k : Channel) (go stay : List PairEv) : Channel :=
  let r := k.din.enc.run go
  { k with din := { k.din with
    enc := r.1
    book := stay
    feed := k.din.feed ++ r.2.2.zipIdx.map fun p => (k.din.feedN + p.2 + 1, p.1.1, p.1.2)
    feedN := k.din.feedN + r.2.2.length } }
/-- Edges of a pair that nothing can precede any more have settled (R214). -/
def Channel.settleBook (k : Channel) (now : Tick) (wait : Nat) : Channel :=
  let old (x : PairEv) : Bool := decide (x.t + wait < now)
  let (go, stay) := k.din.book.partition fun x => old x && k.din.book.all fun y => old y || decide (x.t + 300 < y.t)
  k.settleActs go stay
/-- Nothing follows any more: every act has settled. -/
def Channel.settleAll (k : Channel) : Channel := k.settleActs k.din.book []
/-- The pair's count after every edge with a timestamp at or before t (R214, R217). -/
def Channel.encAt (k : Channel) (t : Tick) : EncSt := k.din.enc.runTo t k.din.book
/-- The even channel of a pair, whose registers ENC_CFG, CNT, CNT_PRESET, Z_LATCH and CNT_ERR act: a Z input is outside any pair (R91,
R225). -/
def Channel.evenOfPair (k : Channel) (c : ChanId) : Bool := c.val % 2 == 0 && !Img.zIn k.img
/-- DECODE and Z_MODE of a configuration act on the edges from t on (R212, R215, R227). -/
def Channel.putDecode (k : Channel) (i : ChanImg) (t : Tick) : Channel :=
  if k.mode = 7 ∧ (Img.decode k.img ≠ Img.decode i ∨ Img.zMode k.img ≠ Img.zMode i) then
    { k with din := { k.din with book := book k.din.book ⟨t, .config (Img.decode i) (Img.zMode i)⟩ } }
  else k

/-! ### Captures (R218 to R223) -/

/-- The angle a captured edge converts to (R222). -/
def captureAngle (ta tb : Tick) (pa pb : Int) (te : Tick) : Word :=
  BitVec.ofInt 32 (pa + divRoundI (((te : Int) - ta) * (pb - pa)) ((tb : Int) - ta))
/-- The samples that enclose te, of a list newest first (R222). -/
def enclosing : List (Tick × Int × Tick) → Tick → Option ((Tick × Int × Tick) × (Tick × Int × Tick))
  | b :: a :: rest, te => if te < b.1 ∧ a.1 ≤ te then some (a, b) else enclosing (a :: rest) te
  | _, _ => none
/-- The angle at te from the samples that have arrived, with whether it is held: it is that of the last sample at or before te where the
later one arrived after te + 8,000 µs, and without a sample at or before te that of the first later one (R222, R223). -/
def Axis.angleAt (x : Axis) (te : Tick) : Option (Word × Bool) :=
  match enclosing x.past te with
  | some (a, b) => if b.2.2 ≤ te + 8000 * us then some (captureAngle a.1 b.1 a.2.1 b.2.1 te, false) else some (BitVec.ofInt 32 a.2.1, true)
  | none => match x.past.getLast? with
    | some p => if te < p.1 then some (BitVec.ofInt 32 p.2.1, true) else none
    | none => none
/-- The angle of the last sample at or before te (R223). -/
def Axis.heldAt (x : Axis) (te : Tick) : Option Word :=
  (x.past.find? fun p => decide (p.1 ≤ te)).map fun p => BitVec.ofInt 32 p.2.1
/-- The angle of an axis number at te. -/
def Core.angleAt (c : Core) (a : Nat) (te : Tick) : Option (Word × Bool) := c.axes[a]?.bind (·.angleAt te)

/-- The CAPTURE entry's window and directions take the edge; a closed one takes those before its end (R74, R75, R218). -/
def Entry.captures (e : Entry) (c : ChanId) (t : Tick) (rising : Bool) : Bool :=
  e.e.op == 2 && e.phase == .active && decide (e.ch.c = c) && decide (e.e.time.toNat ≤ t) &&
    decide (t < e.e.time.toNat + e.e.period.toNat) && (e.cut.all fun x => decide (t < x.1)) && (if rising then bit e.e.param 0 else bit e.e.param 1)

/-- A captured edge with its angle word leaves: a Capture frame and an Angle tag frame, whose word the hub places after
the edge's other words; a held angle is counted (R78, R221 to R223). -/
def Die.sendCapture (d : Die) (c : ChanId) (q : Nat) (p : Nat × Tick × Bool) (angle : Word × Bool) : Die :=
  (d.modCh c fun k => { k with din := { k.din with
    capWait := k.din.capWait.filter (· != p)
    capHeld := satAdd k.din.capHeld (putBit angle.2 0) } }).push
    [.capture p.1 c (p.2.1 % 2 ^ 40) p.2.2 q true, .angle p.1 [(0, angle.1)] p.2.1 q 0]

/-- An edge is recorded by one CAPTURE entry, with its angle once that is known, or counted as an overflow beyond COUNT (R218, R219,
R221, R222). -/
def Die.capture (d : Die) (c : ChanId) (q : Nat) (t : Tick) (rising : Bool) (angle : Option (Word × Bool)) (e : Entry) : Die :=
  if e.done < e.e.count.toNat then
    let d1 := d.modEntry e.id fun x => { x with done := x.done + 1 }
    if bit e.e.param 2 then
      match angle with
      | some w => d1.sendCapture c q (e.id, t, rising) w
      | none => d1.modCh c fun k => { k with din := { k.din with capWait := k.din.capWait ++ [(e.id, t, rising)] } }
    else d1.push [.capture e.id c (t % 2 ^ 40) rising q false]
  else
    (d.modEntry e.id fun x => { x with st := 4 }).modCh c fun k => { k with din := { k.din with capOvf := satInc k.din.capOvf } }

end Sys2Proof.Machine
end

