-- ==== Sys2Proof/Machine/Channel.lean ====
section
/-! DEFINITION. The universal channel: what it drives, safe states, mode changes and disables (R86 to R113, R437), and
the commands and events that carry them. -/

namespace Sys2Proof.Machine
open Sys2Proof

/-! ### The output instants of a chain (R151, R157, R160) -/

/-- Half-span H of the chain in ticks: 84 µs + 2(L − 1) µs; half a window in single-cycle-settling operation (R151,
R160). -/
def halfSpan (i : ChanImg) : Nat :=
  if Img.lock i = 2 then Img.scsWin i * 96000 else 84 * us + 2 * (Img.ma i - 1) * us
/-- ⌈a / b⌉. -/
def ceilInt (a : Int) (b : Nat) : Int := -((-a) / (b : Int))
/-- The even channel of an encoder pair: its samples are the count (R91, R217). -/
def Channel.counts (k : Channel) : Bool := k.mode == 7 && !k.odd && !Img.zIn k.img
/-- Half-span of a channel's results; a count is read at its instant (R151, R217). -/
def Channel.span (k : Channel) : Nat := if k.counts then 0 else halfSpan k.img
/-- Instant of output n: origin + ⌊n · P⌋, or the midpoint of window n (R157, R160). -/
def Channel.outAt (k : Channel) (n : Int) : Tick :=
  (if Img.lock k.img = 2 then (k.chain.origin : Int) + n * (Img.scsWin k.img * 192000 : Nat) + (Img.scsWin k.img * 96000 : Nat)
  else k.chain.origin + n * Img.period k.img / 2 ^ 32).toNat
/-- The first output at or after x. -/
def Channel.outFrom (k : Channel) (x : Int) : Int :=
  if Img.lock k.img = 2 then ceilInt (x - k.chain.origin - (Img.scsWin k.img * 96000 : Nat)) (Img.scsWin k.img * 192000)
  else ceilInt ((x - k.chain.origin) * 2 ^ 32) (Img.period k.img)
/-- Conversions of the chain whose window straddles t (R74, R75, R93): outputs not yet delivered whose span contains t, or the
mains-cycle window in progress. -/
def Channel.straddles (k : Channel) (t : Tick) : Nat :=
  let h := k.span
  if !hasChain k.mode || k.trans.isSome then 0
  else if Img.mcEn k.img then (if k.chain.mcStart.isSome then 1 else 0)
  else if Img.lock k.img = 1 then k.chain.cross.countP fun x => decide (t < x.2 + h)
  else (k.outFrom ((t : Int) + h) - max k.chain.nextK (k.outFrom ((t : Int) - h + 1))).toNat
/-- The first result of the chain whose whole span lies at or after its tq (R153). -/
def Channel.firstWhole (k : Channel) : Int := k.outFrom ((k.chain.tq : Int) + k.span)
/-- Results stamped before t, not yet delivered, whose input span contains t, or the tq of the chain as it ran (R153). -/
def Channel.cutOld (k : Channel) (t : Tick) : Nat :=
  let h := k.span
  if !hasChain k.mode || k.trans.isSome then 0
  else if Img.mcEn k.img then (if k.chain.mcStart.isSome then 1 else 0)
  else if Img.lock k.img = 1 then
    k.chain.cross.countP fun x => decide (t < x.2 + h) || (decide (k.chain.tq < x.2 + h) && decide (x.2 < k.chain.tq + h))
  else (min k.firstWhole (k.outFrom t) - k.chain.nextK).toNat +
    (k.outFrom t - max (k.outFrom ((t : Int) - h + 1)) (max k.chain.nextK k.firstWhole)).toNat

/-- A chain restarts at tq (R153): every stage is cleared, the base-rate samples whose fixed span lies at or after tq come
next, and the outputs from tq on, of which those whose span contains tq are discarded. A channel without a chain settles nothing
(R179). -/
def Channel.restart (k : Channel) (tq : Tick) : Channel :=
  { k with chain := { k.chain with
      tq := tq
      settling := hasChain k.mode
      lockAct := Img.lock k.img
      mcStart := none
      cross := []
      next := ceilInt ((tq : Int) + 20 * us - k.chain.origin) 12000
      hist := []
      nextK := k.outFrom tq
      overSince := none
      inSince := none } }
/-- A channel is changed by f, and its chain restarts at tq; the results of the chain as it ran whose span contains tq are counted, and
those that it gives from tq on as they come (R153). -/
def Die.restartCh (d : Die) (c : ChanId) (f : Channel → Channel) (tq : Tick) : Die :=
  let k := d.chan c
  { (d.modCh c fun k => (f k).restart tq) with straddle := satAdd d.straddle (k.cutOld tq) }
/-- A change of filter settings at tf: the chain restarts from stage 4; a mains-cycle channel has no chain to restart (R122, R154). -/
def Die.refilter (d : Die) (c : ChanId) (f : Channel → Channel) (tf : Tick) : Die :=
  if Img.mcEn (d.chan c).img then d.modCh c f else d.restartCh c f tf
/-- A chain restarts at tq where one that ran until t stopped: at a time step, t in the old scale, or at a wake, when nothing ran
(R45, R153). One in transition restarts at its end, and not before tq (R173). -/
def Die.restartFrom (d : Die) (c : ChanId) (t : Option Tick) (tq : Tick) : Die :=
  let k := d.chan c
  if hasChain k.mode && k.trans.isNone then
    { (d.modCh c (·.restart tq)) with straddle := satAdd d.straddle ((t.map k.cutOld).getD 0) }
  else d.modCh c fun k => { k with chain := { k.chain with mcStart := none, tq := tq } }

/-! ### The levels of an input (R209 to R212, R228) -/

/-- The counter filter is in the path: FILT_EN in the input modes (R210, R224). -/
def Channel.filtered (k : Channel) : Bool := isDinMode k.mode && Img.filtEn k.img
/-- Accepted level: filter output, or comparator (R228). -/
def Channel.level (k : Channel) : Bool := if k.filtered then k.din.filt else k.din.raw
/-- The mode has a comparator: 0x6, 0x7, 0xD, and 0x8 to 0xA as readback (R208, R224). -/
def comparing (m : Nat) : Bool := isDinMode m || m == 8 || m == 9 || m == 10
/-- The pair of an encoder channel: its even and its odd channel (R90, R212). -/
def evenOf (c : ChanId) : ChanId := ⟨c.val / 2 * 2, by omega⟩
def oddOf (c : ChanId) : ChanId := ⟨c.val / 2 * 2 + 1, by omega⟩
/-- The decoder of a pair takes an input's level as it stands at t, without an edge, after the edges before t (R211, R212, R214). -/
def Die.syncLevel (d : Die) (c : ChanId) (t : Tick) : Die :=
  let k := d.chan c
  if k.mode = 7 ∧ ¬ Img.zIn k.img then
    d.modCh (evenOf c) fun y => { y with din := { y.din with book := book y.din.book ⟨t, .level (!k.odd) k.level⟩ } }
  else d

/-! ### What an output drives -/

/-- A code rounded to a multiple of 4,096, halves away from zero (R243). -/
def round4096 (v : Int) : Int := divRound v 4096 * 4096
/-- High time of a PWM period: round(u · P / 2^16), halves up (R236). -/
def pwmHigh (p u : Nat) : Nat := (2 * u * p + 65536) / 131072
/-- The code held with MULTIDROP (R250). -/
def multidropCode : Int := 178956971

/-- The end of a PWM channel's high phase where the channel stops at t: t, if it stops within the phase (R139, R237). -/
def Output.highEnd (o : Output) (t : Tick) : Tick := if o.run && o.value == 1 && decide (t < o.hEnd) then t else o.hEnd
/-- The driver goes off; the terminal is high-impedance. That an off-pulse which a latch, a safe state or a mode change so ends is not
counted in OPT_SKIP is a DESIGN CHOICE (R101, R114; log 31). -/
def Output.turnOff (o : Output) (t : Tick) : Output :=
  { o with drive := false, run := false, nextPk := none, ramp := none, pulse := none, hEnd := o.highEnd t,
           offSince := (if o.drive then some t else o.offSince) }

/-- The value of a mode takes effect at t (R89, R236, R243). An OUT_SET 0 of mode 0xA at t overrides any period start at t. -/
def Output.set (o : Output) (mode : Nat) (v : Int) (t : Tick) : Output :=
  let off := if o.drive then some t else o.offSince
  let o := { o with ramp := none, pulse := none }
  match mode with
  | 8 => if v = 1 then { o with value := 1, drive := true } else { o with value := 0, drive := false, offSince := off }
  | 9 => if v = 2 then { o with value := 2, drive := false, offSince := off }
         else { o with value := (if v = 1 then 1 else 0), drive := true }
  | 10 =>
    if v = 1 then (if o.run || o.offAt == some t then o else { o with run := true, drive := true, nextPk := some t })
    else { o with run := false, drive := true, value := 0, nextPk := none, hEnd := o.highEnd t }
  | _ => { o with value := round4096 v, drive := true }
/-- The command of an OUT_SET at t: an on or high command, or an off, low or high-impedance one (R102). `high`: driving high before
it. -/
def Output.commanded (o : Output) (mode : Nat) (v : Int) (high : Bool) (t : Tick) : Output :=
  if 8 ≤ mode ∧ mode ≤ 10 then
    (if v = 1 then { o with onAt := some t, wasHigh := high } else { o with offAt := some t, wasHigh := high })
  else o

/-- Both compensations are the fixed values again (R235). -/
def Output.resetComp (o : Output) : Output :=
  { o with compRise := none, compFall := none, limRise := 0, limFall := 0, compLimit := false }

/-- The terminal is held at 4.0 mA for multidrop operation (R250). -/
def Channel.parkedNow (k : Channel) : Bool :=
  Img.parked k.img && k.out.drive && decide (k.out.value = multidropCode) && (k.state == .run || k.state == .hold)
/-- The code that an analogue output drives: a RAMP moves in the 4,096-count steps of the set codes, and the held code of multidrop
operation stands as it is (R243, R250). -/
def Channel.driven (k : Channel) : Int :=
  if (k.mode = 11 ∨ k.mode = 12) ∧ k.parkedNow = false then round4096 k.out.value else k.out.value
/-- The output is held at the code of multidrop operation (R250). -/
def Output.park (o : Output) : Output := { o with value := multidropCode, drive := true, ramp := none }

/-- Driving high (R102). -/
def Output.high (o : Output) : Bool := o.drive && decide (o.value = 1)
/-- An OUT_SET whose gate command has been issued has its T still to come (R233). -/
def Output.ahead (o : Output) (now : Tick) : Bool := o.onAt.any (fun t => decide (now < t)) || o.offAt.any fun t => decide (now < t)

/-- What an output starts with in a mode: off, high-impedance, stopped, or code 0 (R93, R109, R236, R250). -/
def Output.start (o : Output) (i : ChanImg) : Output :=
  let o := { o with drive := false, run := false, nextPk := none, ramp := none, pulse := none, last := none,
                    onAt := none, offAt := none, wasHigh := false, lastPulse := none, edge := none }
  match Img.mode i with
  | 9 => { o with value := 2 }
  | 10 => { o with value := 0, period := 3000000, duty := 0 }
  | 11 => if Img.parked i then o.park else { o with value := 0, drive := true }
  | 12 => { o with value := 0, drive := true }
  | _ => { o with value := 0 }

/-- SAFE_VAL as the value its mode takes: an output code, signed in modes 0xB and 0xC (R104). -/
def safeValue (i : ChanImg) : Int := if Img.mode i = 10 then (fld i.safeVal 0 16 : Nat) else i.safeVal.toInt

/-- The configured safe kind takes effect at t (R104). The image is the channel's, or its group's (R238). -/
def Output.safe (o : Output) (i : ChanImg) (t : Tick) : Output :=
  let v := safeValue i
  let m := Img.mode i
  match Img.kind i with
  | 0 => { o.turnOff t with value := (if m = 9 then 2 else o.value) }
  | 1 => { o with ramp := none }
  | 2 =>
    if m = 10 then
      { o with duty := v.toNat, drive := true, run := true, ramp := none, nextPk := (if o.run then o.nextPk else some t) }
    else o.set m v t
  | _ =>
    let o := if m = 10 then
        (if o.run then o else { o with duty := 0, run := true, drive := true, nextPk := some t })
      else (if o.drive then o else { o with value := 0, drive := true })
    if Img.rate i = 0 then
      (if m = 10 then { o with duty := v.toNat, ramp := none } else { o with value := round4096 v, ramp := none })
    else { o with ramp := some ((t / (10 * us) + 1) * (10 * us)) }

/-- One step of a RAMP toward SAFE_VAL (R104, R243): the value moves by RATE and stops at SAFE_VAL. -/
def Output.rampStep (o : Output) (i : ChanImg) (t : Tick) : Output :=
  let v := safeValue i
  let step (x : Int) : Int := if x ≤ v then min v (x + Img.rate i) else max v (x - Img.rate i)
  if Img.mode i = 10 then
    let d := step o.duty
    { o with duty := d.toNat, ramp := (if d = v then none else some (t + 10 * us)) }
  else
    let d := step o.value
    { o with value := d, ramp := (if d = v then none else some (t + 10 * us)) }

/-! ### Safe states -/

/-- The image that governs SAFE, DIAG, OPT and the driver settings: the lowest channel's in a group (R238). -/
def Die.govern (d : Die) (c : ChanId) : ChanImg :=
  let k := d.chan c
  match k.group with
  | some g =>
    let l := (d.chan g).img
    { k.img with safe := l.safe, safeVal := l.safeVal, diag := l.diag, opt := l.opt, outCfg := l.outCfg }
  | none => k.img

/-- FSK transmission and reception stop (R104, R249). -/
def Fsk.stop (f : Fsk) : Fsk := { f with run := none, tx := false, rx := false }
/-- The channel leaves its mode: no carrier is detected any more (R246). -/
def Fsk.leave (f : Fsk) : Fsk := { f.stop with cd := false, overrun := false }

/-- The FSK record's words: octets from word 5, received replacing transmitted, and the receive information word 68
(R78, R248). -/
def fskWords (tx rx : List Byte) (r : FskRun) (cut : Bool) : List (Nat × Word) :=
  let oct := rx ++ tx.drop rx.length
  let n := (oct.length + 3) / 4
  let body := (List.range n).map fun i => (5 + i, BitVec.ofNat 32 (leAt oct (4 * i) 4))
  let info := putBit r.busy 0 + putBit r.parity 1 + putBit r.framing 2 + putBit cut 3 +
    putFld (match r.firstErr with | some i => i | none => 0xFF) 4 8 + putFld r.q 12 2
  body ++ [(68, BitVec.ofNat 32 info)]
/-- The FSK entry in progress ends with an outcome: what it received is written into its record (R74, R247 to R249). -/
def Die.stopFsk (d : Die) (c : ChanId) (cut : Bool) (st : Nat) (o : EntryOutcome) : Die :=
  match (d.chan c).fsk.run with
  | none => d
  | some r =>
    let tx := match d.queued r.id with | some e => e.octets | none => []
    let w := fskWords tx r.octets r cut
    ((d.modCh c fun k => { k with fsk := k.fsk.stop }).finish r.id o).push [.result r.id w (r.time0.getD r.tw) r.q r.octets.length st]
/-- All channels of a die. -/
def allC : List ChanId := List.finRange 16
/-- The mask of channels. -/
def maskOf (cs : List ChanId) : Nat := (cs.map fun c => 2 ^ c.val).sum

/-- The channels that a diagnostic acts on as a unit: the members of a group, or the channel (R239). -/
def Die.together (d : Die) (c : ChanId) : List ChanId := match (d.chan c).group with | some _ => d.unit c | none => [c]
/-- The channel that an event of a group names: its lowest (R239). -/
def Die.named (d : Die) (c : ChanId) : ChanId := (d.chan c).group.getD c
/-- A channel event of a die now. -/
def Die.evCh (d : Die) (ch : Chan) (q : Nat) (e : Ev) (st : Bool) (data : List Byte) : Die :=
  d.raiseCh ch.die ch.c e d.replica q st data
/-- The member mask that an event of a group carries (R239). -/
def Die.groupMask (d : Die) (c : ChanId) : List Byte := if (d.chan c).group.isSome then leBytes 2 (maskOf (d.unit c)) else []
/-- A change of the diagnostics of a channel, or of every member of its group (R239). -/
def Die.modDiag (d : Die) (c : ChanId) (f : Diag → Diag) : Die :=
  (d.together c).foldl (fun x m => x.modCh m fun k => { k with diag := f k.diag }) d
/-- An event of a channel, or of a group: it names the lowest channel and carries the member mask (R239). -/
def Die.evUnit (d : Die) (ch : Chan) (q : Nat) (e : Ev) (st : Bool) : Die :=
  d.evCh ⟨ch.die, d.named ch.c⟩ q e st (d.groupMask ch.c)

/-- The flag of a backfeed that does not latch clears; no correlation waits for its clear condition any more (R439). -/
def Diag.backfeedOver (g : Diag) : Diag := { g with backfeed := false, bfAlone := false }
/-- The driver leaves off or high-impedance while a backfeed that does not latch is flagged: it clears, with EV_BACKFEED state 0
(R439); a group's flag clears as one, with one event (R239). -/
def Die.backfeedLeft (old d : Die) (di : DieId) (q : Nat) (cs : List ChanId) : Die :=
  cs.foldl (fun x c =>
    if (x.chan c).diag.backfeed && !(x.chan c).diag.bfLatch && !(old.chan c).out.drive && (x.chan c).out.drive then
      (x.modDiag c Diag.backfeedOver).evUnit ⟨di, c⟩ q .backfeed false
    else x) d

/-- The outputs bound with a channel that are in their safe state follow a change of its configured safe state (R104, R108): the spec
is silent on such a change, by a write or by a configuration, and the new kind and value are in force at once, a RAMP beginning anew
(DESIGN CHOICE, log 59). A driver that leaves off so clears its backfeed (R439). -/
def Die.reSafe (d : Die) (di : DieId) (q : Nat) (c : ChanId) : Die :=
  Die.backfeedLeft d ((d.unit c).foldl (fun x m =>
    if isOutMode (x.chan m).mode && (x.chan m).isSafe && !(x.chan m).latched && (x.chan m).trans.isNone then
      x.modCh m fun k => { k with out := k.out.safe (x.govern m) x.replica }
    else x) d) di q (d.unit c)

/-- A cause bit is set on a channel: the first one on an output channel puts the safe kind in force, unless a latch or
a transition governs the terminals (R104, R108). -/
def Channel.setCause (k : Channel) (g : ChanImg) (b : Nat) (t : Tick) : Channel :=
  let first := k.cause = 0#11
  let k' := { k with cause := k.cause ||| BitVec.ofNat 11 (2 ^ b),
                     fsk := (if k.mode = 3 ∨ k.mode = 11 then k.fsk.stop else k.fsk) }
  if first && isOutMode k.mode && !k.latched && k.trans.isNone then { k' with out := k.out.safe g t } else k'

/-- An event with a mask: its source is the lowest channel, and every channel of the mask gets its pending bit (R108,
R440). -/
def Die.raiseMask (d : Die) (di : DieId) (cs : List ChanId) (e : Ev) (t q : Nat) (st : Bool) (data : List Byte) : Die :=
  match cs, e.bit with
  | c :: rest, some b =>
    let d1 := rest.foldl (fun x k => x.modHdr (chPage k) (·.condition b)) d
    d1.raiseCh di c e t q st data
  | _, _ => d

/-- An entry in progress whose next instant falls in an interval of R73 that begins now: an FSK frame stops, and PWM entries that
wait for their period are missed (R73, R249). -/
def Die.missOut (d : Die) (c : ChanId) : Die :=
  (d.stopFsk c false 0 .missed).close
    (fun e => e.phase == .active && decide (e.ch.c = c) && (e.e.op == 4 || e.e.op == 5) && !e.e.readback) .missed

/-- A cause bit is set on some channels of a die at one instant: they take their safe states, and one EV_SAFE_STATE
names those that entered (R105, R108). -/
def Die.setCauses (d : Die) (di : DieId) (q : Nat) (b : Nat) (cs : List ChanId) : Die :=
  let t := d.replica
  let new := cs.filter fun c => !(d.chan c).cause.getLsbD b
  let entered := new.filter fun c => (d.chan c).cause == 0#11 && isOutMode (d.chan c).mode
  let d1 := new.foldl (fun x c => (x.missOut c).modCh c (·.setCause (d.govern c) b t)) d
  (Die.backfeedLeft d d1 di q new).raiseMask di entered .safeState t q false (leBytes 2 (maskOf entered) ++ leBytes 1 b)

/-- When no cause, latch or hold is left, the output follows RESUME: 0 keeps the safe value, 1 applies the last
executed output entry, or the start value; multidrop operation holds its code (R109, R250). -/
def Channel.resumeOut (k : Channel) (g : ChanImg) (resume : Bool) (t : Tick) : Channel :=
  if isOutMode k.mode && k.trans.isNone && resume then
    if Img.parked k.img then { k with out := k.out.park }
    else match k.out.last with
    | some (3, v) => { k with out := k.out.set k.mode v.toInt t }
    | some (4, v) => { k with out := { k.out with duty := fld v 0 16 } }
    | some (_, v) => { k with out := { k.out with period := v.toNat, nextPk := (if k.out.run then some t else none) } }
    | none => { k with out := k.out.start { g with cfg := k.img.cfg } }
  else { k with out := { k.out with ramp := none } }

/-- After a cause or a latch is cleared: RUN and RESUME when nothing is left, the safe kind when only causes are left
and a latch held the driver off (R108, R109). -/
def Channel.afterClear (old k : Channel) (g : ChanImg) (resume : Bool) (t : Tick) : Channel :=
  if k.cause = 0#11 && !k.latched then
    (if old.cause ≠ 0#11 ∨ old.latched then k.resumeOut g resume t else k)
  else if old.latched && !k.latched && isOutMode k.mode && k.trans.isNone then { k with out := k.out.safe g t }
  else k

/-- A request level of some channels has risen: the cause is set on them at one instant (R108, R110). -/
def Die.raiseLevels (d : Die) (di : DieId) (q b : Nat) (f : Levels → Bool) (n : ChanId → Levels) (cs : List ChanId) : Die :=
  d.setCauses di q b (cs.filter fun c => f (n c) && !f (d.levels[c.val]))
/-- A request level of a channel has fallen: the cause clears (R109, R110). -/
def Die.lowerLevel (d : Die) (b : Nat) (f : Levels → Bool) (n : Levels) (c : ChanId) : Die :=
  if f (d.levels[c.val]) && !f n then
    d.modCh c fun k =>
      Channel.afterClear k { k with cause := k.cause &&& ~~~(BitVec.ofNat 11 (2 ^ b)) } (d.govern c) k.resume d.replica
  else d
/-- The elapsed instant at which a channel's link-loss hold ends (R107). -/
def Channel.holdEnd (k : Channel) : Option Nat := k.hold.map fun t => t + Img.holdMs k.img * ms
/-- A hold ends with its request: what a write of MULTIDROP asked for meanwhile comes now (R107, R250). -/
def Channel.endHold (k : Channel) : Channel :=
  let x := { k with hold := none }
  if Img.parked x.img && x.state == .run then { x with out := x.out.park } else x
/-- HOLD_REQ falls too late: HOLD_MS has elapsed (R107, R358). -/
def Die.lateClear (d : Die) (elapsed : Nat) (n : Levels) (c : ChanId) : Bool :=
  (d.levels[c.val]).hold && !n.hold && (d.chan c).holdEnd.any fun t => decide (t ≤ elapsed)
/-- HOLD_REQ of a channel arrives: an output mode holds, or with HOLD_MS 0 is safe at once; it ends the hold when it falls
(R107, R110). -/
def Die.holdLevel (d : Die) (elapsed : Nat) (n : Levels) (c : ChanId) : Die :=
  let was := (d.levels[c.val]).hold
  if n.hold && !was && isOutMode (d.chan c).mode && Img.holdMs (d.chan c).img != 0 then
    (d.missOut c).modCh c fun k => { k with hold := some elapsed }
  else if was && !n.hold then d.modCh c Channel.endHold
  else d
/-- The request levels of some channels arrive with an Output state frame (R110): a rise sets the cause on all of them at one
instant, a fall clears it, and one of HOLD_REQ that comes when HOLD_MS has elapsed sets LINK_LOSS (R358). -/
def Die.applyLevels (d : Die) (di : DieId) (q elapsed : Nat) (cs : List ChanId) (n : ChanId → Levels) : Die :=
  let d1 := ((d.raiseLevels di q 8 (·.host) n cs).raiseLevels di q 9 (·.wdog) n cs).raiseLevels di q 10 (·.skew) n cs
  let d2 := cs.foldl (fun x c =>
    ((x.lowerLevel 8 (·.host) (n c) c).lowerLevel 9 (·.wdog) (n c) c).lowerLevel 10 (·.skew) (n c) c) d1
  let d3 := d2.setCauses di q 2 (cs.filter fun c =>
    ((n c).hold && !(d.levels[c.val]).hold && isOutMode (d2.chan c).mode && Img.holdMs (d2.chan c).img == 0) ||
      d.lateClear elapsed (n c) c)
  let d4 := cs.foldl (fun x c => x.holdLevel elapsed (n c) c) d3
  { Die.backfeedLeft d1 d4 di q cs with levels := vmap d.levels fun i v => if cs.contains i then n i else v }

/-! ### Latches -/

/-- A latched condition turns the driver off (R100). -/
def Channel.latch (k : Channel) (f : Diag → Diag) (t : Tick) : Channel :=
  { k with diag := f k.diag, out := k.out.turnOff t }

/-- A latch turns a channel off, or the whole group; entries whose next instant falls in it are missed (R73, R100, R239). -/
def Die.latchUnit (d : Die) (c : ChanId) (f : Diag → Diag) : Die :=
  (d.together c).foldl (fun x k => (x.missOut k).modCh k (·.latch f d.replica)) d

/-! ### Changing mode -/

/-- The settings that select the front end (R437). -/
def frontEnd (i : ChanImg) : Nat × Nat × Bool × Bool × Bool × Nat × Bool × Nat × Nat :=
  (Img.mode i, Img.range i, Img.lowpwr i, Img.fskOn i, Img.zEn i, Img.zOf i, Img.mcEn i, Img.mcN i, Img.par i)

/-- The channels that a configuration of channel c binds: the pair of a pair mode, the group of PAR, or c alone ; the Z
input of an encoder pair takes part in no pair (R90 to R92, R238). -/
def bindOf (c : ChanId) (i : ChanImg) : List ChanId :=
  let upto (n : Nat) : List ChanId := (List.range n).filterMap fun j => if h : c.val + j < 16 then some ⟨c.val + j, h⟩ else none
  if isPairMode (Img.mode i) && !Img.zIn i then upto 2
  else if Img.mode i = 8 then (match Img.par i with | 1 => upto 2 | 2 => upto 4 | _ => [c])
  else [c]

/-- The configuration changes the channel's front end or its bindings (R437). -/
def Die.frontChange (d : Die) (c : ChanId) (i : ChanImg) : Bool :=
  frontEnd (d.chan c).img != frontEnd i || d.unit c != bindOf c i

/-- The flags that a mode change clears: the old mode's diagnostics that are not latched (R93). A FOREIGN cause stays, and with it the
backfeed that it is judged by (R109). -/
def Diag.endMode (g : Diag) : Diag :=
  { g with shortLp := false, foreign := false, backfeed := g.bfLatch, openW := false, owBad := 0, owGood := 0,
           overr := false, shunt := false, fold := false, bfAlone := false, bfCond := g.bfCond && (g.bfLatch || g.foreignOwn) }

/-- The input quantity of a channel: mode code in [3:0], range code in [7:4] (R182, R192). -/
def quantity (i : ChanImg) : Nat := Img.mode i + 16 * Img.range i

/-- A change of quantity ends WARM and the kept zero point; an own slice serves after it unless the channel is parked (R188,
R191, R195, R198). -/
def Cal.changeQty (k : Cal) (same : Bool) : Cal :=
  { k with warm := k.warm && same, zero := (if same then k.zero else none), server := (if k.parked || same then k.server else 0), was := (if same then k.was else []) }

/-- A channel enters a mode at tm by the sequence of R93: driver off, terminals high-impedance, STATE TRANSITION. That RAW and LEVEL read
the last level while no comparator runs is a DESIGN CHOICE (R228; log 39). -/
def Channel.startMode (k : Channel) (i : ChanImg) (set : Nat) (odd : Bool) (grp : Option ChanId) (tm : Tick) : Channel :=
  { k with
    img := i
    cfgSet := set
    odd := odd
    group := grp
    trans := some tm
    diag := k.diag.endMode
    fsk := k.fsk.leave
    cal := k.cal.changeQty (quantity k.img == quantity i)
    out := { k.out.resetComp.turnOff tm with last := none, period := (if Img.mode i = 10 then 3000000 else k.out.period), imbal := false, share := 0#32, shareBad := [], shareGood := 0 }
    din := { k.settleAll.din with enc := { k.settleAll.din.enc with
      a := false, b := false, la := none, lb := none, dec := Img.decode i, zMode := Img.zMode i } }
    hold := (if isOutMode (Img.mode i) then k.hold else none) }

/-- The image a member takes from a configuration of its pair or group, by its own image. The odd channel of a pair takes the
settings of its CFG, converter, filters and diagnostics, and keeps the rest, its input's DIN_CFG among it (R90, R212; log 61);
a member of a group keeps its own settings, which the lowest channel's override (R238). PAR stands on the lowest channel only. -/
def memberImg (own i : ChanImg) (first : Bool) : ChanImg :=
  let noPar (w : Word) : Word := BitVec.ofNat 32 (w.toNat - fld w 16 2 * 65536)
  if first then i
  else if Img.mode i = 8 then { own with cfg := i.cfg, outCfg := noPar own.outCfg }
  else { i with safe := own.safe, safeVal := own.safeVal, linkloss := own.linkloss, opt := own.opt, dinCfg := own.dinCfg,
                encCfg := own.encCfg, outCfg := noPar own.outCfg, fskCfg := own.fskCfg, decl := own.decl }

/-- Mode 0x0: the channel alone, its other settings kept. -/
def ChanImg.disabled (i : ChanImg) : ChanImg :=
  Img.withMode { i with outCfg := BitVec.ofNat 32 (i.outCfg.toNat - fld i.outCfg 16 2 * 65536) } 0

/-- A mode change of a channel and what it binds at tm; members it releases enter mode 0x0 by the same sequence (R90,
R93). Conversions whose window straddles tm are discarded and counted (R93). -/
def Die.changeMode (d : Die) (c : ChanId) (i : ChanImg) (set : Nat) (tm : Tick) : Die :=
  let old := d.unit c
  let new := bindOf c i
  let gone := old.filter fun x => !new.contains x
  let grp : Option ChanId := if Img.mode i = 8 && decide (1 < new.length) then some c else none
  let n := ((old ++ new).dedup.map fun x => (d.chan x).straddles tm).sum
  let d1 := gone.foldl (fun x k => x.modCh k fun ch =>
    let di := ChanImg.disabled ch.img
    { ch.startMode di 0 false none tm with want := ChanImg.disabled ch.want }) d
  let d2 := new.foldl (fun x k => x.modCh k fun ch =>
    { ch.startMode (memberImg ch.img i (k = c)) set (isPairMode (Img.mode i) && decide (k ≠ c)) grp tm with
      want := memberImg ch.want i (k = c) }) d1
  let d3 := (gone ++ new).foldl (fun x k => x.modCh k (·.recharge x.led.vd)) d2
  { d3 with straddle := satAdd d3.straddle n }

/-- The DIN settings of a configuration act at t: the filter output is the accepted level, and the integrator takes THR or 0, so that
no edge follows; the first tick of the new TICK comes after t (R211). -/
def Din.reconfigure (n : Din) (level : Bool) (i : ChanImg) (t : Tick) : Din :=
  { n with filt := level, integ := (if level then Img.thr i else 0), filtAt := t }

/-- The filter settings of a configuration changed (R154). -/
def filterChanged (a b : ChanImg) : Bool :=
  a.filtCfg != b.filtCfg || a.perInt != b.perInt || a.perFrac != b.perFrac || a.maLen != b.maLen || a.angCfg != b.angCfg ||
    Img.dcbEn a != Img.dcbEn b || Img.dcbK a != Img.dcbK b

/-- A configuration that changes no front-end setting takes effect at tm without a transition, on the settings in force and on the
registers (R434, R437); the chain is another matter, and so is a changed safe state of a channel that is safe: `Die.reSafe` puts it in
force (R104: DESIGN CHOICE, log 59). -/
def Channel.reconfigure (k : Channel) (i want : ChanImg) (set : Nat) (tm : Tick) : Channel :=
  let k := k.putDecode i tm
  { k with
    img := i
    want := want
    cfgSet := set
    din := (if k.img.dinCfg = i.dinCfg then k.din else k.din.reconfigure k.level i tm)
    out := (if Img.slew k.img = Img.slew i ∧ Img.precomp k.img = Img.precomp i then k.out else k.out.resetComp)
    chain := { k.chain with high := (if k.img.angCfg = i.angCfg then k.chain.high else none) } }
/-- One channel of such a configuration: changed filter settings restart its chain from stage 4 (R154, R437). -/
def Die.reconfigure (d : Die) (c : ChanId) (i : ChanImg) (first : Bool) (set : Nat) (tm : Tick) : Die :=
  let own := d.chan c
  let f (k : Channel) : Channel := (k.reconfigure (memberImg own.img i first) (memberImg own.want i first) set tm).recharge d.led.vd
  (if filterChanged own.img (memberImg own.img i first) then d.refilter c f tm else d.modCh c f).syncLevel c tm
/-- A configuration alters the configured safe state of a channel. -/
def safeChanged (a b : ChanImg) : Bool := a.safe != b.safe || a.safeVal != b.safeVal
/-- MULTIDROP set on a channel that runs in 4-to-20 mA FSK holds the terminal at 4.0 mA at once, in a link-loss hold when that ends
(R107, R250). -/
def Channel.parkFrom (old k : Channel) : Channel :=
  if Img.parked k.img && !Img.parked old.img && k.state == .run then { k with out := k.out.park } else k

/-- A configuration takes effect at tm: with the sequence of R93 or without; one that changes no setting has no effect (R437). -/
def Die.putInForce (d : Die) (di : DieId) (q : Nat) (c : ChanId) (i : ChanImg) (set : Nat) (tm : Tick) : Die :=
  if d.frontChange c i then d.changeMode c i set tm
  else if (bindOf c i).all fun k => decide ((d.chan k).img = memberImg (d.chan k).img i (k = c)) then
    (bindOf c i).foldl (fun x k => x.modCh k fun y => { y with want := memberImg y.want i (k = c) }) d
  else
    let e := (bindOf c i).foldl (fun x k => (x.reconfigure k i (k = c) set tm).modCh k fun y => Channel.parkFrom (d.chan k) y) d
    if safeChanged (d.chan c).img (e.chan c).img then e.reSafe di q c else e

/-- A spare is in a visit of a channel (R185). -/
def Spare.visiting (p : Spare) : Bool := p.phase == .shadowIn || p.phase == .serve || p.phase == .shadowOut
/-- EV_CAL_SKIP with a reason, and SKIP_CNT (R187, R188). -/
def Die.calSkip (d : Die) (di : DieId) (q : Nat) (c : ChanId) (reason : Nat) : Die :=
  ({ d with car := { d.car with skipCnt := satInc d.car.skipCnt } } : Die).raise .calSkip 0x13
    (mkRec .calSkip d.replica (srcCh di c) q false (leBytes 1 reason) none)
/-- A spare withdraws: no coefficients change, and the own slice serves (R188). -/
def Spare.withdraw (p : Spare) : Spare := { p with phase := .idle, lowpwr := false, solved := none, retry := none, ramp := none }
/-- Visits of these channels end early (R188). -/
def Die.endVisits (d : Die) (di : DieId) (q : Nat) (cs : List ChanId) (reason : Nat) : Die :=
  (List.finRange 2).foldl (fun x k =>
    let p := x.car.spares[k.val]
    if p.visiting && cs.contains p.ch then
      let y := x.calSkip di q p.ch reason
      let y : Die := { y with car := { y.car with spares := vmod y.car.spares k Spare.withdraw } }
      { y with chans := vmod y.chans p.ch fun h => { h with cal := { h.cal with server := 0 } } }
    else x) d

/-- A configuration changes a channel's mode, quantity or LOWPWR, which ends a visit (R188). -/
def endsVisit (a b : ChanImg) : Bool := quantity a != quantity b || Img.lowpwr a != Img.lowpwr b
/-- A spare that serves a parked channel follows its power mode (R121). -/
def Die.followPower (d : Die) : Die :=
  { d with car := { d.car with spares := d.car.spares.map fun (p : Spare) =>
      if p.phase = .parked then { p with lowpwr := Img.lowpwr (d.chan p.ch).img } else p } }

/-- The image with one register changed, by its offset on the channel page. -/
def imgSet (i : ChanImg) (off : Nat) (w : Word) : ChanImg :=
  match off with
  | 0x040 => { i with cfg := w }
  | 0x048 => { i with safe := w }
  | 0x04C => { i with safeVal := w }
  | 0x050 => { i with linkloss := w }
  | 0x054 => { i with diag := w }
  | 0x058 => { i with opt := w }
  | 0x080 => { i with convCfg := w }
  | 0x100 => { i with filtCfg := w }
  | 0x104 => { i with perInt := w }
  | 0x108 => { i with perFrac := w }
  | 0x10C => { i with maLen := w }
  | 0x110 => { i with dcbCfg := w }
  | 0x118 => { i with angCfg := w }
  | 0x200 => { i with dinCfg := w }
  | 0x204 => { i with encCfg := w }
  | 0x300 => { i with outCfg := w }
  | 0x31C => { i with fskCfg := w }
  | 0xDEC => { i with decl := w }
  | _ => i

/-- What still waits for its instant on a channel, in the order of the instants: the configurations that bind it, and at one instant
after them the settings written since (R154, R434). -/
def Die.waitsOf (d : Die) (c : ChanId) : List (Tick × (ChanImg → ChanImg)) :=
  ((allC.flatMap fun b => ((d.chan b).pend.filter fun p => (bindOf b p.img).contains c).map fun p =>
    (p.tm, fun i => memberImg i p.img (c = b))) ++
    (d.chan c).pendF.map fun p => (p.1, fun i => imgSet i p.2.1 p.2.2)).insertionSort fun a b => a.1 ≤ b.1
/-- What waits for its instant shows in the registers (R434). -/
def Die.showWaits (d : Die) (c : ChanId) : Die :=
  d.modCh c fun k => { k with want := (d.waitsOf c).foldl (fun i p => p.2 i) k.want }
/-- A PER_FRAC that was held for the next write of PER_INT goes with the PER_INT and PER_FRAC that an image brings (R154, R174, R434). -/
def Die.dropHeld (d : Die) (c : ChanId) (i : ChanImg) : Die :=
  (bindOf c i).foldl (fun x k => if k = c ∨ Img.mode i ≠ 8 then x.modCh k fun y => { y with heldFrac := none } else x) d

/-- A mode change overtakes what a channel has in progress: an FSK frame ends cancelled, PWM entries that wait for their period are
missed (R73, R249), and a MODE_SET whose 50 µs have not passed is cancelled: the spec gives it no outcome (DESIGN CHOICE, log
62). -/
def Die.overtake (d : Die) (c : ChanId) : Die :=
  ((d.stopFsk c false 0 .cancelled).missOut c).close
    (fun e => e.phase == .active && decide (e.ch.c = c) && e.e.op == 8) .cancelled

/-- The die's side of a waiting configuration taking force: FSK exchanges and carousel visits a front-end change ends, the
new images, and the entries of channels that leave the unit closed (R128, R131, R434). -/
def Die.putConfig (d : Die) (ch : Chan) (p : PendCfg) (q : Nat) : Die :=
  let front := d.frontChange ch.c p.img
  let gone := (d.unit ch.c).filter fun x => !(bindOf ch.c p.img).contains x
  let d := d.modCh ch.c fun k => { k with pend := k.pend.filter (· != p) }
  let d := if front then (d.unit ch.c ++ bindOf ch.c p.img).dedup.foldl (·.overtake ·) d else d
  let ends := (bindOf ch.c p.img).filter fun x => endsVisit (d.chan x).img (memberImg (d.chan x).img p.img (x = ch.c))
  let d := d.endVisits ch.die q (gone ++ ends) 3
  let d := (d.putInForce ch.die q ch.c p.img p.set p.tm).followPower
  let d := if p.entry.isSome ∧ p.set ≠ 0 then d.dropHeld ch.c p.img else d
  let d := ((d.unit ch.c) ++ gone).foldl Die.showWaits d
  d.close (fun e => gone.contains e.ch.c && decide (p.tm ≤ e.e.time.toNat)) .cancelled

/-- The entry whose execution installs a configuration stays active through a front-end change and else is done. -/
def Die.configEntry (d : Die) (front : Bool) (id : Nat) : Die :=
  if front then d.modEntry id (fun e => { e with phase := .active }) else d.finish id .executed

/-- A configuration of a channel takes effect on the channel and its pair or group; entries of channels it disables are
cancelled as for a CH_DISABLE; the ledger's standing charges change (R90, R93, R262, R437). -/
def State.applyConfig (s : State) (ch : Chan) (p : PendCfg) : State :=
  let d := s.die ch.die
  let gone := (d.unit ch.c).filter fun x => !(bindOf ch.c p.img).contains x
  let s1 := s.modDie ch.die fun k =>
    match p.entry with
    | some id => (k.putConfig ch p (k.q s.quality)).configEntry (d.frontChange ch.c p.img) id
    | none => k.putConfig ch p (k.q s.quality)
  let ids := (s.core.entries.filter fun e =>
    e.unqueued && decide (e.ch.die = ch.die) && gone.contains e.ch.c && decide (p.tm ≤ e.e.time.toNat)).map (·.id)
  let s2 := s1.outcomes ids .cancelled
  let s3 := s2.modCore fun c => { c with plan := c.plan.filter fun i =>
    match i.cost with
    | .standing a k _ _ => !(decide (i.die = ch.die) && decide (a ≤ p.tm) && (bindOf ch.c p.img ++ gone).contains k)
    | _ => true }
  s3.settlePools ch.die

/-- A member takes the register at an offset from a configuration of its pair or group, and does not keep its own. -/
def takesReg (i : ChanImg) (first : Bool) (off : Nat) : Bool :=
  first || (Img.mode i != 8 && off != 0xDEC && off != 0x200 && off != 0x300)
/-- The configuration waits for tm on its channel; registers of every channel it binds show it, and a setting that waits for that
instant or a later one and that the image brings too is overtaken by it (R93, R434). -/
def State.queueConfig (s : State) (ch : Chan) (i : ChanImg) (set : Nat) (tm : Tick) : State :=
  let t := s.modCh ch fun k => { k with pend := k.pend ++ [⟨tm, i, set, none⟩] }
  (bindOf ch.c i).foldl (fun (x : State) c => x.modCh ⟨ch.die, c⟩ fun k =>
    { k with
      want := memberImg k.want i (c = ch.c)
      pendF := k.pendF.filter fun p => decide (p.1 < tm) || !takesReg i (c = ch.c) p.2.1 }) t

/-- MODE_CHANGE_START: the waiting configuration whose tm has come takes effect (R93, R437). -/
def State.startModeChange (s : State) (ch : Chan) : State :=
  match ((s.die ch.die).chan ch.c).pend.find? (fun p => (s.die ch.die).past p.tm) with
  | none => s
  | some p => s.applyConfig ch p

/-- MODE_CHANGE_START (R93). -/
def execModeChangeStart (ch : Chan) (s : State) : Host.Outcome State Fault Refusal :=
  let cs := (s.die ch.die).unit ch.c
  let t := s.startModeChange ch
  .next (State.commit s (t.syncShadow ch.die (cs ++ (t.die ch.die).unit ch.c)))

/-- The end of a transition at tm + 50 µs: outputs start, chains and inputs restart, STATE becomes RUN or what a latch
or a cause makes it; in an episode of L+ undervoltage the driver stays off. The pair's acts before t have come first, and it goes on
from 0 with the DECODE and Z_MODE then written. `high`: the comparator is high then (R93, R153, R155, R211, R212, R215, R216, R440). -/
def Channel.endTransition (k : Channel) (g : ChanImg) (t : Tick) (uv high : Bool) : Channel :=
  let k := k.settleActs (k.din.book.filter fun x => decide (x.t < t)) (k.din.book.filter fun x => decide (t ≤ x.t))
  let k1 := { k with
    trans := none
    img := { k.img with dcbCfg := k.img.dcbCfg &&& ~~~2#32 }
    want := { k.want with dcbCfg := k.want.dcbCfg &&& ~~~2#32 }
    out := k.out.start k.img
    din := { k.din with raw := comparing k.mode && high, known := true, integ := 0, filt := false, filtAt := t, lastRise := none,
                        lastFall := none, edgeCnt := 0#32, encEp := none, since := t,
                        enc := { k.din.enc with cnt := 0, pos := 0, dec := Img.decode k.img, zMode := Img.zMode k.img },
                        preset := k.din.preset.filter (fun p => decide (t ≤ p.2)) }
    chain := { k.chain with dcb := 0, high := none, lastCross := none } }
  if isOutMode k.mode && (k.latched || uv) then { k1 with out := k1.out.turnOff t }
  else if isOutMode k.mode && k.isSafe then { k1 with out := k1.out.safe g t }
  else k1

/-- TRANSITION_END at tm + 50 µs on a channel in transition, or where a time step has passed that instant over, at ts + Δ; a MODE_SET
retires as executed (R93, R173). -/
def Die.transitionEnd (d : Die) (c : ChanId) (high : Bool) : Die :=
  match (d.chan c).trans with
  | some tm =>
    if d.past (tm + 50 * us) then
      let t := max (tm + 50 * us) (d.chan c).chain.tq
      let d := (d.restartCh c (fun k => k.endTransition (d.govern c) t d.uvLow high) t).syncLevel c t
      let d := d.showWaits c
      d.close (fun e => e.e.op == 8 && e.phase == .active && decide (e.ch.c = c) && decide (e.e.time.toNat = tm)) .executed
    else d
  | none => d

/-- TRANSITION_END, with the level that the comparator then has (R93, R211). -/
def execTransitionEnd (x : InputLevel) (s : State) : Host.Outcome State Fault Refusal :=
  .next (State.commit s ((s.modDie x.ch.die (·.transitionEnd x.ch.c x.high)).syncShadow x.ch.die [x.ch.c]))

/-- Conversions of an injected sequence for an entry of these channels whose window straddles t (R74, R140). -/
def Die.injStraddle (d : Die) (cs : List ChanId) (t : Tick) : Nat :=
  d.aux.injCut (fun id => (d.queued id).any fun e => cs.contains e.ch.c) t
/-- A CAPTURE goes on past its end until the filter has shown the edges before it and the edges that wait for an angle have theirs (R74,
R75, R220, R222). -/
def Die.outlives (d : Die) (e : Entry) : Bool :=
  e.phase == .active && e.e.op == 2 && ((d.chan e.ch.c).filtered || (d.chan e.ch.c).din.capWait.any (·.1 == e.id))
/-- Such a capture takes no edge from t on, and ends with an outcome once it has the edges before t (R74, R75). -/
def Entry.cutAt (e : Entry) (t : Tick) (o : EntryOutcome) : Entry := { e with cut := some (e.cut.getD (t, o)) }

/-- A filtered input stops at td with its last level: the edge that the filter would still have shown with that level, stamped before
td, comes now, and the captures in progress record it (R74, R210, R228; log 27). -/
def Die.showLast (d : Die) (c : ChanId) (td : Tick) (q : Tick → Nat) (angle : Nat → Tick → Option (Word × Bool)) : Die :=
  let k := d.chan c
  let t := (if k.din.raw then k.din.lastRise else k.din.lastFall).getD k.din.since
  if k.filtered && k.trans.isNone && k.din.raw != k.din.filt && decide (t < td) then
    (d.ntq.filter (·.captures c t k.din.raw)).foldl (fun x e => x.capture c (d.q (q t)) t k.din.raw (angle (Img.axis k.img) t) e) d
  else d

/-- A channel, with its pair or group, is disabled at td (R74, R90, R92): entries at or after td and entries in progress
retire as cancelled, a capture once the edges before td that wait for an angle have theirs, running conversions are discarded,
terminals go high-impedance, its charges end. RAW and LEVEL read the
last level from then on (R228: DESIGN CHOICE, log 39). -/
def State.disableAt (s : State) (ch : Chan) (td : Tick) (self : Option Nat) : State :=
  let cs := (s.die ch.die).unit ch.c
  let hit (e : Entry) : Bool :=
    cs.contains e.ch.c && some e.id != self && (decide (td ≤ e.e.time.toNat) || e.phase == .active)
  let ids := (s.core.entries.filter fun e => e.unqueued && decide (e.ch.die = ch.die) && hit e).map (·.id)
  let s1 := s.modDie ch.die fun d =>
    let n := (cs.map fun x => (d.chan x).straddles td).sum + d.injStraddle cs td
    let d := cs.foldl (fun x c => (x.showLast c td s.qualityOf s.core.angleAt).stopFsk c false 0 .cancelled) d
    let stays (e : Entry) : Bool := e.phase == .active && (d.chan e.ch.c).din.capWait.any (·.1 == e.id)
    let d := { d with ntq := d.ntq.map fun e => if hit e && stays e then e.cutAt td .cancelled else e }
    let d := d.close (fun e => hit e && !stays e) .cancelled
    let d := d.endVisits ch.die (d.q s.quality) cs 3
    let d := cs.foldl (fun x c => x.modCh c fun k =>
      { k with
        img := ChanImg.disabled k.img
        want := ChanImg.disabled k.want
        cfgSet := 0
        odd := false
        group := none
        trans := none
        hold := none
        diag := k.diag.endMode
        fsk := k.fsk.leave
        cal := k.cal.changeQty false
        din := k.settleAll.din
        out := { k.out.turnOff td with last := none, imbal := false, share := 0#32, shareBad := [], shareGood := 0 }
        chain := { k.chain with settling := false, mcStart := none, cross := [], hist := [] }
        chgHeat := 0
        chgBar := 0 }) d
    { d with straddle := satAdd d.straddle n }
  let s2 := s1.outcomes ids .cancelled
  s2.settlePools ch.die

/-- CHANNEL_DISABLE_INSTANT: td of a `ChannelDisable` has come (R74). -/
def execChannelDisableInstant (ch : Chan) (s : State) : Host.Outcome State Fault Refusal :=
  .next (match s.core.disables.find? (fun p => decide (p.1 = ch) && (s.die ch.die).past p.2) with
  | some p =>
    let t := (s.disableAt ch p.2 none).modCore fun c => { c with disables := c.disables.filter (· != p) }
    State.commit s (t.syncShadow ch.die ((s.die ch.die).unit ch.c))
  | none => s)

/-! ### Safe states on the die's own authority -/

/-- HUB_LOSS_EXPIRY: no renewal for HUBLOSS_T sets HUB_LOSS on every channel; in an S variant, and in a D variant with no
READY standby, the queue's entries retire as missed (R73, R105, R106, R296). -/
def execHubLossExpiry (d : DieId) (s : State) : Host.Outcome State Fault Refusal :=
  .next (s.modDie d fun k =>
    match k.lossFrom with
    | some t =>
      if k.pwr ≠ .deepSleep ∧ t + k.hublossT * us ≤ s.clk.elapsed then
        let k := k.setCauses d (k.q s.quality) 0 allC
        let ready := s.variant.dual && ((s.hub 0).hstate == .ready || (s.hub 1).hstate == .ready)
        if ready then k else { (k.close (fun _ => true) .missed) with missed := k.missed ++ (k.ntq.filter (·.live)).map (·.id) }
      else k
    | none => k)

/-- HOLD_MS_EXPIRY: the hold has lasted HOLD_MS, and LINK_LOSS is set, on every channel of the die whose hold ends with this one
(R105, R107, R108). -/
def execHoldMsExpiry (ch : Chan) (s : State) : Host.Outcome State Fault Refusal :=
  .next (s.modDie ch.die fun d =>
    match (d.chan ch.c).holdEnd with
    | some t =>
      if t ≤ s.clk.elapsed then
        let cs := allC.filter fun c => (d.chan c).holdEnd == some t
        (cs.foldl (fun x c => x.modCh c fun k => { k with hold := none }) d).setCauses ch.die (d.q s.quality) 2 cs
      else d
    | none => d)

/-- RAMP_STEP: a device-time multiple of 10 µs in a RAMP safe state (R104). -/
def execRampStep (ch : Chan) (s : State) : Host.Outcome State Fault Refusal :=
  .next (s.modDie ch.die fun d =>
    match (d.chan ch.c).out.ramp with
    | some t => if d.past t && (d.chan ch.c).isSafe && Img.kind (d.govern ch.c) == 3 then d.modCh ch.c fun k => { k with out := k.out.rampStep (d.govern ch.c) t } else d
    | none => d)

/-- ISOLATED_POWER_LOST: the hold-up store is exhausted: every output is off in hardware (R108 row 1, R256). -/
def execIsolatedPowerLost (d : DieId) (s : State) : Host.Outcome State Fault Refusal :=
  .next (s.modDie d fun k =>
    let k := allC.foldl (fun x c => x.modCh c fun ch => { ch with out := ch.out.turnOff k.replica, fsk := ch.fsk.stop }) k
    { k with isoPower := false })

end Sys2Proof.Machine
end

