-- ==== Sys2Proof/Machine/Diag.lean ====
section
/-! DEFINITION. Terminal and output diagnostics of a channel (R88, R95 to R103, R114, R439, R440) and `FaultClear`'s part
on the die (R109). A row of this file is the instant at which the named condition is confirmed. -/

namespace Sys2Proof.Machine
open Sys2Proof

/-- The hub's time quality as the die stamps it. -/
def State.dq (s : State) (d : DieId) : Nat := (s.die d).q s.quality

/-- OVERRANGE_CONFIRM: every result beyond 2^30 for 10 ms, or within range for 10 ms (R88). -/
def execOverrangeConfirm (ch : Chan) (isOver : Bool) (s : State) : Host.Outcome State Fault Refusal :=
  .next (s.modDie ch.die fun d =>
    let k := d.chan ch.c
    let since := if isOver then k.chain.overSince else k.chain.inSince
    if hasChain k.mode && k.trans.isNone && k.diag.overr != isOver && since.any fun t => d.past (t + 10 * ms) then
      (d.modCh ch.c fun k => { k with diag := { k.diag with overr := isOver } }).evCh ch (s.dq ch.die) .overrange isOver []
    else d)

/-- A channel has an open-wire test that runs (R97). The tests of mode 0x1, and those of the signal and sense lines that the odd
channel of a pair carries in modes 0x4 and 0x5, need a test current. -/
def hasOpenTest (i : ChanImg) (odd : Bool) : Bool :=
  match Img.mode i with
  | 0 | 7 | 13 => false
  | 1 => fld i.diag 0 2 != 0 && (Img.owIo i || Img.owSn i)
  | 4 | 5 => !odd || fld i.diag 0 2 != 0
  | m => decide (m ≤ 12)

/-- One open-wire test result: OW_FILT consecutive results set or clear OPEN (R98). -/
def Diag.openResult (g : Diag) (filt : Nat) (isOpen : Bool) : Diag :=
  let bad := if isOpen then g.owBad + 1 else 0
  let good := if isOpen then 0 else g.owGood + 1
  let n := if filt = 0 then g.openW
    else if decide (filt ≤ bad) && !g.openW then true
    else if decide (filt ≤ good) && g.openW then false
    else g.openW
  { g with owBad := bad, owGood := good, openW := n }

/-- OPEN_WIRE_RESULT on a die that works, of a channel or of a group's terminal (R97, R98, R239, R332). -/
def execOpenWireResult (ch : Chan) (isOpen : Bool) (s : State) : Host.Outcome State Fault Refusal :=
  .next (s.modDie ch.die fun d =>
    let i := d.govern ch.c
    let was := (d.chan ch.c).diag.openW
    if d.on && hasOpenTest (d.chan ch.c).img (d.chan ch.c).odd && (d.chan ch.c).trans.isNone then
      let d1 := d.modDiag ch.c (·.openResult (Img.owFilt i) isOpen)
      let now := (d1.chan ch.c).diag.openW
      if now != was then d1.evUnit ch (s.dq ch.die) .openWire now else d1
    else d)

/-- Class of a terminal voltage in mV: 1 at Fd_FG below 1 V, 2 at Fd_LP above 15 V, 0 floating (R96, R114). -/
def termClass (mV : Int) : Nat := if mV < 1000 then 1 else if 15000 < mV then 2 else 0

/-- TERMINAL_MONITOR_RESULT on the IO or the SN terminal; the auxiliary converter is off outside Run and Idle (R96, R325). -/
def execTerminalMonitorResult (ch : Chan) (sn : Bool) (mV : Int) (s : State) : Host.Outcome State Fault Refusal :=
  .next (s.modDie ch.die fun d =>
    let k := d.chan ch.c
    let was := if sn then k.diag.termSn else k.diag.termIo
    if d.on && k.mode = 0 && Img.termMon k.img then
      let d1 := d.modCh ch.c fun k =>
        { k with diag := (if sn then { k.diag with termSn := termClass mV } else { k.diag with termIo := termClass mV }) }
      if termClass mV ≠ was then d1.evCh ch (s.dq ch.die) .terminalVoltage false [] else d1
    else d)

/-- A latching diagnostic on an output: the driver, or the whole group, goes off and latches; the event names the lowest
channel of a group and carries the member mask (R100, R239). -/
def Die.trip (d : Die) (ch : Chan) (q : Nat) (e : Ev) (f : Diag → Diag) : Die :=
  (d.latchUnit ch.c f).evUnit ch q e true

/-- The diagnostics of R100 run on this output: an output mode in force (R440). -/
def Channel.watched (k : Channel) : Bool := isOutMode k.mode && k.trans.isNone

/-- OVERLOAD_CONFIRM after 100 µs (R100). -/
def execOverloadConfirm (ch : Chan) (s : State) : Host.Outcome State Fault Refusal :=
  .next (s.modDie ch.die fun d =>
    let k := d.chan ch.c
    if k.watched && decide (k.mode ≤ 10) && k.out.drive then
      d.trip ch (s.dq ch.die) .overload fun g => { g with overload := true }
    else d)

/-- SHORT_FG_CONFIRM after 100 µs (R100). -/
def execShortFgConfirm (ch : Chan) (s : State) : Host.Outcome State Fault Refusal :=
  .next (s.modDie ch.die fun d =>
    let k := d.chan ch.c
    if k.watched && k.mode != 11 && k.out.drive then
      d.trip ch (s.dq ch.die) .shortFg fun g => { g with shortFg := true }
    else d)

/-- THERMAL_CONFIRM after 10 µs (R100). -/
def execThermalConfirm (ch : Chan) (s : State) : Host.Outcome State Fault Refusal :=
  .next (s.modDie ch.die fun d =>
    if (d.chan ch.c).watched then d.trip ch (s.dq ch.die) .thermal fun g => { g with thermal := true } else d)

/-- Channels that drive on the die, one per group, other than those bound with A (R102, R239). -/
def Die.outputsBut (d : Die) (a : ChanId) : List ChanId :=
  let own := d.unit a
  allC.filter fun c => isOutMode (d.chan c).mode && !own.contains c &&
    (match (d.chan c).group with | some g => decide (g = c) | none => true)

/-- `x` is within [t − f − 20 µs, t − f]. -/
def inWindow (x : Option Tick) (t f : Nat) : Bool :=
  match x with
  | some v => decide (t ≤ v + f + 20 * us) && decide (v + f ≤ t)
  | none => false

/-- EV_FOREIGN_DRIVE naming A and B: FOREIGN on both, on a group on all of its members, and their safe states where FD_SAFE is set
(R102, R103, R239). -/
def Die.foreignDrive (d : Die) (di : DieId) (q : Nat) (a b : ChanId) : Die :=
  let cs := d.together a ++ d.together b
  let d1 := d.modDiag a fun g => { g with foreign := true, foreignWith := some b, foreignOwn := true, bfAlone := false }
  let d2 := d1.modDiag b fun g => { g with foreign := true, foreignWith := some a, foreignOwn := false }
  let d3 := d2.evCh ⟨di, a⟩ q .foreignDrive true (leBytes 2 (maskOf cs))
  d3.setCauses di q 3 (cs.filter fun c => Img.fdSafe (d3.govern c))

/-- BACKFEED_CONFIRM: backfeed held through BF_FILT; modes 0xB and 0xC latch; one candidate gives EV_FOREIGN_DRIVE too
(R100, R102). A group's backfeed is that of its terminal (R239). -/
def execBackfeedConfirm (ch : Chan) (s : State) : Host.Outcome State Fault Refusal :=
  .next (s.modDie ch.die fun d =>
    let k := d.chan ch.c
    let q := s.dq ch.die
    let f := Img.bfFilt (d.govern ch.c)
    let analogue := k.mode = 11 || k.mode = 12
    if k.watched && !k.diag.backfeed && (analogue || !k.out.drive) then
      let d1 := if analogue then d.latchUnit ch.c fun g => { g with backfeed := true, bfLatch := true, bfCond := true }
        else d.modDiag ch.c fun g => { g with backfeed := true, bfCond := true }
      let d2 := d1.evUnit ch q .backfeed true
      match (d2.outputsBut ch.c).filter fun b => (d2.chan b).out.high && inWindow (d2.chan b).out.onAt d.replica f with
      | [b] => d2.foreignDrive ch.die q (d2.named ch.c) b
      | _ => d2.modDiag ch.c fun g => { g with bfAlone := true }
    else d)

/-- A backfeed that is not latched clears: the flag and EV_BACKFEED with state 0 (R439). -/
def Die.backfeedClear (d : Die) (ch : Chan) (q : Nat) : Die :=
  (d.modDiag ch.c fun g => { g.backfeedOver with bfCond := false }).evUnit ch q .backfeed false

/-- BACKFEED_CLEAR: V(IO) below 3 V for the filter. A latched backfeed keeps its flag. An uncorrelated backfeed is correlated with
the channel that went off one filter time before (R100, R102, R109, R439). That the row tells the end of a latched backfeed of modes 0xB
and 0xC too, to which R100 gives no clear condition, and that its correlation happens then, also after `FaultClear` has cleared the
latch, is a DESIGN CHOICE (log 30). -/
def execBackfeedClear (ch : Chan) (s : State) : Host.Outcome State Fault Refusal :=
  .next (s.modDie ch.die fun d =>
    let k := d.chan ch.c
    let q := s.dq ch.die
    let f := Img.bfFilt (d.govern ch.c)
    if k.diag.bfCond then
      let d1 := if k.diag.backfeed && !k.diag.bfLatch then d.backfeedClear ch q
        else d.modDiag ch.c fun g => { g with bfCond := false, bfAlone := false }
      if k.diag.bfAlone then
        match (d1.outputsBut ch.c).filter fun b => inWindow (d1.chan b).out.offAt d.replica f with
        | [b] => d1.foreignDrive ch.die q (d1.named ch.c) b
        | _ => d1
      else d1
    else d)

/-- LP_UNDERVOLT_CONFIRM: Fd_LP below 15 V for 10 µs latches every output channel; one event per episode, at its first
confirmation, with the mask of the channels latched (R100, R440). From then on Fd_LP counts as low. -/
def execLpUndervoltConfirm (d : DieId) (s : State) : Host.Outcome State Fault Refusal :=
  .next (s.modDie d fun k =>
    let q := s.dq d
    let all := allC.filter fun c => (k.chan c).watched
    let new := all.filter fun c => !(k.chan c).diag.lpUv
    let k1 := new.foldl (fun x c => (x.missOut c).modCh c (·.latch (fun g => { g with lpUv := true }) k.replica)) { k with uvLow := true }
    if k.uvEp then new.foldl (fun x c => x.modHdr (chPage c) (·.condition 7)) k1
    else { (k1.raiseMask d all .lpUndervolt k.replica q true (leBytes 2 (maskOf all))) with uvEp := true })

/-- Fd_LP counts as low no longer: an output that it kept off without a latch does what its state gives it (R100, R109, R440). -/
def Die.lpBack (d : Die) : Die :=
  let t := d.replica
  if d.uvLow then
    (allC.filter fun c => (d.chan c).watched && !(d.chan c).latched).foldl (fun x c => x.modCh c fun k =>
      if k.isSafe then { k with out := k.out.safe (d.govern c) t } else k.resumeOut (d.govern c) true t) { d with uvLow := false }
  else d

/-- LP_UNDERVOLT_EPISODE_END: Fd_LP at 15 V or above for 10 µs (R440). -/
def execLpUndervoltEpisodeEnd (d : DieId) (s : State) : Host.Outcome State Fault Refusal :=
  .next (s.modDie d fun k => { k.lpBack with uvEp := false })

/-- An off-pulse may run: OPT_EN, on in mode 0x8 or high in mode 0x9, by the instants T of the entries (R101, R233). -/
def Channel.pulseable (k : Channel) (g : ChanImg) (now : Tick) : Bool :=
  Img.optEn g && (k.mode = 8 || k.mode = 9) && (if k.out.ahead now then k.out.wasHigh else k.out.high) && k.trans.isNone
/-- A pulse begins: the driver goes off. One whose entry's gate command came before it ends at that entry's T with no result, and is
counted (R101, R233). -/
def Output.beginPulse (o : Output) (now : Tick) : Output :=
  if o.ahead now then { o with optSkip := satInc o.optSkip } else { o with drive := false, pulse := some now }

/-- OFF_PULSE_START at k · PERIOD + c · 250 µs, on a group at its lowest channel's instants (R101, R239); once for an instant, on a die
that works (R332). -/
def execOffPulseStart (ch : Chan) (s : State) : Host.Outcome State Fault Refusal :=
  .next (s.modDie ch.die fun d =>
    let g := d.govern ch.c
    let p := Img.optPeriod g * ms
    if d.on && d.named ch.c == ch.c && (d.chan ch.c).out.pulse.isNone && (d.chan ch.c).pulseable g d.replica &&
        decide (d.replica % p = (ch.c.val * 250 * us) % p) then
      (d.together ch.c).foldl (fun x c => x.modCh c fun k => { k with out := k.out.beginPulse d.replica }) d
    else d)

/-- The driver does what the value of its mode commands (R101). -/
def Output.driven (o : Output) (m : Nat) : Bool := if m = 9 then decide (o.value ≠ 2) else decide (o.value = 1)
/-- A pulse ends (R101). -/
def Output.endPulse (o : Output) (m : Nat) (now : Tick) (good : Bool) : Output :=
  { o with drive := o.driven m, pulse := none, lastPulse := some (now, good) }
/-- The off-pulse test stops with the entry into Sleep, where the output keeps the value applied last: an open pulse ends without a result
(R101, R332; that it is not counted is a DESIGN CHOICE, log 31). -/
def Output.dropPulse (o : Output) (m : Nat) : Output := if o.pulse.isSome then { o with drive := o.driven m, pulse := none } else o

/-- OFF_PULSE_END after 200 µs with V(IO) in mV, on a die that works: above 5 V is a short to L+ (R100, R101, R103, R332). -/
def execOffPulseEnd (ch : Chan) (vioMv : Int) (s : State) : Host.Outcome State Fault Refusal :=
  .next (s.modDie ch.die fun d =>
    match (d.chan ch.c).out.pulse with
    | none => d
    | some t =>
      if d.on && d.past (t + 200 * us) then
        let good := decide (vioMv ≤ 5000)
        let d1 := Die.backfeedLeft d ((d.together ch.c).foldl (fun x c => x.modCh c fun k =>
          { k with out := k.out.endPulse k.mode d.replica good }) d) ch.die (s.dq ch.die) (d.together ch.c)
        if good then d1
        else
          let d2 := (d1.modDiag ch.c fun g => { g with shortLp := true }).evUnit ch (s.dq ch.die) .shortLp true
          if Img.slpSafe (d2.govern ch.c) then d2.setCauses ch.die (s.dq ch.die) 4 (d2.together ch.c) else d2
      else d)

/-- SHUNT_OPEN: the shunt path opens at 50 mA in modes 0x2 and 0x3 (R95). -/
def execShuntOpen (ch : Chan) (s : State) : Host.Outcome State Fault Refusal :=
  .next (s.modDie ch.die fun d =>
    let k := d.chan ch.c
    if (k.mode = 2 ∨ k.mode = 3) ∧ k.trans = none ∧ k.diag.shunt = false then
      (d.modCh ch.c fun k => { k with diag := { k.diag with shunt := true, shuntAt := some s.clk.elapsed } }).evCh ch (s.dq ch.die)
        .inputOvercurrent true []
    else d)

/-- SHUNT_RECLOSE_TRIAL every 100 ms from the opening (R95). -/
def execShuntRecloseTrial (ch : Chan) (s : State) : Host.Outcome State Fault Refusal :=
  .next (s.modCh ch fun k =>
    if k.diag.shuntAt.all fun t => decide (t + 100 * ms ≤ s.clk.elapsed) then { k with diag := { k.diag with shunt := false } } else k)

/-- CURRENT_LIMIT_FOLDBACK: the loop supply after 1 ms at 30 mA, or an excitation at 50 mA, folds back to 5 mA (R95). -/
def execCurrentLimitFoldback (ch : Chan) (s : State) : Host.Outcome State Fault Refusal :=
  .next (s.modDie ch.die fun d =>
    let k := d.chan ch.c
    if (k.mode = 3 ∨ k.mode = 4 ∨ k.mode = 5) ∧ k.trans = none ∧ k.diag.fold = false then
      (d.modCh ch.c fun k => { k with diag := { k.diag with fold := true, foldAt := some s.clk.elapsed } }).evCh ch (s.dq ch.die)
        .shortFg true []
    else d)

/-- FOLDBACK_RETRY: the loop supply of mode 0x3 retries at 30 mA every 100 ms (R95). -/
def execFoldbackRetry (ch : Chan) (s : State) : Host.Outcome State Fault Refusal :=
  .next (s.modCh ch fun k =>
    if k.mode = 3 ∧ (k.diag.foldAt.all fun t => decide (t + 100 * ms ≤ s.clk.elapsed)) = true then { k with diag := { k.diag with fold := false } }
    else k)

/-! ### FaultClear on the die (R109) -/

/-- FOREIGN may clear: the backfeed on the confirmed channel has been absent throughout its BF_FILT, by the clear condition (R109). Once
told, that stands (log 30). While the channel drives, no clear condition is watched, and `low` says whether V(IO) stood below 3 V. -/
def Die.foreignGone (d : Die) (c : ChanId) (low : Bool) : Bool :=
  let k := d.chan c
  let a : ChanId := if k.diag.foreignOwn then c else k.diag.foreignWith.getD c
  let x := d.chan a
  !x.diag.bfCond || (x.out.drive && low)

/-- SHORT_LP may clear (R109); `low` says that V(IO) stood below 3 V throughout BF_FILT. -/
def Die.shortLpGone (d : Die) (c : ChanId) (low : Bool) : Bool :=
  let k := d.chan c
  let f := Img.bfFilt (d.govern c)
  let off := !k.out.drive && k.out.pulse.isNone && low && !k.diag.bfCond &&
    (match k.out.offSince with | some t => decide (t + f ≤ d.replica) | none => true)
  off || (match k.out.lastPulse with | some (t, ok) => ok && decide (d.replica ≤ t + f) | none => false)

/-- What the hub and the plant add to the conditions of `FaultClear`: a hub holds the lease, the lane is trained, the
thermal sensor, Fd_LP and V(IO) conditions of Config.gone. -/
structure ClearCtx where
  leased  : Bool
  trained : Bool
  cool    : Bool
  lpBack  : Bool
  vioLow  : Bool
  deriving DecidableEq, Repr

/-- The causes and latches of one channel that a `FaultClear` clears now (R109). HOST, WATCHDOG and SKEW are lowered by
the hub. -/
def Die.clearCh (d : Die) (c : ChanId) (x : ClearCtx) (resume : Bool) : Die :=
  let fg := d.foreignGone c x.vioLow
  let sg := d.shortLpGone c x.vioLow
  let run := d.pwr == .run
  d.modCh c fun k =>
    let bits : Nat := putBit x.leased 0 + putBit x.trained 1 + putBit (!d.levels[c.val].hold) 2 + putBit fg 3 + putBit sg 4 +
      putBit run 5
    let k1 := { k with
      cause := k.cause &&& ~~~(BitVec.ofNat 11 bits)
      resume := resume
      diag := { k.diag with
        foreign := k.diag.foreign && !fg
        foreignWith := (if fg then none else k.diag.foreignWith)
        foreignOwn := k.diag.foreignOwn && !fg
        shortLp := k.diag.shortLp && !sg
        thermal := k.diag.thermal && !x.cool
        lpUv := k.diag.lpUv && !x.lpBack
        overload := false
        shortFg := false
        bfLatch := false
        backfeed := k.diag.backfeed && !k.diag.bfLatch } }
    Channel.afterClear k k1 (d.govern c) resume d.replica

/-- The channels that a `FaultClear` on a channel can change: its group, and the other channel of its FOREIGN, with its group (R109,
R112). -/
def Die.clears (d : Die) (c : ChanId) : List ChanId :=
  d.together c ++ (match (d.chan c).diag.foreignWith with | some b => d.together b | none => [])
/-- `FaultClear` on a named channel: a group clears as a whole, and FOREIGN clears on both channels (R109, R239); an output that
resumes leaves its backfeed (R439). Where it finds Fd_LP at 16 V or above, an open episode of undervoltage keeps no driver off any more
(R109, R440). -/
def Die.faultClear (d : Die) (di : DieId) (q : Nat) (c : ChanId) (x : ClearCtx) (resume : Bool) : Die :=
  let k := d.chan c
  let cs := d.together c
  let pair := match k.diag.foreignWith with
    | some b => if d.foreignGone c x.vioLow then d.together b else []
    | none => []
  let d1 := cs.foldl (fun y m => y.clearCh m x resume) (if k.diag.lpUv && x.lpBack then d.lpBack else d)
  let d2 := pair.foldl (fun y b => y.modCh b fun k =>
    let k1 := { k with cause := k.cause &&& ~~~8#11, diag := { k.diag with foreign := false, foreignWith := none, foreignOwn := false } }
    Channel.afterClear k k1 (y.govern b) resume y.replica) d1
  Die.backfeedLeft d d2 di q (cs ++ pair)

end Sys2Proof.Machine
end

