-- ==== Sys2Proof/Machine/Outputs.lean ====
section
/-! DEFINITION. Outputs: edge compensation, PWM, groups and the FSK modem (R233 to R250). -/

namespace Sys2Proof.Machine
open Sys2Proof

/-! ### Edge placement (R233 to R235) -/

/-- Fd_LP as last measured, 24 V before the first measurement (R234). -/
def Die.vlp (d : Die) : Nat := if d.lpMv = 0 then 24000 else d.lpMv
/-- Bounds of the fixed compensation at 24 V for a slew setting, in ticks (R234). -/
def compBounds (slew : Nat) : Int × Int :=
  match slew with
  | 0 => (13500, 22500)
  | 1 => (3000, 4800)
  | _ => (900, 1500)
/-- Fixed compensation of a direction: trimmed per part at 24 V, and scaled to the measured V(Fd_LP); both are free within their bounds,
which the second has from 18 V to 32 V (R234). -/
def fixedComp (di : DieId) (c : ChanId) (slew : Nat) (rising : Bool) (vlp : Nat) : Int :=
  let b := compBounds slew
  let base := clampInt b.1 b.2 (Config.driverDelay di.val c.val slew rising 24000)
  let v := Config.driverDelay di.val c.val slew rising vlp
  if vlp = 24000 then base
  else if 18000 ≤ vlp ∧ vlp ≤ 32000 then clampInt (base - base / 10) (base + base / 10) v else v


/-- The channel whose compensation a channel's edges have: the lowest of its group, or itself (R238). -/
def Die.lowest (d : Die) (c : ChanId) : ChanId := (d.chan c).group.getD c
/-- The compensation of a direction in force: 0 with PRECOMP 0, the fixed value with 1, the adaptive one with 2; a group's is its lowest
channel's (R233 to R235, R238, R254). -/
def Die.compOf (d : Die) (di : DieId) (c : ChanId) (rising : Bool) : Int :=
  let g := d.govern c
  let l := d.lowest c
  let o := (d.chan l).out
  let f := fixedComp di l (Img.slew g) rising d.vlp
  match Img.precomp g with
  | 0 => 0
  | 2 => (if rising then o.compRise else o.compFall).getD f
  | _ => f

/-- By how much the gate command of an edge precedes its T (R233). -/
def Die.comp (d : Die) (di : DieId) (c : ChanId) (rising : Bool) : Int :=
  let m := (d.chan c).mode
  if m = 8 ∨ m = 9 ∨ m = 10 then d.compOf di c rising else 0

/-- A compensation after an edge with error e: it moves by round(e / 16) and stays within ±2 µs of the fixed value; the
second item says that it is held at that bound (R235). -/
def adapt (comp fixed e : Int) : Int × Bool :=
  let v := comp + divRound e 16
  let lo := fixed - 2 * us
  let hi := fixed + 2 * us
  (clampInt lo hi v, decide (v ≤ lo ∨ hi ≤ v))

/-- A readback crossing measures the last commanded edge with PRECOMP 2 (R235): EDGE_ERR, the direction's compensation and its bound.
`crossing` is the 50 % crossing. A group's compensation moves by the edges of its lowest channel; those of another member are measured
only (R238). -/
def Die.measureEdge (d : Die) (ch : Chan) (q : Nat) (crossing : Int) (rising : Bool) : Die :=
  let k := d.chan ch.c
  let g := d.govern ch.c
  match k.out.edge with
  | some (t, r) =>
    if r = rising && Img.precomp g = 2 && decide (d.lowest ch.c ≠ ch.c) then
      d.modCh ch.c fun k => { k with out := { k.out with edge := none, edgeErr := clampInt (-32768) 32767 (crossing - t) } }
    else if r = rising && Img.precomp g = 2 then
      let e : Int := crossing - t
      let f := fixedComp ch.die ch.c (Img.slew g) rising d.vlp
      let a := adapt (d.compOf ch.die ch.c rising) f e
      let run := if a.2 then (if rising then k.out.limRise else k.out.limFall) + 1 else 0
      let hit := decide (16 ≤ run) && !k.out.compLimit
      let d1 := d.modCh ch.c fun k =>
        { k with out := { k.out with
            edge := none
            edgeErr := clampInt (-32768) 32767 e
            compRise := (if rising then some a.1 else k.out.compRise)
            compFall := (if rising then k.out.compFall else some a.1)
            limRise := (if rising then run else k.out.limRise)
            limFall := (if rising then k.out.limFall else run)
            compLimit := k.out.compLimit || decide (16 ≤ run) } }
      if hit then d1.evCh ch q .edgeCompLimit false [] else d1
    else d
  | none => d

/-! ### PWM (R236, R237) -/

/-- The first instant after t at which a queued entry cuts the channel's period: PWM_PERIOD or OUT_SET 0 (R236, R237). -/
def Die.cutAfter (d : Die) (c : ChanId) (t : Tick) : Option Tick :=
  ((d.ntq.filter fun e => e.live && decide (e.ch.c = c) && decide (t < e.e.time.toNat) &&
    (e.e.op == 5 || (e.e.op == 3 && e.e.param == 0#32))).map (·.e.time.toNat)).min?

/-- A period of length P that begins at t ends at t + P, or where an entry cuts it before (R236). -/
def periodStop (p t : Nat) (cut : Option Tick) : Tick := match cut with | some x => min x (t + p) | none => t + p
/-- A phase of that length is omitted; a phase of no length is no phase (R237). -/
def tooShort (minp len : Nat) : Bool := decide (0 < len ∧ len < minp)
/-- A period of length P and duty u begins at t, cut at `cut`: whether the high phase is too short, whether the low phase is, and the
instant the high phase ends (R236, R237). -/
def pwmPhases (p u t minp : Nat) (cut : Option Tick) : Bool × Bool × Tick :=
  let e := t + pwmHigh p u
  let stop := periodStop p t cut
  (tooShort minp (min e stop - t), tooShort minp (stop - e), e)

/-- A period begins at t with the P and u stored; an omitted high phase is counted, and with it the low phase where that is too short
as well; a low phase after a high one is judged where it would begin (R236, R237). -/
def Output.beginPeriod (o : Output) (minp : Nat) (t : Tick) (cut : Option Tick) : Output :=
  let x := pwmPhases o.period o.duty t minp cut
  let high := decide (0 < pwmHigh o.period o.duty) && !x.1
  { o with
    pk := t
    value := (if high then 1 else 0)
    hEnd := (if high then x.2.2 else t)
    nextPk := some (t + o.period)
    edge := (if high && o.value != 1 then some (t, true) else if !high && o.value == 1 then some (t, false) else o.edge)
    clip := satAdd o.clip (if x.1 then (if x.2.1 then 2 else 1) else 0) }

/-- By how much the gate command of the edge at a period's start precedes p_k: by the compensation of that edge's direction, which is
down where the high phase does not come and the output is still high, and by nothing where there is no edge (R233, R237). -/
def Die.periodLead (d : Die) (di : DieId) (c : ChanId) : Int :=
  let o := (d.chan c).out
  match o.nextPk with
  | some t =>
    let n := o.beginPeriod (minPhase (Img.slew (d.govern c))) t (d.cutAfter c t)
    if n.value = o.value then 0 else d.comp di c (n.value == 1)
  | none => 0
/-- An output entry of the channel with a TIME up to t has not yet acted: entries with the TIME of a period's start act with it, in one
step (R236). -/
def Die.outWaits (d : Die) (c : ChanId) (t : Tick) : Bool :=
  d.on && d.ntq.any fun e => e.phase == .queued && decide (e.ch.c = c) && decide (3 ≤ e.e.op ∧ e.e.op ≤ 5) && decide (e.e.time.toNat ≤ t)
/-- PWM_PERIOD_START at p_k, less the compensation: PWM_PERIOD and PWM_DUTY entries that waited for it retire as executed, unless a
readback sample is still to come (R59, R79, R233, R236). An entry on a stopped channel waits for the first period after it starts; the
spec gives it no earlier end (DESIGN CHOICE, log 64). -/
def execPwmPeriodStart (ch : Chan) (s : State) : Host.Outcome State Fault Refusal :=
  .next (s.modDie ch.die fun d =>
    let k := d.chan ch.c
    match k.out.nextPk with
    | some t =>
      if d.on && decide ((t : Int) - d.periodLead ch.die ch.c ≤ d.replica) && k.mode = 10 && k.out.run && k.trans.isNone && !d.outWaits ch.c t then
        let cut := d.cutAfter ch.c t
        let m := minPhase (Img.slew (d.govern ch.c))
        let d := d.modCh ch.c fun k => { k with out := k.out.beginPeriod m t cut }
        d.close (fun e => e.phase == .active && decide (e.ch.c = ch.c) && (e.e.op == 4 || e.e.op == 5) && !e.e.readback) .executed
      else d
    | none => d)

/-- How long the low phase after the running high one lasts: to the period's end, or to the entry that cuts it, which may have come into
the queue since the period began; nothing where the cut falls in the high phase (R236, R237). -/
def Die.lowLen (d : Die) (c : ChanId) : Nat :=
  let o := (d.chan c).out
  periodStop o.period o.pk (d.cutAfter c o.pk) - o.hEnd
/-- PWM_DUTY_END at p_k + h, less the compensation: the output goes low, unless the low phase is omitted, which is counted, or does not
come (R233, R236, R237). -/
def execPwmDutyEnd (ch : Chan) (s : State) : Host.Outcome State Fault Refusal :=
  .next (s.modDie ch.die fun d =>
    let k := d.chan ch.c
    if d.on && k.mode = 10 && k.out.run && k.out.value == 1 && decide (k.out.hEnd < k.out.pk + k.out.period) &&
        decide ((k.out.hEnd : Int) - d.comp ch.die ch.c false ≤ d.replica) then
      d.modCh ch.c fun k => { k with out :=
        (if d.lowLen ch.c = 0 then k.out
        else if tooShort (minPhase (Img.slew (d.govern ch.c))) (d.lowLen ch.c) then
          { k.out with hEnd := k.out.pk + k.out.period, clip := satInc k.out.clip }
        else { k.out with value := 0, edge := some (k.out.hEnd, false) }) }
    else d)

/-! ### Groups (R240) -/

/-- Worst deviation from the mean in 0.1 % of the mean, and the member (R240, R252); currents in µA. -/
def worstShare (xs : List Nat) : Nat × Nat :=
  let n := xs.length
  let sum := xs.sum
  let dev (x : Nat) : Nat := if sum = 0 then 0 else (1000 * Int.natAbs ((n * x : Nat) - (sum : Int))) / sum
  (xs.zipIdx.foldl (fun b p => if b.1 < dev p.1 then (dev p.1, p.2) else b) (0, 0))

/-- SHARE_COMPARE every 1 ms on the lowest channel of a group that is on; the ten comparisons beyond 15 % are one member's (R240). -/
def execShareCompare (ch : Chan) (currents : List Nat) (s : State) : Host.Outcome State Fault Refusal :=
  .next (s.modDie ch.die fun d =>
    let k := d.chan ch.c
    let us' := d.unit ch.c
    if k.out.shareAt.any fun t => decide (s.clk.elapsed < t + ms) then d
    else if k.group = some ch.c && k.out.high && decide (currents.length = us'.length) &&
        decide (100000 * us'.length ≤ currents.sum) then
      let w := worstShare currents
      let n := currents.length
      let sum := currents.sum
      let in12 := currents.all fun x => decide (100 * Int.natAbs ((n * x : Nat) - (sum : Int)) ≤ 12 * sum)
      let bad := currents.zipIdx.map fun p =>
        if 15 * sum < 100 * Int.natAbs ((n * p.1 : Nat) - (sum : Int)) then k.out.shareBad.getD p.2 0 + 1 else 0
      let good := if in12 then k.out.shareGood + 1 else 0
      let now := if k.out.imbal then decide (good < 10) else bad.any fun x => decide (10 ≤ x)
      let member := ch.c.val + w.2
      let d1 := d.modCh ch.c fun k => { k with out := { k.out with
        shareBad := bad, shareGood := good, imbal := now, shareAt := some s.clk.elapsed
        share := BitVec.ofNat 32 (putFld (min w.1 65535) 0 16 + putFld member 16 4) } }
      if now != k.out.imbal then
        d1.evCh ch (s.dq ch.die) .shareImbalance now (leBytes 2 (maskOf us') ++ leBytes 1 member)
      else d1
    else d)

/-! ### FSK (R246 to R249) -/

/-- The FSK entry in progress ends by itself: its record is written and it retires as executed (R247, R248). -/
def Die.endFsk (d : Die) (ch : Chan) (cut : Bool) (timeout : Bool) : Die :=
  d.stopFsk ch.c cut (if timeout then 5 else 0) .executed

/-- FSK_TRANSMIT_END at tw: the carrier stops and the receive window opens; a carrier that is there already is detected (R247). -/
def execFskTransmitEnd (ch : Chan) (s : State) : Host.Outcome State Fault Refusal :=
  .next (s.modDie ch.die fun d =>
    match (d.chan ch.c).fsk.run with
    | some r => if d.past r.tw && (d.chan ch.c).fsk.tx then
        let q := d.q (s.qualityOf r.tw)
        d.modCh ch.c fun k => { k with fsk := { k.fsk with
          tx := false, rx := true, run := some { r with carrier := r.carrier || k.fsk.cd, q := q } } }
      else d
    | none => d)

/-- FSK_CARRIER_DETECT (R246, R247). -/
def execFskCarrierDetect (ch : Chan) (s : State) : Host.Outcome State Fault Refusal :=
  .next (s.modCh ch fun k =>
    if (k.mode = 3 ∨ k.mode = 11) ∧ Img.fskOn k.img = true then
      { k with fsk := { k.fsk with cd := true, run := k.fsk.run.map fun r => { r with carrier := r.carrier || k.fsk.rx } } }
    else k)

/-- One received octet: stored as received, errors counted; octets beyond NRX are counted only (R247, R248, R252). `q`: the quality
code of its start bit. -/
def Fsk.octet (f : Fsk) (nrx : Nat) (o : Byte) (pe fe : Bool) (start : Tick) (q : Nat) : Fsk :=
  match f.run with
  | none => if f.overrun then { f with beyond := satTo 255 (f.beyond + 1) } else f
  | some r =>
    if nrx ≤ r.octets.length then { f with beyond := satTo 255 (f.beyond + 1) }
    else
      { f with
        parityErr := satTo 4095 (f.parityErr + (if pe then 1 else 0))
        framingErr := satTo 4095 (f.framingErr + (if fe then 1 else 0))
        run := some { r with
          octets := r.octets ++ [o]
          parity := r.parity || pe
          framing := r.framing || fe
          firstErr := (match r.firstErr with | some i => some i | none => if pe || fe then some r.octets.length else none)
          time0 := (match r.time0 with | some t => some t | none => some start)
          q := (if r.time0.isSome then r.q else q)
          carrier := true } }

/-- FSK_OCTET_RECEIVE while the receive window is open, or beyond NRX octets (R247, R248, R252). -/
def execFskOctetReceive (ch : Chan) (octet : Byte) (parityErr framingErr : Bool) (start : Tick) (s : State) :
    Host.Outcome State Fault Refusal :=
  .next (s.modDie ch.die fun d =>
    let k := d.chan ch.c
    match k.fsk.run with
    | some r =>
      let nrx := match d.queued r.id with | some e => e.e.nrx | none => 252
      if k.fsk.rx then
        let q := d.q (s.qualityOf start)
        d.modCh ch.c fun k => { k with fsk := k.fsk.octet nrx octet parityErr framingErr start q }
      else d
    | none => d.modCh ch.c fun k => { k with fsk := k.fsk.octet 0 octet parityErr framingErr start 0 })

/-- FSK_TIMEOUT at tw + TMO · b with no carrier: record STATUS 5 (R247, R248). -/
def execFskTimeout (ch : Chan) (s : State) : Host.Outcome State Fault Refusal :=
  .next (s.modDie ch.die fun d =>
    let k := d.chan ch.c
    match k.fsk.run with
    | some r =>
      let tmo := match d.queued r.id with | some e => e.e.tmo | none => 0
      if k.fsk.rx && !r.carrier && d.past (r.tw + tmo * bitTime) then d.endFsk ch false true else d
    | none => d)

/-- Reception has reached its end: the carrier is off, NRX octets are there, or the span end, as admitted, has come (R247). -/
def Die.fskOver (d : Die) (r : FskRun) (carrier : Bool) : Bool :=
  !carrier || (match d.queued r.id with
    | some e => decide (e.e.nrx ≤ r.octets.length) || d.past e.plan.hi
    | none => true)

/-- Reception was cut: NRX octets with the carrier still there, or fewer of them at the span end (R248). -/
def Die.fskCut (d : Die) (r : FskRun) (carrier : Bool) : Bool :=
  match d.queued r.id with
  | some e => if e.e.nrx ≤ r.octets.length then carrier else d.past e.plan.hi
  | none => carrier
/-- FSK_RECEPTION_END: carrier off for 2 b, NRX octets received, or the span end; `carrier` still present (R247, R248). Octets that
follow NRX while the carrier lasts are beyond it (R252). -/
def execFskReceptionEnd (ch : Chan) (carrier : Bool) (s : State) : Host.Outcome State Fault Refusal :=
  .next (s.modDie ch.die fun d =>
    let k := d.chan ch.c
    let d1 := d.modCh ch.c fun k => { k with fsk := { k.fsk with cd := carrier, overrun := k.fsk.overrun && carrier } }
    match k.fsk.run with
    | some r =>
      if k.fsk.rx && r.carrier && d.fskOver r carrier then
        let full := (d.queued r.id).all fun e => decide (e.e.nrx ≤ r.octets.length)
        (d1.endFsk ch (d.fskCut r carrier) false).modCh ch.c fun k => { k with fsk := { k.fsk with overrun := carrier && full } }
      else d1
    | none => d1)

end Sys2Proof.Machine
end

