-- ==== Sys2Proof/Machine/Chain.lean ====
section
/-! DEFINITION. The filter chain of a channel: correction, the DC blocker, clamping and the results it gives to entries
(R87, R88, R120, R151 to R160, R171, R182), filter changes and decimator resets. -/

namespace Sys2Proof.Machine
open Sys2Proof

/-- Coefficients of a slice for a quantity; the factory's where none are held (R195). -/
def coeffsOf (l : List (Nat × Coeffs)) (di : DieId) (slice q : Nat) : Coeffs :=
  match assoc l q with
  | some k => k
  | none => let f := Config.factory di.val slice q; ⟨f.1, f.2.1, f.2.2⟩
/-- OFFSET + GAIN · u + BOW · u², u = x / 2^30, to the nearest integer (R182). -/
def sliceCorrect (k : Coeffs) (x : Int) : Int :=
  divRound (k.offset * 2 ^ 60 + k.gain * x * 2 ^ 30 + k.bow * x * x) (2 ^ 60)
/-- SYS_OFFSET + SYS_GAIN · y / 2^30 (R182). -/
def sysCorrect (off gain y : Int) : Int := off + divRound (gain * y) (2 ^ 30)

/-- A spare's trim at a base-rate instant: on the way from d to d + Δ in 12,500 equal increments of a ramp, which a calibration
point holds (R185, R197). -/
def trimOf (trim : Int) (ramp : Option (Int × Int × Tick)) (hold : Option Tick) (t : Tick) : Int :=
  let t := match hold with | some h => min t h | none => t
  match ramp with
  | some (a, dlt, t0) => if t < t0 then a else a + divRound (dlt * min 12500 ((t - t0) / 12000 + 1)) 12500
  | none => trim
/-- Device time from which a calibration point in progress holds the slices of the channel, or of both channels of its pair (R196,
R197). -/
def Die.holdFrom (d : Die) (c : ChanId) : Option Tick := (d.unit c).findSome? fun m => (d.chan m).cal.point.map (·.tp)
/-- The trim of a spare at an instant. -/
def Die.trimAt (d : Die) (i : SpareId) (t : Tick) : Int :=
  let p := d.car.spares[i.val]
  trimOf p.trim p.ramp (d.holdFrom p.ch) t
/-- Coefficients of a spare for a quantity. -/
def Spare.co (p : Spare) (di : DieId) (i : SpareId) (q : Nat) : Coeffs := coeffsOf p.coeffs di (16 + i.val) q

/-- What serves a channel now (R182, R185). -/
def Die.servedNow (d : Die) (di : DieId) (c : ChanId) : Served :=
  let k := d.chan c
  let q := quantity k.img
  let spare (i : SpareId) : Served :=
    let p := d.car.spares[i.val]
    ⟨0, p.co di i q, p.trim, p.ramp, d.holdFrom c⟩
  match k.cal.server with
  | 1 => spare 0
  | 2 => spare 1
  | _ => ⟨0, coeffsOf k.cal.slice di c.val q, 0, none, none⟩
/-- What served a channel at t (R185): samples with timestamps before a switch come from the slice that served until then. -/
def Die.served (d : Die) (di : DieId) (c : ChanId) (t : Tick) : Served :=
  (((d.chan c).cal.was.filter fun v => decide (t < v.till)).getLast?).getD (d.servedNow di c)
/-- What serves a channel now serves it until t. -/
def Die.serveUntil (d : Die) (di : DieId) (c : ChanId) (t : Tick) : Die :=
  let v := { d.servedNow di c with till := t }
  d.modCh c fun k => { k with cal := { k.cal with was := (v :: k.cal.was).take 8 } }
/-- The slice-corrected code of a raw code with timestamp t (R182, R185). -/
def Die.corrected (d : Die) (di : DieId) (c : ChanId) (x : Int) (t : Tick) : Int :=
  let v := d.served di c t
  sliceCorrect v.co x + trimOf v.trim v.ramp v.hold t

/-- The system correction in force for a result with timestamp t (R198). -/
def Cal.sysAt (k : Cal) (t : Tick) : Int × Int :=
  (((k.sysWas.filter fun v => decide (t < v.1)).getLast?).map (·.2)).getD (k.sysOff, k.sysGain)
/-- A system correction takes the place of the one in force at t (R198, R199). -/
def Cal.putSys (k : Cal) (t : Tick) (off gain : Int) (uncommitted : Bool) : Cal :=
  { k with sysWas := ((t, k.sysOff, k.sysGain) :: k.sysWas).take 8, sysOff := off, sysGain := gain, next := none, uncommitted := uncommitted }

/-- Lowest and highest code a channel reports (R86, R88). -/
def codeSpan (i : ChanImg) (odd : Bool) : Int × Int :=
  match Img.mode i with
  | 2 | 3 | 11 => (-(2 ^ 30), 2 ^ 31 - 1)
  | 6 | 7 | 8 | 9 | 10 => (-(2 ^ 30), 1342177280)
  | 4 => if odd then (-(2 ^ 31), 2 ^ 31 - 1) else (-(2 ^ 26), 2 ^ 31 - 1)
  | 5 => (-(2 ^ 26), 2 ^ 31 - 1)
  | _ => (-(2 ^ 31), 2 ^ 31 - 1)
/-- A code clamped to its span, and whether it was (R88, R120). -/
def clampCode (i : ChanImg) (odd : Bool) (v : Int) : Int × Bool :=
  let s := codeSpan i odd
  if v < s.1 then (-(2 ^ 31), true) else if s.2 < v then (2 ^ 31 - 1, true) else (v, false)

/-- The DC blocker on a base-rate sample x: y and the new estimate, in 2^-24 of a code (R155). DESIGN CHOICE (log 35): what is
subtracted is the estimate rounded to a whole code, halves away from zero. -/
def dcbStep (i : ChanImg) (e x : Int) : Int × Int :=
  if Img.dcbEn i then
    (x - divRound e (2 ^ 24), if Img.dcbFreeze i then e else e + divRound (x * 2 ^ 24 - e) (2 ^ Img.dcbK i))
  else (x, e)

/-! ### Stages 4 to 6 (R151, R155, R157) -/

/-- The next base-rate sample of a channel, raw: slice correction and stage 4 on it, once its fixed span has passed (R151, R152,
R155, R182). -/
def Die.takeSample (d : Die) (di : DieId) (c : ChanId) (raw : Int) : Die :=
  let k := d.chan c
  let t : Int := k.chain.origin + k.chain.next * 12000
  if (d.replica : Int) < t + 20 * us then d
  else
    let y := dcbStep k.img k.chain.dcb (d.corrected di c raw t.toNat)
    d.modCh c fun k => { k with chain := { k.chain with
      dcb := y.2, next := k.chain.next + 1, hist := (y.1 :: k.chain.hist).take 6200 } }
/-- Base-rate sample i of those kept. -/
def ChainSt.sample (k : ChainSt) (i : Int) : Int := k.hist.getD (k.next - 1 - i).toNat 0
/-- Stage 5: the sum of the L samples from i on, centred (L − 1) / 2 intervals after i (R151). -/
def ChainSt.window (k : ChainSt) (l : Nat) (i : Int) : Int := ((List.range l).map fun j => k.sample (i + j)).sum
/-- The linear-phase response of stage 6 at n phases from its middle (R151). -/
def resampleTap (n : Nat) : Int := if n < 4096 then Config.resampleTap n else 0
/-- Stage 6: one polyphase branch at base-rate place m, 32 taps over stage 5's sums. Branch 256 at m is branch 0 at m + 1 (R151, R157). -/
def ChainSt.branch (k : ChainSt) (l : Nat) (m : Int) (b : Nat) : Int :=
  ((List.range 32).map fun j => resampleTap (256 * ((j : Int) - 15) - b).natAbs * k.window l (m - 15 + j)).sum
/-- The chain at instant t: the two branches nearest it, 375 / 8 ticks apart, interpolated linearly; none while its samples are not
all kept (R157). The rounding is the model's, to the nearest code (DESIGN CHOICE, log 35). -/
def Channel.resampled (k : Channel) (t : Tick) : Option Int :=
  let l := Img.ma k.img
  let u : Int := (t : Int) - k.chain.origin - (l - 1 : Nat) * 6000
  let m := u / 12000
  let r := (u % 12000).toNat * 8
  let b := r / 375
  let f : Int := (r % 375 : Nat)
  if k.chain.next - k.chain.hist.length ≤ m - 15 ∧ m + 15 + l < k.chain.next then
    some (divRound ((375 - f) * k.chain.branch l m b + f * k.chain.branch l m (b + 1)) (375 * l * 2 ^ 30))
  else none

/-! ### Results -/

/-- What a result writes into a SAMPLE or READBACK record: time-locked layout (R77, R78). -/
def timeWords (e : Entry) (i : ChanImg) (k : Nat) (code : Word) : List (Nat × Word) :=
  if e.e.op = 1 then
    let p := if Img.lock i = 2 then [(5, 0#32), (6, BitVec.ofNat 32 (Img.scsWin i * 192000))]
      else [(5, i.perFrac), (6, i.perInt)]
    (if k = 0 then p else []) ++ [(7 + k, code)]
  else [(5, code)]

/-- An active entry takes the result: SAMPLE until COUNT, READBACK at TIME + 50 µs (R59, R79, R158). -/
def Entry.takes (e : Entry) (c : ChanId) (stamp : Tick) : Bool :=
  e.phase == .active && decide (e.ch.c = c) &&
    (if e.e.op = 1 then decide (e.e.time.toNat ≤ stamp) && decide (e.done < e.e.count.toNat)
     else (e.e.op == 3 || e.e.op == 4 || e.e.op == 5) && e.e.readback && decide (e.e.time.toNat + 50 * us ≤ stamp))

/-- The last result of the entry. -/
def Entry.lastResult (e : Entry) : Bool := e.e.op != 1 || decide (e.e.count.toNat ≤ e.done + 1)

/-- A result goes to every entry that takes it, as lane frames made by `f`; an entry with its last result retires as
executed (R59, R158). -/
def Die.deliver (d : Die) (c : ChanId) (stamp : Tick) (f : Entry → List LaneItem) : Die :=
  let es := d.ntq.filter (·.takes c stamp)
  let d1 := d.push (es.flatMap f)
  es.foldl (fun x e =>
    let x := x.modEntry e.id fun y => { y with done := y.done + 1 }
    if e.lastResult then x.finish e.id .executed else x) d1

/-- A time-locked or single-cycle-settling result. -/
def timeItems (i : ChanImg) (code : Word) (stamp : Tick) (q : Nat) (e : Entry) : List LaneItem :=
  [.result e.id (timeWords e i e.done code) stamp q (e.done + 1) 0]
/-- A result with an angle word, in two Angle tag frames (R124, R169). -/
def angleItems (code angle : Word) (stamp : Tick) (q : Nat) (e : Entry) : List LaneItem :=
  if e.e.op = 1 then
    [.angle e.id [(5 + 4 * e.done, code), (6 + 4 * e.done, angle)] stamp q e.done,
     .angle e.id [(7 + 4 * e.done, lo32 stamp), (8 + 4 * e.done, hi32 stamp)] stamp q (e.done + 1)]
  else [.result e.id [(5, code)] stamp q 1 0]

/-- The code that a channel reports for a corrected result: system correction and clamp; an open shunt path reads full scale; an
encoder's even channel reads its count (R88, R95, R182, R198, R217). -/
def Channel.report (k : Channel) (y : Int) (stamp : Tick) : Int × Bool :=
  if k.counts then (y, false)
  else if k.diag.shunt then (2 ^ 31 - 1, false)
  else clampCode k.img k.odd (sysCorrect (k.cal.sysAt stamp).1 (k.cal.sysAt stamp).2 y)
/-- A result leaves the chain: a clamped one is counted, and the spans in which every result has been beyond 2^30, or within, go on
or begin (R88, R120, R153). -/
def Channel.noteResult (k : Channel) (code : Int) (clamped : Bool) (stamp : Tick) : Channel :=
  let big := decide (2 ^ 30 < code.natAbs)
  { k with chain := { k.chain with
    settling := false
    satCnt := satAdd k.chain.satCnt (putBit clamped 0)
    overSince := (if big then some (k.chain.overSince.getD stamp) else none)
    inSince := (if big then none else some (k.chain.inSince.getD stamp)) } }
/-- The next result of the chain: its timestamp, its angle step in angle lock, and its corrected code; none while it is not due (R157
to R160, R166, R217). In single-cycle-settling operation it is made from the window's raw code; one whose span does not lie at or after tq
has no code and is discarded (R153). -/
def Die.nextResult (d : Die) (di : DieId) (c : ChanId) (window : Option Int) : Option (Tick × Option Nat × Int) :=
  let k := d.chan c
  let due (t : Tick) : Bool := d.past (t + k.span)
  match Img.lock k.img with
  | 1 => k.chain.cross.head?.bind fun x =>
    if !due x.2 then none
    else if x.2 < k.chain.tq + k.span then some (x.2, some x.1, 0)
    else (k.resampled x.2).map fun y => (x.2, some x.1, y)
  | l =>
    let t := k.outAt k.chain.nextK
    if !due t then none
    else if t < k.chain.tq + k.span then some (t, none, 0)
    else if k.counts then some (t, none, (k.encAt t).cnt)
    else if l = 2 then window.map fun raw => (t, none, d.corrected di c raw (t - k.span))
    else (k.resampled t).map fun y => (t, none, y)
/-- A result leaves with its quality code, unless its span contains a switch of the reference or tq: then it is discarded and counted. A
crossing known late, whose span ended before tq, is discarded (R131, R153, R166, R169). -/
def Die.giveResult (d : Die) (c : ChanId) (q : Nat) (stamp : Tick) (step : Option Nat) (y : Int) : Die :=
  let k := d.chan c
  let r := k.report y stamp
  let code := wordOfInt r.1
  let d1 := d.modCh c fun k => { k with chain := (match step with
    | some _ => { k.chain with cross := k.chain.cross.tail }
    | none => { k.chain with nextK := k.chain.nextK + 1 }) }
  let cut := d.refCuts ((stamp : Int) - k.span) (stamp + k.span)
  if cut || decide (stamp < k.chain.tq + k.span) then
    (if cut || decide (k.chain.tq < stamp + k.span) then { d1 with straddle := satInc d1.straddle } else d1)
  else (d1.modCh c (·.noteResult r.1 r.2 stamp)).deliver c stamp (match step with
    | some n => angleItems code (BitVec.ofNat 32 (n * 2 ^ (32 - Img.angK k.img))) stamp q
    | none => timeItems k.img code stamp q)

/-- CHAIN_OUTPUT: base-rate samples of the fixed stages, raw and in order, come to stages 4 to 6, and the result that is due leaves
with its timestamp. In single-cycle-settling operation the row brings a window's raw code (R51, R151 to R160, R166, R182, R217). -/
def execChainOutput (ch : Chan) (samples : List Int) (window : Option Int) (s : State) : Host.Outcome State Fault Refusal :=
  .next (s.modDie ch.die fun d =>
    let k := d.chan ch.c
    if !d.on || !hasChain k.mode || k.trans.isSome || Img.mcEn k.img then d
    else
      let d1 := if Img.lock k.img = 2 ∨ k.counts then d else samples.foldl (fun x v => x.takeSample ch.die ch.c v) d
      match d1.nextResult ch.die ch.c window with
      | some r => d1.giveResult ch.c (d1.q (s.qualityOf r.1)) r.1 r.2.1 r.2.2
      | none => d1)

/-! ### Filter changes (R154, R211, R253) -/

/-- Registers whose writes restart the chain at tf, whatever their values (R154). -/
def restartsChain (off : Nat) : Bool := off == 0x100 || off == 0x104 || off == 0x10C || off == 0x118
/-- The settings whose tf has come take effect: filter settings restart the chain from stage 4, FREEZE alone does not; a write of
ANG_CFG clears the high-water step; DIN_CFG presets the integrator; SLEW and PRECOMP reset the compensations; declarations change
the charge. A tf that a time step has passed over is ts + Δ (R154, R166, R173, R211, R235, R253, R261). -/
def Die.applyFilters (d : Die) (c : ChanId) : Die :=
  let k := d.chan c
  let due := k.pendF.filter fun p => d.past p.1
  match due.map (·.1) |>.max? with
  | none => d
  | some tf =>
    let tf := max tf k.chain.tq
    let i := due.foldl (fun i p => imgSet i p.2.1 p.2.2) k.img
    let f (k : Channel) : Channel := ({ k with
      img := i
      pendF := k.pendF.filter fun p => !d.past p.1
      din := (if due.any (·.2.1 == 0x200) then k.din.reconfigure k.level i tf else k.din)
      out := (if due.any (·.2.1 == 0x300) then k.out.resetComp else k.out)
      chain := { k.chain with high := (if due.any (·.2.1 == 0x118) then none else k.chain.high) } }).recharge d.led.vd
    let d1 := if due.any (fun p => restartsChain p.2.1) || Img.dcbEn k.img != Img.dcbEn i || Img.dcbK k.img != Img.dcbK i
      then d.refilter c f tf else d.modCh c f
    d1.syncLevel c tf

/-- Declarations of V_D whose tf has come take effect: every channel's charge follows (R261). -/
def Die.applyVd (d : Die) : Die :=
  match (d.led.vdAt.filter fun p => d.past p.1).getLast? with
  | some p =>
    let e := { d with led := { d.led with vd := p.2, vdAt := d.led.vdAt.filter fun x => !d.past x.1 } }
    allC.foldl (fun x c => x.modCh c (·.recharge x.led.vd)) e
  | none => d

/-- Standing charges planned for a channel that are in force leave the plan (R258). -/
def Core.dropStanding (c : Core) (d : DieId) (p : ChanId → Bool) (now : Tick) : Core :=
  let gone (i : PlanItem) : Bool := match i.cost with
    | .standing a k _ _ => decide (i.die = d) && i.owner.isNone && p k && decide (a ≤ now)
    | _ => false
  { c with plan := c.plan.filter fun i => !gone i }

/-- FILTER_CHANGE at tf: the channel's waiting settings, and its die's declaration of V_D (R154, R261). -/
def execFilterChange (ch : Chan) (s : State) : Host.Outcome State Fault Refusal :=
  let d := s.die ch.die
  let vd := d.led.vdAt.any fun p => d.past p.1
  let had := (d.chan ch.c).pendF.any fun p => d.past p.1
  .next (State.commit s (((s.modDie ch.die fun d => (d.applyFilters ch.c).applyVd).modCore
    (·.dropStanding ch.die (fun c => vd || (had && decide (c = ch.c))) d.replica)).settlePools ch.die))

/-! ### Decimator resets (R170 to R172) -/

/-- A mains-cycle window in progress is discarded and counted (R123). -/
def Die.dropWindow (d : Die) (c : ChanId) : Die :=
  let k := d.chan c
  { (d.modCh c fun k => { k with chain := { k.chain with mcStart := none } }) with
    straddle := satAdd d.straddle (putBit k.chain.mcStart.isSome 0) }
/-- Every chain that resets on a die at tr: the origin of every channel that is not exempt moves, and its chain restarts; a channel in
transition restarts at its own end; the mains grid's origin moves for all (R123, R171, R172, R185). -/
def Die.resetChains (d : Die) (tr : Tick) : Die :=
  let d1 := allC.foldl (fun x c =>
    let k := x.chan c
    let move (k : Channel) : Channel := { k with chain := { k.chain with origin := tr } }
    if Img.exempt k.img then x.dropWindow c
    else if !hasChain k.mode || k.trans.isSome then x.modCh c move
    else x.restartCh c move tr) d
  { d1 with bounds := [(0, tr)], car := { d1.car with cut := tr } }

/-- The next reset that is due on the counter (R172: in order of tr). -/
def Core.dueReset (c : Core) (now : Tick) : Option (Tick × Nat) :=
  (c.resets.filter fun p => decide (p.1 ≤ now)).foldl (fun b p =>
    match b with | some x => if x.1 ≤ p.1 then b else some p | none => some p) none

/-- The grid's origin moves to a boundary at t (R123). At a time step that instant need not be a packet-cycle start, which R122 asks of
a boundary: that the origin stands there as it is, is a DESIGN CHOICE (log 69). -/
def Mains.moveOrigin (m : Mains) (t : Tick) : Mains := { m with origin := t, bounds := [(0, t)], perWas := [], carry := 0 }
/-- The tracker at a time step: the grid's origin moves, and the last crossing goes on in the new scale (R45, R123, R126; log 69). -/
def Mains.step (m : Mains) (new : Tick) (delta : Int) : Mains :=
  { m.moveOrigin new with lastCross := m.lastCross.map fun t => ((t : Int) + delta).toNat }

/-- A decimator reset at tr on every present die, recorded by the active hub, with EV_FILTER_SYNC; the mains grid origin
moves to the boundary at tr (R123, R171). It reaches a die through its lane and lease (R13, R21). -/
def State.decimate (s : State) (tr : Tick) (src : Nat) : State :=
  let s1 := s.overLanes fun _ d => d.resetChains tr
  let s2 := s1.modCore fun c => { c with
    lastReset := tr
    resetCnt := satInc c.resetCnt
    resets := c.resets.filter (·.1 != tr)
    mains := c.mains.moveOrigin tr }
  s2.raiseSrc .filterSync tr (srcHub s.active) false (leBytes 8 tr ++ leBytes 1 src) none

/-- DECIMATOR_RESET at the earliest tr that has come (R171). -/
def execDecimatorReset (s : State) : Host.Outcome State Fault Refusal :=
  .next (match s.core.dueReset s.clk.now with
  | some p => State.commit s (s.decimate p.1 p.2)
  | none => s)

end Sys2Proof.Machine
end

