-- ==== Sys2Proof/Machine/Digital.lean ====
section
/-! DEFINITION. Digital inputs, counters, encoders and capture (R207 to R224). -/

namespace Sys2Proof.Machine
open Sys2Proof

/-- The comparator is watched: its mode has one, no transition is in progress, and the die works (R208, R216, R224). -/
def Die.watches (d : Die) (c : ChanId) : Bool := d.on && comparing (d.chan c).mode && (d.chan c).trans.isNone

/-! ### Counts in timestamp order (R212 to R215) -/

/-- The longest that a change of the filter output follows its timestamp (R210, R220). -/
def Channel.filterDelay (k : Channel) : Nat := if k.filtered then Img.thr k.img * Img.tick k.img * 300 else 0
/-- The Z inputs of a pair (R91). -/
def Die.zInputs (d : Die) (a : ChanId) : List ChanId :=
  allC.filter fun c => (d.chan c).mode == 7 && Img.zIn (d.chan c).img && decide (2 * Img.zOf (d.chan c).img = a.val)
/-- How long an edge of a pair may still be preceded by another: the filter delays, what a result on the count waits, and the 100 ns of
an illegal transition (R213, R214, R217). -/
def Die.bookTime (d : Die) (a : ChanId) : Nat :=
  (((a :: oddOf a :: d.zInputs a).map fun c => (d.chan c).filterDelay + Img.tick (d.chan c).img * 300).foldl max 0) + 3 * us + 300
/-- The settled edges of a pair. -/
def Die.settlePair (d : Die) (a : ChanId) : Die := d.modCh a (·.settleBook d.replica (d.bookTime a))

/-- An edge of a pair takes its place in timestamp order; an illegal transition that it makes is counted, and the first of an episode
raises EV_ENCODER_ERROR (R212 to R215). -/
def Die.pairAct (d : Die) (di : DieId) (a : ChanId) (q elapsed : Nat) (x : PairEv) : Die :=
  let k := (d.settlePair a).chan a
  let n (l : List PairEv) : Nat := (k.din.enc.run l).2.1
  let l := book k.din.book x
  let bad := n l - n k.din.book
  let d1 := (d.settlePair a).modCh a fun k => { k with din := { k.din with
    book := l
    cntErr := satAdd k.din.cntErr bad
    encEp := (if bad = 0 then k.din.encEp else some elapsed) } }
  if bad ≠ 0 ∧ k.din.encEp = none then d1.raiseCh di a .encoderError x.t q false (leBytes 8 x.t) else d1

/-- A rising Z edge acts on its pair (R91, R215). -/
def Die.zEdge (d : Die) (di : DieId) (c : ChanId) (q elapsed : Nat) (t : Tick) : Die :=
  let z := Img.zOf (d.chan c).img
  if h : 2 * z < 16 then
    let k := d.chan ⟨2 * z, h⟩
    if k.counts then d.pairAct di ⟨2 * z, h⟩ q elapsed ⟨t, .z⟩ else d
  else d

/-- An accepted edge: its time and count, the pair's count or the Z action, and the open captures (R209, R212 to R219). `q`: its
quality code; `angle`: that of the channel's axis at the edge, once it is known. -/
def Die.acceptEdge (d : Die) (ch : Chan) (q elapsed : Nat) (t : Tick) (rising : Bool) (angle : Option (Word × Bool)) : Die :=
  let k := d.chan ch.c
  let d1 := d.modCh ch.c fun k => { k with din := { k.din with edgeAt := t, edgeCnt := k.din.edgeCnt + 1#32 } }
  let d2 := if k.mode = 7 then
      (if Img.zIn k.img then (if rising then d1.zEdge ch.die ch.c q elapsed t else d1)
      else d1.pairAct ch.die (evenOf ch.c) q elapsed ⟨t, if k.odd then .b rising else .a rising⟩)
    else d1
  if isDinMode k.mode then (d2.ntq.filter (·.captures ch.c t rising)).foldl (fun x e => x.capture ch.c q t rising angle e) d2
  else d2

/-- Edges of a pair that every axis of the pair has taken are kept no longer. -/
def State.trimFeed (s : State) (di : DieId) (c : ChanId) : State :=
  let a := evenOf c
  let users := s.core.axes.toList.filter fun x => x.src == 1 && x.encDie == di.val && 2 * x.encPair == a.val
  match (users.map (·.took)).min? with
  | none => s.modDie di fun d => d.modCh a fun k => { k with din := { k.din with feed := [] } }
  | some n => s.modDie di fun d => d.modCh a fun k => { k with din := { k.din with feed := k.din.feed.filter fun p => decide (n < p.1) } }
/-- The pairs of a die whose count a channel's edges can change, trimmed. -/
def State.trimPairs (s : State) (ch : Chan) : State :=
  let k := s.chan ch
  if k.mode = 7 then (if h : Img.zIn k.img = true ∧ 2 * Img.zOf k.img < 16 then s.trimFeed ch.die ⟨2 * Img.zOf k.img, h.2⟩ else s.trimFeed ch.die ch.c)
  else s

/-- COMPARATOR_EDGE: a transition is timestamped, the fixed front-end delay removed; with the filter off it is an accepted edge; in
an output mode it also measures the last commanded edge, what the slope adds being open (R51, R208, R209, R224, R235; log 4). -/
def execComparatorEdge (ch : Chan) (rising : Bool) (s : State) : Host.Outcome State Fault Refusal :=
  .next ((s.modDie ch.die fun d =>
    let k := d.chan ch.c
    let t := d.replica - Config.frontDelay
    let q := d.q (s.qualityOf t)
    if d.watches ch.c && !(k.din.known && k.din.raw == rising) then
      let d1 := d.modCh ch.c fun k => { k with din := { k.din with
        raw := rising
        known := true
        lastRise := (if rising then some t else k.din.lastRise)
        lastFall := (if rising then k.din.lastFall else some t) } }
      if k.filtered then d1
      else
        let d2 := d1.acceptEdge ch q s.clk.elapsed t rising (s.core.angleAt (Img.axis k.img) t)
        if isOutMode k.mode then d2.measureEdge ch q ((t : Int) + Config.halfCrossing s.free) rising else d2
    else d).trimPairs ch |>.tickFree)

/-- One step of the up/down integrator (R210): the new value and the new output. -/
def integStep (n thr : Nat) (raw filt : Bool) : Nat × Bool :=
  let v := if raw then min thr (n + 1) else n - 1
  (v, if v = thr then true else if v = 0 then false else filt)

/-- FILTER_TICK at a multiple of TICK · 300 ticks, once for each: an output change is an accepted edge with the timestamp of the last
transition in its direction (R210, R211). -/
def execFilterTick (ch : Chan) (s : State) : Host.Outcome State Fault Refusal :=
  .next ((s.modDie ch.die fun d =>
    let k := d.chan ch.c
    let m := Img.tick k.img * 300
    if d.watches ch.c && k.filtered && decide (k.din.filtAt < d.replica / m * m) then
      let r := integStep k.din.integ (Img.thr k.img) k.din.raw k.din.filt
      let d1 := d.modCh ch.c fun k => { k with din := { k.din with integ := r.1, filt := r.2, filtAt := d.replica / m * m } }
      if r.2 != k.din.filt then
        let t := (if r.2 then k.din.lastRise else k.din.lastFall).getD k.din.since
        d1.acceptEdge ch (d.q (s.qualityOf t)) s.clk.elapsed t r.2 (s.core.angleAt (Img.axis k.img) t)
      else d1
    else d).trimPairs ch)

/-- ENCODER_EPISODE_END: 10 ms without an illegal transition (R213). -/
def execEncoderEpisodeEnd (ch : Chan) (s : State) : Host.Outcome State Fault Refusal :=
  .next (s.modCh ch fun k =>
    match k.din.encEp with
    | some t => if t + 10 * ms ≤ s.clk.elapsed then { k with din := { k.din with encEp := none } } else k
    | none => k)

/-- COUNT_PRESET_APPLY at the instant of a CNT_PRESET write: edges before that instant count before it, and those at or after it
count after (R216). -/
def execCountPresetApply (ch : Chan) (s : State) : Host.Outcome State Fault Refusal :=
  .next ((s.modDie ch.die fun d =>
    match (d.chan ch.c).din.preset.find? fun p => d.past p.2 with
    | some p => (d.modCh ch.c fun k => { k with din := { k.din with preset := k.din.preset.filter (· != p) } }).pairAct ch.die ch.c
        (s.dq ch.die) s.clk.elapsed ⟨p.2, .preset p.1⟩
    | none => d).trimPairs ch)

/-- CAPTURE_HELD_TIMEOUT: no axis sample later than te by te + 8,000 µs: the edge is recorded with the angle word of the last sample at
or before te and counted; with no sample at all the word is open (R223). -/
def execCaptureHeldTimeout (ch : Chan) (s : State) : Host.Outcome State Fault Refusal :=
  .next ((s.modDie ch.die fun d =>
    let k := d.chan ch.c
    match k.din.capWait.find? (fun p => d.past (p.2.1 + 8000 * us)) with
    | some p =>
      let w := (s.core.axes[Img.axis k.img]?.bind (·.heldAt p.2.1)).getD (Config.measured s.free)
      d.sendCapture ch.c (d.q (s.qualityOf p.2.1)) p (w, true)
    | none => d).tickFree)

/-- CAPTURE_RETIRE: the window, or what an earlier close left of it, has passed with its filter delay, and no edge waits for an
angle: the entry ends as executed, or as it was closed (R74, R75, R220). -/
def execCaptureRetire (id : Nat) (s : State) : Host.Outcome State Fault Refusal :=
  .next { s with dies := s.dies.map fun (d : Die) =>
    match d.queued id with
    | some e =>
      let k := d.chan e.ch.c
      let stop := e.e.time.toNat + e.e.period.toNat
      let stop := match e.cut with | some x => min stop x.1 | none => stop
      if e.e.op == 2 && e.phase == .active && d.past (stop + k.filterDelay) && k.din.capWait.all (·.1 != id) then
        d.finish id (match e.cut with | some x => x.2 | none => .executed)
      else d
    | none => d }

end Sys2Proof.Machine
end

