-- ==== Sys2Proof/Machine/Axes.lean ====
section
/-! DEFINITION. Master axes, angle-locked crossings and capture angles (R161 to R169, R222). -/

namespace Sys2Proof.Machine
open Sys2Proof

/-- One axis changed. -/
def Core.modAxis (c : Core) (a : AxisId) (f : Axis → Axis) : Core := { c with axes := vmod c.axes a f }
/-- An axis. -/
def Core.axis (c : Core) (a : AxisId) : Axis := c.axes[a.val]

/-- Division rounded toward zero (R163). -/
def divZero (a b : Int) : Int := a.tdiv b

/-- Positions are 64 bits, two's complement (R161). -/
def wrap64 (v : Int) : Int := (BitVec.ofInt 64 v).toInt
/-- The position of a sample: an encoder's ZERO + count · 2^32 / CPR rounded toward zero, or a network position with ZERO added, and the
corrections of Z references of an encoder (R163 to R165). -/
def Axis.position (x : Axis) (v : Int) : Int :=
  wrap64 (match x.src with
  | 1 => divZero ((x.zero + x.corr) * x.cpr + (if x.dir then -v else v) * 2 ^ 32) x.cpr
  | _ => x.zero + v)

/-- The step width of a channel: 2^(32 − K) (R166). -/
def stepWidth (i : ChanImg) : Int := 2 ^ (32 - Img.angK i)

/-- Floor division for a positive divisor. -/
def floorDiv (a b : Int) : Int := a / b

/-- Steps n with pa < S_n ≤ pb above the high-water step, in order; step numbers have 32 bits (R166). -/
def stepsOf (w pa pb : Int) (high : Option Int) : List Int :=
  let first := max (floorDiv pa w + 1) (-(2 ^ 31))
  let first := match high with | some h => max first (h + 1) | none => first
  let last := min (floorDiv pb w) (2 ^ 31 - 1)
  (List.range (last - first + 1).toNat).map fun j => first + (j : Int)

/-- tc = ta + round((S_n − pa) · (tb − ta) / (pb − pa)) (R166). -/
def crossingAt (ta tb : Tick) (pa pb sn : Int) : Tick := ((ta : Int) + divRoundI ((sn - pa) * ((tb : Int) - ta)) (pb - pa)).toNat

/-- One crossing on a channel: late, too fast, or a result to come at tc (R166 to R168). -/
def Die.cross (d : Die) (di : DieId) (c : ChanId) (q elapsed now : Nat) (tc : Tick) (n : Int) : Die :=
  let k := d.chan c
  let ev (e : Ev) (x : Die) : Die := x.raiseHub (mkRec e tc (srcCh di c) q false [] none)
  if tc + 8000 * us < now then
    let d1 := d.modCh c fun k => { k with chain := { k.chain with angLate := satInc k.chain.angLate, lateEp := some elapsed, high := some n } }
    if k.chain.lateEp.isNone then ev .angleLate d1 else d1
  else if (match k.chain.lastCross with | some t => decide (tc < t + 12000) | none => false) then
    let d1 := d.modCh c fun k => { k with chain := { k.chain with angOver := satInc k.chain.angOver, overEp := some elapsed, high := some n } }
    if k.chain.overEp.isNone then ev .angleOverspeed d1 else d1
  else
    d.modCh c fun k => { k with chain := { k.chain with
      high := some n, lastCross := some tc, cross := k.chain.cross ++ [((n % 2 ^ Img.angK k.img).toNat, tc)] } }

/-- One crossing between two samples, of the step n of width w. -/
def Die.crossStep (di : DieId) (c : ChanId) (q elapsed now : Nat) (ta : Tick) (pa : Int) (tb : Tick) (pb w : Int) (d : Die) (n : Int) :
    Die :=
  d.cross di c q elapsed now (crossingAt ta tb pa pb (n * w)) n

/-- The crossings an angle-locked channel of an axis makes between two consecutive samples (R166 to R168). -/
def Die.crossAll (d : Die) (di : DieId) (c : ChanId) (q elapsed now : Nat) (ta : Tick) (pa : Int) (tb : Tick) (pb : Int) : Die :=
  let k := d.chan c
  if hasChain k.mode && Img.lock k.img == 1 && k.trans.isNone && decide (pa < pb) then
    (stepsOf (stepWidth k.img) pa pb k.chain.high).foldl
      (Die.crossStep di c q elapsed now ta pa tb pb (stepWidth k.img)) d
  else d

/-- The captured edges of a channel whose angle is known now leave (R222, R223). -/
def Die.sendHeld (d : Die) (c : ChanId) (q : Tick → Nat) (angle : Tick → Option (Word × Bool)) : Die :=
  (d.chan c).din.capWait.foldl (fun y p =>
    match angle p.2.1 with
    | some w => y.sendCapture c (y.q (q p.2.1)) p w
    | none => y) d

/-- An axis sample reaches one channel of a die. -/
def Die.axisSampleCh (d : Die) (di : DieId) (c : ChanId) (q : Tick → Nat) (elapsed now : Nat) (angle : Tick → Option (Word × Bool))
    (old : Option (Tick × Int)) (tb : Tick) (pb : Int) : Die :=
  (match old with
  | some (ta, pa) => d.crossAll di c (d.q (q tb)) elapsed now ta pa tb pb
  | none => d).sendHeld c q angle

/-- An axis sample reaches a die: crossings of its channels locked to the axis, and captured edges whose angle it fixes (R166 to R168,
R222, R223). -/
def Die.axisSample (d : Die) (di : DieId) (a : AxisId) (q : Tick → Nat) (elapsed now : Nat) (angle : Tick → Option (Word × Bool))
    (old : Option (Tick × Int)) (tb : Tick) (pb : Int) : Die :=
  allC.foldl (fun x c => if Img.axis (x.chan c).img != a.val then x else x.axisSampleCh di c q elapsed now angle old tb pb) d

/-- An axis notes a position at an instant that arrives now, and forgets those more than 8 s older but the last of them: an edge whose
timestamp precedes its acceptance by a filter delay still finds its samples, and after a standstill the one before it (R220, R222). -/
def Axis.note (x : Axis) (time : Tick) (p : Int) (now : Tick) : Axis :=
  let old (v : Tick × Int × Tick) : Bool := decide (v.1 + 8 * sec < time)
  { x with pos := p, past := (time, p, now) :: (x.past.filter fun v => !old v) ++ (x.past.filter old).take 1 }

/-- A sample moves an axis to position p and reaches every die through its lane and lease; MOVING rises (R13, R21, R163, R164, R180). -/
def State.axisMove (s : State) (a : AxisId) (time : Tick) (p : Int) : State :=
  let x := s.core.axis a
  let s1 := s.modCore (·.modAxis a fun y => { y.note time p s.clk.now with posAt := some time, moving := true, lastRx := s.clk.elapsed })
  let s2 := if x.moving then s1 else s1.raiseSrc .axisStill s.clk.now (srcHub s.active) true (leBytes 1 a.val) none
  s2.overLanes fun di d =>
    d.axisSample di a s.qualityOf s.clk.elapsed s.clk.now (x.note time p s.clk.now).angleAt (x.posAt.map fun t => (t, x.pos)) time p

/-- A network sample; one not later than the last is discarded (R164). -/
def State.axisSample (s : State) (a : AxisId) (time : Tick) (pos : Int) : State :=
  let x := s.core.axis a
  if x.src = 2 then
    (if (match x.posAt with | some t => decide (time ≤ t) | none => false) = true then
      s.modCore (·.modAxis a fun y => { y with netDiscard := satInc y.netDiscard })
    else s.axisMove a time (x.position pos))
  else s

/-- The encoder pair that an axis names (R181). -/
def State.axisPair (s : State) (a : AxisId) : Option Chan :=
  let x := s.core.axis a
  if x.src = 1 then (s.dieOf x.encDie).bind fun d => if h : 2 * x.encPair < 16 then some ⟨d, ⟨2 * x.encPair, h⟩⟩ else none
  else none
/-- The next settled edge of the axis's encoder pair that the axis has not taken; the hub takes none while it does not reach the pair's
die (R13, R21, R163, R165). -/
def State.axisNext (s : State) (a : AxisId) : Option (Chan × Nat × Tick × Option Int) :=
  (s.axisPair a).bind fun ch =>
    if s.reaches ch.die then
      ((s.chan ch).din.feed.find? fun p => decide ((s.core.axis a).took < p.1)).map fun p => (ch, p)
    else none
/-- The edges of the axis's pair that have settled by now (R214). -/
def State.axisSettle (s : State) (a : AxisId) : State :=
  match s.axisPair a with
  | some ch => s.modDie ch.die (·.settlePair ch.c)
  | none => s
/-- The axis has taken an edge. -/
def State.axisTake (s : State) (a : AxisId) (ch : Chan) (n : Nat) : State :=
  (s.modCore (·.modAxis a fun y => { y with took := n })).trimFeed ch.die ch.c
/-- An encoder's next edge is an axis sample: the count at its timestamp, in timestamp order; a Z edge is none, and without Z reference
nothing (R163, R165, R214). -/
def State.axisEdge (s : State) (a : AxisId) : State :=
  let s := s.axisSettle a
  match s.axisNext a with
  | some (ch, n, t, some v) => (s.axisTake a ch n).axisMove a t ((s.core.axis a).position v)
  | some (ch, n, _, none) => if (s.core.axis a).zref then s else s.axisTake a ch n
  | none => s

/-- AXIS_SAMPLE: the encoder pair's next counted edge, or a network sample with its time and position (R163, R164, R166, R214). -/
def execAxisSample (a : AxisId) (time : Tick) (pos : Int) (s : State) : Host.Outcome State Fault Refusal :=
  .next (State.commit s (if (s.core.axis a).src = 1 then s.axisEdge a else s.axisSample a time pos))

/-- The Z correction: the angle word becomes ZERO by the shorter way; the revolution count keeps running (R165). -/
def Axis.zCorrection (x : Axis) : Int := (BitVec.ofInt 32 ((x.zero : Int) - x.pos)).toInt

/-- Steps that a forward correction passes over are counted and yield no result (R165). -/
def Die.skipSteps (d : Die) (a : AxisId) (p p' : Int) : Die :=
  allC.foldl (fun x c =>
    let k := x.chan c
    if Img.axis k.img == a.val && hasChain k.mode && Img.lock k.img == 1 then
      let ns := stepsOf (stepWidth k.img) p p' k.chain.high
      match ns.getLast? with
      | some n => x.modCh c fun k => { k with chain := { k.chain with angLate := satAdd k.chain.angLate ns.length, high := some n } }
      | none => x
    else x) d

/-- The angle word becomes ZERO at a Z edge: the revolution count keeps running; a correction beyond one count raises EV_AXIS_SLIP
(R165). The Z edge is no axis sample (R163). That the next counted edge interpolates its crossings from the corrected position, at
the time of the last sample, is a DESIGN CHOICE (R166; log 36). -/
def State.axisZero (s : State) (a : AxisId) (time : Tick) : State :=
  let x := s.core.axis a
  let dlt := x.zCorrection
  let p := wrap64 (x.pos + dlt)
  let s1 := s.modCore (·.modAxis a fun y => { y with pos := p, corr := y.corr + dlt })
  let s2 := if x.cpr * dlt.natAbs > 2 ^ 32 then
      s1.raiseSrc .axisSlip time (srcHub s.active) false (leBytes 8 (BitVec.ofInt 64 dlt).toNat ++ leBytes 1 a.val) none
    else s1
  if 0 < dlt then s2.overLanes fun _ d => d.skipSteps a x.pos p else s2

/-- AXIS_Z_REFERENCE: the next edge of the axis's pair is a rising edge of its Z input, and ZREF is 1. The row brings that
edge's time, and acts where it is the edge's timestamp (R165). DESIGN CHOICE (log 36): before the axis's first sample there is no
position to correct, and the edge is taken without effect. -/
def execAxisZReference (a : AxisId) (time : Tick) (s : State) : Host.Outcome State Fault Refusal :=
  .next (State.commit s (
    let s := s.axisSettle a
    match s.axisNext a with
    | some (ch, n, t, none) =>
      if (s.core.axis a).zref && t == time then
        (if (s.core.axis a).posAt.isSome then (s.axisTake a ch n).axisZero a t else s.axisTake a ch n)
      else s
    | _ => s))

/-- AXIS_STILL: no sample within STILL: MOVING falls, with EV_AXIS_STILL (R180). -/
def execAxisStill (a : AxisId) (s : State) : Host.Outcome State Fault Refusal :=
  let x := s.core.axis a
  .next (
    if x.moving = true ∧ x.lastRx + x.still * ms ≤ s.clk.elapsed then
      State.commit s ((s.modCore (·.modAxis a fun y => { y with moving := false })).raiseSrc .axisStill s.clk.now
        (srcHub s.active) false (leBytes 1 a.val) none)
    else s)

/-- ANGLE_EPISODE_END: 10 ms without a late crossing, or without a crossing that is too fast (R167, R168). -/
def execAngleEpisodeEnd (ch : Chan) (overspeed : Bool) (s : State) : Host.Outcome State Fault Refusal :=
  .next (s.modCh ch fun k =>
    let ended (o : Option Nat) : Option Nat := match o with
      | some t => if t + 10 * ms ≤ s.clk.elapsed then none else some t
      | none => none
    if overspeed then { k with chain := { k.chain with overEp := ended k.chain.overEp } }
    else { k with chain := { k.chain with lateEp := ended k.chain.lateEp } })

end Sys2Proof.Machine
end

