-- ==== Sys2Proof/Machine/Mains.lean ====
section
/-! DEFINITION. Mains-cycle integration and the mains tracker (R122 to R128). -/

namespace Sys2Proof.Machine
open Sys2Proof

/-- Nominal period: 60,000,000 ticks at 50 Hz, 50,000,000 at 60 Hz (R126). -/
def nominalPeriod (nom : Bool) : Nat := if nom then 50000000 else 60000000
/-- A measured period lies from 45 Hz to 65 Hz (R126). -/
def inMains (p : Nat) : Bool := decide (45 * p ≤ 3000000000) && decide (3000000000 ≤ 65 * p)
/-- The mean of measurements, to the nearest tick. -/
def meanOf (l : List Nat) : Nat := if l.isEmpty then 0 else (2 * l.sum + l.length) / (2 * l.length)
/-- Eight measurements, each within 1 % of their mean (R126). -/
def steady (l : List Nat) : Bool :=
  decide (l.length = 8) && l.all fun p => decide (100 * Int.natAbs ((8 * p : Nat) - (l.sum : Int)) ≤ l.sum)
/-- The period in use changes at an instant (R123, R126). -/
def Mains.setPeriod (m : Mains) (now : Tick) (p : Nat) : Mains :=
  if p = m.period then m else { m with period := p, perWas := (now, m.period) :: m.perWas }
/-- The period that was in use at an instant. -/
def Mains.periodAt (m : Mains) (t : Tick) : Nat := (((m.perWas.filter fun p => decide (t < p.1)).getLast?).map (·.2)).getD m.period

/-- One measured period, from 45 Hz to 65 Hz or not, moves the tracker (R126): the new tracker, and the event. A measurement outside
the range breaks the run of measurements: DESIGN CHOICE (log 68). -/
def Mains.measure (m : Mains) (p : Nat) (inside : Bool) (now : Tick) (elapsed : Nat) : Mains × Option Ev :=
  let l := if inside then (p :: m.meas).take 8 else []
  let m1 := { m with meas := l, lastMeas := elapsed }
  match m.st with
  | .locked =>
    if inside then (m1.setPeriod now (meanOf l), none)
    else ({ m1 with st := .hold, holdSince := elapsed }, some .mainsLost)
  | _ => if steady l then ({ m1 with st := .locked }.setPeriod now (meanOf l), some .mainsLock) else (m1, none)

/-- The tracker after a measurement, with its event. -/
def State.mainsMeasure (s : State) (p : Nat) (inside : Bool) : State :=
  let r := s.core.mains.measure p inside s.clk.now s.clk.elapsed
  let s1 := s.modCore fun c => { c with mains := r.1 }
  match r.2 with
  | some e => s1.raiseNow e []
  | none => s1

/-- A rising zero crossing among base-rate codes one of which lies at t and the next 12,000 ticks later: the last change of sign,
interpolated linearly to 1 tick (R125). -/
def crossingOf : Int → List Int → Option Int
  | t, x :: y :: l =>
    match crossingOf (t + 12000) (y :: l) with
    | some c => some c
    | none => if x < 0 ∧ 0 ≤ y then some (t + divRoundI (12000 * (-x)) (y - x)) else none
  | _, _ => none
/-- The codes run from the last one at or below −1 % of full scale to the first at or above +1 % (R125). -/
def swings (l : List Int) : Bool :=
  let lim : Int := 10737418
  (match l.head?, l.getLast? with | some a, some b => decide (a < -lim) && decide (lim < b) | _, _ => false) &&
    (l.drop 1).dropLast.all fun x => decide (-lim ≤ x ∧ x ≤ lim)

/-- MAINS_ZERO_CROSSING: the base-rate codes of the source channel, raw, from an index of its grid on, hold a rising crossing, which
reaches the hub in an Event frame (R125, R126). -/
def execMainsZeroCrossing (x : BaseCodes) (s : State) : Host.Outcome State Fault Refusal :=
  let m := s.core.mains
  .next (match s.chanOf m.ch with
  | some ch =>
    let d := s.die ch.die
    let k := s.chan ch
    let t : Int := k.chain.origin + x.first * 12000
    let l := x.codes.zipIdx.map fun p => d.corrected ch.die ch.c p.1 (t + p.2 * 12000).toNat
    if m.src = 1 ∧ k.mode = 1 ∧ k.trans = none ∧ s.barred ch.die = none ∧ swings l = true ∧
        t + (x.codes.length - 1 : Nat) * 12000 + 20 * us ≤ (d.replica : Int) then
      (match crossingOf t l with
      | some c =>
        let s1 := s.modCore fun x => { x with mains := { x.mains with lastCross := some c.toNat, lastMeas := s.clk.elapsed } }
        State.commit s (match m.lastCross with
          | some u => if u < c.toNat then s1.mainsMeasure (c.toNat - u) (inMains (c.toNat - u)) else s
          | none => s1)
      | none => s)
    else s
  | none => s)

/-- MAINS_SOURCE_TIMEOUT: LOCKED, and nothing for 100 ms (R126). That the run of measurements ends there is a DESIGN CHOICE (log 68). -/
def execMainsSourceTimeout (s : State) : Host.Outcome State Fault Refusal :=
  let m := s.core.mains
  .next (
    if m.st = .locked ∧ m.lastMeas + 100 * ms ≤ s.clk.elapsed then
      State.commit s ((s.modCore fun c => { c with mains := { c.mains with st := .hold, holdSince := s.clk.elapsed, meas := [] } }).raiseNow
        .mainsLost [])
    else s)

/-- MAINS_HOLD_EXPIRY: HOLD has lasted HOLD_S (R126). That the run of measurements ends there is a DESIGN CHOICE (log 68). -/
def execMainsHoldExpiry (s : State) : Host.Outcome State Fault Refusal :=
  let m := s.core.mains
  .next (
    if m.st = .hold ∧ m.holdSince + m.holdS * sec ≤ s.clk.elapsed then
      State.commit s (s.modCore fun c => { c with mains := { c.mains with st := .free, meas := [] }.setPeriod s.clk.now (nominalPeriod m.nom) })
    else s)

/-- The boundary sent last. -/
def Mains.last (m : Mains) : Nat × Tick := (m.bounds.head?).getD (0, m.origin)
/-- The next boundary: the period that was in use at the start of this one, rounded to whole packets so that it falls on a packet cycle
start, the rest carried on (R119, R122, R123). -/
def Mains.nextBoundary (m : Mains) : Mains :=
  let t := m.last.2 + m.periodAt m.last.2 + m.carry
  { m with
    bounds := ((m.last.1 + 1, t / 125 * 125) :: m.bounds).take 4
    carry := t % 125
    perWas := m.perWas.filter fun p => decide (t / 125 * 125 < p.1) }

/-- MAINS_BOUNDARY_SEND: once the last boundary sent has fallen, the active hub sends the next one to every die, whose lane and lease
let it through (R13, R21, R123). -/
def execMainsBoundarySend (s : State) : Host.Outcome State Fault Refusal :=
  let m := s.core.mains.nextBoundary
  .next (if s.serving && decide (s.core.mains.last.2 ≤ s.clk.now) then
    State.commit s ((s.modCore fun c => { c with mains := m }).overLanes fun _ d => { d with bounds := (m.last :: d.bounds).take 4 })
  else s)

/-- The first boundary received that a channel's windows meet after their last one: a multiple of N that has come; the first one after
tm + 50 µs, or the origin where a reset or a time step moved it (R122, R123). -/
def Die.meets (d : Die) (k : Channel) : Option Tick :=
  ((d.bounds.filter fun b => b.1 % (Img.mcN k.img + 1) == 0 && decide (b.2 ≤ d.replica) &&
    (match k.chain.mcStart with
    | some a => decide (a < b.2)
    | none => decide (k.chain.tq < b.2) || (b.1 == 0 && b.2 == k.chain.tq))).getLast?).map (·.2)

/-- MAINS_WINDOW_END: a boundary whose number is a multiple of N has come: the window in progress gives one result at its
midpoint with its length in packets, and the next window begins (R122, R124, R131, R182). The midpoint of a window of an odd number of
ticks is rounded down, DEDUCED (log 33). -/
def execMainsWindowEnd (ch : Chan) (raw : Int) (s : State) : Host.Outcome State Fault Refusal :=
  .next (s.modDie ch.die fun d =>
    let k := d.chan ch.c
    if d.on && Img.mcEn k.img && decide (1 ≤ k.mode ∧ k.mode ≤ 5) && k.trans.isNone then
      match d.meets k with
      | some b =>
        (match k.chain.mcStart with
        | some a =>
          let mid := (a + b) / 2
          if d.refCuts a b then
            { (d.modCh ch.c fun k => { k with chain := { k.chain with mcStart := some b } }) with straddle := satInc d.straddle }
          else
          let r := k.report (d.corrected ch.die ch.c raw a) mid
          let len := BitVec.ofNat 32 ((b - a) / 125)
          (d.modCh ch.c fun k =>
            let k := k.noteResult r.1 r.2 mid
            { k with chain := { k.chain with mcLen := len, mcStart := some b } }).deliver ch.c mid
              (angleItems (wordOfInt r.1) len mid (d.q (s.qualityOf mid)))
        | none => d.modCh ch.c fun k => { k with chain := { k.chain with mcStart := some b } })
      | none => d
    else d)

end Sys2Proof.Machine
end

