-- ==== Sys2Proof/Machine/Auxil.lean ====
section
/-! DEFINITION. The auxiliary converter and the references (R129 to R142): passes of the regular table, urgent triggers
and injected sequences, the comparison of A and B and the switch between them. -/

namespace Sys2Proof.Machine
open Sys2Proof

/-- The channel whose DIAG sets the current of a source, for an odd line of a pair the even channel (R132, R133). -/
def AuxEntry.measured (w : Word) : Option ChanId :=
  let s := AuxEntry.source w
  if s < 0x30 then some ⟨s % 16, Nat.mod_lt _ (by decide)⟩
  else if h : 0x40 ≤ s ∧ s ≤ 0x57 then some ⟨2 * (s % 8), by omega⟩ else none
/-- OW_CUR in µA (R117). -/
def owMicroamps (i : ChanImg) : Nat := match fld i.diag 0 2 with | 1 => 1 | 2 => 10 | 3 => 100 | _ => 0
/-- The magnitude of the test current that flows for a source, in µA: OW_CUR, 10 in mode 0x0 with TERM_MON, 100 in modes 0x8 to
0xA while the driver is off or at high-impedance (R132). -/
def Die.testSize (d : Die) (c : ChanId) : Nat :=
  let k := d.chan c
  if k.mode = 0 then (if Img.termMon k.img then 10 else 0)
  else if k.mode = 8 ∨ k.mode = 9 ∨ k.mode = 10 then (if k.out.drive then 0 else 100)
  else owMicroamps (d.govern c)
/-- The test current of a regular entry that began at te, at t, in µA, a pull-up positive: from te to the entry's end; TEST 3 starts
with a pull-up and alternates at each repeat (R132, R134). -/
def Die.testOf (d : Die) (w : Word) (te t : Tick) : Int :=
  let size : Int := match AuxEntry.measured w with | some c => d.testSize c | none => 0
  let rep := (AuxEntry.windows w te).countP fun v => decide (v.2 ≤ t)
  if t < te ∨ te + AuxEntry.length w ≤ t then 0
  else match AuxEntry.test w with
    | 1 => size
    | 2 => -size
    | 3 => if rep % 2 = 0 then size else -size
    | _ => 0
/-- The test current of an injected sequence that arrived at ta, at t: of the entry that is connected, which gives one result, so that
TEST 3 pulls up (R132, R140). -/
def Die.injTest (d : Die) (l : List Word) (ta t : Tick) : Int :=
  match ((injWindows l ta true).zip l).find? fun v => decide (t < v.1.2) with
  | some (_, w) =>
    let size : Int := match AuxEntry.measured w with | some c => d.testSize c | none => 0
    if t < ta then 0 else match AuxEntry.test w with | 1 => size | 2 => -size | 3 => size | _ => 0
  | none => 0
/-- The test current that flows now: of the injected sequence in progress, which removes the regular entry's, or of the regular entry
(R132, R134, R140, R142). -/
def Die.testCurrent (d : Die) : Int :=
  match d.aux.injRun, d.aux.entry with
  | some (_, _, _, ta, l), _ => d.injTest l ta d.replica
  | none, some (i, te) => d.testOf (d.aux.table.toList.getD i 0#32) te d.replica
  | none, none => 0

/-- The entries of the automatic table for one channel (R136). -/
def autoEntries (k : Channel) (c : ChanId) : List Word :=
  let m := k.mode
  let p := c.val / 2
  if m = 1 then
    (if Img.owIo k.img then [AuxEntry.make c.val 50 2 0 3] else []) ++
      (if Img.owSn k.img then [AuxEntry.make (0x10 + c.val) 50 2 0 3] else [])
  else if m = 8 ∨ m = 9 ∨ m = 10 then [AuxEntry.make c.val 50 1 0 1]
  else if m = 0 ∧ Img.termMon k.img = true then [AuxEntry.make c.val 50 1 0 1, AuxEntry.make (0x10 + c.val) 50 1 0 1]
  else if (m = 4 ∨ m = 5) ∧ k.odd = false then
    [AuxEntry.make (0x40 + p) 0 1 0 0, AuxEntry.make (0x48 + p) 0 1 0 0, AuxEntry.make (0x50 + p) 50 1 0 1]
  else []

/-- The automatic table: five housekeeping entries, then the channels in ascending order (R136). -/
def Die.autoTable (d : Die) : List Word :=
  ([0x30, 0x31, 0x32, 0x34, 0x35].map fun s => AuxEntry.make s 0 1 0 0) ++ allC.flatMap fun c => autoEntries (d.chan c) c

/-- A list laid into the first places of a table, the rest kept. -/
def layTable (l : List Word) (v : Vector Word 64) : Vector Word 64 := vmap v fun i w => l.getD i.val w

/-- The next entry from index i on that is not skipped by REPEAT 0 (R132). -/
def Aux.nextFrom (a : Aux) (i : Nat) : Option Nat :=
  (List.range (min a.len 64)).find? fun j => decide (i ≤ j) && decide (AuxEntry.reps (a.table.toList.getD j 0#32) ≠ 0)
/-- Entry i of the table in force. -/
def Aux.entryAt (a : Aux) (i : Nat) : Word := a.table.toList.getD i 0#32

/-! ### Results of the auxiliary converter -/

/-- A code of full scale f as a value in units of 1/n of its unit, rounded. -/
def scaleCode (v : Int) (f : Nat) : Int := divRound (v * f) (2 ^ 30)

/-- A result of a source updates what takes it from every result: TEMP, LP_VOLT with the compensations that follow
Fd_LP, and the bandgap checks (R131, R234, R408). -/
def Die.auxResult (d : Die) (src : Nat) (v : Int) : Die :=
  match src with
  | 0x30 => { d with lpMv := (max 0 (scaleCode v 32000)).toNat }
  | 0x32 => { d with temp := scaleCode v 32768 }
  | 0x34 => { d with aux := { d.aux with bgA := v } }
  | 0x35 => { d with aux := { d.aux with bgB := v } }
  | _ => d

/-- Magnitude in ppm beyond n, of a code whose 2^30 is 10,000 ppm. -/
def beyondPpm (v : Int) (n : Nat) : Bool := decide (n * 2 ^ 30 < v.natAbs * 10000)

/-- The check of R131 after a pass's entry of source 0x35: the die decides to switch, at the first multiple of 10 µs at least 20 µs
later. That a host's table without 0x35 brings no check, and that one without 0x34 is judged by the result of 0x34 that was taken
last, is a DESIGN CHOICE (log 71). -/
def Die.refCheck (d : Die) : Die :=
  let a := d.aux
  let used := if a.inUse then a.bgB else a.bgA
  let rest := if a.inUse then a.bgA else a.bgB
  if a.suspect && a.autoSw && beyondPpm used 1000 && !beyondPpm rest 500 && a.refNext.isNone then
    { d with aux := { a with refNext := some (tenAfterTwenty d.replica, !a.inUse, true) } }
  else d

/-! ### The regular table (R134 to R137) -/

/-- The shadow is installed whole; with AUTO the die builds the table (R136, R137). -/
def Die.installAux (d : Die) : Die :=
  let a := { d.aux with priv := d.aux.privSh, inj := d.aux.injSh }
  if a.auto then
    let l := d.autoTable
    let t := layTable l a.table
    { d with aux := { a with table := t, tableSh := t, len := l.length, lenSh := l.length } }
  else { d with aux := { a with table := a.tableSh, len := a.lenSh } }

/-- AUX_PASS_START, once for each multiple of PASS_MS: skipped while the previous pass runs; else the shadow is installed and, with
RUN, entry 0 begins (R135, R136, R137). -/
def execAuxPassStart (d : DieId) (s : State) : Host.Outcome State Fault Refusal :=
  .next (s.modDie d fun k =>
    let te := nextMultiple (k.aux.passMs * ms) k.aux.passFrom
    if k.on = false ∨ k.past te = false then k
    else
      let k := { k with aux := { k.aux with passFrom := te + 1 } }
      if k.aux.entry.isSome then { k with aux := { k.aux with passSkip := satInc k.aux.passSkip } }
      else
        let k := k.installAux
        if k.aux.run then { k with aux := { k.aux with entry := (k.aux.nextFrom 0).map fun i => (i, te) } } else k)

/-- AUX_ENTRY_END: the entry's last window has ended: its last result is kept, unless it straddles a switch of the reference, and the
next entry begins, while RUN is 1 (R131, R134, R135, R137). An injected sequence in progress holds the table (R142). -/
def execAuxEntryEnd (d : DieId) (result : Int) (s : State) : Host.Outcome State Fault Refusal :=
  .next (s.modDie d fun k =>
    match k.aux.entry, k.aux.injRun with
    | some (i, te), none =>
      let w := k.aux.entryAt i
      let e := te + AuxEntry.length w
      if k.past e && k.on then
        let ws := AuxEntry.windows w te
        let cut := ws.countP fun v => k.refCuts v.1 v.2
        let keep := ws.getLast?.any fun v => !k.refCuts v.1 v.2
        let k1 := if keep then k.auxResult (AuxEntry.source w) result else k
        let k2 : Die := { k1 with
          straddle := satAdd k1.straddle cut
          aux := { k1.aux with
            result := (if keep then vmap k1.aux.result fun j x => if j.val = i then wordOfInt result else x else k1.aux.result)
            entry := (if k1.aux.run then (k1.aux.nextFrom (i + 1)).map fun j => (j, e) else none) } }
        if AuxEntry.source w = 0x35 && keep then k2.refCheck else k2
      else k
    | _, _ => k)

/-! ### Urgent triggers (R138 to R142) -/

/-- PRIVk fields (R150). -/
def privEn (w : Word) : Bool := bit w 15
def privLen (w : Word) : Nat := fld w 12 3 + 1
def privTrig (w : Word) : Nat := fld w 10 2
def privPwm (w : Word) : ChanId := ⟨fld w 4 4, Nat.mod_lt _ (by decide)⟩
def privCh (w : Word) : ChanId := ⟨fld w 0 4, Nat.mod_lt _ (by decide)⟩

/-- The enabled slot that names channel c (R138). -/
def Aux.slotOf (a : Aux) (c : ChanId) : Option (Fin 4) :=
  (List.finRange 4).find? fun k => privEn a.priv[k.val] && decide (privCh a.priv[k.val] = c)
/-- The entries of slot k's injected sequence in force. -/
def Aux.sequence (a : Aux) (k : Fin 4) : List Word :=
  (List.range (privLen a.priv[k.val])).map fun j => a.inj.toList.getD (8 * k.val + j) 0#32

/-- Body words of an occurrence: 8 result words and the info word (R78). -/
def auxWords (occ : Nat) (res : List Word) (dropped : Bool) (q : Nat) : List (Nat × Word) :=
  ((List.range 8).map fun j => (5 + 9 * occ + j, res.getD j 0#32)) ++
    [(5 + 9 * occ + 8, BitVec.ofNat 32 (putBit dropped 0 + putFld q 1 2))]

/-- An occurrence has ended. The entry ends with its last one, once none of them waits or runs (R59, R139, R140). -/
def Die.endOccurrence (d : Die) (u : Urgent) : Die :=
  let others := d.aux.waiting.toList.any (·.any (·.id == u.id)) || (match d.aux.injRun with | some r => r.2.1 == u.id | none => false)
  match d.queued u.id with
  | some e => if e.e.count.toNat ≤ e.done && !others then d.finish u.id .executed else d
  | none => d

/-- An occurrence is dropped with a cause: counted, reported, and recorded with words of zero (R141). -/
def Die.dropUrgent (d : Die) (di : DieId) (q : Nat) (k : Fin 4) (u : Urgent) (cause : Nat) (t : Tick) : Die :=
  let tag := match d.queued u.id with | some e => e.e.tag.toNat | none => 0
  let d1 : Die := ({ d with aux := { d.aux with dropCnt := satInc d.aux.dropCnt } } : Die).push
    [LaneItem.result u.id (auxWords u.occ [] true q) 0 q (u.occ + 1) 3]
  (d1.raise .urgentDropped 0x14 (mkRec .urgentDropped t (srcDie di) q false (leBytes 1 k.val ++ leBytes 1 cause ++ leBytes 4 tag)
    none)).endOccurrence u

/-- The waiting triggers of a slot changed. -/
def Aux.modWait (a : Aux) (k : Fin 4) (f : List Urgent → List Urgent) : Aux := { a with waiting := vmod a.waiting k f }

/-- The trigger instant of a waiting occurrence, once it has come: the schedule's, or the PWM period start or duty end of
PWM_CH in [to, to + PERIOD) (R139). -/
def Die.triggerAt (d : Die) (w : Word) (u : Urgent) : Option Tick :=
  let p := d.chan (privPwm w)
  let inside (t : Tick) : Bool := decide (u.occAt ≤ t) && decide (t < u.limit) && d.past t && p.mode == 10
  match privTrig w with
  | 0 => if d.past u.occAt then some u.occAt else none
  | 1 => if inside p.out.pk && p.out.run then some p.out.pk else none
  | 2 => if inside p.out.hEnd && (p.out.value == 0 || !p.out.run) && decide (p.out.pk < p.out.hEnd) &&
      decide (p.out.hEnd < p.out.pk + p.out.period) then some p.out.hEnd else none
  | _ => none

/-- URGENT_TRIGGER: an occurrence of the AUX_TRIGGER entry meets its trigger instant, and its delay begins: PARAM [15:0]
periods of 24 MHz, 125 ticks each (R139). -/
def execUrgentTrigger (d : DieId) (id : Nat) (s : State) : Host.Outcome State Fault Refusal :=
  .next (s.modDie d fun k =>
    match k.queued id with
    | some e =>
      match k.aux.slotOf e.ch.c with
      | some sl =>
        match (k.aux.waiting[sl.val]).find? (fun u => u.id == id && u.ta.isNone) with
        | some u =>
          match k.triggerAt k.aux.priv[sl.val] u with
          | some t =>
            let v : Urgent := { u with ta := some (t + 125 * fld e.e.param 0 16) }
            { k with aux := k.aux.modWait sl (fun l => l.map fun x => if x = u then v else x) }
          | none => k
        | none => k
      | none => k
    | none => k)

/-- The converter is converting a regular entry at t: powered up in an earlier packet-clock cycle and not ended (R134,
R142). -/
def Aux.convertingRegular (a : Aux) (t : Tick) : Bool :=
  match a.entry with
  | some (i, te) =>
    let w := a.entryAt i
    a.injRun.isNone && !AuxEntry.isWait w && decide (AuxEntry.powerUp w te / 125 < t / 125) && decide (t < te + AuxEntry.length w)
  | none => false

/-- STATUS.CONVERTING: from power-up to the end of the entry or the sequence (R134, R140, R148). -/
def Die.converting (d : Die) : Bool :=
  match d.aux.injRun, d.aux.entry with
  | some _, _ => true
  | none, some (i, te) =>
    let w := d.aux.entryAt i
    !AuxEntry.isWait w && decide (AuxEntry.powerUp w te ≤ d.replica) && decide (d.replica < te + AuxEntry.length w)
  | none, none => false

/-- The cause for which a trigger of slot k that arrives at ta is dropped (R141). -/
def Aux.dropCause (a : Aux) (k : Fin 4) (u : Urgent) (ta : Tick) : Option Nat :=
  let lower := (List.finRange 4).any fun j => decide (j < k) && (a.waiting[j.val]).any fun x =>
    match x.ta with | some t => t / 125 == ta / 125 | none => false
  let older := ((a.waiting[k.val]).takeWhile fun x => decide (x ≠ u)).any fun x =>
    match x.ta with | some t => decide (ta < t) | none => false
  if older then some 4
  else if a.convertingRegular ta then some 0
  else match a.injRun with
    | some (j, _, _, tj, l) =>
      if tj / 125 = ta / 125 ∧ j < k.val then some 2
      else if ta < injEnd l tj then some 1
      else if lower then some 2 else none
    | none => if lower then some 2 else none

/-- URGENT_ARRIVAL at ta: dropped, or the injected sequence starts and a regular entry that has not powered up the
converter waits (R140, R141, R142). A trigger whose entry has retired is nothing. -/
def execUrgentArrival (d : DieId) (k : Fin 4) (s : State) : Host.Outcome State Fault Refusal :=
  .next (s.modDie d fun x =>
    match (x.aux.waiting[k.val]).find? (fun u => match u.ta with | some t => x.past t | none => false) with
    | some u =>
      let ta := u.ta.getD 0
      let x1 := { x with aux := x.aux.modWait k (fun l => l.filter (· != u)) }
      if (match x.queued u.id with | some e => e.live | none => false) then
        match x.aux.dropCause k u ta with
        | some cause => x1.dropUrgent d (x.q (s.qualityOf ta)) k u cause ta
        | none => { x1 with aux := { x1.aux with injRun := some (k.val, u.id, u.occ, ta, x1.aux.sequence k) } }
      else x1
    | none => x)

/-- PWM_EVENT_TIMEOUT: a slot of TRIG 1 or 2 saw no PWM event before to + PERIOD (R139, cause 3 of R141). -/
def execPwmEventTimeout (d : DieId) (k : Fin 4) (s : State) : Host.Outcome State Fault Refusal :=
  .next (s.modDie d fun x =>
    match (x.aux.waiting[k.val]).find? (fun u => u.ta.isNone && x.past u.limit && privTrig x.aux.priv[k.val] != 0) with
    | some u =>
      let x1 := { x with aux := x.aux.modWait k (fun l => l.filter (· != u)) }
      if (match x.queued u.id with | some e => e.live | none => false) then x1.dropUrgent d (x.q (s.qualityOf u.limit)) k u 3 u.limit else x1
    | none => x)

/-- After an injected sequence that ended at t, an abandoned entry restarts; a wait keeps its time, and when it has expired
the next entry begins now (R142). -/
def Aux.resumeTable (a : Aux) (t : Tick) : Aux :=
  match a.entry with
  | some (i, te) =>
    let w := a.entryAt i
    if !AuxEntry.isWait w then { a with entry := some (i, t) }
    else if te + AuxEntry.length w ≤ t then
      { a with entry := (if a.run then (a.nextFrom (i + 1)).map fun j => (j, t) else none) }
    else a
  | none => a

/-- INJECTED_SEQUENCE_END: the results go to the occurrence's words, a wait giving 0; the last occurrence retires the
entry; the regular table resumes (R140, R142, R408). -/
def execInjectedSequenceEnd (d : DieId) (results : List Int) (s : State) : Host.Outcome State Fault Refusal :=
  .next ((s.modDie d fun x =>
    match x.aux.injRun with
    | some (_, id, occ, ta, l) =>
      let e := injEnd l ta
      if x.past e && x.on then
        let ws := injWindows l ta true
        let lost (j : Nat) : Bool := match ws[j]? with | some v => x.refCuts v.1 v.2 | none => false
        let words := l.zipIdx.map fun p => if AuxEntry.isWait p.1 then 0#32
          else if lost p.2 then Config.measured (s.free + p.2) else wordOfInt (results.getD p.2 0)
        let mid := match ws with | w :: _ => (w.1 + w.2) / 2 | [] => ta
        let q := x.q (s.qualityOf mid)
        let x1 := l.zipIdx.foldl (fun (y : Die) p =>
          if AuxEntry.isWait p.1 || lost p.2 then y else y.auxResult (AuxEntry.source p.1) (results.getD p.2 0))
          { x with straddle := satAdd x.straddle (ws.countP fun (v : Tick × Tick) => x.refCuts v.1 v.2) }
        let x2 := { x1 with aux := ({ x1.aux with injRun := none } : Aux).resumeTable e }
        let live := match x.queued id with | some e => e.live | none => false
        if live then
          (x2.push [LaneItem.result id (auxWords occ words false q) mid q (occ + 1) 0]).endOccurrence
            ⟨id, occ, ta, none, 0⟩
        else x2
      else x
    | none => x).skipFree 8)

/-! ### References (R129, R131) -/

/-- EV_REF_DISAGREE on the auxiliary sequencer page, with its SWITCHED flag. -/
def Die.refEvent (d : Die) (di : DieId) (t q : Nat) (st sw : Bool) : Die :=
  d.raise .refDisagree 0x14 (mkRec .refDisagree t (srcDie di) q st (leBytes 1 (if sw then 1 else 0)) none)

/-- Mean of the last 16 comparisons, in codes of 1,000 ppm at 2^30 (R129). -/
def Aux.refDiff (a : Aux) : Int := divRound (a.diffs.map (·.2)).sum (max 1 a.diffs.length)

/-- REF_COMPARE every 1 ms: SUSPECT is set above 20 ppm, and cleared when the mean has stayed at or below 15 ppm for 1 s
(R129). -/
def execRefCompare (d : DieId) (diff : Int) (s : State) : Host.Outcome State Fault Refusal :=
  .next (s.modDie d fun k =>
    if !k.on || k.aux.cmpAt.any fun t => decide (s.clk.elapsed < t + ms) then k
    else
      let l := ((k.replica, diff) :: k.aux.diffs).take 16
      let sum : Int := (l.map (·.2)).sum
      let far := decide (l.length = 16) && decide (20 * 16 * 2 ^ 30 < sum.natAbs * 1000)
      let near := decide (sum.natAbs * 1000 ≤ 15 * l.length * 2 ^ 30)
      let since := if near then some (k.aux.goodSince.getD s.clk.elapsed) else none
      let k1 := { k with aux := { k.aux with diffs := l, cmpAt := some s.clk.elapsed, goodSince := since } }
      if far && !k.aux.suspect then
        let ts := (l.getLast?.map (·.1)).getD k.replica - ms
        ({ k1 with aux := { k1.aux with suspect := true, suspAt := some k.replica, episodes := satTo 65535 (k1.aux.episodes + 1) } } : Die).refEvent
          d ts (k.q (s.qualityOf ts)) true false
      else if k.aux.suspect && since.any fun t => decide (t + sec ≤ s.clk.elapsed) then
        ({ k1 with aux := { k1.aux with suspect := false, clearAt := some k.replica } } : Die).refEvent d k.replica (s.dq d) false false
      else k1)

/-- SUSPECT was 0 throughout an interval that has passed (R186). -/
def Aux.quiet (a : Aux) (t u : Tick) : Bool :=
  (!a.suspect || a.suspAt.any fun x => decide (u < x)) && a.clearAt.all fun x => decide (x ≤ t) || decide (u < x) && a.suspAt.all fun y => decide (u < y)

/-- REF_SWITCH at the switch instant: conversions across it are discarded and counted as they end, and EV_REF_DISAGREE says SWITCHED
(R131). -/
def execRefSwitch (d : DieId) (s : State) : Host.Outcome State Fault Refusal :=
  .next (s.modDie d fun k =>
    match k.aux.refNext with
    | some (t, target, own) =>
      if k.past t then
        ({ k with aux := { k.aux with inUse := target, refNext := none, switched := k.aux.switched || own, cutAt := some t } } : Die).refEvent
          d t (k.q (s.qualityOf t)) k.aux.suspect true
      else k
    | none => k)

end Sys2Proof.Machine
end

