-- ==== Sys2Proof/Machine/Carousel.lean ====
section
/-! DEFINITION. The carousel of spare slices, hallmarks, and the instants of system calibration (R182 to R201). -/

namespace Sys2Proof.Machine
open Sys2Proof

/-! ### Solving four points (R186, R189) -/

/-- Coefficients that correct zero, +FS and −FS to 0, 2^30 and −2^30: numerators of OFFSET, GAIN / 2^30 and BOW / 2^60
over one denominator (R186). -/
def solveNum (z p m : Int) : Int × Int × Int × Int :=
  let d1 := p - z
  let d2 := p - m
  let d3 := m - z
  let f : Int := 2 ^ 30
  let c := f * (2 * d1 - d2)
  (c * z * p - z * f * d2 * d3, f * d2 * d3 - c * (z + p), c, d1 * d2 * d3)

/-- The solved coefficients; points that coincide leave them open (R186). -/
def solvePoints (free : Nat) (z p m : Int) : Coeffs :=
  let n := solveNum z p m
  if n.2.2.2 = 0 then ⟨Config.unsolved free, Config.unsolved (free + 1), Config.unsolved (free + 2)⟩
  else ⟨divRoundI n.1 n.2.2.2, divRoundI (n.2.1 * 2 ^ 30) n.2.2.2, divRoundI (n.2.2.1 * 2 ^ 60) n.2.2.2⟩

/-- The four points as a row carries them: zero, +FS, −FS, +FS/2. -/
def point (l : List Int) (i : Nat) : Int := l.getD i 0

/-- Residual of the check point: its corrected value less 2^29 (R186). -/
def residual (k : Coeffs) (half : Int) : Int := sliceCorrect k half - 2 ^ 29

/-- A slice is faulty: GAIN beyond 1 % or OFFSET beyond 2^24 (R189). -/
def faulty (k : Coeffs) : Bool := decide (2 ^ 30 < 100 * (k.gain - 2 ^ 30).natAbs) || decide (2 ^ 24 < k.offset.natAbs)

/-! ### Visits (R183 to R188) -/

/-- One spare changed. -/
def Die.modSpare (d : Die) (k : SpareId) (f : Spare → Spare) : Die :=
  { d with car := { d.car with spares := vmod d.car.spares k f } }
/-- A spare. -/
def Die.spare (d : Die) (k : SpareId) : Spare := d.car.spares[k.val]

/-- The channel that spare k visits in the slot beginning at s: 2n + k in slots of 8 s, or c in the remaining spare's
cycle of 16 s (R183, R190). -/
def Carousel.visit (x : Carousel) (k : SpareId) (s : Tick) : ChanId :=
  let n := s / sec
  match x.cycle16 with
  | some t => if t ≤ s then ⟨n % 16, Nat.mod_lt _ (by decide)⟩ else ⟨(2 * (n % 8) + k.val) % 16, Nat.mod_lt _ (by decide)⟩
  | none => ⟨(2 * (n % 8) + k.val) % 16, Nat.mod_lt _ (by decide)⟩

/-- A visit may take place: modes 0x1 to 0x6 and 0x8 to 0xC, not parked (R184). That a channel whose mode transition still runs is not
visited is a DESIGN CHOICE (log 63). -/
def Channel.visitable (k : Channel) : Bool :=
  (decide (1 ≤ k.mode ∧ k.mode ≤ 6) || decide (8 ≤ k.mode ∧ k.mode ≤ 12)) && !k.cal.parked && k.trans.isNone

/-- Length of the channel's windows, or one base-rate interval (R151, R160). -/
def Channel.step (k : Channel) : Nat := if Img.lock k.img = 2 then Img.scsWin k.img * 192000 else 12000
/-- The first base-rate instant at or after t, or the first window boundary; none while no boundary of a mains-cycle window has come
(R185). -/
def Channel.boundary (k : Channel) (t : Tick) : Option Tick :=
  if Img.mcEn k.img then k.chain.mcStart.bind fun b => if t ≤ b then some b else none
  else some ((k.chain.origin : Int) + ceilInt ((t : Int) - k.chain.origin) k.step * k.step).toNat
/-- The instants tp of the calibration points of a channel, or of its pair, that have been kept, in order (R196, R197). -/
def Die.points (d : Die) (c : ChanId) : List Tick :=
  ((d.unit c).flatMap fun m => ((d.chan m).cal.point.map (·.tp)).toList ++ (d.chan m).cal.ended).insertionSort (· ≤ ·)
/-- When a phase that would end at t ends: one whose end falls in the window of a calibration point goes on to the window's end
(R197). -/
def Die.phaseEnd (d : Die) (c : ChanId) (t : Tick) : Tick :=
  (d.points c).foldl (fun t tp => if tp ≤ t ∧ t < tp + 100 * ms then tp + 100 * ms else t) t
/-- tk or th: the boundary at or after t, and where that falls in the window of a calibration point the one at or after the window's end
(R185, R197). -/
def Die.switchAt (d : Die) (c : ChanId) (t : Tick) : Option Tick :=
  ((d.chan c).boundary (d.phaseEnd c t)).bind fun b =>
    if d.phaseEnd c b = b then some b else (d.chan c).boundary (d.phaseEnd c b)
/-- A row brings what an accumulation from a to b takes: the raw codes of the own slice and of the spare at each base-rate instant, or
in each whole window; how many mains-cycle windows there are the row says (R185). -/
def Channel.pairsOk (k : Channel) (a b : Tick) (n : Nat) : Bool :=
  let o : Int := k.chain.origin
  Img.mcEn k.img ||
    (if Img.lock k.img = 2 then n == (((b : Int) - o) / (k.step : Int) - ceilInt ((a : Int) - o) k.step).toNat
    else n == (ceilInt ((b : Int) - o) k.step - ceilInt ((a : Int) - o) k.step).toNat)
/-- How many of the last pairs stand for the 10 ms before a switch: at least one window (R187). -/
def Channel.tenMs (k : Channel) : Nat := if Img.mcEn k.img then 1 else max 1 (10 * ms / k.step)

/-- Own slice corrected − spare corrected, for each pair; `trim` is the spare's at each (R185, R187). -/
def pairDiffs (own spare : Coeffs) (trim : Nat → Int) (l : List (Int × Int)) : List Int :=
  l.zipIdx.map fun p => sliceCorrect own p.1.1 - (sliceCorrect spare p.1.2 + trim p.2)
/-- The mean of an accumulation; that of an accumulation a restart left nothing of is open (R185). -/
def accMean (free : Nat) (l : List Int) : Int := if l.isEmpty then Config.unsolved free else divRound l.sum l.length
/-- The match check of R187. -/
def matched (mean : Int) : Bool := decide (mean.natAbs ≤ 8192)
/-- Coefficients in force of a channel's own slice (R195). -/
def Die.ownCo (d : Die) (di : DieId) (c : ChanId) (q : Nat) : Coeffs := coeffsOf (d.chan c).cal.slice di c.val q

/-- A spare starts a visit: it connects to the channel, takes its quantity and power mode, and, unless SUSPECT is 1, its own new
coefficients (R121, R130, R185, R193). -/
def Spare.start (p : Spare) (k : Channel) (c : ChanId) (s : Tick) (suspect : Bool) : Spare :=
  { p with
    phase := .shadowIn
    ch := c
    slot := s
    lowpwr := Img.lowpwr k.img
    qty := quantity k.img
    coeffs := (match p.next with | some n => if suspect then p.coeffs else assocSet p.coeffs n.1 n.2 | none => p.coeffs)
    next := (if suspect then p.next else none)
    ramp := none
    solved := none
    retry := none }
/-- A spare goes into self-calibration on the calibration network, in its normal power mode (R121, R185). -/
def Spare.selfCal (p : Spare) : Spare := { p with phase := .selfCal, lowpwr := false, ramp := none, solved := none, retry := none }

/-- The next slot of spare k begins at a multiple of 1 s plus k · 500 ms (R183). -/
def Spare.nextSlot (p : Spare) (k : SpareId) : Tick := k.val * (500 * ms) + nextMultiple sec (p.slotFrom - k.val * (500 * ms))
/-- CAROUSEL_SLOT_START, once for each slot: a visit, a slot of self-calibration, or a skip while a handback is awaited; none starts on
the way into Sleep (R183, R184, R187, R188, R330). That a slot which begins while the visit of the one before still runs, without a
failed match check, starts nothing and is neither counted nor reported is a DESIGN CHOICE (R183, R188; log 63). -/
def execCarouselSlotStart (d : DieId) (k : SpareId) (s : State) : Host.Outcome State Fault Refusal :=
  .next (s.modDie d fun x =>
    let p := x.spare k
    let t := p.nextSlot k
    if !x.on || !x.past t then x
    else
      let x := x.modSpare k fun p => { p with slotFrom := t + 1 }
      if !x.car.run || s.enteringSleep d || p.fault || p.phase == .parked then x
      else if p.retry.isSome then x.calSkip d (s.dq d) p.ch 2
      else if p.visiting then x
      else
        let c := x.car.visit k t
        if (x.chan c).visitable then x.modSpare k (·.start (x.chan c) c t x.aux.suspect)
        else x.modSpare k fun p => { p.selfCal with slot := t })

/-- The takeover of a visit, at tk: the trim is set to the mean of the differences from s + 20 ms on; the spare takes over, or the
visit is skipped (R185, R187). -/
def Die.takeover (x : Die) (d : DieId) (k : SpareId) (q free : Nat) (pairs : List (Int × Int)) : Die :=
  let p := x.spare k
  let h := x.chan p.ch
  let e := x.phaseEnd p.ch (p.slot + 100 * ms)
  match x.switchAt p.ch e with
  | some tk =>
    if x.on && p.phase == .shadowIn && x.past tk && h.pairsOk (max (x.phaseEnd p.ch (p.slot + 20 * ms)) x.car.cut) e pairs.length then
      let l := pairDiffs (x.ownCo d p.ch p.qty) (p.co d k p.qty) (fun _ => 0) pairs
      let trim := accMean free l
      let x1 := x.modSpare k fun p => { p with trim := trim }
      if matched (accMean (free + 1) (l.drop (l.length - h.tenMs)) - trim) then
        ((x1.serveUntil d p.ch tk).modSpare k fun p => { p with phase := .serve }).modCh p.ch fun h =>
          { h with cal := { h.cal with server := k.val + 1 } }
      else (x1.modSpare k (·.selfCal)).calSkip d q p.ch 1
    else x
  | none => x
/-- CAROUSEL_TAKEOVER at tk (R185, R187). The row brings the raw codes of the own slice and of the spare since s + 20 ms. -/
def execCarouselTakeover (d : DieId) (k : SpareId) (own spare : List Int) (s : State) : Host.Outcome State Fault Refusal :=
  .next ((s.modDie d fun x => x.takeover d k (s.dq d) s.free (own.zip spare)).skipFree 2)

/-- A slice fault: EV_CAL_SLICE_FAULT, and EV_DEVICE_FAULT with source 2 and the die (R190, R191, R299). -/
def Die.sliceFault (d : Die) (di : DieId) (q src : Nat) : Die :=
  (d.raise .calSliceFault 0x13 (mkRec .calSliceFault d.replica src q false [] none)).raiseHub
    (mkRec .deviceFault d.replica (srcDie di) q false (leBytes 1 2) none)

/-- The remaining spare's cycle begins at the next multiple of 16 s (R190, R191). -/
def Die.cycle16 (d : Die) : Die := { d with car := { d.car with cycle16 := some ((d.replica / (16 * sec) + 1) * (16 * sec)) } }

/-- Coefficients are rejected: counted, and reported unless SUSPECT alone was the cause (R130, R186). -/
def Die.calReject (d : Die) (q src : Nat) (resid : Int) (silent : Bool) : Die :=
  let d1 : Die := { d with car := { d.car with rejectCnt := satInc d.car.rejectCnt } }
  if silent then d1
  else d1.raise .calReject 0x13 (mkRec .calReject d.replica src q false (leBytes 8 (BitVec.ofInt 64 resid).toNat) none)

/-- The end of the points of a visit, at s + 650 ms: the four points are solved, and Δ is measured with the new coefficients. A faulty
own slice parks the channel; else the coefficients are accepted, or rejected and Δ is measured with the previous ones, and the trim
starts its ramp by Δ (R130, R185, R186, R189, R191). -/
def Die.pointsEnd (x : Die) (d : DieId) (k : SpareId) (q free : Nat) (points : List Int) (pairs : List (Int × Int)) (temp : Int) : Die :=
  let p := x.spare k
  let h := x.chan p.ch
  let src := srcCh d p.ch
  let e := x.phaseEnd p.ch (p.slot + 650 * ms)
  let co := solvePoints free (point points 0) (point points 1) (point points 2)
  let r := residual co (point points 3)
  let delta (own : Coeffs) : Int := accMean (free + 3) (pairDiffs own (p.co d k p.qty) (fun _ => p.trim) pairs)
  if x.on && p.phase == .serve && x.past e && h.pairsOk (max (x.phaseEnd p.ch (p.slot + 600 * ms)) x.car.cut) e pairs.length then
    if faulty co then
      (((x.modSpare k fun p => { p with phase := .parked }).modCh p.ch fun h =>
        { h with cal := { h.cal with parked := true } }).sliceFault d q src).cycle16
    else
      let good := decide (r.natAbs ≤ 4295) && decide ((delta co).natAbs ≤ 214748)
      let took := good && x.aux.quiet (x.phaseEnd p.ch (p.slot + 150 * ms)) (x.phaseEnd p.ch (p.slot + 550 * ms))
      let dl := if took then delta co else delta (x.ownCo d p.ch p.qty)
      let x1 := x.modSpare k fun p => { p with
        phase := .shadowOut
        solved := (if took then some (co, r.natAbs, temp) else none)
        ramp := some (p.trim, dl, e)
        trim := p.trim + dl }
      if took then x1 else x1.calReject q src r good
  else x
/-- CAROUSEL_POINTS_END at s + 650 ms (R185, R186). The row brings the means of the four points and the raw codes of the own slice and of
the spare since s + 600 ms. -/
def execCarouselPointsEnd (d : DieId) (k : SpareId) (points : List Int) (pairs : List (Int × Int)) (temp : Int) (s : State) :
    Host.Outcome State Fault Refusal :=
  .next ((s.modDie d fun x => x.pointsEnd d k (s.dq d) s.free points pairs temp).skipFree 4)

/-- The octets of a hallmark that its CRC covers (R192). -/
def Hallmark.body (m : Hallmark) : List Byte :=
  leBytes 4 m.seq ++ leBytes 8 m.time ++ leBytes 1 m.die ++ leBytes 1 m.slice ++ leBytes 1 m.qty ++ leBytes 1 m.flags ++
    leBytes 4 (wordOfInt m.k.offset).toNat ++ leBytes 4 (wordOfInt m.k.gain).toNat ++ leBytes 4 (wordOfInt m.k.bow).toNat ++
    leBytes 2 (wordOfInt m.temp).toNat ++ leBytes 2 m.resid
/-- The CRC of a hallmark is that of its octets (R192, R195). -/
def Hallmark.valid (m : Hallmark) : Bool := m.crc == Config.crc32c m.body
/-- A hallmark sealed with its CRC (R192). -/
def Hallmark.seal (m : Hallmark) : Hallmark := { m with crc := Config.crc32c m.body }
/-- The same slice of the same die, in the same quantity (R194). -/
def Hallmark.same (m x : Hallmark) : Bool := decide (m.die = x.die) && decide (m.slice = x.slice) && decide (m.qty = x.qty)

/-- A hallmark is sealed in its slice's block, with EV_CAL_HALLMARK carrying SEQ and SLICE; `time` is th, or the end of
self-calibration (R192, R193). -/
def Die.hallmark (d : Die) (di : DieId) (q : Nat) (time : Tick) (slot : Fin 18) (sliceByte qty : Nat) (k : Coeffs) (temp : Int)
    (resid src : Nat) : Die :=
  let h := Hallmark.seal ⟨d.car.hmSeq + 1, time, di.val, sliceByte, qty, q % 4 + putBit d.aux.inUse 2, k, temp,
    min 0xFFFF (resid / 128), 0#32⟩
  ({ d with car := { d.car with
      hmSeq := d.car.hmSeq + 1
      hm := vmod d.car.hm slot fun _ => some h
      latest := h :: d.car.latest.filter fun x => !h.same x } } : Die).raise .calHallmark 0x13
    (mkRec .calHallmark d.replica src q false (leBytes 4 (d.car.hmSeq + 1) ++ leBytes 1 sliceByte) none)

/-- The coefficients an own slice takes back into service: the accepted ones, unless SUSPECT is 1 (R130, R186). -/
def Die.handCo (x : Die) (d : DieId) (p : Spare) : Coeffs :=
  match p.solved with
  | some n => if x.aux.suspect then x.ownCo d p.ch p.qty else n.1
  | none => x.ownCo d p.ch p.qty
/-- The Δ accumulation is due again: the match check failed at r, and the new ramp has not begun (R187). -/
def Spare.mustRamp (p : Spare) : Option Tick :=
  p.retry.bind fun r => if p.ramp.any fun m => decide (r < m.2.2) then none else some r
/-- After a failed match check at r, the Δ of the 50 ms from r on is ramped over the next 50 ms (R185, R187). -/
def Die.rampAgain (x : Die) (d : DieId) (k : SpareId) (free : Nat) (r : Tick) (pairs : List (Int × Int)) : Die :=
  let p := x.spare k
  let h := x.chan p.ch
  let e := x.phaseEnd p.ch (r + 50 * ms)
  if x.past e && h.pairsOk (max r x.car.cut) e pairs.length then
    let dl := accMean free (pairDiffs (x.handCo d p) (p.co d k p.qty) (fun _ => p.trim) pairs)
    x.modSpare k fun p => { p with ramp := some (p.trim, dl, e), trim := p.trim + dl }
  else x
/-- When the handback may come: s + 700 ms, or after a failed check just after r + 100 ms, and not before the ramp has ended (R185,
R187, R197). -/
def Die.handAt (x : Die) (p : Spare) : Option Tick :=
  let t := match p.retry with | some r => r + 100 * ms + 1 | none => p.slot + 700 * ms
  let u := match p.ramp with | some m => m.2.2 + 50 * ms | none => t
  x.switchAt p.ch (max t u)
/-- The spare hands its channel back at th: the own slice serves, with its accepted coefficients and their hallmark (R121, R130, R185,
R192, R193, R195). That after a handback at or after s + 1,000 ms the spare is idle, and calibrates itself no more in that slot, is a
DESIGN CHOICE (R185; log 63). -/
def Die.handOver (x : Die) (d : DieId) (k : SpareId) (q : Nat) (th : Tick) : Die :=
  let p := x.spare k
  let c := p.ch
  let x1 := ((x.serveUntil d c th).modSpare k fun p => { p.selfCal with
    phase := (if th < p.slot + sec then .selfCal else .idle)
    visits := satInc p.visits }).modCh c fun h => { h with cal := { h.cal with server := 0 } }
  match (if x.aux.suspect then none else p.solved) with
  | some (co, r, temp) =>
    (x1.modCh c fun h => { h with cal := { h.cal with slice := assocSet h.cal.slice p.qty co, warm := true } }).hallmark
      d q th ⟨c.val, by omega⟩ c.val p.qty co temp r (srcCh d c)
  | none => x1
/-- A handback that is due: the match check over the last 10 ms before th, and the switch, or another try (R185, R187). -/
def Die.handback (x : Die) (d : DieId) (k : SpareId) (q free : Nat) (pairs : List (Int × Int)) : Die :=
  let p := x.spare k
  let h := x.chan p.ch
  match x.handAt p with
  | some th =>
    let n := pairs.length
    let back := if Img.lock h.img = 2 then h.tenMs * h.step else 10 * ms
    let at_ (i : Nat) : Tick := if Img.mcEn h.img || Img.lock h.img = 2 then th else th - 12000 * (n - i)
    if x.past th && h.pairsOk (max (th - back) x.car.cut) th n then
      if matched (accMean free (pairDiffs (x.handCo d p) (p.co d k p.qty) (fun i => x.trimAt k (at_ i)) pairs)) then x.handOver d k q th
      else x.modSpare k fun p => { p with retry := some th }
    else x
  | none => x
/-- CAROUSEL_HANDBACK: at th the match check and the handback; after a failed check first the Δ again, 50 ms later (R185, R187, R193,
R195). The row brings the raw codes of the own slice and of the spare in the 10 ms before th, or in those 50 ms. -/
def execCarouselHandback (d : DieId) (k : SpareId) (own spare : List Int) (s : State) : Host.Outcome State Fault Refusal :=
  .next ((s.modDie d fun x =>
    let p := x.spare k
    if x.on && p.phase == .shadowOut then
      match p.mustRamp with
      | some r => x.rampAgain d k s.free r (own.zip spare)
      | none => x.handback d k (s.dq d) s.free (own.zip spare)
    else x).tickFree)

/-- The end of a slot in self-calibration: a faulty spare is withdrawn; else its coefficients are accepted, to act from its next
visit, or rejected (R130, R185, R189, R190, R193). -/
def Die.selfCalEnd (x : Die) (d : DieId) (k : SpareId) (q free : Nat) (points : List Int) (temp : Int) : Die :=
  let p := x.spare k
  let co := solvePoints free (point points 0) (point points 1) (point points 2)
  let r := residual co (point points 3)
  if x.on && p.phase == .selfCal && x.past (p.slot + sec) then
    if faulty co then ((x.modSpare k fun p => { p with phase := .fault, fault := true }).sliceFault d q (srcDie d)).cycle16
    else
      let x1 := x.modSpare k fun p => { p with phase := .idle }
      let good := decide (r.natAbs ≤ 4295)
      if good && x.aux.quiet (p.slot + 750 * ms) (p.slot + sec) then
        (x1.modSpare k fun p => { p with next := some (p.qty, co) }).hallmark d q (p.slot + sec) ⟨16 + k.val, by omega⟩
          ((k.val + 1) * 16) p.qty co temp r.natAbs (srcDie d)
      else x1.calReject q (srcDie d) r good
  else x
/-- CAROUSEL_SELF_CAL_END at the end of the slot (R185, R190). -/
def execCarouselSelfCalEnd (d : DieId) (k : SpareId) (points : List Int) (temp : Int) (s : State) :
    Host.Outcome State Fault Refusal :=
  .next ((s.modDie d fun x => x.selfCalEnd d k (s.dq d) s.free points temp).skipFree 3)

/-! ### Non-volatile stores (R200, R201, R291, R363) -/

/-- The newest of two banks by sequence number (R201). -/
def newestBank {α : Type} (a b : Option (Nat × α)) : Option (Nat × α) :=
  match a, b with
  | some x, some y => if x.1 < y.1 then some y else some x
  | some x, none => some x
  | none, y => y
/-- The two banks after a store: the bank that does not hold the newest is written, one number higher (R200). -/
def writeBank {α : Type} (a b : Option (Nat × α)) (v : α) : Option (Nat × α) × Option (Nat × α) :=
  match a, b with
  | some x, some y => if x.1 < y.1 then (some (y.1 + 1, v), b) else (a, some (x.1 + 1, v))
  | some x, none => (a, some (x.1 + 1, v))
  | none, some y => (some (y.1 + 1, v), b)
  | none, none => (some (1, v), none)
/-- The two banks after a copy of another store's newest, where that has the higher number (R201). -/
def adoptBank {α : Type} (a b o : Option (Nat × α)) : Option (Nat × α) × Option (Nat × α) :=
  match newestBank a b, o with
  | some x, some y =>
    if x.1 < y.1 then (if a.isSome && (b.isNone || decide (x.1 = (a.map (·.1)).getD 0)) then (a, o) else (o, b)) else (a, b)
  | none, some _ => (o, b)
  | _, none => (a, b)

/-- The newest bank of corrections (R201). -/
def NvStore.newest (n : NvStore) : Option (Nat × List (Nat × Int × Int)) := newestBank n.bankA n.bankB
/-- The newest bank of keys (R363). -/
def NvStore.newestKeys (n : NvStore) : Option (Nat × List (Nat × List Byte)) := newestBank n.keyA n.keyB
/-- The newest warm-start set (R194, R195). -/
def NvStore.warm (n : NvStore) : List Hallmark := match newestBank n.warmA n.warmB with | some b => b.2 | none => []
/-- The banks after a store whose read-back fails: the one written holds no valid commit record, the newest is as before (R200). -/
def spoilBank {α : Type} (a b : Option (Nat × α)) : Option (Nat × α) × Option (Nat × α) :=
  match a, b with
  | some x, some y => if x.1 < y.1 then (none, b) else (a, none)
  | _, _ => (a, b)
/-- A warm-start set is written and its read-back fails (R194, R200). -/
def NvStore.spoilWarm (n : NvStore) : NvStore :=
  { n with warmA := (spoilBank n.warmA n.warmB).1, warmB := (spoilBank n.warmA n.warmB).2 }
/-- A warm-start set is stored (R194, R200). -/
def NvStore.storeWarm (n : NvStore) (v : List Hallmark) : NvStore :=
  { n with warmA := (writeBank n.warmA n.warmB v).1, warmB := (writeBank n.warmA n.warmB v).2 }
/-- The stored keys (R363). -/
def NvStore.keys (n : NvStore) : List (Nat × List Byte) := match n.newestKeys with | some b => b.2 | none => []
/-- A set of corrections is stored (R200). -/
def NvStore.storeCal (n : NvStore) (v : List (Nat × Int × Int)) : NvStore :=
  { n with bankA := (writeBank n.bankA n.bankB v).1, bankB := (writeBank n.bankA n.bankB v).2 }
/-- A set of keys is stored (R363). -/
def NvStore.storeKeys (n : NvStore) (v : List (Nat × List Byte)) : NvStore :=
  { n with keyA := (writeBank n.keyA n.keyB v).1, keyB := (writeBank n.keyA n.keyB v).2 }
/-- Of two hubs' stores the higher sequence number governs and is copied into the other (R201, R363); the warm-start banks follow
the same rule (DESIGN CHOICE, log 63). -/
def NvStore.adopt (own o : NvStore) : NvStore :=
  let c := adoptBank own.bankA own.bankB o.newest
  let k := adoptBank own.keyA own.keyB o.newestKeys
  let w := adoptBank own.warmA own.warmB (newestBank o.warmA o.warmB)
  { own with bankA := c.1, bankB := c.2, keyA := k.1, keyB := k.2, warmA := w.1, warmB := w.2 }

/-- The standby writes its store along with the active hub: it follows, and the String is trained; over a String that is down a role covers
the hub's own store alone (R200, R291). -/
def State.sharesStores (s : State) : Bool := s.mirroring && s.mirror.str.st == .trained
/-- A store is written by the active hub and, where it shares it, by the standby from the same set (R200, R291). -/
def State.putStore (s : State) (f : NvStore → NvStore) : State :=
  let put (x : State) (h : HubId) : State := x.modHub h fun u => { u with nv := f u.nv }
  if s.sharesStores then put (put s s.active) (other s.active) else put s s.active

/-- The other hub holds a role. -/
def heldNow (x : Option Nat) (elapsed : Nat) : Bool := match x with | some t => decide (elapsed < t) | none => false
/-- The active hub takes the role that a store needs, which the other hub grants while it does not hold it; with the String down
a hub has its own store to itself; in a power-down no store is started (R201, R291, R343). -/
def State.takeRole (s : State) (key : Bool) : Option State :=
  if s.power.step ≠ 0 then none
  else if !s.variant.dual || s.mirror.str.st != .trained then some s
  else
    let o := s.hub (other s.active)
    let till := some (s.clk.elapsed + 200 * us)
    if key then
      (if heldNow o.keyRole s.clk.elapsed then none else some (s.modHub s.active fun x => { x with keyRole := till }))
    else
      (if heldNow o.nvLock s.clk.elapsed then none else some (s.modHub s.active fun x => { x with nvLock := till }))

/-! ### The warm-start set (R194) -/

/-- The warm-start set: for every present die with PERSIST 1 its latest hallmarks, others kept (R194). -/
def State.warmSet (s : State) (old : List Hallmark) : List Hallmark :=
  s.presentDies.foldl (fun l d =>
    if (s.die d).car.persist then (s.die d).car.latest.foldl (fun m h => h :: m.filter fun x => !h.same x) l else l) old

/-- WARM_START_WRITE at a multiple of 3,600 s, or up to 1 s after it while the lock is asked for: the active hub writes the set, and a
standby in step with it its own store. Without the lock the write waits for the next hour; whether the read-back succeeds is a free
value (R194, R200, R291). -/
def execWarmStartWrite (s : State) : Host.Outcome State Fault Refusal :=
  let hour := s.clk.now / (3600 * sec) * (3600 * sec)
  let persist := s.presentDies.any fun d => (s.die d).car.persist
  .next (
    if s.serving && persist && decide (s.clk.now ≤ hour + sec) && s.core.warmAt != some hour then
      match s.takeRole false with
      | some t =>
        let put (n : NvStore) : NvStore := if Config.storeOk s.free then n.storeWarm (s.warmSet s.act.nv.warm) else n.spoilWarm
        State.commit s ((t.tickFree.putStore put).modCore fun c => { c with warmAt := some hour })
      | none => s
    else s)

/-! ### System calibration points (R196 to R198) -/

/-- Sum of squared distances of the sub-window means from their mean, times the square of
their number (R197). -/
def spread (l : List Int) : Nat := (l.map fun x => ((l.length * x - l.sum) * (l.length * x - l.sum)).natAbs).sum
/-- Standard deviation of the sub-window means, to the nearest integer. -/
def stdDev (l : List Int) : Nat :=
  let n := l.length
  if n = 0 then 0 else
    let r := Nat.sqrt (4 * spread l / (n * n * n))
    (r + 1) / 2
/-- The standard deviation exceeds S (R197). -/
def unstable (l : List Int) (lim : Nat) : Bool := decide (lim * lim * (l.length * l.length * l.length) < spread l)

/-- SYS_OFFSET and SYS_GAIN of a successful point (R198). -/
def Cal.newCorrection (k : Cal) (span : Bool) (v m : Int) : Int × Int :=
  if !span then (v - divRound (k.sysGain * m) (2 ^ 30), k.sysGain)
  else match k.zero with
    | some (m0, v0) =>
      let g := divRoundI (2 ^ 30 * (v - v0)) (m - m0)
      (v0 - divRound (g * m0) (2 ^ 30), g)
    | none => (k.sysOff, divRoundI (2 ^ 30 * (v - k.sysOff)) m)

/-- Outcome of a point (R197): its status and LAST_POINT code. -/
def Channel.judgePoint (k : Channel) (p : CalPoint) (openSeen : Bool) (l : List Int) (m : Int) : ZS × Nat :=
  let c := clampCode k.img k.odd (sysCorrect k.cal.sysOff k.cal.sysGain m)
  let m0 := match k.cal.zero with | some z => z.1 | none => 0
  let g := (k.cal.newCorrection true p.v m).2
  if openSeen || k.diag.openW then (.openWire, 3)
  else if unstable l p.s then (.inputUnstable, 4)
  else if p.w < (c.1 - p.v).natAbs then (.inputOutOfWindow, 5)
  else if p.span && (decide ((m - m0).natAbs < 2 ^ 26) || decide (g < 2 ^ 29) || decide (2 ^ 31 < g)) then (.inputOutOfWindow, 5)
  else (.ok, if p.span then 2 else 1)

/-- The ramp that a point has held goes on from where it stood (R197). -/
def Spare.resumeRamp (p : Spare) (tp : Tick) : Spare :=
  match p.ramp with
  | some (a, dl, t0) => if t0 ≤ tp ∧ tp < t0 + 50 * ms then { p with ramp := some (a, dl, t0 + 100 * ms) } else p
  | none => p
/-- The window of a point ends on a channel or a pair: until then its slices stood still, and a spare's ramp goes on (R197). -/
def Die.endPoint (d : Die) (di : DieId) (c : ChanId) (tp : Tick) : Die :=
  let d1 := (d.unit c).foldl (fun x m => if (d.chan m).cal.server = 0 then x else x.serveUntil di m (tp + 100 * ms)) d
  let d2 := (List.finRange 2).foldl (fun x k => x.modSpare k fun p => if (d.unit c).contains p.ch then p.resumeRamp tp else p) d1
  d2.modCh c fun k => { k with cal := { k.cal with point := none, ended := (tp :: k.cal.ended).take 8 } }
/-- CAL_POINT_END at tp + 100 ms: the point is judged, a successful one gives coefficients that act at the first multiple of
10 µs at least 20 µs after the point's end, and the command answers with its status and results (R197, R198, R390). -/
def execCalPointEnd (ch : Chan) (openSeen : Bool) (subMeans : List Int) (s : State) : Host.Outcome State Fault Refusal :=
  .next (
    match (s.chan ch).cal.point with
    | some p =>
      let k := s.chan ch
      if (s.die ch.die).past (p.tp + 100 * ms) then
        let m := divRound subMeans.sum (max 1 subMeans.length)
        let r := k.judgePoint p openSeen subMeans m
        let n := k.cal.newCorrection p.span p.v m
        let t := tenAfterTwenty (p.tp + 100 * ms)
        let s1 := (s.modDie ch.die (·.endPoint ch.die ch.c p.tp)).modCh ch fun k => { k with cal := { k.cal with
          lastPoint := r.2
          next := (if r.1 = .ok then some (t, n.1, n.2, true) else k.cal.next)
          zero := (if r.1 = .ok ∧ p.span = false then some (m, p.v) else k.cal.zero) } }
        let body := leBytes 8 p.tp ++ leBytes 4 (wordOfInt m).toNat ++ leBytes 4 (stdDev subMeans) ++
          leBytes 4 (wordOfInt k.cal.sysOff).toNat ++ leBytes 4 (wordOfInt k.cal.sysGain).toNat
        State.commit s (s1.respond p.req (resp 0x0041 r.1 body))
      else s
    | none => s)

/-- SYS_CORRECTION_APPLY: coefficients whose instant has come are in force (R198). -/
def execSysCorrectionApply (ch : Chan) (s : State) : Host.Outcome State Fault Refusal :=
  .next (s.modDie ch.die fun d =>
    match (d.chan ch.c).cal.next with
    | some (t, o, g, p) =>
      if d.past t then d.modCh ch.c fun k => { k with cal := k.cal.putSys t o g p }
      else d
    | none => d)

end Sys2Proof.Machine
end

