-- ==== Sys2Proof/Machine/Schedule.lean ====
section
/-! DEFINITION. The schedule: what an entry does at its instant, outcomes at the hub, cancellation and stale records
(R59, R69 to R81). -/

namespace Sys2Proof.Machine
open Sys2Proof

/-! ### What a channel's mode allows (R89) -/

/-- An OUT_SET parameter that the mode lists (R89). -/
def outValueOk (m : Nat) (w : Word) : Bool :=
  match m with
  | 8 | 10 => decide (w.toNat ≤ 1)
  | 9 => decide (w.toNat ≤ 2)
  | 11 => decide (w.toNat ≤ 0x40000000)
  | 12 => decide (w.toInt.natAbs ≤ 1127428915)
  | _ => false

/-- The operation is allowed in this image: `odd` is the odd channel of a pair, `member` a member of a group other than
the lowest, which no entry names (R89, R91, R238, R250). -/
def opAllowed (i : ChanImg) (odd member : Bool) (e : SchedEntry) : Bool :=
  let m := Img.mode i
  !member && match e.op with
  | 1 => hasChain m
  | 2 => isDinMode m
  | 3 => !odd && outValueOk m e.param && !(m == 11 && Img.multidrop i)
  | 4 => m == 10
  | 5 => m == 10
  | 6 => m != 0
  | 7 => (m == 3 || m == 11) && Img.fskOn i
  | 8 => m != 0 && !odd
  | 9 => m != 0
  | 10 => m != 0
  | _ => false

/-- The channel's settings in force allow the entry. -/
def Channel.allows (k : Channel) (c : ChanId) (e : SchedEntry) : Bool :=
  opAllowed k.img k.odd (match k.group with | some g => decide (g ≠ c) | none => false) e

/-! ### Instants (R70, R73, R233) -/

/-- Rank of entries with one TIME on one channel (R70). -/
def opRank (op : Nat) : Nat :=
  match op with
  | 9 => 0
  | 8 => 1
  | 3 | 4 | 5 => 2
  | 6 | 7 | 10 => 3
  | _ => 4

/-- Entry x acts before entry e on their channel (R70). -/
def Entry.before (x e : Entry) : Bool :=
  let t := x.e.time.toNat
  let u := e.e.time.toNat
  decide (t < u) || (t == u && (decide (opRank x.e.op < opRank e.e.op) ||
    (opRank x.e.op == opRank e.e.op && decide (x.id < e.id))))

/-- The instant of the entry's next occurrence. -/
def Entry.nextAt (e : Entry) : Tick :=
  if e.e.op = 6 ∨ e.e.op = 10 then e.e.occTime e.done else e.e.time.toNat

/-- By how much an entry acts before its instant: the gate command of an OUT_SET precedes T by the edge's compensation, and what a
PWM_DUTY or PWM_PERIOD stores is there before the gate command of a period that begins at T (R233, R236). -/
def Die.lead (d : Die) (e : Entry) : Int :=
  match e.e.op with
  | 3 => d.comp e.ch.die e.ch.c (decide (e.e.param = 1#32))
  | 4 | 5 => max 0 (max (d.comp e.ch.die e.ch.c true) (d.comp e.ch.die e.ch.c false))
  | _ => 0

/-- A period of the entry's channel that begins before the entry's T has its start still to come (R236). -/
def Die.periodFirst (d : Die) (e : Entry) : Bool :=
  let o := (d.chan e.ch.c).out
  decide (3 ≤ e.e.op ∧ e.e.op ≤ 5) && o.run && decide (d.replica < e.nextAt) && o.nextPk.any fun t => decide (t < e.nextAt)
/-- The die executes the entry now: it is queued, or repeats, its instant less the compensation has come, and no entry
of its channel goes before it, nor a PWM period that its gate command would overtake (R70, R71, R233, R236). -/
def Die.ripe (d : Die) (e : Entry) : Bool :=
  d.on && !d.periodFirst e && (e.phase == .queued || (e.phase == .active && (e.e.op == 6 || e.e.op == 10) && decide (e.done < e.e.count.toNat))) &&
    decide ((e.nextAt : Int) - d.lead e ≤ d.replica) &&
    !(d.ntq.any fun x => x.phase == .queued && decide (x.ch.c = e.ch.c) && decide (x.id ≠ e.id) && x.before e)

/-- The instant lies in a time-loss interval (R73). -/
def State.timeLoss (s : State) (t : Tick) : Bool :=
  s.sync.losses.any fun p => decide (p.1 ≤ t) && (match p.2 with | some b => decide (t < b) | none => true)

/-- The output-held row of R73: a link-loss hold, a safe state, or a latch. -/
def Channel.outHeld (k : Channel) : Bool := k.hold.isSome || k.isSafe || k.latched

/-- What is to come by the entry's T keeps it from acting before T: a time step, a configuration or a disable of its channel, or a
cancellation that names it; and an output entry of after a transition waits for the transition's end (R73 to R75, R93). -/
def State.waitsForT (s : State) (e : Entry) : Bool :=
  let d := s.die e.ch.die
  let by_ (t : Tick) : Bool := decide (t ≤ e.nextAt)
  (e.e.isTransOut && (d.chan e.ch.c).trans.any fun tm => decide (tm + 50 * us ≤ e.nextAt)) || decide (d.replica < e.nextAt) &&
    (s.sync.step.any (fun p => by_ p.1) || (d.unit e.ch.c).any (fun c => (d.chan c).pend.any fun p => by_ p.tm) ||
      (s.core.disables.any fun p => decide (p.1.die = e.ch.die) && (d.unit e.ch.c).contains p.1.c && by_ p.2) ||
      s.core.cancels.any fun p => by_ p.2.1 && p.2.2.1.any fun x => x.1 == e.id)

/-- The entry is missed at t (R73). An entry whose channel no longer allows it is missed too. -/
def State.missedAt (s : State) (e : Entry) (t : Tick) : Bool :=
  let k := s.chan e.ch
  (s.timeLoss t && !e.e.freeRun) || (k.outHeld && e.e.isHeldOut) ||
    ((match k.trans with | some tm => decide (tm ≤ t) && decide (t < tm + 50 * us) | none => false) && e.e.isTransOut) ||
    !k.allows e.ch.c e.e

/-! ### Execution (R59) -/

/-- An output takes an OUT_SET of value v at t. An off-pulse that lasts beyond t ends and is counted; one that is over by t goes on, with
the driver off until its end, although the gate command comes before t (R101, R102, R233, R235). -/
def Output.outSet (o : Output) (m : Nat) (v : Int) (w : Word) (t : Tick) : Output :=
  let gone := o.pulse.any fun p => decide (p + 200 * us ≤ t)
  let n := (o.set m v t).commanded m v (o.high || o.pulse.isSome) t
  { n with
    last := some (3, w)
    drive := n.drive && !gone
    pulse := (if gone then o.pulse else none)
    optSkip := (if o.pulse.isSome && !gone then satInc o.optSkip else o.optSkip)
    edge := (if 8 ≤ m ∧ m ≤ 10 ∧ n.high ≠ o.high then some (t, n.high) else o.edge) }
/-- One channel takes an OUT_SET at t; a backfeed that does not latch clears when the driver leaves off (R89, R439). -/
def Die.outSetOne (d : Die) (di : DieId) (q : Nat) (c : ChanId) (w : Word) (t : Tick) : Die :=
  let k := d.chan c
  let v : Int := if k.mode = 11 ∨ k.mode = 12 then w.toInt else w.toNat
  Die.backfeedLeft d (d.modCh c fun k => { k with out := k.out.outSet k.mode v w t }) di q [c]

/-- An OUT_SET acts on the channel and on its group (R238). -/
def Die.outSet (d : Die) (di : DieId) (q : Nat) (c : ChanId) (w : Word) (t : Tick) : Die :=
  (d.together c).foldl (fun x m => x.outSetOne di q m w t) d

/-- PWM_DUTY: u is stored, for the first period that begins at or after T (R236). -/
def Output.setDuty (o : Output) (w : Word) : Output := { o with duty := fld w 0 16, last := some (4, w) }
/-- PWM_PERIOD: P is stored; a running channel's period ends at T and the next begins there (R236). -/
def Output.setPeriod (o : Output) (w : Word) (t : Tick) : Output :=
  { o with period := w.toNat, last := some (5, w), nextPk := (if o.run then some t else o.nextPk) }

/-- An FSK frame starts at T: with carrier present nothing is sent and the window opens; else the carrier starts, or the
window opens at once with nothing to send (R247). -/
def Fsk.start (f : Fsk) (id : Nat) (e : SchedEntry) (lead q : Nat) : Fsk :=
  let t := e.time.toNat
  let send := !f.cd && decide (0 < e.ntx)
  { f with
    tx := send
    rx := !send
    run := some ⟨id, t, (if send then t + (lead + 11 * e.ntx) * bitTime else t), f.cd, [], false, false, none, none, f.cd, q⟩
    overrun := false }

/-- An AUX_TRIGGER occurrence at t waits for its trigger in the slot of its channel; with no slot that names the channel
it triggers nothing (R138, R139). -/
def Die.auxOccurrence (d : Die) (e : Entry) (t : Tick) : Die :=
  let u : Urgent := ⟨e.id, e.done, t, none, t + e.e.period.toNat⟩
  let d1 := d.modEntry e.id fun x => { x with done := x.done + 1, phase := .active }
  match d.aux.slotOf e.ch.c with
  | some k => { d1 with aux := d1.aux.modWait k fun l => l ++ [u] }
  | none => d1.endOccurrence u

/-- A TIMER occurrence raises EV_SCHED_TIMER with TAG and occurrence number, and the last one retires the entry (R59,
R389). -/
def Die.timerOccurrence (d : Die) (di : DieId) (q : Nat) (e : Entry) (t : Tick) : Die :=
  let d1 := d.modEntry e.id fun x => { x with done := x.done + 1, phase := .active }
  let d2 := d1.raise .schedTimer 0 (mkRec .schedTimer t (srcCh di e.ch.c) q false (leBytes 4 e.e.tag.toNat ++ leBytes 2 (e.done + 1))
    (some e.owner))
  if e.e.count.toNat ≤ e.done + 1 then d2.finish e.id .executed else d2

/-- The entry is in progress until its last result, or executed at once. -/
def Die.began (d : Die) (id : Nat) (more : Bool) : Die :=
  if more then d.modEntry id fun x => { x with phase := .active } else d.finish id .executed

/-- The image a MODE_SET puts in force: its stored set, or with set 0 the settings in force, with PARAM's mode (R59). -/
def Entry.modeImg (e : Entry) (now : ChanImg) : ChanImg := Img.withMode (e.img.getD now) (fld e.e.param 0 4)

/-- What an entry does at its instant t (R59, R70). -/
def State.perform (s : State) (e : Entry) (t : Tick) : State :=
  let di := e.ch.die
  let c := e.ch.c
  let q := (s.die di).q (s.qualityOf t)
  match e.e.op with
  | 1 | 2 => s.modDie di (·.began e.id true)
  | 3 => s.modDie di fun d => (d.outSet di q c e.e.param t).began e.id e.e.readback
  | 4 => s.modDie di fun d => (d.modCh c fun k => { k with out := k.out.setDuty e.e.param }).began e.id true
  | 5 => (s.modDie di fun d =>
      (d.modCh c fun k => { k with out := k.out.setPeriod e.e.param t }.recharge d.led.vd).began e.id true).settlePools di
  | 6 => s.modDie di (·.auxOccurrence e t)
  | 7 => s.modDie di fun d =>
      (d.modCh c fun k => { k with fsk := k.fsk.start e.id e.e (Img.lead k.img) q }).began e.id true
  | 8 => s.applyConfig e.ch ⟨t, e.modeImg (s.chan e.ch).img, fld e.e.param 4 12, some e.id⟩
  | 9 => (s.disableAt e.ch t (some e.id)).modDie di (·.finish e.id .executed)
  | 10 => s.modDie di (·.timerOccurrence di q e t)
  | _ => s

/-- The entry with this identity in some near-term queue. -/
def State.queued (s : State) (id : Nat) : Option Entry := s.presentDies.findSome? fun d => (s.die d).queued id

/-- The hub knows the last output entry that a channel executed, and its shadow follows the entry (R112, R113). -/
def State.noteExecuted (s : State) (e : Entry) (cs : List ChanId) : State :=
  let s1 := s.syncShadow e.ch.die cs
  if s.serving && (e.e.op == 3 || e.e.op == 4 || e.e.op == 5) then
    s1.modCore fun c => { c with
      shadow := (vmod c.shadow e.ch.die fun v => vmod v e.ch.c fun x => { x with lastOut := some (e.e.op, e.e.param) }) }
  else s1

/-- In a D variant an admitted entry that is not in its die's queue when its TIME arrives is missed (R290). -/
def State.unqueuedMiss (s : State) (id : Nat) : State :=
  match s.core.entry id with
  | some e =>
    if s.variant.dual && s.serving && e.unqueued && decide (e.e.time.toNat ≤ s.clk.now) && !s.isHeld (.retire id) then
      State.commit s (s.outcome id .missed)
    else s
  | none => s

/-- ENTRY_EXECUTE: a queued entry acts at its TIME, or at an occurrence, against the die's replica; in an interval of R73
it retires as missed; so does an admitted entry that has not reached its queue (R59, R70, R71, R73, R290). -/
def execEntryExecute (id : Nat) (s : State) : Host.Outcome State Fault Refusal :=
  .next (match s.queued id with
  | some e =>
    let di := e.ch.die
    if (s.die di).ripe e && !s.waitsForT e then
      let t := e.nextAt
      if s.missedAt e t then s.modDie di (·.finish id .missed)
      else
        let u := s.perform e t
        State.commit s (u.noteExecuted e ((s.die di).unit e.ch.c ++ (u.die di).unit e.ch.c))
    else s
  | none => s.unqueuedMiss id)

/-! ### Retirement at the hub (R64, R72, R77) -/

/-- The entry whose record a lane frame writes. -/
def LaneItem.entry : LaneItem → Option Nat
  | .result id .. => some id
  | .capture id .. => some id
  | .angle id .. => some id
  | _ => none

/-- Everything an entry produced has reached the hub. -/
def Die.drained (d : Die) (e : Entry) : Bool :=
  d.fifo.all (fun x => x.entry != some e.id) && (d.chan e.ch.c).din.capWait.all (·.1 != e.id) &&
    (match d.aux.injRun with | some r => decide (r.2.1 ≠ e.id) | none => true)

/-- ENTRY_RETIRE: the hub learns the outcome of an entry that its die has finished and whose results have arrived: the
entry retires with it (R64, R72, R282). -/
def execEntryRetire (id : Nat) (s : State) : Host.Outcome State Fault Refusal :=
  .next (match s.queued id with
  | some e =>
    match e.phase with
    | .finished o =>
      if s.serving && (s.die e.ch.die).holder == some s.active && s.laneUp s.active e.ch.die && (s.die e.ch.die).drained e &&
          !s.isHeld (.retire id) then
        if (s.core.entry id).isNone then s.modDie e.ch.die fun d => { d with ntq := d.ntq.filter (·.id != id) }
        else State.commit s ((s.modCore fun c => c.modRecord id fun r => { r with status := (if e.st = 0 then r.status else e.st) }).outcome id o)
      else s
    | _ => s
  | none => s)

/-! ### Cancellation (R75) -/

/-- Conversions of the chain from an instant on, at most n of them, whose window straddles t (R74, R75). -/
def Channel.straddlesFrom (k : Channel) (t start n : Nat) : Nat :=
  let h := k.span
  min n (if !hasChain k.mode || k.trans.isSome then 0
  else if Img.mcEn k.img then (if k.chain.mcStart.isSome && decide (start ≤ t) then 1 else 0)
  else if Img.lock k.img = 1 then k.chain.cross.countP fun x => decide (start ≤ x.2) && decide (t < x.2 + h)
  else (k.outFrom ((t : Int) + h) - max (max (max k.chain.nextK k.firstWhole) (k.outFrom ((t : Int) - h + 1))) (k.outFrom start)).toNat)
/-- Conversions that straddle the end of an entry in progress: those of its results to come for a SAMPLE and for a readback, its injected
sequence's for an AUX_TRIGGER (R74, R75, R79). -/
def Die.entryStraddle (d : Die) (e : Entry) (t : Tick) : Nat :=
  let k := d.chan e.ch.c
  if e.phase ≠ .active then 0
  else if e.e.op = 1 then k.straddlesFrom t e.e.time.toNat (e.e.count.toNat - e.done)
  else if e.e.readback then k.straddlesFrom t (e.e.time.toNat + 50 * us) 1
  else d.aux.injCut (· == e.id) t
/-- An entry stops at t: it is cancelled at the hub or on its die; a conversion across t is discarded and counted, an FSK frame stops
with what it received, and edges before t are still captured (R74, R75). -/
def State.cancelEntry (s : State) (e : Entry) (t : Tick) : State :=
  if e.unqueued then s.outcome e.id .cancelled
  else s.modDie e.ch.die fun d =>
    match d.queued e.id with
    | some x =>
      if d.outlives x then d.modEntry e.id (·.cutAt t .cancelled)
      else
        let d1 := if (match (d.chan e.ch.c).fsk.run with | some r => decide (r.id = e.id) | none => false)
          then d.stopFsk e.ch.c false 0 .cancelled else d
        { (d1.finish e.id .cancelled) with straddle := satAdd d1.straddle (d.entryStraddle x t) }
    | none => d

/-- What the die, or else the hub, holds of an entry. -/
def State.entryNow (s : State) (id : Nat) : Option Entry :=
  match s.queued id with
  | some e => some e
  | none => s.core.entry id

/-- The entry can still be cancelled at tc: its TIME is at or after tc, or it is in progress (R75). -/
def Entry.cancellable (e : Entry) (tc : Tick) : Bool := e.live && (decide (tc ≤ e.e.time.toNat) || e.phase == .active)

/-- The response of a `ScheduleCancel` at tc: counts and the first 64 TAGs too late (R385). -/
def cancelBody (tc done late unknown : Nat) (tags : List Word) : List Byte :=
  leBytes 8 tc ++ leBytes 2 done ++ leBytes 2 late ++ leBytes 2 unknown ++ leBytes 2 0 ++
    (tags.take 64).flatMap fun t => leBytes 4 t.toNat

/-- CANCEL_INSTANT: tc of a `ScheduleCancel` has come: named entries at or after tc and entries in progress are
cancelled, and the response lists those too late (R75, R385). An entry in the queue of a die that the hub does not reach is too
late as well (R13, R21; log 22). -/
def execCancelInstant (s : State) : Host.Outcome State Fault Refusal :=
  .next (match s.core.cancels.find? (fun p => decide (p.2.1 ≤ s.clk.now)) with
  | some p =>
    let tc := p.2.1
    let can (x : Nat × Word) : Bool := match s.entryNow x.1 with
      | some e => e.cancellable tc && (e.unqueued || (s.barred e.ch.die).isNone)
      | none => false
    let hit := p.2.2.1.filter can
    let late := p.2.2.1.filter fun x => !can x
    let s1 := hit.foldl (fun t x => match t.entryNow x.1 with | some e => t.cancelEntry e tc | none => t) s
    let s2 := s1.modCore fun c => { c with cancels := c.cancels.filter (· != p) }
    State.commit s (s2.respond p.1 (resp 0x0031 .ok (cancelBody tc hit.length late.length p.2.2.2 (late.map (·.2)))))
  | none => s)

/-! ### Stale records (R81) -/

/-- Stale age of a destination in ms (R81). -/
def Core.staleAge (c : Core) (dest : Nat) : Nat :=
  if dest = 0 then c.sched.staleAge
  else match c.streams.find? (·.n == dest) with | some x => x.stale | none => c.sched.staleAge

/-- STALE_AGE_EXPIRY: a retired record undelivered at its stale age is discarded and counted (R81). -/
def execStaleAgeExpiry (rec : Nat) (s : State) : Host.Outcome State Fault Refusal :=
  .next (match s.core.record rec with
  | some r =>
    match r.retired with
    | some t =>
      if t + s.core.staleAge r.dest * ms ≤ s.clk.elapsed then
        State.commit s (s.modCore fun c =>
          let c1 := c.freeRecord rec
          { c1 with sched := { c1.sched with staleRec := satInc c1.sched.staleRec, staleWords := satAdd c1.sched.staleWords r.len } })
      else s
    | none => s
  | none => s)

end Sys2Proof.Machine
end

