-- ==== Sys2Proof/Machine/Operands.lean ====
section
/-! DEFINITION. Operand forms: register addresses (R393 to R396), command bodies (R376, R377, R382 to R391), the 32-byte
schedule entry (R58) and the words of a channel image with the values and combinations they may hold (R384, R154, R174). -/

namespace Sys2Proof.Machine
open Sys2Proof

/-! ### Addresses -/

/-- Where a register address lies. -/
inductive Loc where
  /-- A page of a present hub or die, and the offset. -/
  | page (p : PageRef) (off : Nat)
  /-- A reserved page (R397). -/
  | reserved
  /-- The pages of an absent die, and of H1 in an S variant (R5, R397). -/
  | absent
  deriving DecidableEq, Repr

/-- Relative page r of hub h. -/
def hubLoc (h : HubId) (r off : Nat) : Loc := if x : r < 12 then .page (.hub h ⟨r, x⟩) off else .reserved
/-- Relative page r of die d. -/
def dieLoc (d : DieId) (r off : Nat) : Loc := if x : r < 23 then .page (.die d ⟨r, x⟩) off else .reserved

/-- The register that an address names (R393 to R396): page index in [31:12], offset in [11:0]. -/
def State.locate (s : State) (addr : Nat) : Loc :=
  let page := addr / 4096
  let off := addr % 4096
  if page < 0x80 then hubLoc 0 page off
  else if page < 0x100 then (if s.variant.dual then hubLoc 1 (page - 0x80) off else .absent)
  else if page < 0x280 then
    let d := (page - 0x100) / 0x40
    if x : d < 6 then (if (s.die ⟨d, x⟩).present then dieLoc ⟨d, x⟩ ((page - 0x100) % 0x40) off else .absent) else .reserved
  else .reserved

/-- The page index of a page. -/
def pageIndex : PageRef → Nat
  | .hub h r => 0x80 * h.val + r.val
  | .die d r => 0x100 + 0x40 * d.val + r.val

/-! ### Schedule entries (R58) -/

/-- The entry in 32 octets. -/
def parseEntry (b : List Byte) : SchedEntry where
  time := BitVec.ofNat 64 (leAt b 0 8)
  opcode := BitVec.ofNat 8 (leAt b 8 1)
  cls := BitVec.ofNat 8 (leAt b 9 1)
  channel := BitVec.ofNat 16 (leAt b 10 2)
  param := BitVec.ofNat 32 (leAt b 12 4)
  slot := BitVec.ofNat 32 (leAt b 16 4)
  flags := BitVec.ofNat 16 (leAt b 20 2)
  count := BitVec.ofNat 16 (leAt b 22 2)
  period := BitVec.ofNat 32 (leAt b 24 4)
  tag := BitVec.ofNat 32 (leAt b 28 4)

/-- Number of octets that an entry takes from OCTETS: NTX of an FSK_FRAME (R385). -/
def SchedEntry.octetCount (e : SchedEntry) : Nat := if SchedEntry.op e = 7 then SchedEntry.ntx e else 0

/-- OCTETS dealt out to the entries in order (R385). -/
def dealOctets : List SchedEntry → List Byte → List (SchedEntry × List Byte)
  | [], _ => []
  | e :: es, o => (e, o.take (SchedEntry.octetCount e)) :: dealOctets es (o.drop (SchedEntry.octetCount e))

/-! ### Command bodies -/

/-- n words of 4 octets from offset i. -/
def wordsAt (b : List Byte) (i n : Nat) : List Word := (List.range n).map fun j => BitVec.ofNat 32 (leAt b (i + 4 * j) 4)
/-- Octets i to i + n − 1 are zero: reserved fields (R377). -/
def zeroAt (b : List Byte) (i n : Nat) : Bool := leAt b i n == 0

/-- Scope, die and channel fields at offset i: fields that the scope does not use must be zero (R377). -/
def parseScope (b : List Byte) (i : Nat) : Option Scope :=
  let die := leAt b (i + 1) 1
  let ch := leAt b (i + 2) 2
  match leAt b i 1 with
  | 0 => if die = 0 then some (.chan (BitVec.ofNat 16 ch)) else none
  | 1 => if ch = 0 then some (.die (BitVec.ofNat 8 die)) else none
  | 2 => if die = 0 ∧ ch = 0 then some .package else none
  | _ => none

/-- The 18 words of an image (R384). -/
def parseImage (b : List Byte) (i : Nat) : ChanImg :=
  let w (j : Nat) : Word := BitVec.ofNat 32 (leAt b (i + 4 * j) 4)
  ⟨w 0, w 1, w 2, w 3, w 4, w 5, w 6, w 7, w 8, w 9, w 10, w 11, w 12, w 13, w 14, w 15, w 16, w 17⟩

/-- A command body: its code, and the command when the body is well formed (R376, R377, R382 to R391). `v2` is a session
at ZCS 2.x, whose image has 4 words (R392). -/
def parseBody (v2 : Bool) (b : List Byte) : Nat × Option ZcsCmd :=
  let n := b.length
  let u8 (i : Nat) : Byte := BitVec.ofNat 8 (leAt b i 1)
  let u16 (i : Nat) : BitVec 16 := BitVec.ofNat 16 (leAt b i 2)
  let u32 (i : Nat) : Word := BitVec.ofNat 32 (leAt b i 4)
  let u64 (i : Nat) : Dword := BitVec.ofNat 64 (leAt b i 8)
  let need (k : Nat) (ok : Bool) (c : ZcsCmd) : Option ZcsCmd := if k ≤ n ∧ ok = true then some c else none
  let exact (k : Nat) (ok : Bool) (c : ZcsCmd) : Option ZcsCmd := if n = k ∧ ok = true then some c else none
  let code := leAt b 0 2
  let cmd : Option ZcsCmd :=
    match code with
    | 0x0001 => need 12 (decide (leAt b 8 1 < 64) && zeroAt b 9 1 && zeroAt b 11 1) (.sessionOpen ⟨u8 4, u8 5, u16 6, u8 8, u8 10, 0, 0#128, 0#16⟩)
    | 0x0002 => need 4 true .sessionClose
    | 0x0003 => need 4 true .identify
    | 0x0010 => need 10 true (.regRead (u32 4) (u16 8))
    | 0x0011 => exact (12 + 4 * leAt b 8 2) (zeroAt b 10 2) (.regWrite (u32 4) (wordsAt b 12 (leAt b 8 2)))
    | 0x0020 =>
      let img : ImageArg := if v2 then .forerunner (u32 12) (u32 16) (u32 20) (u32 24) else .full (parseImage b 12)
      need (if v2 then 28 else 84) (decide (leAt b 8 1 < 2) && zeroAt b 9 3) (.channelConfigure (u16 4) (u16 6) (u8 8) img)
    | 0x0021 => need 8 true (.channelEnable (u16 4) (u16 6))
    | 0x0022 => need 6 true (.channelDisable (u16 4))
    | 0x0030 =>
      let k := leAt b 4 1
      let x := leAt b 6 2
      let es := (List.range k).map fun j => parseEntry (b.drop (8 + 32 * j))
      exact (8 + 32 * k + x) (zeroAt b 5 1 && decide ((es.map SchedEntry.octetCount).sum = x)) (.scheduleSubmit es (b.drop (8 + 32 * k)))
    | 0x0031 =>
      if leAt b 4 1 = 0 then exact (8 + 4 * leAt b 5 1) (zeroAt b 6 2) (.cancelTags (wordsAt b 8 (leAt b 5 1)))
      else need 32 (decide (leAt b 4 1 = 1) && zeroAt b 5 3 && zeroAt b 10 6) (.cancelRange (u16 8) (u64 16) (u64 24))
    | 0x0032 => need 8 true (.resultFetch (u32 4))
    | 0x0033 => need 18 (zeroAt b 7 1) (.streamOpen ⟨u8 4, u8 5, u8 6, u32 8, u32 12, u16 16⟩)
    | 0x0034 => need 5 true (.streamClose (u8 4))
    | 0x0040 => need 12 true (.filterSync (u64 4))
    | 0x0041 =>
      let p : CalP := ⟨u16 4, (u32 8).toInt, leAt b 12 4, leAt b 16 4⟩
      need 20 (decide (leAt b 6 1 < 2) && zeroAt b 7 1) (if leAt b 6 1 = 0 then .calibrateZero p else .calibrateSpan p)
    | 0x0042 =>
      match parseScope b 4 with
      | some sc =>
        (match leAt b 8 1 with
        | 0 => need 9 true (.commitStore sc)
        | 1 => need 9 true (.commitRevert sc)
        | 2 => need 9 true (.commitIdentity sc)
        | _ => none)
      | none => none
    | 0x0050 => need 6 true (.ledgerQuery (u8 4) (u8 5))
    | 0x0051 => need 12 (zeroAt b 7 1) (.ledgerPolicySet ⟨u8 4, u8 5, u8 6, u16 8, u16 10⟩)
    | 0x0060 => need 7 true (.powerRequest (u8 4) (u8 5) (u8 6))
    | 0x0061 => need 13 (decide (leAt b 12 1 < 4)) (.watchdogConfigure (u32 4) (u32 8) (u8 12))
    | 0x0062 => need 4 true .watchdogServe
    | 0x0070 => need 12 (zeroAt b 7 1) (.eventLogRead (u8 4) (u8 5) (u8 6) (u32 8))
    | 0x0071 => match parseScope b 4 with | some sc => need 9 true (.faultClear sc (u8 8)) | none => none
    | 0x0072 => need 4 true .hubSwitchover
    | 0x0080 => need 24 (zeroAt b 5 1) (.keyRotate (u8 4) (u16 6) ((b.drop 8).take 16))
    | 0x0081 => need 4 true .poolAudit
    | 0x0082 => need 6 true (.returnPrepare (u16 4))
    | 0x0090 =>
      (match leAt b 4 1 with
      | 0 => need 5 true .timeRead
      | 1 => need 16 true (.timeLoad (u64 8))
      | 2 => need 9 true (.timeAccept (u8 8))
      | _ => none)
    | 0x0091 =>
      let k := leAt b 7 1
      let es := wordsAt b 12 k
      if leAt b 5 1 = 0 then exact (12 + 4 * k) true (.auxTable (u8 4) es)
      else exact (12 + 4 * k) (decide (leAt b 5 1 = 1)) (.auxSlot (u8 4) (u8 6) (u32 8) es)
    | _ => none
  (code, if zeroAt b 2 2 then cmd else none)

/-- The command code of a command (R380). -/
def ZcsCmd.code : ZcsCmd → Nat
  | .sessionOpen .. => 0x0001 | .sessionClose => 0x0002 | .identify => 0x0003 | .regRead .. => 0x0010 | .regWrite .. => 0x0011
  | .channelConfigure .. => 0x0020 | .channelEnable .. => 0x0021 | .channelDisable .. => 0x0022 | .scheduleSubmit .. => 0x0030
  | .cancelTags .. => 0x0031 | .cancelRange .. => 0x0031 | .resultFetch .. => 0x0032 | .streamOpen .. => 0x0033
  | .streamClose .. => 0x0034 | .filterSync .. => 0x0040 | .calibrateZero .. => 0x0041 | .calibrateSpan .. => 0x0041
  | .commitStore .. => 0x0042 | .commitRevert .. => 0x0042 | .commitIdentity .. => 0x0042 | .ledgerQuery .. => 0x0050
  | .ledgerPolicySet .. => 0x0051 | .powerRequest .. => 0x0060 | .watchdogConfigure .. => 0x0061 | .watchdogServe => 0x0062
  | .eventLogRead .. => 0x0070 | .faultClear .. => 0x0071 | .hubSwitchover => 0x0072 | .keyRotate .. => 0x0080
  | .poolAudit => 0x0081 | .returnPrepare .. => 0x0082 | .timeRead => 0x0090 | .timeLoad .. => 0x0090 | .timeAccept .. => 0x0090
  | .auxTable .. => 0x0091 | .auxSlot .. => 0x0091

/-! ### Channel images -/

/-- No reserved bit of the image's words is set; CFG_SET is ignored (R377, R384 with the register tables). -/
def imgReservedOk (i : ChanImg) : Bool :=
  let z (w : Word) (m : Nat) : Bool := w &&& BitVec.ofNat 32 m == 0#32
  z i.cfg 0xE0C0 && z i.safe 0x0F000000 && z i.linkloss 0xFFFF0000 && z i.diag 0xFFFC0000 && z i.opt 0xFFFFC000 &&
    z i.convCfg 0xFFFFC0FE && z i.filtCfg 0xF0C7E000 && z i.maLen 0xFFFFE000 && z i.dcbCfg 0xFFFFE0FC &&
    z i.angCfg 0xFFFFE0FC && z i.dinCfg 0xF0000001 && z i.encCfg 0xFFFFFF38 && z i.outCfg 0x00FCFCCF &&
    z i.fskCfg 0xFFFFF0EF && z i.decl 0x3000E000

/-- RANGE codes of a mode (R86). -/
def rangeOk (m r : Nat) : Bool :=
  match m with
  | 0 => true
  | 1 | 6 | 7 | 13 => decide (r ≤ 1)
  | 4 => decide (r ≤ 3 ∨ (8 ≤ r ∧ r ≤ 11))
  | 5 => decide (r ≤ 1)
  | _ => r == 0

/-- PER_INT and PER_FRAC ranges (R157). -/
def periodOk (i : ChanImg) : Bool :=
  decide (12000 ≤ i.perInt.toNat ∧ i.perInt.toNat ≤ 3000000000) && (i.perInt.toNat != 3000000000 || i.perFrac == 0#32)

/-- Every field of the image holds a value of its range. -/
def imgFieldsOk (i : ChanImg) : Bool :=
  decide (Img.mode i ≤ 13) && decide (Img.holdMs i ≤ 60000) && decide (1 ≤ fld i.diag 8 8 ∧ fld i.diag 8 8 ≤ 200) &&
    decide (10 ≤ Img.optPeriod i ∧ Img.optPeriod i ≤ 10000) && decide (Img.preset i ≤ 8) && decide (Img.lock i ≤ 2) &&
    decide (1 ≤ Img.scsWin i ∧ Img.scsWin i ≤ 4096) && periodOk i && decide (1 ≤ Img.ma i ∧ Img.ma i ≤ 4096) &&
    decide (10 ≤ Img.dcbK i ∧ Img.dcbK i ≤ 24) && decide (6 ≤ Img.angK i ∧ Img.angK i ≤ 16) && decide (1 ≤ Img.thr i) &&
    decide (1 ≤ Img.tick i ∧ Img.tick i ≤ 16000) && decide (Img.decode i ≤ 4) && decide (Img.zMode i ≤ 2) &&
    decide (Img.clampE i ≤ 200) && decide (Img.par i ≤ 2) && decide (Img.precomp i ≤ 2) && decide (Img.slew i ≤ 2) &&
    decide (1 ≤ Img.lead i)

/-- SAFE_VAL is one of the values its mode allows (R104). -/
def safeValOk (i : ChanImg) : Bool :=
  match Img.mode i with
  | 10 => fld i.safeVal 16 16 == 0
  | 8 | 9 | 11 | 12 => outValueOk (Img.mode i) i.safeVal
  | _ => true

/-- The output rate is at most 1 kS/s, and no preset from 5 to 8 is named (R121, R174). Angle-locked resampling has no configured rate:
that LOWPWR neither limits nor refuses it is a DESIGN CHOICE (log 59). The bound is judged by the period registers in every mode,
0x0 and 0xD among them, which give no results: a DESIGN CHOICE (log 59). -/
def slowEnough (i : ChanImg) : Bool :=
  decide (Img.preset i < 5) && (Img.mcEn i || (match Img.lock i with
    | 0 => decide (3000000 * 2 ^ 32 ≤ Img.period i)
    | 2 => decide (3000000 ≤ Img.scsWin i * 192000)
    | _ => true))

/-- The combinations that stand inside one image (R86, R104, R115, R121, R122, R160, R162, R217, R238, R250). -/
def imgCombosOk (c : ChanId) (i : ChanImg) : Bool :=
  let m := Img.mode i
  (rangeOk m (Img.range i)) && (!Img.fskOn i || m == 3 || m == 11) &&
    !(Img.kind i == 3 && (m == 8 || m == 9)) && safeValOk i &&
    (!Img.mcEn i || (decide (1 ≤ m ∧ m ≤ 5) && Img.lock i == 0)) &&
    !(m == 7 && c.val % 2 == 0 && !Img.zEn i && Img.lock i != 0) &&
    (!Img.lowpwr i || slowEnough i) &&
    (!Img.multidrop i || (m == 11 && Img.fskOn i)) &&
    (match Img.par i with
      | 0 => true
      | 1 => m == 8 && c.val % 2 == 0
      | _ => m == 8 && c.val % 4 == 0) &&
    !(isPairMode m && !Img.zIn i && c.val % 2 == 1)

/-- The settings a preset writes into an image; LOCK becomes 0 and the DC blocker is off (R174). -/
def expandPreset (nom60 : Bool) (i : ChanImg) : ChanImg :=
  let base : ChanImg := { i with
    filtCfg := BitVec.ofNat 32 (i.filtCfg.toNat - Img.lock i * 2 ^ 20)
    dcbCfg := i.dcbCfg &&& ~~~1#32 }
  let rate (p l : Nat) : ChanImg := { base with perInt := BitVec.ofNat 32 p, perFrac := 0#32, maLen := BitVec.ofNat 32 l }
  match Img.preset i with
  | 1 => { base with convCfg := BitVec.ofNat 32 (1 + (if nom60 then 5 else 4) * 256) }
  | 2 => rate 60000000 4096
  | 3 => rate 15000000 1250
  | 4 => rate 3000000 250
  | 5 => rate 750000 62
  | 6 => rate 187500 15
  | 7 => rate 48000 4
  | 8 => rate 12000 1
  | _ => i

/-- The image that a `ChannelConfigure` puts in force: the preset's settings replace the image's; at ZCS 2.x the other
settings are left unchanged (R174, R384, R392). -/
def ImageArg.resolve (a : ImageArg) (nom60 : Bool) (now : ChanImg) : ChanImg :=
  match a with
  | .full i => expandPreset nom60 i
  | .forerunner cfg p safe sv =>
    expandPreset nom60 { now with
      cfg := cfg
      safe := safe
      safeVal := sv
      filtCfg := BitVec.ofNat 32 (now.filtCfg.toNat - Img.preset now * 2 ^ 24 + fld p 0 4 * 2 ^ 24) }

/-- No reserved bit is set, and the 4-word image of ZCS 2.x names a preset from 1 to 8 (R12, R392). -/
def ImageArg.formOk (a : ImageArg) : Bool :=
  match a with
  | .full i => imgReservedOk i
  | .forerunner cfg p safe _ =>
    decide (1 ≤ p.toNat ∧ p.toNat ≤ 8) && decide (cfg &&& 0x0000E0C0#32 = 0#32) && decide (safe &&& 0x0F000000#32 = 0#32)
/-- The image brings PER_INT and PER_FRAC: the whole image does, and of the 4-word image a preset that sets the period (R174, R392). -/
def ImageArg.setsPeriod (a : ImageArg) : Bool :=
  match a with
  | .full _ => true
  | .forerunner _ p _ _ => decide (2 ≤ fld p 0 4)

end Sys2Proof.Machine
end

