-- ==== Sys2Proof/Machine/Admission.lean ====
section
/-! DEFINITION. Admission: the ordered checks of R66 on every entry of a unit, the plans over device time, the ledger's
projection and policy (R262 to R270), deferral (R68) and the checks of a configuration (R266). -/

namespace Sys2Proof.Machine
open Sys2Proof

/-- A 10 µs interval, and a ledger epoch, in ticks (R64, R257). -/
def iv : Nat := 10 * us
/-- The start of the interval that contains t. -/
def ivOf (t : Tick) : Tick := t / iv * iv

/-! ### The channel as it will stand at an instant (R67) -/

/-- A change of a channel's configuration to come. -/
inductive Change where
  /-- A configuration: stored image or the one in force, with a mode and a set number. -/
  | cfg (c : ChanId) (img : Option ChanImg) (mode set : Nat)
  | off (c : ChanId)
  /-- A setting that waits for tf: a register's offset and value. -/
  | filt (c : ChanId) (off : Nat) (w : Word)
  /-- A PWM_PERIOD. -/
  | period (c : ChanId) (p : Nat)
  deriving DecidableEq, Repr

/-- The die after a change. -/
def Die.change (d : Die) (t : Tick) : Change → Die
  | .cfg c img m set => d.putInForce 0 0 c (Img.withMode (img.getD (d.chan c).img) m) set t
  | .off c => (d.unit c).foldl (fun x k => x.modCh k fun h =>
      { h with img := ChanImg.disabled h.img, odd := false, group := none, chgHeat := 0, chgBar := 0 }) d
  | .filt c off w => d.modCh c fun h => Channel.recharge d.led.vd { h with img := imgSet h.img off w }
  | .period c p => d.modCh c fun h => Channel.recharge d.led.vd { h with out := { h.out with period := p } }

/-- The changes that admitted and listed entries, waiting configurations and settings and pending disables bring to a die. -/
def State.changes (s : State) (d : DieId) (extra : List (Chan × SchedEntry × Option ChanImg)) : List (Tick × Change) :=
  let ofEntry (c : ChanId) (e : SchedEntry) (img : Option ChanImg) : List (Tick × Change) :=
    if SchedEntry.op e = 8 then [(e.time.toNat, .cfg c img (fld e.param 0 4) (fld e.param 4 12))]
    else if SchedEntry.op e = 9 then [(e.time.toNat, .off c)]
    else if SchedEntry.op e = 5 then [(e.time.toNat, .period c e.param.toNat)] else []
  (s.core.entries.filter fun x => decide (x.ch.die = d) && x.live).flatMap (fun x => ofEntry x.ch.c x.e x.img) ++
    (extra.filter fun x => decide (x.1.die = d)).flatMap (fun x => ofEntry x.1.c x.2.1 x.2.2) ++
    (allC.flatMap fun c => ((s.die d).chan c).pend.map fun p => (p.tm, Change.cfg c (some p.img) (Img.mode p.img) p.set)) ++
    (allC.flatMap fun c => ((s.die d).chan c).pendF.map fun p => (p.1, Change.filt c p.2.1 p.2.2)) ++
    (s.core.disables.filter fun p => decide (p.1.die = d)).map fun p => (p.2, .off p.1.c)

/-- A disable comes before a configuration of the same instant (R70), and a setting accepted after the configuration follows it. -/
def Change.rank : Change → Nat
  | .off _ => 0
  | .cfg .. => 1
  | .filt .. => 2
  | .period .. => 3

/-- The die with the declaration of V_D that waits for a tf up to t, and the charges that follow (R261). -/
def Die.declaredAt (d : Die) (t : Tick) : Die :=
  let vd := (((d.led.vdAt.filter fun p => decide (p.1 ≤ t)).getLast?).map (·.2)).getD d.led.vd
  { d with led := { d.led with vd := vd }, chans := d.chans.map fun (k : Channel) => k.recharge vd }
/-- The die as the changes before t leave it; a disable at t and settings that act at t count too (R67, R154). -/
def State.dieAt (s : State) (d : DieId) (extra : List (Chan × SchedEntry × Option ChanImg)) (t : Tick) : Die :=
  let l := (s.changes d extra).filter fun p => decide (p.1 < t) || (decide (p.1 = t) && (p.2.rank == 0 || p.2.rank == 2))
  (l.insertionSort fun a b => a.1 < b.1 ∨ (a.1 = b.1 ∧ a.2.rank ≤ b.2.rank)).foldl (fun x p => x.change p.1 p.2) ((s.die d).declaredAt t)

/-! ### Checking a configuration (R154, R384, R86 to R92, R162) -/

/-- The window of an entry that converts edges to angles (R222). -/
def Entry.angleAtTick (x : Entry) (t : Tick) : Bool :=
  x.live && x.e.op == 2 && bit x.e.param 2 && decide (x.e.time.toNat ≤ t) && decide (t < x.e.time.toNat + x.e.period.toNat)
/-- Axes in use on a die at t by the channels that are not in `cs`: those of the angle-locked ones, and those of the captures that convert
edges then (R162, R222). -/
def State.axesAt (s : State) (di : DieId) (cs : List ChanId) (extra : List (Chan × SchedEntry × Option ChanImg)) (t : Tick) :
    List Nat :=
  let d := s.dieAt di extra (t + 1)
  (allC.filterMap fun c => if !cs.contains c && hasChain (d.chan c).mode && Img.lock (d.chan c).img == 1
    then some (Img.axis (d.chan c).img) else none) ++
    (s.core.entries.filter fun x => decide (x.ch.die = di) && !cs.contains x.ch.c && x.angleAtTick t).map fun x => Img.axis (d.chan x.ch.c).img
/-- With axis a in use from lo on, up to hi, the die never uses more than two (R162, R222). -/
def State.axesOk (s : State) (di : DieId) (cs : List ChanId) (extra : List (Chan × SchedEntry × Option ChanImg)) (a lo : Nat)
    (hi : Option Tick) : Bool :=
  let later := (s.changes di extra).map (·.1) ++ ((s.core.entries.filter fun x => decide (x.ch.die = di)).map fun x => x.e.time.toNat)
  (lo :: later.filter fun t => decide (lo < t) && hi.all fun u => decide (t < u)).all fun t =>
    decide ((a :: s.axesAt di cs extra t).dedup.length ≤ 2)

/-- A source is set for axis number a (R162). -/
def Core.axisOn (c : Core) (a : Nat) : Bool := match c.axes[a]? with | some x => x.src != 0 | none => false

/-- An image in force from t on names an axis without a source, or gives the die a third axis: by its angle lock, or for the captures of
its channel that convert edges to angles (R162, R222). -/
def State.axisBad (s : State) (ch : Chan) (cs : List ChanId) (extra : List (Chan × SchedEntry × Option ChanImg)) (i : ChanImg)
    (t : Tick) : Bool :=
  let a := Img.axis i
  (Img.lock i == 1 && hasChain (Img.mode i) && (!s.core.axisOn a || !s.axesOk ch.die cs extra a t none)) ||
    s.core.entries.any fun x => decide (x.ch = ch) && x.live && x.e.op == 2 && bit x.e.param 2 &&
      decide (t < x.e.time.toNat + x.e.period.toNat) && Img.axis (s.chan ch).want != a &&
      (!s.core.axisOn a || !s.axesOk ch.die cs extra a (max t x.e.time.toNat) (some (x.e.time.toNat + x.e.period.toNat)))

/-- Status with which a configuration of a channel at t is refused; `d` is the die as it will stand (R24, R90, R92, R154, R162,
R238, R384). -/
def State.configRefused (s : State) (d : Die) (ch : Chan) (i : ChanImg) (t : Tick)
    (extra : List (Chan × SchedEntry × Option ChanImg) := []) : Option ZS :=
  let k := d.chan ch.c
  let cs := bindOf ch.c i
  let member := match k.group with | some g => decide (g ≠ ch.c) | none => false
  let bound := cs.any fun x => decide (x ≠ ch.c) && decide (1 < (d.unit x).length) && !(d.unit x).contains ch.c
  let alien := Img.mode i == 8 && cs.any fun x => decide (x ≠ ch.c) && (d.chan x).mode != 8
  let angle := Img.lock i == 1 && hasChain (Img.mode i)
  if !imgFieldsOk i || !imgCombosOk ch.c i || k.odd || member || bound || alien then some .badArg
  else if s.axisBad ch cs extra i t then some .badArg
  else if angle && decide ((s.lane s.active ch.die).version < 2) then some .version
  else none

/-! ### The ledger's plan (R262 to R264) -/

/-- Planned standing charges of a channel: instant, heat, barrier draw and class. -/
def standings (plan : List PlanItem) (d : DieId) (c : ChanId) : List (Tick × Nat × Nat × Nat) :=
  plan.filterMap fun p => match p.cost with
    | .standing a k h b => if p.die = d ∧ k = c then some (a, h, b, p.cls) else none
    | _ => none

/-- The larger of two charges by heat, and by barrier draw. -/
def moreHeat (a b : Nat × Nat × Nat) : Nat × Nat × Nat := if a.1 < b.1 then b else a
def moreBar (a b : Nat × Nat × Nat) : Nat × Nat × Nat := if a.2.1 < b.2.1 then b else a

/-- The charges in force on a channel from an instant t on, in the interval from te: the one of the last change before t, and those of
the changes from t to the interval's end (R264). -/
def chargesFrom (k : Channel) (plan : List PlanItem) (d : DieId) (c : ChanId) (t te : Tick) :
    (Nat × Nat × Nat) × List (Nat × Nat × Nat) :=
  let st := standings plan d c
  let base := (st.filter fun p => decide (p.1 < t)).foldl
    (fun b p => if b.1 ≤ p.1 then (p.1, p.2) else b) (0, (k.chgHeat, k.chgBar, Img.sclass k.img))
  (base.2, (st.filter fun p => decide (t ≤ p.1) && decide (p.1 < te + iv)).map (·.2))
/-- The charges that the check counts in the interval from te: a change at its start has the charge that ends there in it too (R264). -/
def chargesIn (k : Channel) (plan : List PlanItem) (d : DieId) (c : ChanId) (te : Tick) :
    (Nat × Nat × Nat) × List (Nat × Nat × Nat) := chargesFrom k plan d c te te

/-- Heat charges of a die during the interval from te, with their classes (R258, R264, R268). -/
def heatsIn (k : Die) (plan : List PlanItem) (d : DieId) (te : Tick) : List (Nat × Nat) :=
  (allC.map fun c => let x := chargesIn (k.chan c) plan d c te; let m := x.2.foldl moreHeat x.1; (m.1, m.2.2)) ++
    plan.filterMap fun p => match p.cost with
      | .heat lo hi m => if p.die = d ∧ lo < te + iv ∧ te < hi then some (m, p.cls) else none
      | _ => none

/-- Die load during an interval: the base charge and every heat charge (R260, R264). -/
def dieLoad (k : Die) (plan : List PlanItem) (d : DieId) (te : Tick) : Nat := 250 + ((heatsIn k plan d te).map (·.1)).sum
/-- HELDc on a die during an interval (R268). -/
def dieHeld (k : Die) (plan : List PlanItem) (d : DieId) (te : Tick) (cls : Nat) : Nat :=
  (((heatsIn k plan d te).filter (·.2 == cls)).map (·.1)).sum
/-- Package load and HELDc (R258, R268). -/
def State.pkgLoad (s : State) (plan : List PlanItem) (te : Tick) : Nat :=
  s.deviceCharge + s.deviceReserve + (s.presentDies.map fun d => dieLoad (s.die d) plan d te).sum
def State.pkgHeld (s : State) (plan : List PlanItem) (te : Tick) (cls : Nat) : Nat :=
  (s.presentDies.map fun d => dieHeld (s.die d) plan d te cls).sum

/-- The plan without the bounded charges that have ended (R258). -/
def stillHeld (plan : List PlanItem) (now : Tick) : List PlanItem :=
  plan.filter fun p => match p.cost with | .heat _ hi _ => decide (now < hi) | _ => true
/-- HELDc of a die and of the package at an instant, as the registers show it: in use, and reserved in the interval (R258, R268). -/
def dieHeldNow (k : Die) (plan : List PlanItem) (d : DieId) (now : Tick) (cls : Nat) : Nat :=
  dieHeld k (stillHeld plan now) d (ivOf now) cls
def State.pkgHeldNow (s : State) (cls : Nat) : Nat := s.pkgHeld (stillHeld s.core.plan s.clk.now) (ivOf s.clk.now) cls

/-- Standing draw of a die in an epoch, in 0.01 credit (R260, R263). -/
def drawIn (k : Die) (plan : List PlanItem) (d : DieId) (e : Nat) : Nat :=
  2500 + (allC.map fun c => let x := chargesFrom (k.chan c) plan d c (e * iv + 1) (e * iv); (x.2.foldl moreBar x.1).2.1).sum

/-- The reservoir after n ≥ 1 epochs of standing draw s and no other cost (R257, R263). -/
def afterEpochs (l : Int) (s n : Nat) : Int :=
  if n = 0 then l
  else min (l + n * ((12000 : Int) - s)) ((60000 : Int) - s + (if 12000 < s then (n - 1 : Nat) * ((12000 : Int) - s) else 0))

/-- The projection over the epochs at which something changes, from epoch e with level l: whether the level stays at or
above 0 (R263). -/
def projects (k : Die) (plan : List PlanItem) (d : DieId) : List Nat → Nat → Int → Bool
  | [], e, l => decide (0 ≤ l) && decide (drawIn k plan d (e + 1) ≤ 12000 ∨ afterEpochs l (drawIn k plan d (e + 1)) 1 ≥ 0) &&
      decide (drawIn k plan d (e + 1) ≤ 12000)
  | x :: rest, e, l =>
    let s := drawIn k plan d (e + 1)
    let n := x - e - 1
    let l1 := afterEpochs l s n
    let first := if n = 0 then l else afterEpochs l s 1
    let l2 := min 60000 (l1 + 12000) - drawIn k plan d x - energyAt plan d x
    decide (0 ≤ l) && decide (0 ≤ first) && decide (0 ≤ l1) && projects k plan d rest x l2

/-- Instants at which a plan changes something. -/
def planTimes (plan : List PlanItem) : List Tick :=
  plan.map fun p => match p.cost with | .energy e _ => e * iv | .heat lo _ _ => lo | .standing a _ _ _ => a

/-- The energy check of a die from the present level, less the current epoch's draws (R263). -/
def energyOk (k : Die) (plan : List PlanItem) (d : DieId) (now : Tick) : Bool :=
  let e := now / iv
  let pts := (((plan.filter fun p => decide (p.die = d) && (match p.cost with | .heat .. => false | _ => true)) |> planTimes).map
    (· / iv)).filter fun x => decide (e < x)
  let l : Int := (k.led.level : Int) - drawIn k plan d e - energyAt plan d e
  projects k plan d (pts.dedup.insertionSort (· ≤ ·)) e l

/-- The intervals at which the unit's costs have to be checked: those in which something changes, and the next ones, in which of a
change's two charges only the new one counts (R264). -/
def checkPoints (plan items : List PlanItem) (now : Tick) : List Tick :=
  let starts := planTimes items
  match starts.min? with
  | none => []
  | some t0 => ((starts ++ (planTimes plan).filter fun t => decide (t0 ≤ t)).flatMap fun t =>
      [max (ivOf t) (ivOf now), max (ivOf t) (ivOf now) + iv]).dedup

/-- FLOOR and CEIL of a class in a scope's policy. -/
def policyOf (v : Vector Policy 3) (cls : Nat) : Policy := v.toList.getD (cls - 1) ⟨0, 0xFFFF⟩

/-- A holding stays at or below a class's ceiling; one above the scope's size is none (R275). -/
def Policy.admits (p : Policy) (size held : Nat) : Bool := decide (held ≤ p.ceil) || decide (size < p.ceil)
/-- Floors of the classes below c that their holdings do not fill (R269). -/
def floorsBelow (v : Vector Policy 3) (cls : Nat) (held : Nat → Nat) : Nat :=
  ((List.range cls).map fun k => if k = 0 then 0 else (policyOf v k).floor - held k).sum

/-- Why the ledger refuses. -/
inductive Short where
  | policy | energy | die | pkg
  deriving DecidableEq, Repr

/-- Check 11: the class's ceilings, in every interval in which the unit adds to its holding (R269). -/
def State.policyOk (s : State) (plan items : List PlanItem) (cls : Nat) (now : Tick) : Bool :=
  let plan' := plan ++ items
  decide (cls = 0) || (checkPoints plan items now).all fun te =>
    (let a := s.pkgHeld plan' te cls
     decide (a ≤ s.pkgHeld plan te cls) || (policyOf s.core.ledger.policy cls).admits 25000 a) &&
    s.presentDies.all fun d =>
      let a := dieHeld (s.die d) plan' d te cls
      decide (a ≤ dieHeld (s.die d) plan d te cls) || (policyOf (s.die d).led.policy cls).admits 4000 a

/-- Check 12: energy, die dissipation and package dissipation, the floors of lower classes kept free (R263, R264, R269). -/
def State.creditShort (s : State) (plan items : List PlanItem) (cls : Nat) (now : Tick) : Option Short :=
  let plan' := plan ++ items
  let dies := (items.map (·.die)).dedup
  let pts := checkPoints plan items now
  let dieBad := s.presentDies.any fun d => pts.any fun te =>
    let a := dieLoad (s.die d) plan' d te
    decide (dieLoad (s.die d) plan d te < a) &&
      decide (4000 < a + floorsBelow (s.die d).led.policy cls (dieHeld (s.die d) plan' d te))
  let pkgBad := pts.any fun te =>
    let a := s.pkgLoad plan' te
    decide (s.pkgLoad plan te < a) && decide (25000 < a + floorsBelow s.core.ledger.policy cls (s.pkgHeld plan' te))
  if dies.any (fun d => (items.any fun p => decide (p.die = d) && (match p.cost with | .heat .. => false | _ => true)) &&
      !energyOk (s.die d) plan' d now) then some .energy
  else if dieBad then some .die
  else if pkgBad then some .pkg
  else none

/-- Status and reason of a ledger refusal (R66). -/
def Short.status : Short → ZS × Nat
  | .policy => (.refusedPolicy, 9)
  | .energy => (.refusedEnergy, 6)
  | .die => (.refusedEnergy, 7)
  | .pkg => (.refusedEnergy, 8)

/-- Entries that may be pre-empted for class c: lower class first taken, latest TIME first; OUT_SET and AUX_TRIGGER entries
with a cost, whose promotion has not begun; none of the unit itself, whose identities begin at `below` (R63, R270). -/
def Core.victims (c : Core) (cls below : Nat) : List Entry :=
  let l := c.entries.filter fun e => e.atHub && decide (cls < e.e.cls.toNat) && (e.e.op == 3 || e.e.op == 6) &&
    c.plan.any (·.owner == some e.id) && decide (e.id < below)
  l.insertionSort fun a b => b.e.cls.toNat < a.e.cls.toNat ∨ (a.e.cls = b.e.cls ∧ b.e.time.toNat ≤ a.e.time.toNat)

/-- The plan without the costs of some entries. -/
def dropOwners (plan : List PlanItem) (ids : List Nat) : List PlanItem :=
  plan.filter fun p => match p.owner with | some i => !ids.contains i | none => true

/-- The class is protected in the scope that is short: class 0, or its holding stays within its floor (R270). -/
def State.protectedCls (s : State) (plan items : List PlanItem) (cls : Nat) (now : Tick) (w : Short) : Bool :=
  let plan' := plan ++ items
  decide (cls = 0) || (checkPoints plan items now).all fun te =>
    match w with
    | .pkg => decide (s.pkgHeld plan' te cls ≤ (policyOf s.core.ledger.policy cls).floor)
    | _ => (items.map (·.die)).dedup.all fun d =>
      decide (dieHeld (s.die d) plan' d te cls ≤ (policyOf (s.die d).led.policy cls).floor)

/-- The shortest run of victims whose costs cover the shortfall, or none (R270). -/
def State.preempt (s : State) (items : List PlanItem) (cls : Nat) (now : Tick) : List Entry → List Nat → Option (List Nat)
  | [], _ => none
  | e :: rest, ids =>
    let ids' := ids ++ [e.id]
    if (s.creditShort (dropOwners s.core.plan ids') items cls now).isNone then some ids'
    else s.preempt items cls now rest ids'

/-- EV_POLICY_CONFLICT at a pre-emption: the class held, the number of entries and the first TAG (R270). -/
def State.preempted (s : State) (cls : Nat) (ids : List Nat) : State :=
  let tag := match ids.head?.bind s.core.entry with | some e => e.e.tag.toNat | none => 0
  let s1 := s.outcomes ids .cancelled
  let s2 := s1.modCore fun c => { c with ledger := { c.ledger with preemptCnt := satAdd c.ledger.preemptCnt ids.length } }
  s2.raiseNow .policyConflict (leBytes 1 cls ++ leBytes 4 ids.length ++ leBytes 4 tag)

/-- The ledger's answer to costs of a class (checks 11 and 12 of R66, R266): refused, or the state after any pre-emption
with the costs planned. -/
def State.ledgerAdmit (s : State) (items : List PlanItem) (cls : Nat) (now : Tick) (below : Nat := s.core.nextId) :
    Except (ZS × Nat × Nat) State :=
  let planned (t : State) : State := t.modCore fun c => { c with plan := c.plan ++ items }
  if items.isEmpty then .ok s
  else if !s.policyOk s.core.plan items cls now then .error (.refusedPolicy, 9, 11)
  else match s.creditShort s.core.plan items cls now with
    | none => .ok (planned s)
    | some w =>
      let no : Except (ZS × Nat × Nat) State := .error (w.status.1, w.status.2, 12)
      if s.protectedCls s.core.plan items cls now w then
        match s.preempt items cls now (s.core.victims cls below) [] with
        | some ids => .ok (planned (s.preempted cls ids))
        | none => no
      else no

/-! ### Costs (R262) -/

/-- Costs of putting a configuration in force at t: 40 credits for each channel whose mode changes, and the standing charges
of every channel bound or released (R262). -/
def Die.configCosts (d : Die) (di : DieId) (c : ChanId) (i : ChanImg) (t : Tick) (owner : Option Nat) : List PlanItem :=
  let cs := (d.unit c ++ bindOf c i).dedup
  let d' := d.putInForce di 0 c i 0 t
  let n := (cs.filter fun x => (d'.chan x).mode != (d.chan x).mode).length
  let period (x : ChanId) : Nat := if (d'.chan x).mode = 10 ∧ ((d.chan x).mode ≠ 10 ∨ d.frontChange c i = true) then 3000000 else (d.chan x).out.period
  (if n = 0 then [] else [⟨di, 0, owner, .energy (t / iv) (4000 * n)⟩]) ++
    cs.map fun x =>
      let q := chargeOf (d'.chan x).img (d'.chan x).odd d.led.vd (period x)
      ⟨di, Img.sclass (d'.chan x).img, owner, .standing t x q.1 q.2⟩

/-- Costs of disabling a channel, or its pair or group, at t (R262). -/
def Die.offCosts (d : Die) (di : DieId) (c : ChanId) (t : Tick) (owner : Option Nat) : List PlanItem :=
  ⟨di, 0, owner, .energy (t / iv) (4000 * (d.unit c).length)⟩ ::
    (d.unit c).map fun x => ⟨di, Img.sclass (d.chan x).img, owner, .standing t x 0 0⟩

/-- The image that a MODE_SET puts in force on the die as it will stand (R59). -/
def modeSetImg (d : Die) (c : ChanId) (e : SchedEntry) (img : Option ChanImg) : ChanImg :=
  Img.withMode (img.getD (d.chan c).img) (fld e.param 0 4)

/-- Costs of an entry on the die as it will stand at its TIME (R262). -/
def Die.entryCosts (d : Die) (di : DieId) (c : ChanId) (e : SchedEntry) (img : Option ChanImg) (id : Nat) : List PlanItem :=
  let t := e.time.toNat
  let cls := e.cls.toNat
  let k := d.chan c
  match SchedEntry.op e with
  | 3 =>
    if k.mode = 12 then [⟨di, cls, some id, .energy (t / iv) 200⟩]
    else if (k.mode = 8 ∨ k.mode = 9 ∨ k.mode = 10) ∧ e.param ≠ 1#32 ∧ Img.clampE (d.govern c) ≠ 0 then
      [⟨di, cls, some id, .heat t (t + 100 * ms) (ceilDiv (5 * Img.clampE (d.govern c)) 2)⟩]
    else []
  | 5 =>
    let q := chargeOf k.img k.odd d.led.vd e.param.toNat
    [⟨di, Img.sclass k.img, some id, .standing t c q.1 q.2⟩]
  | 6 =>
    match d.aux.slotOf c with
    | some sl =>
      let l := d.aux.sequence sl
      (List.range e.count.toNat).flatMap fun n =>
        let ta := SchedEntry.occTime e n + 125 * fld e.param 0 16
        (List.range (ceilDiv (injEnd l ta - ta) iv)).map fun j => ⟨di, cls, some id, .energy ((ta + j * iv) / iv) 100⟩
    | none => []
  | 8 => d.configCosts di c (modeSetImg d c e img) t (some id)
  | 9 => d.offCosts di c t (some id)
  | _ => []

/-! ### Records and plans of an entry (R65, R78) -/

/-- Reserved record length in words (R78). -/
def recordWords (e : SchedEntry) (i : ChanImg) : Nat :=
  let n := e.count.toNat
  let q := ceilDiv n 16
  if e.slot = 0#32 then 0
  else match SchedEntry.op e with
    | 1 => if Img.lock i = 1 ∨ Img.mcEn i = true then 5 + 4 * n + q else 7 + n + q
    | 2 => if bit e.param 2 then 5 + 4 * n else 5 + 3 * n
    | 6 => 5 + 9 * n
    | 7 => 69
    | _ => if SchedEntry.readback e then 7 else 5

/-- The end of a SAMPLE entry: COUNT periods, the half-span and 3 µs; an angle-locked entry has none (R159, R169). -/
def sampleEnd (e : SchedEntry) (i : ChanImg) (mainsPeriod : Nat) : Tick :=
  let n := e.count.toNat
  let t := e.time.toNat
  if Img.mcEn i then t + (n + 1) * (Img.mcN i + 1) * mainsPeriod
  else match Img.lock i with
    | 0 => t + ceilDiv (n * Img.period i) (2 ^ 32) + halfSpan i + 3 * us
    | 2 => t + (n + 1) * (Img.scsWin i * 192000) + 3 * us
    | _ => 2 ^ 64

/-- Whether a PWM channel is expected to run at t, and its longest period then: from the channel and its admitted entries, the latest of
which starts or stops it; what stops it at an instant overrides a start (R64, R236). -/
def State.pwmAhead (s : State) (ch : Chan) (t : Tick) : Bool × Nat :=
  let o := (s.chan ch).out
  let l := s.core.entries.filter fun x => x.live && decide (x.ch = ch) && decide (x.e.time.toNat ≤ t)
  let turns := (l.filter fun x => x.e.op == 3 || x.e.op == 8 || x.e.op == 9).map fun x =>
    (x.e.time.toNat, x.e.op == 3 && x.e.param == 1#32)
  let last := turns.foldl (fun b p => if b.1 < p.1 then p else if p.1 < b.1 then b else (b.1, b.2 && p.2)) (0, o.run)
  (last.2, (l.filter (·.e.op == 5)).foldl (fun m x => max m x.e.param.toNat) (if l.any (·.e.op == 8) then max o.period 3000000 else o.period))
/-- Intervals of 10 µs that a span touches. -/
def spanIvs (lo hi : Tick) : Nat := max 1 (ceilDiv hi iv - lo / iv)
/-- The entry's share of the plans: a near-term queue slot until it retires, and its frames (R64, R65, R79, R169, R220, R236, R247).
A PWM_DUTY waits for the next period start, which on a stopped channel has no end that is known (log 64). -/
def Die.lanePlan (d : Die) (c : ChanId) (e : SchedEntry) (mainsPeriod : Nat) (now : Tick) (pwm : Bool × Nat) : LanePlan :=
  let t := e.time.toNat
  let n := e.count.toNat
  let i := (d.chan c).img
  let p := max (t - ms) now
  match SchedEntry.op e with
  | 1 =>
    let u := sampleEnd e i mainsPeriod
    if Img.lock i = 1 then ⟨p, u, 5 * spanIvs t u, t, u⟩
    else ⟨p, u, if Img.mcEn i then 2 * n else ceilDiv n 2, t, u⟩
  | 2 =>
    let w := if (d.chan c).filtered then Img.thr i * Img.tick i * 300 else 0
    let u := t + e.period.toNat + w
    ⟨p, u + (if bit e.param 2 then 8000 * us else 0), if bit e.param 2 then 2 * n else n, t, u⟩
  | 6 =>
    let dur := match d.aux.slotOf c with | some sl => injEnd (d.aux.sequence sl) 0 | none => 0
    let u := t + n * e.period.toNat + 125 * fld e.param 0 16 + dur
    ⟨p, u, 5 * n, t, u⟩
  | 7 => let u := SchedEntry.fskEnd e (Img.lead i); ⟨p, u, ceilDiv (SchedEntry.nrx e) 8 + 1, t, u⟩
  | 8 => ⟨p, t + 50 * us, 0, t, t⟩
  | 10 => ⟨p, t + (n - 1) * e.period.toNat, 0, t, t⟩
  | _ =>
    if SchedEntry.readback e then
      let u := sampleEnd { e with time := BitVec.ofNat 64 (t + 50 * us), count := 1 } i mainsPeriod
      ⟨p, u, 1, t, u⟩
    else
      let w := match SchedEntry.op e with
        | 4 => if pwm.1 then t + pwm.2 else 2 ^ 64
        | 5 => if pwm.1 then t else 2 ^ 64
        | _ => t
      ⟨p, w, 0, t, t⟩

/-- The plan holds a near-term queue slot in the interval from te. -/
def LanePlan.holds (p : LanePlan) (te : Tick) : Bool := decide (ivOf p.promoAt ≤ te) && decide (te ≤ ivOf p.untilAt)
/-- Frames planned in the interval from te. -/
def LanePlan.rate (p : LanePlan) (te : Tick) : Rat :=
  if p.frames = 0 ∨ p.hi ≤ te ∨ te + iv ≤ p.lo then 0
  else mkRat p.frames (spanIvs p.lo p.hi)

/-- Checks 9 and 10 of an entry against the plans of its die: the reason that fails, 2, 3 or 4 (R64, R65). -/
def planFails (plans : List LanePlan) (p : LanePlan) : Option Nat :=
  let all := p :: plans
  let qs := (all.map fun x => ivOf x.promoAt).filter p.holds
  let fs := if p.frames = 0 then [] else (all.map fun x => ivOf x.lo).filter fun te => decide (0 < p.rate te)
  if qs.any fun te => decide (256 < all.countP (·.holds te)) then some 2
  else if 200 < 4 * all.countP (fun x => ivOf x.promoAt == ivOf p.promoAt) then some 3
  else if fs.any fun te => decide (32 < (all.map (·.rate te)).sum) then some 4
  else none

/-! ### The checks of an entry (R66) -/

/-- Check 1: the fields of the entry, without its channel and its set (R58 to R61). -/
def fieldsOk (e : SchedEntry) : Bool :=
  let one := e.count == 1#16 && e.period == 0#32
  let z (lo : Nat) : Bool := fld e.param lo (32 - lo) == 0
  decide (e.cls.toNat ≤ 3) && decide (e.flags.toNat < 16) && decide (1 ≤ e.count.toNat ∧ e.count.toNat ≤ 4096) &&
    (!SchedEntry.readback e || SchedEntry.op e == 3 || SchedEntry.op e == 4 || SchedEntry.op e == 5) &&
    (match SchedEntry.op e with
      | 1 => z 0 && e.period == 0#32
      | 2 => z 3 && fld e.param 0 2 != 0 && e.period != 0#32
      | 3 => one
      | 4 => z 16 && one
      | 5 => decide (150000 ≤ e.param.toNat ∧ e.param.toNat ≤ 3000000000) && one
      | 6 => z 16 && decide (120000 ≤ e.period.toNat)
      | 7 => z 24 && decide (fld e.param 16 8 ≤ 252) && one
      | 8 => z 16 && decide (fld e.param 0 4 ≤ 13) && one
      | 9 => z 0 && one
      | 10 => z 0 && (e.count == 1#16 || e.period != 0#32)
      | _ => false) &&
    (e.slot != 0#32 || ((SchedEntry.op e == 3 || SchedEntry.op e == 4 || SchedEntry.op e == 5) && !SchedEntry.readback e) ||
      SchedEntry.op e == 8 || SchedEntry.op e == 9 || SchedEntry.op e == 10)

/-- RESULT_SLOT's destination: 0, or an open stream (R61). -/
def Core.destOk (c : Core) (e : SchedEntry) : Bool :=
  let n := fld e.slot 26 6
  n == 0 || c.streams.any fun x => x.n == n && x.isOpen

/-- The stored set that a MODE_SET names: none with set 0, an error when nothing is stored under its number (R59, R384). -/
def State.setOf (s : State) (ch : Chan) (e : SchedEntry) : Option (Option ChanImg) :=
  let n := fld e.param 4 12
  if SchedEntry.op e ≠ 8 ∨ n = 0 then some none
  else match s.core.sets.find? (·.1 == n) with
    | some (_, _, a) => some (some (ImageArg.resolve a s.core.mains.nom (s.chan ch).want))
    | none => none

/-- Admitted FSK_FRAME spans of a channel: start and end (R249). -/
def State.fskSpans (s : State) (ch : Chan) : List (Tick × Tick) :=
  (s.core.entries.filter fun x => x.live && decide (x.ch = ch) && x.e.op == 7).map fun x => (x.e.time.toNat, x.plan.hi)

/-- Check 2: the operation is allowed in the channel's mode at TIME (R67, R89, R138, R218, R222, R249). That the slots of R138 are
judged by PRIV in force, not by a shadow that a write has filled, is a DESIGN CHOICE (log 24). -/
def State.modeOk (s : State) (ch : Chan) (e : SchedEntry) (img : Option ChanImg)
    (unit : List (Chan × SchedEntry × Option ChanImg)) : Bool :=
  let t := e.time.toNat
  let rest := unit.filter fun x => x.2.1 != e
  let d := s.dieAt ch.die rest t
  let k := d.chan ch.c
  let spans := s.fskSpans ch
  k.allows ch.c e &&
    (match SchedEntry.op e with
    | 2 =>
      decide ((s.core.entries.countP fun x => x.live && decide (x.ch = ch) && x.e.op == 2) < 8) &&
        (!bit e.param 2 || (s.core.axisOn (Img.axis k.img) &&
          s.axesOk ch.die [] rest (Img.axis k.img) t (some (t + e.period.toNat))))
    | 6 => (d.aux.slotOf ch.c).isSome
    | 7 => spans.all fun p => decide (p.2 ≤ t) || decide (SchedEntry.fskEnd e (Img.lead k.img) ≤ p.1)
    | 8 =>
      ((s.configRefused d ch (modeSetImg d ch.c e img) t rest).all (· == .version)) && (spans.all fun p => !(decide (p.1 ≤ t) && decide (t < p.2))) &&
        (s.core.entries.filter fun x => x.live && decide (x.ch.die = ch.die) && decide (t < x.e.time.toNat)).all fun x =>
          let was := (s.dieAt ch.die rest x.e.time.toNat).chan x.ch.c
          let now := (s.dieAt ch.die ((ch, e, img) :: rest) x.e.time.toNat).chan x.ch.c
          !was.allows x.ch.c x.e || now.allows x.ch.c x.e ||
            (((s.dieAt ch.die rest t).unit ch.c).contains x.ch.c && !(bindOf ch.c (modeSetImg d ch.c e img)).contains x.ch.c)
    | _ => true)

/-- Check 4: the session's version and the die's lane version; a MODE_SET into angle lock needs version 2 as a configuration does
(R24, R222, R392). -/
def versionOk (v2 : Bool) (lane : Nat) (lock : Bool) (e : SchedEntry) : Bool :=
  let op := SchedEntry.op e
  let angle := (op == 2 && bit e.param 2) || (op == 8 && lock)
  (!v2 || op == 1 || (op == 2 && !bit e.param 2) || op == 3 || op == 9 || op == 10) && (!angle || decide (2 ≤ lane))

/-- The record an entry reserves (R77, R80). -/
def newRecord (id : Nat) (e : SchedEntry) (i : ChanImg) (words : Nat) : Record :=
  { id := id, dest := fld e.slot 26 6, tag := e.tag, key := fld e.slot 0 26, chan := e.channel.toNat, opcode := SchedEntry.op e, status := 0, done := 0,
    len := words, time0 := 0, body := [], sent := 0, retired := none, count := e.count.toNat,
    compact := SchedEntry.op e == 1 && Img.lock i == 0 && !Img.mcEn i, ended := false }

/-- One entry is admitted, or the check that fails: status, reason and the check's number; `below`: the unit's first identity (R63,
R64, R66). -/
def State.admitEntry (s : State) (who : Who) (v2 : Bool) (below : Nat) (unit : List (Chan × SchedEntry × Option ChanImg))
    (e : SchedEntry) (octets : List Byte) : Except (ZS × Nat × Nat) State :=
  let now := s.clk.now
  match s.chanOf e.channel.toNat with
  | none => .error (.badArg, 13, 1)
  | some ch =>
    match s.setOf ch e with
    | none => .error (.badArg, 13, 1)
    | some img =>
      let d := s.dieAt ch.die (unit.filter fun x => x.2.1 != e) e.time.toNat
      let words := recordWords e (d.chan ch.c).img
      let p := d.lanePlan ch.c e s.core.mains.period now (s.pwmAhead ch e.time.toNat)
      let lock := Img.lock (modeSetImg d ch.c e img) == 1 && hasChain (Img.mode (modeSetImg d ch.c e img))
      let plans := (s.core.entries.filter fun x => x.live && decide (x.ch.die = ch.die)).map (·.plan)
      if !fieldsOk e || !s.core.destOk e then .error (.badArg, 13, 1)
      else if !s.modeOk ch e img unit then .error (.badArg, 13, 2)
      else if e.time.toNat < now + s.core.sched.minLead * us then .error (.badArg, 15, 3)
      else if !versionOk v2 (s.lane s.active ch.die).version lock e then .error (.version, 14, 4)
      else if !(s.die ch.die).on || s.entering ch.die then .error (.blockOff, 12, 5)
      else if !s.usable && !SchedEntry.freeRun e then .error (.noTime, 11, 6)
      else if s.core.slots.free = 0 ∨ (v2 = true ∧ 4096 ≤ s.core.entries.countP fun x => x.ver2 && decide (x.owner = who)) then .error (.busy, 1, 7)
      else if s.core.store.free < words then .error (.busy, 5, 8)
      else match planFails plans p with
        | some 2 => .error (.busy, 2, 9)
        | some r => .error (.busy, r, 10)
        | none =>
          match s.ledgerAdmit (d.entryCosts ch.die ch.c e img s.core.nextId) e.cls.toNat now below with
          | .error x => .error x
          | .ok s1 =>
            let id := s1.core.nextId
            let x : Entry := ⟨id, e, octets, ch, who, v2, .admitted, 0, none, none, words, 0, img, p⟩
            .ok (s1.modCore fun c => { c with
              slots := c.slots.reserve 1
              store := c.store.reserve words
              entries := c.entries ++ [x]
              records := (if words = 0 then c.records else c.records ++ [newRecord id e (d.chan ch.c).img words])
              nextId := id + 1 })

/-- The entries of a unit, one after the other; the first failure is the unit's, with its index (R63, R66). -/
def State.admitFrom (s : State) (who : Who) (v2 : Bool) (below : Nat) (unit : List (Chan × SchedEntry × Option ChanImg)) :
    Nat → List (SchedEntry × List Byte) → Except (Nat × ZS × Nat × Nat) State
  | _, [] => .ok s
  | i, (e, o) :: rest =>
    match s.admitEntry who v2 below unit e o with
    | .error x => .error (i, x)
    | .ok s1 => s1.admitFrom who v2 below unit (i + 1) rest

/-- A unit's entries with their channels and sets. -/
def State.unitOf (s : State) (es : List (SchedEntry × List Byte)) : List (Chan × SchedEntry × Option ChanImg) :=
  es.filterMap fun p => match s.chanOf p.1.channel.toNat with
    | some ch => some (ch, p.1, (s.setOf ch p.1).getD none)
    | none => none

/-- A unit is admitted whole in one atomic step, or refused with the failing entry's index, status, reason and check (R63,
R66): with ADMIT 0 every unit is refused with reason 10. -/
def State.admitUnit (s : State) (who : Who) (v2 : Bool) (es : List (SchedEntry × List Byte)) :
    Except (Nat × ZS × Nat × Nat) State :=
  if !s.core.sched.admits then .error (0, .busy, 10, 0)
  else match s.admitFrom who v2 s.core.nextId (s.unitOf es) 0 es with
    | .error x => .error x
    | .ok s1 =>
      let s2 := s1.modCore fun c => { c with sched := { c.sched with inFlight := c.sched.inFlight + es.length } }
      .ok (((s1.unitOf es).map (·.1.die)).dedup.foldl (fun t d => t.settlePools d) s2)

/-! ### Submission and deferral (R68, R72, R76, R84, R385) -/

/-- LAST_REFUSE (R84). -/
def refuseWord (tag : Word) (reason : Nat) (st : ZS) : Word :=
  BitVec.ofNat 32 (putFld tag.toNat 16 16 + putFld reason 8 8 + putFld st.toNat 0 8)

/-- The counts of a refused unit (R66, R72). -/
def SchedRegs.refuse (g : SchedRegs) (n : Nat) (w : Word) : SchedRegs :=
  { g with submitted := g.submitted + n, refused := g.refused + n, lastRefuse := w }

/-- A unit is submitted: admitted, refused, or deferred after a failure of checks 7 to 12 (R63, R66, R68). -/
def State.submit (s : State) (who : Who) (v2 : Bool) (es : List (SchedEntry × List Byte)) : State × Response :=
  let n := es.length
  let now := s.clk.now
  match s.admitUnit who v2 es with
  | .ok s1 =>
    (s1.modCore fun c => { c with sched := { c.sched with submitted := c.sched.submitted + n } },
      resp 0x0030 .ok (submitBody 0 0#32 now))
  | .error (i, st, reason, check) =>
    let tag := match es[i]? with | some p => p.1.tag | none => 0#32
    if decide (7 ≤ check) && es.any (fun p => SchedEntry.deferOk p.1) then
      if s.core.sched.deferred + n ≤ 1024 then
        (s.modCore fun c => { c with
            defer := c.defer ++ [⟨es, who, v2, reason⟩]
            sched := { c.sched with submitted := c.sched.submitted + n, deferred := c.sched.deferred + n } },
          ⟨0x0030, .deferred, reason, submitBody (i + 1) tag now⟩)
      else
        (s.modCore fun c => { c with sched := c.sched.refuse n (refuseWord tag 10 .busy) },
          ⟨0x0030, .busy, 10, submitBody (i + 1) tag now⟩)
    else
      (s.modCore fun c => { c with sched := c.sched.refuse n (refuseWord tag reason st) },
        ⟨0x0030, st, reason, submitBody (i + 1) tag now⟩)

/-- The end of a unit's deferral: EV_DEFER_END with the TAG of its first entry, the result and the reason (R68, R389). -/
def State.deferEnd (s : State) (u : DeferUnit) (result reason : Nat) : State :=
  let tag := match u.entries with | p :: _ => p.1.tag.toNat | [] => 0
  s.raiseSrc .deferEnd s.clk.now (srcHub s.active) false (leBytes 4 tag ++ leBytes 1 result ++ leBytes 1 reason) (some u.owner)

/-- One deferred unit at a retry instant: too late, admitted, or kept waiting (R68). -/
def State.retryUnit (s : State) (u : DeferUnit) : State :=
  let n := u.entries.length
  let late := u.entries.any fun p => decide (p.1.time.toNat < s.clk.now + s.core.sched.minLead * us)
  if late then
    (s.modCore fun c => { c with sched := { c.sched with refused := c.sched.refused + n, deferred := c.sched.deferred - n } }).deferEnd
      u 1 u.lastReason
  else match s.admitUnit u.owner u.ver2 u.entries with
    | .ok s1 => (s1.modCore fun c => { c with sched := { c.sched with deferred := c.sched.deferred - n } }).deferEnd u 0 0
    | .error (_, _, reason, _) => s.modCore fun c => { c with defer := c.defer ++ [{ u with lastReason := reason }] }

/-- DEFERRAL_RETRY at a multiple of 10 µs: deferred units are retried in acceptance order; from ts of a planned switchover on admission
stands still (R68, R295). -/
def execDeferralRetry (s : State) : Host.Outcome State Fault Refusal :=
  .next (
    if s.serving && !s.switching && decide (s.clk.now % iv = 0) then
      State.commit s (s.core.defer.foldl (fun t u => t.retryUnit u) (s.modCore fun c => { c with defer := [] }))
    else s)

end Sys2Proof.Machine
end

