-- ==== Sys2Proof/Machine/Ledger.lean ====
section
/-! DEFINITION. The ledger in time: epochs (R257, R258), metering (R267), and the hub's own operating point (R272). -/

namespace Sys2Proof.Machine
open Sys2Proof

/-! ### Epochs -/

/-- One epoch boundary: the energy metered since the last one leaves the reservoir, then 120 credits arrive, what does
not fit overflowing (R27, R257). -/
def DieLedger.epochStep (l : DieLedger) (metered : Nat) : DieLedger :=
  let drawn := min metered l.level
  let up := l.level - drawn + 12000
  let level := min 60000 up
  { l with
    level := level
    refilled := l.refilled + 12000
    drawn := l.drawn + drawn
    overflowed := l.overflowed + (up - level)
    epoch := l.epoch + 1 }

/-- What a plan item charges ended before the interval from te. -/
def PlanItem.over (p : PlanItem) (te : Tick) : Bool :=
  match p.cost with
  | .energy e _ => decide (e * iv < te)
  | .heat _ hi _ => decide (hi ≤ te)
  | .standing a _ _ _ => decide (a + iv ≤ te)

/-- A die's plan at the start of an interval: charges that ended leave it (R258). -/
def Core.prunePlan (c : Core) (d : DieId) (te : Tick) : Core :=
  { c with plan := c.plan.filter fun p => !(decide (p.die = d) && p.over te) }

/-- LEDGER_EPOCH: an epoch boundary of the die passes; `metered` is the energy metered in the epoch that ends, in 0.01
credit. The charges planned for the new interval enter the pools (R257, R258, R267). -/
def execLedgerEpoch (d : DieId) (metered : Nat) (s : State) : Host.Outcome State Fault Refusal :=
  let k := s.die d
  .next (if k.present && k.isoPower && decide (k.led.epoch * iv ≤ k.replica) then
    let s1 := s.modDie d fun k => { k with led := k.led.epochStep metered }
    State.commit s ((s1.modCore (·.prunePlan d (k.led.epoch * iv))).settlePools d)
  else s)

/-! ### Metering -/

/-- A run of milliseconds: one longer while the condition holds, from 0 again when it does not, held at 10. -/
def runMs (n : Nat) (bad : Bool) : Nat := if bad then min 10 (n + 1) else 0
/-- The run reaches its tenth millisecond. -/
def tenthMs (n : Nat) (bad : Bool) : Bool := bad && n == 9

/-- The heat exceeds the charge by more than 10 % (R267). -/
def overHeat (heat charge : Nat) : Bool := decide (11 * charge < 10 * heat)

/-- Heat of a current in µA through a resistance in tenths of an ohm, in 10^-12 W (R251). -/
def ohms (i : Int) (tenths : Nat) : Nat := i.natAbs * i.natAbs * tenths / 10
/-- Heat of a current in µA at a voltage in mV, in 10^-12 W; it is not negative (R251). -/
def volts (i v : Int) : Nat := (i * v * 1000).toNat
/-- Heat of a mode that switches, in 10^-12 W: f_e · V_LP · I · t_r / 2 and the clamp energy of the switch-offs (R251). -/
def switching (g : ChanImg) (p : HeatPoint) (lp : Nat) : Nat :=
  p.edges * lp * p.load.natAbs * riseTime (Img.slew g) / 6000000 + Img.clampE g * p.offs * 250000000
/-- The heat of a channel's mode from what the die measures, in 10^-12 W (R251, R207). In modes 0x9 and 0xA the resistance is that of the
half-bridge side that drives now (DESIGN CHOICE, log 42). -/
def Channel.heatOf (k : Channel) (g : ChanImg) (p : HeatPoint) (lp : Nat) : Nat :=
  match k.mode with
  | 2 => ohms p.load 500
  | 3 => p.load.natAbs * 1500000 + ohms p.load (if Img.fskOn k.img then 3000 else 500)
  | 6 | 7 | 13 => volts p.load p.vio
  | 8 => p.load.natAbs * p.load.natAbs * 17 / 100 + switching g p lp
  | 9 | 10 => (if k.out.high then p.load.natAbs * p.load.natAbs * 17 / 100 else ohms p.load 15) + switching g p lp
  | 11 => volts p.load ((lp : Int) - p.vio)
  | 12 => volts p.load.natAbs (15000 - p.vsn.natAbs) + 40000000000
  | 4 => if k.odd then 0 else 15000000000
  | 5 => if k.odd then 0 else 5000000000
  | _ => 0
/-- The computed heat of a channel in mW, its slice with it, rounded up: what R267 compares with CHG (R251, R260). -/
def Die.heatNow (d : Die) (m : HeatSample) (c : ChanId) : Nat :=
  let k := d.chan c
  ceilDiv (sliceCharge k.img * 100 + k.heatOf (d.govern c) (m.points.getD c.val ⟨0, 0, 0, 0, 0⟩) m.lpMv) 1000000000

/-- EV_LEDGER_OVERDRAW of a die or one of its channels, and its count (R267). -/
def Die.overdraw (d : Die) (source q : Nat) : Die :=
  { (d.raiseHub (mkRec .ledgerOverdraw d.replica source q false [] none)) with
    led := { d.led with overdraw := satInc d.led.overdraw } }

/-- Free dissipation credits of a die and of the package that a charge from now on can take (R264, R267). -/
def State.room (s : State) (d : DieId) (now : Tick) : Nat :=
  let pts := ((planTimes s.core.plan).filter fun t => decide (now ≤ t)).map ivOf
  (ivOf now :: pts).foldl
    (fun r te => min r (min (4000 - dieLoad (s.die d) s.core.plan d te) (25000 - s.pkgLoad s.core.plan te))) 4000

/-- The hub raises a channel's charge to the metered heat: from free credits, after pre-emption; what cannot be covered is
recorded (R267, R270). -/
def State.chargeMetered (s : State) (ch : Chan) (heat : Nat) : State :=
  let k := s.chan ch
  let d := ch.die
  let now := s.clk.now
  let cls := Img.sclass k.img
  let items : List PlanItem := [⟨d, cls, none, .standing now ch.c heat k.chgBar⟩]
  let s1 :=
    match s.creditShort s.core.plan items cls now with
    | none => s
    | some w =>
      if s.protectedCls s.core.plan items cls now w then
        match s.preempt items cls now (s.core.victims cls s.core.nextId) [] with
        | some ids => s.preempted cls ids
        | none => s
      else s
  let add := min (heat - k.chgHeat) (s1.room d now)
  let s2 := s1.modDie d fun x =>
    { (x.modCh ch.c fun c => { c with chgHeat := c.chgHeat + add }) with
      led := { x.led with uncovered := x.led.uncovered + (heat - k.chgHeat - add) } }
  s2.settlePools d

/-- HEAT_METERING: each millisecond the die computes every channel's heat from what it measures, and compares it with the charge and
V(Fd_LP) with V_D; an excess that has lasted 10 ms is an overdraw episode (R251, R267). -/
def execHeatMetering (d : DieId) (m : HeatSample) (s : State) : Host.Outcome State Fault Refusal :=
  let k := s.die d
  .next (if k.on && !(k.led.meterAt.any fun t => decide (s.clk.elapsed < t + ms)) then
    let q := s.dq d
    let heat (c : ChanId) : Nat := k.heatNow m c
    let bad (c : ChanId) : Bool := overHeat (heat c) (k.chan c).chgHeat
    let lpBad := decide (1000 * k.led.vd + 500 < m.lpMv)
    let hit := allC.filter fun c => tenthMs (k.chan c).overMs (bad c)
    let s1 := s.modDie d fun k =>
      let k1 := { k with
        led := { k.led with lpMs := runMs k.led.lpMs lpBad, meterAt := some s.clk.elapsed }
        chans := Vector.ofFn fun c => { k.chan c with overMs := runMs (k.chan c).overMs (bad c) } }
      let k2 := hit.foldl (fun x c => x.overdraw (srcCh d c) q) k1
      if tenthMs k.led.lpMs lpBad then k2.overdraw (srcDie d) q else k2
    State.commit s (hit.foldl (fun t c => t.chargeMetered ⟨d, c⟩ (heat c)) s1)
  else s)

/-! ### The operating point (R272, R339 to R341) -/

/-- The ledger registers of a hub's page: the active hub's, or the standby's copy (R273). -/
def State.modLedger (s : State) (h : HubId) (f : LedgerRegs → LedgerRegs) : State :=
  if h = s.active then { s with core := { s.core with ledger := f s.core.ledger } }
  else { s with copy := { s.copy with ledger := f s.copy.ledger } }
/-- The ledger registers that a hub reads. -/
def State.ledgerOf (s : State) (h : HubId) : LedgerRegs := if h = s.active then s.core.ledger else s.copy.ledger

/-- The point a hub wants: one lower when it was busy less than 25 % or the package has fewer than 1,250 free credits, one
higher when it was busy more than 75 %, and no point beyond 800 MHz or 100 MHz (R272). -/
def wantPoint (point busy free : Nat) : Option Nat :=
  if busy < 25 ∨ free < 1250 then (if point < 2 then some (point + 1) else none)
  else if 75 < busy ∧ 0 < point then some (point - 1)
  else none

/-- The VREQ frame of a point: start bit 0, the code, odd parity (R341). -/
def vreqFrameOf (code : Nat) : Nat := putFld code 1 2 + putBit ((code % 2 + code / 2 % 2) % 2 == 0) 3

/-- EV_POLICY_CLIP or EV_POLICY_CONFLICT, once per episode, counted (R272). -/
def State.policyEvent (s : State) (h : HubId) (clip : Bool) : State :=
  let fresh := if clip then (s.hub h).clipEp.isNone else (s.hub h).confEp.isNone
  let s1 := s.modHub h fun x =>
    if clip then { x with clipEp := some s.clk.elapsed } else { x with confEp := some s.clk.elapsed }
  if fresh then
    (s1.modLedger h fun l =>
      if clip then { l with clipCnt := satInc l.clipCnt } else { l with conflictCnt := satInc l.conflictCnt }).raise h
      (if clip then .policyClip else .policyConflict) s.clk.now false []
  else s1

/-- A change of a hub's operating point begins: an increase waits for its voltage at the old frequency and reserves its
charge difference; a decrease lowers the frequency first and keeps the old charge. With the PSEL strap high the request
leaves on VREQ_CODE (R272, R340, R341). -/
def Hub.startChange (x : Hub) (target : Nat) (elapsed : Nat) (ext : Bool) : Hub :=
  { x with
    change := some (target, elapsed, decide (target < x.point))
    point := max target x.point
    vreqFrame := (if ext then some (vreqFrameOf target) else x.vreqFrame) }

/-- The reserved difference of an increase fits the package pool in every interval (R264, R266, R272). -/
def State.pointFits (s : State) (h : HubId) (target : Nat) : Bool :=
  let diff := pointCharge target - pointCharge (s.hub h).held
  let now := s.clk.now
  (ivOf now :: ((planTimes s.core.plan).filter fun t => decide (now ≤ t)).map ivOf).all fun te =>
    decide (s.pkgLoad s.core.plan te + diff ≤ 25000)

/-- OPERATING_POINT_ADJUST: each millisecond a hub decides whether it wants another point, held within PT.MIN and PT.MAX,
and requests the change unless one is open or it must wait after a timeout (R272, R341). -/
def execOperatingPointAdjust (h : HubId) (busyPct : Nat) (s : State) : Host.Outcome State Fault Refusal :=
  let x := s.hub h
  .next (if x.present && x.up && s.power.boot == .complete && !(x.adjAt.any fun t => decide (s.clk.elapsed < t + ms)) then
    let l := s.ledgerOf h
    let want := wantPoint x.point busyPct s.pkgPool.free
    let t := want.getD x.point
    let target := max l.ptMax (min l.ptMin t)
    let s := s.modHub h fun y => { y with adjAt := some s.clk.elapsed }
    let s1 :=
      if want.isSome && decide (t < l.ptMax) then s.policyEvent h true
      else if want.isSome && decide (l.ptMin < t) then s.policyEvent h false
      else s
    State.commit s (if decide (target ≠ x.point) && x.change.isNone && decide (x.changeHold ≤ s.clk.elapsed) &&
        (decide (x.point < target) || s.pointFits h target) then
      (s1.modHub h (·.startChange target s.clk.elapsed s.power.straps.psel)).settlePackage
    else s1)
  else s)

/-- POLICY_EPISODE_END: 100 ms without the want end an episode (R272). -/
def execPolicyEpisodeEnd (h : HubId) (clip : Bool) (s : State) : Host.Outcome State Fault Refusal :=
  let quiet (o : Option Nat) : Bool := match o with | some t => decide (t + 100 * ms ≤ s.clk.elapsed) | none => false
  .next (if clip then (if quiet (s.hub h).clipEp then s.modHub h fun x => { x with clipEp := none } else s)
  else if quiet (s.hub h).confEp then s.modHub h fun x => { x with confEp := none } else s)

/-- The confirmed point comes into force and its charge with it (R272, R340, R341). -/
def State.confirmPoint (s : State) (h : HubId) : State :=
  match (s.hub h).change with
  | some (p, _, _) => (s.modHub h fun x => { x with point := p, held := p, change := none }).settlePackage
  | none => s

/-- VOLTAGE_CONFIRM: in internal mode the monitor confirms the new voltage (R340). -/
def execVoltageConfirm (h : HubId) (s : State) : Host.Outcome State Fault Refusal :=
  .next (if s.power.straps.psel then s else State.commit s (s.confirmPoint h))

/-- VREQ_ACK: in external-regulator mode the regulator acknowledges (R341). -/
def execVreqAck (h : HubId) (s : State) : Host.Outcome State Fault Refusal :=
  .next (if s.power.straps.psel then State.commit s (s.confirmPoint h) else s)

/-- VREQ_TIMEOUT: no confirmation within 1 ms, counted in external-regulator mode from the end of the 4-bit frame: the
change is abandoned, a reserved difference is released, a lowered frequency stays, and nothing changes for 10 ms (R340,
R341). -/
def execVreqTimeout (h : HubId) (s : State) : Host.Outcome State Fault Refusal :=
  let ext := s.power.straps.psel
  .next (match (s.hub h).change with
  | some (_, t0, _) =>
    if t0 + ms + (if ext then 4 * us else 0) ≤ s.clk.elapsed then
      let s1 := s.modHub h fun x => { x with
        change := none
        changeHold := (if ext then s.clk.elapsed + 10 * ms else x.changeHold)
        vreqTo := (if ext then satInc x.vreqTo else x.vreqTo) }
      State.commit s ((s1.settlePackage).raise h .vreqTimeout s.clk.now false [])
    else s
  | none => s)

end Sys2Proof.Machine
end

