-- ==== Sys2Proof/Machine/RegRead.lean ====
section
/-! DEFINITION. The register pages as reads see them: every register of every page with its offset (R393 to R413 and
the pages of the other chapters), latched pairs and pools (R25, R30), frozen pages (R402), and blocks without power
(R327). -/

namespace Sys2Proof.Machine
open Sys2Proof

/-- A register: its offset, whether it is RO, and the value a read returns now. -/
structure Reg where
  off : Nat
  ro  : Bool
  val : Word
  deriving DecidableEq, Repr

/-- An RO register, and one with another access type. -/
def ro (off : Nat) (v : Nat) : Reg := ⟨off, true, BitVec.ofNat 32 v⟩
def roW (off : Nat) (v : Word) : Reg := ⟨off, true, v⟩
def rw (off : Nat) (v : Nat) : Reg := ⟨off, false, BitVec.ofNat 32 v⟩
def rwW (off : Nat) (v : Word) : Reg := ⟨off, false, v⟩
/-- An RO pair, bits [31:0] first. -/
def roPair (off : Nat) (v : Nat) : List Reg := [roW off (lo32 v), roW (off + 4) (hi32 v)]
/-- An array of registers from an offset on. -/
def roArr (off : Nat) (l : List Word) : List Reg := (List.range l.length).map fun i => roW (off + 4 * i) (l.getD i 0#32)
def rwArr (off : Nat) (l : List Word) : List Reg := (List.range l.length).map fun i => rwW (off + 4 * i) (l.getD i 0#32)

/-- The mirrored state behind a hub's pages: the active hub's own, the standby's copy (R282, R412). -/
def State.coreOf (s : State) (h : HubId) : Core := if h = s.active then s.core else s.copy
/-- The mirrored state behind a hub changed. -/
def State.modCoreOf (s : State) (h : HubId) (f : Core → Core) : State :=
  if h = s.active then { s with core := f s.core } else { s with copy := f s.copy }

/-- The holder of the time-master role: the holder of the field lease of the lowest present die, and H0 until the first
grant (R286, R291). -/
def State.timeMaster (s : State) : Option HubId :=
  match (s.die 0).holder with
  | some h => some h
  | none => if (s.die 0).lossFrom.isNone then some 0 else none

/-! ### Records in octets -/

/-- The 32 octets of a log record (R302). -/
def LogRec.bytes (r : LogRec) : List Byte :=
  let b := leBytes 8 r.time ++ leBytes 2 r.code ++ leBytes 1 r.source ++ leBytes 1 r.flags ++ leBytes 4 r.seq ++ r.data.take 12
  b ++ leBytes 4 (Config.crc32c b).toNat
/-- Octets as words. -/
def wordsOf (n : Nat) (b : List Byte) : List Word := (List.range n).map fun i => BitVec.ofNat 32 (leAt b (4 * i) 4)

/-- The 36 octets of a hallmark (R192). -/
def Hallmark.bytes (m : Hallmark) : List Byte := m.body ++ leBytes 4 m.crc.toNat

/-- The order code in ASCII (R1, R407): "ZL9640-nnS" or "ZL9640-nnD". -/
def State.orderCode (s : State) : List Byte :=
  let n := 16 * s.variant.dies
  [0x5A#8, 0x4C#8, 0x39#8, 0x36#8, 0x34#8, 0x30#8, 0x2D#8, BitVec.ofNat 8 (48 + n / 10), BitVec.ofNat 8 (48 + n % 10),
    if s.variant.dPart then 0x44#8 else 0x53#8, 0#8, 0#8]
/-- Dies present, one bit each (R401). -/
def State.dieMask (s : State) : Nat := (s.presentDies.map fun d => 2 ^ d.val).sum

/-- Revision octets of H0, H1 and d0 to d5, 0 for an absent unit (R382, R407). -/
def State.revOctets (s : State) : List Nat :=
  (List.finRange 8).map fun i => if revThere i then s.ident.revs[i.val] else 0
where
  /-- H0, H1 and d0 to d5: the unit is in the package. -/
  revThere (i : Fin 8) : Bool :=
    i = 0 || (i = 1 && s.variant.dual) || (if h : 2 ≤ i.val then (s.die ⟨i.val - 2, by omega⟩).present else false)
/-- Hub domains On or KA in the package's power state (R325, R345). -/
def State.domainOn (s : State) : Nat :=
  let phy := putBit (bit (BitVec.ofNat 32 s.core.pwr.wakeCfg) 6) 8 + putBit (bit (BitVec.ofNat 32 s.core.pwr.wakeCfg) 7) 9
  match s.power.st with
  | .run | .idle => 0xFFFF
  | .sleep => 0x7B03
  | .deepSleep => 0x801 + phy
  | .off => 0

/-! ### Hub pages -/

/-- Pages HUB, TIME and SCHED (R54 to R57, R82 to R84, R407). -/
def State.hubRegs (s : State) (h : HubId) : List Reg :=
  let x := s.hub h
  [ro 0x40 (h.val + putBit (h = s.active) 1), roW 0x44 x.offWrites, ro 0x48 s.domainOn, ro 0x4C x.nv.boot] ++
    roPair 0x50 s.ident.serial ++ roArr 0x58 (wordsOf 3 s.orderCode) ++
    roArr 0x64 (wordsOf 2 (s.revOctets.map (BitVec.ofNat 8)))

/-- LOCK_AGE in seconds (R56). -/
def State.lockAge (s : State) : Nat :=
  if s.sync.st = .locked then min 65535 ((s.clk.elapsed - s.sync.since) / sec) else 0
/-- A signed value held to 32 bits. -/
def sat32 (v : Int) : Word := wordOfInt (clampInt (-2147483648) 2147483647 v)

def State.timeRegs (s : State) (h : HubId) : List Reg :=
  let c := s.coreOf h
  let y := s.sync
  let cfg (p : PortId) : Nat :=
    putFld (y.ports[p.val]).st.toNat 24 3 + putFld (c.time.transport[p.val]) 16 2 + putFld (c.time.domain[p.val]) 8 8 +
      putFld (y.ports[p.val]).act 4 2 + putFld (c.time.profile[p.val]) 0 2
  [rw 0x40 (putFld c.time.role 1 2 + putBit c.time.accept 0),
   ro 0x44 (putFld s.lockAge 16 16 + putBit y.set 7 + putBit (s.timeMaster == some h) 6 +
     putFld (match y.slave with | some p => p.val | none => 0) 5 1 + putBit y.slave.isSome 4 + putBit s.usable 3 + y.st.toNat)] ++
    roPair 0x48 s.clk.now ++
    [roW 0x50 (sat32 (if h = s.active then y.offset else (y.ports[h.val]).offset)), rw 0x54 c.time.holdMax, rw 0x58 c.time.stepThr, ro 0x5C y.epoch, rw 0x60 (cfg 0), rw 0x64 (cfg 1)] ++
    roPair 0x68 y.syncIn ++ [ro 0x70 (putFld y.syncAcc 0 16 + putFld y.syncIgn 16 16)] ++ roPair 0x74 y.gm.toNat

def State.schedRegs (s : State) (h : HubId) : List Reg :=
  let g := (s.coreOf h).sched
  [rw 0x40 (putBit g.doneEvAll 1 + putBit g.admits 0), roW 0x44 g.lastRefuse] ++ roPair 0x48 g.submitted ++ roPair 0x50 g.executed ++
    roPair 0x58 g.cancelled ++ roPair 0x60 g.missed ++ roPair 0x68 g.refused ++
    [ro 0x70 g.inFlight, ro 0x74 g.deferred,
     roW 0x78 (satAdd g.straddle (s.presentDies.map fun d => (s.die d).straddle.toNat).sum),
     roW 0x7C g.staleRec, roW 0x80 g.staleWords, rw 0x84 g.staleAge, rw 0x88 g.minLead]

/-- POLICYc (R275). -/
def Policy.word (p : Policy) : Word := BitVec.ofNat 32 (putFld p.ceil 16 16 + putFld p.floor 0 16)

/-- Page LEDGER (R274 to R276). -/
def State.ledgerRegs (s : State) (h : HubId) : List Reg :=
  let l := s.ledgerOf h
  let c := s.coreOf h
  let p := if h = s.active then s.pkgPool else l.pool
  [ro 0x40 p.free, ro 0x44 p.res, ro 0x48 p.use, ro 0x4C (if h = s.active then s.deviceCharge else l.devChg),
   rw 0x50 (putFld (s.hub h).point 4 2 + putFld l.ptMax 2 2 + putFld l.ptMin 0 2)] ++
    rwArr 0x54 (l.policy.toList.map (·.word)) ++
    roArr 0x60 ((List.range 3).map fun k => BitVec.ofNat 32 (s.pkgHeld (stillHeld c.plan s.clk.now) (ivOf s.clk.now) (k + 1))) ++
    [roW 0x6C l.preemptCnt, roW 0x70 l.clipCnt, roW 0x74 l.conflictCnt]

/-- Page PWR (R345 to R348). -/
def State.pwrRegs (s : State) (h : HubId) : List Reg :=
  let p := s.power
  let c := (s.coreOf h).pwr
  let low := (s.presentDies.map fun d => if (s.die d).pwr = .sleep ∨ (s.die d).pwr = .deepSleep then 2 ^ d.val else 0).sum
  [rw 0x40 0,
   ro 0x44 (putBit (p.straps.psel && (s.hub h).change.isSome) 17 + putBit p.straps.psel 16 + putFld low 8 6 + putFld p.phase 4 2 +
     p.st.toNat),
   rw 0x48 c.wakeCfg, ro 0x4C (putBit p.lastWake.2 3 + putFld p.lastWake.1 0 3),
   ro 0x50 (putFld p.lastRefuse.2 8 8 + putFld p.lastRefuse.1 0 8), rwW 0x54 c.alarmLo, rwW 0x58 c.alarmHi, rw 0x5C 0, rw 0x60 0,
   ro 0x64 p.downEvent, roW 0x68 p.yoyoCnt, roW 0x6C (s.hub h).vreqTo, ro 0x70 s.domainOn]

/-- The watchdog counter n in µs (R310). -/
def Wdog.n (w : Wdog) (elapsed : Nat) : Nat := (elapsed - w.start) / us
/-- The close point C in force (R310, R311). -/
def Wdog.c (w : Wdog) : Nat := if w.waived then 0 else w.p * w.close / 256
/-- The watchdog counts: enabled and not paused (R318). -/
def Wdog.running (w : Wdog) : Bool := w.en && !w.paused
/-- n is in the open window (R310, R316). -/
def Wdog.open (w : Wdog) (elapsed : Nat) : Bool := decide (w.c ≤ w.n elapsed) && decide (w.n elapsed < w.p)

/-- Page TSOLD (R319 to R322). -/
def State.tsoldRegs (s : State) (h : HubId) : List Reg :=
  let w := (s.coreOf h).wd
  let held := decide (h ≠ s.active)
  let run := w.running && !held
  [rw 0x40 (putFld w.actSeq 6 2 + putFld w.actLate 4 2 + putFld w.actEarly 2 2 + putBit w.en 0),
   rw 0x44 (putFld w.close 24 8 + putFld w.p 0 24), rw 0x48 0,
   ro 0x4C (putBit held 6 + putBit w.paused 5 + putBit w.pend.isSome 4 + putBit w.waived 3 + putBit (run && w.open s.clk.elapsed) 2 +
     putBit w.armed 1 + putBit run 0),
   ro 0x50 (if run then putFld (w.n s.clk.elapsed) 0 24 else 0),
   ro 0x54 (match w.pend with | some (p, c) => putFld c 24 8 + putFld p 0 24 | none => 0),
   roW 0x58 w.earlyCnt, roW 0x5C w.lateCnt, roW 0x60 w.seqCnt, roW 0x64 w.rejectCnt]

/-- The ring record at an index: SEQ modulo 4,096 (R309). -/
def Log.at (l : Log) (i : Nat) : Option LogRec := l.ring.find? fun r => r.seq % 4096 == i

/-- Page LOG (R309). -/
def State.logRegs (s : State) (h : HubId) : List Reg :=
  let l := (s.hub h).log
  let c := (s.coreOf h).logr
  [rw 0x40 c.bbMask,
   ro 0x44 (putFld l.staged.length 0 7 + putBit (!l.staged.isEmpty) 8 + putBit l.bbFrozen 9 + putBit l.returnMark 10),
   ro 0x48 l.seq, rw 0x4C c.readIdx] ++
    roArr 0x50 (match l.at c.readIdx with | some r => wordsOf 8 r.bytes | none => List.replicate 8 0#32) ++
    roPair 0x70 l.raised ++ roPair 0x78 l.logged ++ roPair 0x80 l.counted ++ roArr 0x88 l.ovf.toList ++
    [ro 0xA8 l.bbHead, roW 0xAC l.bbSkip, roW 0xB0 l.bbFrozenCnt]

/-- Page MAINS (R127, R128). -/
def State.mainsRegs (s : State) (h : HubId) : List Reg :=
  let m := (s.coreOf h).mains
  [rw 0x40 (putFld m.holdS 16 16 + putFld m.ch 8 7 + putBit m.nom 2 + putFld m.src 0 2), ro 0x44 m.st.toNat, ro 0x48 m.period,
   rw 0x4C m.netFreq] ++ roPair 0x50 m.origin

/-- Page AXIS (R180, R181). -/
def State.axisRegs (s : State) (h : HubId) : List Reg :=
  let c := s.coreOf h
  roPair 0x40 c.lastReset ++ [roW 0x48 c.resetCnt] ++ (List.finRange 4).flatMap fun a =>
    let x := c.axes[a.val]
    let o := 0x80 + 0x20 * a.val
    [rw o (putFld x.encPair 12 3 + putFld x.encDie 8 3 + putBit x.dir 3 + putBit x.zref 2 + putFld x.src 0 2), rw (o + 4) x.cpr,
     rw (o + 8) x.zero, rw (o + 0xC) x.still] ++ roPair (o + 0x10) (BitVec.ofInt 64 x.pos).toNat ++
      [ro (o + 0x18) (putBit x.moving 0 + putBit (x.src != 0 && x.posAt.isSome) 1), roW (o + 0x1C) x.netDiscard]

/-- LANE_ERRd and STRING_ERR (R308). -/
def errWord (state : Nat) (e : LinkErr) : Nat := putFld state 30 2 + putFld e.retrain 24 6 + putFld e.replays 16 8 + putFld e.crc 0 16
/-- What a hub counts of a lane. -/
def Lane.errs (l : Lane) : LinkErr := ⟨l.retrain, l.replays, l.crc⟩
/-- STATE of a link: its reset value until power-up is complete (R308, R342). -/
def State.linkState (s : State) (l : Lane) (present : Bool) : Nat :=
  if s.power.boot == .complete then (if present then l.st.toNat else 3) else 0

/-- Page REDUN (R305 to R308). -/
def State.redunRegs (s : State) (h : HubId) : List Reg :=
  let x := s.hub h
  let c := (s.coreOf h).redun
  let leases := (s.presentDies.map fun d => if (s.die d).holder = some h then 2 ^ d.val else 0).sum
  [rw 0x40 (putBit c.faultSwitch 2 + putBit c.laneSwitch 1 + putBit c.autoTakeover 0),
   ro 0x44 (putFld leases 10 6 + putBit x.keyRole.isSome 9 + putBit x.nvLock.isSome 8 + putBit ((s.hub (other h)).present && s.power.boot == .complete) 3 +
     x.hstate.toNat), roW 0x48 x.takeoverCnt] ++ roPair 0x4C x.lastTo ++ [ro 0x54 x.lastToUs, roW 0x58 x.claimDisc] ++
    roArr 0x60 ((List.finRange 6).map fun d => BitVec.ofNat 32 (errWord (s.linkState (s.lane h d) (s.die d).present) (s.lane h d).errs)) ++
    [ro 0x78 (errWord (s.linkState s.mirror.str s.variant.dual) x.strErr)]

/-- Bandwidth of open streams on a port in MB/s (R375). -/
def Core.streamBw (c : Core) (p : PortId) : Nat :=
  (((c.streams.filter fun x => x.isOpen && (x.port == p.val || x.port == 2)).map (·.bw)).sum) / 1000

/-- Page NET (R373 to R375). -/
def State.netRegs (s : State) (h : HubId) : List Reg :=
  let c := s.coreOf h
  let ctrl (p : PortId) : Nat :=
    let r := c.net.ports[p.val]
    putFld r.cycle 18 14 + putFld r.gclLen 3 6 + putFld r.speedMax 1 2 + putBit r.en 0
  let status (p : PortId) : Nat :=
    let r := s.net.ports[p.val]
    putFld (c.streamBw p) 16 16 + putFld (Speed.toNat r.speed) 2 2 +
      putBit (s.variant.dual && decide (p.val ≠ s.active.val) && s.mirror.str.st == .trained && r.link) 1 + putBit r.link 0
  let live := ((List.finRange 8).map fun i => if (c.session i).isSome then 2 ^ i.val else 0).sum
  [rw 0x40 (ctrl 0), ro 0x44 (status 0), rw 0x48 (ctrl 1), ro 0x4C (status 1), rw 0x50 c.net.mode, rw 0x54 c.net.udpPort,
   rwW 0x58 c.net.ipv4, rwW 0x5C c.net.mask] ++ rwArr 0x60 c.net.ipv6.toList ++
    [ro 0x70 (live + 256), roW 0x74 c.authFail, roW 0x78 c.seqDrop, roW 0x7C c.dupDiscard, roW 0x80 c.relayDrop,
     ro 0x84 (putFld (match c.keys with | k :: _ => k.1 | [] => 0) 0 8 +
       putFld (match c.grace with | some g => g.1 | none => 0) 8 8 + putFld c.keys.length 16 3), rw 0x88 0] ++
    rwArr 0xA0 (List.replicate 8 0#32) ++ rwArr 0x100 (c.net.ports[0]).gcl.toList ++ rwArr 0x180 (c.net.ports[1]).gcl.toList

/-- A lane credit register (R409): both fields 0 while the lane is not trained. -/
def credWord (trained : Bool) (f : Flow) : Nat := if trained then putFld f.outstanding 8 5 + putFld f.credits 0 5 else 0

/-- The String's direction that hub h sends on. -/
def State.strFlow (s : State) (h : HubId) : Flow := if h = 0 then s.mirror.str.down else s.mirror.str.up

/-- Page POOL (R412). -/
def State.poolRegs (s : State) (h : HubId) : List Reg :=
  let c := s.coreOf h
  [ro 0x40 c.slots.free, ro 0x44 c.slots.res, ro 0x48 c.slots.use, ro 0x4C c.store.free, ro 0x50 c.store.res, ro 0x54 c.store.use] ++
    roArr 0x58 ((List.finRange 6).map fun d => BitVec.ofNat 32 (credWord ((s.lane h d).st == .trained) (s.lane h d).down)) ++
    [ro 0x70 (if s.variant.dual then credWord (s.mirror.str.st == .trained) (s.strFlow h) else 0), roW 0x74 c.check] ++
    roPair 0x78 c.auditAt ++ [roW 0x80 c.auditMask, roW 0x84 c.auditCnt]

/-- The block registers of a hub page (R395). -/
def State.hubPage (s : State) (h : HubId) (r : Fin 12) : List Reg :=
  match r.val with
  | 0 => s.hubRegs h | 1 => s.timeRegs h | 2 => s.schedRegs h | 3 => s.ledgerRegs h | 4 => s.pwrRegs h | 5 => s.tsoldRegs h
  | 6 => s.logRegs h | 7 => s.mainsRegs h | 8 => s.axisRegs h | 9 => s.redunRegs h | 10 => s.netRegs h | _ => s.poolRegs h

/-! ### Pages of a field die -/

/-- Page DIE (R349, R408, R409). -/
def State.dieRegs (s : State) (d : DieId) : List Reg :=
  let k := s.die d
  [rw 0x40 k.hublossT] ++ roPair 0x44 (leaseReport k s.clk.elapsed) ++
    [ro 0x4C (putFld (BitVec.ofInt 16 k.temp).toNat 0 16), ro 0x50 (putFld k.lpMv 0 16),
     ro 0x54 (credWord ((s.lane 0 d).st == .trained) (s.lane 0 d).up),
     ro 0x58 (if s.variant.dual then credWord ((s.lane 1 d).st == .trained) (s.lane 1 d).up else 0), roW 0x5C k.foreignDisc,
     rw 0x80 (putBit k.allowSafe 0)]

/-- Registers 0x040 to 0x0FF of a channel page (R114 to R117, R145 to R147, R202, R203). -/
def State.chRegs (s : State) (ch : Chan) : List Reg :=
  let d := s.die ch.die
  let k := d.chan ch.c
  let w := k.want
  [rw 0x40 (putFld k.cfgSet 20 12 + fld w.cfg 0 20), roW 0x44 k.word, rwW 0x48 w.safe, rwW 0x4C w.safeVal, rwW 0x50 w.linkloss,
   rwW 0x54 w.diag, rwW 0x58 w.opt, rw 0x5C 0, ro 0x60 k.cause.toNat, ro 0x64 (putFld k.diag.termIo 0 2 + putFld k.diag.termSn 2 2),
   roW 0x68 k.out.optSkip, roW 0x70 (wordOfInt k.cal.sysOff), roW 0x74 (wordOfInt k.cal.sysGain),
   ro 0x78 (putFld k.cal.lastPoint 4 4 + putBit k.cal.zero.isSome 3 + putBit k.cal.parked 2 + putBit k.cal.warm 1 +
     putBit k.cal.uncommitted 0),
   rwW 0x80 w.convCfg,
   ro 0x84 (putBit d.aux.suspect 7 + putFld k.cal.server 5 2 + putBit (Img.lowpwr k.img && k.mode != 0) 4),
   roW 0x88 k.chain.mcLen, roW 0x8C k.chain.satCnt]

/-- The filter chain registers (R175 to R179). -/
def State.filtRegs (s : State) (ch : Chan) : List Reg :=
  let k := s.chan ch
  let w := k.want
  let still := k.chain.lockAct == 1 && !(match s.core.axes[Img.axis k.img]? with | some a => a.moving | none => false)
  [rwW 0x100 w.filtCfg, rwW 0x104 w.perInt, rwW 0x108 (k.heldFrac.getD w.perFrac), rwW 0x10C w.maLen, rwW 0x110 w.dcbCfg,
   roW 0x114 (wordOfInt (divRound k.chain.dcb (2 ^ 24))), rwW 0x118 w.angCfg,
   ro 0x11C (putFld k.chain.lockAct 2 2 + putBit still 1 + putBit k.chain.settling 0), roW 0x120 k.chain.angLate,
   roW 0x124 k.chain.angOver]

/-- The digital input registers (R225 to R228); the encoder's stand on even channels only. -/
def State.dinRegs (s : State) (ch : Chan) : List Reg :=
  let k := s.chan ch
  let even := k.evenOfPair ch.c
  let e (w : Word) : Word := if even then w else 0#32
  let n := k.encAt (s.die ch.die).replica
  [rwW 0x200 k.want.dinCfg, rwW 0x204 (e k.want.encCfg),
   ro 0x208 (putBit k.filtered 2 + putBit k.din.raw 1 + putBit k.level 0), roW 0x20C (e (wordOfInt n.cnt)), rw 0x210 0,
   roW 0x214 (e n.zLatch)] ++ roPair 0x218 k.din.edgeAt ++
    [roW 0x220 k.din.edgeCnt, roW 0x224 (e k.din.cntErr), roW 0x228 k.din.capOvf, roW 0x22C k.din.capHeld]

/-- The output registers (R252 to R255); LOAD_I is a measurement, and its value is free. -/
def State.outRegs (s : State) (ch : Chan) : List Reg :=
  let k := s.chan ch
  let o := k.out
  let role := match k.group with | none => 0 | some g => if g = ch.c then 1 else 2
  let md := k.parkedNow
  [rwW 0x300 k.want.outCfg,
   ro 0x304 (putFld (BitVec.ofInt 16 o.edgeErr).toNat 16 16 + putBit md 4 + putBit o.imbal 3 + putBit o.compLimit 2 + role),
   roW 0x308 (wordOfInt ((s.die ch.die).compOf ch.die ch.c true)), roW 0x30C (wordOfInt ((s.die ch.die).compOf ch.die ch.c false)),
   roW 0x310 (Config.loadCurrent (Chan.g ch) (s.clk.elapsed / (10 * us)) o.drive k.driven), roW 0x314 o.share, roW 0x318 o.clip,
   rwW 0x31C k.want.fskCfg, ro 0x320 (putBit k.fsk.cd 0 + putBit k.fsk.tx 1 + putBit k.fsk.rx 2),
   ro 0x324 (putFld k.fsk.parityErr 0 12 + putFld k.fsk.framingErr 12 12 + putFld k.fsk.beyond 24 8)]

/-- The phase a spare reports: the handback shadow starts 550 ms into the slot, or when a calibration point that holds the channel then
ends (R185, R197, R206). -/
def Die.phaseAt (d : Die) (i : SpareId) : SparePhase :=
  let p := d.spare i
  if p.phase = .serve ∧ d.phaseEnd p.ch (p.slot + 550 * ms) ≤ d.replica then .shadowOut else p.phase

/-- Page SPARE (R410). -/
def State.spareRegs (s : State) (d : DieId) (i : SpareId) : List Reg :=
  let p := (s.die d).car.spares[i.val]
  let q := coeffsOf p.coeffs d (16 + i.val) p.qty
  let k := s.die d
  [ro 0x40 (putFld (k.phaseAt i).toNat 0 4 + putFld p.ch.val 4 4 + putBit p.fault 8 + putBit p.lowpwr 9),
   roW 0x44 (wordOfInt (k.trimAt i k.replica)), roW 0x48 (wordOfInt q.offset), roW 0x4C (wordOfInt q.gain), roW 0x50 (wordOfInt q.bow),
   roW 0x54 p.visits]

/-- Page CAROUSEL (R204 to R206). -/
def State.carRegs (s : State) (d : DieId) : List Reg :=
  let k := s.die d
  let c := k.car
  let mask (f : Channel → Bool) : Nat := (allC.map fun x => if f (k.chan x) then 2 ^ x.val else 0).sum
  let p0 := c.spares[0]
  let p1 := c.spares[1]
  [rw 0x40 (putBit c.persist 1 + putBit c.run 0),
   ro 0x44 (putBit p1.fault 17 + putBit p0.fault 16 + putFld p1.ch.val 12 4 + putFld (k.phaseAt 1).toNat 8 4 +
     putFld p0.ch.val 4 4 + putFld (k.phaseAt 0).toNat 0 4),
   ro 0x48 c.hmSeq, roW 0x4C c.skipCnt, roW 0x50 c.rejectCnt, ro 0x54 (mask (·.cal.warm)), ro 0x58 (mask (·.cal.parked))] ++
    (List.finRange 18).flatMap fun i =>
      roArr (0x400 + 0x40 * i.val) (match c.hm[i.val] with | some m => wordsOf 9 m.bytes | none => List.replicate 9 0#32)

/-- Page AUX (R148 to R150). -/
def State.auxRegs (s : State) (d : DieId) : List Reg :=
  let a := (s.die d).aux
  [rw 0x40 (putFld a.passMs 16 10 + putFld a.lenSh 8 7 + putBit a.auto 1 + putBit a.run 0),
   ro 0x44 (putBit (s.die d).converting 0 + putBit a.injRun.isSome 1 +
     putFld (match a.injRun with | some r => r.1 | none => 0) 4 2 + putFld (match a.entry with | some e => e.1 | none => 0) 8 6),
   roW 0x48 a.passSkip, roW 0x4C a.dropCnt] ++ rwArr 0x50 a.privSh.toList ++
    [rw 0x60 (putBit a.autoSw 1 + putBit a.refSel 0),
     ro 0x64 (putFld a.episodes 16 16 + putBit a.switched 2 + putBit a.inUse 1 + putBit a.suspect 0), roW 0x68 (wordOfInt a.refDiff)] ++
    rwArr 0x100 a.table.toList ++ roArr 0x200 a.result.toList ++ rwArr 0x300 a.inj.toList

/-- Page DIE_LEDGER: its pools as they are at the instant of the read (R258, R275, R277, R278). -/
def State.dieLedgerRegs (s : State) (d : DieId) : List Reg :=
  let k := s.die d
  let l := k.led
  let p := k.poolNow d s.core.plan s.clk.now
  let e := k.reservedNow d s.core.plan s.clk.now
  [ro 0x40 l.level, ro 0x44 (l.level - e), ro 0x48 e, ro 0x4C k.standing] ++ roPair 0x50 l.refilled ++ roPair 0x58 l.drawn ++
    roPair 0x60 l.overflowed ++ [ro 0x68 p.free, ro 0x6C p.res, ro 0x70 p.use, rw 0x74 l.vdWant] ++
    rwArr 0x78 (l.policy.toList.map (·.word)) ++ [roW 0x84 l.overdraw, ro 0x88 l.uncovered] ++
    rwArr 0x100 (k.chans.toList.map (·.want.decl)) ++
    roArr 0x140 (k.chans.toList.map fun c => BitVec.ofNat 32 (putFld c.chgBar 16 16 + putFld c.chgHeat 0 16))

/-- Slots of a die's near-term queue that are planned for the current interval of 10 µs, or for one before it, and whose promotion has not
begun: a planned reservation enters the reserved count when its interval arrives (R64, R69). -/
def State.ntqPlanned (s : State) (d : DieId) : Nat :=
  s.core.entries.countP fun e => e.atHub && decide (e.ch.die = d ∧ (e.e.time.toNat - ms) / iv ≤ s.clk.now / iv)
/-- A die's near-term queue with what is planned for the interval (R27, R64, R411). -/
def State.ntqNow (s : State) (d : DieId) : Pool := (s.die d).ntqPool.reserve (s.ntqPlanned d)
/-- Page NTQ (R411). -/
def State.ntqRegs (s : State) (d : DieId) : List Reg :=
  let k := s.die d
  let p := s.ntqNow d
  let next := match ((k.ntq.filter Entry.live).map fun e => e.e.time.toNat).min? with
    | some t => t | none => 2 ^ 64 - 1
  [ro 0x40 p.free, ro 0x44 p.res, ro 0x48 p.use] ++ roPair 0x4C next ++
    [ro 0x54 k.promoCnt, ro 0x58 k.ntqHigh]

/-- The block registers of a die page (R396). -/
def State.diePage (s : State) (d : DieId) (r : Fin 23) : List Reg :=
  if r.val = 0 then s.dieRegs d
  else if h : r.val ≤ 16 then
    let ch : Chan := ⟨d, ⟨r.val - 1, by omega⟩⟩
    s.chRegs ch ++ s.filtRegs ch ++ s.dinRegs ch ++ s.outRegs ch
  else match r.val with
    | 17 => s.spareRegs d 0 | 18 => s.spareRegs d 1 | 19 => s.carRegs d | 20 => s.auxRegs d | 21 => s.dieLedgerRegs d
    | _ => s.ntqRegs d

/-- The block registers of a page. -/
def State.pageRegs (s : State) : PageRef → List Reg
  | .hub h r => s.hubPage h r
  | .die d r => s.diePage d r

/-! ### Latched pairs and pools (R25, R30, R301) -/

/-- The partners that a read of an offset latches, and whether they read zero before the first latch (R25, R301) or their
present values (R30). -/
def latchOf (p : PageRef) (off : Nat) : List Nat × Bool :=
  let pair (l : List Nat) : List Nat × Bool := if l.contains off then ([off + 4], true) else ([], true)
  let pool (k : Nat) (l : List Nat) (ps : List Nat) : List Nat × Bool := if off = k then (l, false) else pair ps
  match p with
  | .hub _ r =>
    match r.val with
    | 0 => pair [0x50, 0x64]
    | 1 => pair [0x48, 0x68, 0x74]
    | 2 => pair [0x48, 0x50, 0x58, 0x60, 0x68]
    | 3 => pool 0x40 [0x44, 0x48] []
    | 4 => pair [0x54]
    | 6 => if off = 0x70 then ([0x74, 0x78, 0x7C, 0x80, 0x84], true) else ([], true)
    | 7 => pair [0x50]
    | 8 => pair [0x40, 0x90, 0xB0, 0xD0, 0xF0]
    | 9 => pair [0x4C]
    | 11 =>
      if off = 0x40 then ([0x44, 0x48], false) else if off = 0x4C then ([0x50, 0x54], false) else pair [0x78]
    | _ => ([], true)
  | .die _ r =>
    match r.val with
    | 0 => pair [0x44]
    | 21 =>
      if off = 0x44 then ([0x40, 0x48], false) else if off = 0x68 then ([0x6C, 0x70], false) else pair [0x50, 0x58, 0x60]
    | 22 => pool 0x40 [0x44, 0x48] [0x4C]
    | 17 | 18 | 19 | 20 => ([], true)
    | _ => pair [0x218]

/-- An offset that only reads back what another read latched, from reset on (R25, R301). -/
def zeroLatched (p : PageRef) (off : Nat) : Bool :=
  let from4 := (latchOf p (off - 4))
  (from4.2 && from4.1.contains off) ||
    (match p with | .hub _ r => r.val == 6 && (off == 0x74 || off == 0x78 || off == 0x7C || off == 0x80 || off == 0x84) | _ => false)

/-! ### Power (R325, R327) -/

/-- A location of a hub page is powered: in Run and Idle all are, in Sleep and Deep Sleep the PWR page and the page
headers, in Off none; a hub that does not run answers nothing (R325). -/
def State.hubOn (s : State) (h : HubId) (r : Fin 12) (off : Nat) : Bool :=
  (s.hub h).present && (s.hub h).up &&
    (match s.power.st with
    | .run | .idle => true
    | .sleep | .deepSleep => r.val == 4 || decide (off < 0x40)
    | .off => false)

/-- A location of a die page is powered: all in Run; in Sleep those whose domain is On or KA; in Deep Sleep none, the
lane being Off (R325). -/
def State.dieOnAt (s : State) (d : DieId) (r : Fin 23) (off : Nat) : Bool :=
  let k := s.die d
  k.present && k.isoPower && (s.power.st == .run || s.power.st == .idle) &&
    (match k.pwr with
    | .run | .idle => true
    | .sleep =>
      r.val == 0 || r.val == 20 || r.val == 21 ||
        (decide (1 ≤ r.val) && decide (r.val ≤ 16) && (decide (off < 0x70) || decide (0x300 ≤ off)))
    | _ => false)

/-- Frames pass between the hubs. -/
def State.strung (s : State) : Bool := s.variant.dual && s.mirror.str.st == .trained && (s.hub 0).up && (s.hub 1).up
/-- An access through the active hub finds the location in a powered domain: a standby's page is behind the String, and a die's behind its
lane; PAGE_ID, PWR_STATE and PWR_REFUSE_REASON are answered by the AO domain in every state but Off (R26, R327, R398; log 22). -/
def State.locOn (s : State) (p : PageRef) (off : Nat) : Bool :=
  let ao := decide (off = 0) || decide (off = 0x20) || decide (off = 0x24)
  (ao && s.power.st != .off && s.act.up && s.act.present) ||
    (match p with
    | .hub h r => s.hubOn h r off && (decide (h = s.active) || s.strung)
    | .die d r => s.dieOnAt d r off && s.laneUp s.active d)

/-! ### The common header (R399 to R406) -/

/-- PAGE_ID (R400). -/
def pageId : PageRef → Nat
  | .hub h r => putFld (0x100 + r.val) 16 16 + putFld h.val 8 8 + 1
  | .die d r =>
    let (ty, inst) :=
      if r.val = 0 then (0x200, d.val)
      else if r.val ≤ 16 then (0x201, 16 * d.val + (r.val - 1))
      else if r.val ≤ 18 then (0x211, 2 * d.val + (r.val - 17))
      else (0x200 + r.val, d.val)
    putFld ty 16 16 + putFld inst 8 8 + 1

/-- PAGE_CAPS (R401). -/
def State.pageCaps (s : State) : PageRef → Nat
  | .hub _ r => if r.val = 0 then s.dieMask + 256 + putBit s.variant.dual 9 else 0
  | .die d r =>
    if r.val = 0 then
      let rev := s.ident.revs[d.val + 2]'(by omega)
      putFld (s.lane 0 d).version 0 4 + putFld (if s.variant.dual then (s.lane 1 d).version else 0) 4 4 + putFld rev 8 8
    else if r.val ≤ 16 then 0x3FFF + putBit ((s.lane s.active d).version == 2) 16
    else 0

/-- PAGE_CTRL.EN (R402). -/
def State.pageEn (s : State) : PageRef → Bool
  | .hub .. => true
  | .die d r =>
    if h : 1 ≤ r.val ∧ r.val ≤ 16 then ((s.die d).chan ⟨r.val - 1, by omega⟩).mode != 0
    else if r.val = 17 then !((s.die d).car.spares[0]).fault
    else if r.val = 18 then !((s.die d).car.spares[1]).fault
    else true

/-- The package is being moved: it enters a low state, or wakes, or is powered down (R323). -/
def State.packageMoves (s : State) : Bool :=
  s.power.waking.any (fun w => w.2.1.isNone) || s.power.req.any (fun r => r.die.isNone) || s.power.step != 0
/-- The controller of a hub has no command, register access or internal request pending (R324). -/
def State.quiet (s : State) (h : HubId) : Bool :=
  let c := s.coreOf h
  decide (h ≠ s.active) ||
    (c.cmdq.isEmpty && c.cancels.isEmpty && c.audit.isEmpty && s.power.req.isNone && !s.switching &&
      !(s.allChans.any fun ch => (s.chan ch).cal.point.isSome))
/-- PWR_STATE: the block's state, and bit 3 while an entry or a wake is in progress: a package's takes every die with it, until in a
wake from Deep Sleep the hubs are in Run and the dies wake one by one (R323). A request that comes to wait ends Idle (R324). -/
def State.pagePwr (s : State) : PageRef → Nat
  | .hub h _ =>
    (if s.power.st = .run ∧ (s.hub h).idle = true ∧ s.quiet h = true then 1 else s.power.st.toNat) + putBit s.packageMoves 3
  | .die d _ =>
    (if s.power.st = .run ∨ s.power.st = .idle then (s.die d).pwr.toNat else s.power.st.toNat) +
      putBit ((s.die d).pwrBusy || (s.packageMoves && (s.power.waking.isNone || !s.awake))) 3

/-- PAGE_STATUS (R403). -/
def State.pageStatus (s : State) (p : PageRef) : Nat :=
  let h := s.hdr p
  let powered := match p with
    | .hub x r => s.hubOn x r 0x40
    | .die d r => s.dieOnAt d r 0x40 && s.dieOnAt d r 0x100
  let coast := match p with
    | .die d r => r.val == 0 && (s.die d).coasting
    | _ => false
  putBit coast 8 + putBit (h.err.count != 0) 4 + putBit h.locked 3 + putBit h.frozen.isSome 2 + putBit powered 1 + 1

/-- ERR_CAPTURE (R405). -/
def ErrCapture.word (e : ErrCapture) : Nat := putFld e.cause 28 4 + putFld e.path 24 4 + putFld e.count 16 8 + putFld e.offset 0 12

/-- The header registers (R399). -/
def State.headerRegs (s : State) (p : PageRef) : List Reg :=
  let h := s.hdr p
  [ro 0x00 (pageId p), ro 0x04 (s.pageCaps p), rw 0x08 (putBit h.frozen.isSome 1 + putBit (s.pageEn p) 0), ro 0x0C (s.pageStatus p),
   roW 0x10 h.pending, rwW 0x14 h.enable, rwW 0x18 h.pending, roW 0x1C h.ovf, ro 0x20 (s.pagePwr p), ro 0x24 h.refuse,
   rw 0x28 (putBit h.locked 0), ro 0x2C h.err.word]

/-! ### Reading -/

/-- Registers that FREEZE leaves alone: the lane credit registers (R409). -/
def neverFrozen (p : PageRef) (off : Nat) : Bool :=
  match p with
  | .hub _ r => r.val == 11 && decide (0x58 ≤ off ∧ off ≤ 0x70)
  | .die _ r => r.val == 0 && (off == 0x54 || off == 0x58)

/-- The copies that FREEZE takes: the page's RO block registers (R402). -/
def State.freezeCopies (s : State) (p : PageRef) : List (Nat × Word) :=
  ((s.pageRegs p).filter fun r => r.ro && !neverFrozen p r.off).map fun r => (r.off, r.val)

/-- The value of a location as it stands or as it is frozen; reserved locations read zero (R12, R397, R402). -/
def State.current (s : State) (p : PageRef) (off : Nat) : Word :=
  if off < 0x40 then (match (s.headerRegs p).find? (·.off == off) with | some r => r.val | none => 0#32)
  else match ((s.hdr p).frozen.bind fun l => assoc l off) with
    | some w => w
    | none => match (s.pageRegs p).find? (·.off == off) with | some r => r.val | none => 0#32

/-- A read of a powered location: a latched partner returns what was latched, and a low or free register latches its
partners at the same instant (R25, R30). -/
def State.readReg (s : State) (p : PageRef) (off : Nat) : State × Word :=
  let h := s.hdr p
  let v := match assoc h.latch off with
    | some w => w
    | none => if zeroLatched p off then 0#32 else s.current p off
  let ps := (latchOf p off).1
  (if ps.isEmpty then s
   else s.modHdr p fun x => { x with latch := ps.foldl (fun l o => assocSet l o (s.current p o)) x.latch }, v)

/-- An access to the page reaches it: a hub's own page does, and so does what the AO domain answers for a die (R327); the rest of
a die's page is behind a Management request, which the die takes from its lease holder alone (R21, R26). -/
def State.pageHeard (s : State) (p : PageRef) (off : Nat) : Bool :=
  match p with
  | .hub .. => true
  | .die d _ => decide (off = 0) || decide (off = 0x20) || decide (off = 0x24) || (s.die d).holder == some s.active
/-- A Management request of the active hub arrives at a die whose lease it does not hold: it is discarded and counted (R21). -/
def State.unheard (s : State) (p : PageRef) : State :=
  match p with
  | .hub .. => s
  | .die d _ => if s.linked s.active d then s.modDie d Die.foreign else s
/-- What an unpowered location reads as (R327). -/
def offWord : Word := 0x0FF00FF0#32

end Sys2Proof.Machine
end

