-- ==== Sys2Proof/Machine/Ports.lean ====
section
/-! DEFINITION. The synchronisation states, and the PTP ports with their best master clock decision (R39 to R47, R57, R73, R435). -/

namespace Sys2Proof.Machine
open Sys2Proof

/-! ### Usable time (R46, R52, R73) -/

/-- A time-loss interval of R73 opens or closes where time stops or starts being usable; one that has not yet ended at its
own end is kept beside a new one. -/
def TimeSync.noteLoss (y : TimeSync) (was now : Bool) (t : Tick) : TimeSync :=
  if was && !now then { y with losses := (t, none) :: y.losses }
  else if !was && now then
    { y with losses := (match y.losses with | (a, none) :: rest => (a, some t) :: rest | l => l) }
  else y

/-- The time-loss interval of R73 opens or closes, and the time-quality code of R52 changes, where the synchronisation state or
ACCEPT has changed. -/
def State.noteUsable (old s : State) : State :=
  State.noteQuality old { s with sync := s.sync.noteLoss old.usable s.usable (tenAfterTwenty s.clk.now) }

/-! ### Synchronisation states (R44, R46, R47) -/

/-- The correction of HOLDOVER: the average over the last 60 s of LOCKED, each weighted with the time it held (R44). `l` holds
the elapsed instants from which the corrections held, newest first. -/
def averageFreq (l : List (Nat × Int)) (elapsed : Nat) : Int :=
  let from60 := elapsed - 60 * sec
  let go := l.foldl (fun (a : Int × Nat × Nat) p =>
    let lo := max p.1 from60
    (a.1 + p.2 * ((a.2.2 - lo : Nat) : Int), a.2.1 + (a.2.2 - lo), min a.2.2 lo)) (0, 0, elapsed)
  divRound go.1 go.2.1
/-- A frequency correction within ±200 ppm (R44). -/
def clampFreq (v : Int) : Int := clampInt (-200000) 200000 v

/-- A synchronisation state is entered; the runs of R44 start anew, LOCKED begins a record of its corrections, HOLDOVER runs at
their compensated average, and entry into UNLOCKED, which keeps the last correction, clears ACCEPT (R44, R47). -/
def State.enterSync (s : State) (st : SyncState) (ev : Option Ev) : State :=
  let y := s.sync
  let y := { y with st := st, since := s.clk.elapsed, good := 0, bad := 0 }
  let y := match st with
    | .locked => { y with freqs := [(s.clk.elapsed, y.freq)] }
    | .holdover => { y with freq := clampFreq (Config.holdoverFreq s.free (averageFreq y.freqs s.clk.elapsed)) }
    | _ => y
  let t := { s.tickFree with sync := y }
  let t := if st = .unlocked then t.modCore fun c => { c with time := { c.time with accept := false } } else t
  let t := State.noteUsable s t
  match ev with
  | some e => t.raiseNow e []
  | none => t

/-- ACCEPT is written; a 1 in the register cycle of an entry into UNLOCKED leaves it 0 (R46, R47). -/
def State.writeAccept (s : State) (b : Bool) : State :=
  let v := b && !(s.sync.st == .unlocked && decide (s.sync.since = s.clk.elapsed))
  State.noteUsable s (s.modCore fun c => { c with time := { c.time with accept := v } })

/-! ### Ports and the best master clock decision (R39 to R43, R435) -/

/-- The port's PTP instance is enabled and its link is up: the port is not DISABLED (R57, R435). -/
def State.ptpOn (s : State) (p : PortId) : Bool :=
  (s.core.time.profile[p.val]) != 3 && (s.core.net.ports[p.val]).en && (s.net.ports[p.val]).link && (s.hub (s.portOwner p)).up
/-- The port sends and uses PTP messages (R435). -/
def State.ptpLive (s : State) (p : PortId) : Bool :=
  s.ptpOn p && (s.sync.ports[p.val]).st != .disabled && (s.sync.ports[p.val]).st != .faulty
/-- One PTP port changed. -/
def State.modPtp (s : State) (p : PortId) (f : PtpPort → PtpPort) : State :=
  { s with sync := { s.sync with ports := vmod s.sync.ports p f } }

/-- Both ports run different profiles or domains in role 1 (R41). A port under AUTO that has chosen no profile yet runs none
and counts as not differing: DEDUCED (log 15). -/
def State.profileMix (s : State) : Bool :=
  let a := s.sync.ports[0]
  let b := s.sync.ports[1]
  s.net.mode == 0 && s.core.time.role == 1 && a.act != 0 && b.act != 0 && (a.act != b.act || (a.act == 2 && a.dom != b.dom))

/-- The clock role the device acts in: 2 under PRP and HSR, 0 for a role 1 whose ports differ (R41, R352). -/
def State.roleNow (s : State) : Nat := if s.net.mode ≠ 0 then 2 else if s.profileMix then 0 else s.core.time.role

/-- The port the decision makes SLAVE: the better qualified Announce information, P0 on a tie (R40). -/
def State.bestPort (s : State) : Option PortId :=
  let cand (p : PortId) : Option Nat := if s.ptpLive p then (s.sync.ports[p.val]).ann.map (·.rank) else none
  match cand 0, cand 1 with
  | some a, some b => if a ≤ b then some 0 else some 1
  | some _, none => some 0
  | none, some _ => some 1
  | none, none => none

/-- A port's state after the decision (R40, R41, R435). -/
def State.portState (s : State) (best : Option PortId) (p : PortId) : PortState :=
  if !s.ptpOn p then .disabled
  else if (s.sync.ports[p.val]).st = .faulty then .faulty
  else match best with
    | none => .listening
    | some b => if b = p then .slave else if s.roleNow = 1 then .master else .passive

/-- A port takes its state; entering LISTENING, it counts its timeouts in intervals of 1 s, and a new SLAVE counts from now
(R38). -/
def PtpPort.become (x : PtpPort) (st : PortState) (elapsed : Nat) : PtpPort :=
  if x.st = st then x
  else match st with
    | .listening => { x with st := st, interval := sec, syncFrom := elapsed, annInterval := sec, annFrom := elapsed }
    | .slave => { x with st := st, syncFrom := elapsed }
    | _ => { x with st := st }

/-- A state decision: both ports take their states, and the synchronisation state follows where a port became or stopped
being SLAVE (R40, R42, R44). -/
def State.bmca (s : State) : State :=
  let best := s.bestPort
  let t := { s with sync := { s.sync with
    ports := vmap s.sync.ports fun p x => x.become (s.portState best p) s.clk.elapsed
    slave := best
    gm := (match best with | some p => (match (s.sync.ports[p.val]).ann with | some a => a.gm | none => s.sync.gm) | none => s.sync.gm) } }
  match s.sync.slave, best with
  | none, some _ =>
    (match s.sync.st with
    | .unlocked | .holdover => t.enterSync .acquiring none
    | _ => t)
  | some _, none =>
    (match s.sync.st with
    | .acquiring => t.enterSync .unlocked (some .timeLost)
    | .locked =>
      if s.sync.since + 60 * sec ≤ s.clk.elapsed then t.enterSync .holdover (some .timeHoldover)
      else t.enterSync .unlocked (some .timeLost)
    | _ => t)
  | some a, some b =>
    if a ≠ b ∧ s.roleNow ≠ 2 then { t with sync := { t.sync with good := 0, bad := 0 } } else t
  | none, none => t

/-- EV_TIME_PROFILE_MIX where the ports of role 1 have come to differ (R41). -/
def State.noteMix (old s : State) : State :=
  if !old.profileMix && s.profileMix then s.raiseNow .timeProfileMix [] else s

/-- A port's PTP instance starts anew: its profile is PROFILE, or under AUTO the one chosen, unless `forget`: the link went
down or PROFILE was written (R39). -/
def PtpPort.anew (x : PtpPort) (on forget : Bool) (profile domain elapsed : Nat) : PtpPort :=
  { x with
    st := (if on then .listening else .disabled)
    act := (if profile = 0 then (if forget || x.act == 3 then 0 else x.act) else profile)
    dom := (if profile = 0 then (if forget || x.act == 3 then 0 else x.dom) else if profile = 1 then 0 else domain)
    ann := none
    interval := sec
    syncFrom := elapsed
    annInterval := sec
    annFrom := elapsed }

/-- A port's PTP instance starts in LISTENING, or DISABLED until it can listen. A port that was SLAVE stops being SLAVE, and the
decision that follows from it leaves this port in LISTENING until its next state decision event (R40, R43, R435). -/
def State.ptpRestart (s : State) (p : PortId) (forget : Bool) : State :=
  let fresh := (s.sync.ports[p.val]).anew (s.ptpOn p) forget (s.core.time.profile[p.val]) (s.core.time.domain[p.val]) s.clk.elapsed
  let t := s.modPtp p fun _ => fresh
  let t := t.bmca
  let t := if fresh.st = .listening then t.modPtp p fun x => { x with st := .listening } else t
  State.noteMix s t

/-- A port stops hearing its grandmaster: its Announce information is no longer held, and a decision follows (R40). -/
def State.loseAnnounce (s : State) (p : PortId) : State := (s.modPtp p fun x => { x with ann := none }).bmca

/-- The ports of a hub that no longer runs: PHY, MAC and PTP instance stop with it, and the links are down, with which a choice under
AUTO ends; the decision follows while a hub serves (R39, R350, R435). -/
def State.stopPorts (s : State) (h : HubId) : State :=
  let its (p : PortId) : Bool := decide (s.portOwner p = h)
  let fresh (p : PortId) (x : PtpPort) : PtpPort :=
    x.anew false true (s.core.time.profile[p.val]) (s.core.time.domain[p.val]) s.clk.elapsed
  let t : State := { s with
    net := { s.net with
      ports := vmap s.net.ports fun p x => if its p then { x with link := false } else x
      egress := vmap s.net.egress fun p l => if its p then [] else l
      relay := s.net.relay.filter fun x => !its x.1 }
    sync := { s.sync with ports := vmap s.sync.ports fun p x => if its p then fresh p x else x } }
  if t.serving then State.settlePackage t.bmca else t

end Sys2Proof.Machine
end

