-- ==== Sys2Proof/Machine/Takeover.lean ====
section
/-! DEFINITION. What the leases and the mirror share: writes to page headers and BLOCK_RESET, which the standby's pages
replay (R398, R402, R404, R406), mirror units and held-back actions (R282), switchover and takeover (R292, R295),
device faults (R299), pool checks (R27, R32) and copies for the black box (R303, R438). -/

namespace Sys2Proof.Machine
open Sys2Proof

/-! ### Headers and BLOCK_RESET -/

/-- What a saturating counter has gained in the register cycle in progress, which began with it at `base`: a BLOCK_RESET leaves that, as if
the increments came after it (R402). -/
def gained (base cur : Nat) : Nat := if base ≤ cur then cur - base else cur
/-- The same of a 32-bit counter. -/
def gainedW (base cur : Word) : Word := BitVec.ofNat 32 (gained base.toNat cur.toNat)

/-- A channel's saturating counters are set to zero (R402). -/
def Channel.blockReset (k b : Channel) : Channel :=
  { k with
    out := { k.out with optSkip := gainedW b.out.optSkip k.out.optSkip, clip := gainedW b.out.clip k.out.clip }
    chain := { k.chain with
      satCnt := gainedW b.chain.satCnt k.chain.satCnt
      angLate := gainedW b.chain.angLate k.chain.angLate
      angOver := gainedW b.chain.angOver k.chain.angOver }
    din := { k.din with
      cntErr := gainedW b.din.cntErr k.din.cntErr
      capOvf := gainedW b.din.capOvf k.din.capOvf
      capHeld := gainedW b.din.capHeld k.din.capHeld }
    fsk := { k.fsk with
      parityErr := gained b.fsk.parityErr k.fsk.parityErr
      framingErr := gained b.fsk.framingErr k.fsk.framingErr
      beyond := gained b.fsk.beyond k.fsk.beyond } }

/-- A lane's error counts are set to zero (R308, R402). -/
def Lane.clearErr (l b : Lane) : Lane :=
  { l with retrain := gained b.retrain l.retrain, replays := gained b.replays l.replays, crc := gained b.crc l.crc }
/-- What a hub counts of the String is set to zero (R308, R402). -/
def LinkErr.clearErr (l b : LinkErr) : LinkErr :=
  { l with retrain := gained b.retrain l.retrain, replays := gained b.replays l.replays, crc := gained b.crc l.crc }

/-- The mirrored counters of a hub's page are set to zero (R402). -/
def Core.resetCounters (c b : Core) (r : Nat) : Core :=
  match r with
  | 2 => { c with sched := { c.sched with
      straddle := gainedW b.sched.straddle c.sched.straddle
      staleRec := gainedW b.sched.staleRec c.sched.staleRec
      staleWords := gainedW b.sched.staleWords c.sched.staleWords } }
  | 3 => { c with ledger := { c.ledger with
      preemptCnt := gainedW b.ledger.preemptCnt c.ledger.preemptCnt
      clipCnt := gainedW b.ledger.clipCnt c.ledger.clipCnt
      conflictCnt := gainedW b.ledger.conflictCnt c.ledger.conflictCnt } }
  | 5 => { c with wd := { c.wd with
      earlyCnt := gainedW b.wd.earlyCnt c.wd.earlyCnt
      lateCnt := gainedW b.wd.lateCnt c.wd.lateCnt
      seqCnt := gainedW b.wd.seqCnt c.wd.seqCnt
      rejectCnt := gainedW b.wd.rejectCnt c.wd.rejectCnt } }
  | 8 => { c with
      resetCnt := gainedW b.resetCnt c.resetCnt
      axes := vmap c.axes fun i (x : Axis) => { x with netDiscard := gainedW (b.axes[i.val]).netDiscard x.netDiscard } }
  | 10 => { c with
      authFail := gainedW b.authFail c.authFail
      seqDrop := gainedW b.seqDrop c.seqDrop
      dupDiscard := gainedW b.dupDiscard c.dupDiscard
      relayDrop := gainedW b.relayDrop c.relayDrop }
  | 11 => { c with check := 0#32, auditCnt := gainedW b.auditCnt c.auditCnt }
  | _ => c
/-- A hub's own counters of a page are set to zero (R402). -/
def Hub.resetCounters (x b : Hub) (r : Nat) : Hub :=
  match r with
  | 0 => { x with offWrites := gainedW b.offWrites x.offWrites }
  | 4 => { x with vreqTo := gainedW b.vreqTo x.vreqTo }
  | 6 => { x with log := { x.log with
      ovf := vmap x.log.ovf fun i n => gainedW (b.log.ovf[i.val]) n
      bbSkip := gainedW b.log.bbSkip x.log.bbSkip
      bbFrozenCnt := gainedW b.log.bbFrozenCnt x.log.bbFrozenCnt } }
  | 9 => { x with
      takeoverCnt := gainedW b.takeoverCnt x.takeoverCnt
      claimDisc := gainedW b.claimDisc x.claimDisc
      lanes := vmap x.lanes fun d l => l.clearErr (b.lanes[d.val])
      strErr := x.strErr.clearErr b.strErr }
  | _ => x
/-- What the counters of a hub's mirrored state stood at as the register cycle began. -/
def State.baseCore (s : State) (h : HubId) : Core := if h = s.active then s.base.core else s.base.copy
/-- The saturating counters of a hub page are set to zero; those that the package has once belong to the active hub's page (R398,
R402). -/
def State.resetHubCounters (s : State) (h : HubId) (r : Fin 12) : State :=
  let t := (s.modHub h (·.resetCounters (s.base.hubs[h.val]) r.val)).modCoreOf h (·.resetCounters (s.baseCore h) r.val)
  if h ≠ s.active then t
  else match r.val with
    | 1 => { t with sync := { t.sync with
        syncAcc := gained s.base.syncAcc s.sync.syncAcc
        syncIgn := gained s.base.syncIgn s.sync.syncIgn } }
    | 2 => { t with dies := vmap t.dies fun d (k : Die) => { k with straddle := gainedW (s.base.dies[d.val]).straddle k.straddle } }
    | 4 => { t with power := { t.power with yoyoCnt := gainedW s.base.yoyoCnt s.power.yoyoCnt } }
    | _ => t

/-- The saturating counters of a die page are set to zero (R402, R411). -/
def Die.resetCounters (d b : Die) (r : Fin 23) : Die :=
  let spare (i : SpareId) : Die :=
    { d with car := { d.car with spares := vmod d.car.spares i fun (p : Spare) =>
        { p with visits := gainedW (b.car.spares[i.val]).visits p.visits } } }
  if r.val = 0 then { d with foreignDisc := gainedW b.foreignDisc d.foreignDisc }
  else if h : r.val ≤ 16 then d.modCh ⟨r.val - 1, by omega⟩ (·.blockReset (b.chans[r.val - 1]'(by omega)))
  else match r.val with
    | 17 => spare 0
    | 18 => spare 1
    | 19 => { d with car := { d.car with
        skipCnt := gainedW b.car.skipCnt d.car.skipCnt
        rejectCnt := gainedW b.car.rejectCnt d.car.rejectCnt } }
    | 20 => { d with aux := { d.aux with
        passSkip := gainedW b.aux.passSkip d.aux.passSkip
        dropCnt := gainedW b.aux.dropCnt d.aux.dropCnt
        episodes := gained b.aux.episodes d.aux.episodes } }
    | 21 => { d with led := { d.led with overdraw := gainedW b.led.overdraw d.led.overdraw } }
    | _ => { d with ntqHigh := 0 }

/-- A page's header as the register cycle began. -/
def State.baseHdr (s : State) : PageRef → PageHdr
  | .hub h r => (s.base.hubs[h.val]).hdr[r.val]
  | .die d r => (s.base.dies[d.val]).hdr[r.val]
/-- EV_OVERFLOW_CNT and ERR_CAPTURE go to zero, but for what the register cycle in progress has counted (R402). -/
def PageHdr.blockReset (x b : PageHdr) : PageHdr :=
  { x with
    ovf := gainedW b.ovf x.ovf
    err := if gained b.err.count x.err.count = 0 then ⟨0, 0, 0, 0⟩ else { x.err with count := gained b.err.count x.err.count } }
/-- BLOCK_RESET: the page's saturating counters, its EV_OVERFLOW_CNT and its ERR_CAPTURE go to zero; an increment in the same register
cycle is applied after it (R402). -/
def State.blockReset (s : State) (p : PageRef) : State :=
  let t := match p with
    | .hub h r => s.resetHubCounters h r
    | .die d r => s.modDie d (·.resetCounters (s.base.dies[d.val]) r)
  t.modHdr p (·.blockReset (s.baseHdr p))

/-- FREEZE is written: copies are taken when it is set and dropped when it is cleared (R402). -/
def State.setFreeze (s : State) (p : PageRef) (b : Bool) : State :=
  if b then
    (if (s.hdr p).frozen.isSome then s else let l := s.freezeCopies p; s.modHdr p fun x => { x with frozen := some l })
  else s.modHdr p fun x => { x with frozen := none }

/-- The event bits that a page names (R404). -/
def evMask : PageRef → Word
  | .hub _ r => BitVec.ofNat 32 hubEvBits[r.val]
  | .die _ r => BitVec.ofNat 32 dieEvBits[r.val]

/-- LOCK: two values act (R406). -/
def PageHdr.writeLock (h : PageHdr) (w : Word) : PageHdr :=
  if w = 0x4C4F434B#32 then { h with locked := true } else if w = 0x554E4C4B#32 then { h with locked := false } else h

/-- A write to a header register (R399, R402, R404, R406). -/
def State.writeHdr (s : State) (p : PageRef) (off : Nat) (w : Word) : State :=
  match off with
  | 0x08 =>
    let t := if bit w 2 then s.blockReset p else s
    t.setFreeze p (bit w 1)
  | 0x14 => s.modHdr p fun h => { h with enable := w &&& evMask p }
  | 0x18 => s.modHdr p fun h => h.clearBits w
  | 0x28 => s.modHdr p (·.writeLock w)
  | _ => s

/-! ### The black box (R303, R438) -/

/-- A copy waits for the black box, is counted as skipped when 64 wait, or as frozen; forced records always wait (R303,
R304). -/
def Log.waitCopy (l : Log) (r : LogRec) (forced : Bool) : Log :=
  if l.bbFrozen then { l with bbFrozenCnt := satInc l.bbFrozenCnt }
  else if forced || decide (l.bbWait.length < 64) then { l with bbWait := l.bbWait ++ [r] }
  else { l with bbSkip := satInc l.bbSkip }

/-- A record for the black box alone takes the next SEQ (R438). -/
def Log.boxRecord (l : Log) (code time source q : Nat) (data : List Byte) : Log :=
  let r : LogRec := ⟨time, code, source, q % 4 + 64 + 8 * (code >>> 12 % 8), l.seq, (data ++ List.replicate 12 0#8).take 12, none⟩
  { l with seq := (l.seq + 1) % 2 ^ 32 }.waitCopy r true

/-- Events that are copied whatever BB_MASK holds (R303). -/
def alwaysCopied : List Nat :=
  [Ev.code .poolMismatch, Ev.code .calStoreLost, Ev.code .pwrEntry, Ev.code .pwrAbort, Ev.code .yoyoWake]

/-- Whether a record of class k and code is copied to the black box (R303). -/
def copied (mask : Nat) (r : LogRec) : Bool := (mask >>> ((r.flags >>> 3) % 8)) % 2 == 1 || alwaysCopied.contains r.code

/-- The record has a copy made: 64 copies do not wait, or it is one that the frozen box would count (R303, R304). -/
def Log.copyMade (l : Log) : Bool := !l.bbFrozen && decide (l.bbWait.length < 64)

/-- A record is written to the ring with the next SEQ, over the oldest, and to the black box's queue where its class asks for
it; FLAGS [6] marks a copied record (R300, R302, R303). -/
def Log.write (l : Log) (mask : Nat) (r : LogRec) : Log × LogRec :=
  let cp := copied mask r
  let r1 := { r with seq := l.seq, flags := if cp && l.copyMade then r.flags + 64 else r.flags }
  let l1 := { l with ring := (r1 :: l.ring).take 4096, seq := (l.seq + 1) % 2 ^ 32 }
  (if cp then l1.waitCopy r1 false else l1, r1)

/-- Every staged record is written. -/
def Log.drain (l : Log) (mask : Nat) : Log := l.staged.foldl (fun (x : Log) r => (x.write mask r).1) { l with staged := [] }

/-! ### Host SPI (R371) -/

/-- A tunnel response or event waits (R371). -/
def State.respWait (s : State) (h : HubId) : Bool :=
  decide (h = s.active) && (!s.core.spi.tunnel.isEmpty || !s.core.spi.evq.isEmpty)
/-- The port's IRQ_N ball is low (R371). -/
def State.irqLow (s : State) (h : HubId) : Bool := s.respWait h
/-- The status word of a transfer (R371). -/
def State.spiStatus (s : State) (h : HubId) (err full : Bool) : Word :=
  BitVec.ofNat 32 (putBit full 3 + putBit (s.respWait h) 2 + putBit (decide (h ≠ s.active)) 1 + putBit err 0)
/-- The hub answers at its host SPI port. -/
def State.spiAlive (s : State) (h : HubId) : Bool :=
  (s.hub h).present && (s.hub h).up && s.power.boot == .complete && s.power.st != .off
/-- What a transfer shifts out. -/
def State.shiftOut (s : State) (h : HubId) (l : List Word) : State := { s with spiOut := vmod s.spiOut h fun _ => l }

/-! ### Mirror units and held-back actions (R282) -/

/-- A held-back action goes ahead. -/
def State.release (s : State) : HeldBack → State
  | .response m _ => s.emit m
  | .retire id =>
    match s.core.entry id with
    | some e => (match e.phase with | .finished o => s.retire id o | _ => s)
    | none => s
  | .promote id =>
    match s.core.entry id with
    | some e => s.modLane s.active e.ch.die fun l => { l with promo := l.promo ++ [(id, 4)] }
    | none => s
  | .consume _ => s
  | .spiWrite err => s.shiftOut s.active [s.spiStatus s.active err false]

/-- The actions that wait for units up to k go ahead, oldest first. -/
def State.releaseTo (s : State) (k : Nat) : State :=
  let go := (s.mirror.held.filter fun p => decide (p.1 ≤ k)).map (·.2)
  let t := { s with mirror := { s.mirror with held := s.mirror.held.filter fun p => !decide (p.1 ≤ k) } }
  go.foldl State.release t

/-- The copy of the active hub's state that a standby takes in: what each hub counts for itself stays its own (R272, R274, R282). -/
def Core.asCopy (c own : Core) : Core :=
  { c with ledger := { c.ledger with clipCnt := own.ledger.clipCnt, conflictCnt := own.ledger.conflictCnt } }
/-- The standby applies a unit: the mirrored state, and the header writes on its own pages (R282, R398). -/
def State.applyUnit (s : State) (u : MUnit) : State :=
  let o := other s.active
  let t := u.hdr.foldl (fun (x : State) w => if h : w.1 < 12 then x.writeHdr (.hub o ⟨w.1, h⟩) w.2.1 w.2.2 else x) s
  { t with copy := u.core.asCopy t.copy, mirror := { t.mirror with applied := u.idx } }

/-- Mirroring stops: no unit travels, and nothing waits for the standby any longer. -/
def State.stopMirror (s : State) : State :=
  let k := s.mirror.committed + 1
  ({ s with mirror := { s.mirror with wire := [], rx := none } } : State).releaseTo k

/-- The active hub has stopped: no unit travels, and what it held back is lost with it (R292, R294). -/
def State.dropMirror (s : State) : State := { s with mirror := { s.mirror with wire := [], rx := none, held := [] } }

/-- The units in progress are completed: the standby applies them all, and the actions that waited go ahead (R295). -/
def State.finishMirror (s : State) : State :=
  let t := s.mirror.wire.foldl State.applyUnit s
  let t := { t with mirror := { t.mirror with wire := [], rx := none, acked := t.mirror.committed } }
  t.releaseTo (t.mirror.committed + 1)

/-! ### Switchover and takeover -/

/-- The standby is READY (R292, R295). -/
def State.standbyReady (s : State) : Bool :=
  let o := s.hub (other s.active)
  s.variant.dual && o.present && o.up && o.hstate == .ready

/-- A hub's own counter: the active hub's is device time (R43). -/
def State.ownTime (s : State) (h : HubId) : Tick := if h = s.active then s.clk.now else s.clk.peer
/-- The multiple of 10 µs of a hub's device time that was passed last. -/
def State.multiple (s : State) (h : HubId) : Nat := s.ownTime h / (10 * us)
/-- A planned switchover starts at ts: the units in progress are completed and RELEASE leaves on each trained lane; the
standby claims after its next multiple of 10 µs (R295). -/
def State.startSwitchover (s : State) (cause : Nat) (req : Option Req) : State :=
  if s.standbyReady && !s.switching then
    let t := s.finishMirror
    let t := t.modHub s.active fun h => { h with
      lanes := vmap h.lanes fun d l =>
        if (s.die d).present && l.st == .trained then { l with lease := some (.release (s.core.taken[d.val])) } else l }
    t.modHub (other s.active) fun h => { h with
      claiming := some (s.clk.now, s.clk.elapsed, req, cause)
      claimMult := some (s.multiple (other s.active)) }
  else s

/-- Has hub h received the grant of every present die: its lease reports name it as holder (R286, R292)? -/
def reportHolder (l : Lane) : Nat := (l.report.toNat >>> 62) % 4
/-- AGE in a lease report (R288). -/
def reportAge (l : Lane) : Nat := (l.report.toNat >>> 52) % 1024
/-- Every present die's lease report names the hub. -/
def State.allGranted (s : State) (h : HubId) : Bool := s.presentDies.all fun d => reportHolder (s.lane h d) == h.val

/-- The watchdog starts a waived period, disarmed (R311, R317). -/
def Wdog.restart (w : Wdog) (elapsed : Nat) (waived : Bool) : Wdog :=
  let w1 := match w.pend with
    | some (p, c) => { w with p := p, close := c, pend := none }
    | none => w
  { w1 with start := elapsed, waived := waived, armed := false }

/-- The other hub's counter becomes the package's device time (R43). -/
def Clk.swap (c : Clk) : Clk := { c with now := c.peer, peer := c.now }

/-- The claiming hub becomes ACTIVE: the state it applied becomes the package's, its watchdog starts a period, and the other
hub enters SYNCING, or FAILED when it stopped or a fault of its own started the switchover; the ports of a stopped hub are out of
the decision (R14, R292, R295, R317, R350). What its port's relay queue still held is lost: DESIGN CHOICE (log 49). -/
def State.becomeActive (s : State) (h : HubId) (failed : Bool) : State :=
  let o := other h
  let c := s.copy
  let t := { s with
    active := h
    clk := (if h = s.active then s.clk else s.clk.swap)
    core := { c with wd := (if c.wd.en then c.wd.restart s.clk.elapsed true else c.wd) }
    copy := s.core
    base := { s.base with core := s.base.copy, copy := s.base.core }
    net := { s.net with relay := [] }
    mirror := { s.mirror with wire := [], rx := none, held := [], committed := s.mirror.applied, acked := s.mirror.applied } }
  let t := t.modHub h fun x => { x with
    hstate := .active
    tdet := none
    claiming := none
    hbMiss := 0
    takeoverCnt := satInc x.takeoverCnt }
  let t := t.modHub o fun x => { x with
    hstate := (if failed || !x.up then .failed else .syncing)
    up := x.up && !failed
    nvLock := none
    keyRole := none }
  if failed then t.stopPorts o else t.bmca

/-- Entries whose outcome the mirrored state records and whose retirement the old hub still held back retire (R72, R282). -/
def State.retireRecorded (s : State) : State :=
  s.core.entries.foldl (fun t e => match e.phase with | .finished o => t.retire e.id o | _ => t) s

/-- The standby takes over from an active hub that it has lost: EV_HUB_TAKEOVER holds its last heartbeat and the duration (R292, R305). -/
def State.takeOver (s : State) (h : HubId) : State :=
  let x := s.hub h
  let us' := (s.clk.elapsed - x.hbAt) / us
  let t := (s.becomeActive h false).retireRecorded.modHub h fun y => { y with lastTo := x.hbTime, lastToUs := us' }
  t.raise h .hubTakeover s.clk.now false (leBytes 8 x.hbTime ++ leBytes 4 us')
/-- A planned switchover completes: the mirror units in progress are completed first, so that the new active hub holds everything that the
old one did or answered (R282, R295, R305). -/
def State.switchOver (s : State) (h : HubId) (ts : Tick) (t0 : Nat) (req : Option Req) (cause : Nat) : State :=
  let us' := (s.clk.elapsed - t0) / us
  let t := (s.finishMirror.becomeActive h (cause == 2)).retireRecorded.raise h .hubSwitchover s.clk.now false (leBytes 8 ts ++ leBytes 1 cause)
  match req with
  | some r => t.respond r (resp 0x0072 .ok (leBytes 8 ts ++ leBytes 4 us'))
  | none => t
/-- Every die has granted: an unplanned takeover or a planned switchover completes (R292, R295, R305). -/
def State.takeoverComplete (s : State) (h : HubId) : State :=
  let x := s.hub h
  if h = s.active ∨ !s.allGranted h then s
  else match x.claiming, x.tdet with
    | some (ts, t0, req, cause), _ => s.switchOver h ts t0 req cause
    | none, some _ => s.takeOver h
    | none, none => s

/-! ### Device faults (R299) -/

/-- EV_DEVICE_FAULT of hub h, with the source (0 pool, 1 self-check) and the die or hub. -/
def State.raiseFault (s : State) (h : HubId) (source unit : Nat) : State :=
  s.modHub h (·.raise .deviceFault (mkRec .deviceFault s.clk.now unit s.quality false (leBytes 1 source) none))

/-- The action on a device fault of a hub: a switchover of the active hub when the standby is READY and FAULT_SWITCH is 1,
else ADMIT cleared; the standby enters FAILED (R299). -/
def State.hubFault (s : State) (h : HubId) : State :=
  if h = s.active then
    if s.standbyReady && s.core.redun.faultSwitch then s.startSwitchover 2 none
    else s.modCore fun c => { c with sched := { c.sched with admits := false } }
  else ((s.modHub h fun x => { x with hstate := .failed, up := false }).stopPorts h).stopMirror

/-! ### Pool identities (R27, R28, R32) -/

/-- R28: the identities are held to between the completion of power-up and the start of power-down, with the TEST balls
low. -/
def State.poolsHeld (s : State) : Bool := s.power.boot == .complete && s.power.step == 0 && !s.power.straps.test

/-- A lane direction's credit identity, from the completion of each training (R409). -/
def Flow.ok (f : Flow) (trained : Bool) : Bool := !trained || decide (f.credits + f.outstanding = 16)

/-- A die's energy identity (R27). -/
def DieLedger.ok (l : DieLedger) : Bool :=
  decide (l.eRes ≤ l.level) && decide ((l.level : Int) = l.base + l.refilled - l.drawn - l.overflowed)

/-- Fail mask of a die's pools (R389): bits 8 + 4d to 11 + 4d. -/
def State.dieFails (s : State) (d : DieId) : Nat :=
  let k := s.die d
  let lanes := (List.finRange 2).all fun h => !(s.hub h).present || (s.lane h d).up.ok ((s.lane h d).st == .trained)
  putBit (!lanes) (8 + 4 * d.val) + putBit (decide (k.ntqPool.total ≠ 256)) (9 + 4 * d.val) + putBit (!k.led.ok) (10 + 4 * d.val) +
    putBit (decide (k.led.pool.total ≠ 4000)) (11 + 4 * d.val)

/-- The entry counts balance; the identity is part of the schedule-slot pool (R76). -/
def SchedRegs.balanced (g : SchedRegs) : Bool :=
  decide (g.submitted = g.executed + g.cancelled + g.missed + g.refused + g.inFlight + g.deferred)

/-- Fail mask of hub h's pools (R389): bits 0 to 2 of what the active hub keeps for the package, and bits 3 to 5 of what each
hub keeps of its own, its events and its credits (R27). -/
def State.hubFailsOf (s : State) (h : HubId) : Nat :=
  let c := s.core
  let x := s.hub h
  let lanes := s.presentDies.all fun d => (s.lane h d).down.ok ((s.lane h d).st == .trained)
  if !x.present || !x.up then 0
  else
    (if h = s.active then
      putBit (decide (c.slots.total ≠ 65536) || !c.sched.balanced) 0 + putBit (decide (c.store.total ≠ 1048576)) 1 +
        putBit (decide (c.ledger.pool.total ≠ 25000)) 2
     else 0) +
      putBit (decide (x.log.raised ≠ x.log.logged + x.log.counted)) 3 + putBit (!lanes) 4 +
      putBit (s.variant.dual && !(s.strFlow h).ok (s.mirror.str.st == .trained)) 5
/-- Fail mask of the pools of both hubs. -/
def State.hubFails (s : State) : Nat := s.hubFailsOf 0 ||| s.hubFailsOf 1

/-- The items of hub h's pool under bit b of the fail mask, as a snapshot latches them, with the die or hub that R438 names:
for the credits of a lane, the die at its far end. -/
def State.hubItems (s : State) (h : HubId) (b : Nat) : List (Nat × List Nat) :=
  let p (x : Pool) : List Nat := [x.free, x.res, x.use]
  let f (x : Flow) : List Nat := [x.credits, x.outstanding]
  let l := (s.hub h).log
  match b with
  | 0 => if h = s.active then [(srcHub h, p s.core.slots)] else []
  | 1 => if h = s.active then [(srcHub h, p s.core.store)] else []
  | 2 => if h = s.active then [(srcHub h, p s.core.ledger.pool)] else []
  | 3 => [(srcHub h, [l.raised, l.logged, l.counted])]
  | 4 => s.presentDies.map fun d => (srcDie d, f (s.lane h d).down)
  | _ => if s.variant.dual then [(srcHub h, f (s.strFlow h))] else []
/-- The items of die d's pool number i: its lane credits on the lane to each hub, its near-term queue, its energy and its
dissipation (R438). -/
def State.dieItems (s : State) (d : DieId) (i : Nat) : List (List Nat) :=
  let p (x : Pool) : List Nat := [x.free, x.res, x.use]
  let k := s.die d
  match i with
  | 0 => ((List.finRange 2).filter fun h => (s.hub h).present).map fun h =>
      [(s.lane h d).up.credits, (s.lane h d).up.outstanding]
  | 1 => [p k.ntqPool]
  | 2 => [[k.led.level - k.led.eRes, k.led.eRes, k.led.level, k.led.refilled, k.led.drawn, k.led.overflowed]]
  | _ => [p k.led.pool]

/-- The snapshot records of a pool: SOURCE and DATA, one for each item (R438). -/
def itemRecs (b source : Nat) (l : List Nat) : List (Nat × List Byte) :=
  (List.range l.length).map fun i => (source, leBytes 1 b ++ leBytes 1 i ++ leBytes 2 0 ++ leBytes 8 (l.getD i 0))
/-- Snapshot records go into hub h's black box (R32, R438). -/
def State.box (s : State) (h : HubId) (t : Tick) (recs : List (Nat × List Byte)) : State :=
  s.modHub h fun x => { x with log := recs.foldl (fun (l : Log) r => l.boxRecord 0x0FFE t r.1 s.quality r.2) x.log }
/-- A failing snapshot goes into the black box, one record for each item of each pool latched: the pools of the hubs hs into
their own, those of the dies ds into the active hub's (R32, R303, R438). -/
def State.boxSnapshot (s : State) (hs : List HubId) (ds : List DieId) (t : Tick) : State :=
  let s1 := hs.foldl (fun (x : State) h =>
    x.box h t ((List.range 6).flatMap fun b => (s.hubItems h b).flatMap fun p => itemRecs b p.1 p.2)) s
  s1.box s.active t (ds.flatMap fun d => (List.range 4).flatMap fun i =>
    (s.dieItems d i).flatMap (itemRecs (8 + 4 * d.val + i) (srcDie d)))

/-- The fail mask of a snapshot of the pools of hubs hs and dies ds (R389). -/
def State.failMask (s : State) (hs : List HubId) (ds : List DieId) : Nat :=
  hs.foldl (fun m h => m ||| s.hubFailsOf h) 0 + (ds.map fun d => s.dieFails d).sum

/-- The hubs and dies of which a pool failed its identity in a snapshot: EV_POOL_MISMATCH, whose rule names no item, the black box, and the
device faults they are; CHECK shows what the continuous check found (R32, R299, R389, R412). -/
def State.poolMismatch (s : State) (hs : List HubId) (ds : List DieId) (t : Tick) (cont : Bool) : State :=
  let mask := s.failMask hs ds
  let badH := hs.filter fun h => s.hubFailsOf h != 0
  let badD := ds.filter fun d => s.dieFails d != 0
  if badH.isEmpty && badD.isEmpty then s
  else
    let s1 := if cont then s.modCore fun c => { c with check := c.check ||| BitVec.ofNat 32 mask } else s
    let s2 := badH.foldl (fun (x : State) h => x.raise h .poolMismatch t false []) s1
    let s3 := badD.foldl (fun (x : State) d =>
      x.modDie d (·.raise .poolMismatch 0 (mkRec .poolMismatch t (srcDie d) s.quality false [] none))) s2
    let s4 := s3.boxSnapshot hs ds t
    let s5 := badD.foldl (fun (x : State) d => x.raiseFault s.active 0 (srcDie d)) s4
    let s6 := if badD.isEmpty then s5 else s5.modCore fun c => { c with sched := { c.sched with admits := false } }
    badH.foldl (fun (x : State) h => (x.raiseFault x.active 0 (srcHub h)).hubFault h) s6

/-- The hubs whose pools a snapshot takes: those that run. -/
def State.runningHubs (s : State) : List HubId := (List.finRange 2).filter fun h => (s.hub h).present && (s.hub h).up
/-- The die whose POOL_CHECK stands for the hubs' own checks too: the first that is on, d0 while none is (R32). -/
def State.checkDie (s : State) : DieId := ((List.finRange 6).find? fun d => (s.die d).on).getD 0

end Sys2Proof.Machine
end

