-- ==== Sys2Proof/Machine/Lanes.lean ====
section
/-! DEFINITION. The frames of the Solder Lanes and the String: register-class frames, promotions, results, captures and
events, consumption and credit, errors, replay and training (R13 to R24, R48, R49, R69, R110 to R113, R221, R280). -/

namespace Sys2Proof.Machine
open Sys2Proof

/-! ### Receiving a frame -/

/-- A link's books changed. -/
def State.modLink (s : State) (l : Link) (f : Lane → Lane) : State :=
  match l with
  | .lane h d => s.modLane h d f
  | .string => { s with mirror := { s.mirror with str := f s.mirror.str } }
/-- A link's books. -/
def State.link (s : State) : Link → Lane
  | .lane h d => s.lane h d
  | .string => s.mirror.str

/-- A die drops the frames it kept for places that a CREDIT field returns (R283). -/
def Die.returned (d : Die) (n : Nat) : Die := { d with heldFrames := d.heldFrames.drop n }
/-- The CREDIT field of a frame from hub h has reached die d, which lets go of the frames that stood in the places (R15, R19,
R283). -/
def State.creditDown (s : State) (h : HubId) (d : DieId) (n : Nat) : State :=
  s.modDie d fun k => if k.holder = some h then k.returned n else k

/-- An intact register-class frame from hub h arrives at die d (R15, R19). -/
def State.frameDown (s : State) (h : HubId) (d : DieId) (type : Nat) (payload : Dword) : State :=
  (s.modLane h d (·.gotDown type payload)).creditDown h d (s.lane h d).up.creditNow
/-- An intact buffered frame from hub h arrives in order at die d and occupies a place. -/
def State.bufferedDown (s : State) (h : HubId) (d : DieId) (x : DownItem) (payload : Dword) : State :=
  (s.modLane h d fun l => (l.ackedDown x s.clk.elapsed).passDown x.type.code payload).creditDown h d (s.lane h d).up.creditNow
/-- An intact buffered frame from hub h arrives out of sequence at die d, which discards it (R22). -/
def State.strayDown (s : State) (h : HubId) (d : DieId) (x : DownItem) (payload : Dword) : State :=
  (s.modLane h d fun l => (l.keptDown x s.clk.elapsed).strayDown x.type.code payload).creditDown h d (s.lane h d).up.creditNow

/-- The lane to die d carries the frame: one to a die in Sleep carries of the buffered frames RENEW alone (R325). -/
def State.carries (s : State) (h : HubId) (d : DieId) (x : DownItem) : Bool :=
  s.linked h d && ((s.die d).pwr != .sleep || x == .lease .renew)
/-- A buffered frame of hub h that may leave: in order it arrives and has its effect, out of sequence it is discarded (R18, R20,
R22). -/
def State.sendDown (s : State) (h : HubId) (d : DieId) (x : DownItem) (payload : Dword) (f : State → State) : State :=
  if !s.carries h d x || !(s.lane h d).down.canSend || !(s.lane h d).mayGo s.clk.elapsed x then s
  else if (s.lane h d).down.inSeq then f (s.bufferedDown h d x payload)
  else s.strayDown h d x payload

/-! ### The String (R280) -/

/-- A buffered String frame from hub h arrives in order; its CREDIT returns places of the other direction (R280). -/
def State.passStr (s : State) (h : HubId) (type : StrType) (payload : Dword) : State :=
  s.modLink .string fun l => if h = 0 then l.passDown type.code payload else l.passUp type.code payload
/-- A hub counts a fault of the String (R298, R308). -/
def State.countStr (s : State) (h : HubId) (f : LinkErr → LinkErr) : State := s.modHub h fun x => { x with strErr := f x.strErr }
/-- A Replay request sent. -/
def LinkErr.replayed (e : LinkErr) : LinkErr := { e with replays := satTo 0xFF (e.replays + 1) }
/-- A frame that failed its CRC, and the Replay request for a buffered one. -/
def LinkErr.failed (e : LinkErr) (buffered : Bool) : LinkErr :=
  let x := { e with crc := satTo 0xFFFF (e.crc + 1) }
  if buffered then x.replayed else x
/-- A buffered String frame from hub h arrives out of sequence, and the other hub asks for it again. -/
def State.strayStr (s : State) (h : HubId) (type : StrType) (payload : Dword) : State :=
  (s.modLink .string fun l => if h = 0 then l.strayDown type.code payload else l.strayUp type.code payload).countStr (other h)
    LinkErr.replayed
/-- A register-class String frame from hub h arrives. -/
def State.gotStr (s : State) (h : HubId) (type : Nat) (payload : Dword) : State :=
  s.modLink .string fun l => if h = 0 then l.gotDown type payload else l.gotUp type payload
/-- A frame that R280 places before this one waits at hub h: mirror units go before role leases and relayed octets. -/
def State.strWaits (s : State) (h : HubId) (type : StrType) : Bool :=
  decide (h = s.active) && !s.mirror.wire.isEmpty && (type == .roleLease || type == .portRelay)
/-- A buffered String frame of hub h that may leave: in order it arrives and has its effect, else it is discarded (R22, R280). -/
def State.sendStr (s : State) (h : HubId) (type : StrType) (payload : Dword) (f : State → State) : State :=
  if !s.strung || s.strWaits h type || !(s.strFlow h).canSend then s
  else if (s.strFlow h).inSeq then f (s.passStr h type payload)
  else s.strayStr h type payload

/-! ### Output state and Status frames (R17, R110 to R113) -/

/-- The four bits of a channel in an Output state frame (R110). -/
def Levels.bits (l : Levels) : Nat := putBit l.host 15 + putBit l.wdog 14 + putBit l.skew 13 + putBit l.hold 12
/-- The levels that 16 bits of an Output state frame carry (R110). -/
def Levels.ofBits (n : Nat) : Levels :=
  let w : Word := BitVec.ofNat 32 n
  ⟨bit w 15, bit w 14, bit w 13, bit w 12⟩
/-- Payload of Output state frame k: channels 4k to 4k + 3 (R110). -/
def outStateOf (v : Vector Levels 16) (k : Fin 4) : Dword :=
  BitVec.ofNat 64 (((List.finRange 4).map fun i => ((v[4 * k.val + i.val]).bits) <<< (16 * i.val)).sum)

/-- OUTPUT_STATE_SEND: the active hub sends the request levels of a die's 16 channels in four frames, at keep-alive in Sleep as well
(R17, R110, R325). -/
def execOutputStateSend (d : DieId) (s : State) : Host.Outcome State Fault Refusal :=
  .next (if s.ticking && s.linked s.active d then
    s.modLane s.active d fun l => { l with outState := Vector.ofFn fun k => outStateOf (s.core.levels[d.val]) k }
  else s)

/-- OUTPUT_STATE_RECEIVE: the die applies the levels of four channels at the frame's arrival, and the hub's shadow follows
(R110, R112). -/
def execOutputStateReceive (h : HubId) (d : DieId) (k : Fin 4) (s : State) : Host.Outcome State Fault Refusal :=
  .next (if decide (h = s.active) && s.linked h d then
    let w := (s.lane h d).outState[k.val]
    let cs : List ChanId := (List.finRange 4).map fun i => ⟨4 * k.val + i.val, by omega⟩
    let t := (s.frameDown h d FrameType.outputState.code w).modDie d fun x =>
      x.applyLevels d (s.dq d) s.clk.elapsed cs fun c => Levels.ofBits (w.toNat >>> (16 * (c.val % 4)) % 65536)
    State.commit s (t.syncShadow d cs)
  else s)

/-- The word pair of Status frame k (R111). -/
def Die.statusOf (d : Die) (k : Fin 8) : Dword :=
  let a := (d.chan ⟨2 * k.val, by omega⟩).word
  let b := (d.chan ⟨2 * k.val + 1, by omega⟩).word
  BitVec.ofNat 64 (a.toNat + b.toNat * 2 ^ 32)

/-- STATUS_SEND: a die builds its eight Status frames, which leave on every lane it has (R17, R111). -/
def execStatusSend (d : DieId) (s : State) : Host.Outcome State Fault Refusal :=
  .next (s.modDie d fun x => if x.laneOn then { x with statusTx := Vector.ofFn fun k => x.statusOf k } else x)

/-- The channel, or the even or lowest channel of its pair or group, is written its configuration again, which takes effect at tm as
any other (R93, R113, R437). -/
def State.pushConfig (s : State) (ch : Chan) : State :=
  let c := ((s.die ch.die).unit ch.c).headD ch.c
  let k := (s.die ch.die).chan c
  s.queueConfig ⟨ch.die, c⟩ k.want k.cfgSet (tenAfterTwenty s.clk.now)
/-- The hub writes the channel's configuration again and, in an output mode, the value of the last executed output entry;
a safe state, a hold or a latch is never left (R113). That an entry executed before the channel's last mode change still counts as the
last executed one is a DESIGN CHOICE (log 74). -/
def State.pushIntent (s : State) (ch : Chan) : State :=
  let q := s.dq ch.die
  let t := s.pushConfig ch
  match ((s.core.shadow[ch.die.val])[ch.c.val]).lastOut with
  | some (op, w) =>
    t.modDie ch.die fun d =>
      let k := d.chan ch.c
      if isOutMode k.mode && k.state == .run then
        match op with
        | 3 => d.outSet ch.die q ch.c w d.replica
        | 4 => d.modCh ch.c fun x => { x with out := x.out.setDuty w }
        | _ => d.modCh ch.c fun x => { x with out := x.out.setPeriod w d.replica }
      else d
  | none => t

/-- Five intact Status words in a row differ from the shadow: EV_STATE_SKEW, the shadow takes the die's word, and intent is
pushed, or SKEW is set at the fourth skew within 1 s (R113). The pushes are management frames: a die whose lease the hub does not hold
discards and counts them (R21). -/
def State.stateSkew (s : State) (ch : Chan) (w : Word) : State :=
  let x := (s.core.shadow[ch.die.val])[ch.c.val]
  let recent := (x.skews.filter fun t => decide (s.clk.elapsed < t + sec)) ++ [s.clk.elapsed]
  let rep := decide (4 ≤ recent.length)
  let s1 := s.modCore fun c => { c with
    shadow := (vmod c.shadow ch.die fun v => vmod v ch.c fun y => { y with word := w, run := 0, skews := recent })
    levels := (if rep then vmod c.levels ch.die fun v => vmod v ch.c fun y => { y with skew := true } else c.levels) }
  let s2 := s1.raiseSrc .stateSkew s.clk.now (srcCh ch.die ch.c) rep
    (leBytes 4 w.toNat ++ leBytes 4 x.word.toNat ++ leBytes 1 (putBit rep 0)) none
  if rep || fld w 9 3 == 4 then s2
  else if (s.die ch.die).holder = some s.active then s2.pushIntent ch
  else s2.modDie ch.die Die.foreign

/-- One channel word of a Status frame is compared with the shadow (R113). -/
def State.compareShadow (s : State) (ch : Chan) (w : Word) : State :=
  let x := (s.core.shadow[ch.die.val])[ch.c.val]
  if w = x.word then
    s.modCore fun c => { c with shadow := (vmod c.shadow ch.die fun v => vmod v ch.c fun y => { y with run := 0 }) }
  else if x.run + 1 < 5 then
    s.modCore fun c => { c with shadow := (vmod c.shadow ch.die fun v => vmod v ch.c fun y => { y with run := y.run + 1 }) }
  else s.stateSkew ch w

/-- STATUS_RECEIVE: a Status frame overwrites its holding register; the active hub compares its two words with the shadows
(R17, R113). -/
def execStatusReceive (h : HubId) (d : DieId) (k : Fin 8) (s : State) : Host.Outcome State Fault Refusal :=
  .next (if s.linked h d then
    let w := (s.die d).statusTx[k.val]
    let t := s.modLane h d fun l => { l.gotUp FrameType.status.code w with status := vmod l.status k fun _ => w }
    if h = s.active then
      State.commit s ((t.compareShadow ⟨d, ⟨2 * k.val, by omega⟩⟩ (lo32 w.toNat)).compareShadow ⟨d, ⟨2 * k.val + 1, by omega⟩⟩ (hi32 w.toNat))
    else t
  else s)

/-! ### Time frames (R48, R49) -/

/-- TIME_FRAME_SEND: the time-master hub launches a Time frame with its own counter's value, on a lane of its own or over the String
(R43, R48). -/
def execTimeFrameSend (l : Link) (s : State) : Host.Outcome State Fault Refusal :=
  .next (match l with
  | .lane h d => if s.timeMaster = some h ∧ s.linked h d = true then s.modLane h d fun l => { l with timeFrame := some (s.ownTime h) } else s
  | .string =>
    if s.variant.dual && s.timeMaster == some s.active && s.mirror.str.st == .trained then
      { s with mirror := { s.mirror with str := { s.mirror.str with timeFrame := some s.clk.now } } }
    else s)

/-- A Time frame arrives at a die: its replicas take the value, or, after coasting, realign to it without a step (R48, R49). -/
def Die.takeTime (d : Die) (v : Tick) (elapsed : Nat) : Die :=
  if d.coasting then { d with coasting := false, realign := (v : Int) - d.replica, lastTime := elapsed }
  else { d with replica := ((v : Int) - d.realign).toNat, lastTime := elapsed }

/-- TIME_FRAME_RECEIVE: the die sets its replicas to the payload plus the lane's one-way delay and ends coasting; the standby
sets its counter from the String's in the same way. With no die the frame is the String's, which the active hub sends (R43, R48,
R49). -/
def execTimeFrameReceive (h : HubId) (d : Option DieId) (s : State) : Host.Outcome State Fault Refusal :=
  .next (match d with
  | some d =>
    (match (s.lane h d).timeFrame with
    | some p =>
      if s.linked h d then
        ((s.frameDown h d FrameType.time.code (BitVec.ofNat 64 p)).modLane h d fun l => { l with timeFrame := none }).modDie d
          (·.takeTime (p + (s.lane h d).delay) s.clk.elapsed)
      else s
    | none => s)
  | none =>
    match s.mirror.str.timeFrame with
    | some p =>
      if h == s.active && s.variant.dual && s.mirror.str.st == .trained && (s.hub (other s.active)).up then
        let t := s.gotStr s.active StrType.time.code (BitVec.ofNat 64 p)
        { t with
          clk := { t.clk with peer := p + s.mirror.str.delay }
          mirror := { t.mirror with str := { t.mirror.str with timeFrame := none } } }
      else s
    | none => s)

/-- COASTING_START: no valid Time frame for 16 µs: the replicas coast at the last measured frequency, with an error of at most
±0.5 ns a millisecond (R49). -/
def execCoastingStart (d : DieId) (s : State) : Host.Outcome State Fault Refusal :=
  .next (if (s.die d).laneOn && !(s.die d).coasting && decide ((s.die d).lastTime + 16 * us ≤ s.clk.elapsed) then
    s.tickFree.modDie d fun x => { x with
      coasting := true
      coastFreq := s.sync.freq + clampInt (-500) 500 (Config.coastError s.free)
      realign := 0 }
  else s)

/-- LANE_DELAY_MEASURE: the one-way delay is half the round trip, corrected by the factory's asymmetry trim. With no die the
measurement is the String's, by the active hub (R42, R48). -/
def execLaneDelayMeasure (h : HubId) (d : Option DieId) (roundTrip : Nat) (s : State) : Host.Outcome State Fault Refusal :=
  .next (match d with
  | some d =>
    if s.linked h d then
      s.modLane h d fun l => { l with delay := ((roundTrip / 2 : Nat) + Config.laneAsymmetry h.val d.val).toNat }
    else s
  | none =>
    if h == s.active && s.variant.dual && s.mirror.str.st == .trained then
      { s with mirror := { s.mirror with str := { s.mirror.str with delay := ((roundTrip / 2 : Nat) + Config.stringAsymmetry).toNat } } }
    else s)

/-! ### Promotion (R20, R69, R282, R283) -/

/-- Promotions leave class 0 first, then by earliest execution time, then in admission order (R20). -/
def Entry.goesBefore (a b : Entry) : Bool :=
  let ca := a.e.cls == 0#8
  let cb := b.e.cls == 0#8
  if ca != cb then ca
  else if a.e.time = b.e.time then decide (a.id < b.id) else decide (a.e.time.toNat < b.e.time.toNat)

/-- The entry's promotion is due: TIME − 1 ms has come, at the active hub, which holds the die's lease (R69). -/
def State.promoDue (s : State) (e : Entry) : Bool :=
  e.atHub && decide (e.e.time.toNat ≤ s.clk.now + ms) && s.serving && s.linked s.active e.ch.die &&
    (s.die e.ch.die).pwr != .sleep && (s.die e.ch.die).holder == some s.active && !s.switching

/-- A promotion may begin on a lane: credit is there, no frame goes out again first, the one before has left, and no lease message is due
the slot (R20, R22). -/
def Lane.promoFree (l : Lane) (elapsed : Nat) : Bool :=
  l.promo.isEmpty && l.down.canSend && l.pastDown.isNone && !l.leaseDue elapsed
/-- The next slot of a die's lane may begin a promotion: none that has begun still waits for the standby (R20, R282). -/
def State.mayPromote (s : State) (d : DieId) : Bool :=
  (s.lane s.active d).promoFree s.clk.elapsed && s.mirror.held.all fun p =>
    match p.2 with
    | .promote id => (s.core.entry id).all fun x => decide (x.ch.die ≠ d)
    | _ => true

/-- PROMOTION_BEGIN: the hub begins sending an entry in a slot that may begin one, the entry that R20's order puts first then: it takes
the next promotion index of its die, its schedule slot comes into use
and a near-term queue slot is reserved; the first frame is launched at once, or when the standby has acknowledged the unit
(R64, R69, R282, R283). -/
def execPromotionBegin (id : Nat) (s : State) : Host.Outcome State Fault Refusal :=
  .next (match s.core.entry id with
  | some e =>
    let d := e.ch.die
    if s.promoDue e && s.mayPromote d && s.core.entries.all (fun x => !(decide (x.ch.die = d) && s.promoDue x && x.goesBefore e)) then
      let idx := (s.lane s.active d).promoIdx
      let t := s.modCore fun c =>
        { (c.modEntry id fun x => { x with phase := .promoting, promo := some idx }) with slots := c.slots.begin 1 }
      let t := t.modLane s.active d fun l => { l with promoIdx := (idx + 1) % 65536 }
      let t := t.modDie d fun k => { k with ntqPool := k.ntqPool.reserve 1 }
      State.commit s (if s.mirroring then t.hold (.promote id)
        else t.modLane s.active d fun l => { l with promo := l.promo ++ [(id, 4)] })
    else s
  | none => s)

/-- The fourth Promotion frame places the entry in the near-term queue and counts PROMO_CNT; an entry that the hub has
retired meanwhile is not kept (R69, R283). -/
def Die.enqueue (d : Die) (e : Option Entry) : Die :=
  let d1 := { d with promoCnt := (d.promoCnt + 1) % 65536, partialPromo := none }
  match e with
  | some x =>
    { d1 with
      ntq := d.ntq ++ [{ x with phase := .queued }]
      ntqPool := d.ntqPool.begin 1
      ntqHigh := max d.ntqHigh (d.ntqPool.begin 1).use }
  | none => { d1 with ntqPool := d.ntqPool.cancel 1 }

/-- The Promotion frame that leaves next on a lane has arrived: only the lease holder's is taken, and the fourth queues the
entry (R21, R69, R283, R285). -/
def State.takePromo (s : State) (h : HubId) (d : DieId) (id n : Nat) : State :=
  if (s.die d).holder ≠ some h then s.modDie d Die.foreign
  else if 1 < n then s.modDie d fun k => { k with partialPromo := some (id, 5 - n) }
  else
    let x := (s.coreOf h).entry id
    (s.modDie d (·.enqueue (x.filter fun e => e.phase == .promoting))).modCoreOf h
      (·.modEntry id fun e => if e.phase = .promoting then { e with phase := .queued } else e)
/-- PAYLOAD of the next Promotion frame (R69). -/
def State.promoPayload (s : State) (h : HubId) (id n : Nat) : Dword :=
  match (s.coreOf h).entry id with
  | some e => promotionPayload e.e (4 - n)
  | none => 0#64

/-- PROMOTION_FRAME_RECEIVE: the next Promotion frame from hub h arrives; a die takes it only from its lease holder (R21,
R69, R285). -/
def execPromotionFrameReceive (h : HubId) (d : DieId) (s : State) : Host.Outcome State Fault Refusal :=
  .next (match (s.lane h d).nextPromo with
  | some (id, n) => State.commit s (s.sendDown h d (.promo id n) (s.promoPayload h id n) (·.takePromo h d id n))
  | none => s)

/-! ### Frames from a die (R20, R21, R33, R221, R283, R300) -/

/-- Where the next new buffered frame of a die comes from. -/
inductive UpSource where
  | grant | mgmt | event | result
  deriving DecidableEq, Repr

/-- What a die sends next as a new buffered frame: a GRANT, a management response whose reserved slot is due, an event, a
result, capture or angle tag, the oldest first, or a management response (R20, R71, R287). -/
def Die.nextNew (d : Die) (grant : Option (HubId × Nat)) (due : Bool) : Option (UpSource × LaneItem) :=
  let mgmt := d.mgmt.head?.map fun m => (UpSource.mgmt, LaneItem.mgmt m.1 m.2.1 m.2.2.1 m.2.2.2)
  match grant with
  | some g => some (.grant, .grant g.1 g.2)
  | none =>
    (if due then mgmt else none) <|> (d.evq.head?.map fun x => (UpSource.event, x)) <|> (d.fifo.head?.map fun x => (UpSource.result, x)) <|> mgmt
/-- What leaves next: past the frames lost and not yet asked for again, a numbered frame that goes out first, or a new one
(R20, R22, R287). -/
def Die.nextUp (d : Die) (lag : Nat) (grant : Option (HubId × Nat)) (due : Bool) : Option LaneItem :=
  match d.resend.drop lag with
  | x :: _ => some x.2
  | [] => (d.nextNew grant due).map (·.2)

/-- A new frame is taken from its queue and numbered (R283). -/
def Die.takeNew (d : Die) (src : UpSource) : Die :=
  { d with
    nextFrame := (d.nextFrame + 1) % 65536
    mgmt := (if src = .mgmt then d.mgmt.tail else d.mgmt)
    evq := (if src = .event then d.evq.tail else d.evq)
    fifo := (if src = .result then d.fifo.tail else d.fifo) }
/-- The next frame has arrived: it is numbered and kept until its place returns (R283). -/
def Die.sentUp (d : Die) (grant : Option (HubId × Nat)) (due : Bool) : Die :=
  match d.resend with
  | x :: rest => { d with resend := rest, heldFrames := d.heldFrames ++ [x] }
  | [] => match d.nextNew grant due with
    | some (src, x) => { d.takeNew src with heldFrames := d.heldFrames ++ [(d.nextFrame, x)] }
    | none => d
/-- The next frame has left and was discarded at the hub: a new one is numbered, and waits to be asked for again (R22). -/
def Die.lostUp (d : Die) (lag : Nat) (grant : Option (HubId × Nat)) (due : Bool) : Die :=
  if lag < d.resend.length then d
  else match d.nextNew grant due with
    | some (src, x) => { d.takeNew src with resend := d.resend ++ [(d.nextFrame, x)] }
    | none => d

/-- The GRANT that waits on a lane (R287). -/
def State.grantFor (s : State) (h : HubId) (d : DieId) : Option (HubId × Nat) := (s.lane h d).grant.map fun n => (h, n)
/-- The reserved management slot of the field-to-hub direction is due (R20). -/
def State.mgmtUpDue (s : State) (h : HubId) (d : DieId) : Bool := slots31 (s.lane h d).mgmtUpAt s.clk.elapsed
/-- A buffered frame may leave the die on the lane of its lease holder, and which (R18, R20 to R22); a version 1 lane carries
no Angle tag (R24). -/
def State.upNext (s : State) (d : DieId) : Option (HubId × LaneItem) :=
  match (s.die d).holder with
  | some h =>
    let l := s.lane h d
    if s.linked h d && l.up.canSend && (s.die d).pwr != .sleep then
      ((s.die d).nextUp l.up.lag (s.grantFor h d) (s.mgmtUpDue h d)).bind fun x =>
        if x.type.carriedAt l.version then some (h, x) else none
    else none
  | none => none

/-- What the lane keeps of a frame that has left: a GRANT waits no longer, and 31 slots count from a management frame. -/
def Lane.leftUp (l : Lane) (x : LaneItem) (elapsed : Nat) : Lane :=
  match x with
  | .grant .. => { l with grant := none, mgmtUpAt := elapsed }
  | .mgmt .. => { l with mgmtUpAt := elapsed }
  | _ => l
/-- The frame arrives at hub h and occupies a place; its content is taken in, and its place may be freed once the standby
has acknowledged the unit that records it (R19, R282, R283). -/
def State.takeUp (s : State) (h : HubId) (d : DieId) (x : LaneItem) : State :=
  let t := (s.modDie d (·.sentUp (s.grantFor h d) (s.mgmtUpDue h d))).modLane h d
    fun l => (l.passUp x.type.code x.payload).leftUp x s.clk.elapsed
  let t := t.modCoreOf h fun c => { c with taken := vmod c.taken d fun n => (n + 1) % 65536 }
  if h = s.active then t.hold (.consume d) else t
/-- The frame arrives out of sequence and is discarded (R22). -/
def State.strayUp (s : State) (h : HubId) (d : DieId) (x : LaneItem) : State :=
  (s.modDie d (·.lostUp (s.lane h d).up.lag (s.grantFor h d) (s.mgmtUpDue h d))).modLane h d
    fun l => (l.strayUp x.type.code x.payload).leftUp x s.clk.elapsed
/-- A die's next buffered frame travels: in order it is taken up and `f` gives its effect, else it is discarded (R22). -/
def State.sendUp (s : State) (h : HubId) (d : DieId) (x : LaneItem) (f : State → State) : State :=
  if (s.lane h d).up.inSeq then State.commit s (f (s.takeUp h d x)) else s.strayUp h d x

/-- The quality code of result k in its quality word (R78). -/
def qualityAt (r : Record) (count k q : Nat) : Nat × Word :=
  let i := r.len - ceilDiv count 16 + k / 16
  (i, (assoc r.body i).getD 0#32 ||| BitVec.ofNat 32 (putFld q (2 * (k % 16)) 2))

/-- A Result or Angle tag frame is written into its record (R33, R78, R80, R169). COUNT_DONE counts the occurrences of an
AUX_TRIGGER as they are written, in whatever order they end (R80, R141). -/
def Core.putResult (c : Core) (id : Nat) (words : List (Nat × Word)) (stamp : Tick) (q n st : Nat) : Core :=
  match c.record id with
  | none => c
  | some r =>
    let n := if r.opcode = 6 then r.done + 1 else n
    let qual := r.opcode == 1 || r.opcode == 3 || r.opcode == 4 || r.opcode == 5
    let count := match c.entry id with | some e => e.e.count.toNat | none => 1
    let more := if qual && decide (r.done < n) then [qualityAt r count (n - 1) q] else []
    c.writeRecord id (words ++ more) n stamp st

/-- RESULT_FRAME_RECEIVE: a Result frame, or an angle word's second frame, is written into its record (R33, R80). -/
def execResultFrameReceive (d : DieId) (s : State) : Host.Outcome State Fault Refusal :=
  .next (match s.upNext d with
  | some (h, .result id words stamp q n st) =>
    s.sendUp h d (.result id words stamp q n st) (·.modCoreOf h (·.putResult id words stamp q n st))
  | _ => s)

/-- The timestamp restored from its 40 low bits: the instant within 2^39 ticks before now (R221). -/
def restore40 (low : Nat) (now : Tick) : Tick :=
  let base := now / 2 ^ 40 * 2 ^ 40 + low
  if base ≤ now then base else if 2 ^ 40 ≤ base then base - 2 ^ 40 else base

/-- A Capture frame is stored in its record (R78, R221). -/
def Core.putCapture (c : Core) (id : Nat) (stamp : Tick) (rising : Bool) (q : Nat) (angle : Bool) : Core :=
  match c.record id with
  | none => c
  | some r =>
    let o := 5 + (if angle then 4 else 3) * r.done
    c.writeRecord id [(o, lo32 stamp), (o + 1, hi32 stamp), (o + 2, BitVec.ofNat 32 (putBit rising 0 + putFld q 1 2))] (r.done + 1) stamp 0

/-- CAPTURE_FRAME_RECEIVE (R221). -/
def execCaptureFrameReceive (d : DieId) (s : State) : Host.Outcome State Fault Refusal :=
  .next (match s.upNext d with
  | some (h, .capture id c low rising q angle) =>
    s.sendUp h d (.capture id c low rising q angle) (·.modCoreOf h (·.putCapture id (restore40 low s.clk.now) rising q angle))
  | _ => s)

/-- An Angle tag frame is stored: the words it names, or the angle word of the record's last captured edge (R169, R221). -/
def Core.putAngle (c : Core) (id : Nat) (words : List (Nat × Word)) (stamp : Tick) (q n : Nat) : Core :=
  match words, c.record id with
  | [(0, a)], some r => c.writeRecord id [(5 + 4 * (r.done - 1) + 3, a)] r.done stamp 0
  | _, _ => c.putResult id words stamp q n 0

/-- ANGLE_TAG_FRAME_RECEIVE (R169, R221); a lane of version 1 carries none (R24). -/
def execAngleTagFrameReceive (d : DieId) (s : State) : Host.Outcome State Fault Refusal :=
  .next (match s.upNext d with
  | some (h, .angle id words stamp q n) =>
    s.sendUp h d (.angle id words stamp q n) (·.modCoreOf h (·.putAngle id words stamp q n))
  | _ => s)

/-- Events of a die whose pending bit stands on a hub page (R180, R274, R305). -/
def hubBitOf (code : Nat) : Option (Fin 12 × Nat) :=
  if code = Ev.code .angleLate then some (8, 1)
  else if code = Ev.code .angleOverspeed then some (8, 2)
  else if code = Ev.code .ledgerOverdraw then some (3, 2)
  else if code = Ev.code .deviceFault then some (9, 5)
  else none

/-- Events of a channel that carry a mask of channels, or of the members of a group (R102, R108, R239, R440). -/
def maskEvents : List Ev := [.safeState, .lpUndervolt, .foreignDrive, .overload, .shortFg, .thermal, .backfeed, .openWire, .shortLp]
/-- Channels that an event record names: the one in SOURCE, and those of its mask where it carries one (R239, R302, R389). -/
def recChans (r : LogRec) : List ChanId :=
  let one : List ChanId := if r.source / 128 = 1 then [⟨r.source / 8 % 16, by omega⟩] else []
  if (maskEvents.map Ev.code).contains r.code then
    one ++ allC.filter fun c => (leAt r.data 0 2 >>> c.val) % 2 == 1
  else one

/-- EVENT_FRAME_RECEIVE: the event is raised at the lease holder and logged there, and the shadows of the channels it names
advance (R112, R300, R404). -/
def execEventFrameReceive (d : DieId) (s : State) : Host.Outcome State Fault Refusal :=
  .next (match s.upNext d with
  | some (h, .event r) =>
    s.sendUp h d (.event r) fun t =>
      let t := t.modHub h (·.take (hubBitOf r.code) r)
      if h = s.active then t.syncShadow d (recChans r) else t
  | _ => s)

/-! ### Consumption and credit (R19, R282) -/

/-- FRAME_CONSUME: a receiver consumes one place. A hub consumes a frame of a die only when the unit with its content is
covered (R19, R282). -/
def execFrameConsume (l : Link) (dir : Dir) (s : State) : Host.Outcome State Fault Refusal :=
  .next (match l, dir with
  | .lane h d, .down => s.modLane h d fun x => { x with down := x.down.consume }
  | .lane h d, .up =>
    let waiting := if h = s.active then s.mirror.held.countP (·.2 == .consume d) else 0
    if waiting < (s.lane h d).up.places then s.modLane h d fun x => { x with up := x.up.consume } else s
  | .string, .down => { s with mirror := { s.mirror with str := { s.mirror.str with down := s.mirror.str.down.consume } } }
  | .string, .up => { s with mirror := { s.mirror with str := { s.mirror.str with up := s.mirror.str.up.consume } } })

/-! ### Errors, replay and training (R22 to R24, R298) -/

/-- One direction fails a CRC: a buffered frame is lost and a Replay request names the next expected SEQ (R22, R23). -/
def Flow.crcFail (f : Flow) (buffered : Bool) : Flow :=
  let g := if buffered then { f.lose with replay := some f.expect } else f
  { g with crcRun := f.crcRun + 1 }

/-- The frame that fails on a lane is the one that would leave next: a die's numbered or new one (R22). -/
def State.loseUp (s : State) (h : HubId) (d : DieId) : State :=
  match s.upNext d with
  | some (g, x) =>
    if g = h then
      (s.modDie d (·.lostUp (s.lane h d).up.lag (s.grantFor h d) (s.mgmtUpDue h d))).modLane h d (·.leftUp x s.clk.elapsed)
    else s
  | none => s
/-- A buffered frame can be on its way on a link: on the field-to-hub side a die has one to send (R18, R21). -/
def State.hasFrame (s : State) : Link → Dir → Bool
  | .lane h d, .up => (match s.upNext d with | some (g, _) => decide (g = h) | none => false)
  | l, .down => (s.link l).down.canSend
  | .string, .up => s.mirror.str.up.canSend

/-- A buffered frame is lost at its sender: a die's or a hub's next one, which the sender keeps (R22). -/
def State.loseFrame (s : State) (l : Link) (dir : Dir) : State :=
  match l, dir with
  | .lane h d, .up => s.loseUp h d
  | .lane h d, .down => s.modLane h d fun x => x.keptDown (x.nextDown s.clk.elapsed) s.clk.elapsed
  | .string, _ => s
/-- The hub at the receiving end counts the failure; a die keeps no such count (R298, R308). -/
def State.countFail (s : State) (l : Link) (dir : Dir) (buffered : Bool) : State :=
  match l, dir with
  | .lane h d, .up => s.modLane h d fun x =>
    let e := x.errs.failed buffered
    { x with crc := e.crc, replays := e.replays }
  | .lane .., .down => s
  | .string, .up => s.countStr 0 (·.failed buffered)
  | .string, .down => s.countStr 1 (·.failed buffered)
/-- FRAME_CRC_FAIL: a frame is discarded without acting on any field; the receiving hub counts it, and a buffered one is asked for
again (R22, R23, R298). -/
def execFrameCrcFail (l : Link) (dir : Dir) (buffered : Bool) (s : State) : Host.Outcome State Fault Refusal :=
  .next (if (s.link l).st = .trained ∧ (buffered = true → s.hasFrame l dir = true) then
    ((if buffered then s.loseFrame l dir else s).countFail l dir buffered).modLink l fun x =>
      match dir with
      | .down => { x with down := x.down.crcFail buffered }
      | .up => { x with up := x.up.crcFail buffered }
  else s)

/-- The sender resends every unacknowledged frame from a SEQ on; earlier ones are acknowledged by the request (R22). -/
def Flow.replayFrom (f : Flow) (seq : Nat) : Flow :=
  let l := f.unacked.dropWhile (· != seq)
  { f with unacked := l, resend := l, replay := none }
/-- PAYLOAD of a Replay request, which names a SEQ; the spec gives it no layout (log 18). -/
def replayPayload (seq : Nat) : Dword := Config.framePayload [0xB, seq]

/-- The Replay request that a receiver's books make due arrives at the sender: it carries ACK and CREDIT as every frame does
(R16, R22). -/
def State.replayOn (s : State) (l : Link) (dir : Dir) (seq : Nat) : State :=
  match dir with
  | .down => s.modLink l fun x =>
    let y := x.gotUp FrameType.replayRequest.code (replayPayload seq)
    { y with down := y.down.replayFrom seq }
  | .up =>
    let t := match l with
      | .lane h d => s.frameDown h d FrameType.replayRequest.code (replayPayload seq)
      | .string => s.gotStr 0 StrType.replayRequest.code (replayPayload seq)
    t.modLink l fun x => { x with up := x.up.replayFrom seq }
/-- A direction of a link. -/
def Lane.flow (l : Lane) : Dir → Flow
  | .down => l.down
  | .up => l.up

/-- A link carries Replay requests: a lane at keep-alive does not (R325). -/
def State.asksAgain (s : State) : Link → Bool
  | .lane _ d => (s.die d).pwr != .sleep
  | .string => true
/-- REPLAY_REQUEST_RECEIVE: dir is the direction of the frames that are resent. The request that is due names the SEQ that the
receiver expects (R22). -/
def execReplayRequestReceive (l : Link) (dir : Dir) (seq : Fin 16) (s : State) : Host.Outcome State Fault Refusal :=
  .next (if (s.link l).st = .trained ∧ s.asksAgain l = true ∧ ((s.link l).flow dir).replay = some seq.val then s.replayOn l dir seq.val else s)

/-- A link starts training again: it holds no credit pool until training completes (R23, R409). -/
def Lane.retrainNow (l : Lane) : Lane :=
  { l with
    st := .training
    version := 0
    retrain := satTo 63 (l.retrain + 1)
    failRun := 0
    down := { l.down with crcRun := 0, credits := 0, outstanding := 0 }
    up := { l.up with crcRun := 0, credits := 0, outstanding := 0 } }

/-- 16 consecutive frames of one direction have failed on a trained link (R23). -/
def Lane.crcRan (l : Lane) : Bool := l.st == .trained && (decide (16 ≤ l.down.crcRun) || decide (16 ≤ l.up.crcRun))
/-- A retrain of the String, which each hub counts. -/
def LinkErr.retrained (e : LinkErr) : LinkErr := { e with retrain := satTo 63 (e.retrain + 1) }
/-- LANE_CRC_RUN: 16 consecutive bad frames in one direction: the die applies its safe states with cause LANE_CRC and both
ends retrain (R23, R105). With no die the link is the String, which is handled in the same way (R298). -/
def execLaneCrcRun (h : HubId) (d : Option DieId) (s : State) : Host.Outcome State Fault Refusal :=
  .next (match d with
  | some d =>
    if (s.lane h d).crcRan then
      (s.modLane h d Lane.retrainNow).modDie d fun k => if k.present then k.setCauses d (s.dq d) 1 allC else k
    else s
  | none =>
    if s.mirror.str.crcRan then ((s.modLink .string Lane.retrainNow).countStr 0 (·.retrained)).countStr 1 (·.retrained) else s)

/-- Training restores a direction: the receiver reports its occupied places, the credits are 16 less those, what still stands in
a place is acknowledged, and what was lost is sent anew (R18, R23). -/
def Flow.trained (f : Flow) : Flow :=
  { f with
    credits := 16 - f.places
    outstanding := f.places
    unacked := []
    resend := []
    replay := none
    nextSeq := f.expect
    toReturn := 0
    crcRun := 0 }

/-- A link completes training at a version; every frame to the die that was not acknowledged will be replayed in order (R23, R24). -/
def Lane.trainedAt (l : Lane) (version : Nat) : Lane :=
  { l with
    st := .trained
    version := version
    failRun := 0
    down := l.down.trained
    up := l.up.trained
    again := l.lostDown ++ l.again
    lostDown := [] }
/-- The higher protocol version that both ends of a lane support (R24). -/
def State.agreed (s : State) (h : HubId) (d : DieId) : Nat :=
  min (s.ident.laneVers[h.val]'(by omega)) (s.ident.laneVers[d.val + 2]'(by omega))

/-- TRAINING_COMPLETE: a link trains at the version that both ends support, with the places that the receivers report occupied: the row
brings what the training exchange reported, and acts where that is what the ends hold. The frames of a die that stand in none of them have
been taken up and are let go. A String that trains again puts a DETACHED standby in SYNCING (R18, R23, R24, R279). -/
def execTrainingComplete (l : Link) (version occDown occUp : Nat) (s : State) : Host.Outcome State Fault Refusal :=
  .next (if (s.link l).st = .trained ∨ occDown ≠ (s.link l).down.places ∨ occUp ≠ (s.link l).up.places then s
  else match l with
    | .lane h d =>
      if version == s.agreed h d && (s.hub h).present && (s.hub h).up && (s.die d).laneOn then
        (s.modLane h d (·.trainedAt version)).modDie d fun k =>
          if k.holder = some h then { k with heldFrames := k.heldFrames.drop (k.heldFrames.length - (s.lane h d).up.places) } else k
      else s
    | .string =>
      if version == 2 && s.variant.dual && (s.hub 0).up && (s.hub 1).up && s.power.st != .deepSleep && s.power.st != .off then
        let t := s.modLink .string (·.trainedAt version)
        t.modHub (other s.active) fun x => if x.hstate = .detached then { x with hstate := .syncing } else x
      else s)

/-- LANE_FAILED: three consecutive trainings failed. A FAILED lane of the holder starts a switchover when the standby is
READY, its own lane to the die is trained and LANE_SWITCH is 1; a FAILED lane of the standby puts it back in SYNCING. A
retry that fails leaves the lane FAILED (R295, R298). -/
def execLaneFailed (h : HubId) (d : DieId) (s : State) : Host.Outcome State Fault Refusal :=
  .next (if (s.lane h d).st == .training && decide (3 ≤ (s.lane h d).failRun) then
    s.modLane h d fun l => { l with st := .failed, failAt := s.clk.elapsed }
  else if (s.lane h d).st == .training && (s.hub h).up && (s.die d).present then
    let t := s.modLane h d fun l => { l with st := .failed, failRun := 3, failAt := s.clk.elapsed }
    let t := t.modHub h (·.raise .laneFailed (mkRec .laneFailed s.clk.now (srcDie d) s.quality false [] none))
    if h = s.active then
      State.commit s (if (s.die d).holder == some h && s.core.redun.laneSwitch && (s.lane (other h) d).st == .trained
        then t.startSwitchover 3 none else t)
    else t.modHub h fun x => if x.hstate = .ready then { x with hstate := .syncing } else x
  else s)

/-- A FAILED link may train again: 10 ms have passed (R298). -/
def Lane.retryDue (l : Lane) (elapsed : Nat) : Bool := l.st == .failed && decide (l.failAt + 10 * ms ≤ elapsed)
/-- LANE_TRAINING_RETRY: every 10 ms a FAILED lane, or the String, trains again (R298). -/
def execLaneTrainingRetry (h : HubId) (d : Option DieId) (s : State) : Host.Outcome State Fault Refusal :=
  .next (match d with
  | some d =>
    if (s.hub h).up && (s.lane h d).retryDue s.clk.elapsed then s.modLane h d fun l => { l with st := .training } else s
  | none =>
    if s.variant.dual && (s.hub h).up && s.mirror.str.retryDue s.clk.elapsed then s.modLink .string fun l => { l with st := .training }
    else s)

/-- IDLE_FRAME_RECEIVE: a hub reads the lease report of a die's Idle frame (R288). With no die it is an Idle frame of hub h over the
String, which carries ACK and CREDIT alone and whose payload the spec does not give (R280; log 18). -/
def execIdleFrameReceive (h : HubId) (d : Option DieId) (s : State) : Host.Outcome State Fault Refusal :=
  .next (match d with
  | some d =>
    if s.linked h d then
      let w := BitVec.ofNat 64 (leaseReport (s.die d) s.clk.elapsed)
      s.modLane h d fun l => { l.gotUp FrameType.idle.code w with report := w }
    else s
  | none => if s.strung then s.gotStr h StrType.idle.code (Config.framePayload [0, h.val]) else s)

end Sys2Proof.Machine
end

