-- ==== Sys2Proof/Machine/Leases.lean ====
section
/-! DEFINITION. Field leases: RENEW, CLAIM, RELEASE and GRANT, and expiry (R284 to R289, R295). -/

namespace Sys2Proof.Machine
open Sys2Proof

/-- A hub holds the leases it renews: the active hub, unless it is switching away, and a hub that has claimed (R284, R292). -/
def State.renews (s : State) (h : HubId) : Bool :=
  (s.hub h).present && (s.hub h).up && !(decide (h = s.active) && s.switching)

/-- RENEW_SEND: after a device-time multiple of 10 µs a hub sends RENEW on the lane of every die whose lease report names it (R284). -/
def execRenewSend (h : HubId) (s : State) : Host.Outcome State Fault Refusal :=
  .next (if s.renews h && (s.hub h).renewMult != some (s.multiple h) then
    s.modHub h fun x => { x with
      renewMult := some (s.multiple h)
      lanes := vmap x.lanes fun d l =>
        if s.linked h d && reportHolder l == h.val then { l with lease := some .renew } else l }
  else s)

/-- A lease message of hub h that leaves next on its lane (R284). -/
def State.sendLease (s : State) (h : HubId) (d : DieId) (m : LeaseMsg) (f : State → State) : State :=
  s.sendDown h d (.lease m) (leasePayload h m) f

/-- RENEW_RECEIVE: from the holder it restarts the lease and the hub-loss timer; from the other hub it is discarded and
counted (R21, R284, R285). -/
def execRenewReceive (h : HubId) (d : DieId) (s : State) : Host.Outcome State Fault Refusal :=
  .next (match (s.lane h d).nextLease with
  | some .renew => s.sendLease h d .renew fun t => t.modDie d fun k =>
      if k.holder = some h then { k with renewAt := s.clk.elapsed, lossFrom := some s.clk.elapsed } else k.foreign
  | _ => s)

/-- The hub claims: after power-up the active hub, a standby that takes over or to which a switchover is under way (R286,
R292, R295). -/
def State.claims (s : State) (h : HubId) : Bool :=
  (s.hub h).present && (s.hub h).up &&
    ((decide (h = s.active) && !s.switching) || (s.hub h).tdet.isSome || (s.hub h).claiming.isSome)

/-- CLAIM_SEND: after a device-time multiple of 10 µs, CLAIM leaves on the lane of every present die whose lease report does
not name the hub, with its count of frames consumed (R286, R292, R295). -/
def execClaimSend (h : HubId) (s : State) : Host.Outcome State Fault Refusal :=
  .next (if s.claims h && (s.hub h).claimMult != some (s.multiple h) then
    let c := s.coreOf h
    let t := s.modHub h fun x => { x with
      claimMult := some (s.multiple h)
      lanes := vmap x.lanes fun d l =>
        if s.linked h d && reportHolder l != h.val && (s.die d).pwr != .sleep then
          { l with lease := some (.claim (c.taken[d.val])) }
        else l }
    State.commit s (t.takeoverComplete h)
  else s)

/-- A frame index precedes RESUME, modulo 65,536 (R287). -/
def precedes (idx resume : Nat) : Bool := decide (32768 ≤ (idx + 65536 - resume % 65536) % 65536)

/-- A grant: the lease and the hub-loss timer start, a partial promotion is discarded, and the kept frames from RESUME on
will be sent again (R285, R286, R287). -/
def Die.grant (d : Die) (h : HubId) (resume elapsed : Nat) : Die :=
  { d with
    holder := some h
    renewAt := elapsed
    lossFrom := some elapsed
    partialPromo := none
    ntqPool := d.ntqPool.cancel d.ntqPool.res
    resend := (d.heldFrames ++ d.resend).filter fun p => !precedes p.1 resume
    heldFrames := [] }

/-- A CLAIM has arrived at a die: without a holder the die grants, and the GRANT waits for the lane (R285, R287). -/
def State.takeClaim (s : State) (h : HubId) (d : DieId) (resume : Nat) : State :=
  match (s.die d).holder with
  | none =>
    let t := s.modLane (other h) d fun l => { l with promo := [], grant := none }
    let t := t.modLane h d fun l => { l with promo := [], grant := some (s.die d).promoCnt }
    t.modDie d (·.grant h resume s.clk.elapsed)
  | some x =>
    if x = h then s else (s.modDie d Die.foreign).modHub h fun y => { y with claimDisc := satInc y.claimDisc }

/-- CLAIM_RECEIVE: a die without a holder grants; while the other hub holds the lease the CLAIM is discarded and counted
(R21, R285, R287, R305). -/
def execClaimReceive (h : HubId) (d : DieId) (s : State) : Host.Outcome State Fault Refusal :=
  .next (match (s.lane h d).nextLease with
  | some (.claim resume) => s.sendLease h d (.claim resume) (·.takeClaim h d resume)
  | _ => s)

/-- RELEASE_RECEIVE: from the holder it ends the lease at once (R285). -/
def execReleaseReceive (h : HubId) (d : DieId) (s : State) : Host.Outcome State Fault Refusal :=
  .next (match (s.lane h d).nextLease with
  | some (.release n) => s.sendLease h d (.release n) fun t => t.modDie d fun k =>
      if k.holder = some h then { k with holder := none } else k.foreign
  | _ => s)

/-- Promotions with index at or after PROMO_CNT, modulo 65,536 (R289). -/
def Entry.repromoted (e : Entry) (cnt : Nat) : Bool :=
  match e.promo with
  | some i => e.live && !precedes i cnt
  | none => false

/-- The new holder takes up promotion: mirrored promotions from PROMO_CNT on leave again in index order, numbered on from
PROMO_CNT; those before it are in the die's queue (R289). -/
def State.resumePromotion (s : State) (h : HubId) (d : DieId) (cnt : Nat) : State :=
  let es := ((s.coreOf h).entries.filter fun e => decide (e.ch.die = d) && e.repromoted cnt).insertionSort
    fun a b => (a.promo.getD 0 + 65536 - cnt) % 65536 ≤ (b.promo.getD 0 + 65536 - cnt) % 65536
  let t := s.modCoreOf h fun c => { c with
    entries := c.entries.map fun e =>
      if e.ch.die = d ∧ e.live = true ∧ e.promo.isSome = true then
        (if e.repromoted cnt then { e with phase := .promoting, promo := some ((cnt + (es.map (·.id)).idxOf e.id) % 65536) } else if e.phase = .promoting then { e with phase := .queued } else e)
      else e }
  let t := t.modLane h d fun l => { l with
    promo := es.map fun e => (e.id, 4)
    promoIdx := (cnt + es.length) % 65536 }
  t.modDie d fun k => { k with ntqPool := k.ntqPool.reserve es.length }

/-- A GRANT that names hub h has arrived with PROMO_CNT: the hub takes up promotion, and with the last grant a standby becomes
ACTIVE (R287, R289, R292, R295). -/
def State.takeGrant (s : State) (h : HubId) (d : DieId) (cnt : Nat) : State :=
  let t := s.modLane h d fun l => { l with report := BitVec.ofNat 64 (leaseReport (s.die d) s.clk.elapsed) }
  (t.resumePromotion h d cnt).takeoverComplete h

/-- GRANT_RECEIVE: after the resent frames the GRANT arrives. One that a former holder did not take up names that hub, and has
no effect at this one (R287, R289, R292, R295). -/
def execGrantReceive (h : HubId) (d : DieId) (s : State) : Host.Outcome State Fault Refusal :=
  .next (match s.upNext d with
  | some (g, .grant named cnt) =>
    if g = h then s.sendUp h d (.grant named cnt) fun t => if named = h then t.takeGrant h d cnt else t
    else s
  | _ => s)

/-- LEASE_EXPIRY: 200 µs without a RENEW from the holder; a die in Deep Sleep has suspended its lease (R284, R331). -/
def execLeaseExpiry (d : DieId) (s : State) : Host.Outcome State Fault Refusal :=
  .next (s.modDie d fun k =>
    if k.holder.isSome && k.pwr != .deepSleep && decide (k.renewAt + 200 * us ≤ s.clk.elapsed) then { k with holder := none } else k)

end Sys2Proof.Machine
end

