-- ==== Sys2Proof/Machine/Standby.lean ====
section
/-! DEFINITION. The two hubs: heartbeats, mirroring, unplanned takeover, roles, restarts, device faults and pool audits
(R31, R32, R279 to R282, R291 to R299). -/

namespace Sys2Proof.Machine
open Sys2Proof

/-! ### Heartbeats (R281) -/

/-- Roles a hub reports: time-master, non-volatile write lock, key-store write role (R281). -/
def State.roles (s : State) (h : HubId) : Nat :=
  putBit (s.timeMaster == some h) 0 + putBit (s.hub h).nvLock.isSome 1 + putBit (s.hub h).keyRole.isSome 2

/-- HEARTBEAT_SEND: after each device-time multiple of 10 µs (R281). -/
def execHeartbeatSend (h : HubId) (s : State) : Host.Outcome State Fault Refusal :=
  .next (if s.strung then
    let idx := if h = s.active then s.mirror.committed else s.mirror.applied
    s.modHub h fun x => { x with hbSent := some (idx, x.hstate.toNat, s.roles h), hbCount := (x.hbCount + 1) % 65536 }
  else s)

/-- A role held is renewed by a heartbeat that shows it (R291). -/
def renewRole (held : Option Nat) (shown : Bool) (elapsed : Nat) : Option Nat :=
  if held.isSome && shown then some (elapsed + 200 * us) else held

/-- HEARTBEAT_RECEIVE: hub h takes the peer's state, roles and unit index; the roles shown are renewed (R281, R291). -/
def execHeartbeatReceive (h : HubId) (s : State) : Host.Outcome State Fault Refusal :=
  .next (match (s.hub (other h)).hbSent with
  | some (idx, st, roles) =>
    if s.strung then
      let t := s.gotStr (other h) StrType.heartbeat.code (heartbeatPayload idx st roles (s.hub (other h)).hbCount)
      let t := t.modHub h fun x => { x with peer := (st, roles, idx), hbAt := s.clk.elapsed, hbTime := s.clk.now, hbMiss := 0 }
      t.modHub (other h) fun x => { x with
        hbSent := none
        nvLock := renewRole x.nvLock (roles / 2 % 2 == 1) s.clk.elapsed
        keyRole := renewRole x.keyRole (roles / 4 % 2 == 1) s.clk.elapsed }
    else s
  | none => s)

/-- The elapsed instant by which the next Heartbeat must have arrived: 1 µs after the next multiple of 10 µs that none has answered
(R281). -/
def Hub.beatDue (x : Hub) : Nat := x.hbAt - x.hbTime % (10 * us) + (x.hbMiss + 1) * (10 * us) + us
/-- HEARTBEAT_MISSED: no intact Heartbeat by the multiple of 10 µs plus 1 µs (R281). -/
def execHeartbeatMissed (h : HubId) (s : State) : Host.Outcome State Fault Refusal :=
  let x := s.hub h
  .next (if s.variant.dual && x.present && x.up && decide (x.beatDue ≤ s.clk.elapsed) then
    s.modHub h fun y => { y with hbMiss := y.hbMiss + 1 }
  else s)

/-! ### Unplanned takeover (R292) -/

/-- LOSS_OF_ACTIVE_HUB: a READY standby that missed 8 heartbeats in a row has applied what is committed, drops the rest and stops
mirroring; with AUTO_TAKEOVER 1 it begins to claim (R292). What a stopped hub held back is lost with it; one that runs on goes on
holding back what no ACK has covered (R282, R294). -/
def execLossOfActiveHub (s : State) : Host.Outcome State Fault Refusal :=
  let o := other s.active
  .next (if s.standbyReady && decide (8 ≤ (s.hub o).hbMiss) && (s.hub o).tdet.isNone && !s.switching then
    let t := if s.serving then ({ s with mirror := { s.mirror with rx := none } } : State) else s.dropMirror
    if s.copy.redun.autoTakeover then t.modHub o fun x => { x with tdet := some s.clk.elapsed } else t
  else s)

/-- TAKEOVER_CLAIM_TIMEOUT: 200 µs after tdet some die's report still shows a live lease: the standby stops claiming and is
DETACHED, and the active hub has none to mirror to (R282, R292). -/
def execTakeoverClaimTimeout (s : State) : Host.Outcome State Fault Refusal :=
  let o := other s.active
  .next (match (s.hub o).tdet with
  | some t0 =>
    if t0 + 200 * us ≤ s.clk.elapsed ∧
        (s.presentDies.any fun d => reportHolder (s.lane o d) == s.active.val && decide (reportAge (s.lane o d) < 200)) = true then
      let t := (s.modHub o fun x => { x with tdet := none, hstate := .detached }).raise o .stringFault s.clk.now false []
      if s.serving then t.stopMirror else t
    else s
  | none => s)

/-- HSTATE of a hub that does not run: FAILED; in an S variant H0 is always ACTIVE (R279). -/
def State.stoppedState (s : State) : HState := if s.variant.dual then .failed else .active
/-- ACTIVE_HUB_STOP: the active hub stops, and its ports with it; the field dies run on from their queues (R293, R350). -/
def execActiveHubStop (s : State) : Host.Outcome State Fault Refusal :=
  .next (if s.serving then
    (s.modHub s.active fun x => { x with up := false, hstate := s.stoppedState }).stopPorts s.active
  else s)

/-! ### Mirroring (R279, R282) -/

/-- The standby takes mirror units in: it has not declared loss of the active hub (R292). -/
def State.applying (s : State) : Bool :=
  let o := s.hub (other s.active)
  o.tdet.isNone && decide (o.hbMiss < 8)
/-- MIRROR_FRAME_RECEIVE: the standby buffers the next mirror unit (R282). -/
def execMirrorFrameReceive (s : State) : Host.Outcome State Fault Refusal :=
  .next (if !s.applying then s else match s.mirror.wire, s.mirror.rx with
  | u :: _, none => s.sendStr s.active .mirror (Config.framePayload [3, u.idx]) fun t =>
      { t with mirror := { t.mirror with rx := some u } }
  | _, _ => s)

/-- MIRROR_COMMIT_RECEIVE: the commit frame arrives intact and in order, and the standby applies the unit (R282). -/
def execMirrorCommitReceive (s : State) : Host.Outcome State Fault Refusal :=
  .next (match s.mirror.rx with
  | some u => s.sendStr s.active .mirrorCommit (Config.framePayload [4, u.idx]) fun t =>
      let t := t.applyUnit u
      { t with mirror := { t.mirror with rx := none, wire := t.mirror.wire.tail } }
  | none => s)

/-- MIRROR_COMMIT_ACK: ACK covers the commit frames of the units applied, and the actions that waited for them go ahead
(R282). -/
def execMirrorCommitAck (s : State) : Host.Outcome State Fault Refusal :=
  .next (if s.strung && decide (s.mirror.acked < s.mirror.applied) then
    let t := { s with mirror := { s.mirror with acked := s.mirror.applied } }
    let t := t.releaseTo s.mirror.applied
    State.commit { s with mirror := { s.mirror with held := t.mirror.held } } t
  else s)

/-- The standby's page takes over what writes to the header of the active hub's page have made of it: LOCK, EV_ENABLE and FREEZE (R398,
R406). -/
def State.copyHdr (s : State) (r : Fin 12) : State :=
  let a := s.hdr (.hub s.active r)
  let p : PageRef := .hub (other s.active) r
  (s.modHdr p fun x => { x with enable := a.enable, locked := a.locked }).setFreeze p a.frozen.isSome
/-- The standby's pages take over every header (R398). -/
def State.copyHdrs (s : State) : State := (List.finRange 12).foldl State.copyHdr s

/-! ### Roles (R291) -/

/-- A role of a hub changed. -/
def Hub.setRole (x : Hub) (r : Role) (v : Option Nat) : Hub :=
  match r with
  | .nvLock => { x with nvLock := v }
  | .keyRole => { x with keyRole := v }
/-- A role of a hub. -/
def Hub.role (x : Hub) : Role → Option Nat
  | .nvLock => x.nvLock
  | .keyRole => x.keyRole

/-- ROLE_LEASE_RECEIVE: a Role lease frame from the other hub grants a role to hub h, or takes note that it is free (R291). -/
def execRoleLeaseReceive (h : HubId) (r : Role) (granted : Bool) (s : State) : Host.Outcome State Fault Refusal :=
  .next (s.sendStr (other h) .roleLease (Config.framePayload [5, h.val, putBit (r == .keyRole) 0, putBit granted 0]) fun t =>
    if granted then
      (t.modHub h (·.setRole r (some (s.clk.elapsed + 200 * us)))).modHub (other h) (·.setRole r none)
    else t.modHub h (·.setRole r none))

/-- ROLE_LEASE_EXPIRY: 200 µs after the last renewal (R291). -/
def execRoleLeaseExpiry (h : HubId) (r : Role) (s : State) : Host.Outcome State Fault Refusal :=
  .next (match (s.hub h).role r with
  | some t => if t ≤ s.clk.elapsed then s.modHub h (·.setRole r none) else s
  | none => s)

/-! ### Faults and restarts (R296 to R299) -/

/-- STRING_FAULT: three consecutive trainings of the String have failed, and it is FAILED: the standby is DETACHED, mirroring stops and
the active hub raises EV_STRING_FAULT. A retry that fails leaves the String FAILED (R279, R298). -/
def execStringFault (s : State) : Host.Outcome State Fault Refusal :=
  let o := other s.active
  .next (if s.variant.dual && s.mirror.str.st == .training && decide (3 ≤ s.mirror.str.failRun) then
    s.modLink .string fun l => { l with st := .failed, failAt := s.clk.elapsed }
  else if s.variant.dual && s.mirror.str.st == .training then
    let t := s.modLink .string fun l => { l with st := .failed, failRun := 3, failAt := s.clk.elapsed }
    let t := t.modHub o fun x => if x.up && (x.hstate == .ready || x.hstate == .syncing) then { x with hstate := .detached } else x
    let t := if s.serving then t.stopMirror.raise s.active .stringFault s.clk.now false [] else t
    State.commit s t
  else s)

/-- A snapshot or DOWN_EVENT record, of which no copy is ever skipped (R303, R438). -/
def LogRec.forced (r : LogRec) : Bool := r.code == 0x0FFE || r.code == 0x6FFE
/-- A copy that a restart of its hub does not lose: a snapshot or DOWN_EVENT record, or an event that is copied whatever BB_MASK holds, such
as the EV_POOL_MISMATCH for which the hub restarts (R299, R303). -/
def LogRec.kept (r : LogRec) : Bool := r.forced || alwaysCopied.contains r.code
/-- The log after a restart: the black box with the copies that it does not lose, those of staged records among them, and the return mark
stay; RAM and the counts start anew (R29, R303, R304). -/
def Log.restart (l : Log) : Log :=
  let m := l.drain 0
  { Log.reset with
    seq := m.seq
    bb := m.bb
    bbHead := m.bbHead
    bbWait := m.bbWait.filter LogRec.kept
    bbFrozen := m.bbFrozen
    returnMark := m.returnMark }

/-- The hub's mirrored state after a boot: pools at their sizes, counts at zero, registers at reset, keys from the store
(R29, R297, R363). -/
def Core.boot (c : Core) (n : NvStore) : Core := { Core.reset with nextId := c.nextId, keys := n.keys }

/-- A hub starts its restart: it behaves as at a power-up, and the boot counter increases (R297, R361). -/
def Hub.restart (x : Hub) (st : HState) : Hub :=
  { Hub.reset x.present st with booting := true, nv := { x.nv with boot := (x.nv.boot + 1) % 2 ^ 32 }, log := x.log.restart }

/-- EV_CAL_STORE_LOST for each bank that hub h found without a valid commit record, with the bank's identity (R201). -/
def State.lostBanks (s : State) (h : HubId) (n : NvStore) : State :=
  let t := if n.bankA.isNone then s.raise h .calStoreLost s.clk.now false (leBytes 1 0) else s
  if n.bankB.isNone then t.raise h .calStoreLost s.clk.now false (leBytes 1 1) else t
/-- Synchronisation after a restart of the hub that keeps time: UNLOCKED with EPOCH 0; SET stays (R297). -/
def State.syncAnew (s : State) : State :=
  let y := { TimeSync.reset with set := s.sync.set, freq := s.sync.freq, losses := s.sync.losses, quals := s.sync.quals }
  State.noteUsable s { s with sync := y }
/-- The String loses its books and trains again, as a lane does; the counts of its faults stay (R23, R29, R325). -/
def State.resetString (s : State) : State :=
  { s with mirror := { s.mirror with str := { Lane.reset with
    retrain := s.mirror.str.retrain, replays := s.mirror.str.replays, crc := s.mirror.str.crc } } }
/-- HUB_RESTART's effect: device time and SET go on, the synchronisation state starts in UNLOCKED with EPOCH 0, and the banks are chosen
anew; its lanes and the String train again. What the active hub held back is lost with its restart, and waits no longer for a standby
that restarts (R29, R201, R282, R297). -/
def State.restartHub (s : State) (h : HubId) : State :=
  let t := ((s.modHub h (·.restart s.stoppedState)).stopPorts h).resetString
  let t := if h = s.active then ({ t.dropMirror with core := s.core.boot (t.hub h).nv } : State).syncAnew
    else { t.stopMirror with copy := Core.reset }
  t.lostBanks h (s.hub h).nv

/-- HUB_SELF_CHECK_FAIL: a device fault of hub h, acted on by its source; the switched-over or standby hub restarts (R299). -/
def execHubSelfCheckFail (h : HubId) (s : State) : Host.Outcome State Fault Refusal :=
  .next (if (s.hub h).present && (s.hub h).up then State.commit s ((s.raiseFault s.active 1 (srcHub h)).hubFault h) else s)

/-! ### Pool checks (R31, R32) -/

/-- POOL_CHECK: at a 10 µs boundary die d checks its pool identities; with the first die that is on, each hub that runs checks
its own (R27, R28, R32). -/
def execPoolCheck (d : DieId) (s : State) : Host.Outcome State Fault Refusal :=
  .next (if s.poolsHeld && decide (s.clk.now % iv = 0) then
    State.commit s (s.poolMismatch (if d = s.checkDie then s.runningHubs else []) (if (s.die d).on then [d] else []) s.clk.now true)
  else s)

/-- POOL_AUDIT_SNAPSHOT: at the snapshot instant of the oldest `PoolAudit` under way every present die latches its pools, and
EV_POOL_AUDIT carries the result of each pool (R31, R389, R412). -/
def execPoolAuditSnapshot (s : State) : Host.Outcome State Fault Refusal :=
  .next (match s.core.audit with
  | (r, t) :: rest =>
    if s.serving && decide (t ≤ s.clk.now) then
      let mask := s.failMask s.runningHubs s.presentDies
      let s1 := s.modCore fun c => { c with
        audit := rest
        auditAt := t
        auditMask := BitVec.ofNat 32 mask
        auditCnt := satInc c.auditCnt }
      let s2 := s1.raiseSrc .poolAudit s.clk.now (srcHub s.active) (mask != 0) (leBytes 4 mask ++ leBytes 8 t) (some r.who)
      State.commit s (s2.poolMismatch s.runningHubs s.presentDies t false)
    else s
  | [] => s)

end Sys2Proof.Machine
end

