-- ==== Sys2Proof/Machine/EventLog.lean ====
section
/-! DEFINITION. The event log's writer, the black box and event datagrams (R300 to R303, R386, R438). -/

namespace Sys2Proof.Machine
open Sys2Proof

/-- The summary record of class k (R301, R302): CODE 0, the number counted, the first time, and as TIME the last. -/
def summaryRec (h : HubId) (k : Nat) (m : Summary) : LogRec where
  time := m.last
  code := 0
  source := srcHub h
  flags := m.quality % 4 + 8 * k + 128
  seq := 0
  data := leBytes 4 m.count ++ leBytes 8 m.first
  owner := none

/-- The summaries due when the queue has become empty (R301). -/
def Log.summaries (l : Log) (h : HubId) : List LogRec :=
  (List.finRange 8).filterMap fun k => (l.sums[k.val]).map (summaryRec h k.val)

/-- The summaries are written, one for each class counted since the last (R301). -/
def Log.writeSummaries (l : Log) (h : HubId) (mask : Nat) : Log :=
  if l.staged.isEmpty then
    let l1 := (l.summaries h).foldl (fun (x : Log) r => (x.write mask r).1) l
    { l1 with sums := Vector.replicate 8 none }
  else l

/-- A session wants a logged event: its class bit is set in EV_CLASSES, or the event completes a command of its own (R386). -/
def wants (evClasses : Nat) (r : LogRec) (w : Who) : Bool :=
  (evClasses >>> ((r.flags >>> 3) % 8)) % 2 == 1 || r.owner == some w

/-- A logged event enters the queue of 256 records of every session that receives it (R386). -/
def Core.deliverEvent (c : Core) (r : LogRec) : Core :=
  { c with
    sess := vmap c.sess fun i o => o.map fun x =>
      if wants x.evClasses r (.udp i x.epoch) && decide (x.evq.length < 256) then { x with evq := x.evq ++ [r] } else x
    spi :=
      if wants c.spi.evClasses r .spi && decide (c.spi.evq.length < 256) then { c.spi with evq := c.spi.evq ++ [r] } else c.spi }

/-- LOG_WRITE: the writer takes the oldest staged record; when the queue becomes empty it writes the summaries due (R300,
R301). Every logged event goes to the sessions, the standby's over the String (R386; without the String it reaches none: DESIGN CHOICE,
log 49). -/
def execLogWrite (h : HubId) (s : State) : Host.Outcome State Fault Refusal :=
  let x := s.hub h
  .next (match x.log.staged with
  | r :: rest =>
    if x.present && x.up then
      let mask := (s.coreOf h).logr.bbMask
      let (l, r1) := { x.log with staged := rest }.write mask r
      let t := s.modHub h fun y => { y with log := l.writeSummaries h mask }
      if decide (h = s.active) || s.strung then State.commit s (t.modCore (·.deliverEvent r1)) else t
    else s
  | [] => s)

/-- The oldest waiting copy is written to the next slot of the black box (R303). -/
def Log.copyNow (l : Log) (elapsed : Nat) : Log :=
  match l.bbWait with
  | r :: rest =>
    { l with bb := (r :: l.bb).take 1024, bbHead := (l.bbHead + 1) % 1024, bbWait := rest, bbLast := some elapsed }
  | [] => l

/-- BLACK_BOX_COPY: at least 100 µs after the previous copy began (R303). -/
def execBlackBoxCopy (h : HubId) (s : State) : Host.Outcome State Fault Refusal :=
  let x := s.hub h
  .next (if x.present && x.up && !x.log.bbFrozen && (match x.log.bbLast with | some t => decide (t + 100 * us ≤ s.clk.elapsed) | none => true) then
    s.modHub h fun y => { y with log := y.log.copyNow s.clk.elapsed }
  else s)

/-! ### The gate control list (R365) -/

/-- The gate windows of a port's cycle for class k, in µs: length and open. Entries run in order and are cut at the cycle's
end; the last entry's gates last to the end of the cycle, and GCL_LEN 0 leaves every gate open (R365, R374). -/
def gateWindows : List Word → Nat → Nat → List (Nat × Bool)
  | [], _, m => [(m, true)]
  | [e], k, m => [(m, bit e k)]
  | e :: f :: rest, k, m => (min (fld e 8 16) m, bit e k) :: gateWindows (f :: rest) k (m - min (fld e 8 16) m)
/-- The entries a port uses. -/
def PortRegs.list (r : PortRegs) : List Word := r.gcl.toList.take r.gclLen
/-- The gate windows of class k on a port. -/
def PortRegs.windows (r : PortRegs) (k : Nat) : List (Nat × Bool) := gateWindows r.list k r.cycle
/-- µs of the cycle in which the class 6 gate is open (R366). -/
def PortRegs.openUs (r : PortRegs) : Nat := (((r.windows 6).filter (·.2)).map (·.1)).sum

/-- Ticks for which the gate stays open from `off` ticks into the windows on; 0 while it is closed. -/
def openFor : List (Nat × Bool) → Nat → Nat
  | [], _ => 0
  | (n, o) :: rest, off =>
    if n * us ≤ off then openFor rest (off - n * us)
    else if o then n * us - off + openRun rest else 0
where
  openRun : List (Nat × Bool) → Nat
    | [] => 0
    | (n, o) :: rest => if o then n * us + openRun rest else 0

/-- A frame of class k can finish on port p before its gate closes (R365). -/
def State.gateFits (s : State) (k : Nat) (p : PortId) (octets : Nat) : Bool :=
  let r := s.core.net.ports[p.val]
  let x := s.net.ports[p.val]
  let w := r.windows k
  decide (w.all (·.2) = true) || decide (octets * 3000000 / Speed.rate x.speed ≤ openFor (w ++ w) (s.clk.now - x.cycleAt))

/-! ### Event datagrams -/

/-- A session on a port is cut off from the network: in mode 0 while that port is down, in modes 1 and 2 while both are (R353). -/
def State.cutOff (s : State) (p : PortId) : Bool :=
  if s.net.mode = 0 then !(s.net.ports[p.val]).link else !(s.net.ports[0]).link && !(s.net.ports[1]).link
/-- The newest key's KEY_ID, which tags events and stream blocks (R364). -/
def Core.newestKey (c : Core) : Nat := match c.keys with | k :: _ => k.1 | [] => 0

/-- Records waiting for the SPI session enter the tunnel as one message (R370, R386). -/
def State.spiEvents (s : State) : State :=
  let x := s.core.spi
  if x.evq.isEmpty then s
  else
    let m := s.message .spi 3 x.txSeq 0 false ((x.evq.take 44).flatMap LogRec.bytes)
    (s.modCore fun c => { c with spi := { c.spi with evq := c.spi.evq.drop 44, txSeq := (c.spi.txSeq + 1) % 2 ^ 32 } }).emit m

/-- A port takes and sends frames: it is enabled and has a link (R353, R374). -/
def State.portUp (s : State) (p : PortId) : Bool := (s.core.net.ports[p.val]).en && (s.net.ports[p.val]).link
/-- A datagram of class k leaves for a session on port p: on that port in mode 0, on either in modes 1 and 2, where the port has link
and its gate lets the frame finish (R352, R353, R365). -/
def State.classLeaves (s : State) (k : Nat) (p : PortId) (octets : Nat) : Bool :=
  (List.finRange 2).any fun q => (s.net.mode != 0 || q == p) && s.portUp q && s.gateFits k q octets

/-- EVENT_DATAGRAM_SEND: a datagram of KIND 3 with 1 to 44 of the records waiting for a session, in log order (R354, R386);
nothing reaches a session that is cut off, and the gate of class 5 lets it leave (R353, R365). -/
def execEventDatagramSend (w : Who) (s : State) : Host.Outcome State Fault Refusal :=
  .next (if s.serving then
    match w with
    | .udp i _ =>
      match s.core.sessOf w with
      | some x =>
        let body := (x.evq.take 44).flatMap LogRec.bytes
        if x.evq.isEmpty || !s.classLeaves 5 x.port (wireOctets body.length (s.net.mode == 1)) then s
        else
          let m := s.message w 3 x.txSeq s.core.newestKey false body
          State.commit s ((s.modCore (·.modSess i fun y => { y with evq := y.evq.drop 44, txSeq := (y.txSeq + 1) % 2 ^ 32 })).emit m)
      | none => s
    | .spi => State.commit s s.spiEvents
  else s)

end Sys2Proof.Machine
end

