-- ==== Sys2Proof/Machine/TimeSync.lean ====
section
/-! DEFINITION. Network synchronisation: the PTP ports and their best master clock decision, the synchronisation states,
slews and steps, SYNC_IN, and the commands and registers that load time and set ACCEPT (R36 to R57, R170, R435). -/

namespace Sys2Proof.Machine
open Sys2Proof

/-! ### Messages (R38 to R42, R45) -/

/-- The logMessageInterval is one the profile accepts (R38). -/
def intervalOk (act : Nat) (k : Int) : Bool :=
  if act = 1 then decide (-7 ≤ k ∧ k ≤ 0) else if act = 2 then decide (-7 ≤ k ∧ k ≤ 1) else false
/-- 2^k seconds in ticks. -/
def intervalTicks (k : Int) : Nat := if 0 ≤ k then sec * 2 ^ k.toNat else sec / 2 ^ (-k).toNat

/-- An offset in ACQUIRING is corrected: a slew up to STEP_THR, beyond it a step at ts (R45). -/
def State.correct (s : State) (offset : Int) : State :=
  if offset.natAbs ≤ s.core.time.stepThr then { s with sync := { s.sync with slew := -offset } }
  else { s with sync := { s.sync with step := some (tenAfterTwenty s.clk.now, -offset), slew := 0 } }

/-- In LOCKED the servo adjusts the frequency only, within ±200 ppm (R44); its law is open. -/
def State.servo (s : State) (offset : Int) : State :=
  let f := clampFreq (Config.servo s.free offset)
  { s.tickFree with sync := { s.sync with freq := f, freqs := (s.clk.elapsed, f) :: s.sync.freqs } }

/-- An offset measured on the SLAVE port moves the synchronisation state and is corrected; one between a step's decision and
ts is not used (R44, R45). -/
def State.measure (s : State) (offset : Int) : State :=
  let t := { s with sync := { s.sync with offset := offset } }
  if s.sync.step.isSome then t
  else match s.sync.st with
    | .acquiring =>
      let good := if offset.natAbs ≤ 60 then s.sync.good + 1 else 0
      if 16 ≤ good then
        let u := t.enterSync .locked (some .timeLock)
        { u with sync := { u.sync with slew := 0, set := true } }
      else
        let u := t.correct offset
        { u with sync := { u.sync with good := good } }
    | .locked =>
      let bad := if 3000 < offset.natAbs then s.sync.bad + 1 else 0
      if 4 ≤ bad then (t.enterSync .acquiring (some .timeLost)).correct offset
      else ({ t with sync := { t.sync with bad := bad } } : State).servo offset
    | _ => t

/-- A port whose profile is `act` uses messages that travel so: gPTP on IEEE 802.3 only, the default profile on its TRANSPORT (R38, R57). -/
def State.mediaOk (s : State) (p : PortId) (act : Nat) (m : PtpMedia) : Bool :=
  match act with
  | 1 => m == .ethernet
  | 2 => (match m with | .udp4 => 0 | .udp6 => 1 | .ethernet => 2) == (s.core.time.transport[p.val])
  | _ => true

/-- A port whose PROFILE is AUTO takes the profile of the first Announce it hears (R39). -/
def PtpPort.learn (x : PtpPort) (a : Announce) : PtpPort :=
  if x.act ≠ 0 then x
  else if a.majorSdoId = 1#4 then { x with act := 1, dom := 0 }
  else if a.majorSdoId = 0#4 ∧ a.domain.toNat ≤ 127 then { x with act := 2, dom := a.domain.toNat }
  else x
/-- A message of this profile and domain is one of the port's (R38, R39). -/
def PtpPort.hears (x : PtpPort) (sdo : BitVec 4) (domain : Byte) : Bool :=
  (x.act == 1 && sdo == 1#4 && domain == 0#8) || (x.act == 2 && sdo == 0#4 && domain.toNat == x.dom)

/-- SYNC_RECEIVE: a Sync of the port's domain with an accepted interval restarts the receipt timeout and gives an offset: on the SLAVE
port one that disciplines the counter, in role 2 and on a standby's own port one that is kept (R38, R42, R43, R45). -/
def execSyncReceive (p : PortId) (media : PtpMedia) (m : SyncMsg) (s : State) : Host.Outcome State Fault Refusal :=
  let x := s.sync.ports[p.val]
  .next (if s.ptpLive p && s.mediaOk p x.act media && x.hears m.majorSdoId m.domain && intervalOk x.act m.logInterval then
    let t := s.modPtp p fun y => { y with interval := intervalTicks m.logInterval, syncFrom := s.clk.elapsed, offset := m.offset }
    if x.st = .slave ∧ s.serving = true then State.commit s (t.measure m.offset) else t
  else s)

/-- ANNOUNCE_RECEIVE: it may choose the port's profile, and as qualified information it leads to a decision (R39, R40). -/
def execAnnounceReceive (p : PortId) (a : Announce) (s : State) : Host.Outcome State Fault Refusal :=
  let y := (s.sync.ports[p.val]).learn a
  .next (if s.ptpLive p && s.serving && s.mediaOk p y.act a.media then
    let t := State.noteMix s (s.modPtp p fun _ => y)
    if y.hears a.majorSdoId a.domain then
      State.commit s (t.modPtp p fun x => { x with
        ann := some a, annFrom := s.clk.elapsed, annInterval := intervalTicks a.logInterval }).bmca
    else State.commit s t
  else s)

/-- SYNC_RECEIPT_TIMEOUT: three intervals without a Sync on the SLAVE port (R38, R40). -/
def execSyncReceiptTimeout (p : PortId) (s : State) : Host.Outcome State Fault Refusal :=
  let x := s.sync.ports[p.val]
  .next (if x.st = .slave ∧ x.syncFrom + 3 * x.interval ≤ s.clk.elapsed ∧ s.serving = true then State.commit s (s.loseAnnounce p) else s)

/-- ANNOUNCE_RECEIPT_TIMEOUT: three Announce intervals without an Announce: the port's information is no longer held, and a
decision follows, by which a LISTENING port leaves that state too (R38, R40, R435). -/
def execAnnounceReceiptTimeout (p : PortId) (s : State) : Host.Outcome State Fault Refusal :=
  let x := s.sync.ports[p.val]
  .next (if (x.ann.isSome || x.st == .listening) && decide (x.annFrom + 3 * x.annInterval ≤ s.clk.elapsed) && s.serving then
    State.commit s (s.loseAnnounce p)
  else s)

/-- HOLDOVER_LIMIT: HOLDOVER has lasted HOLD_MAX, in Sleep as well (R44, R47, R338). -/
def execHoldoverLimit (s : State) : Host.Outcome State Fault Refusal :=
  .next (if s.sync.st = .holdover ∧ s.sync.since + s.core.time.holdMax * sec ≤ s.clk.elapsed ∧ s.ticking = true then
    State.commit s (s.enterSync .unlocked (some .timeLost))
  else s)

/-- TX_TIMESTAMP_MISSING: the third event message in a row has left without a transmit timestamp: the port is FAULTY (R435). -/
def execTxTimestampMissing (p : PortId) (s : State) : Host.Outcome State Fault Refusal :=
  .next (if s.ptpLive p then
    State.commit s (s.modPtp p fun x => { x with st := .faulty, faultyAt := s.clk.elapsed, ann := none }).bmca
  else s)

/-- FAULTY_END: after 1 s the port enters LISTENING (R435). -/
def execFaultyEnd (p : PortId) (s : State) : Host.Outcome State Fault Refusal :=
  let x := s.sync.ports[p.val]
  .next (if x.st = .faulty ∧ x.faultyAt + sec ≤ s.clk.elapsed then State.commit s (s.ptpRestart p false) else s)

/-! ### Steps (R45, R73, R123, R172, R173, R257) -/

/-- The next ledger boundary that counts is the first at or after t (R257). -/
def DieLedger.epochFrom (l : DieLedger) (t : Tick) : DieLedger := { l with epoch := ceilDiv t iv }

/-- An entry the step skips: its TIME or next occurrence lies in [ts, ts + Δ), or a SAMPLE or CAPTURE in progress (R45,
R73). -/
def Entry.skipped (e : Entry) (ts te : Tick) : Bool :=
  (e.phase != .active && decide (ts ≤ e.nextAt) && decide (e.nextAt < te)) ||
    (e.phase == .active && (e.e.op == 6 || e.e.op == 10) && decide (e.done < e.e.count.toNat) && decide (ts ≤ e.nextAt) &&
      decide (e.nextAt < te)) ||
    (e.phase == .active && (e.e.op == 1 || e.e.op == 2))

/-- The auxiliary converter at a step: what is in progress goes on in the new scale, and a conversion across the step is discarded (R45). -/
def Aux.step (a : Aux) (new : Tick) (delta : Int) : Aux :=
  let move (t : Tick) : Tick := ((t : Int) + delta).toNat
  { a with
    passFrom := new
    entry := a.entry.map fun e => (e.1, move e.2)
    injRun := a.injRun.map fun r => (r.1, r.2.1, r.2.2.1, move r.2.2.2.1, r.2.2.2.2)
    cutAt := (if a.entry.isSome || a.injRun.isSome then some new else none)
    suspAt := a.suspAt.map move
    clearAt := a.clearAt.map move }
/-- A die at a step: its replica follows, every chain restarts at ts + Δ and keeps its origin, the edges so far have come first, an
accumulation starts over, and skipped entries are missed (R45, R73, R173, R185, R214, R257). -/
def Die.step (d : Die) (ts new : Tick) (delta : Int) : Die :=
  let d1 := d.close (fun e => e.skipped ts (ts + delta.toNat)) .missed
  let move (t : Tick) : Tick := ((t : Int) + delta).toNat
  let d2 := allC.foldl (fun (x : Die) c => (x.restartFrom c (some ts) new).modCh c fun k =>
    { k.settleAll with
      din := { k.settleAll.din with
        filtAt := move k.din.filtAt
        enc := { k.settleAll.din.enc with la := k.settleAll.din.enc.la.map move, lb := k.settleAll.din.enc.lb.map move } }
      chain := { k.chain with lastCross := k.chain.lastCross.map move } }) d1
  { d2 with
    replica := move d.replica
    realign := 0
    bounds := [(0, new)]
    chans := d2.chans.map fun (k : Channel) => { k with seen := none }
    aux := d2.aux.step new delta
    car := { d2.car with cut := new, spares := d2.car.spares.map fun (p : Spare) => { p with slotFrom := new } }
    led := d2.led.epochFrom new }

/-- The codes of timestamps from before a step stay what they were, and from the new instant on the code in force counts (R52). -/
def TimeSync.stepQuals (y : TimeSync) (new : Tick) (q : Nat) : List (Tick × Nat) := (new, q) :: (if y.quals.isEmpty then [(0, q)] else y.quals)

/-- The intervals of time loss at a step: one that is over ends before the new scale begins, one that lasts begins with it at the latest,
and what lies ahead moves (R45, R73). -/
def lossStep (ts new : Tick) (delta : Int) (p : Tick × Option Tick) : Option (Tick × Option Tick) :=
  let move (t : Tick) : Tick := ((t : Int) + delta).toNat
  let start := if p.1 ≤ ts then min p.1 new else move p.1
  match p.2 with
  | some b => if b ≤ ts then (if p.1 < new then some (p.1, some (min b new)) else none) else some (start, some (move b))
  | none => some (start, none)
/-- A step of Δ at ts: every island moves, skipped entries at the hub are missed, the mains grid's origin moves, resets that were skipped
apply at once, EPOCH counts and EV_TIME_STEP tells (R45, R123, R172). That the first crossing after the step interpolates from the last
axis sample as it stands, in the old scale, is a DESIGN CHOICE too (R166; log 70). That the instant of such a reset is ts + Δ, the new
scale's name of ts, and not its tr, is a DESIGN CHOICE (log 70). -/
def State.stepTime (s : State) (ts : Tick) (delta : Int) : State :=
  let now := ((s.clk.now : Int) + delta).toNat
  let new := ((ts : Int) + delta).toNat
  let te := ts + delta.toNat
  let late := (s.core.entries.filter fun e => e.unqueued && e.skipped ts te).map (·.id)
  let s1 := { s with
    dies := s.dies.map fun (d : Die) => if d.present then d.step ts new delta else d
    sync := { s.sync with step := none, slew := 0, losses := s.sync.losses.filterMap (lossStep ts new delta), quals := s.sync.stepQuals new s.quality, epoch := (s.sync.epoch + 1) % 2 ^ 32 } }
  let s2 := s1.raise s.active .timeStep ts false (leBytes 8 (BitVec.ofInt 64 delta).toNat ++ leBytes 4 s1.sync.epoch)
  let s3 := { s2 with clk := { s2.clk with now := now, peer := ((s.clk.peer : Int) + delta).toNat } }
  let s4 := (s3.outcomes late .missed).modCore fun c => { c with mains := c.mains.step new delta }
  let due := (s4.core.resets.filter fun p => decide (ts ≤ p.1) && decide (p.1 < te)).insertionSort fun a b => a.1 ≤ b.1
  let s5 := s4.modCore fun c => { c with resets := c.resets.filter fun p => !(decide (ts ≤ p.1) && decide (p.1 < te)) }
  let s6 := due.foldl (fun (x : State) p => x.decimate new p.2) s5
  s.presentDies.foldl State.settlePools s6

/-- TIME_STEP at ts (R45). -/
def execTimeStep (s : State) : Host.Outcome State Fault Refusal :=
  .next (match s.sync.step with
  | some (ts, delta) => if ts ≤ s.clk.now then State.commit s (s.stepTime ts delta) else s
  | none => s)

/-! ### SYNC_IN (R53, R170) -/

/-- A decimator reset to come; two with the same tr are one (R170, R172). -/
def State.addReset (s : State) (tr : Tick) (src : Nat) : State :=
  s.modCore fun c => if c.resets.any (·.1 == tr) then c else { c with resets := c.resets ++ [(tr, src)] }

/-- SYNC_IN_EDGE: a rising edge after `lowFor` ticks low that stays high for `highFor`: with 20 ns each it is a counted edge,
ignored within 1 µs of the last accepted one; else it is stamped and counted, and a decimator reset follows (R53, R170). -/
def execSyncInEdge (lowFor highFor : Nat) (s : State) : Host.Outcome State Fault Refusal :=
  .next (if s.serving && decide (60 ≤ lowFor) && decide (60 ≤ highFor) then
    if (match s.sync.syncLast with | some t => decide (s.clk.elapsed < t + us) | none => false) = true then
      { s with sync := { s.sync with syncIgn := satTo 65535 (s.sync.syncIgn + 1) } }
    else
      let te := s.clk.now
      let t := { s with sync := { s.sync with syncIn := te, syncAcc := satTo 65535 (s.sync.syncAcc + 1), syncLast := some s.clk.elapsed } }
      State.commit s ((t.raiseNow .syncIn []).addReset (nextMultiple 125 (te + us)) 0)
  else s)

/-! ### `TimeStatus` (R37, R45, R47, R390) -/

/-- The response of `TimeStatus` (R390). -/
def State.timeBody (s : State) : List Byte :=
  leBytes 1 s.sync.st.toNat ++ leBytes 1 (putBit s.sync.set 0 + putBit s.usable 1 + putBit s.core.time.accept 2) ++
    leBytes 2 (s.sync.epoch % 65536) ++ leBytes 8 s.clk.now ++ leBytes 4 (sat32 s.sync.offset).toNat ++ leBytes 8 s.sync.gm.toNat ++
    leBytes 2 s.lockAge

/-- TIME_STATUS_READ (R390). -/
def execTimeStatusRead (r : Req) (s : State) : Host.Outcome State Fault Refusal :=
  .next (s.command r 0x0090 fun s => (s, resp 0x0090 .ok s.timeBody))

/-- TIME_STATUS_LOAD: only in UNLOCKED, applied as a step at ts; SET becomes 1 (R37, R45, R390). While a step is decided and
not yet applied the load is refused with ZS_BUSY; a 2.x session has operation 0 only (R392). -/
def execTimeStatusLoad (r : Req) (t : Dword) (s : State) : Host.Outcome State Fault Refusal :=
  .next (s.command r 0x0090 fun s =>
    if s.isV2 r.who = true then (s, resp 0x0090 .version [])
    else if s.sync.st = .unlocked ∧ s.sync.step = none then
      let ts := tenAfterTwenty s.clk.now
      let u := { s with sync := { s.sync with step := some (ts, (t.toNat : Int) - ts), slew := 0, set := true } }
      (u, resp 0x0090 .ok u.timeBody)
    else (s, resp 0x0090 .busy []))

/-- TIME_STATUS_WRITE_ACCEPT (R47, R390); it would write the page TIME, so ZS_BUSY while that page is locked (R406). -/
def execTimeStatusWriteAccept (r : Req) (v : Byte) (s : State) : Host.Outcome State Fault Refusal :=
  .next (s.command r 0x0090 fun s =>
    if s.isV2 r.who = true then (s, resp 0x0090 .version [])
    else if (s.hdr (.hub s.active 1)).locked then (s, resp 0x0090 .busy [])
    else if v.toNat ≤ 1 then
      let u := s.writeAccept (decide (v = 1#8))
      (u, resp 0x0090 .ok u.timeBody)
    else (s, resp 0x0090 .badArg []))

end Sys2Proof.Machine
end

