-- ==== Sys2Proof/Machine/Access.lean ====
section
/-! DEFINITION. How a register write reaches its register: the active hub, power, the standby's read-only pages and the page
lock (R5, R26, R327, R372, R398, R405, R406). -/

namespace Sys2Proof.Machine
open Sys2Proof

/-- The block that a page belongs to is in the package (R2, R5). -/
def State.pageThere (s : State) : PageRef → Bool
  | .hub h _ => decide (h = 0) || s.variant.dual
  | .die d _ => (s.die d).present

/-- The path leads to the active hub: a standby's host SPI port discards every write (R372). -/
def State.pathOpen (s : State) : Path → Bool
  | .spi h => decide (h = s.active)
  | _ => true

/-- The page belongs to the hub that is not active: it is read-only (R398). -/
def State.standbyPage (s : State) : PageRef → Bool
  | .hub h _ => decide (h ≠ s.active)
  | .die _ _ => false

/-- The active hub answers register accesses (R325, R342). -/
def State.answers (s : State) : Bool := s.act.present && s.act.up && s.power.st != .off && s.power.boot == .complete

/-- The page's lock turns a write away: every register but LOCK and EV_CLEAR (R406). -/
def State.lockedAt (s : State) (pg : PageRef) (off : Nat) : Bool := (s.hdr pg).locked && off != 0x28 && off != 0x18

/-- A write to a location without power is discarded and counted (R327). -/
def State.offWrite (s : State) : State := s.modHub s.active fun h => { h with offWrites := satInc h.offWrites }

/-- The offset holds a register: a write to a reserved location is ignored and recorded nowhere (R397). -/
def State.regAt (s : State) (pg : PageRef) (off : Nat) : Bool :=
  if off < 0x40 then decide (off < 0x30 ∧ off % 4 = 0) else (s.pageRegs pg).any (·.off == off)

/-- A register write reaches its register, or is discarded on the way. -/
def State.access (s : State) (p : Path) (pg : PageRef) (off : Nat) (f : State → State) : State :=
  if !s.answers || !s.pathOpen p || !s.pageThere pg then s
  else if !s.locOn pg off then s.offWrite
  else if !s.regAt pg off then s
  else if s.standbyPage pg then s.rejectAt pg 5 p off
  else if !s.pageHeard pg off then s.unheard pg
  else if s.lockedAt pg off then s.rejectAt pg 2 p off
  else f s

/-- A write that reaches a register, and everything it changed, is mirrored (R282, R398). -/
def State.accessed (s : State) (p : Path) (pg : PageRef) (off : Nat) (f : State → State) : State :=
  State.commit s (s.access p pg off f)

/-- A header write, which the standby's page replays (R398). -/
def State.hdrWrite (s : State) (pg : PageRef) (off : Nat) (w : Word) : State :=
  let t := s.writeHdr pg off w
  match pg with
  | .hub h r => if h = s.active then { t with mirror := { t.mirror with wr := t.mirror.wr ++ [(r.val, off, w)] } } else t
  | .die _ _ => t

/-- A page of the active hub or of a die is locked, so a command that would write it is refused with ZS_BUSY (R406). -/
def State.pageLocked (s : State) (pg : PageRef) : Bool := (s.hdr pg).locked

end Sys2Proof.Machine
end

