-- ==== Sys2Proof/Machine/Watchdog.lean ====
section
/-! DEFINITION. The Tin Soldier: service, violations and their actions, and configuration (R310 to R322). -/

namespace Sys2Proof.Machine
open Sys2Proof

/-- The watchdog's page of a hub. -/
def tsoldPage (h : HubId) : PageRef := .hub h 5

/-- Service keys (R312). -/
def keyA : Word := 0x6A17#32
def keyB : Word := 0x95E8#32

/-- The kinds of violation (R315). -/
inductive Violation where
  | early | late | seq
  deriving DecidableEq, Repr

/-- The event of a violation (R315). -/
def Violation.ev : Violation → Ev
  | .early => .wdogEarly
  | .late => .wdogLate
  | .seq => .wdogSeq

/-- The action set for a violation (R315, R320). -/
def Wdog.action (w : Wdog) : Violation → Nat
  | .early => w.actEarly
  | .late => w.actLate
  | .seq => w.actSeq

/-- The violation is counted, and a waived period starts at `start`, disarmed (R311, R313, R315). -/
def Wdog.violate (w : Wdog) (v : Violation) (start : Nat) : Wdog :=
  let w1 := w.restart start true
  match v with
  | .early => { w1 with earlyCnt := satInc w.earlyCnt }
  | .late => { w1 with lateCnt := satInc w.lateCnt, lateAt := some start }
  | .seq => { w1 with seqCnt := satInc w.seqCnt }

/-- Action 1: the WATCHDOG request level for every channel of every present die (R110, R315). -/
def State.fieldSafe (s : State) : State :=
  s.modCore fun c => { c with levels := vmap c.levels fun d v => if (s.die d).present then v.map fun (x : Levels) => { x with wdog := true } else v }

/-- The action of a code (R315). -/
def State.wdAction (s : State) (code : Nat) : State :=
  match code with
  | 1 => s.fieldSafe
  | 2 => if s.standbyReady then s.startSwitchover 1 none else s.fieldSafe
  | 3 => s.restartHub s.active
  | _ => s

/-- A violation: its event, its count, a waived period, and its action (R311, R315). -/
def State.wdViolate (s : State) (v : Violation) (start : Nat) : State :=
  let code := s.core.wd.action v
  let t := s.modCore fun c => { c with wd := c.wd.violate v start }
  (t.raiseNow v.ev []).wdAction code

/-- At an elapsed instant n has reached P in the running period (R314). -/
def State.wdIsLate (s : State) (at_ : Nat) : Bool := s.serving && s.core.wd.running && decide (s.core.wd.p ≤ s.core.wd.n at_)
/-- The late violation at n = P, if it is due (R314). -/
def State.wdCatchUp (s : State) (at_ : Nat) : State :=
  if s.wdIsLate at_ then s.wdViolate .late (s.core.wd.start + s.core.wd.p * us) else s

/-- WATCHDOG_LATE: n reaches P without a valid service (R314, R318). -/
def execWatchdogLate (s : State) : Host.Outcome State Fault Refusal :=
  .next (if s.wdIsLate s.clk.elapsed then State.commit s (s.wdCatchUp s.clk.elapsed) else s)

/-- The outcome of a write to SERVE in the register cycle at an elapsed instant: 0 valid or armed, 1 early, 2 sequence, 3 late, 4
ignored (R313, R391). -/
def State.serveNow (s : State) (v : Word) (at_ : Nat) : State × Nat :=
  let w := s.core.wd
  if !w.running then (s, 4)
  else if !w.armed then
    (if v = keyA then (s.modCore fun c => { c with wd := { c.wd with armed := true } }, 0)
     else (s.wdViolate .seq at_, 2))
  else if v ≠ keyB then (s.wdViolate .seq at_, 2)
  else if w.n at_ < w.c then (s.wdViolate .early at_, 1)
  else (s.modCore fun c => { c with wd := c.wd.restart at_ false }, 0)

/-- A write to SERVE in the register cycle at an elapsed instant. A late violation that is due comes first; KEY_B in its register cycle is
part of it, and any other write is judged in the period it starts (R313, R314). -/
def State.serveAt (s : State) (v : Word) (at_ : Nat) : State × Nat :=
  let t := s.wdCatchUp at_
  if v = keyB ∧ (t.core.wd.lateAt = some at_ ∨ (s.wdIsLate at_ = true ∧ s.core.wd.start + s.core.wd.p * us = at_)) then (t, 3)
  else t.serveNow v at_
/-- A write to SERVE now. -/
def State.serve (s : State) (v : Word) : State × Nat := s.serveAt v s.clk.elapsed

/-- SERVE_KEY_A (R312, R313). -/
def execServeKeyA (p : Path) (h : HubId) (s : State) : Host.Outcome State Fault Refusal :=
  .next (s.accessed p (tsoldPage h) 0x48 fun s => (s.serve keyA).1)
/-- SERVE_KEY_B (R312, R313). -/
def execServeKeyB (p : Path) (h : HubId) (s : State) : Host.Outcome State Fault Refusal :=
  .next (s.accessed p (tsoldPage h) 0x48 fun s => (s.serve keyB).1)
/-- SERVE_OTHER_VALUE (R313). -/
def execServeOtherValue (p : Path) (h : HubId) (v : Word) (s : State) : Host.Outcome State Fault Refusal :=
  .next (s.accessed p (tsoldPage h) 0x48 fun s => (s.serve v).1)

/-! ### Configuration (R316) -/

/-- A write rejected outside the open window is counted, with its event (R316). -/
def State.wdReject (s : State) : State :=
  (s.modCore fun c => { c with wd := { c.wd with rejectCnt := satInc c.wd.rejectCnt } }).raiseNow .wdogCfgReject []

/-- Configuration is accepted now: EN is 0, or n is in the open window (R316). -/
def State.wdAccepts (s : State) : Bool := !s.core.wd.en || (s.core.wd.running && s.core.wd.open s.clk.elapsed)

/-- Action code 2 in a field of CTRL in an S variant (R315). -/
def State.wdCode2 (s : State) (w : Word) : Bool := !s.variant.dual && (fld w 2 2 == 2 || fld w 4 2 == 2 || fld w 6 2 == 2)

/-- The action fields of CTRL take effect; in an S variant a field written 2 keeps its value (R315, R433). -/
def Wdog.setActions (x : Wdog) (dual : Bool) (w : Word) : Wdog :=
  let f (lo old : Nat) : Nat := if !dual && fld w lo 2 == 2 then old else fld w lo 2
  { x with actEarly := f 2 x.actEarly, actLate := f 4 x.actLate, actSeq := f 6 x.actSeq }

/-- A write of CTRL: the new state and whether it was accepted. Setting EN starts a waived period; EN cannot be cleared; a hub that a late
violation restarts takes no write (R311, R315, R316, R320). -/
def State.tsoldCtrl (s : State) (w : Word) : State × Bool :=
  let s := s.wdCatchUp s.clk.elapsed
  if !s.serving then (s, false)
  else if s.wdAccepts then
    let x := s.core.wd.setActions s.variant.dual w
    let x := if !s.core.wd.en && bit w 0 then { x.restart s.clk.elapsed true with en := true } else x
    (s.modCore fun c => { c with wd := x }, true)
  else (s.wdReject, false)

/-- A PERIOD value in range (R316, R321). -/
def wdPeriodOk (w : Word) : Bool := decide (1000 ≤ fld w 0 24) && decide (fld w 0 24 ≤ 10000000) && decide (fld w 24 8 ≤ 224)

/-- A write of PERIOD in range: at once while EN is 0, into PEND in the open window, else rejected (R316). -/
def State.tsoldPeriod (s : State) (w : Word) : State × Bool :=
  let s := s.wdCatchUp s.clk.elapsed
  if !s.serving then (s, false)
  else if !s.core.wd.en then (s.modCore fun c => { c with wd := { c.wd with p := fld w 0 24, close := fld w 24 8 } }, true)
  else if s.wdAccepts then (s.modCore fun c => { c with wd := { c.wd with pend := some (fld w 0 24, fld w 24 8) } }, true)
  else (s.wdReject, false)

/-- A register write of CTRL records a code 2 of an S variant (R315, R405). -/
def State.tsoldCtrlWrite (s : State) (p : Path) (w : Word) : State :=
  let t := (s.tsoldCtrl w).1
  if s.wdCode2 w then t.rejectAt (tsoldPage s.active) 7 p 0x40 else t
/-- A register write of PERIOD out of range is ignored and recorded (R316). -/
def State.tsoldPeriodWrite (s : State) (p : Path) (w : Word) : State :=
  if wdPeriodOk w then (s.tsoldPeriod w).1 else s.rejectAt (tsoldPage s.active) 1 p 0x44

/-- TSOLD_EN_SET: CTRL is written, with EN (R316). -/
def execTsoldEnSet (p : Path) (h : HubId) (w : Word) (s : State) : Host.Outcome State Fault Refusal :=
  .next (s.accessed p (tsoldPage h) 0x40 fun s => s.tsoldCtrlWrite p w)
/-- TSOLD_ACTION_WRITE: CTRL is written, for its action fields (R316). -/
def execTsoldActionWrite (p : Path) (h : HubId) (w : Word) (s : State) : Host.Outcome State Fault Refusal :=
  .next (s.accessed p (tsoldPage h) 0x40 fun s => s.tsoldCtrlWrite p w)
/-- TSOLD_PERIOD_WRITE (R316). -/
def execTsoldPeriodWrite (p : Path) (h : HubId) (w : Word) (s : State) : Host.Outcome State Fault Refusal :=
  .next (s.accessed p (tsoldPage h) 0x44 fun s => s.tsoldPeriodWrite p w)

/-! ### Commands (R391) -/

/-- A command's response, unless its own action stopped the hub. -/
def State.ifServing (s : State) (x : Response) : State × Option Response := (s, if s.serving then some x else none)

/-- WATCHDOG_CONFIGURE: PERIOD and then CTRL; out of range ZS_BAD_ARG; outside the open window ZS_BUSY, with what was accepted
(R316, R391); ZS_BUSY with a locked page (R406). -/
def execWatchdogConfigure (r : Req) (period ctrl : Word) (which : Byte) (s : State) : Host.Outcome State Fault Refusal :=
  .next (s.commandLater r 0x0061 fun s =>
    let wp := which.getLsbD 0
    let wc := which.getLsbD 1
    if s.pageLocked (tsoldPage s.active) then (s, some (resp 0x0061 .busy []))
    else if (wp && !wdPeriodOk period) || (wc && s.wdCode2 ctrl) then (s, some (resp 0x0061 .badArg []))
    else
      let a := if wp then s.tsoldPeriod period else (s, true)
      let b := if wc then a.1.tsoldCtrl ctrl else (a.1, true)
      let body := leBytes 1 (putBit (wp && a.2) 0 + putBit (wc && b.2) 1)
      b.1.ifServing (resp 0x0061 (if a.2 && b.2 then .ok else .busy) body))

/-- WATCHDOG_SERVE: KEY_A now and KEY_B in the next register cycle, one tick later; ZS_OK whatever the outcome, which is KEY_A's where
that is a violation or ignored (R314, R391). -/
def execWatchdogServe (r : Req) (s : State) : Host.Outcome State Fault Refusal :=
  .next (s.commandLater r 0x0062 fun s =>
    if s.pageLocked (tsoldPage s.active) then (s, some (resp 0x0062 .busy []))
    else
      let a := s.serve keyA
      let b := if a.1.serving then a.1.serveAt keyB (s.clk.elapsed + 1) else a
      b.1.ifServing (resp 0x0062 .ok (leBytes 1 (if a.2 = 0 then b.2 else a.2))))

end Sys2Proof.Machine
end

