-- ==== Sys2Proof/Machine/PowerSt.lean ====
section
/-! DEFINITION. Power states: requests and their handshake, entry, wake, Idle, power-up, power-down and hub restarts (R297,
R323 to R349, R421, R422). -/

namespace Sys2Proof.Machine
open Sys2Proof

/-! ### Idle (R324) -/

/-- IDLE_ENTRY: the hub's controller has nothing pending; a command or access that one step serves leaves nothing pending behind it
(R324). -/
def execIdleEntry (h : HubId) (s : State) : Host.Outcome State Fault Refusal :=
  .next (if (s.hub h).up && s.awake && s.quiet h then s.modHub h fun x => { x with idle := true } else s)
/-- IDLE_EXIT (R324). -/
def execIdleExit (h : HubId) (s : State) : Host.Outcome State Fault Refusal :=
  .next (s.modHub h fun x => { x with idle := false })

/-! ### Wake sources (R333 to R336) -/

/-- A field of WAKE_CFG (R347). -/
def State.wakeBit (s : State) (i : Nat) : Bool := bit (BitVec.ofNat 32 s.core.pwr.wakeCfg) i
/-- The source acts in a target state (R333): 0 WAKE_N, 1 alarm, 2 and 3 link energy, 4 and 5 wake pattern. -/
def sourceActs (src : Nat) (target : PwrState) : Bool :=
  match target with
  | .sleep => decide (src ≤ 3)
  | .deepSleep => decide (src ≤ 1) || src == 4 || src == 5
  | .off => src == 0
  | _ => false
/-- The source is enabled (R347). -/
def State.sourceOn (s : State) (src : Nat) : Bool :=
  match src with
  | 0 => s.wakeBit 0 | 1 => s.wakeBit 2 | 2 => s.wakeBit 4 | 3 => s.wakeBit 5 | 4 => s.wakeBit 6 | _ => s.wakeBit 7
/-- The source is configured as a level (R333, R347). -/
def State.sourceLevel (s : State) (src : Nat) : Bool :=
  match src with
  | 0 => s.wakeBit 1 | 1 => s.wakeBit 3 | 2 => true | 3 => true | _ => false
/-- A level source asserted now, of those whose level the device holds: WAKE_N low, and the alarm from its time on (R333). -/
def State.assertedNow (s : State) (target : PwrState) : Option Nat :=
  let on (k : Nat) : Bool := sourceActs k target && s.sourceOn k && s.sourceLevel k
  if on 0 && s.power.wakeN then some 0 else if on 1 && decide (s.core.pwr.alarm ≤ s.clk.now) then some 1 else none

/-! ### Requests and the handshake (R328, R329) -/

/-- An entry, a wake or a power-down is in progress (R328). -/
def Power.busy (p : Power) : Bool := p.req.isSome || p.waking.isSome || p.step != 0

/-- The response to a power request, if it has a requester. -/
def State.answerPower (s : State) (r : Option Req) (x : Response) : State :=
  match r with
  | some q => s.respond q x
  | none => s

/-- A die in scope of a request. -/
def PwrReq.inScope (r : PwrReq) (d : DieId) : Bool := match r.die with | some x => decide (x = d) | none => true
/-- The dies in scope. -/
def State.scopeDies (s : State) (r : PwrReq) : List DieId := s.presentDies.filter r.inScope
/-- The blocks asked to grant (R329). -/
def State.pwrBlocks (s : State) (r : PwrReq) : List PwrBlock :=
  [.rom, .schedule, .nvStore, .ports] ++ (if s.variant.dual then [.standby] else []) ++ (s.scopeDies r).map PwrBlock.die

/-- The reason for which a block must refuse (R329). -/
def State.mustRefuse (s : State) (r : PwrReq) (b : PwrBlock) : Option Nat :=
  match b with
  | .die d =>
    let k := s.die d
    if r.target = .deepSleep ∧ k.allowSafe = false then some 1
    else if (List.finRange 2).any (fun h => (s.hub h).present && (s.lane h d).st == .failed) then some 5
    else if (allC.any fun c => (k.chan c).cal.point.isSome) then some 6
    else none
  | .rom =>
    let ok := [0, 1, 2, 3].any fun k => sourceActs k r.target && s.sourceOn k && s.sourceLevel k
    if (r.target = .deepSleep ∨ r.target = .off) ∧ ok = false then some 2 else none
  | .standby =>
    let x := s.hub (other s.active)
    if x.hstate = .syncing ∨ x.hstate = .detached then some 3 else if x.hstate = .failed ∨ x.up = false then some 5 else none
  | .ports =>
    let executing := !s.core.cmdq.isEmpty || !s.core.cancels.isEmpty || s.switching || s.allChans.any fun ch => (s.chan ch).cal.point.isSome
    if r.die.isNone && executing then some 7 else none
  | _ => none

/-- The block must delay: a lane of either hub or the String in training, an uncommitted mirror unit, an open VREQ transaction. The lanes
to a die in Deep Sleep are Off and train with its wake (R325, R329). -/
def State.mustDelay (s : State) (b : PwrBlock) : Bool :=
  match b with
  | .die d => (s.die d).pwr != .deepSleep && (List.finRange 2).any fun h => (s.hub h).present && (s.lane h d).st == .training
  | .standby => s.mirror.str.st == .training || decide (s.mirror.acked < s.mirror.committed)
  | .rom => s.power.straps.psel && s.hubs.toList.any fun h => h.change.isSome
  | _ => false

/-- The page whose header PWR_REFUSE_REASON is the block's (R329, R399). -/
def State.blockPage (s : State) (b : PwrBlock) : PageRef :=
  match b with
  | .die d => .die d 0
  | .rom => .hub s.active 4
  | .schedule => .hub s.active 2
  | .nvStore => .hub s.active 0
  | .ports => .hub s.active 10
  | .standby => .hub (other s.active) 0

/-- No entry is in progress any longer. -/
def State.clearReq (s : State) : State :=
  { s with
    power := { s.power with req := none }
    dies := s.dies.map fun (k : Die) => { k with pwrBusy := false } }

/-- A refusal ends the handshake: LAST_REFUSE and the block's header hold the reason, and the request returns ZS_BUSY (R329,
R376, R391). -/
def State.refusePower (s : State) (r : PwrReq) (b : PwrBlock) (reason : Nat) : State :=
  let t := s.clearReq.modHdr (s.blockPage b) fun h => { h with refuse := reason }
  let t := { t with power := { t.power with lastRefuse := (reason, blockCode b) } }
  t.answerPower r.req ⟨0x0060, .busy, reason, leBytes 1 (blockCode b)⟩

/-- An enabled wake event before tc aborts the entry: every block is in Run, and EV_PWR_ABORT records the source (R337). -/
def State.abortPower (s : State) (r : PwrReq) (src : Nat) : State :=
  let t := { s.clearReq with power := { s.power with req := none, rtcFrom := none } }.raiseNow .pwrAbort (leBytes 1 src)
  if r.tc.isNone then t.answerPower r.req (resp 0x0060 .busy []) else t

/-! ### Power-down (R343, R344, R348) -/

/-- DOWN_EVENT as it stands (R348). -/
def downWord (step cause : Nat) (yoyo : Bool) : Nat := putBit yoyo 6 + putFld cause 4 2 + putBit (step == 5) 3 + putFld step 0 3

/-- A step begins: DOWN_EVENT records it, and a copy goes to each hub's black box (R303, R343, R344, R438). -/
def State.noteDown (s : State) (step cause : Nat) : State :=
  let w := downWord step cause (bit (BitVec.ofNat 32 s.power.downEvent) 6 && step != 1)
  { s with
    power := { s.power with step := step, stepAt := s.clk.elapsed, downEvent := w }
    hubs := vmap s.hubs fun h x =>
      if x.present && x.up then { x with log := x.log.boxRecord 0x6FFE s.clk.now (srcHub h) s.quality (leBytes 4 w) } else x }

/-- Step 1: admission stops (R83, R343). -/
def State.beginDown (s : State) (cause : Nat) : State :=
  (s.modCore fun c => { c with sched := { c.sched with admits := false } }).noteDown 1 cause

/-- Every block has granted, at tg: ZS_OK with tc; Sleep abandons the visits of the dies in scope, then and not at the completion of
entry, so that an entry aborted later has ended them too (R188, R330: DESIGN CHOICE, log 48); Deep Sleep sets DEEP_SLEEP on them,
and for the package loads the real-time clock (at tg: DESIGN CHOICE, log 2); Off starts the power-down (R188, R329, R330, R343). -/
def State.grantPower (s : State) (r : PwrReq) : State :=
  let tc := tenAfterTwenty s.clk.now
  let t := s.answerPower r.req (resp 0x0060 .ok (leBytes 8 tc))
  if r.target = .off then t.clearReq.beginDown 1
  else
    let t := (s.scopeDies r).foldl (fun (x : State) d => x.modDie d fun k =>
      if r.target = .deepSleep then k.setCauses d (s.dq d) 5 allC else k.endVisits d (s.dq d) allC 4) t
    { t with power := { t.power with
      req := some { r with tc := some tc }
      rtcFrom := (if r.target = .deepSleep ∧ r.die = none then some s.clk.now else t.power.rtcFrom) } }

/-- At tq each port notes whether it has a link, in which case its energy source is not armed before energy has been absent (R334). -/
def State.armEnergy (s : State) : State :=
  { s with net := { s.net with ports := s.net.ports.map fun (x : NetPort) => { x with linkAtTq := x.link, energyOff := none } } }

/-- A request for a power state, which the package takes in Run only (R328, R329): a wake of a die starts at once; an entry opens the
handshake; a level wake source that is asserted aborts it (R337). -/
def State.askPower (s : State) (q : Option Req) (target scope die : Nat) : State :=
  let bad := s.answerPower q (resp 0x0060 .badArg [])
  let busy := s.answerPower q (resp 0x0060 .busy [])
  if !s.awake then bad
  else if scope = 0 then
    match PwrState.ofCode target with
    | some t =>
      if die ≠ 0 ∨ (t ≠ .sleep ∧ t ≠ .deepSleep ∧ t ≠ .off) then bad
      else if s.power.busy then busy
      else
        let r : PwrReq := ⟨t, none, q, s.clk.elapsed, [], none, none, none⟩
        let u := { s.armEnergy with power := { s.power with req := some r } }
        match s.assertedNow t with
        | some src => u.abortPower r src
        | none => u
    | none => bad
  else if scope = 1 then
    match s.dieOf die, PwrState.ofCode target with
    | some d, some t =>
      let now := (s.die d).pwr
      if t ≠ .run ∧ t ≠ .sleep ∧ t ≠ .deepSleep then bad
      else if s.power.busy then busy
      else if t = .run then
        (if now = .sleep ∨ now = .deepSleep then
          let u := s.answerPower q (resp 0x0060 .ok [])
          { u.modDie d (fun k => { k with pwrBusy := true }) with power := { u.power with waking := some (6, some d, false) } }
        else bad)
      else if now = .run ∨ now = .idle then
        let r : PwrReq := ⟨t, some d, q, s.clk.elapsed, [], none, none, none⟩
        let u := { s.armEnergy.modDie d (fun k => { k with pwrBusy := true }) with power := { s.power with req := some r } }
        match s.assertedNow t with
        | some src => u.abortPower r src
        | none => u
      else bad
    | _, _ => bad
  else bad

/-- POWER_STATE_REQUEST (R328, R391). -/
def execPowerStateRequest (r : Req) (target scope die : Byte) (s : State) : Host.Outcome State Fault Refusal :=
  .next (s.commandLater r 0x0060 fun s => (s.askPower (some r) target.toNat scope.toNat die.toNat, none))

/-- A write of PWR.REQUEST acts as the command, without a response (R324, R345). -/
def State.pwrRequest (s : State) (w : Word) : State :=
  s.askPower none (fld w 0 3) (fld w 6 1) (if bit w 6 then fld w 3 3 else 0)
/-- PWR_REQUEST_WRITE (R324). -/
def execPwrRequestWrite (p : Path) (h : HubId) (w : Word) (s : State) : Host.Outcome State Fault Refusal :=
  .next (s.accessed p (.hub h 4) 0x40 fun s => s.pwrRequest w)

/-- POWER_HANDSHAKE_ANSWER: a block answers: it refuses where the table of R329 makes it, delays where it must, and the last
grant is tg (R329, R330). -/
def execPowerHandshakeAnswer (b : PwrBlock) (a : PwrAnswer) (s : State) : Host.Outcome State Fault Refusal :=
  .next (match s.power.req with
  | some r =>
    if r.tc.isSome || !(s.pwrBlocks r).contains b || r.granted.contains b then s
    else match s.mustRefuse r b with
      | some n => State.commit s (s.refusePower r b n)
      | none =>
        if s.mustDelay b then s
        else match a with
          | .delay => s
          | .refuse n => State.commit s (s.refusePower r b n.toNat)
          | .grant =>
            let r1 := { r with granted := r.granted ++ [b] }
            let t := { s with power := { s.power with req := some r1 } }
            if (s.pwrBlocks r).all r1.granted.contains then State.commit s (t.grantPower r1) else t
  | none => s)

/-- POWER_HANDSHAKE_TIMEOUT: a block still delays 10 ms after tq (R329). -/
def execPowerHandshakeTimeout (s : State) : Host.Outcome State Fault Refusal :=
  .next (match s.power.req with
  | some r =>
    if r.tc.isNone && decide (r.tq + 10 * ms ≤ s.clk.elapsed) then
      match (s.pwrBlocks r).find? fun b => !r.granted.contains b with
      | some b => State.commit s (s.refusePower r b 4)
      | none => s
    else s
  | none => s)

/-! ### Entry (R330 to R332) -/

/-- The message is the response to request q of a `PowerStateRequest`. -/
def OutMsg.answersPower (m : OutMsg) (q : Req) : Bool :=
  decide (m.who = q.who) && m.kind == 2 && m.seq == q.seq.toNat && leAt m.body 0 2 == 0x0060
/-- The response for a package target that has not left by tc is lost (R391). -/
def State.loseAnswer (s : State) (r : PwrReq) : State :=
  match r.die, r.req with
  | none, some q =>
    let t := s.modCore fun c => { c with spi := { c.spi with tunnel := c.spi.tunnel.filter fun m => !m.answersPower q } }
    { t with
      mirror := { t.mirror with held := t.mirror.held.filter fun x => match x.2 with | .response m _ => !m.answersPower q | _ => true }
      net := { t.net with egress := t.net.egress.map fun l => l.filter fun x => match x.2 with | .zcs m => !m.answersPower q | _ => true } }
  | _, _ => s
/-- COMMIT_START at tc: te is 4 µs later; edges are no longer seen, and a response that has not left is lost (R330, R391). -/
def execCommitStart (s : State) : Host.Outcome State Fault Refusal :=
  .next (match s.power.req with
  | some r =>
    match r.tc, r.te with
    | some tc, none => if tc ≤ s.clk.now then State.commit s { s.loseAnswer r with power := { s.power with req := some { r with te := some (tc + 4 * us) } } } else s
    | _, _ => s
  | none => s)

/-- A die enters Sleep or Deep Sleep: its visits are abandoned, the converters and chains stop, the edges so far have come first (R216),
and in Deep Sleep its lease and its hub-loss timer stand still (R188, R325, R331, R332). -/
def Die.sleepNow (k : Die) (d : DieId) (q : Nat) (target : PwrState) (elapsed : Nat) : Die :=
  let k := k.endVisits d q allC 4
  let k := allC.foldl (fun (x : Die) c => x.modCh c fun y => { y.settleAll with fsk := y.fsk.stop, out := y.out.dropPulse y.mode }) k
  { k with
    pwr := target
    lowFrom := elapsed
    pwrBusy := false
    car := { k.car with spares := k.car.spares.map fun (p : Spare) => if p.phase = .selfCal then { p with phase := .idle } else p }
    aux := { k.aux with entry := none, injRun := none, waiting := Vector.replicate 4 [] } }

/-- The lanes to a die lose power: they will train again (R325). -/
def State.dropLanes (s : State) (d : DieId) : State :=
  { s with hubs := s.hubs.map fun (h : Hub) => h.modLane d fun l => { Lane.reset with
    retrain := l.retrain, replays := l.replays, crc := l.crc, promoIdx := l.promoIdx, delay := l.delay } }

/-- One die enters the state (R325, R331). -/
def State.sleepDie (s : State) (target : PwrState) (d : DieId) : State :=
  let t := s.modDie d fun k => k.sleepNow d (s.dq d) target s.clk.elapsed
  if target = .deepSleep then t.dropLanes d else t

/-- The ports of a package that sleeps: in Sleep they only detect energy; in Deep Sleep a port with PAT_Pn set keeps its link
at 100BASE-TX. No port is SLAVE (R325, R335, R338). -/
def State.sleepPorts (s : State) (target : PwrState) : State :=
  let keep (p : PortId) (x : NetPort) : NetPort :=
    if target = .deepSleep ∧ s.wakeBit (6 + p.val) = true ∧ x.link = true then { x with speed := .m100 } else { x with link := false }
  let t := { s with net := { s.net with ports := vmap s.net.ports keep, egress := Vector.replicate 2 [], relay := [] } }
  let fresh (p : PortId) (x : PtpPort) : PtpPort :=
    x.anew false true (s.core.time.profile[p.val]) (s.core.time.domain[p.val]) s.clk.elapsed
  let t := { t with sync := { t.sync with ports := vmap t.sync.ports fun p x => if (t.net.ports[p.val]).link then x else fresh p x } }
  if target = .sleep then t.bmca else { t with sync := { t.sync with slave := none, ports := t.sync.ports.map fun (x : PtpPort) => { x with st := .disabled } } }

/-- The package enters the state, with both hubs and all dies; the watchdog pauses (R318, R325, R330). -/
def State.sleepPackage (s : State) (target : PwrState) (te : Tick) : State :=
  let t := s.presentDies.foldl (fun x d => x.sleepDie target d) s
  let t := t.modCore fun c => { c with wd := { c.wd with paused := true, armed := false } }
  let t := t.sleepPorts target
  let t := if target = .deepSleep then t.resetString else t
  { t with
    power := { t.power with st := target, sleepFrom := some te, heldEvs := t.power.heldEvs ++ [(.pwrEntry, te, [])] }
    hubs := t.hubs.map fun (h : Hub) => { h with idle := false } }

/-- The entry of a request completes at te; a level wake source seen in the commit window makes it a yo-yo wake (R318, R330,
R337). -/
def State.completeEntry (s : State) (r : PwrReq) (te : Tick) : State :=
  match r.die with
  | some d =>
    let t := s.clearReq.sleepDie r.target d
    let t := (t.settlePools d).raiseSrc .pwrEntry te (srcDie d) false [] none
    State.commit s (match r.yoyo with
      | some src =>
        let u := t.modDie d fun k => { k with pwrBusy := true }
        { u with power := { u.power with waking := some (src, some d, true), yoyoCnt := satInc u.power.yoyoCnt } }.raise s.active .yoyoWake te
          false (leBytes 1 src)
      | none => t)
  | none =>
    let t := (s.clearReq.sleepPackage r.target te).settlePackage
    State.commit s (match r.yoyo with
      | some src =>
        { t with power := { t.power with
          waking := some (src, none, true)
          yoyoCnt := satInc t.power.yoyoCnt
          heldEvs := t.power.heldEvs ++ [(.yoyoWake, te, leBytes 1 src)] } }
      | none => t)
/-- ENTRY_COMPLETE at te (R318, R330, R337). -/
def execEntryComplete (s : State) : Host.Outcome State Fault Refusal :=
  .next (match s.power.req with
  | some r =>
    match r.te with
    | some te => if te ≤ s.clk.now then s.completeEntry r te else s
    | none => s
  | none => s)

/-! ### Wake (R333 to R338) -/

/-- The state a request is entering, or the package's low state (R333). -/
def Power.target (p : Power) : PwrState :=
  match p.req with
  | some r => r.target
  | none => if p.step != 0 then .off else p.st

/-- A wake of the package starts, from Sleep or Deep Sleep (R338). -/
def State.startWake (s : State) (src : Nat) : State :=
  if (s.power.st = .sleep ∨ s.power.st = .deepSleep) ∧ s.power.waking = none then
    { s with power := { s.power with waking := some (src, none, false) } }
  else s
/-- A wake event of an enabled source that acts, judged by its instant: before tc it aborts the entry; in the commit window and in
the power-down only a level counts; at te or later, in Sleep and in Deep Sleep it starts a wake (R337, R343). -/
def State.wakeEvent (s : State) (src : Nat) (level : Bool) : State :=
  if !(s.sourceOn src && sourceActs src s.power.target) then s
  else match s.power.req with
    | some r =>
      match r.tc with
        | none => State.commit s (s.abortPower r src)
        | some tc =>
          if s.clk.now < tc then State.commit s (s.abortPower r src)
          else if s.clk.now < tc + 4 * us then
            (if level && r.yoyo.isNone then { s with power := { s.power with req := some { r with yoyo := some src } } } else s)
          else (s.completeEntry r (tc + 4 * us)).startWake src
    | none =>
      if s.power.step ≠ 0 then
        (if level && !s.power.failure then
          { s with power := { s.power with downEvent := s.power.downEvent + (if bit (BitVec.ofNat 32 s.power.downEvent) 6 then 0 else 64) } }
        else s)
      else s.startWake src

/-- The clock that ALARM is compared with: in Deep Sleep the real-time clock, which counts at 32,768 Hz from the device time loaded (R330,
R336). -/
def State.alarmClock (s : State) : Tick :=
  match s.power.st, s.power.rtcFrom with
  | .deepSleep, some t0 => t0 + ((s.clk.now - t0) * 32768 / sec) * sec / 32768
  | _, _ => s.clk.now
/-- An edge or level alarm has come: the counter or the real-time clock has reached ALARM. An edge alarm that came before the
request, or at or before tc of the state in force, is not seen (R333, R336). -/
def State.alarmSeen (s : State) : Bool :=
  let a := s.core.pwr.alarm
  decide (a ≤ s.alarmClock) &&
    (s.sourceLevel 1 ||
      (match s.power.req, s.power.sleepFrom with
      | some r, _ => decide (s.clk.now ≤ a + (s.clk.elapsed - r.tq))
      | none, some te => decide (te ≤ a)
      | none, none => false))

/-- ALARM_WAKE (R336). -/
def execAlarmWake (s : State) : Host.Outcome State Fault Refusal :=
  .next (if s.alarmSeen then s.wakeEvent 1 (s.sourceLevel 1) else s)

/-- The port's PHY is there: with HUBMODE low in a D part, port P1's is held unpowered with H1 (R350, R421). -/
def State.portThere (s : State) (p : PortId) : Bool := !(p == 1 && s.variant.dPart && !s.variant.dual)
/-- LINK_ENERGY_WAKE: the PHY of a port detects energy, or its absence. A port that had link at tq is armed only after energy was
absent for 10 ms following te (R334). -/
def execLinkEnergyWake (p : PortId) (energy : Bool) (s : State) : Host.Outcome State Fault Refusal :=
  let x := s.net.ports[p.val]
  let put (off : Option Nat) : State := { s with net := { s.net with ports := vmod s.net.ports p fun y => { y with energyOff := off } } }
  .next (if !s.portThere p then s
  else if energy then
    let armed := !x.linkAtTq || (s.power.sleepFrom.isSome && s.power.req.isNone &&
      (match x.energyOff with | some t => decide (t + 10 * ms ≤ s.clk.elapsed) | none => false))
    if armed then (put none).wakeEvent (2 + p.val) true else put none
  else if s.power.st = .sleep ∧ x.energyOff = none then put (some s.clk.elapsed) else s)

/-- The payload holds 32 consecutive octets that are the token four times over (R335). -/
def holdsToken (token : List Byte) : List Byte → Bool
  | [] => false
  | b :: bs => (b :: bs).take 32 == token ++ token ++ token ++ token || holdsToken token bs

/-- WAKE_PATTERN: a frame addressed to the port, or broadcast, with the token four times over, on a port that keeps its link (R335). -/
def execWakePattern (p : PortId) (addressed : Bool) (payload : List Byte) (s : State) : Host.Outcome State Fault Refusal :=
  .next (if s.portThere p && (s.net.ports[p.val]).link && addressed && holdsToken s.core.pwr.token payload then s.wakeEvent (4 + p.val) false else s)

/-- Entries of a die that slept whose times, or whose remainders, fell into the sleep (R73). -/
def Entry.slept (e : Entry) (now : Tick) : Bool :=
  match e.phase with
  | .active =>
    e.e.op == 1 || e.e.op == 2 || e.e.op == 7 || ((e.e.op == 3 || e.e.op == 4 || e.e.op == 5) && e.e.readback) ||
      ((e.e.op == 6 || e.e.op == 10) && (decide (e.nextAt < now) || decide (e.e.count.toNat ≤ e.done)))
  | .finished _ => false
  | _ => decide (e.nextAt < now)

/-- A channel at the wake of its die: a period starts, and the input is watched anew: the comparator's level is a free value, which
decoders take without an edge (R211, R212, R216, R228, R236). -/
def Die.wakeCh (x : Die) (c : ChanId) (now : Tick) (free : Nat) : Die :=
  ((x.restartFrom c none now).modCh c fun y =>
    { y with
      out := { y.out with nextPk := (if y.out.run && y.out.nextPk.isSome then some now else y.out.nextPk) }
      din := { y.din with raw := comparing y.mode && y.trans.isNone && Config.inputLevel (free + c.val), known := false, filtAt := now } }).syncLevel c now
/-- A die wakes at tw: entries of the sleep are missed, chains restart with tq = tw, inputs are watched anew, and after Deep Sleep the
reservoir is full, the lease is free to be claimed and the hub-loss timer goes on (R29, R73, R153, R185, R216, R331, R338). -/
def Die.wakeNow (k : Die) (now : Tick) (elapsed free : Nat) : Die :=
  let deep := k.pwr == .deepSleep
  let k1 := k.close (fun e => e.slept now) .missed
  let k2 := allC.foldl (fun (x : Die) c => x.wakeCh c now free) k1
  let led := { k2.led.epochFrom now with
    level := (if deep then 60000 else k2.led.level)
    base := (if deep then (60000 : Int) + k2.led.drawn + k2.led.overflowed - k2.led.refilled else k2.led.base) }
  { k2 with
    pwr := .run
    pwrBusy := false
    replica := now
    aux := { k2.aux with passFrom := now }
    car := { k2.car with cut := now, spares := k2.car.spares.map fun (p : Spare) => { p with slotFrom := now } }
    led := led
    holder := (if deep then none else k2.holder)
    renewAt := (if deep then k2.renewAt + (elapsed - k2.lowFrom) else k2.renewAt)
    lossFrom := (if deep then k2.lossFrom.map (· + (elapsed - k2.lowFrom)) else k2.lossFrom) }

/-- Entries at the hub whose times have passed in the sleep of their die are missed (R73). -/
def State.wakeEntries (s : State) (ds : List DieId) : State :=
  let ids := (s.core.entries.filter fun e => e.unqueued && ds.contains e.ch.die && e.slept s.clk.now).map (·.id)
  s.outcomes ids .missed

/-- Some dies wake (R338). -/
def State.wakeDies (s : State) (ds : List DieId) : State :=
  let t := ds.foldl (fun (x : State) d => (x.modDie d (·.wakeNow s.clk.now s.clk.elapsed x.free)).skipFree 16) s
  ds.foldl State.settlePools (t.wakeEntries ds)

/-- Events held in the AO domain are logged (R330, R337). -/
def State.logHeld (s : State) : State :=
  let t := s.power.heldEvs.foldl (fun (x : State) e => x.raise x.active e.1 e.2.1 false e.2.2) s
  { t with power := { t.power with heldEvs := [] } }

/-- The real-time clock's error after a sleep: at most ±61 µs plus 50 ppm of the time spent asleep (R37). -/
def rtcErr (raw : Int) (asleep : Nat) : Int :=
  clampInt (-((61 * us + asleep * 50 / 1000000 : Nat) : Int)) ((61 * us + asleep * 50 / 1000000 : Nat) : Int) raw
/-- After Deep Sleep the counter resumes from the real-time clock, whose error is open within its bound, but not before the
instant at which the sleep began, and the state is UNLOCKED (R36, R37, R44). -/
def State.resumeClock (s : State) : State :=
  let from0 := s.power.sleepFrom.getD s.clk.now
  let now := max from0 ((s.clk.now : Int) + rtcErr (Config.rtcError s.free) (s.clk.now - from0)).toNat
  let t := { s.tickFree with clk := { s.clk with now := now, peer := now, frac := 0 } }
  t.enterSync .unlocked none

/-- The hubs' wake completes at tw: from Sleep the dies wake with them; from Deep Sleep the dies wake later, when their lanes have
trained (R318, R338). -/
def State.wakePackage (s : State) (src : Nat) (yoyo : Bool) : State :=
  let deep := s.power.st == .deepSleep
  let t := if deep then s.resumeClock else s
  let low := t.presentDies.filter fun d => (t.die d).pwr = .deepSleep
  let t := { t with power := { t.power with
    st := .run
    waking := (if low.isEmpty then none else some (src, none, yoyo))
    sleepFrom := none
    rtcFrom := none
    lastWake := (src, yoyo) } }
  let t := low.foldl (fun (x : State) d => x.modDie d fun k => { k with pwrBusy := true }) t
  let t := t.wakeDies (t.presentDies.filter fun d => !low.contains d)
  let t := t.modCore fun c => { c with wd := (if c.wd.en then { c.wd.restart s.clk.elapsed true with paused := false } else { c.wd with paused := false }) }
  let t := t.stopMirror.modHub (other s.active) fun x => if x.present && x.up then { x with hstate := .syncing } else x
  let t := { t with sync := { t.sync with ports := vmap t.sync.ports fun p x => if t.ptpOn p then { x with st := .listening, interval := sec, syncFrom := s.clk.elapsed, annInterval := sec, annFrom := s.clk.elapsed } else { x with st := .disabled } } }
  t.logHeld.settlePackage

/-- A die's wake can complete: from Deep Sleep its lane is trained first, unless it has FAILED (R298, R338). -/
def State.dieReady (s : State) (d : DieId) : Bool :=
  (s.die d).pwr != .deepSleep || (s.lane s.active d).st != .training
/-- The dies that a package wake from Deep Sleep has still to wake. -/
def State.stillLow (s : State) : List DieId := s.presentDies.filter fun d => (s.die d).pwrBusy
/-- The dies of a package wake whose lanes are ready wake; with the last of them the wake is complete (R338). -/
def State.wakeReady (s : State) : State :=
  let t := s.wakeDies (s.stillLow.filter s.dieReady)
  if t.stillLow.isEmpty then { t with power := { t.power with waking := none } } else t

/-- WAKE_COMPLETE at tw (R338). -/
def execWakeComplete (s : State) : Host.Outcome State Fault Refusal :=
  .next (match s.power.waking with
  | some (src, some d, yoyo) =>
    if s.dieReady d then
      let t := { s with power := { s.power with waking := none, lastWake := (src, yoyo) } }
      State.commit s (t.wakeDies [d])
    else s
  | some (src, none, yoyo) =>
    State.commit s (if s.power.st = .sleep ∨ s.power.st = .deepSleep then s.wakePackage src yoyo else s.wakeReady)
  | none => s)

/-! ### Power-up (R342) and hub restarts (R297) -/

/-- The coefficients of a slice by quantity: of its hallmarks with a valid CRC the newest of each (R195). -/
def warmCo (warm : List Hallmark) (d slice : Nat) : List (Nat × Coeffs) :=
  ((warm.filter fun m => m.die == d && m.slice == slice && m.valid).insertionSort fun a b => b.seq ≤ a.seq).map fun m => (m.qty, m.k)
/-- A channel starts with its stored system corrections, or with the identity (R201), and its warm-start coefficients (R195). -/
def Cal.boot (k : Cal) (g : Nat) (d slice : Nat) (bank : List (Nat × Int × Int)) (warm : List Hallmark) : Cal :=
  let c := bank.find? (·.1 == g)
  { k with
    sysOff := (match c with | some x => x.2.1 | none => 0)
    sysGain := (match c with | some x => x.2.2 | none => 0x40000000)
    slice := warmCo warm d slice }

/-- A die at power-up: reset, supplied, with corrections and coefficients from the stores, and the hallmark sequence continued (R192,
R195, R201, R342). -/
def Die.boot (d : DieId) (present : Bool) (bank : List (Nat × Int × Int)) (warm : List Hallmark) : Die :=
  let k := Die.reset present
  { k with
    isoPower := present
    chans := vmap k.chans fun c y => { y with cal := y.cal.boot (16 * d.val + c.val) d.val c.val bank warm }
    car := { k.car with
      hmSeq := ((warm.filter fun m => m.die == d.val).map (·.seq)).foldl max 0
      spares := vmap k.car.spares fun i p => { p with coeffs := warmCo warm d.val ((i.val + 1) * 16) } } }

/-- The hub at power-up: its store, its black box and its SEQ stay (R29, R303, R342). -/
def Hub.boot (x : Hub) (present : Bool) (hs : HState) (nv : NvStore) : Hub :=
  { Hub.reset present hs with up := present, nv := nv, log := x.log.restart }

/-- The last DOWN_EVENT copy in a black box (R344). -/
def Log.lastDown (l : Log) : Option Nat := (l.bb.find? fun r => r.code == 0x6FFE).map fun r => leAt r.data 0 4

/-- The power-up sequence from t0 to the start of isolated power and of training (R37, R195, R201, R342, R361, R421). `kept`: the
AO domain kept its supply. -/
def State.startUp (s : State) (st : Straps) (kept : Bool) : State :=
  let dual := s.variant.dPart && st.hubmode
  let n0 := (s.hub 0).nv
  let n1 := (s.hub 1).nv
  let boot := ((if dual then max n0.boot n1.boot else n0.boot) + 1) % 2 ^ 32
  let m0 := { (if dual then n0.adopt n1 else n0) with boot := boot }
  let m1 := if dual then { n1.adopt n0 with boot := boot } else n1
  let bank := match m0.newest with | some b => b.2 | none => []
  let down := if kept then s.power.downEvent
    else match (s.hub 0).log.lastDown with | some w => w % 128 + 128 | none => 0
  let core := { Core.reset with
    keys := m0.keys
    nextId := s.core.nextId
    net := { Core.reset.net with mode := s.core.net.mode } }
  let t : State := { s with
    variant := { s.variant with dual := dual }
    clk := { s.clk with now := 0, peer := 0, frac := 0 }
    active := 0
    core := core
    copy := core
    hubs := #v[(s.hub 0).boot true .active m0, (s.hub 1).boot dual .syncing m1]
    dies := vmap s.dies fun d k => Die.boot d k.present bank m0.warm
    sync := TimeSync.reset
    net := { Net.reset with mode := s.core.net.mode }
    power := { Power.reset with
      boot := .starting
      straps := st
      wakeN := s.power.wakeN
      downEvent := down
      yoyoCnt := (if !kept then 0#32 else if bit (BitVec.ofNat 32 down) 6 then satInc s.power.yoyoCnt else s.power.yoyoCnt)
      lastWake := (if kept then (0, bit (BitVec.ofNat 32 down) 6) else (0, false))
      heldEvs := (if kept && bit (BitVec.ofNat 32 down) 6 then [(.yoyoWake, 0, leBytes 1 0)] else []) }
    mirror := Mirror.reset
    spiOut := Vector.replicate 2 [] }
  let t := t.lostBanks 0 n0
  let t := if dual then t.lostBanks 1 n1 else t
  { t with base := t.counters }

/-- The device holds itself in reset: nothing but the non-volatile stores keeps what it held (R422). -/
def State.holdInReset (s : State) (st : Straps) : State :=
  { State.resetOf s.variant with
    ident := s.ident
    hubs := vmap s.hubs fun h (x : Hub) => { x.boot x.present (if h = 0 then .active else .syncing) x.nv with up := false }
    core := { Core.reset with nextId := s.core.nextId }
    net := { Net.reset with mode := s.core.net.mode }
    power := { Power.reset with boot := .heldInReset, straps := st, wakeN := s.power.wakeN }
    clk := { s.clk with now := 0, peer := 0, frac := 0 }
    free := s.free
    pending := s.pending }
/-- POWER_UP at t0: the straps are read, and with a TEST ball not at GND the device holds itself in reset (R342, R421, R422). -/
def execPowerUp (st : Straps) (s : State) : Host.Outcome State Fault Refusal :=
  .next (if s.power.boot = .unpowered ∨ s.power.boot = .down then
    (if st.test then s.holdInReset st else s.startUp st false)
  else s)

/-- POWER_UP_COMPLETE: Run is recorded; ZCS, host SPI and the ports start; the pools hold the charges in force (R28, R258, R342). -/
def execPowerUpComplete (s : State) : Host.Outcome State Fault Refusal :=
  .next (if s.power.boot = .starting then
    let t := ({ s with power := { s.power with boot := .complete, st := .run } } : State).logHeld
    t.presentDies.foldl State.settlePools t.settlePackage
  else s)

/-- WAKE_N_EVENT: the ball changes level; a fall, or the low level where WN_LEVEL selects it, is the wake event. From Off it starts
a power-up (R333, R337, R338). -/
def execWakeNEvent (low : Bool) (s : State) : Host.Outcome State Fault Refusal :=
  let t := { s with power := { s.power with wakeN := low } }
  let event := low && (s.sourceLevel 0 || !s.power.wakeN)
  .next (if !event then t
  else if s.power.boot = .down then (if s.sourceOn 0 then t.startUp s.power.straps true else t)
  else t.wakeEvent 0 (s.sourceLevel 0))

/-- POWER_FAILURE: VLOGIC is below V_UVF: a power-down begins, or one in progress goes on as for a power failure (R344, R426). -/
def execPowerFailure (s : State) : Host.Outcome State Fault Refusal :=
  .next (match s.power.boot with
  | .unpowered => s
  | .heldInReset | .down => { s with power := { s.power with boot := .unpowered } }
  | .starting | .complete =>
    if s.power.step = 0 then
      let t := { s with power := { s.power with req := none, waking := none, failure := true } }
      t.beginDown 2
    else
      let cause := if (s.power.downEvent / 16) % 4 = 1 then 3 else (s.power.downEvent / 16) % 4
      { s with power := { s.power with failure := true, downEvent := s.power.downEvent % 16 + putFld cause 4 2 + putBit (bit (BitVec.ofNat 32 s.power.downEvent) 6) 6 } })

/-- A die loses isolated power: its outputs are off in hardware (R108 row 1, R256, R344). -/
def Die.unpower (k : Die) : Die :=
  { allC.foldl (fun (x : Die) c => x.modCh c fun ch => { ch with out := ch.out.turnOff k.replica, fsk := ch.fsk.stop }) k with isoPower := false }

/-- Every copy that waits is written (R304, R343). -/
def Log.flush (l : Log) (elapsed : Nat) : Log :=
  if l.bbFrozen then l
  else l.bbWait.foldl (fun (x : Log) _ => x.copyNow elapsed) l

/-- What is left waiting of the copies that are never skipped is written before the supply goes (R303, R343, R344). -/
def Log.railsDown (l : Log) (elapsed : Nat) : Log :=
  { { l with bbWait := l.bbWait.filter LogRec.forced }.flush elapsed with bbWait := [] }
/-- The rails are down: nothing runs. A WAKE_N level seen during a requested power-down restarts the package at once (R337, R343). -/
def State.railsDown (s : State) : State :=
  let t := { s with
    power := { s.power with
      st := .off
      boot := (if s.power.failure then .unpowered else .down)
      step := 0
      req := none
      waking := none }
    hubs := s.hubs.map fun (h : Hub) => { h with up := false, log := h.log.railsDown s.clk.elapsed }
    net := { s.net with ports := s.net.ports.map fun (p : NetPort) => { p with link := false } } }
  if !s.power.failure && bit (BitVec.ofNat 32 s.power.downEvent) 6 then t.startUp s.power.straps true else t

/-- POWER_DOWN_STEP: the next step of the sequence begins; a power failure skips step 2, in which the outputs are held for 1 ms (R343,
R344). -/
def execPowerDownStep (s : State) : Host.Outcome State Fault Refusal :=
  let cause := (s.power.downEvent / 16) % 4
  .next (match s.power.step with
  | 1 =>
    if s.power.failure then ({ (s.noteDown 3 cause) with dies := s.dies.map Die.unpower } : State)
    else s.presentDies.foldl (fun (x : State) d => x.modDie d fun k => k.setCauses d (s.dq d) 5 allC) (s.noteDown 2 cause)
  | 2 =>
    if s.power.failure || decide (s.power.stepAt + ms ≤ s.clk.elapsed) then
      ({ (s.noteDown 3 cause) with dies := s.dies.map Die.unpower } : State)
    else s
  | 3 =>
    let t := s.noteDown 4 cause
    { t with hubs := t.hubs.map fun (h : Hub) => if h.present then { h with log := h.log.flush s.clk.elapsed } else h }
  | 4 => (s.noteDown 5 cause).railsDown
  | _ => s)

/-- HUB_RESTART: a hub that stopped, or a DETACHED standby that finds every die's lease expired, restarts (R201, R297). -/
def execHubRestart (h : HubId) (s : State) : Host.Outcome State Fault Refusal :=
  let x := s.hub h
  let orphan := x.up && x.hstate == .detached && s.presentDies.all fun d => (s.die d).holder.isNone
  .next (if x.present && s.power.boot == .complete && ((!x.up && !x.booting) || orphan) then s.restartHub h else s)

/-- The PTP instances of a hub's ports start again. -/
def State.restartPorts (s : State) (h : HubId) : State :=
  ((List.finRange 2).filter fun p => decide (s.portOwner p = h)).foldl (fun (x : State) p => x.ptpRestart p false) s

/-- HUB_RESTART_COMPLETE: the restart under way ends: with a READY or ACTIVE peer the hub enters SYNCING; otherwise it becomes ACTIVE with
synchronisation in UNLOCKED, claims every lease and counts the missed entries that each die reports (R73, R297). A READY peer that had
not taken over, with AUTO_TAKEOVER 0, does so now: SYNCING is a standby's state, so the hub that the restarted one copies is ACTIVE (R279,
R292; DEDUCED, log 44). The device charges in force are carried into the ledger (R259, R274). -/
def execHubRestartComplete (h : HubId) (s : State) : Host.Outcome State Fault Refusal :=
  let x := s.hub h
  let p := s.hub (other h)
  .next (if x.present && !x.up && x.booting && s.power.boot == .complete then
    if p.present && p.up && (p.hstate == .active || p.hstate == .ready) then
      let t := s.modHub h fun y => { y with up := true, booting := false, hstate := .syncing }
      let t := if h = s.active then t.takeOver (other h) else t
      State.commit s (t.restartPorts h).settlePackage
    else
      let n := (s.presentDies.map fun d => (s.die d).missed.length).sum
      let c := if h = s.active then s.core else s.core.boot x.nv
      let t := (if h = s.active then s else s.syncAnew).modHub h fun y => { y with up := true, booting := false, hstate := .active }
      ({ t with
        active := h
        clk := (if h = s.active then s.clk else s.clk.swap)
        core := { c with sched := { c.sched with missed := c.sched.missed + n, submitted := c.sched.submitted + n } }
        dies := t.dies.map fun (d : Die) => { d with missed := [] } } : State).restartPorts h |>.settlePackage
  else s)

end Sys2Proof.Machine
end

