-- ==== Sys2Proof/Machine/Network.lean ====
section
/-! DEFINITION. The network ports: link changes, the gate control list, stream blocks and stream suspension, link loss and the
end of sessions, key rotation's end, the String's port relay, and the redundancy modes' frames (R350 to R368, R435). -/

namespace Sys2Proof.Machine
open Sys2Proof

/-! ### Sessions and link loss (R358 to R360) -/

/-- HOLD_REQ of every channel in an output mode on the dies of a mask is set (R358). -/
def State.setHold (s : State) (mask : Nat) : State :=
  let f (d : DieId) (v : Vector Levels 16) : Vector Levels 16 :=
    if Nat.testBit mask d.val && (s.die d).present then
      vmap v fun i (x : Levels) => if isOutMode ((s.die d).chan i).mode then { x with hold := true } else x
    else v
  s.modCore fun c => { c with levels := vmap c.levels f }
/-- HOLD_REQ of every channel on the dies of a mask is cleared (R359, R360). -/
def State.clearHold (s : State) (mask : Nat) : State :=
  let f (d : DieId) (v : Vector Levels 16) : Vector Levels 16 :=
    if Nat.testBit mask d.val then v.map fun (x : Levels) => { x with hold := false } else v
  s.modCore fun c => { c with levels := vmap c.levels f }

/-- Link loss is due for a session: it controls dies, and it is cut off or has been silent for 3 × KA (R358). -/
def State.lossDue (s : State) (x : Session) : Bool :=
  x.control != 0 && !x.lost && (s.cutOff x.port || decide (x.lastRx + 3 * x.ka * ms ≤ s.clk.elapsed))

/-- Link loss is declared for a session where it is due (R358). -/
def State.declareLoss (s : State) (i : Fin 8) : State :=
  match s.core.session i with
  | some x => if s.lossDue x then (s.modCore (·.modSess i fun y => { y with lost := true })).setHold x.control else s
  | none => s

/-- LINK_LOSS_DECLARE (R358). -/
def execLinkLossDeclare (slot : Fin 8) (s : State) : Host.Outcome State Fault Refusal :=
  .next (if s.serving then State.commit s (s.declareLoss slot) else s)

/-- Streams of a session close; their records stay until their stale age (R360). -/
def Core.closeStreams (c : Core) (p : Stream → Bool) : Core :=
  { c with streams := c.streams.map fun x => if p x then { x with isOpen := false, suspended := false } else x }

/-- LINK_LOSS is set on every channel of a die that is in a link-loss hold (R360). -/
def Die.endHolds (d : Die) (di : DieId) (q : Nat) : Die :=
  d.setCauses di q 2 (allC.filter fun c => (d.chan c).hold.isSome)

/-! ### Keys (R364) -/

/-- KEY_GRACE_EXPIRY: the old key is deleted, in the store too, which needs the key-store write role, and EV_KEY_ROTATED tells the
session that rotated it (R291, R363, R364, R387, R389). -/
def execKeyGraceExpiry (s : State) : Host.Outcome State Fault Refusal :=
  .next (match s.core.grace with
  | some (old, new, till, who) =>
    if s.serving && decide (till ≤ s.clk.elapsed) then
      match s.takeRole true with
      | some t =>
        let keys := s.core.keys.filter (·.1 != old)
        let t := (t.modCore fun c => { c with keys := keys, grace := none }).putStore (·.storeKeys keys)
        State.commit s (t.raiseSrc .keyRotated s.clk.now (srcHub s.active) false (leBytes 1 old ++ leBytes 1 new) (some who))
      | none => s
    else s
  | none => s)

/-! ### The gate control list (R365) -/

/-- GATE_CYCLE_START: at each device-time multiple of CYCLE a port's list starts again (R365). -/
def execGateCycleStart (p : PortId) (s : State) : Host.Outcome State Fault Refusal :=
  .next (if (s.hub (s.portOwner p)).up && decide (s.clk.now % ((s.core.net.ports[p.val]).cycle * us) = 0) then
    { s with net := { s.net with ports := vmod s.net.ports p fun x => { x with cycleAt := s.clk.now } } }
  else s)

/-! ### Streams (R366 to R368) -/

/-- A stream leaves on a port. -/
def Stream.onPort (x : Stream) (p : PortId) : Bool := x.port == p.val || x.port == 2
/-- A total of B fits on a port at its current speed (R366). -/
def State.bwFits (s : State) (p : PortId) (total : Nat) : Bool :=
  let r := s.core.net.ports[p.val]
  let rate := Speed.rate (s.net.ports[p.val]).speed
  decide (10 * total ≤ 7 * rate) && decide (total * r.cycle ≤ r.openUs * rate)
/-- B summed over the open streams of a port. -/
def totalBw (l : List Stream) (p : PortId) : Nat := ((l.filter fun x => x.isOpen && x.onPort p).map (·.bw)).sum
/-- B summed over the streams of a port that are not suspended. -/
def runningBw (l : List Stream) (p : PortId) : Nat := ((l.filter fun x => x.isOpen && !x.suspended && x.onPort p).map (·.bw)).sum
/-- What runs on a stream's ports fits. -/
def State.streamsFit (s : State) (l : List Stream) (x : Stream) : Bool :=
  (List.finRange 2).all fun p => !x.onPort p || s.bwFits p (runningBw l p)
/-- One stream suspended or resumed. -/
def setSuspended (l : List Stream) (n : Nat) (b : Bool) : List Stream :=
  l.map fun x => if x.n = n then { x with suspended := b } else x
/-- Stream numbers in rising order. -/
def streamOrder (l : List Stream) : List Nat := (l.map (·.n)).insertionSort (· ≤ ·)

/-- From the highest number down, streams of port p are suspended until the rest fit, each with its event (R368). -/
def State.suspendOn (s : State) (p : PortId) : State :=
  (streamOrder s.core.streams).reverse.foldl (fun t n =>
    match t.core.streams.find? fun x => x.n == n with
    | some x =>
      if x.isOpen && !x.suspended && x.onPort p && !t.bwFits p (runningBw t.core.streams p) then
        (t.modCore fun c => { c with streams := setSuspended c.streams n true }).raiseNow .streamSuspended (leBytes 1 n)
      else t
    | none => t) s
/-- From the lowest number up, suspended streams resume where they fit (R368). -/
def State.resumeOn (s : State) : State :=
  (streamOrder s.core.streams).foldl (fun t n =>
    match t.core.streams.find? fun x => x.n == n with
    | some x =>
      let l := setSuspended t.core.streams n false
      if x.isOpen && x.suspended && t.streamsFit l x then t.modCore fun c => { c with streams := l } else t
    | none => t) s
/-- Streams after a change of a port's speed (R368). -/
def State.settleStreams (s : State) (p : PortId) : State := (s.suspendOn p).resumeOn

/-! ### The end of a session (R360) -/

/-- A session ends: its streams close; `lost` says that RETRY ran out, so that LINK_LOSS is set on what it still holds, and
HOLD_REQ is cleared in either case (R360). Suspended streams that now fit resume (R368). -/
def State.endSession (s : State) (i : Fin 8) (lost : Bool) : State :=
  match s.core.session i with
  | none => s
  | some x =>
    let t := s.modCore fun c => { (c.closeStreams fun y => y.who == .udp i x.epoch) with sess := vmod c.sess i fun _ => none }
    let t := if lost then t.sendTo (fun d => Nat.testBit x.control d.val && (s.die d).on) fun d k => k.endHolds d (s.dq d) else t
    let t := (t.clearHold x.control).resumeOn
    if lost then t.raiseNow .sessionLost [] else t

/-- No session survives a change of the boot counter: every UDP session ends, as `SessionClose` ends it (which of R360's two ways applies is
a DESIGN CHOICE, log 51), and the SPI session starts anew (R361). -/
def State.dropSessions (s : State) : State :=
  ((List.finRange 8).foldl (fun (t : State) i => t.endSession i false) s).modCore fun c => { c with spi := Core.reset.spi }

/-- The copy is completed: what is in progress is applied, a change of the boot counter ends the sessions, and the standby's keys and page
headers are the active hub's (R279, R361, R363, R398). -/
def State.completeCopy (s : State) (boot : Nat) (keys : List (Nat × List Byte)) : State :=
  let t := if boot = s.act.nv.boot then s.finishMirror else s.finishMirror.dropSessions
  let t := t.modCore fun c => { c with keys := keys }
  ({ t with copy := t.core.asCopy t.copy, mirror := { t.mirror with applied := t.mirror.committed, acked := t.mirror.committed } } : State).copyHdrs

/-- MIRROR_READY: the SYNCING standby holds a complete copy, its lanes are trained, and the two stores and boot
counters are reconciled: it enters READY. Where the boot counter of the active hub changes with that, no session survives (R201, R279,
R291, R298, R361, R398). -/
def execMirrorReady (s : State) : Host.Outcome State Fault Refusal :=
  let o := other s.active
  .next (if s.strung && (s.hub o).hstate == .syncing && (s.presentDies.all fun d => (s.lane o d).st == .trained || (s.die d).pwr != .run) then
    let boot := max (s.hub 0).nv.boot (s.hub 1).nv.boot
    let n0 := (s.hub 0).nv.adopt (s.hub 1).nv
    let n1 := (s.hub 1).nv.adopt (s.hub 0).nv
    let t := s.completeCopy boot (if s.active = 0 then n0 else n1).keys
    let t := (t.modHub 0 fun x => { x with nv := { n0 with boot := boot } }).modHub 1 fun x => { x with nv := { n1 with boot := boot } }
    (t.modHub o fun x => { x with hstate := .ready }).raise o .mirrorReady s.clk.now false []
  else s)

/-- SESSION_TIMEOUT: RETRY seconds without an authenticated datagram (R360). -/
def execSessionTimeout (slot : Fin 8) (s : State) : Host.Outcome State Fault Refusal :=
  .next (match s.core.session slot with
  | some x => if s.serving && decide (x.lastRx + x.retry * sec ≤ s.clk.elapsed) then State.commit s (s.endSession slot true) else s
  | none => s)

/-! ### Stream blocks (R367) -/

/-- Quality code of sample k of a record (R78). -/
def Record.quality (r : Record) (k : Nat) : Nat :=
  fld (r.word (r.len - ceilDiv r.count 16 + k / 16)) (2 * (k % 16)) 2
/-- Samples from k on that share its quality code, at most n (R367). -/
def Record.run (r : Record) (k : Nat) : Nat → Nat
  | 0 => 0
  | n + 1 => 1 + ((List.range n).find? fun j => r.quality (k + 1 + j) != r.quality k).getD n

/-- A stream block: its KIND, its body, how far the record is then delivered, and whether that is its end. -/
structure Block where
  kind : Nat
  body : List Byte
  sent : Nat
  last : Bool

/-- The next compact block of a record (R367): at most 350 samples of one quality. -/
def Record.compactBlock (r : Record) (n : Nat) : Option Block :=
  let k := r.sent - 7
  let m := if k < r.done then r.run k (min 350 (r.done - k)) else 0
  let last := decide (r.count ≤ k + m) || (r.retired.isSome && decide (r.done ≤ k + m))
  if r.ended ∨ (m = 0 ∧ last = false) then none
  else some
    { kind := 4
      body := leBytes 1 n ++ leBytes 1 ((if m = 0 then 0 else r.quality k) + putBit last 2) ++ leBytes 2 r.chan ++ leBytes 4 r.tag.toNat ++
        leBytes 4 k ++ leBytes 2 m ++ leBytes 2 0 ++ leBytes 8 r.time0 ++ leBytes 4 (r.word 5).toNat ++ leBytes 4 (r.word 6).toNat ++
        (List.range m).flatMap fun j => leBytes 4 (r.word (7 + k + j)).toNat
      sent := 7 + k + m
      last := last }
/-- The next record-form block of a record: words from an offset on (R367). -/
def Record.recordBlock (r : Record) (n : Nat) : Option Block :=
  let m := min 354 (r.readable - r.sent)
  if r.ended ∨ m = 0 then none
  else
    let last := decide (r.len ≤ r.sent + m)
    some
      { kind := 5
        body := leBytes 1 n ++ leBytes 1 (putBit last 2) ++ leBytes 2 r.chan ++ leBytes 4 r.tag.toNat ++ leBytes 4 r.sent ++
          leBytes 2 m ++ leBytes 2 0 ++ (List.range m).flatMap fun j => leBytes 4 (r.word (r.sent + j)).toNat
        sent := r.sent + m
        last := last }
/-- The next block of a record on a stream (R367). -/
def Record.block (r : Record) (x : Stream) : Option Block :=
  if x.form = 0 ∧ r.compact = true then r.compactBlock x.n else r.recordBlock x.n
/-- The first record of a stream with a block to send. -/
def Core.nextBlock (c : Core) (x : Stream) : Option (Nat × Block) :=
  c.records.findSome? fun r => if r.dest = x.n then (r.block x).map fun b => (r.id, b) else none
/-- Octets of a block's frame on the wire, as the worked example of R368 counts them. -/
def Block.wire (b : Block) (prp : Bool) : Nat := wireOctets b.body.length prp

/-- The stream's bandwidth allows a block, and one of its ports has link and a class 6 gate that lets the frame finish (R365, R366). -/
def State.streamLeaves (s : State) (x : Stream) (octets : Nat) : Bool :=
  decide (0 < x.bw ∧ x.nextAt ≤ s.clk.elapsed) &&
    (List.finRange 2).any fun p => x.onPort p && s.portUp p && s.gateFits 6 p octets
/-- A stream leaves at no more than B kB/s: after a block of so many octets the next one waits (R366). -/
def Core.paced (c : Core) (n octets elapsed : Nat) : Core :=
  { c with streams := c.streams.map fun x => if x.n = n then { x with nextAt := elapsed + ceilDiv (octets * 3000000) x.bw } else x }

/-- STREAM_BLOCK_SEND: the stream's next block leaves to its session; what it carries counts as delivered (R80, R366, R367). -/
def execStreamBlockSend (stream : Fin 64) (s : State) : Host.Outcome State Fault Refusal :=
  .next (match s.core.streams.find? fun x => x.n == stream.val && x.isOpen && !x.suspended with
  | some x =>
    match x.who, s.core.nextBlock x with
    | .udp i _, some (id, b) =>
      match s.core.sessOf x.who with
      | some y =>
        if s.serving && s.streamLeaves x (b.wire (s.net.mode == 1)) then
          let m := s.message x.who b.kind y.txSeq s.core.newestKey false b.body
          let m := { m with dst := (m.dst.1, if x.udpPort = 0 then m.dst.2 else x.udpPort), port := x.port }
          let t := s.modCore fun c => ((c.delivered id b.sent b.last).paced x.n (b.wire (s.net.mode == 1)) s.clk.elapsed).modSess i fun z =>
            { z with txSeq := (z.txSeq + 1) % 2 ^ 32 }
          State.commit s (t.emit m)
        else s
      | none => s
    | _, _ => s
  | none => s)

/-! ### Links (R350, R353, R368, R435) -/

/-- A port changed. -/
def State.modPort (s : State) (p : PortId) (f : NetPort → NetPort) : State :=
  { s with net := { s.net with ports := vmod s.net.ports p f } }
/-- An event of a port, raised by the hub that owns it, with the port and the speed (R353). -/
def State.portEvent (s : State) (p : PortId) (e : Ev) (v : Speed) : State :=
  s.raise (s.portOwner p) e s.clk.now false (leBytes 1 p.val ++ leBytes 1 (Speed.toNat v))
/-- Every session for which link loss is due. -/
def State.declareAll (s : State) : State := (List.finRange 8).foldl State.declareLoss s
/-- A port can have a link: its hub runs and the port is enabled; with HUBMODE low in a D part, P1 carries no link (R350, R374, R421). -/
def State.portRuns (s : State) (p : PortId) : Bool :=
  (s.hub (s.portOwner p)).present && (s.hub (s.portOwner p)).up && s.awake && s.power.boot == .complete &&
    (s.core.net.ports[p.val]).en && s.portThere p

/-- LINK_DOWN: 10 ms after the PHY's report the link counts as down: the event, the PTP port DISABLED, the charge of R259, and
link loss for the sessions that it cuts off (R353, R358, R435). -/
def execLinkDown (p : PortId) (s : State) : Host.Outcome State Fault Refusal :=
  let x := s.net.ports[p.val]
  .next (if x.link && (s.hub (s.portOwner p)).up then
    let t := (s.modPort p fun y => { y with link := false }).portEvent p .linkDown x.speed
    let t := (t.ptpRestart p true).settlePackage
    State.commit s (if s.serving then t.declareAll else t)
  else s)

/-- The addresses of a port as the NET page holds them (R373). -/
def NetRegs.addrs (n : NetRegs) : List Word := n.ipv4 :: n.mask :: n.ipv6.toList

/-- LINK_UP at a speed that SPEED_MAX allows: the event, the addresses take effect, the PTP port starts, and streams follow the
speed (R350, R353, R368, R373, R435). -/
def execLinkUp (p : PortId) (v : Speed) (s : State) : Host.Outcome State Fault Refusal :=
  let r := s.core.net.ports[p.val]
  .next (if s.portRuns p && !(s.net.ports[p.val]).link && decide (r.speedMax ≤ Speed.toNat v) then
    let t := (s.modPort p fun y => { y with link := true, speed := v, addr := s.core.net.addrs }).portEvent p .linkUp v
    let t := (t.ptpRestart p true).settlePackage
    State.commit s (t.settleStreams p)
  else s)

/-- SPEED_RENEGOTIATE: the port's speed changes, with its charge; streams are suspended or resume (R259, R368). -/
def execSpeedRenegotiate (p : PortId) (v : Speed) (s : State) : Host.Outcome State Fault Refusal :=
  let r := s.core.net.ports[p.val]
  .next (if s.portRuns p && (s.net.ports[p.val]).link && decide (r.speedMax ≤ Speed.toNat v) then
    let t := (s.modPort p fun y => { y with speed := v }).settlePackage
    State.commit s (t.settleStreams p)
  else s)

/-! ### Relay and redundancy (R351, R352) -/

/-- Octets that wait in the relay queue (R351). -/
def Net.relayOctets (n : Net) : Nat := (n.relay.map fun x => x.2.2).sum
/-- A Port relay frame takes 8 octets of the oldest frame that has octets to carry (R351). -/
def carryOut : List (Nat × NetFrame) → List (Nat × NetFrame)
  | [] => []
  | (n, f) :: rest => if n = 0 then (n, f) :: carryOut rest else (n - min n 8, f) :: rest

/-- SUPERVISION_FRAME_SEND: every 2 s in modes 1 and 2, by both ports (R352). -/
def execSupervisionFrameSend (s : State) : Host.Outcome State Fault Refusal :=
  .next (if s.serving && s.net.mode != 0 && decide (s.net.superAt + 2 * sec ≤ s.clk.elapsed) then
    { s with net := { s.net with
      superAt := s.clk.elapsed
      superCnt := s.net.superCnt + 1
      egress := vmap s.net.egress fun p l => l ++ [(s.relayed p 84, .supervision (s.net.superCnt + 1))] } }
  else s)

/-- Traffic class of a frame (R365). -/
def NetFrame.cls : NetFrame → Nat
  | .zcs m => if m.kind = 4 ∨ m.kind = 5 then 6 else 5
  | .supervision _ => 0
/-- Octets of a frame on the wire; a supervision frame is taken as one of the shortest that Ethernet has (DESIGN CHOICE, log 49). -/
def NetFrame.octets (prp : Bool) : NetFrame → Nat
  | .zcs m => wireOctets m.body.length prp
  | .supervision _ => 84
/-- The frame can leave port p now: the port's hub holds all of it, and it can finish before its gate closes (R351, R365). -/
def State.canLeave (s : State) (p : PortId) (x : Nat × NetFrame) : Bool :=
  (x.1 == 0 || decide (s.portOwner p = s.active)) && s.gateFits x.2.cls p (x.2.octets (s.net.mode == 1))
/-- Port p sends: it is enabled and has a link, and its hub runs (R350, R374). -/
def State.portSends (s : State) (p : PortId) : Bool := s.portRuns p && (s.net.ports[p.val]).link
/-- What waits at the ports leaves where it can, each frame with its class (R351, R352, R365). -/
def State.portsSend (s : State) : State :=
  { s with net := { s.net with
    egress := vmap s.net.egress fun p l => if s.portSends p then l.filter fun x => !s.canLeave p x else l
    wire := vmap s.net.wire fun p l =>
      if s.portSends p then l ++ ((s.net.egress[p.val]).filter (s.canLeave p)).map fun x => (x.2.cls, x.2) else l } }
/-- Time passes with no command: one tick, in which the ports send what their gates let go (R8, R365; log 6). -/
def State.pass (s : State) : State := s.tick.portsSend

/-- DUPLICATE_ENTRY_EXPIRY: entries of the duplicate-discard table live 400 ms (R352). -/
def execDuplicateEntryExpiry (s : State) : Host.Outcome State Fault Refusal :=
  .next { s with net := { s.net with dup := s.net.dup.filter fun x => decide (s.clk.elapsed < x.2 + 400 * ms) } }

/-- The first copy of a frame is processed: the copy that the other port delivers within the entry's life is a duplicate. Each
entry holds a frame's identity and the port it came in by (R352). -/
def Net.discard (n : Net) (ident : Nat) (p : PortId) (elapsed : Nat) : Net × Bool :=
  if n.mode = 0 then (n, false)
  else if n.dup.any fun x => x.1 == 2 * ident + (1 - p.val) && decide (elapsed < x.2 + 400 * ms) then
    ({ n with dup := n.dup.filter fun x => x.1 != 2 * ident + (1 - p.val) }, true)
  else ({ n with dup := ((2 * ident + p.val, elapsed) :: n.dup).take 1024 }, false)

end Sys2Proof.Machine
end

