-- ==== Sys2Proof/Machine/RegWrite.lean ====
section
/-! DEFINITION. Register writes: what a write of each register of each page does once it has reached the register (R10, R12,
R433, R434 and the register tables of the chapters), and the table's rows for single registers. -/

namespace Sys2Proof.Machine
open Sys2Proof

/-- The defined bits of a written word (R12). -/
def cut (w : Word) (m : Nat) : Word := w &&& BitVec.ofNat 32 m
/-- A field of a written word that is ignored keeps its value; the others take effect (R433). -/
def keepFld (old w : Word) (lo n : Nat) (ok : Bool) : Word :=
  let m := BitVec.ofNat 32 ((2 ^ n - 1) <<< lo)
  if ok then w else (w &&& ~~~m) ||| (old &&& m)

/-! ### Configuration of a channel (R93, R266, R384) -/

/-- A page that a configuration of ch reaches is locked (R406). -/
def State.unitLocked (s : State) (ch : Chan) (i : ChanImg) : Bool :=
  (((s.die ch.die).unit ch.c ++ bindOf ch.c i).dedup).any fun c => s.pageLocked (.die ch.die (chPage c))
/-- A page of the channels that share a pair or group with ch is locked (R406). -/
def State.unitLockedNow (s : State) (ch : Chan) : Bool :=
  ((s.die ch.die).unit ch.c).any fun c => s.pageLocked (.die ch.die (chPage c))

/-- A configuration is checked whole at acceptance and put in force at tm, or refused with a status and the cause that a
register write records (R93, R266, R384, R405). Configurations that wait for the same
instant come first. -/
def State.configure (s : State) (ch : Chan) (i : ChanImg) (set : Nat) : Except (ZS × Nat) (State × Tick) :=
  let tm := tenAfterTwenty s.clk.now
  let d := s.dieAt ch.die [] (tm + 1)
  match s.configRefused d ch i tm with
  | some z => .error (z, if imgFieldsOk i then 4 else 1)
  | none =>
    if s.entering ch.die then .error (.blockOff, 4)
    else match s.barred ch.die with
      | some z => .error (z, 4)
      | none => match s.ledgerAdmit (d.configCosts ch.die ch.c i tm none) (Img.sclass i) s.clk.now with
        | .error z => .error (z.1, 6)
        | .ok t => .ok ((t.queueConfig ch i set tm).settlePools ch.die, tm)

/-- A register write whose tm falls inside the span of an admitted FSK_FRAME of the channel may not change its front end: it is the
MODE_SET-like write of R249. -/
def State.cutsFsk (s : State) (ch : Chan) (i : ChanImg) : Bool :=
  let tm := tenAfterTwenty s.clk.now
  (s.dieAt ch.die [] (tm + 1)).frontChange ch.c i && (s.fskSpans ch).any fun p => decide (p.1 ≤ tm) && decide (tm < p.2)

/-- A register write that acts as a configuration: refused, it is ignored whole and recorded (R86, R249, R266). -/
def State.configWrite (s : State) (p : Path) (ch : Chan) (off : Nat) (i : ChanImg) (set : Nat) : State :=
  let pg : PageRef := .die ch.die (chPage ch.c)
  if s.unitLocked ch i then s.rejectAt pg 2 p off
  else if s.cutsFsk ch i then s.rejectAt pg 4 p off
  else match s.configure ch i set with
    | .ok r => r.1
    | .error e => s.rejectAt pg e.2 p off

/-! ### Channel registers that act at once or at tf -/

/-- A setting that acts at once (R434). -/
def State.putNow (s : State) (ch : Chan) (f : ChanImg → ChanImg) : State :=
  s.modCh ch fun k => { k with want := f k.want, img := f k.img, pend := k.pend.map fun p => { p with img := f p.img } }

/-- Settings that wait for tf (R154). -/
def State.putLater (s : State) (ch : Chan) (l : List (Nat × Word)) : State :=
  let tf := tenAfterTwenty s.clk.now
  let f (i : ChanImg) : ChanImg := l.foldl (fun i p => imgSet i p.1 p.2) i
  s.modCh ch fun k => { k with
    want := f k.want
    pend := k.pend.map fun p => if p.tm = tf then { p with img := f p.img } else p
    pendF := k.pendF ++ l.map fun p => (tf, p.1, p.2) }

/-- A filter setting of a channel, in force from tf, rules out a combination (R24, R121, R122, R160, R162, R217). -/
def State.filterBad (s : State) (ch : Chan) (tf : Tick) (i : ChanImg) : Bool :=
  let angle := Img.lock i == 1 && hasChain (Img.mode i)
  (Img.mcEn i && Img.lock i != 0) || (Img.lowpwr i && !slowEnough i) ||
    (Img.mode i == 7 && ch.c.val % 2 == 0 && !Img.zEn i && Img.lock i != 0) ||
    s.axisBad ch [ch.c] [] i tf || (angle && decide ((s.lane s.active ch.die).version < 2))

/-- The settings of an image that differ, as registers to write at tf. -/
def filtDiff (a b : ChanImg) : List (Nat × Word) :=
  (if a.perInt ≠ b.perInt then [(0x104, b.perInt)] else []) ++ (if a.perFrac ≠ b.perFrac then [(0x108, b.perFrac)] else []) ++
    (if a.maLen ≠ b.maLen then [(0x10C, b.maLen)] else []) ++ (if a.dcbCfg ≠ b.dcbCfg then [(0x110, b.dcbCfg)] else []) ++
    (if a.angCfg ≠ b.angCfg then [(0x118, b.angCfg)] else []) ++ (if a.filtCfg ≠ b.filtCfg then [(0x100, b.filtCfg)] else [])

/-- A filter write whose new image stands, or is ignored and recorded (R154). -/
def State.filterPut (s : State) (p : Path) (ch : Chan) (off : Nat) (w : Word) (new : ChanImg) : State :=
  let k := s.chan ch
  let pg : PageRef := .die ch.die (chPage ch.c)
  if !imgFieldsOk new then s.rejectAt pg 1 p off
  else if s.filterBad ch (tenAfterTwenty s.clk.now) new then s.rejectAt pg 4 p off
  else s.putLater ch ((off, imgGet new off w) :: filtDiff (imgSet k.want off (imgGet new off w)) new)
where
  /-- The register at an offset of the new image. -/
  imgGet (i : ChanImg) (off : Nat) (w : Word) : Word :=
    match off with
    | 0x100 => i.filtCfg | 0x104 => i.perInt | 0x10C => i.maLen | 0x110 => i.dcbCfg | 0x118 => i.angCfg | _ => w

/-- The preset in force governs a register's settings (R174): preset 1 CONV_CFG, the others the output period and MA_LEN, and all of them
the DC blocker's EN. -/
def presetGoverns (i : ChanImg) (off : Nat) : Bool :=
  match fld i.filtCfg 24 4 with
  | 0 => false
  | 1 => off == 0x80 || off == 0x110
  | _ => off == 0x104 || off == 0x108 || off == 0x10C || off == 0x110
/-- A later write of a setting that the preset governs sets PRESET to 0 (R174). -/
def noPreset (i : ChanImg) (off : Nat) : ChanImg := if presetGoverns i off then { i with filtCfg := cut i.filtCfg 0xF0FFFFFF } else i

/-- Filter registers (R154, R174 to R178). -/
def State.filterWrite (s : State) (p : Path) (ch : Chan) (off : Nat) (w : Word) : State :=
  let k := s.chan ch
  let i := k.want
  match off with
  | 0x100 =>
    let v := cut w 0x0F381FFF
    let v := keepFld i.filtCfg v 24 4 (decide (fld v 24 4 ≤ 8))
    let v := keepFld i.filtCfg v 20 2 (fld v 20 2 != 3)
    let v := keepFld i.filtCfg v 0 13 (fld v 0 13 != 0)
    let named := decide (1 ≤ fld w 24 4 ∧ fld w 24 4 ≤ 8)
    let new := if named then expandPreset s.core.mains.nom { i with filtCfg := v } else { i with filtCfg := v }
    let t := if decide (2 ≤ fld w 24 4) && named then s.modCh ch fun k => { k with heldFrac := none } else s
    if new.convCfg ≠ i.convCfg then s.configWrite p ch off new k.cfgSet
    else
      let u := s.filterPut p ch off w new
      if (u.chan ch).pendF.length = k.pendF.length then u else t.filterPut p ch off w new
  | 0x104 =>
    let t := s.modCh ch fun k => { k with heldFrac := none }
    let new := noPreset { i with perInt := w, perFrac := k.heldFrac.getD i.perFrac } off
    let u := s.filterPut p ch off w new
    if (u.chan ch).pendF.length = k.pendF.length then u else t.filterPut p ch off w new
  | 0x108 => (s.modCh ch fun k => { k with heldFrac := some w }).putNow ch (noPreset · off)
  | 0x10C => s.filterPut p ch off w (noPreset { i with maLen := cut w 0x1FFF } off)
  | 0x110 =>
    let v := cut w 0x1F03
    let v := keepFld i.dcbCfg v 8 5 (decide (10 ≤ fld v 8 5 ∧ fld v 8 5 ≤ 24))
    s.filterPut p ch off w (if bit v 0 != bit i.dcbCfg 0 then noPreset { i with dcbCfg := v } off else { i with dcbCfg := v })
  | 0x118 =>
    let v := cut w 0x1F03
    let v := keepFld i.angCfg v 8 5 (decide (6 ≤ fld v 8 5 ∧ fld v 8 5 ≤ 16))
    s.filterPut p ch off w { i with angCfg := v }
  | _ => s

/-- Charges of one channel, or with a new V_D of all of them, that a declaration or a driver setting changes at tf, after the
configurations that take effect then (R261, R266). -/
def Die.declCosts (d : Die) (di : DieId) (cs : List ChanId) (vd : Nat) (f : ChanImg → ChanImg) (tf : Tick) : List PlanItem :=
  cs.map fun c =>
    let k := d.chan c
    let q := chargeOf (f k.img) k.odd vd k.out.period
    ⟨di, Img.sclass (f k.img), none, .standing tf c q.1 q.2⟩

/-- A write that is an admission for tf: its settings wait, or it is ignored and recorded with cause 6 (R261, R266). -/
def State.admitWrite (s : State) (p : Path) (pg : PageRef) (off : Nat) (items : List PlanItem) (cls : Nat) (d : DieId)
    (f : State → State) : State :=
  match s.ledgerAdmit items cls s.clk.now with
  | .ok t => (f t).settlePools d
  | .error _ => s.rejectAt pg 6 p off

/-- OUT_CFG: a change of PAR acts as a configuration, the rest at tf (R238, R253, R266). -/
def State.outCfgWrite (s : State) (p : Path) (ch : Chan) (w : Word) : State :=
  let k := s.chan ch
  let old := k.want.outCfg
  let v := cut w 0xFF030330
  let v := keepFld old v 24 8 (decide (fld v 24 8 ≤ 200))
  let v := keepFld old v 16 2 (fld v 16 2 != 3)
  let v := keepFld old v 8 2 (fld v 8 2 != 3)
  let v := keepFld old v 4 2 (fld v 4 2 != 3)
  if fld v 16 2 ≠ fld old 16 2 then s.configWrite p ch 0x300 { k.want with outCfg := v } k.cfgSet
  else
    let tf := tenAfterTwenty s.clk.now
    let d := s.dieAt ch.die [] (tf + 1)
    let items := d.declCosts ch.die [ch.c] d.led.vd (fun i => { i with outCfg := v }) tf
    s.admitWrite p (.die ch.die (chPage ch.c)) 0x300 items (Img.sclass k.want) ch.die fun t => t.putLater ch [(0x300, v)]

/-- DECL[c] (R261, R278). -/
def State.declWriteCh (s : State) (p : Path) (d : DieId) (c : ChanId) (w : Word) : State :=
  let v := cut w 0xCFFF1FFF
  let tf := tenAfterTwenty s.clk.now
  let x := s.dieAt d [] (tf + 1)
  let items := x.declCosts d [c] x.led.vd (fun i => { i with decl := v }) tf
  s.admitWrite p (.die d 21) (0x100 + 4 * c.val) items (fld v 30 2) d fun t => t.putLater ⟨d, c⟩ [(0xDEC, v)]

/-- LP_DECL: V_D from 18 V to 40 V; the charges that follow belong to the channels' classes, each held to its ceiling (R261, R266, R268,
R277). -/
def State.lpDeclWrite (s : State) (p : Path) (d : DieId) (w : Word) : State :=
  let v := fld w 0 6
  let tf := tenAfterTwenty s.clk.now
  if 18 ≤ v ∧ v ≤ 40 then
    let x := s.dieAt d [] (tf + 1)
    let items := x.declCosts d allC v id tf
    if [2, 3].all fun c => s.policyOk s.core.plan items c s.clk.now then
      s.admitWrite p (.die d 21) 0x74 items 1 d fun t =>
        t.modDie d fun k => { k with led := { k.led with vdWant := v, vdAt := k.led.vdAt ++ [(tf, v)] } }
    else s.rejectAt (.die d 21) 6 p 0x74
  else s

/-- Registers of a channel page (R114 to R117, R145, R154, R175, R225, R252). DESIGN CHOICE (log 59): a write of SAFE with KIND 3
in mode 0x8 or 0x9, a write of SAFE_VAL outside its mode's values, and a write of FSK_CFG that sets MULTIDROP outside mode 0xB with
FSK change no field at all. -/
def State.chanOp (s : State) (p : Path) (ch : Chan) (off : Nat) (w : Word) : State :=
  let k := s.chan ch
  let i := k.want
  match off with
  | 0x40 => s.configWrite p ch off { i with cfg := cut w 0x000F1F3F } 0
  | 0x48 =>
    let v : ChanImg := { i with safe := cut w 0xF0FFFFFF }
    if Img.kind v = 3 ∧ (Img.mode v = 8 ∨ Img.mode v = 9) then s
    else (s.putNow ch fun x => { x with safe := v.safe }).modDie ch.die (·.reSafe ch.die s.quality ch.c)
  | 0x4C =>
    let v : ChanImg := { i with safeVal := w }
    if safeValOk v then (s.putNow ch fun x => { x with safeVal := w }).modDie ch.die (·.reSafe ch.die s.quality ch.c) else s
  | 0x50 => if fld w 0 16 ≤ 60000 then s.putNow ch fun x => { x with linkloss := cut w 0xFFFF } else s
  | 0x54 =>
    let v := keepFld i.diag (cut w 0x0003FFFF) 8 8 (decide (1 ≤ fld w 8 8 ∧ fld w 8 8 ≤ 200))
    s.putNow ch fun x => { x with diag := v }
  | 0x58 => if 10 ≤ fld w 0 14 ∧ fld w 0 14 ≤ 10000 then s.putNow ch fun x => { x with opt := cut w 0x3FFF } else s
  | 0x5C =>
    if bit w 0 then
      s.modCore fun c => { c with levels := (vmod c.levels ch.die fun v => vmod v ch.c fun (x : Levels) => { x with host := true }) }
    else s
  | 0x80 => s.configWrite p ch off (noPreset { i with convCfg := cut w 0x3F01 } off) k.cfgSet
  | 0x200 =>
    let v := cut w 0x0FFFFFFE
    let v := keepFld i.dinCfg v 16 12 (fld v 16 12 != 0)
    let v := keepFld i.dinCfg v 2 14 (decide (1 ≤ fld v 2 14 ∧ fld v 2 14 ≤ 16000))
    s.putLater ch [(0x200, v)]
  | 0x204 =>
    if k.evenOfPair ch.c then
      let v := cut w 0xC7
      let v := keepFld i.encCfg v 6 2 (fld v 6 2 != 3)
      let v := keepFld i.encCfg v 0 3 (decide (fld v 0 3 ≤ 4))
      (s.modCh ch fun x => x.putDecode { x.img with encCfg := v } (s.die ch.die).replica).putNow ch fun x => { x with encCfg := v }
    else s
  | 0x210 =>
    if k.evenOfPair ch.c then s.modCh ch fun k => { k with din := { k.din with preset := k.din.preset ++ [(w, tenAfterTwenty s.clk.now)] } } else s
  | 0x300 => s.outCfgWrite p ch w
  | 0x31C =>
    let v := keepFld i.fskCfg (cut w 0xF10) 8 4 (fld w 8 4 != 0)
    if bit v 4 && !(Img.mode i == 11 && Img.fskOn i) then s
    else (s.putNow ch fun x => { x with fskCfg := v }).modCh ch (Channel.parkFrom k)
  | _ => s.filterWrite p ch off w

/-! ### Die pages -/

/-- A POLICY value stands: FLOOR at most CEIL, and the floors of the scope within `room` (R271). -/
def policyFits (v : Vector Policy 3) (k : Fin 3) (x : Policy) (room : Nat) : Option Nat :=
  if x.ceil < x.floor then some 4
  else if room < (((v.set k.val x k.isLt).toList).map (·.floor)).sum then some 6
  else none

/-- POLICYc of a scope (R271, R275). -/
def State.policyPut (s : State) : PolicyScope → Fin 3 → Policy → Option Nat × State
  | .package _, k, x =>
    let e := policyFits s.core.ledger.policy k x (25000 - s.deviceCharge)
    (e, if e.isNone then s.modCore fun c => { c with ledger := { c.ledger with policy := c.ledger.policy.set k.val x k.isLt } } else s)
  | .die d, k, x =>
    let e := policyFits (s.die d).led.policy k x (4000 - 490)
    (e, if e.isNone then s.modDie d fun y => { y with led := { y.led with policy := y.led.policy.set k.val x k.isLt } } else s)
/-- A register write of POLICYc (R271, R405). -/
def State.policyRegWrite (s : State) (p : Path) (pg : PageRef) (off : Nat) (sc : PolicyScope) (k : Fin 3) (w : Word) : State :=
  let r := s.policyPut sc k ⟨fld w 0 16, fld w 16 16⟩
  match r.1 with
  | some c => s.rejectAt pg c p off
  | none => r.2

/-- The auxiliary sequencer changed. -/
def State.modAux (s : State) (d : DieId) (f : Aux → Aux) : State := s.modDie d fun k => { k with aux := f k.aux }

/-- Another enabled slot names the same channel (R138). -/
def slotClash (v : Vector Word 4) (k : Fin 4) (w : Word) : Bool :=
  privEn w && (List.finRange 4).any fun j => decide (j ≠ k) && privEn (v[j.val]) && decide (privCh (v[j.val]) = privCh w)

/-- An element of a register array at base `lo`. -/
def arrayIdx (off lo n : Nat) : Option (Fin n) :=
  if h : lo ≤ off ∧ (off - lo) / 4 < n ∧ off % 4 = 0 then some ⟨(off - lo) / 4, h.2.1⟩ else none

/-- REF_CTRL: a write of SEL clears SWITCHED and switches at tm (R131, R148). -/
def Aux.writeRef (a : Aux) (w : Word) (tm : Tick) : Aux :=
  let b := bit w 0
  { a with
    refSel := b
    autoSw := bit w 1
    switched := false
    refNext := (if b = a.inUse then none else some (tm, b, false)) }

/-- Page AUX: TABLE, LEN, PRIVk and INJ go to the shadow; with AUTO 1 TABLE and LEN are ignored (R136 to R138, R148 to R150). A new
PASS_MS counts from the write on (R135). DESIGN CHOICE (log 59): a LEN above 64 leaves LEN unchanged, LEN is judged by the AUTO bit of the
same write, and a PRIVk write with the reserved TRIG code 3 leaves TRIG unchanged. -/
def State.auxOp (s : State) (d : DieId) (off : Nat) (w : Word) : State :=
  let a := (s.die d).aux
  match off with
  | 0x40 =>
    let auto := bit w 1
    let ms := fld w 16 10
    let n := fld w 8 7
    s.modAux d fun a => { a with
      run := bit w 0
      auto := auto
      passMs := (if 10 ≤ ms ∧ ms ≤ 1000 then ms else a.passMs)
      passFrom := (if 10 ≤ ms ∧ ms ≤ 1000 ∧ ms ≠ a.passMs then max a.passFrom (s.die d).replica else a.passFrom)
      lenSh := (if auto = false ∧ n ≤ 64 then n else a.lenSh) }
  | 0x60 => s.modAux d (·.writeRef w (tenAfterTwenty s.clk.now))
  | _ =>
    match arrayIdx off 0x50 4, arrayIdx off 0x100 64, arrayIdx off 0x300 32 with
    | some k, _, _ =>
      let v := keepFld (a.privSh[k.val]) (cut w 0xFCFF) 10 2 (fld w 10 2 != 3)
      if slotClash a.privSh k v then s else s.modAux d fun a => { a with privSh := a.privSh.set k.val v k.isLt }
    | none, some k, _ =>
      if a.auto then s else s.modAux d fun a => { a with tableSh := a.tableSh.set k.val (cut w 0xFFFFFF) k.isLt }
    | none, none, some k => s.modAux d fun a => { a with injSh := a.injSh.set k.val (cut w 0xFFFFFF) k.isLt }
    | none, none, none => s

/-- CAROUSEL.CTRL: slots begin from the write of RUN 1 on (R183, R205). -/
def Die.carCtrl (d : Die) (w : Word) : Die :=
  let fresh (p : Spare) : Spare := if d.car.run then p else { p with slotFrom := max p.slotFrom d.replica }
  { d with car := { d.car with run := bit w 0, persist := bit w 1, spares := d.car.spares.map fresh } }
/-- Pages of a field die other than its channels' (R148, R204, R277, R349, R408). -/
def State.dieOp (s : State) (p : Path) (d : DieId) (r : Fin 23) (off : Nat) (w : Word) : State :=
  match r.val with
  | 0 =>
    if off = 0x40 then
      let v := fld w 0 17
      if 50 ≤ v ∧ v ≤ 100000 ∧ (s.variant.dual = false ∨ 1000 ≤ v) then s.modDie d fun k => { k with hublossT := v }
      else s.rejectAt (.die d r) 1 p off
    else if off = 0x80 then s.modDie d fun k => { k with allowSafe := bit w 0 }
    else s
  | 19 => if off = 0x40 then s.modDie d (·.carCtrl w) else s
  | 20 => s.auxOp d off w
  | 21 =>
    if off = 0x74 then s.lpDeclWrite p d w
    else match arrayIdx off 0x78 3, arrayIdx off 0x100 16 with
      | some k, _ => s.policyRegWrite p (.die d r) off (.die d) k w
      | none, some c => s.declWriteCh p d c w
      | none, none => s
  | _ => s

/-! ### Hub pages -/

/-- Both ports' PTP instances start again (R43). -/
def State.restartPtp (s : State) : State := (s.ptpRestart 0 false).ptpRestart 1 false

/-- TIME.CTRL: ROLE, with 3 leaving it unchanged, and ACCEPT; a change of ROLE restarts both ports (R40, R43, R47, R55). -/
def State.timeCtrl (s : State) (w : Word) : State :=
  let role := if fld w 1 2 = 3 then s.core.time.role else fld w 1 2
  let t := s.writeAccept (bit w 0)
  if role = s.core.time.role then t
  else State.noteMix s ((t.modCore fun c => { c with time := { c.time with role := role } }).restartPtp)

/-- P0_CFG or P1_CFG: a change of PROFILE, DOMAIN or TRANSPORT restarts the port (R43, R57). A DOMAIN above 127 and the reserved
TRANSPORT code 3 leave their fields unchanged: DESIGN CHOICE (log 59). -/
def State.ptpCfg (s : State) (port : PortId) (w : Word) : State :=
  let t := s.core.time
  let pr := fld w 0 2
  let dom := if fld w 8 8 ≤ 127 then fld w 8 8 else t.domain[port.val]
  let tr := if fld w 16 2 = 3 then t.transport[port.val] else fld w 16 2
  if pr = t.profile[port.val] ∧ dom = t.domain[port.val] ∧ tr = t.transport[port.val] then s
  else (s.modCore fun c => { c with time := { c.time with
    profile := c.time.profile.set port.val pr port.isLt
    domain := c.time.domain.set port.val dom port.isLt
    transport := c.time.transport.set port.val tr port.isLt } }).ptpRestart port (decide (pr ≠ t.profile[port.val]))

/-- Page TIME (R54 to R57). -/
def State.timeOp (s : State) (off : Nat) (w : Word) : State :=
  let n := w.toNat
  match off with
  | 0x40 => s.timeCtrl w
  | 0x54 => if 1 ≤ n ∧ n ≤ 3600 then s.modCore fun c => { c with time := { c.time with holdMax := n } } else s
  | 0x58 => if 3000 ≤ n ∧ n ≤ 3000000 then s.modCore fun c => { c with time := { c.time with stepThr := n } } else s
  | 0x60 => s.ptpCfg 0 w
  | 0x64 => s.ptpCfg 1 w
  | _ => s

/-- Page SCHED (R82, R83). -/
def State.schedOp (s : State) (off : Nat) (w : Word) : State :=
  let n := w.toNat
  match off with
  | 0x40 => s.modCore fun c => { c with sched := { c.sched with admits := bit w 0, doneEvAll := bit w 1 } }
  | 0x84 => if 1 ≤ n ∧ n ≤ 60000 then s.modCore fun c => { c with sched := { c.sched with staleAge := n } } else s
  | 0x88 => if 50 ≤ n ∧ n ≤ 1000 then s.modCore fun c => { c with sched := { c.sched with minLead := n } } else s
  | _ => s

/-- PT: a field written 3 keeps its value; a MIN above MAX in frequency leaves both (R276). -/
def LedgerRegs.writePt (l : LedgerRegs) (w : Word) : LedgerRegs :=
  let mx := if fld w 2 2 = 3 then l.ptMax else fld w 2 2
  let mn := if fld w 0 2 = 3 then l.ptMin else fld w 0 2
  if mn < mx then l else { l with ptMax := mx, ptMin := mn }
/-- Page LEDGER (R271, R275, R276). -/
def State.ledgerOp (s : State) (p : Path) (h : HubId) (off : Nat) (w : Word) : State :=
  if off = 0x50 then s.modCore fun c => { c with ledger := c.ledger.writePt w }
  else match arrayIdx off 0x54 3 with
    | some k => s.policyRegWrite p (.hub h 3) off (.package h) k w
    | none => s

/-- Octets 4·i to 4·i + 3 of the wake token (R335, R345). -/
def putToken (t : List Byte) (i : Nat) (w : Word) : List Byte := t.take (4 * i) ++ leBytes 4 w.toNat ++ t.drop (4 * i + 4)
/-- WAKE_CFG: while the token is zero PAT_P0 and PAT_P1 stay 0 (R335, R347). -/
def PwrRegs.writeWake (r : PwrRegs) (w : Word) : PwrRegs :=
  { r with wakeCfg := (if leNat r.token = 0 then fld w 0 6 else fld w 0 8) }
/-- ALARM_LO puts both halves in force; ALARM_HI waits for it (R345). -/
def PwrRegs.writeAlarm (r : PwrRegs) (w : Word) : PwrRegs := { r with alarmLo := w, alarm := w.toNat + r.alarmHi.toNat * 2 ^ 32 }
/-- Page PWR (R329, R345, R347). -/
def State.pwrOp (s : State) (off : Nat) (w : Word) : State :=
  let put (f : PwrRegs → PwrRegs) : State := s.modCore fun c => { c with pwr := f c.pwr }
  match off with
  | 0x40 => s.pwrRequest w
  | 0x48 => put (·.writeWake w)
  | 0x54 => put (·.writeAlarm w)
  | 0x58 => put fun r => { r with alarmHi := w }
  | 0x5C => put fun r => { r with token := putToken r.token 0 w }
  | 0x60 => put fun r => { r with token := putToken r.token 1 w }
  | _ => s

/-- MAINS.CTRL: the tracker goes to FREE at the nominal frequency (R126, R128). A CH above 95 and a HOLD_S above 3,600 leave their
fields unchanged, as the reserved SRC code 3 does: DESIGN CHOICE (log 59). -/
def Mains.writeCtrl (m : Mains) (now : Tick) (w : Word) : Mains :=
  { m with
    src := (if fld w 0 2 = 3 then m.src else fld w 0 2)
    nom := bit w 2
    ch := (if fld w 8 7 ≤ 95 then fld w 8 7 else m.ch)
    holdS := (if 1 ≤ fld w 16 16 ∧ fld w 16 16 ≤ 3600 then fld w 16 16 else m.holdS)
    st := .free
    meas := []
    lastCross := none }.setPeriod now (nominalPeriod (bit w 2))

/-- NET_FREQ: with SRC 2 each write in range is one measurement (R125, R126). -/
def State.netFreq (s : State) (w : Word) : State :=
  let f := w.toNat
  if 45000 ≤ f ∧ f ≤ 65000 then
    let t := s.modCore fun c => { c with mains := { c.mains with netFreq := f } }
    if s.core.mains.src = 2 then t.mainsMeasure (divRound 3000000000000 f).toNat true else t
  else s
/-- Page MAINS (R127, R128). -/
def State.mainsOp (s : State) (off : Nat) (w : Word) : State :=
  match off with
  | 0x40 => s.modCore fun c => { c with mains := c.mains.writeCtrl s.clk.now w }
  | 0x4C => s.netFreq w
  | _ => s

/-- The high-water step of every channel locked to the axis is cleared, on the dies that the active hub reaches (R13, R21, R181). -/
def State.clearHigh (s : State) (a : AxisId) : State :=
  let one (k : Channel) : Channel :=
    if Img.lock k.img = 1 ∧ Img.axis k.img = a.val then { k with chain := { k.chain with high := none } } else k
  s.overLanes fun _ d => { d with chans := d.chans.map one }
/-- CFGa, CPRa, ZEROa (R180, R181). The corrections of Z references end with the pair that made them, or with ZREF (R163, R165).
That the last sample under the old settings still serves as (t_a, p_a) of the first one under the new ones is a DESIGN CHOICE (R166,
R181; log 36). -/
def Axis.write (x : Axis) : AxisReg → Word → Axis
  | .cfg, w =>
    let y : Axis := { x with
      src := (if fld w 0 2 = 3 then x.src else fld w 0 2)
      zref := bit w 2
      dir := bit w 3
      encDie := fld w 8 3
      encPair := fld w 12 3 }
    if y.zref && y.src == x.src && y.encDie == x.encDie && y.encPair == x.encPair then y else { y with corr := 0 }
  | .cpr, w => if 4 ≤ fld w 0 24 then { x with cpr := fld w 0 24 } else x
  | .zero, w => { x with zero := w.toNat }
/-- A write of CPRa outside its range is ignored (R180). -/
def axisIgnores : AxisReg → Word → Bool
  | .cpr, w => decide (fld w 0 24 < 4)
  | _, _ => false
/-- A write that reconfigures an axis (R181). -/
def State.axisWrite (s : State) (a : AxisId) (r : AxisReg) (w : Word) : State :=
  if axisIgnores r w then s
  else
    let t := (s.modCore (·.modAxis a (·.write r w))).clearHigh a
    match r, t.axisPair a with
    | .cfg, some ch => t.modCore (·.modAxis a fun x => { x with took := (t.chan ch).din.feedN })
    | _, _ => t
/-- Offset of an axis register (R180). -/
def axisOff (a : AxisId) : AxisReg → Nat
  | .cfg => 0x80 + 0x20 * a.val
  | .cpr => 0x84 + 0x20 * a.val
  | .zero => 0x88 + 0x20 * a.val
/-- Page AXIS (R180, R181). -/
def State.axisOp (s : State) (off : Nat) (w : Word) : State :=
  match (List.finRange 4).find? fun a => decide (0x80 + 0x20 * a.val ≤ off ∧ off < 0xA0 + 0x20 * a.val) with
  | some a =>
    (match off - (0x80 + 0x20 * a.val) with
    | 0x0 => s.axisWrite a .cfg w
    | 0x4 => s.axisWrite a .cpr w
    | 0x8 => s.axisWrite a .zero w
    | 0xC => if 1 ≤ fld w 0 10 ∧ fld w 0 10 ≤ 1000 then s.modCore (·.modAxis a fun x => { x with still := fld w 0 10 }) else s
    | _ => s)
  | none => s

/-- A port's PnCTRL (R374). -/
def PortRegs.write (r : PortRegs) (w : Word) : PortRegs :=
  { r with
    en := bit w 0
    speedMax := (if fld w 1 2 = 3 then r.speedMax else fld w 1 2)
    gclLen := (if fld w 3 6 ≤ 32 then fld w 3 6 else r.gclLen)
    cycle := (if 10 ≤ fld w 18 14 ∧ fld w 18 14 ≤ 10000 then fld w 18 14 else r.cycle) }
/-- A port's registers changed. -/
def State.modPortRegs (s : State) (port : PortId) (f : PortRegs → PortRegs) : State :=
  s.modCore fun c => { c with net := { c.net with ports := vmod c.net.ports port f } }
/-- PnCTRL: a port whose EN changes starts or stops its PTP instance (R374, R435). -/
def State.portCtrl (s : State) (port : PortId) (w : Word) : State :=
  let t := s.modPortRegs port (·.write w)
  if (s.core.net.ports[port.val]).en = bit w 0 then t else t.ptpRestart port false

/-- KEY_COMMIT over host SPI: the key in KEY_LOAD is stored under KEY_ID, with at most 4 keys kept (R291, R363). -/
def State.keyCommit (s : State) (p : Path) (w : Word) : State :=
  let id := fld w 0 8
  let key := s.core.net.keyLoad.toList.flatMap fun x => leBytes 4 x.toNat
  let rest := s.core.keys.filter (·.1 != id)
  if p = .zcs ∨ id = 0 ∨ 4 ≤ rest.length then s
  else match s.takeRole true with
    | some t =>
      let keys := (id, key) :: rest
      (t.modCore fun c => { c with keys := keys }).putStore (·.storeKeys keys)
    | none => s

/-- Page NET (R363, R373, R374). -/
def State.netOp (s : State) (p : Path) (off : Nat) (w : Word) : State :=
  let put (f : NetRegs → NetRegs) : State := s.modCore fun c => { c with net := f c.net }
  match off with
  | 0x40 => s.portCtrl 0 w
  | 0x48 => s.portCtrl 1 w
  | 0x50 => if fld w 0 2 = 3 then s else put fun n => { n with mode := fld w 0 2 }
  | 0x54 => if 1024 ≤ fld w 0 16 then put fun n => { n with udpPort := fld w 0 16 } else s
  | 0x58 => put fun n => { n with ipv4 := w }
  | 0x5C => put fun n => { n with mask := w }
  | 0x88 => s.keyCommit p w
  | _ =>
    match arrayIdx off 0x60 4, arrayIdx off 0xA0 8, arrayIdx off 0x100 32, arrayIdx off 0x180 32 with
    | some i, _, _, _ => put fun n => { n with ipv6 := n.ipv6.set i.val w i.isLt }
    | none, some i, _, _ => put fun n => { n with keyLoad := n.keyLoad.set i.val w i.isLt }
    | none, none, some i, _ => s.modPortRegs 0 fun r => { r with gcl := r.gcl.set i.val (cut w 0xFFFFFF) i.isLt }
    | none, none, none, some i => s.modPortRegs 1 fun r => { r with gcl := r.gcl.set i.val (cut w 0xFFFFFF) i.isLt }
    | none, none, none, none => s

/-- Registers of the active hub's pages (R395). -/
def State.hubOp (s : State) (p : Path) (h : HubId) (r : Fin 12) (off : Nat) (w : Word) : State :=
  match r.val with
  | 1 => s.timeOp off w
  | 2 => s.schedOp off w
  | 3 => s.ledgerOp p h off w
  | 4 => s.pwrOp off w
  | 5 => if off = 0x40 then s.tsoldCtrlWrite p w else if off = 0x44 then s.tsoldPeriodWrite p w else if off = 0x48 then (s.serve w).1 else s
  | 6 =>
    if off = 0x40 then s.modCore fun c => { c with logr := { c.logr with bbMask := fld w 0 8 } }
    else if off = 0x4C then s.modCore fun c => { c with logr := { c.logr with readIdx := fld w 0 12 } }
    else s
  | 7 => s.mainsOp off w
  | 8 => s.axisOp off w
  | 9 =>
    if off = 0x40 then s.modCore fun c => { c with redun := ⟨bit w 0, bit w 1, bit w 2⟩ } else s
  | 10 => s.netOp p off w
  | _ => s

/-! ### The register write -/

/-- What a write does at its register (R394). -/
def State.regPut (s : State) (p : Path) (pg : PageRef) (off : Nat) (w : Word) : State :=
  if off < 0x40 then s.hdrWrite pg off w
  else match pg with
    | .hub h r => s.hubOp p h r off w
    | .die d r =>
      if x : 1 ≤ r.val ∧ r.val ≤ 16 then s.chanOp p ⟨d, ⟨r.val - 1, by omega⟩⟩ off w
      else s.dieOp p d r off w
/-- A write of the hub's host or controller that has reached its register: where it is a channel's, the shadow of the channel's unit
follows (R112). -/
def State.regOp (s : State) (p : Path) (pg : PageRef) (off : Nat) (w : Word) : State :=
  match pg with
  | .hub _ _ => s.regPut p pg off w
  | .die d r =>
    if x : 0x40 ≤ off ∧ 1 ≤ r.val ∧ r.val ≤ 16 then (s.regPut p pg off w).shadowUnit ⟨d, ⟨r.val - 1, by omega⟩⟩
    else s.regPut p pg off w

/-- A write of the register at an offset of a page (R10, R26, R405, R406). -/
def State.writeReg (s : State) (p : Path) (pg : PageRef) (off : Nat) (w : Word) : State :=
  s.accessed p pg off fun s => s.regOp p pg off w
/-- A write at an address; the host SPI port ignores its two low bits, and the others refuse them (R393). -/
def State.writeAddr (s : State) (p : Path) (addr : Nat) (w : Word) : State :=
  let spi := match p with | .spi _ => true | _ => false
  if !spi && addr % 4 != 0 then s
  else match s.locate (addr / 4 * 4) with
    | .page pg off => s.writeReg p pg off w
    | _ => s
/-- A write of a header register of the page with an index (R394, R399). -/
def State.writePage (s : State) (p : Path) (page off : Nat) (w : Word) : State := s.writeAddr p (page * 4096 + off) w

/-- A channel's page. -/
def chanPage (ch : Chan) : PageRef := .die ch.die (chPage ch.c)

/-! ### Rows -/

/-- REGISTER_WRITE: any register (R10). -/
def execRegisterWrite (p : Path) (addr w : Word) (s : State) : Host.Outcome State Fault Refusal := .next (s.writeAddr p addr.toNat w)
/-- CH_CFG_WRITE (R93, R114). -/
def execChCfgWrite (p : Path) (ch : Chan) (w : Word) (s : State) : Host.Outcome State Fault Refusal := .next (s.writeReg p (chanPage ch) 0x40 w)
/-- CONV_CFG_WRITE (R122). -/
def execConvCfgWrite (p : Path) (ch : Chan) (w : Word) (s : State) : Host.Outcome State Fault Refusal := .next (s.writeReg p (chanPage ch) 0x80 w)
/-- SAFE_REQ: CTRL.SAFE_REQ sets the HOST cause (R105, R114). -/
def execSafeReq (p : Path) (ch : Chan) (w : Word) (s : State) : Host.Outcome State Fault Refusal := .next (s.writeReg p (chanPage ch) 0x5C w)
/-- PWR_REQUEST_WRITE is in the power family; PAGE_LOCK writes the locking value (R406). -/
def execPageLock (p : Path) (page : Nat) (s : State) : Host.Outcome State Fault Refusal := .next (s.writePage p page 0x28 0x4C4F434B#32)
/-- PAGE_UNLOCK (R406). -/
def execPageUnlock (p : Path) (page : Nat) (s : State) : Host.Outcome State Fault Refusal := .next (s.writePage p page 0x28 0x554E4C4B#32)
/-- EV_CLEAR_WRITE (R399). -/
def execEvClearWrite (p : Path) (page : Nat) (w : Word) (s : State) : Host.Outcome State Fault Refusal := .next (s.writePage p page 0x18 w)
/-- BLOCK_RESET: a write of PAGE_CTRL with its bit [2] (R402). -/
def execBlockReset (p : Path) (page : Nat) (w : Word) (s : State) : Host.Outcome State Fault Refusal :=
  .next (s.writePage p page 0x08 (w ||| 4#32))
/-- FREEZE_WRITE: a write of PAGE_CTRL (R402). -/
def execFreezeWrite (p : Path) (page : Nat) (w : Word) (s : State) : Host.Outcome State Fault Refusal :=
  .next (s.writePage p page 0x08 w)
/-- CNT_PRESET_WRITE (R216). -/
def execCntPresetWrite (p : Path) (ch : Chan) (w : Word) (s : State) : Host.Outcome State Fault Refusal := .next (s.writeReg p (chanPage ch) 0x210 w)
/-- KEY_COMMIT_WRITE (R363). -/
def execKeyCommitWrite (p : Path) (h : HubId) (w : Word) (s : State) : Host.Outcome State Fault Refusal := .next (s.writeReg p (.hub h 10) 0x88 w)
/-- NET_FREQ_WRITE (R125). -/
def execNetFreqWrite (p : Path) (h : HubId) (w : Word) (s : State) : Host.Outcome State Fault Refusal := .next (s.writeReg p (.hub h 7) 0x4C w)
/-- MAINS_CTRL_WRITE (R126). -/
def execMainsCtrlWrite (p : Path) (h : HubId) (w : Word) (s : State) : Host.Outcome State Fault Refusal := .next (s.writeReg p (.hub h 7) 0x40 w)
/-- Offset of a filter register (R175). -/
def filtOff : FiltReg → Nat
  | .filtCfg => 0x100 | .perInt => 0x104 | .perFrac => 0x108 | .maLen => 0x10C | .dcbCfg => 0x110 | .angCfg => 0x118
/-- FILTER_REGISTER_WRITE (R154). -/
def execFilterRegisterWrite (p : Path) (ch : Chan) (r : FiltReg) (w : Word) (s : State) : Host.Outcome State Fault Refusal :=
  .next (s.writeReg p (chanPage ch) (filtOff r) w)
/-- DIN_CFG_WRITE (R211). -/
def execDinCfgWrite (p : Path) (ch : Chan) (w : Word) (s : State) : Host.Outcome State Fault Refusal := .next (s.writeReg p (chanPage ch) 0x200 w)
/-- OUT_CFG_WRITE (R253). -/
def execOutCfgWrite (p : Path) (ch : Chan) (w : Word) (s : State) : Host.Outcome State Fault Refusal := .next (s.writeReg p (chanPage ch) 0x300 w)
/-- PAR_WRITE: OUT_CFG, for its PAR field (R238). -/
def execParWrite (p : Path) (ch : Chan) (w : Word) (s : State) : Host.Outcome State Fault Refusal := .next (s.writeReg p (chanPage ch) 0x300 w)
/-- Offset of a shadowed register (R148). -/
def auxOff : AuxReg → Nat
  | .table i => 0x100 + 4 * i.val | .len => 0x40 | .priv k => 0x50 + 4 * k.val | .inj k j => 0x300 + 0x20 * k.val + 4 * j.val
/-- AUX_SHADOW_WRITE (R137). -/
def execAuxShadowWrite (p : Path) (d : DieId) (r : AuxReg) (w : Word) (s : State) : Host.Outcome State Fault Refusal :=
  .next (s.writeReg p (.die d 20) (auxOff r) w)
/-- REF_SEL_WRITE (R131). -/
def execRefSelWrite (p : Path) (d : DieId) (w : Word) (s : State) : Host.Outcome State Fault Refusal := .next (s.writeReg p (.die d 20) 0x60 w)
/-- AXIS_CFG_WRITE (R181). -/
def execAxisCfgWrite (p : Path) (h : HubId) (a : AxisId) (r : AxisReg) (w : Word) (s : State) : Host.Outcome State Fault Refusal :=
  .next (s.writeReg p (.hub h 8) (axisOff a r) w)
/-- LEDGER_PT_WRITE (R276). -/
def execLedgerPtWrite (p : Path) (h : HubId) (w : Word) (s : State) : Host.Outcome State Fault Refusal := .next (s.writeReg p (.hub h 3) 0x50 w)
/-- Where a POLICY register lies (R274, R277). -/
def policyAt : PolicyScope → Fin 3 → PageRef × Nat
  | .package h, k => (.hub h 3, 0x54 + 4 * k.val)
  | .die d, k => (.die d 21, 0x78 + 4 * k.val)
/-- POLICY_WRITE (R271). -/
def execPolicyWrite (p : Path) (sc : PolicyScope) (k : Fin 3) (w : Word) (s : State) : Host.Outcome State Fault Refusal :=
  .next (s.writeReg p (policyAt sc k).1 (policyAt sc k).2 w)
/-- Offset of a declaration (R277). -/
def declOff : DeclReg → Nat
  | .decl c => 0x100 + 4 * c.val | .lpDecl => 0x74
/-- DECL_WRITE (R261). -/
def execDeclWrite (p : Path) (d : DieId) (r : DeclReg) (w : Word) (s : State) : Host.Outcome State Fault Refusal :=
  .next (s.writeReg p (.die d 21) (declOff r) w)
/-- ROLE_WRITE: TIME.CTRL, for ROLE (R40, R43). -/
def execRoleWrite (p : Path) (h : HubId) (w : Word) (s : State) : Host.Outcome State Fault Refusal := .next (s.writeReg p (.hub h 1) 0x40 w)
/-- PORT_CFG_WRITE: TIME.P0_CFG or P1_CFG (R43). -/
def execPortCfgWrite (p : Path) (h : HubId) (port : PortId) (w : Word) (s : State) : Host.Outcome State Fault Refusal :=
  .next (s.writeReg p (.hub h 1) (0x60 + 4 * port.val) w)
/-- ACCEPT_WRITE: TIME.CTRL, for ACCEPT (R46, R47). -/
def execAcceptWrite (p : Path) (h : HubId) (w : Word) (s : State) : Host.Outcome State Fault Refusal := .next (s.writeReg p (.hub h 1) 0x40 w)
/-- ADMIT_WRITE: SCHED.CTRL (R83). -/
def execAdmitWrite (p : Path) (h : HubId) (w : Word) (s : State) : Host.Outcome State Fault Refusal := .next (s.writeReg p (.hub h 2) 0x40 w)
/-- ALARM_WRITE: ALARM_LO, which puts ALARM in force (R345). -/
def execAlarmWrite (p : Path) (h : HubId) (w : Word) (s : State) : Host.Outcome State Fault Refusal := .next (s.writeReg p (.hub h 4) 0x54 w)
/-- WAKE_CFG_WRITE (R335, R347). -/
def execWakeCfgWrite (p : Path) (h : HubId) (w : Word) (s : State) : Host.Outcome State Fault Refusal := .next (s.writeReg p (.hub h 4) 0x48 w)
/-- HUBLOSS_T_WRITE (R408). -/
def execHublossTWrite (p : Path) (d : DieId) (w : Word) (s : State) : Host.Outcome State Fault Refusal := .next (s.writeReg p (.die d 0) 0x40 w)

end Sys2Proof.Machine
end

