-- ==== Sys2Proof/Machine/Manage.lean ====
section
/-! DEFINITION. Management frames: a register access that the hub sends to a field die, and the die's response (R16, R20,
R21, R26, R112). -/

namespace Sys2Proof.Machine
open Sys2Proof

/-- A register write that arrives at a die: discarded without power, ignored at a reserved location, rejected under a lock,
or made (R26, R327, R397, R406). -/
def State.dieWrite (s : State) (pg : PageRef) (off : Nat) (w : Word) : State :=
  if !s.locOn pg off then s.offWrite
  else if !s.regAt pg off then s
  else if s.lockedAt pg off then s.rejectAt pg 2 .zcs off
  else s.regPut .zcs pg off w

/-- A register read that arrives at a die (R25, R327). -/
def State.dieRead (s : State) (pg : PageRef) (off : Nat) : State × Word :=
  if s.locOn pg off then s.readReg pg off else (s, offWord)

/-- A Management response waits for the lane (R16). -/
def Die.answer (d : Die) (page off : Nat) (write : Bool) (w : Word) : Die :=
  { d with mgmt := d.mgmt ++ [(page, off, write, w)] }

/-- The access of a Management request at a die, and its response. -/
def State.dieAccess (s : State) (d : DieId) (m : MgmtReq) : State :=
  if x : m.page < 23 then
    let pg : PageRef := .die d ⟨m.page, x⟩
    if m.write then (s.dieWrite pg m.offset m.data).modDie d (·.answer m.page m.offset true m.data)
    else
      let r := s.dieRead pg m.offset
      r.1.modDie d (·.answer m.page m.offset false r.2)
  else s.modDie d (·.answer m.page m.offset m.write 0#32)

/-- A register access has arrived at a die: only its lease holder's is executed, another's is discarded and counted (R21, R285). -/
def State.takeAccess (s : State) (h : HubId) (d : DieId) (m : MgmtReq) : State :=
  if (s.die d).holder ≠ some h then s.modDie d Die.foreign else s.dieAccess d m
/-- PAYLOAD of a Management request that carries a register access (R284; log 18). -/
def mgmtPayload (m : MgmtReq) : Dword := accessPayload [5, putBit m.write 0, m.page, m.offset, m.data.toNat]

/-- MANAGEMENT_REQUEST_RECEIVE: the die executes the access of its lease holder; another hub's frame is discarded and
counted (R20, R21, R26, R285). -/
def execManagementRequestReceive (h : HubId) (d : DieId) (m : MgmtReq) (s : State) : Host.Outcome State Fault Refusal :=
  .next (State.commit s (s.sendDown h d (.access (some m)) (mgmtPayload m) (·.takeAccess h d m)))

/-- MANAGEMENT_RESPONSE_RECEIVE: a die's response reaches its lease holder; a write of a channel page advances the channel's
shadow (R16, R20, R26, R112). -/
def execManagementResponseReceive (h : HubId) (d : DieId) (s : State) : Host.Outcome State Fault Refusal :=
  .next (match s.upNext d with
  | some (g, .mgmt page off wr w) =>
    if g = h then
      let cs := if wr then allC.filter fun c => decide (page = c.val + 1) else []
      s.sendUp h d (.mgmt page off wr w) fun t => if h = s.active then t.syncShadow d cs else t
    else s
  | _ => s)

end Sys2Proof.Machine
end

