-- ==== Sys2Proof/Machine/Zcs.lean ====
section
/-! DEFINITION. The commands of the Zelral Command Set that act on sessions, registers, channels, the schedule, results and
streams (R357 to R360, R366, R382 to R385). -/

namespace Sys2Proof.Machine
open Sys2Proof

/-! ### Sessions (R357, R360, R382) -/

/-- What the checks of a `SessionOpen` find: the status of a refusal. A field out of range comes first, then the version, then
what other sessions hold (R357, R382). -/
def State.openRefused (s : State) (p : SessionOpenP) : Option ZS :=
  let retry := if p.retry = 0#8 then 3 else p.retry.toNat
  let ka := if p.ka = 0#16 then 100 else p.ka.toNat
  let taken := s.core.sess.toList.any fun x => match x with | some y => y.control &&& p.control.toNat != 0 | none => false
  if 60 < retry ∨ ka < 10 ∨ 10000 < ka ∨ 64 ≤ p.control.toNat ∨ p.control.toNat &&& s.dieMask ≠ p.control.toNat then some .badArg
  else if p.version.toNat < 0x20 then some .version
  else if taken then some .busy
  else none
/-- The version selected: the lower of the offer and 3.2 (R357). -/
def selectVersion (offer : Nat) : Nat := min offer 0x32
/-- EV_CLASSES of a session: at ZCS 2.x classes 0, 3 and 4 (R382, R392). -/
def classesOf (version evClasses : Nat) : Nat := if version / 16 = 2 then 0x19 else evClasses
/-- A SESSION identifier that no live session holds: the free value where it will do, else the EPOCH (R354, R357). -/
def State.newSessionId (s : State) : Nat :=
  let v := Config.sessionId s.free
  if 1 ≤ v ∧ v < 2 ^ 32 ∧ s.core.sess.toList.all (fun x => match x with | some y => y.id != v | none => true) then v
  else s.core.epoch + 1
/-- The response of a `SessionOpen` (R382). -/
def openBody (version boot id epoch : Nat) : List Byte :=
  leBytes 1 version ++ leBytes 3 0 ++ leBytes 4 boot ++ leBytes 4 id ++ leBytes 4 epoch
/-- A session as it opens: the requests that follow carry the next SEQ (R356, R357). -/
def State.newSession (s : State) (p : SessionOpenP) (seq : Word) : Session where
  id := s.newSessionId
  epoch := s.core.epoch + 1
  version := selectVersion p.version.toNat
  retry := if p.retry = 0#8 then 3 else p.retry.toNat
  ka := if p.ka = 0#16 then 100 else p.ka.toNat
  control := p.control.toNat
  evClasses := classesOf (selectVersion p.version.toNat) p.evClasses.toNat
  port := p.port
  lastRx := s.clk.elapsed
  next := (seq.toNat + 1) % 2 ^ 32
  held := []
  cache := []
  pendingSeq := []
  evq := []
  txSeq := 0
  lost := false
  src := p.src
  srcPort := p.srcPort.toNat
/-- A response to a datagram that belongs to no live session: SESSION and EPOCH 0, back to where it came from (R352, R362). -/
def State.bareReply (s : State) (seq keyId : Nat) (x : Response) (dst : BitVec 128 × Nat) (p : PortId) : State :=
  let body := respBody x
  let hdr := headerBytes 0x32 2 s.act.nv.boot 0 0 seq body.length keyId false
  s.emit ⟨.udp 0 0, 0x32, 2, s.act.nv.boot, 0, 0, seq, keyId, false, body, tagOf ((assoc s.core.keys keyId).getD []) hdr body, dst,
    if s.net.mode ≠ 0 then 2 else p.val⟩
/-- A free session slot. -/
def Core.freeSlot (c : Core) : Option (Fin 8) := (List.finRange 8).find? fun i => (c.session i).isNone

/-- The SPI session as a `SessionOpen` with a SEQ leaves it: the requests that follow carry the next SEQ (R356, R370, R382; log 52). -/
def SpiSession.opened (x : SpiSession) (version evClasses epoch : Nat) (seq : Word) : SpiSession :=
  { x with
    version := version
    evClasses := evClasses
    epoch := epoch
    next := some ((seq.toNat + 1) % 2 ^ 32)
    held := []
    cache := []
    pendingSeq := [] }
/-- `SessionOpen` over host SPI: the session's version and EV_CLASSES; SESSION 0 (R382). -/
def State.openSpi (s : State) (r : Req) (p : SessionOpenP) : State :=
  match s.openRefused p with
  | some z => s.respond r (resp 0x0001 z [])
  | none =>
    let v := selectVersion p.version.toNat
    let t := s.modCore fun c => { c with
      epoch := c.epoch + 1
      spi := c.spi.opened v (classesOf v p.evClasses.toNat) (c.epoch + 1) r.seq }
    t.respond r (resp 0x0001 .ok (openBody v s.act.nv.boot 0 t.core.epoch))
/-- `SessionOpen` over UDP; a ninth session is refused (R357). -/
def State.openUdp (s : State) (r : Req) (p : SessionOpenP) : State :=
  let dst := (p.src, p.srcPort.toNat)
  match s.openRefused p, s.core.freeSlot with
  | none, some i =>
    let x := s.newSession p r.seq
    let t := (s.tickFree).modCore fun c => { c with epoch := c.epoch + 1, sess := vmod c.sess i fun _ => some x }
    t.respond ⟨.udp i x.epoch, r.seq, r.keyId⟩ (resp 0x0001 .ok (openBody x.version s.act.nv.boot x.id x.epoch))
  | some z, _ => s.bareReply r.seq.toNat r.keyId.toNat (resp 0x0001 z []) dst p.port
  | none, none => s.bareReply r.seq.toNat r.keyId.toNat (resp 0x0001 .busy []) dst p.port
/-- SESSION_OPEN (R357, R382); ZS_BUSY during a planned switchover (R295). -/
def execSessionOpen (r : Req) (p : SessionOpenP) (s : State) : Host.Outcome State Fault Refusal :=
  .next (if s.serving then
    State.commit s (
      if s.switching then
        (match r.who with
        | .spi => s.respond r (resp 0x0001 .busy [])
        | .udp .. => s.bareReply r.seq.toNat r.keyId.toNat (resp 0x0001 .busy []) (p.src, p.srcPort.toNat) p.port)
      else match r.who with
        | .spi => s.openSpi r p
        | .udp .. => s.openUdp r p)
  else s)

/-- `SessionClose`: the response leaves under the session's identity, and the session is over (R360). The SPI session stays
(R370). A session that has ended already has no answer. -/
def State.closeSession (s : State) (r : Req) : State :=
  match r.who with
  | .spi => s.respond r (resp 0x0002 .ok [])
  | .udp i _ => if (s.core.sessOf r.who).isNone then s else
    let m := s.message r.who 2 r.seq.toNat r.keyId.toNat false (respBody (resp 0x0002 .ok []))
    let t := s.endSession i false
    if t.mirroring then t.hold (.response m r.who) else t.emit m
/-- SESSION_CLOSE (R360, R382). -/
def execSessionClose (r : Req) (s : State) : Host.Outcome State Fault Refusal :=
  .next (if s.serving then
    State.commit s (if s.switching then s.respond r (resp 0x0002 .busy []) else s.closeSession r)
  else s)

/-- The response of `Identify` (R382). -/
def State.identityBody (s : State) : List Byte :=
  s.orderCode ++ leBytes 1 (1 + putBit s.variant.dual 1) ++ leBytes 1 s.dieMask ++ leBytes 1 s.active.val ++
    leBytes 1 (putBit s.act.log.returnMark 0) ++
    (s.revOctets.flatMap (leBytes 1)) ++
    ((List.finRange 6).flatMap fun d => leBytes 1 (if (s.die d).present then (s.lane s.active d).version else 0)) ++
    leBytes 1 0x32 ++ leBytes 1 0 ++ leBytes 8 s.ident.serial ++ leBytes 4 s.act.nv.boot
/-- IDENTIFY (R382). -/
def execIdentify (r : Req) (s : State) : Host.Outcome State Fault Refusal :=
  .next (s.command r 0x0003 fun s => (s, resp 0x0003 .ok s.identityBody))

/-! ### Registers (R383) -/

/-- The addresses of a run of n registers. -/
def runOf (addr n : Nat) : List Nat := (List.range n).map fun i => addr + 4 * i
/-- The run is named well: 1 to 256 words, aligned, inside the address space, and none on the pages of an absent die or hub
(R5, R383, R393). -/
def State.runOk (s : State) (addr n : Nat) : Bool :=
  decide (1 ≤ n ∧ n ≤ 256) && addr % 4 == 0 && decide (addr + 4 * n ≤ 2 ^ 32) && (runOf addr n).all fun a => s.locate a != .absent
/-- The location is on a page of a present block and has no power (R327). -/
def State.unpowered (s : State) (addr : Nat) : Bool :=
  match s.locate addr with
  | .page p off => !s.locOn p off
  | _ => false
/-- One register is read (R327, R397); of a read that its die discards the spec gives no value: a free value (R21, log 22). -/
def State.readAddr (s : State) (addr : Nat) : State × Word :=
  match s.locate addr with
  | .page p off =>
    if !s.locOn p off then (s, offWord)
    else if s.pageHeard p off then s.readReg p off
    else ((s.unheard p).tickFree, Config.measured s.free)
  | _ => (s, 0#32)
/-- Registers read in order (R25, R383). -/
def State.readRun (s : State) : List Nat → State × List Word
  | [] => (s, [])
  | a :: rest =>
    let x := s.readAddr a
    let y := x.1.readRun rest
    (y.1, x.2 :: y.2)
/-- REG_READ (R25, R327, R383). -/
def execRegRead (r : Req) (addr : Word) (n : BitVec 16) (s : State) : Host.Outcome State Fault Refusal :=
  .next (s.command r 0x0010 fun s =>
    if s.runOk addr.toNat n.toNat then
      let x := s.readRun (runOf addr.toNat n.toNat)
      let off := (runOf addr.toNat n.toNat).any s.unpowered
      (x.1, resp 0x0010 (if off then .blockOff else .ok) (x.2.flatMap fun w => leBytes 4 w.toNat))
    else (s, resp 0x0010 .badArg []))

/-- A write that acts as a configuration reaches a locked member's page (R406). -/
def State.reachesLocked (s : State) (p : PageRef) (off : Nat) (w : Word) : Bool :=
  match p with
  | .die d r =>
    if x : 1 ≤ r.val ∧ r.val ≤ 16 then
      let ch : Chan := ⟨d, ⟨r.val - 1, by omega⟩⟩
      let i := (s.chan ch).want
      if off = 0x40 then s.unitLocked ch { i with cfg := cut w 0x000F1F3F }
      else if off = 0x80 then s.unitLockedNow ch
      else if off = 0x300 ∧ fld w 16 2 ≠ 3 ∧ fld w 16 2 ≠ fld i.outCfg 16 2 then s.unitLocked ch { i with outCfg := w }
      else false
    else false
  | .hub .. => false
/-- A write of the run would fall on a locked page; a LOCK written earlier in the run counts (R406). -/
def State.runLocked (s : State) : List (Nat × Word) → List (PageRef × Bool) → Bool
  | [], _ => false
  | (a, w) :: rest, seen =>
    match s.locate a with
    | .page p off =>
      if off = 0x28 then
        let seen' := if w = 0x4C4F434B#32 then (p, true) :: seen else if w = 0x554E4C4B#32 then (p, false) :: seen else seen
        s.runLocked rest seen'
      else
        let locked := match seen.find? (·.1 == p) with | some x => x.2 | none => s.pageLocked p
        (off != 0x18 && s.regAt p off && s.locOn p off && (locked || s.reachesLocked p off w)) || s.runLocked rest seen
    | _ => s.runLocked rest seen
/-- The path of a session's register accesses (R405). -/
def pathOf : Who → Path
  | .udp .. => .zcs
  | .spi => .tunnel
/-- One word of a run is written (R10, R26). -/
def State.writeOne (s : State) (p : Path) (addr : Nat) (w : Word) : State :=
  match s.locate addr with
  | .page pg off => s.access p pg off fun t => t.regOp p pg off w
  | _ => s
/-- Words written in ascending order of address (R383). -/
def State.writeRun (s : State) (p : Path) (l : List (Nat × Word)) : State := l.foldl (fun t x => t.writeOne p x.1 x.2) s
/-- REG_WRITE: the response counts the words that reached a powered location (R327, R383, R406). -/
def execRegWrite (r : Req) (addr : Word) (words : List Word) (s : State) : Host.Outcome State Fault Refusal :=
  .next (s.commandLater r 0x0011 fun s =>
    let l := (runOf addr.toNat words.length).zip words
    if !s.runOk addr.toNat words.length then (s, some (resp 0x0011 .badArg []))
    else if s.runLocked l [] then (s, some (resp 0x0011 .busy []))
    else
      let off := l.countP fun x => s.unpowered x.1
      let t := s.writeRun (pathOf r.who) l
      t.ifServing (resp 0x0011 (if off = 0 then .ok else .blockOff) (leBytes 2 (words.length - off))))

/-! ### Channels (R109, R384) -/

/-- The image of a command for a channel: CFG.CFG_SET is ignored (R384). -/
def State.imageFor (s : State) (ch : Chan) (a : ImageArg) : ChanImg :=
  let i := ImageArg.resolve a s.core.mains.nom (s.chan ch).want
  { i with cfg := cut i.cfg 0xFFFFF }
/-- The fields that the image itself carries hold values of their ranges (R384). Fields that a PRESET other than 0 governs are judged as
they are carried, before the preset replaces them: a DESIGN CHOICE (log 59). -/
def ImageArg.rawOk (a : ImageArg) : Bool :=
  ImageArg.formOk a && (match a with | .full i => imgFieldsOk i | .forerunner .. => true)
/-- A set is stored under its number (R384). -/
def Core.storeSet (c : Core) (n : Nat) (ch : BitVec 16) (a : ImageArg) : Core :=
  if n = 0 then c else { c with sets := (n, ch, a) :: c.sets.filter (·.1 != n) }
/-- The image stands in itself for the channel, and comes in the form of the session's version (R384, R392). -/
def State.imageOk (s : State) (w : Who) (ch : Chan) (a : ImageArg) : Bool :=
  let v4 := match a with | .full _ => false | .forerunner .. => true
  v4 == s.isV2 w && ImageArg.rawOk a && imgFieldsOk (s.imageFor ch a) && imgCombosOk ch.c (s.imageFor ch a)
/-- A PER_FRAC that was held goes with the period that an accepted image brings (R154, R174, R434). -/
def State.dropHeldBy (s : State) (c : Chan) (a : ImageArg) (i : ChanImg) : State :=
  s.modDie c.die fun d => if ImageArg.setsPeriod a then d.dropHeld c.c i else d
/-- A page that the image of a command writes is locked: one of a member's channel, or the die's ledger page with the DECL[c] that a whole
image carries (R261, R384, R406; log 53). -/
def State.imageLocked (s : State) (c : Chan) (a : ImageArg) : Bool :=
  s.unitLocked c (s.imageFor c a) || (match a with | .full _ => s.pageLocked (.die c.die 21) | .forerunner .. => false)
/-- `ChannelConfigure` on a channel (R93, R266, R384, R406). -/
def State.configureCmd (s : State) (w : Who) (c : Chan) (ch : BitVec 16) (n : Nat) (apply : Bool) (a : ImageArg) : State × Response :=
  if s.imageOk w c a = false ∨ 4095 < n ∨ (n = 0 ∧ apply = false) then (s, resp 0x0020 .badArg [])
  else if n ≠ 0 ∧ (s.core.sets.any (·.1 == n)) = false ∧ 1024 ≤ s.core.sets.length then (s, resp 0x0020 .busy [])
  else if apply then
    if s.imageLocked c a then (s, resp 0x0020 .busy [])
    else match s.configure c (s.imageFor c a) n with
      | .ok t => ((t.1.dropHeldBy c a (s.imageFor c a)).modCore (·.storeSet n ch a), resp 0x0020 .ok (leBytes 8 t.2))
      | .error z => (s, resp 0x0020 z.1 [])
  else (s.modCore (·.storeSet n ch a), resp 0x0020 .ok (leBytes 8 0))
/-- CHANNEL_CONFIGURE (R384). -/
def execChannelConfigure (r : Req) (ch set : BitVec 16) (flags : Byte) (img : ImageArg) (s : State) :
    Host.Outcome State Fault Refusal :=
  .next (s.command r 0x0020 fun s =>
    match s.chanOf ch.toNat with
    | some c =>
      if flags.toNat ≤ 1 then s.configureCmd r.who c ch set.toNat (flags.getLsbD 0) img else (s, resp 0x0020 .badArg [])
    | none => (s, resp 0x0020 .badArg []))

/-- CHANNEL_ENABLE: the stored set is put in force at tm (R93, R266, R384, R406). -/
def execChannelEnable (r : Req) (ch set : BitVec 16) (s : State) : Host.Outcome State Fault Refusal :=
  .next (s.command r 0x0021 fun s =>
    match s.chanOf ch.toNat, s.core.sets.find? fun x => x.1 == set.toNat && x.1 != 0 with
    | some c, some x =>
      let i := s.imageFor c x.2.2
      if s.imageLocked c x.2.2 then (s, resp 0x0021 .busy [])
      else match s.configure c i x.1 with
        | .ok t => (t.1.dropHeldBy c x.2.2 i, resp 0x0021 .ok (leBytes 8 t.2))
        | .error z => (s, resp 0x0021 z.1 [])
    | _, _ => (s, resp 0x0021 .badArg []))

/-- A channel, with its pair or group, will be disabled at td, where its standing charges end (R74, R262). -/
def State.planDisable (s : State) (ch : Chan) (td : Tick) : State :=
  let d := s.die ch.die
  let items : List PlanItem := (d.unit ch.c).map fun x => ⟨ch.die, Img.sclass (d.chan x).img, none, .standing td x 0 0⟩
  (s.modCore fun c => { c with disables := c.disables ++ [(ch, td)], plan := c.plan ++ items }).settlePools ch.die
/-- CHANNEL_DISABLE: the response holds td (R74, R384, R406). -/
def execChannelDisable (r : Req) (ch : BitVec 16) (s : State) : Host.Outcome State Fault Refusal :=
  .next (s.command r 0x0022 fun s =>
    match s.chanOf ch.toNat with
    | some c =>
      let td := tenAfterTwenty s.clk.now
      if s.unitLockedNow c then (s, resp 0x0022 .busy [])
      else if s.entering c.die then (s, resp 0x0022 .blockOff [])
      else match s.barred c.die with
        | some z => (s, resp 0x0022 z [])
        | none => (s.planDisable c td, resp 0x0022 .ok (leBytes 8 td))
    | none => (s, resp 0x0022 .badArg []))

/-- The channels that a scope names (R5, R377). -/
def State.named (s : State) : Scope → Option (List Chan)
  | .chan g => (s.chanOf g.toNat).map fun c => [c]
  | .die b => (s.dieOf b.toNat).map dieChans
  | .package => some s.allChans
/-- What the hub and the plant add to the conditions of `FaultClear` on a channel; the conditions at the terminals are free
values (R109). -/
def State.clearCtx (s : State) (ch : Chan) : ClearCtx where
  leased := (s.die ch.die).holder.isSome
  trained := match (s.die ch.die).holder with | some h => s.laneUp h ch.die | none => s.laneUp s.active ch.die
  cool := Config.gone (s.free + 16 * ch.die.val + ch.c.val) 0
  lpBack := Config.gone (s.free + 16 * ch.die.val) 1
  vioLow := Config.gone (s.free + 16 * ch.die.val + ch.c.val) 2
/-- HOST, WATCHDOG and SKEW of a channel are lowered by the hub (R109, R110). -/
def State.lowerLevels (s : State) (ch : Chan) : State :=
  s.modCore fun c => { c with levels := (vmod c.levels ch.die fun v => vmod v ch.c fun (x : Levels) =>
    { x with host := false, wdog := false, skew := false }) }
/-- `FaultClear` on one named channel (R109); it reaches a die that works and whose lease and lane the hub has (R13, R21). -/
def State.clearOne (s : State) (resume : Bool) (ch : Chan) : State :=
  let t := s.lowerLevels ch
  if (s.barred ch.die).isNone then (t.modDie ch.die (·.faultClear ch.die (s.dq ch.die) ch.c (s.clearCtx ch) resume)).syncShadow ch.die ((s.die ch.die).clears ch.c) else t
/-- A channel is not in RUN, once the levels that the hub has lowered have reached it (R109, R111). -/
def State.notRun (s : State) (ch : Chan) : Bool :=
  let k := s.chan ch
  ({ k with cause := k.cause &&& 0x0FF#11 } : Channel).state != .run
/-- The 96-bit mask of the channels that are not in RUN (R384). -/
def State.clearMask (s : State) (cs : List Chan) : Nat :=
  ((cs.filter s.notRun).map fun c => 2 ^ (16 * c.die.val + c.c.val)).sum
/-- FAULT_CLEAR (R109, R384). -/
def execFaultClear (r : Req) (sc : Scope) (resume : Byte) (s : State) : Host.Outcome State Fault Refusal :=
  .next (s.command r 0x0071 fun s =>
    match s.named sc with
    | some cs =>
      if 1 < resume.toNat then (s, resp 0x0071 .badArg [])
      else
        let t := cs.foldl (fun t c => t.clearOne (decide (resume = 1#8)) c) s
        ({ t with free := t.free + 96 }, resp 0x0071 .ok (leBytes 12 (t.clearMask cs)))
    | none => (s, resp 0x0071 .badArg []))

/-! ### The schedule and its results (R75, R80, R385) -/

/-- SCHEDULE_SUBMIT (R63 to R68, R385). -/
def execScheduleSubmit (r : Req) (entries : List SchedEntry) (octets : List Byte) (s : State) : Host.Outcome State Fault Refusal :=
  .next (s.command r 0x0030 fun s =>
    if 1 ≤ entries.length ∧ entries.length ≤ 64 ∧ (entries.map SchedEntry.octetCount).sum = octets.length then
      s.submit r.who (s.isV2 r.who) (dealOctets entries octets)
    else (s, resp 0x0030 .badArg (submitBody 0 0#32 s.clk.now)))

/-- A cancellation waits for tc with the entries it names (R75). -/
def State.queueCancel (s : State) (r : Req) (es : List Entry) (unknown : Nat) : State :=
  s.modCore fun c => { c with cancels := c.cancels ++ [(r, tenAfterTwenty s.clk.now, es.map fun e => (e.id, e.e.tag), unknown)] }
/-- Admitted entries that have not retired or been decided. -/
def State.liveEntries (s : State) : List Entry :=
  s.core.entries.filter fun e => match s.entryNow e.id with | some x => x.live | none => false
/-- SCHEDULE_CANCEL_BY_TAG (R75, R385). -/
def execScheduleCancelByTag (r : Req) (tags : List Word) (s : State) : Host.Outcome State Fault Refusal :=
  .next (s.commandLater r 0x0031 fun s =>
    if 1 ≤ tags.length ∧ tags.length ≤ 64 then
      let es := s.liveEntries.filter fun e => tags.contains e.e.tag
      (s.queueCancel r es (tags.countP fun t => !es.any fun e => e.e.tag == t), none)
    else (s, some (resp 0x0031 .badArg [])))
/-- SCHEDULE_CANCEL_BY_RANGE: entries of a channel with TIME in [lo, hi) (R75, R385). -/
def execScheduleCancelByRange (r : Req) (ch : BitVec 16) (lo hi : Dword) (s : State) : Host.Outcome State Fault Refusal :=
  .next (s.commandLater r 0x0031 fun s =>
    match s.chanOf ch.toNat with
    | some c =>
      (s.queueCancel r (s.liveEntries.filter fun e => decide (e.ch = c ∧ lo.toNat ≤ e.e.time.toNat ∧ e.e.time.toNat < hi.toNat)) 0, none)
    | none => (s, some (resp 0x0031 .badArg [])))

/-- The record of the fetch queue whose words come next: one already begun, else the first with words to read (R61, R385). -/
def Core.fetchNext (c : Core) : Option Record :=
  let q := c.records.filter fun r => r.dest == 0 && !r.ended
  match q.find? fun r => decide (0 < r.sent) with
  | some r => some r
  | none => q.find? fun r => decide (0 < r.readable)
/-- Words wait in the fetch queue (R385). -/
def Core.fetchMore (c : Core) : Bool := c.records.any fun r => r.dest == 0 && !r.ended && decide (r.sent < r.readable)
/-- The response of `ResultFetch` (R385). -/
def fetchBody (words : List Word) (last more : Bool) (off : Nat) : List Byte :=
  leBytes 2 words.length ++ leBytes 1 (putBit last 0 + putBit more 1) ++ leBytes 1 0 ++ leBytes 4 off ++
    words.flatMap fun w => leBytes 4 w.toNat
/-- RESULT_FETCH: words of one record, which count as delivered (R80, R385). -/
def execResultFetch (r : Req) (w : Word) (s : State) : Host.Outcome State Fault Refusal :=
  .next (s.command r 0x0032 fun s =>
    if 1 ≤ w.toNat ∧ w.toNat ≤ 355 then
      match s.core.fetchNext with
      | some x =>
        let m := min w.toNat (x.readable - x.sent)
        let last := decide (0 < m ∧ x.len ≤ x.sent + m)
        let t := s.modCore (·.delivered x.id (x.sent + m) last)
        (t, resp 0x0032 .ok (fetchBody ((List.range m).map fun j => x.word (x.sent + j)) last t.core.fetchMore x.sent))
      | none => (s, resp 0x0032 .ok (fetchBody [] false false 0))
    else (s, resp 0x0032 .badArg []))

/-! ### Streams (R360, R366, R385) -/

/-- The stream that a `StreamOpen` asks for. -/
def streamOf (p : StreamOpenP) (w : Who) : Stream where
  n := p.stream.toNat
  who := w
  port := p.port.toNat
  form := p.form.toNat
  bw := p.bandwidth.toNat
  stale := p.stale.toNat
  udpPort := p.udpPort.toNat
  nextAt := 0
  suspended := false
  isOpen := true
/-- The fields of a `StreamOpen` are in range; both ports only under PRP or HSR; a stream leaves to a UDP session (R366, R385). -/
def State.streamOk (s : State) (w : Who) (p : StreamOpenP) : Bool :=
  decide (1 ≤ p.stream.toNat ∧ p.stream.toNat ≤ 63 ∧ p.form.toNat ≤ 1 ∧ 1 ≤ p.stale.toNat ∧ p.stale.toNat ≤ 60000) &&
    (decide (p.port.toNat ≤ 1) || (p.port == 2#8 && s.net.mode != 0)) && (match w with | .udp .. => true | .spi => false)
/-- STREAM_OPEN (R366, R385). -/
def execStreamOpen (r : Req) (p : StreamOpenP) (s : State) : Host.Outcome State Fault Refusal :=
  .next (s.command r 0x0033 fun s =>
    if s.streamOk r.who p then
      let x := streamOf p r.who
      let l := s.core.streams.filter (·.n != x.n) ++ [x]
      if (s.core.streams.any fun y => y.n == x.n && y.isOpen) || !(List.finRange 2).all (fun q => !x.onPort q || s.bwFits q (totalBw l q)) then
        (s, resp 0x0033 .busy [])
      else (s.modCore fun c => { c with streams := l }, resp 0x0033 .ok [])
    else (s, resp 0x0033 .badArg []))
/-- STREAM_CLOSE: its records stay until their stale age; what it held back may resume (R360, R368, R385). -/
def execStreamClose (r : Req) (n : Byte) (s : State) : Host.Outcome State Fault Refusal :=
  .next (s.command r 0x0034 fun s =>
    if s.core.streams.any fun x => x.n == n.toNat && x.isOpen then
      ((s.modCore (·.closeStreams fun x => x.n == n.toNat)).resumeOn, resp 0x0034 .ok [])
    else (s, resp 0x0034 .badArg []))

end Sys2Proof.Machine
end

