-- ==== Sys2Proof/Machine/Service.lean ====
section
/-! DEFINITION. The commands of the Zelral Command Set for filters, calibration, the ledger, the log, redundancy, keys, audits,
returns and the auxiliary sequencer (R31, R170, R196 to R201, R295, R304, R364, R389 to R391). -/

namespace Sys2Proof.Machine
open Sys2Proof

/-! ### Filters and calibration (R170, R196 to R201, R390) -/

/-- FILTER_SYNC: tr as given, a multiple of 125 ticks at least 20 µs away, or the next one with 0 (R170, R390). -/
def execFilterSync (r : Req) (tr : Dword) (s : State) : Host.Outcome State Fault Refusal :=
  .next (s.command r 0x0040 fun s =>
    let n := if tr = 0#64 then tenAfterTwenty s.clk.now else tr.toNat
    if n % 125 = 0 ∧ s.clk.now + 20 * us ≤ n then (s.addReset n 1, resp 0x0040 .ok (leBytes 8 n))
    else (s, resp 0x0040 .badArg []))

/-- The channel may take a calibration point: a mode from 0x1 to 0x5, the even channel of a pair (R196). -/
def Channel.calible (k : Channel) : Bool := decide (1 ≤ k.mode ∧ k.mode ≤ 5) && !k.odd
/-- A `CalibrateSystem` point begins at tp; its response is sent at its end (R196, R197). -/
def State.startPoint (s : State) (r : Req) (span : Bool) (p : CalP) : State × Option Response :=
  let no (z : ZS) : State × Option Response := (s, some (resp 0x0041 z []))
  match s.chanOf p.channel.toNat with
  | some c =>
    let d := s.die c.die
    let k := s.chan c
    match s.barred c.die with
    | some z => no z
    | none =>
    if !k.calible then no .badArg
    else if k.cal.point.isSome || d.aux.suspect then no .busy
    else
      let q : CalPoint := ⟨r, span, p.v, p.w, p.s, tenAfterTwenty s.clk.now⟩
      (s.modCh c fun k => { k with cal := { k.cal with point := some q } }, none)
  | none => no .badArg
/-- CALIBRATE_SYSTEM_ZERO (R196, R390). -/
def execCalibrateSystemZero (r : Req) (p : CalP) (s : State) : Host.Outcome State Fault Refusal :=
  .next (s.commandLater r 0x0041 fun s => s.startPoint r false p)
/-- CALIBRATE_SYSTEM_SPAN (R196, R390). -/
def execCalibrateSystemSpan (r : Req) (p : CalP) (s : State) : Host.Outcome State Fault Refusal :=
  .next (s.commandLater r 0x0041 fun s => s.startPoint r true p)

/-- Global number of a channel (R9). -/
def gOf (c : Chan) : Nat := 16 * c.die.val + c.c.val
/-- What the newest bank holds for a channel: the identity where it holds nothing (R200, R201). -/
def NvStore.stored (n : NvStore) (g : Nat) : Int × Int :=
  match n.newest with
  | some b => (match b.2.find? (·.1 == g) with | some x => x.2 | none => (0, 2 ^ 30))
  | none => (0, 2 ^ 30)
/-- The set to store: what `f` gives for the channels named, and every other channel's corrections from the newest bank (R200). -/
def State.calSet (s : State) (cs : List Chan) (f : Chan → Int × Int) : List (Nat × Int × Int) :=
  s.allChans.map fun c => (gOf c, if cs.contains c then f c else s.act.nv.stored (gOf c))
/-- The bank that a store writes is lost (R200). -/
def NvStore.spoil (n : NvStore) : NvStore :=
  { n with bankA := (spoilBank n.bankA n.bankB).1, bankB := (spoilBank n.bankA n.bankB).2 }
/-- A set is written to the stores. With a failing read-back the bank that was written holds no valid commit record, and the
newest bank is as before (R200). -/
def State.storeSet (s : State) (set : List (Nat × Int × Int)) (readBack : Bool) : Option State :=
  match s.takeRole false with
  | none => none
  | some t =>
    if readBack then some (t.putStore (·.storeCal set))
    else some (t.modHub t.active fun h => { h with nv := h.nv.spoil })
/-- Sequence number of the newest bank (R390). -/
def NvStore.seq (n : NvStore) : Nat := match n.newest with | some b => b.1 | none => 0
/-- Corrections of the channels named changed. -/
def State.modCals (s : State) (cs : List Chan) (f : Chan → Cal → Cal) : State :=
  cs.foldl (fun t c => t.modCh c fun k => { k with cal := f c k.cal }) s
/-- The dies of the channels named can be reached: else what bars the first that cannot (R326). -/
def State.allBarred (s : State) (cs : List Chan) : Option ZS := cs.findSome? fun c => s.barred c.die

/-- A store reaches every store that the variant has: in a D variant the standby's too, which it writes while mirroring goes on; else the
command does not return ZS_OK (R200; log 63). -/
def State.bothStores (s : State) : Bool := !s.variant.dual || s.sharesStores
/-- A commit over the channels named: `f` gives what is stored, `g` what then changes in the channels (R199, R200). -/
def State.commitStored (s : State) (sc : Scope) (readBack : Bool) (f : Chan → Int × Int) (g : Chan → Cal → Cal) : State × Response :=
  match s.named sc with
  | none => (s, resp 0x0042 .badArg [])
  | some cs =>
    match s.allBarred cs with
    | some z => (s, resp 0x0042 z [])
    | none => match s.storeSet (s.calSet cs f) readBack with
      | none => (s, resp 0x0042 .busy [])
      | some t =>
        if readBack && s.bothStores then (t.modCals cs g, resp 0x0042 .ok (leBytes 4 t.act.nv.seq)) else (t, resp 0x0042 .storeFail [])
/-- CALIBRATION_COMMIT_STORE: the corrections in force are stored (R199, R200). -/
def execCalibrationCommitStore (r : Req) (sc : Scope) (readBack : Bool) (s : State) : Host.Outcome State Fault Refusal :=
  .next (s.command r 0x0042 fun s =>
    s.commitStored sc readBack (fun c => ((s.chan c).cal.sysOff, (s.chan c).cal.sysGain)) fun _ k => { k with uncommitted := false })
/-- CALIBRATION_COMMIT_IDENTITY: SYS_GAIN 2^30 and SYS_OFFSET 0 are stored and put in force, and the zero points kept are
cleared (R198, R199). That they come into force at the first 10 µs multiple at least 20 µs later, as those of action 1, is a
DESIGN CHOICE (log 63). -/
def execCalibrationCommitIdentity (r : Req) (sc : Scope) (readBack : Bool) (s : State) : Host.Outcome State Fault Refusal :=
  .next (s.command r 0x0042 fun s =>
    s.commitStored sc readBack (fun _ => (0, 2 ^ 30)) fun _ k =>
      { k with next := some (tenAfterTwenty s.clk.now, 0, 2 ^ 30, false), zero := none, uncommitted := false })
/-- CALIBRATION_COMMIT_REVERT: the stored corrections are put back in force (R198, R199). -/
def execCalibrationCommitRevert (r : Req) (sc : Scope) (s : State) : Host.Outcome State Fault Refusal :=
  .next (s.command r 0x0042 fun s =>
    match s.named sc with
    | none => (s, resp 0x0042 .badArg [])
    | some cs =>
      match s.allBarred cs with
      | some z => (s, resp 0x0042 z [])
      | none =>
        let back (c : Chan) (k : Cal) : Cal :=
          let x := s.act.nv.stored (gOf c)
          { k with next := some (tenAfterTwenty s.clk.now, x.1, x.2, false), zero := none, uncommitted := false }
        (s.modCals cs back, resp 0x0042 .ok (leBytes 4 s.act.nv.seq)))

/-! ### The ledger (R271, R391) -/

/-- The snapshot of the package scope (R391). -/
def State.packageBody (s : State) : List Byte :=
  let p := s.pkgPool
  leBytes 4 p.free ++ leBytes 4 p.res ++ leBytes 4 p.use ++ leBytes 4 s.deviceCharge ++
    ((List.range 3).flatMap fun k => leBytes 4 (s.pkgHeldNow (k + 1))) ++
    leBytes 16 0 ++ leBytes 8 s.clk.now
/-- The snapshot of a die scope (R391). -/
def State.dieBody (s : State) (d : DieId) : List Byte :=
  let k := s.die d
  let l := k.led
  let p := k.poolNow d s.core.plan s.clk.now
  let e := k.reservedNow d s.core.plan s.clk.now
  leBytes 4 p.free ++ leBytes 4 p.res ++ leBytes 4 p.use ++ leBytes 4 0 ++
    ((List.range 3).flatMap fun c => leBytes 4 (dieHeldNow k s.core.plan d s.clk.now (c + 1))) ++
    leBytes 4 l.level ++ leBytes 4 (l.level - e) ++ leBytes 4 e ++ leBytes 4 k.standing ++ leBytes 8 s.clk.now
/-- LEDGER_QUERY (R391). -/
def execLedgerQuery (r : Req) (scope die : Byte) (s : State) : Host.Outcome State Fault Refusal :=
  .next (s.command r 0x0050 fun s =>
    match scope.toNat, s.dieOf die.toNat with
    | 1, some d => match s.barred d with
      | none => (s, resp 0x0050 .ok (s.dieBody d))
      | some z => (s, resp 0x0050 z [])
    | 2, _ => if die = 0#8 then (s, resp 0x0050 .ok s.packageBody) else (s, resp 0x0050 .badArg [])
    | _, _ => (s, resp 0x0050 .badArg []))

/-- The scope of a `LedgerPolicySet`, with its page (R271, R391). -/
def State.policyScope (s : State) (p : PolicyP) : Option (PolicyScope × PageRef) :=
  match p.scope.toNat, s.dieOf p.die.toNat with
  | 1, some d => some (.die d, .die d 21)
  | 2, _ => if p.die = 0#8 then some (.package s.active, .hub s.active 3) else none
  | _, _ => none
/-- What keeps the policy from its scope: a die is commanded over its lane by its lease holder (R13, R21, R327). -/
def State.policyBar (s : State) : PolicyScope → Option ZS
  | .die d => s.barred d
  | .package h => if s.locOn (.hub h 3) 0x40 then none else some .blockOff
/-- LEDGER_POLICY_SET (R271, R391, R406). -/
def execLedgerPolicySet (r : Req) (p : PolicyP) (s : State) : Host.Outcome State Fault Refusal :=
  .next (s.command r 0x0051 fun s =>
    match s.policyScope p with
    | none => (s, resp 0x0051 .badArg [])
    | some x =>
      if h : 1 ≤ p.cls.toNat ∧ p.cls.toNat ≤ 3 then
        if s.pageLocked x.2 then (s, resp 0x0051 .busy [])
        else if let some z := s.policyBar x.1 then (s, resp 0x0051 z [])
        else
          let t := s.policyPut x.1 ⟨p.cls.toNat - 1, by omega⟩ ⟨p.floor.toNat, p.ceil.toNat⟩
          (match t.1 with
          | some _ => (s, resp 0x0051 .badArg [])
          | none => (t.2, resp 0x0051 .ok []))
      else (s, resp 0x0051 .badArg []))

/-! ### The log and the black box (R303, R304, R389) -/

/-- The response of `EventLogRead`: at most n records from a SEQ on, in SEQ order; `first` stands where there is none (R389). -/
def logBody (l : List LogRec) (next n seq first : Nat) : List Byte :=
  let rs := (l.filter fun x => decide (seq ≤ x.seq)).insertionSort fun a b => a.seq ≤ b.seq
  let out := rs.take n
  let late := match (l.map (·.seq)).min? with | some m => decide (seq < m) | none => false
  leBytes 1 out.length ++ leBytes 1 (putBit late 0) ++ leBytes 2 0 ++
    leBytes 4 (match out with | x :: _ => x.seq | [] => first) ++ leBytes 4 next ++ out.flatMap LogRec.bytes
/-- EVENT_LOG_READ: the RAM ring or the black box of either hub (R389). -/
def execEventLogRead (r : Req) (src hub n : Byte) (seq : Word) (s : State) : Host.Outcome State Fault Refusal :=
  .next (s.command r 0x0070 fun s =>
    if x : hub.toNat < 2 ∧ src.toNat < 2 ∧ 1 ≤ n.toNat ∧ n.toNat ≤ 44 then
      let h := s.hub ⟨hub.toNat, x.1⟩
      if 1 ≤ hub.toNat ∧ s.variant.dual = false then (s, resp 0x0070 .badArg [])
      else if !h.present || !h.up || !(decide (⟨hub.toNat, x.1⟩ = s.active) || s.strung) then (s, resp 0x0070 .blockOff [])
      else
        let l := if src = 0#8 then h.log.ring else h.log.bb
        (s.tickFree, resp 0x0070 .ok (logBody l h.log.seq n.toNat seq.toNat (Config.measured s.free).toNat))
    else (s, resp 0x0070 .badArg []))

/-- A log is made ready for the part's return: waiting copies are written, the black box is frozen and the mark is set (R304). -/
def Log.prepare (l : Log) (elapsed : Nat) : Log := { l.flush elapsed with bbFrozen := true, returnMark := true }
/-- RETURN_PREPARE: on both hubs, with the confirmation 0x52D7 (R304). -/
def execReturnPrepare (r : Req) (conf : BitVec 16) (s : State) : Host.Outcome State Fault Refusal :=
  .next (s.command r 0x0082 fun s =>
    if conf = 0x52D7#16 then
      let ready (h : Hub) : Hub := if h.present then { h with log := h.log.prepare s.clk.elapsed } else h
      ({ s with hubs := s.hubs.map ready }, resp 0x0082 .ok [])
    else (s, resp 0x0082 .badArg []))

/-! ### Redundancy, audits and keys (R31, R295, R364) -/

/-- HUB_SWITCHOVER: the new active hub sends the response (R295, R391). -/
def execHubSwitchover (r : Req) (s : State) : Host.Outcome State Fault Refusal :=
  .next (s.commandLater r 0x0072 fun s =>
    if s.variant.dual = false then (s, some (resp 0x0072 .badArg []))
    else if s.standbyReady then (s.startSwitchover 0 (some r), none)
    else (s, some (resp 0x0072 .busy [])))

/-- POOL_AUDIT: the snapshot instant; audits under way take their snapshots in turn (R31, R387). -/
def execPoolAudit (r : Req) (s : State) : Host.Outcome State Fault Refusal :=
  .next (s.command r 0x0081 fun s =>
    let t := tenAfterTwenty s.clk.now
    (s.modCore fun c => { c with audit := c.audit ++ [(r, t)] }, resp 0x0081 .ok (leBytes 8 t)))

/-- The device nonce: 16 octets (R364). -/
def State.drawNonce (s : State) : List Byte := (Config.nonce s.free ++ List.replicate 16 0#8).take 16
/-- K' = HMAC-SHA-256(K, 5A 4C 4B 52, KEY_ID, host nonce, device nonce), first octet first (R364). -/
def deriveKey (k : List Byte) (keyId : Byte) (host dev : List Byte) : List Byte :=
  (leBytes 32 (Config.hmacSha256 k ([0x5A#8, 0x4C#8, 0x4B#8, 0x52#8, keyId] ++ host ++ dev)).toNat).reverse
/-- KEY_ROTATE: K' is derived and stored; both keys are accepted until G has passed (R364, R391). -/
def execKeyRotate (r : Req) (keyId : Byte) (grace : BitVec 16) (nonce : List Byte) (stored : Bool) (s : State) :
    Host.Outcome State Fault Refusal :=
  .next (s.command r 0x0080 fun s =>
    let no (z : ZS) : State × Response := (s, resp 0x0080 z [])
    match assoc s.core.keys r.keyId.toNat with
    | none => no .badArg
    | some k =>
      if keyId = 0#8 ∨ (assoc s.core.keys keyId.toNat).isSome ∨ grace = 0#16 ∨ 3600 < grace.toNat ∨ nonce.length ≠ 16 then no .badArg
      else if s.core.grace.isSome ∨ 4 ≤ s.core.keys.length then no .busy
      else match s.takeRole true with
        | none => no .busy
        | some t =>
          let dev := s.drawNonce
          let keys := (keyId.toNat, deriveKey k keyId nonce dev) :: s.core.keys
          if stored then
            let g := some (r.keyId.toNat, keyId.toNat, s.clk.elapsed + grace.toNat * sec, r.who)
            (((t.tickFree).modCore fun c => { c with keys := keys, grace := g }).putStore (·.storeKeys keys), resp 0x0080 .ok dev)
          else (t.tickFree, resp 0x0080 .storeFail []))

/-! ### The auxiliary sequencer (R137, R138, R390) -/

/-- The end of the pass that runs, as its table stands: of its last entry, or with RUN 0 of the one it is at (R135, R137, R142). -/
def Aux.passEnd (a : Aux) : Tick :=
  let b := match a.injRun with | some (_, _, _, ta, l) => a.resumeTable (injEnd l ta) | none => a
  match b.entry with
  | some (i, te) =>
    let rest := (List.range (if b.run then min b.len 64 else i + 1)).filter fun j => decide (i ≤ j) && decide (AuxEntry.reps (b.entryAt j) ≠ 0)
    te + (rest.map fun j => AuxEntry.length (b.entryAt j)).sum
  | none => 0
/-- The pass start of a die at which the shadow is installed next: one that falls while the running pass lasts is skipped (R135, R137). -/
def Die.nextPass (d : Die) : Tick := nextMultiple (d.aux.passMs * ms) (max (d.replica + 1) d.aux.passEnd)
/-- An entry of R132 with a source that is not reserved and no reserved bit (R377, R390). -/
def entryOk (w : Word) : Bool := AuxEntry.known w && fld w 24 8 == 0
/-- A die for an `AuxSequenceLoad`: present, reached, and with its page not locked (R5, R13, R406). -/
def State.auxTarget (s : State) (d : Byte) : Except ZS DieId :=
  match s.dieOf d.toNat with
  | none => .error .badArg
  | some d => if s.pageLocked (.die d 20) then .error .busy else match s.barred d with | none => .ok d | some z => .error z
/-- AUX_SEQUENCE_LOAD_TABLE: the table goes to the shadow, with LEN (R137, R390). -/
def execAuxSequenceLoadTable (r : Req) (d : Byte) (entries : List Word) (s : State) : Host.Outcome State Fault Refusal :=
  .next (s.command r 0x0091 fun s =>
    if entries.length = 0 ∨ 64 < entries.length ∨ entries.all entryOk = false then (s, resp 0x0091 .badArg [])
    else match s.auxTarget d with
      | .error z => (s, resp 0x0091 z [])
      | .ok d =>
        if (s.die d).aux.auto then (s, resp 0x0091 .badArg [])
        else
          let load (a : Aux) : Aux := { a with tableSh := layTable entries a.tableSh, lenSh := entries.length }
          (s.modAux d load, resp 0x0091 .ok (leBytes 8 (s.die d).nextPass)))
/-- INJ[k] from its first entry on replaced (R138, R148). -/
def layInj (v : Vector Word 32) (k : Nat) (l : List Word) : Vector Word 32 :=
  vmap v fun i w => if 8 * k ≤ i.val ∧ i.val < 8 * k + l.length then l.getD (i.val - 8 * k) w else w
/-- AUX_SEQUENCE_LOAD_SLOT: PRIVk and its injected sequence go to the shadow (R137, R138, R390). -/
def execAuxSequenceLoadSlot (r : Req) (d k : Byte) (priv : Word) (entries : List Word) (s : State) : Host.Outcome State Fault Refusal :=
  .next (s.command r 0x0091 fun s =>
    if h : k.toNat < 4 then
      if entries.length = 0 ∨ 8 < entries.length ∨ entries.all entryOk = false ∨ fld priv 10 2 = 3 ∨ priv ≠ cut priv 0xFCFF then
        (s, resp 0x0091 .badArg [])
      else match s.auxTarget d with
        | .error z => (s, resp 0x0091 z [])
        | .ok d =>
          if slotClash (s.die d).aux.privSh ⟨k.toNat, h⟩ priv then (s, resp 0x0091 .badArg [])
          else
            let load (a : Aux) : Aux := { a with privSh := a.privSh.set k.toNat priv h, injSh := layInj a.injSh k.toNat entries }
            (s.modAux d load, resp 0x0091 .ok (leBytes 8 (s.die d).nextPass))
    else (s, resp 0x0091 .badArg []))

end Sys2Proof.Machine
end

