-- ==== Sys2Proof/Machine/Transport.lean ====
section
/-! DEFINITION. How commands arrive and responses leave: ZCS datagrams, the command queue and the host SPI port (R35, R352,
R354 to R362, R369 to R372, R376 to R378). -/

namespace Sys2Proof.Machine
open Sys2Proof

/-! ### The command queue (R35, R378) -/

/-- A request enters the command queue of 32 as it stands, or is answered ZS_BUSY (R35, R378). -/
def State.enqueue (s : State) (r : Req) (body : List Byte) : State :=
  if s.core.cmdq.length < 32 then s.modCore fun c => ({ c with cmdq := c.cmdq ++ [⟨r, body, none⟩] } : Core).asked r.who r.seq.toNat
  else s.respond r (s.turnAway (leAt body 0 2) .busy)
/-- The code of a queued command, and the command where its body is well formed, under the version that its session has now (R378, R392). -/
def QueuedCmd.read (q : QueuedCmd) (v2 : Bool) : Nat × Option ZcsCmd :=
  match parseBody v2 q.body, q.origin with
  | (k, some (.sessionOpen p)), some o => (k, some (.sessionOpen { p with port := o.1, src := o.2.1, srcPort := o.2.2 }))
  | x, _ => x

/-- A queued command is executed as its row of the table executes it; whether a store's read-back succeeds is a free value. -/
def runCmd (r : Req) (s : State) : ZcsCmd → Host.Outcome State Fault Refusal
  | .sessionOpen p => execSessionOpen r p s
  | .sessionClose => execSessionClose r s
  | .identify => execIdentify r s
  | .regRead a n => execRegRead r a n s
  | .regWrite a ws => execRegWrite r a ws s
  | .channelConfigure ch set flags img => execChannelConfigure r ch set flags img s
  | .channelEnable ch set => execChannelEnable r ch set s
  | .channelDisable ch => execChannelDisable r ch s
  | .scheduleSubmit es os => execScheduleSubmit r es os s
  | .cancelTags ts => execScheduleCancelByTag r ts s
  | .cancelRange ch lo hi => execScheduleCancelByRange r ch lo hi s
  | .resultFetch w => execResultFetch r w s
  | .streamOpen p => execStreamOpen r p s
  | .streamClose n => execStreamClose r n s
  | .filterSync tr => execFilterSync r tr s
  | .calibrateZero p => execCalibrateSystemZero r p s
  | .calibrateSpan p => execCalibrateSystemSpan r p s
  | .commitStore sc => execCalibrationCommitStore r sc (Config.storeOk s.free) s.tickFree
  | .commitRevert sc => execCalibrationCommitRevert r sc s
  | .commitIdentity sc => execCalibrationCommitIdentity r sc (Config.storeOk s.free) s.tickFree
  | .ledgerQuery a b => execLedgerQuery r a b s
  | .ledgerPolicySet p => execLedgerPolicySet r p s
  | .powerRequest a b c => execPowerStateRequest r a b c s
  | .watchdogConfigure a b c => execWatchdogConfigure r a b c s
  | .watchdogServe => execWatchdogServe r s
  | .eventLogRead a b c n => execEventLogRead r a b c n s
  | .faultClear sc n => execFaultClear r sc n s
  | .hubSwitchover => execHubSwitchover r s
  | .keyRotate k g n => execKeyRotate r k g n (Config.storeOk s.free) s.tickFree
  | .poolAudit => execPoolAudit r s
  | .returnPrepare n => execReturnPrepare r n s
  | .timeRead => execTimeStatusRead r s
  | .timeLoad t => execTimeStatusLoad r t s
  | .timeAccept v => execTimeStatusWriteAccept r v s
  | .auxTable d es => execAuxSequenceLoadTable r d es s
  | .auxSlot d k w es => execAuxSequenceLoadSlot r d k w es s

/-- A command whose body is refused (R377, R385). -/
def State.refuseBody (s : State) (r : Req) (code : Nat) : State := s.respond r (s.turnAway code .badArg)

/-- COMMAND_ACCEPT: the controller takes the oldest command of the queue and executes it (R378). -/
def execCommandAccept (s : State) : Host.Outcome State Fault Refusal :=
  match s.core.cmdq with
  | [] => .next s
  | q :: rest =>
    if s.serving then
      let t := s.modCore fun c => { c with cmdq := rest }
      match q.read (s.isV2 q.req.who) with
      | (_, some c) => runCmd q.req t c
      | (code, none) => .next (State.commit s (t.refuseBody q.req code))
    else .next s

/-! ### Datagrams (R354 to R362) -/

/-- Bytes 0 to 23 of a datagram as it arrived (R354). -/
def dgHeader (g : Datagram) : List Byte :=
  leBytes 2 g.magic.toNat ++ [g.version, g.kind] ++ leBytes 4 g.boot.toNat ++ leBytes 4 g.session.toNat ++ leBytes 4 g.epoch.toNat ++
    leBytes 4 g.seq.toNat ++ leBytes 2 g.length.toNat ++ [g.keyId, g.flags]
/-- MAGIC, KIND, LENGTH, KEY_ID and TAG are right; hosts send requests and axis samples (R354, R355, R369). -/
def Core.authentic (c : Core) (g : Datagram) : Bool :=
  g.magic == 0x5A4C#16 && (g.kind == 1#8 || g.kind == 6#8) && g.length.toNat == g.body.length && decide (g.body.length ≤ 1432) &&
    (match assoc c.keys g.keyId.toNat with | some k => tagOf k (dgHeader g) g.body == g.tag | none => false)
/-- A datagram is discarded and counted, with EV_AUTH_FAIL at most once per second (R355). -/
def State.authFails (s : State) : State :=
  let t := s.modCore fun c => { c with authFail := satInc c.authFail }
  if (match s.core.authEvAt with | some e => decide (e + sec ≤ s.clk.elapsed) | none => true) = true then
    (t.modCore fun c => { c with authEvAt := some s.clk.elapsed }).raiseNow .authFail []
  else t
/-- Where a datagram's answer goes. -/
def replyTo (g : Datagram) : BitVec 128 × Nat := (g.src, g.srcPort.toNat)
/-- The command code of a datagram's body. -/
def cmdOf (g : Datagram) : Nat := leAt g.body 0 2
/-- The live session that a datagram names (R355, R359). -/
def State.sessionFor (s : State) (g : Datagram) : Option (Fin 8) :=
  if g.boot.toNat = s.act.nv.boot then
    (List.finRange 8).find? fun i => match s.core.session i with | some x => x.id == g.session.toNat && x.epoch == g.epoch.toNat | none => false
  else none
/-- A `SessionOpen` arrives (R357); another command without a session is answered ZS_AUTH (R355). -/
def State.openRequest (s : State) (p : PortId) (g : Datagram) : State :=
  let no (z : ZS) : State := s.bareReply g.seq.toNat g.keyId.toNat (s.turnAway (cmdOf g) z) (replyTo g) p
  match parseBody false g.body with
  | (0x0001, some _) =>
    if s.core.cmdq.length < 32 then
      s.modCore fun c => { c with cmdq := c.cmdq ++ [⟨⟨.udp 0 0, g.seq, g.keyId⟩, g.body, some (p, g.src, g.srcPort)⟩] }
    else no .busy
  | (0x0001, none) => no .badArg
  | _ => no .auth
/-- An authenticated datagram of a session: its timers start again, and a session whose link loss was declared resumes, with
HOLD_REQ cleared (R358, R359). -/
def State.heard (s : State) (i : Fin 8) : State :=
  match s.core.session i with
  | some x =>
    let t := s.modCore (·.modSess i fun y => { y with lastRx := s.clk.elapsed, lost := false })
    if x.lost then t.clearHold x.control else t
  | none => s
/-- How far a SEQ lies ahead of N, modulo 2^32 (R356). -/
def seqAhead (seq next : Nat) : Nat := (seq + 2 ^ 32 - next) % 2 ^ 32
/-- A request is discarded by its SEQ and counted (R356). -/
def State.dropSeq (s : State) : State := s.modCore fun c => { c with seqDrop := satInc c.seqDrop }
/-- The response to a SEQ waits for the standby (R282). -/
def State.responseHeld (s : State) (w : Who) (seq : Nat) : Bool :=
  s.mirror.held.any fun x => match x.2 with | .response m v => v == w && m.seq == seq | _ => false
/-- A duplicate: the cached response is resent with DUPLICATE set, unless it is still pending (R356). -/
def State.duplicate (s : State) (w : Who) (cache : List (Nat × Response)) (seq keyId : Nat) : State :=
  match assoc cache seq with
  | some r => if s.responseHeld w seq then s else s.emit (s.message w 2 seq keyId true (respBody r))
  | none => s

/-- The request whose SEQ is due (R356). -/
def State.acceptReq (s : State) (i : Fin 8) (x : Session) (g : Datagram) : State :=
  (s.modCore (·.modSess i fun y => { y with next := (y.next + 1) % 2 ^ 32 })).enqueue ⟨.udp i x.epoch, g.seq, g.keyId⟩ g.body
/-- Held requests that are now in order follow (R356). -/
def State.followHeld (i : Fin 8) : Nat → State → State
  | 0, s => s
  | n + 1, s =>
    match s.core.session i with
    | some x =>
      (match x.held.find? (·.1 == x.next) with
      | some h =>
        let t := s.modCore (·.modSess i fun y => { y with held := y.held.filter (·.1 != h.1) })
        State.followHeld i n (t.acceptReq i x h.2.2)
      | none => s)
    | none => s
/-- A request is handled by its SEQ (R356). -/
def State.takeRequest (s : State) (i : Fin 8) (x : Session) (g : Datagram) : State :=
  let ahead := seqAhead g.seq.toNat x.next
  if ahead = 0 then State.followHeld i 7 (s.acceptReq i x g)
  else if ahead ≤ 7 then
    if x.held.any (·.1 == g.seq.toNat) then s
    else s.modCore (·.modSess i fun y => { y with held := y.held ++ [(g.seq.toNat, s.clk.elapsed, g)] })
  else if 2 ^ 32 - 16 ≤ ahead then s.duplicate (.udp i x.epoch) x.cache g.seq.toNat g.keyId.toNat
  else s.dropSeq
/-- The samples of an axis datagram: time and 64-bit position (R164, R369). -/
def axisSamples (b : List Byte) : List (Nat × Int) :=
  (List.range ((b.length - 4) / 16)).map fun j =>
    let o := 4 + 16 * j
    (leAt b o 8, (BitVec.ofNat 32 (leAt b (o + 12) 4)).toInt * 2 ^ 32 + leAt b (o + 8) 4)
/-- Axis samples in order, for an axis whose source is the network (R164, R369). -/
def State.takeAxis (s : State) (g : Datagram) : State :=
  let a := leAt g.body 0 1
  if h : a < 4 ∧ 20 ≤ g.body.length ∧ g.body.length ≤ 1028 ∧ (g.body.length - 4) % 16 = 0 ∧ leAt g.body 1 3 = 0 then
    if (s.core.axis ⟨a, h.1⟩).src = 2 then (axisSamples g.body).foldl (fun t x => t.axisSample ⟨a, h.1⟩ x.1 x.2) s else s
  else s
/-- A datagram as the active hub processes it (R355, R357, R359, R362). -/
def State.datagram (s : State) (p : PortId) (g : Datagram) : State :=
  if !s.core.authentic g then s.authFails
  else if g.kind = 1#8 ∧ g.session = 0#32 ∧ g.epoch = 0#32 ∧ g.boot = 0#32 then s.openRequest p g
  else match s.sessionFor g with
    | none =>
      if g.kind = 1#8 then s.bareReply g.seq.toNat g.keyId.toNat (s.turnAway (cmdOf g) .auth) (replyTo g) p else s
    | some i =>
      let t := s.heard i
      if g.kind = 1#8 then (match t.core.session i with | some x => t.takeRequest i x g | none => t) else t.takeAxis g
/-- An IPv4 address where a datagram's 128 bits hold one: the IPv4-mapped form (PRESUMED, log 49). -/
def mapped4 (a : Word) : BitVec 128 := BitVec.ofNat 128 (0xFFFF * 2 ^ 32 + a.toNat)
/-- The address is one of the port's: its IPv4 address unless that is 0, its static IPv6 address unless that is 0, or a link-local one
(R373; log 49). -/
def NetPort.isAddr (x : NetPort) (a : BitVec 128) : Bool :=
  let w (i : Nat) : Word := x.addr.getD i 0#32
  let v6 : BitVec 128 := w 2 ++ w 3 ++ w 4 ++ w 5
  (w 0 != 0#32 && a == mapped4 (w 0)) || (v6 != 0#128 && a == v6) || a.extractLsb' 118 10 == 0x3FA#10
/-- A datagram on port p is taken in: the port is enabled and has a link, its hub runs, and the datagram names an address of the port and
the ZCS port (R353, R369, R373, R374). -/
def State.hears (s : State) (p : PortId) (g : Datagram) : Bool :=
  s.portSends p && (s.net.ports[p.val]).isAddr g.dst && decide (g.dstPort.toNat = s.core.net.udpPort)
/-- A datagram has reached the active hub; of the two copies of modes 1 and 2 the second is discarded and counted (R352). -/
def State.reached (s : State) (p : PortId) (g : Datagram) : State :=
  if s.serving then
    let d := s.net.discard g.tag.toNat p s.clk.elapsed
    let t := { s with net := d.1 }
    if d.2 then t.modCore fun c => { c with dupDiscard := satInc c.dupDiscard } else t.datagram p g
  else s
/-- A datagram arrives on a port: the active hub's own brings it to that hub; on the other hub's it enters the relay queue of 64 KiB, or is
discarded and counted when that is full (R351). -/
def State.arrive (s : State) (p : PortId) (g : Datagram) : State :=
  let n := wireOctets g.body.length (s.net.mode == 1)
  State.commit s (if !s.hears p g then s
  else if s.portOwner p = s.active then s.reached p g
  else if 65536 < s.net.relayOctets + n then s.modCore fun c => { c with relayDrop := satInc c.relayDrop }
  else { s with net := { s.net with relay := s.net.relay ++ [(p, g, n)] } })
/-- DATAGRAM_RECEIVE (R351, R354 to R362). -/
def execDatagramReceive (p : PortId) (dg : Datagram) (s : State) : Host.Outcome State Fault Refusal := .next (s.arrive p dg)
/-- AXIS_SAMPLES_DATAGRAM (R164, R351, R369). -/
def execAxisSamplesDatagram (p : PortId) (dg : Datagram) (s : State) : Host.Outcome State Fault Refusal := .next (s.arrive p dg)

/-- The next 8 octets of the relay queue's oldest frame have reached the active hub; with the last of them it is taken up (R351). -/
def State.relayIn (s : State) : State :=
  match s.net.relay with
  | (p, g, n) :: rest =>
    if n ≤ 8 then ({ s with net := { s.net with relay := rest } } : State).reached p g
    else { s with net := { s.net with relay := (p, g, n - 8) :: rest } }
  | [] => s
/-- Octets wait for a Port relay frame in a direction over port p: at the port's hub, or at the active one (R351). -/
def State.relayWaits (s : State) (p : PortId) (egress : Bool) : Bool :=
  if egress then (s.net.egress[p.val]).any fun x => x.1 != 0 else !s.net.relay.isEmpty
/-- PORT_RELAY_RECEIVE: a Port relay frame carries octets of a network frame over the String: of the oldest received frame from the port's
hub to the active hub, or of the oldest one that is to leave by the port, which waits until all of it is there (R351). PTP messages are
rows of their own, and never relayed. -/
def execPortRelayReceive (p : PortId) (egress : Bool) (frame : List Byte) (s : State) : Host.Outcome State Fault Refusal :=
  let o := s.portOwner p
  let pay : Dword := BitVec.ofNat 64 (leAt frame 0 8)
  .next (if s.variant.dual && decide (o ≠ s.active) && (s.hub o).up && s.act.up && s.relayWaits p egress then
    State.commit s (if egress then s.sendStr s.active .portRelay pay fun t => { t with net := { t.net with egress := vmod t.net.egress p carryOut } }
    else s.sendStr o .portRelay pay State.relayIn)
  else s)

/-- A held request has waited for 100 ms (R356). -/
def heldDue {α : Type} (l : List (Nat × Nat × α)) (seq elapsed : Nat) : Bool :=
  l.any fun h => h.1 == seq && decide (h.2.1 + 100 * ms ≤ elapsed)
/-- HELD_REQUEST_TIMEOUT: a request held for 100 ms is discarded and counted (R356). -/
def execHeldRequestTimeout (w : Who) (seq : Word) (s : State) : Host.Outcome State Fault Refusal :=
  .next (match w, s.core.sessOf w with
  | .udp i _, some x =>
    if s.serving && heldDue x.held seq.toNat s.clk.elapsed then
      State.commit s (s.modCore (·.modSess i fun y => { y with held := y.held.filter (·.1 != seq.toNat) })).dropSeq
    else s
  | .spi, _ =>
    if s.serving && heldDue s.core.spi.held seq.toNat s.clk.elapsed then
      State.commit s (s.modCore fun c => { c with spi := { c.spi with held := c.spi.held.filter (·.1 != seq.toNat) } }).dropSeq
    else s
  | .udp .., none => s)

/-! ### Host SPI (R370 to R372) -/

/-- A standby's port answers reads of its own pages; an absent block and a reserved location read zero (R5, R12), and what another
read shifts out is a free value (R372). -/
def State.ownRead (s : State) (h : HubId) (addr : Nat) : State × Word :=
  match s.locate addr with
  | .page (.hub k r) off =>
    if k ≠ h then (s.tickFree, Config.measured s.free)
    else if s.hubOn k r off then s.readReg (.hub k r) off
    else (s, offWord)
  | .page (.die ..) _ => (s.tickFree, Config.measured s.free)
  | .absent | .reserved => (s, 0#32)

/-- Reads of a standby's port in order. -/
def State.ownRun (s : State) (h : HubId) : List Nat → State × List Word
  | [] => (s, [])
  | a :: rest =>
    let x := s.ownRead h a
    let y := x.1.ownRun h rest
    (y.1, x.2 :: y.2)
/-- The standby's own page holds the location, without power. -/
def State.ownOff (s : State) (h : HubId) (addr : Nat) : Bool :=
  match s.locate addr with
  | .page (.hub k r) off => decide (k = h) && !s.hubOn k r off
  | _ => false
/-- Addresses of a transfer: the two low bits are ignored (R370, R393). -/
def spiRun (addr : BitVec 24) (n : Nat) : List Nat := runOf (addr.toNat / 4 * 4) n
/-- SPI_REGISTER_READ (R5, R25, R327, R370 to R372); the operand `quad` chooses the lines and changes nothing else. -/
def execSpiRegisterRead (h : HubId) (_quad : Bool) (addr : BitVec 24) (n : Nat) (s : State) : Host.Outcome State Fault Refusal :=
  let l := spiRun addr n
  .next (if !s.spiAlive h then s.shiftOut h []
    else if h = s.active then
      let x := s.readRun l
      x.1.shiftOut h (s.spiStatus h (l.any s.unpowered) false :: x.2)
    else
      let x := s.ownRun h l
      x.1.shiftOut h (s.spiStatus h (l.any (s.ownOff h)) false :: x.2))
/-- SPI_REGISTER_WRITE: a standby discards it; the status word is read back last, and the write completes with it when the standby has
acknowledged the unit (R5, R282, R327, R370 to R372). -/
def execSpiRegisterWrite (h : HubId) (_quad : Bool) (addr : BitVec 24) (words : List Word) (s : State) :
    Host.Outcome State Fault Refusal :=
  let l := spiRun addr words.length
  .next (if !s.spiAlive h then s.shiftOut h []
    else if h = s.active then
      let err := l.any s.unpowered
      let t := s.writeRun (.spi h) (l.zip words)
      if t.mirroring then State.commit s ((t.shiftOut h []).hold (.spiWrite err))
      else
        let u := State.commit s t
        u.shiftOut h [u.spiStatus h err false]
    else s.shiftOut h [s.spiStatus h false false])
/-- The fields of a tunnel message's header that a datagram's are discarded for: MAGIC, KIND and LENGTH (R354, R355, R370; log 52). -/
def TunnelMsg.sound (m : TunnelMsg) : Bool := m.magic == 0x5A4C#16 && m.kind == 1#8 && m.length.toNat == m.body.length
/-- The command code of a tunnel message. -/
def TunnelMsg.cmd (m : TunnelMsg) : Nat := leAt m.body 0 2
/-- A `SessionOpen` with BOOT, SESSION and EPOCH 0 (R357, R382). -/
def TunnelMsg.opens (m : TunnelMsg) : Bool := TunnelMsg.cmd m == 1 && m.boot == 0#32 && m.session == 0#32 && m.epoch == 0#32
/-- The message names the SPI session: the boot counter, SESSION 0, and the EPOCH of its last `SessionOpen` (R357, R362, R382). -/
def State.tunnelLive (s : State) (m : TunnelMsg) : Bool :=
  decide (m.boot.toNat = s.act.nv.boot) && m.session == 0#32 && decide (m.epoch.toNat = s.core.spi.epoch)
/-- How far the message lies ahead of N, which the session's first request gives (R356; log 52). -/
def SpiSession.ahead (x : SpiSession) (seq : Nat) : Nat := match x.next with | some n => seqAhead seq n | none => 0
/-- The tunnel request whose SEQ is due; a body beyond 4,096 octets is refused (R356, R377). -/
def State.acceptTunnel (s : State) (m : TunnelMsg) : State :=
  let t := s.modCore fun c => { c with spi := { c.spi with next := some ((m.seq.toNat + 1) % 2 ^ 32) } }
  let r : Req := ⟨.spi, m.seq, 0#8⟩
  if m.body.length ≤ 4096 then t.enqueue r m.body else t.refuseBody r (TunnelMsg.cmd m)
/-- Held tunnel requests that are now in order follow (R356). -/
def State.followTunnel : Nat → State → State
  | 0, s => s
  | n + 1, s =>
    match s.core.spi.held.find? fun h => some h.1 == s.core.spi.next with
    | some h =>
      let t := s.modCore fun c => { c with spi := { c.spi with held := c.spi.held.filter (·.1 != h.1) } }
      State.followTunnel n (t.acceptTunnel h.2.2)
    | none => s
/-- A tunnel request is handled by its SEQ, as a session's are (R356, R370). -/
def State.takeTunnel (s : State) (m : TunnelMsg) : State :=
  let ahead := s.core.spi.ahead m.seq.toNat
  if ahead = 0 then State.followTunnel 7 (s.acceptTunnel m)
  else if ahead ≤ 7 then
    if s.core.spi.held.any (·.1 == m.seq.toNat) then s
    else s.modCore fun c => { c with spi := { c.spi with held := c.spi.held ++ [(m.seq.toNat, s.clk.elapsed, m)] } }
  else if 2 ^ 32 - 16 ≤ ahead then s.duplicate .spi s.core.spi.cache m.seq.toNat 0
  else s.dropSeq
/-- A tunnel message as the active hub processes it: one that names a boot counter, session or epoch which the device does not hold is
answered ZS_AUTH with EPOCH 0 (R357, R362, R370). -/
def State.tunnelRequest (s : State) (m : TunnelMsg) : State :=
  if TunnelMsg.opens m then s.enqueue ⟨.spi, m.seq, 0#8⟩ m.body
  else if !s.tunnelLive m then
    s.emit { s.message .spi 2 m.seq.toNat 0 false (respBody (s.turnAway (TunnelMsg.cmd m) .auth)) with epoch := 0 }
  else s.takeTunnel m
/-- The message would enter the command queue, and finds it full (R35, R371). -/
def State.tunnelFull (s : State) (m : TunnelMsg) : Bool :=
  decide (32 ≤ s.core.cmdq.length ∧ m.body.length ≤ 4096) && (TunnelMsg.opens m || (s.tunnelLive m && s.core.spi.ahead m.seq.toNat == 0))
/-- SPI_TUNNEL_WRITE: a request of the SPI session, or TUNNEL_FULL with ZS_BUSY; a standby discards it; in Sleep the tunnel's block
is not powered (R35, R325, R356, R362, R370 to R372, R377). -/
def execSpiTunnelWrite (h : HubId) (m : TunnelMsg) (s : State) : Host.Outcome State Fault Refusal :=
  .next (if !s.spiAlive h then s.shiftOut h []
    else if !s.awake then s.shiftOut h [s.spiStatus h true false]
    else if h = s.active ∧ s.serving = true ∧ TunnelMsg.sound m = true then
      let t := State.commit s (s.tunnelRequest m)
      t.shiftOut h [t.spiStatus h false (s.tunnelFull m)]
    else s.shiftOut h [s.spiStatus h false false])
/-- A message in octets: the header of R354 minus TAG, and the body (R370). -/
def OutMsg.octets (m : OutMsg) : List Byte :=
  headerBytes m.version m.kind m.boot m.session m.epoch m.seq m.body.length m.keyId m.dup ++ m.body
/-- SPI_TUNNEL_READ: the status word, then the oldest waiting response or event, four octets to a word; in Sleep the tunnel's block is
not powered (R325, R370, R371). -/
def execSpiTunnelRead (h : HubId) (s : State) : Host.Outcome State Fault Refusal :=
  .next (if !s.spiAlive h then s.shiftOut h []
    else if !s.awake then s.shiftOut h [s.spiStatus h true false]
    else if h = s.active then
      let w := s.spiStatus h false false
      let t := if s.core.spi.tunnel.isEmpty then s.spiEvents else s
      match t.core.spi.tunnel with
      | m :: rest =>
        let u := State.commit s (t.modCore fun c => { c with spi := { c.spi with tunnel := rest } })
        u.shiftOut h (w :: wordsOf (ceilDiv m.octets.length 4) m.octets)
      | [] => s.shiftOut h [w]
    else s.shiftOut h [s.spiStatus h false false])

end Sys2Proof.Machine
end

