-- ==== Sys2Proof/Machine/Dispatch.lean ====
section
/-! DEFINITION. The dispatch of a command to its meaning: one arm per constructor. -/

namespace Sys2Proof.Machine
open Sys2Proof

def exec (i : Instr) (s : State) : Host.Outcome State Fault Refusal :=
  match i with
  | .sessionOpen r p => Sys2Proof.Machine.execSessionOpen r p s
  | .sessionClose r => Sys2Proof.Machine.execSessionClose r s
  | .identify r => Sys2Proof.Machine.execIdentify r s
  | .regRead r addr n => Sys2Proof.Machine.execRegRead r addr n s
  | .regWrite r addr words => Sys2Proof.Machine.execRegWrite r addr words s
  | .channelConfigure r ch set flags img => Sys2Proof.Machine.execChannelConfigure r ch set flags img s
  | .channelEnable r ch set => Sys2Proof.Machine.execChannelEnable r ch set s
  | .channelDisable r ch => Sys2Proof.Machine.execChannelDisable r ch s
  | .scheduleSubmit r entries octets => Sys2Proof.Machine.execScheduleSubmit r entries octets s
  | .scheduleCancelByTag r tags => Sys2Proof.Machine.execScheduleCancelByTag r tags s
  | .scheduleCancelByRange r ch lo hi => Sys2Proof.Machine.execScheduleCancelByRange r ch lo hi s
  | .resultFetch r w => Sys2Proof.Machine.execResultFetch r w s
  | .streamOpen r p => Sys2Proof.Machine.execStreamOpen r p s
  | .streamClose r n => Sys2Proof.Machine.execStreamClose r n s
  | .filterSync r tr => Sys2Proof.Machine.execFilterSync r tr s
  | .calibrateSystemZero r p => Sys2Proof.Machine.execCalibrateSystemZero r p s
  | .calibrateSystemSpan r p => Sys2Proof.Machine.execCalibrateSystemSpan r p s
  | .calPointEnd ch openSeen subMeans => Sys2Proof.Machine.execCalPointEnd ch openSeen subMeans s
  | .sysCorrectionApply ch => Sys2Proof.Machine.execSysCorrectionApply ch s
  | .calibrationCommitStore r sc readBack => Sys2Proof.Machine.execCalibrationCommitStore r sc readBack s
  | .calibrationCommitRevert r sc => Sys2Proof.Machine.execCalibrationCommitRevert r sc s
  | .calibrationCommitIdentity r sc readBack => Sys2Proof.Machine.execCalibrationCommitIdentity r sc readBack s
  | .ledgerQuery r scope die => Sys2Proof.Machine.execLedgerQuery r scope die s
  | .ledgerPolicySet r p => Sys2Proof.Machine.execLedgerPolicySet r p s
  | .powerStateRequest r target scope die => Sys2Proof.Machine.execPowerStateRequest r target scope die s
  | .watchdogConfigure r period ctrl which => Sys2Proof.Machine.execWatchdogConfigure r period ctrl which s
  | .watchdogServe r => Sys2Proof.Machine.execWatchdogServe r s
  | .eventLogRead r src hub n seq => Sys2Proof.Machine.execEventLogRead r src hub n seq s
  | .faultClear r sc resume => Sys2Proof.Machine.execFaultClear r sc resume s
  | .hubSwitchover r => Sys2Proof.Machine.execHubSwitchover r s
  | .keyRotate r keyId grace nonce stored => Sys2Proof.Machine.execKeyRotate r keyId grace nonce stored s
  | .poolAudit r => Sys2Proof.Machine.execPoolAudit r s
  | .returnPrepare r conf => Sys2Proof.Machine.execReturnPrepare r conf s
  | .timeStatusRead r => Sys2Proof.Machine.execTimeStatusRead r s
  | .timeStatusLoad r t => Sys2Proof.Machine.execTimeStatusLoad r t s
  | .timeStatusWriteAccept r v => Sys2Proof.Machine.execTimeStatusWriteAccept r v s
  | .auxSequenceLoadTable r d entries => Sys2Proof.Machine.execAuxSequenceLoadTable r d entries s
  | .auxSequenceLoadSlot r d k priv entries => Sys2Proof.Machine.execAuxSequenceLoadSlot r d k priv entries s
  | .datagramReceive p dg => Sys2Proof.Machine.execDatagramReceive p dg s
  | .heldRequestTimeout w seq => Sys2Proof.Machine.execHeldRequestTimeout w seq s
  | .commandAccept => Sys2Proof.Machine.execCommandAccept s
  | .axisSamplesDatagram p dg => Sys2Proof.Machine.execAxisSamplesDatagram p dg s
  | .spiRegisterRead h quad addr n => Sys2Proof.Machine.execSpiRegisterRead h quad addr n s
  | .spiRegisterWrite h quad addr words => Sys2Proof.Machine.execSpiRegisterWrite h quad addr words s
  | .spiTunnelWrite h m => Sys2Proof.Machine.execSpiTunnelWrite h m s
  | .spiTunnelRead h => Sys2Proof.Machine.execSpiTunnelRead h s
  | .registerWrite p addr w => Sys2Proof.Machine.execRegisterWrite p addr w s
  | .chCfgWrite p ch w => Sys2Proof.Machine.execChCfgWrite p ch w s
  | .convCfgWrite p ch w => Sys2Proof.Machine.execConvCfgWrite p ch w s
  | .safeReq p ch w => Sys2Proof.Machine.execSafeReq p ch w s
  | .serveKeyA p h => Sys2Proof.Machine.execServeKeyA p h s
  | .serveKeyB p h => Sys2Proof.Machine.execServeKeyB p h s
  | .serveOtherValue p h v => Sys2Proof.Machine.execServeOtherValue p h v s
  | .tsoldEnSet p h w => Sys2Proof.Machine.execTsoldEnSet p h w s
  | .tsoldPeriodWrite p h w => Sys2Proof.Machine.execTsoldPeriodWrite p h w s
  | .tsoldActionWrite p h w => Sys2Proof.Machine.execTsoldActionWrite p h w s
  | .watchdogLate => Sys2Proof.Machine.execWatchdogLate s
  | .pwrRequestWrite p h w => Sys2Proof.Machine.execPwrRequestWrite p h w s
  | .pageLock p page => Sys2Proof.Machine.execPageLock p page s
  | .pageUnlock p page => Sys2Proof.Machine.execPageUnlock p page s
  | .evClearWrite p page w => Sys2Proof.Machine.execEvClearWrite p page w s
  | .blockReset p page w => Sys2Proof.Machine.execBlockReset p page w s
  | .freezeWrite p page w => Sys2Proof.Machine.execFreezeWrite p page w s
  | .cntPresetWrite p ch w => Sys2Proof.Machine.execCntPresetWrite p ch w s
  | .countPresetApply ch => Sys2Proof.Machine.execCountPresetApply ch s
  | .keyCommitWrite p h w => Sys2Proof.Machine.execKeyCommitWrite p h w s
  | .netFreqWrite p h w => Sys2Proof.Machine.execNetFreqWrite p h w s
  | .mainsCtrlWrite p h w => Sys2Proof.Machine.execMainsCtrlWrite p h w s
  | .filterRegisterWrite p ch r w => Sys2Proof.Machine.execFilterRegisterWrite p ch r w s
  | .dinCfgWrite p ch w => Sys2Proof.Machine.execDinCfgWrite p ch w s
  | .outCfgWrite p ch w => Sys2Proof.Machine.execOutCfgWrite p ch w s
  | .parWrite p ch w => Sys2Proof.Machine.execParWrite p ch w s
  | .auxShadowWrite p d r w => Sys2Proof.Machine.execAuxShadowWrite p d r w s
  | .refSelWrite p d w => Sys2Proof.Machine.execRefSelWrite p d w s
  | .axisCfgWrite p h a r w => Sys2Proof.Machine.execAxisCfgWrite p h a r w s
  | .ledgerPtWrite p h w => Sys2Proof.Machine.execLedgerPtWrite p h w s
  | .policyWrite p sc k w => Sys2Proof.Machine.execPolicyWrite p sc k w s
  | .declWrite p d r w => Sys2Proof.Machine.execDeclWrite p d r w s
  | .roleWrite p h w => Sys2Proof.Machine.execRoleWrite p h w s
  | .portCfgWrite p h port w => Sys2Proof.Machine.execPortCfgWrite p h port w s
  | .acceptWrite p h w => Sys2Proof.Machine.execAcceptWrite p h w s
  | .admitWrite p h w => Sys2Proof.Machine.execAdmitWrite p h w s
  | .alarmWrite p h w => Sys2Proof.Machine.execAlarmWrite p h w s
  | .wakeCfgWrite p h w => Sys2Proof.Machine.execWakeCfgWrite p h w s
  | .hublossTWrite p d w => Sys2Proof.Machine.execHublossTWrite p d w s
  | .outputStateSend d => Sys2Proof.Machine.execOutputStateSend d s
  | .outputStateReceive h d k => Sys2Proof.Machine.execOutputStateReceive h d k s
  | .statusSend d => Sys2Proof.Machine.execStatusSend d s
  | .statusReceive h d k => Sys2Proof.Machine.execStatusReceive h d k s
  | .timeFrameSend l => Sys2Proof.Machine.execTimeFrameSend l s
  | .timeFrameReceive h d => Sys2Proof.Machine.execTimeFrameReceive h d s
  | .coastingStart d => Sys2Proof.Machine.execCoastingStart d s
  | .laneDelayMeasure h d roundTrip => Sys2Proof.Machine.execLaneDelayMeasure h d roundTrip s
  | .promotionBegin id => Sys2Proof.Machine.execPromotionBegin id s
  | .promotionFrameReceive h d => Sys2Proof.Machine.execPromotionFrameReceive h d s
  | .managementRequestReceive h d m => Sys2Proof.Machine.execManagementRequestReceive h d m s
  | .managementResponseReceive h d => Sys2Proof.Machine.execManagementResponseReceive h d s
  | .resultFrameReceive d => Sys2Proof.Machine.execResultFrameReceive d s
  | .captureFrameReceive d => Sys2Proof.Machine.execCaptureFrameReceive d s
  | .angleTagFrameReceive d => Sys2Proof.Machine.execAngleTagFrameReceive d s
  | .eventFrameReceive d => Sys2Proof.Machine.execEventFrameReceive d s
  | .frameConsume l dir => Sys2Proof.Machine.execFrameConsume l dir s
  | .frameCrcFail l dir buffered => Sys2Proof.Machine.execFrameCrcFail l dir buffered s
  | .replayRequestReceive l dir seq => Sys2Proof.Machine.execReplayRequestReceive l dir seq s
  | .laneCrcRun h d => Sys2Proof.Machine.execLaneCrcRun h d s
  | .trainingComplete l version occDown occUp => Sys2Proof.Machine.execTrainingComplete l version occDown occUp s
  | .laneFailed h d => Sys2Proof.Machine.execLaneFailed h d s
  | .laneTrainingRetry h d => Sys2Proof.Machine.execLaneTrainingRetry h d s
  | .idleFrameReceive h d => Sys2Proof.Machine.execIdleFrameReceive h d s
  | .renewSend h => Sys2Proof.Machine.execRenewSend h s
  | .renewReceive h d => Sys2Proof.Machine.execRenewReceive h d s
  | .claimSend h => Sys2Proof.Machine.execClaimSend h s
  | .claimReceive h d => Sys2Proof.Machine.execClaimReceive h d s
  | .releaseReceive h d => Sys2Proof.Machine.execReleaseReceive h d s
  | .grantReceive h d => Sys2Proof.Machine.execGrantReceive h d s
  | .leaseExpiry d => Sys2Proof.Machine.execLeaseExpiry d s
  | .hubLossExpiry d => Sys2Proof.Machine.execHubLossExpiry d s
  | .heartbeatSend h => Sys2Proof.Machine.execHeartbeatSend h s
  | .heartbeatReceive h => Sys2Proof.Machine.execHeartbeatReceive h s
  | .heartbeatMissed h => Sys2Proof.Machine.execHeartbeatMissed h s
  | .lossOfActiveHub => Sys2Proof.Machine.execLossOfActiveHub s
  | .takeoverClaimTimeout => Sys2Proof.Machine.execTakeoverClaimTimeout s
  | .mirrorFrameReceive => Sys2Proof.Machine.execMirrorFrameReceive s
  | .mirrorCommitReceive => Sys2Proof.Machine.execMirrorCommitReceive s
  | .mirrorReady => Sys2Proof.Machine.execMirrorReady s
  | .roleLeaseExpiry h r => Sys2Proof.Machine.execRoleLeaseExpiry h r s
  | .portRelayReceive p egress frame => Sys2Proof.Machine.execPortRelayReceive p egress frame s
  | .stringFault => Sys2Proof.Machine.execStringFault s
  | .hubRestart h => Sys2Proof.Machine.execHubRestart h s
  | .hubRestartComplete h => Sys2Proof.Machine.execHubRestartComplete h s
  | .hubSelfCheckFail h => Sys2Proof.Machine.execHubSelfCheckFail h s
  | .poolCheck d => Sys2Proof.Machine.execPoolCheck d s
  | .poolAuditSnapshot => Sys2Proof.Machine.execPoolAuditSnapshot s
  | .idleEntry h => Sys2Proof.Machine.execIdleEntry h s
  | .idleExit h => Sys2Proof.Machine.execIdleExit h s
  | .syncReceive p media m => Sys2Proof.Machine.execSyncReceive p media m s
  | .announceReceive p a => Sys2Proof.Machine.execAnnounceReceive p a s
  | .syncReceiptTimeout p => Sys2Proof.Machine.execSyncReceiptTimeout p s
  | .announceReceiptTimeout p => Sys2Proof.Machine.execAnnounceReceiptTimeout p s
  | .holdoverLimit => Sys2Proof.Machine.execHoldoverLimit s
  | .timeStep => Sys2Proof.Machine.execTimeStep s
  | .txTimestampMissing p => Sys2Proof.Machine.execTxTimestampMissing p s
  | .faultyEnd p => Sys2Proof.Machine.execFaultyEnd p s
  | .syncInEdge lowFor highFor => Sys2Proof.Machine.execSyncInEdge lowFor highFor s
  | .deferralRetry => Sys2Proof.Machine.execDeferralRetry s
  | .entryExecute id => Sys2Proof.Machine.execEntryExecute id s
  | .entryRetire id => Sys2Proof.Machine.execEntryRetire id s
  | .staleAgeExpiry rec => Sys2Proof.Machine.execStaleAgeExpiry rec s
  | .modeChangeStart ch => Sys2Proof.Machine.execModeChangeStart ch s
  | .transitionEnd x => Sys2Proof.Machine.execTransitionEnd x s
  | .channelDisableInstant ch => Sys2Proof.Machine.execChannelDisableInstant ch s
  | .cancelInstant => Sys2Proof.Machine.execCancelInstant s
  | .filterChange ch => Sys2Proof.Machine.execFilterChange ch s
  | .overrangeConfirm ch isOver => Sys2Proof.Machine.execOverrangeConfirm ch isOver s
  | .openWireResult ch isOpen => Sys2Proof.Machine.execOpenWireResult ch isOpen s
  | .terminalMonitorResult ch sn mV => Sys2Proof.Machine.execTerminalMonitorResult ch sn mV s
  | .overloadConfirm ch => Sys2Proof.Machine.execOverloadConfirm ch s
  | .shortFgConfirm ch => Sys2Proof.Machine.execShortFgConfirm ch s
  | .backfeedConfirm ch => Sys2Proof.Machine.execBackfeedConfirm ch s
  | .backfeedClear ch => Sys2Proof.Machine.execBackfeedClear ch s
  | .thermalConfirm ch => Sys2Proof.Machine.execThermalConfirm ch s
  | .lpUndervoltConfirm d => Sys2Proof.Machine.execLpUndervoltConfirm d s
  | .lpUndervoltEpisodeEnd d => Sys2Proof.Machine.execLpUndervoltEpisodeEnd d s
  | .offPulseStart ch => Sys2Proof.Machine.execOffPulseStart ch s
  | .offPulseEnd ch vioMv => Sys2Proof.Machine.execOffPulseEnd ch vioMv s
  | .rampStep ch => Sys2Proof.Machine.execRampStep ch s
  | .holdMsExpiry ch => Sys2Proof.Machine.execHoldMsExpiry ch s
  | .shuntOpen ch => Sys2Proof.Machine.execShuntOpen ch s
  | .shuntRecloseTrial ch => Sys2Proof.Machine.execShuntRecloseTrial ch s
  | .currentLimitFoldback ch => Sys2Proof.Machine.execCurrentLimitFoldback ch s
  | .foldbackRetry ch => Sys2Proof.Machine.execFoldbackRetry ch s
  | .auxPassStart d => Sys2Proof.Machine.execAuxPassStart d s
  | .auxEntryEnd d result => Sys2Proof.Machine.execAuxEntryEnd d result s
  | .urgentTrigger d id => Sys2Proof.Machine.execUrgentTrigger d id s
  | .urgentArrival d k => Sys2Proof.Machine.execUrgentArrival d k s
  | .pwmEventTimeout d k => Sys2Proof.Machine.execPwmEventTimeout d k s
  | .injectedSequenceEnd d results => Sys2Proof.Machine.execInjectedSequenceEnd d results s
  | .refCompare d diff => Sys2Proof.Machine.execRefCompare d diff s
  | .refSwitch d => Sys2Proof.Machine.execRefSwitch d s
  | .mainsZeroCrossing x => Sys2Proof.Machine.execMainsZeroCrossing x s
  | .mainsSourceTimeout => Sys2Proof.Machine.execMainsSourceTimeout s
  | .mainsHoldExpiry => Sys2Proof.Machine.execMainsHoldExpiry s
  | .mainsBoundarySend => Sys2Proof.Machine.execMainsBoundarySend s
  | .mainsWindowEnd ch raw => Sys2Proof.Machine.execMainsWindowEnd ch raw s
  | .chainOutput ch samples window => Sys2Proof.Machine.execChainOutput ch samples window s
  | .decimatorReset => Sys2Proof.Machine.execDecimatorReset s
  | .axisSample a time pos => Sys2Proof.Machine.execAxisSample a time pos s
  | .angleEpisodeEnd ch overspeed => Sys2Proof.Machine.execAngleEpisodeEnd ch overspeed s
  | .axisZReference a time => Sys2Proof.Machine.execAxisZReference a time s
  | .axisStill a => Sys2Proof.Machine.execAxisStill a s
  | .carouselSlotStart d k => Sys2Proof.Machine.execCarouselSlotStart d k s
  | .carouselTakeover d k own spare => Sys2Proof.Machine.execCarouselTakeover d k own spare s
  | .carouselPointsEnd d k points pairs temp => Sys2Proof.Machine.execCarouselPointsEnd d k points pairs temp s
  | .carouselHandback d k own spare => Sys2Proof.Machine.execCarouselHandback d k own spare s
  | .carouselSelfCalEnd d k points temp => Sys2Proof.Machine.execCarouselSelfCalEnd d k points temp s
  | .warmStartWrite => Sys2Proof.Machine.execWarmStartWrite s
  | .comparatorEdge ch rising => Sys2Proof.Machine.execComparatorEdge ch rising s
  | .filterTick ch => Sys2Proof.Machine.execFilterTick ch s
  | .encoderEpisodeEnd ch => Sys2Proof.Machine.execEncoderEpisodeEnd ch s
  | .captureHeldTimeout ch => Sys2Proof.Machine.execCaptureHeldTimeout ch s
  | .captureRetire id => Sys2Proof.Machine.execCaptureRetire id s
  | .pwmPeriodStart ch => Sys2Proof.Machine.execPwmPeriodStart ch s
  | .pwmDutyEnd ch => Sys2Proof.Machine.execPwmDutyEnd ch s
  | .shareCompare ch currents => Sys2Proof.Machine.execShareCompare ch currents s
  | .fskCarrierDetect ch => Sys2Proof.Machine.execFskCarrierDetect ch s
  | .fskOctetReceive ch octet parityErr framingErr start => Sys2Proof.Machine.execFskOctetReceive ch octet parityErr framingErr start s
  | .fskTimeout ch => Sys2Proof.Machine.execFskTimeout ch s
  | .fskReceptionEnd ch carrier => Sys2Proof.Machine.execFskReceptionEnd ch carrier s
  | .ledgerEpoch d metered => Sys2Proof.Machine.execLedgerEpoch d metered s
  | .heatMetering d m => Sys2Proof.Machine.execHeatMetering d m s
  | .operatingPointAdjust h busyPct => Sys2Proof.Machine.execOperatingPointAdjust h busyPct s
  | .policyEpisodeEnd h clip => Sys2Proof.Machine.execPolicyEpisodeEnd h clip s
  | .voltageConfirm h => Sys2Proof.Machine.execVoltageConfirm h s
  | .vreqAck h => Sys2Proof.Machine.execVreqAck h s
  | .vreqTimeout h => Sys2Proof.Machine.execVreqTimeout h s
  | .powerHandshakeAnswer b a => Sys2Proof.Machine.execPowerHandshakeAnswer b a s
  | .powerHandshakeTimeout => Sys2Proof.Machine.execPowerHandshakeTimeout s
  | .commitStart => Sys2Proof.Machine.execCommitStart s
  | .entryComplete => Sys2Proof.Machine.execEntryComplete s
  | .wakeNEvent low => Sys2Proof.Machine.execWakeNEvent low s
  | .alarmWake => Sys2Proof.Machine.execAlarmWake s
  | .linkEnergyWake p energy => Sys2Proof.Machine.execLinkEnergyWake p energy s
  | .wakePattern p addressed payload => Sys2Proof.Machine.execWakePattern p addressed payload s
  | .wakeComplete => Sys2Proof.Machine.execWakeComplete s
  | .powerUp st => Sys2Proof.Machine.execPowerUp st s
  | .powerUpComplete => Sys2Proof.Machine.execPowerUpComplete s
  | .powerFailure => Sys2Proof.Machine.execPowerFailure s
  | .powerDownStep => Sys2Proof.Machine.execPowerDownStep s
  | .linkDown p => Sys2Proof.Machine.execLinkDown p s
  | .linkUp p v => Sys2Proof.Machine.execLinkUp p v s
  | .linkLossDeclare slot => Sys2Proof.Machine.execLinkLossDeclare slot s
  | .sessionTimeout slot => Sys2Proof.Machine.execSessionTimeout slot s
  | .keyGraceExpiry => Sys2Proof.Machine.execKeyGraceExpiry s
  | .speedRenegotiate p v => Sys2Proof.Machine.execSpeedRenegotiate p v s
  | .streamBlockSend stream => Sys2Proof.Machine.execStreamBlockSend stream s
  | .gateCycleStart p => Sys2Proof.Machine.execGateCycleStart p s
  | .supervisionFrameSend => Sys2Proof.Machine.execSupervisionFrameSend s
  | .duplicateEntryExpiry => Sys2Proof.Machine.execDuplicateEntryExpiry s
  | .logWrite h => Sys2Proof.Machine.execLogWrite h s
  | .blackBoxCopy h => Sys2Proof.Machine.execBlackBoxCopy h s
  | .eventDatagramSend w => Sys2Proof.Machine.execEventDatagramSend w s
  | .isolatedPowerLost d => Sys2Proof.Machine.execIsolatedPowerLost d s
  | .activeHubStop => Sys2Proof.Machine.execActiveHubStop s
  | .fskTransmitEnd ch => Sys2Proof.Machine.execFskTransmitEnd ch s
  | .roleLeaseReceive h r granted => Sys2Proof.Machine.execRoleLeaseReceive h r granted s
  | .mirrorCommitAck => Sys2Proof.Machine.execMirrorCommitAck s

end Sys2Proof.Machine
end

