-- ==== Sys2Proof/Safety.lean ====
section
/-! DEFINITION. The terms in which claims are made: safe steps, what a step leaves alone (frames), the answer to a command, a
register write that reaches its register, and the invariants of the machine. No meaning of this model faults or refuses, so
every run is safe; the claims are about what a step changes. -/

namespace Sys2Proof
open Machine

/-- The outcome is a next state. -/
def isNext : Host.Outcome State Fault Refusal → Bool
  | .next _ => true
  | _ => false

/-- The step from s completes. -/
def SafeStep (s : State) : Prop := isNext (step s) = true

/-! ### Frames -/

/-- At most die d differs: hubs, the active hub's state, the network, power, time and the queue are as before. -/
def OnlyDie (d : DieId) (s t : State) : Prop := t = { s with dies := t.dies } ∧ ∀ e, e ≠ d → t.die e = s.die e
/-- At most the channel ch differs, with the entries, results and events of its own die. -/
def OnlyChannel (ch : Chan) (s t : State) : Prop := OnlyDie ch.die s t ∧ ∀ c, c ≠ ch.c → (t.die ch.die).chan c = (s.die ch.die).chan c
/-- At most hub h differs. -/
def OnlyHub (h : HubId) (s t : State) : Prop := t = { s with hubs := t.hubs } ∧ ∀ k, k ≠ h → t.hub k = s.hub k
/-- Of the dies nothing differs: no channel, output, queue, reservoir or page of a die. -/
def KeepsDies (s t : State) : Prop := t.dies = s.dies
/-- At most the answer to a command differs: the messages that left, what the ports have to send, a session's books, and the mirroring. -/
def OnlyAnswer (s t : State) : Prop :=
  t = { s with
    core := { s.core with sess := t.core.sess, spi := t.core.spi }
    net := { s.net with sent := t.net.sent, egress := t.net.egress }
    mirror := t.mirror }

/-! ### Commands -/

/-- The controller runs command code cmd for r: a hub serves, no planned switchover is under way, and the session's version
has the command (R14, R295, R392). -/
abbrev Runs (s : State) (r : Req) (cmd : Nat) : Prop := s.serving = true ∧ s.turnedAway r cmd = none
/-- From s, a command that has made u of the state answers r with x, and everything the hub changed is mirrored as one unit
(R282, R378). -/
abbrev replied (s u : State) (r : Req) (x : Response) : State := State.commit s (u.respond r x)
/-- x is the answer that t has just given to r: the last message that left to its session, or, while the hub mirrors, the
last action held back (R282, R356, R378). -/
def Answered (t : State) (r : Req) (x : Response) : Prop :=
  ∃ m : OutMsg, m.who = r.who ∧ m.kind = 2 ∧ m.seq = r.seq.toNat ∧ m.body = respBody x ∧
    ((∃ n, t.mirror.held.getLast? = some (n, .response m r.who)) ∨
      (match r.who with | .udp .. => t.net.sent.getLast? = some m | .spi => t.core.spi.tunnel.getLast? = some m))

/-- The request and the code of a command that the controller runs (R380); SessionOpen and SessionClose, which a 2.x session
may always use, are not among them. -/
def commandOf : Instr → Option (Req × Nat)
  | .identify r => some (r, 0x0003)
  | .regRead r _ _ => some (r, 0x0010)
  | .regWrite r _ _ => some (r, 0x0011)
  | .channelConfigure r _ _ _ _ => some (r, 0x0020)
  | .channelEnable r _ _ => some (r, 0x0021)
  | .channelDisable r _ => some (r, 0x0022)
  | .scheduleSubmit r _ _ => some (r, 0x0030)
  | .scheduleCancelByTag r _ => some (r, 0x0031)
  | .scheduleCancelByRange r _ _ _ => some (r, 0x0031)
  | .resultFetch r _ => some (r, 0x0032)
  | .streamOpen r _ => some (r, 0x0033)
  | .streamClose r _ => some (r, 0x0034)
  | .filterSync r _ => some (r, 0x0040)
  | .calibrateSystemZero r _ => some (r, 0x0041)
  | .calibrateSystemSpan r _ => some (r, 0x0041)
  | .calibrationCommitStore r _ _ => some (r, 0x0042)
  | .calibrationCommitRevert r _ => some (r, 0x0042)
  | .calibrationCommitIdentity r _ _ => some (r, 0x0042)
  | .ledgerQuery r _ _ => some (r, 0x0050)
  | .ledgerPolicySet r _ => some (r, 0x0051)
  | .powerStateRequest r _ _ _ => some (r, 0x0060)
  | .watchdogConfigure r _ _ _ => some (r, 0x0061)
  | .watchdogServe r => some (r, 0x0062)
  | .eventLogRead r _ _ _ _ => some (r, 0x0070)
  | .faultClear r _ _ => some (r, 0x0071)
  | .hubSwitchover r => some (r, 0x0072)
  | .keyRotate r _ _ _ _ => some (r, 0x0080)
  | .poolAudit r => some (r, 0x0081)
  | .returnPrepare r _ => some (r, 0x0082)
  | .timeStatusRead r => some (r, 0x0090)
  | .timeStatusLoad r _ => some (r, 0x0090)
  | .timeStatusWriteAccept r _ => some (r, 0x0090)
  | .auxSequenceLoadTable r _ _ => some (r, 0x0091)
  | .auxSequenceLoadSlot r _ _ _ _ => some (r, 0x0091)
  | _ => none

/-- The row that a queued command is, for its request; `ok` says whether a store's read-back succeeds (R35, R378). -/
def rowOf (r : Req) (ok : Bool) : ZcsCmd → Instr
  | .sessionOpen p => .sessionOpen r p
  | .sessionClose => .sessionClose r
  | .identify => .identify r
  | .regRead a n => .regRead r a n
  | .regWrite a ws => .regWrite r a ws
  | .channelConfigure ch set flags img => .channelConfigure r ch set flags img
  | .channelEnable ch set => .channelEnable r ch set
  | .channelDisable ch => .channelDisable r ch
  | .scheduleSubmit es os => .scheduleSubmit r es os
  | .cancelTags ts => .scheduleCancelByTag r ts
  | .cancelRange ch lo hi => .scheduleCancelByRange r ch lo hi
  | .resultFetch w => .resultFetch r w
  | .streamOpen p => .streamOpen r p
  | .streamClose n => .streamClose r n
  | .filterSync tr => .filterSync r tr
  | .calibrateZero p => .calibrateSystemZero r p
  | .calibrateSpan p => .calibrateSystemSpan r p
  | .commitStore sc => .calibrationCommitStore r sc ok
  | .commitRevert sc => .calibrationCommitRevert r sc
  | .commitIdentity sc => .calibrationCommitIdentity r sc ok
  | .ledgerQuery a b => .ledgerQuery r a b
  | .ledgerPolicySet p => .ledgerPolicySet r p
  | .powerRequest a b c => .powerStateRequest r a b c
  | .watchdogConfigure a b c => .watchdogConfigure r a b c
  | .watchdogServe => .watchdogServe r
  | .eventLogRead a b c n => .eventLogRead r a b c n
  | .faultClear sc n => .faultClear r sc n
  | .hubSwitchover => .hubSwitchover r
  | .keyRotate k g n => .keyRotate r k g n ok
  | .poolAudit => .poolAudit r
  | .returnPrepare n => .returnPrepare r n
  | .timeRead => .timeStatusRead r
  | .timeLoad t => .timeStatusLoad r t
  | .timeAccept v => .timeStatusWriteAccept r v
  | .auxTable d es => .auxSequenceLoadTable r d es
  | .auxSlot d k w es => .auxSequenceLoadSlot r d k w es
/-- The command reads a store back, so a free value says whether that succeeds. -/
def readsBack : ZcsCmd → Bool
  | .commitStore _ | .commitIdentity _ | .keyRotate .. => true
  | _ => false

/-! ### Registers -/

/-- A write by path p reaches the register at an offset of page pg: a hub answers, the path leads to it, the page's block is
there and powered, the offset holds a register, the die takes the request from its lease holder, and neither the standby nor a lock
turns the write away (R5, R10, R21, R327, R372, R397, R398, R406). -/
abbrev Reaches (s : State) (p : Path) (pg : PageRef) (off : Nat) : Prop :=
  s.answers = true ∧ s.pathOpen p = true ∧ s.pageThere pg = true ∧ s.locOn pg off = true ∧ s.regAt pg off = true ∧
    s.standbyPage pg = false ∧ s.pageHeard pg off = true ∧ s.lockedAt pg off = false

/-- A header write from s makes t; on a page of the active hub it also goes to the standby's copy of the page with the next
unit (R398). -/
def noted (s : State) (pg : PageRef) (off : Nat) (w : Word) (t : State) : State :=
  match pg with
  | .hub h r => if h = s.active then { t with mirror := { t.mirror with wr := t.mirror.wr ++ [(r.val, off, w)] } } else t
  | .die _ _ => t

/-! ### Invariants -/

/-- Every copy of the active hub's mirrored state: its own, the standby's, and those on their way over the String. -/
def cores (s : State) : List Core := s.core :: s.copy :: (s.mirror.wire ++ s.mirror.rx.toList).map (·.core)
/-- The schedule slots, the result store and the near-term queues keep their sizes (R27). -/
def PoolsWhole (s : State) : Prop :=
  (∀ c ∈ cores s, c.slots.total = 65536 ∧ c.store.total = 1048576) ∧ ∀ d, (s.die d).ntqPool.total = 256
/-- RAISED = LOGGED + COUNTED on both hubs, and no staging queue holds more than 64 records (R300, R301). -/
def EventsWhole (s : State) : Prop :=
  ∀ h, (s.hub h).log.raised = (s.hub h).log.logged + (s.hub h).log.counted ∧ (s.hub h).log.staged.length ≤ 64

end Sys2Proof
end

