-- ==== Sys2Proof/Certificates/Slice0/Obligations.lean ====
section
/-! DEFINITION. The statements about this machine, for the provers. A result statement's conclusion is `exec … = .next …`, so it
says too that the command completes there. -/

open Sys2Proof Sys2Proof.Machine

/-- What reset leaves, where the spec gives the values (R14, R27, R29, R35, R83, R106, R126, R146, R178, R205, R255, R275, R320,
R321): no command waits; schedule admission is on; the watchdog is off with its period of 100 ms half closed; mains is
free-running at 50 Hz, a period of 60,000,000 ticks, with NET_FREQ 50,000; the slots, the store, the near-term queues and the
dissipation pools are whole and free, each reservoir is at 600 credits, and the event counts agree (R300); every policy has no
floor and the largest ceiling; every channel is disabled, with each register of its configuration image at its reset value; the
carousel runs. -/
def Obligations.ResetValues : Prop :=
  State.reset.pending = [] ∧ State.reset.core.cmdq = [] ∧ State.reset.core.entries = [] ∧ State.reset.core.records = [] ∧
  (State.reset.core.sched.admits = true ∧ State.reset.core.sched.doneEvAll = false) ∧
  (State.reset.core.wd.en = false ∧ State.reset.core.wd.p = 100000 ∧ State.reset.core.wd.close = 128 ∧
    State.reset.core.wd.armed = false ∧ State.reset.core.wd.pend = none) ∧
  (State.reset.core.mains.src = 0 ∧ State.reset.core.mains.st = .free ∧ State.reset.core.mains.nom = false ∧
    State.reset.core.mains.netFreq = 50000 ∧ State.reset.core.mains.period = 60000000 ∧ State.reset.core.mains.ch = 0 ∧
    State.reset.core.mains.holdS = 10) ∧
  (State.reset.core.time.accept = false ∧ State.reset.core.time.role = 0 ∧ State.reset.sync.st = .unlocked ∧ State.reset.sync.set = false) ∧
  State.reset.core.slots = ⟨65536, 0, 0⟩ ∧ State.reset.core.store = ⟨1048576, 0, 0⟩ ∧
  State.reset.core.ledger.pool = ⟨25000, 0, 0⟩ ∧ State.reset.core.ledger.policy = Vector.replicate 3 ⟨0, 0xFFFF⟩ ∧
  (PoolsWhole State.reset ∧ EventsWhole State.reset) ∧
  (∀ d, (State.reset.die d).hublossT = 2000 ∧ (State.reset.die d).ntqPool = ⟨256, 0, 0⟩ ∧ (State.reset.die d).ntq = [] ∧
    (State.reset.die d).car.run = true ∧ (State.reset.die d).allowSafe = false ∧
    (State.reset.die d).led.policy = Vector.replicate 3 ⟨0, 0xFFFF⟩ ∧ (State.reset.die d).led.pool = ⟨4000, 0, 0⟩ ∧
    (State.reset.die d).led.level = 60000 ∧ (State.reset.die d).led.eRes = 0 ∧ (State.reset.die d).led.refilled = 0 ∧
    (State.reset.die d).led.drawn = 0 ∧ (State.reset.die d).led.overflowed = 0) ∧
  ∀ ch : Chan, (State.reset.chan ch).mode = 0 ∧ (State.reset.chan ch).pend = [] ∧ (State.reset.chan ch).pendF = [] ∧
    (State.reset.chan ch).want = (State.reset.chan ch).img ∧ (State.reset.chan ch).img =
      { cfg := 0#32, safe := 0#32, safeVal := 0#32, linkloss := 1000#32, diag := 0x1434#32, opt := 1000#32, convCfg := 0#32
        filtCfg := 1#32, perInt := 12000#32, perFrac := 0#32, maLen := 1#32, dcbCfg := 0x1000#32, angCfg := 0x0A00#32
        dinCfg := 0x1E0FA2#32, encCfg := 0#32, outCfg := 0x110#32, fskCfg := 0x500#32, decl := 0x40000000#32 }

/-- One step takes the command at the front of the queue and runs it on the state with the queue's rest (the model's step,
log 6). -/
def Obligations.StepTakesTheFrontCommand : Prop :=
  ∀ (c : Instr) (rest : List Instr) (s : State), step { s with pending := c :: rest } = exec c { s with pending := rest }

/-- On an empty queue one step is one tick of 1/3 ns (R8, R36, R44, R45, R48; that an idle step is a tick is the model's choice, log
6): once the device is powered and not held in reset (R422), elapsed time advances by 1 and device time by 1, corrected by at most 1 for a
slew in progress or for the frequency correction, of which what makes no whole tick yet is carried on; every die's replica that neither
coasts nor realigns moves with it; each page's next register cycle begins (R11, R402); each port that sends puts the waiting frames that
its gates let go onto the wire, in their order (R365); registers, channels and queues stay. -/
def Obligations.IdleStepIsATick : Prop :=
  ∀ (s : State), s.pending = [] →
    (s.power.boot = .unpowered ∨ s.power.boot = .heldInReset → step s = .next s) ∧
    (s.power.boot ≠ .unpowered → s.power.boot ≠ .heldInReset → ∃ t, step s = .next t ∧ t.clk.elapsed = s.clk.elapsed + 1 ∧
      s.clk.now ≤ t.clk.now ∧ t.clk.now ≤ s.clk.now + 2 ∧ t.sync.slew.natAbs ≤ s.sync.slew.natAbs ∧
      (((t.clk.now : Int) + t.sync.slew) * 1000000000 + t.clk.frac =
        (s.clk.now + 1 + s.sync.slew) * 1000000000 + s.clk.frac + s.sync.freq) ∧
      (∀ d, (s.die d).coasting = false → (s.die d).realign = 0 →
        ((t.die d).replica : Int) - (s.die d).replica = t.clk.now - s.clk.now) ∧
      (∀ d, (s.die d).coasting = true → (s.die d).frac + (s.die d).coastFreq = 0 → (t.die d).replica = (s.die d).replica + 1) ∧
      t = { s with
        clk := t.clk
        sync := { s.sync with slew := t.sync.slew }
        hubs := s.hubs.map Hub.nextCycle
        dies := t.dies
        base := s.counters
        net := { s.net with egress := t.net.egress, wire := t.net.wire } } ∧
      (∀ p : PortId,
        (s.portSends p = false → t.net.egress[p.val] = s.net.egress[p.val] ∧ t.net.wire[p.val] = s.net.wire[p.val]) ∧
        (s.portSends p = true → t.net.egress[p.val] = (s.net.egress[p.val]).filter (fun x => !t.canLeave p x) ∧
          t.net.wire[p.val] = s.net.wire[p.val] ++ ((s.net.egress[p.val]).filter fun x => t.canLeave p x).map fun x => (x.2.cls, x.2))) ∧
      ∀ d, t.die d = ({ s.die d with
        replica := (t.die d).replica, frac := (t.die d).frac, realign := (t.die d).realign } : Die).nextCycle)

/-- `SessionOpen` (R356 to R360, R381): a free session takes the next EPOCH and the lower of the two versions, with no other
effect; over SPI the session starts anew under the next EPOCH; the next SEQ that either expects is the opening one plus 1, and a refusal is
judged by order of fields, version, then room (both the model's reading: log 51, and for SPI log 52); one that is refused answers with
SESSION and EPOCH 0 to its sender (log 23), with no other effect; `SessionClose` frees the session and closes its streams, over SPI it
does nothing, and in a session that has ended it does nothing either. -/
def Obligations.Sessions : Prop :=
  ((∀ (s : State) (r : Req) (k i : Fin 8) (p : SessionOpenP), s.serving = true → s.switching = false → (∃ e, r.who = .udp k e) →
      s.openRefused p = none → s.core.freeSlot = some i →
      ∃ t x, exec (.sessionOpen r p) s = .next t ∧ t.core.session i = some x ∧
        t.core = { s.core with epoch := s.core.epoch + 1, sess := t.core.sess, spi := t.core.spi } ∧
        x.epoch = s.core.epoch + 1 ∧ x.version = min p.version.toNat 0x32 ∧ x.control = p.control.toNat ∧
        x.next = (r.seq.toNat + 1) % 2 ^ 32 ∧ x.lastRx = s.clk.elapsed ∧ x.lost = false ∧ x.evq = [] ∧
        (∀ j, j ≠ i → t.core.session j = s.core.session j) ∧ t.dies = s.dies ∧ t.hubs = s.hubs ∧ t.power = s.power ∧
        Answered t ⟨.udp i x.epoch, r.seq, r.keyId⟩ (resp 0x0001 .ok (openBody x.version s.act.nv.boot x.id x.epoch))) ∧
    (∀ (s : State) (r : Req) (p : SessionOpenP), s.serving = true → s.switching = false → r.who = .spi → s.openRefused p = none →
      exec (.sessionOpen r p) s = .next (replied s
        { s with core := { s.core with
            epoch := s.core.epoch + 1
            spi := { s.core.spi with
              version := min p.version.toNat 0x32
              evClasses := if min p.version.toNat 0x32 / 16 = 2 then 0x19 else p.evClasses.toNat
              epoch := s.core.epoch + 1
              next := some ((r.seq.toNat + 1) % 2 ^ 32)
              held := []
              cache := []
              pendingSeq := [] } } }
        r (resp 0x0001 .ok (openBody (min p.version.toNat 0x32) s.act.nv.boot 0 (s.core.epoch + 1)))))) ∧
  (∀ (s : State) (r : Req) (k : Fin 8) (p : SessionOpenP), s.serving = true → s.switching = false → (∃ e, r.who = .udp k e) →
      ∀ z, (s.openRefused p = some z ∨ s.openRefused p = none ∧ s.core.freeSlot = none ∧ z = .busy) →
      ∃ t m, exec (.sessionOpen r p) s = .next t ∧ t.net.sent = s.net.sent ++ [m] ∧ m.kind = 2 ∧ m.session = 0 ∧ m.epoch = 0 ∧
        m.seq = r.seq.toNat ∧ m.dst = (p.src, p.srcPort.toNat) ∧
        m.port = (if s.net.mode = 0 then p.port.val else 2) ∧ m.body = respBody (resp 0x0001 z []) ∧
        t.core = s.core ∧ t.dies = s.dies ∧ t.hubs = s.hubs ∧ t.power = s.power) ∧
  ((∀ (s : State) (r : Req) (i : Fin 8) (x : Session), s.serving = true → s.switching = false → r.who = .udp i x.epoch →
      s.core.session i = some x →
      ∃ t, exec (.sessionClose r) s = .next t ∧ t.core.session i = none ∧ (∀ j, j ≠ i → t.core.session j = s.core.session j) ∧
        (∀ y ∈ t.core.streams, y.who = .udp i x.epoch → y.isOpen = false) ∧ t.dies = s.dies ∧ t.hubs = s.hubs ∧ t.power = s.power ∧
        t.core.entries = s.core.entries ∧ t.core.records = s.core.records ∧ Answered t r (resp 0x0002 .ok [])) ∧
    (∀ (s : State) (r : Req) (i : Fin 8) (e : Nat), s.serving = true → s.switching = false → r.who = .udp i e →
      (∀ x, s.core.session i = some x → x.epoch ≠ e) → exec (.sessionClose r) s = .next (State.commit s s)) ∧
    (∀ (s : State) (r : Req), s.serving = true → s.switching = false → r.who = .spi →
      exec (.sessionClose r) s = .next (replied s s r (resp 0x0002 .ok []))))

/-- A page header's LOCK, EV_CLEAR and PAGE_CTRL (R11, R399, R402, R404, R406): the page is locked, unlocked, its pending bits are cleared
where the word has a 1 and no event set them in the same register cycle, its counters are reset, its copies are frozen or dropped; no
other page's header changes. -/
def Obligations.HeaderWrites : Prop :=
  ∀ (s : State) (p : Path) (page : Nat) (pg : PageRef),
    (s.locate (page * 4096 + 0x28) = .page pg 0x28 → Reaches s p pg 0x28 →
      exec (.pageLock p page) s =
        .next (State.commit s (noted s pg 0x28 0x4C4F434B#32 (s.modHdr pg fun h => { h with locked := true }))) ∧
      exec (.pageUnlock p page) s =
        .next (State.commit s (noted s pg 0x28 0x554E4C4B#32 (s.modHdr pg fun h => { h with locked := false })))) ∧
    (∀ w, s.locate (page * 4096 + 0x18) = .page pg 0x18 → Reaches s p pg 0x18 →
      exec (.evClearWrite p page w) s =
        .next (State.commit s (noted s pg 0x18 w (s.modHdr pg fun h => { h with pending := h.pending &&& ~~~(w &&& ~~~h.fresh) })))) ∧
    (∀ w, s.locate (page * 4096 + 0x08) = .page pg 0x08 → Reaches s p pg 0x08 →
      exec (.blockReset p page w) s =
        .next (State.commit s (noted s pg 0x08 (w ||| 4#32) ((s.blockReset pg).setFreeze pg (bit w 1)))) ∧
      (bit w 2 = false → exec (.freezeWrite p page w) s =
        .next (State.commit s (noted s pg 0x08 w (s.setFreeze pg (bit w 1))))))

/-- A register is written by its address (R10, R393): host SPI ignores the two low bits, every other path refuses a
misaligned address, and an address of no page does nothing. A write that reaches its register does what the register's rules
say and is mirrored. Where a write does not reach its register (R5, R327, R372, R397, R398, R405, R406): without a hub, a
path or a block nothing happens; a location without power counts OFF_WRITE_COUNT; a reserved location takes nothing; a page
of the standby records cause 5; a die that takes no request of the active hub discards it (R21); a locked page records cause 2. -/
def Obligations.RegisterWriteByAddress : Prop :=
  (∀ (s : State) (p : Path) (addr w : Word),
      (∀ pg off, ((∃ h, p = .spi h) ∨ addr.toNat % 4 = 0) → s.locate (addr.toNat / 4 * 4) = .page pg off → Reaches s p pg off →
        exec (.registerWrite p addr w) s = .next (State.commit s (s.regOp p pg off w))) ∧
      ((∀ h, p ≠ .spi h) → addr.toNat % 4 ≠ 0 → exec (.registerWrite p addr w) s = .next s) ∧
      ((∀ pg off, s.locate (addr.toNat / 4 * 4) ≠ .page pg off) → exec (.registerWrite p addr w) s = .next s)) ∧
  (∀ (s : State) (p : Path) (addr w : Word) (pg : PageRef) (off : Nat), ((∃ h, p = .spi h) ∨ addr.toNat % 4 = 0) →
      s.locate (addr.toNat / 4 * 4) = .page pg off →
      (s.answers = false ∨ s.pathOpen p = false ∨ s.pageThere pg = false →
        exec (.registerWrite p addr w) s = .next (State.commit s s)) ∧
      (s.answers = true → s.pathOpen p = true → s.pageThere pg = true →
        (s.locOn pg off = false → exec (.registerWrite p addr w) s =
          .next (State.commit s (s.modHub s.active fun h => { h with offWrites := satInc h.offWrites }))) ∧
        (s.locOn pg off = true →
          (s.regAt pg off = false → exec (.registerWrite p addr w) s = .next (State.commit s s)) ∧
          (s.regAt pg off = true →
            (s.standbyPage pg = true →
              exec (.registerWrite p addr w) s = .next (State.commit s (s.rejectAt pg 5 p off))) ∧
            (s.standbyPage pg = false → s.pageHeard pg off = false →
              exec (.registerWrite p addr w) s = .next (State.commit s (s.unheard pg))) ∧
            (s.standbyPage pg = false → s.pageHeard pg off = true → s.lockedAt pg off = true →
              exec (.registerWrite p addr w) s = .next (State.commit s (s.rejectAt pg 2 p off)))))))

/-- Registers of a channel page that act at once or at tf (R110, R112, R154, R172, R178, R209, R226, R405, R433): SAFE_REQ,
CNT_PRESET, which only the even channel of a pair has (R225), DIN_CFG and the filters' plain registers. That a PERIOD preset ends with
the write of PER_FRAC itself, while the value is held, is the model's reading (log 58). The hub's shadow of the channel's Status word
follows each (R112). -/
def Obligations.ChannelRegisterWrites : Prop :=
  ∀ (s : State) (p : Path) (ch : Chan) (w : Word),
    (Reaches s p (chanPage ch) 0x5C →
      exec (.safeReq p ch w) s = .next (State.commit s (State.shadowUnit (if w.getLsbD 0 then
        { s with core := { s.core with
            levels := vmod s.core.levels ch.die fun v => vmod v ch.c fun (x : Levels) => { x with host := true } } }
        else s) ch))) ∧
    (Reaches s p (chanPage ch) 0x210 →
      exec (.cntPresetWrite p ch w) s = .next (State.commit s (State.shadowUnit (if ch.c.val % 2 = 0 ∧ Img.zIn (s.chan ch).img = false then
        s.modCh ch fun k => { k with din := { k.din with preset := k.din.preset ++ [(w, tenAfterTwenty s.clk.now)] } } else s) ch))) ∧
    (∀ o v1 v2, Reaches s p (chanPage ch) 0x200 → o = (s.chan ch).want.dinCfg →
      v1 = keepFld o (w &&& 0x0FFFFFFE#32) 16 12 (fld (w &&& 0x0FFFFFFE#32) 16 12 != 0) →
      v2 = keepFld o v1 2 14 (decide (1 ≤ fld v1 2 14 ∧ fld v1 2 14 ≤ 16000)) →
      exec (.dinCfgWrite p ch w) s = .next (State.commit s ((s.putLater ch [(0x200, v2)]).shadowUnit ch))) ∧
    (Reaches s p (chanPage ch) 0x108 →
      exec (.filterRegisterWrite p ch .perFrac w) s = .next (State.commit s
        (((s.modCh ch fun k => { k with heldFrac := some w }).putNow ch fun i => noPreset i 0x108).shadowUnit ch))) ∧
    (∀ r, Reaches s p (chanPage ch) (filtOff r) →
      exec (.filterRegisterWrite p ch r w) s = .next (State.commit s ((s.filterWrite p ch (filtOff r) w).shadowUnit ch))) ∧
    (∀ r v (new : ChanImg), Reaches s p (chanPage ch) (filtOff r) →
      ((r = .maLen ∧ v = w &&& 0x1FFF#32 ∧ new = noPreset { (s.chan ch).want with maLen := v } 0x10C) ∨
        (r = .angCfg ∧ v = keepFld (s.chan ch).want.angCfg (w &&& 0x1F03#32) 8 5 (decide (6 ≤ fld (w &&& 0x1F03#32) 8 5 ∧
            fld (w &&& 0x1F03#32) 8 5 ≤ 16)) ∧ new = { (s.chan ch).want with angCfg := v })) →
      (imgFieldsOk new = false → exec (.filterRegisterWrite p ch r w) s =
        .next (State.commit s ((s.rejectAt (chanPage ch) 1 p (filtOff r)).shadowUnit ch))) ∧
      (imgFieldsOk new = true → s.filterBad ch (tenAfterTwenty s.clk.now) new = true →
        exec (.filterRegisterWrite p ch r w) s = .next (State.commit s ((s.rejectAt (chanPage ch) 4 p (filtOff r)).shadowUnit ch))) ∧
      (imgFieldsOk new = true → s.filterBad ch (tenAfterTwenty s.clk.now) new = false →
        exec (.filterRegisterWrite p ch r w) s = .next (State.commit s ((s.putLater ch
          ((filtOff r, v) :: filtDiff (imgSet (s.chan ch).want (filtOff r) v) new)).shadowUnit ch))))

/-- A configuration by register (R93, R112, R266, R405, R406): CFG and CONV_CFG, and OUT_CFG where PAR changes. What a
configuration that is accepted puts in place (R93, R434): it waits for tm, a multiple of 10 µs at least 20 µs away, on the
channel, and the channel's registers show it at once. -/
def Obligations.ConfigurationWrites : Prop :=
  (∀ (s : State) (p : Path) (ch : Chan) (w : Word),
      (∀ c off i n, Reaches s p (chanPage ch) off →
        ((c = .chCfgWrite p ch w ∧ off = 0x40 ∧ i = { (s.chan ch).want with cfg := w &&& 0x000F1F3F#32 } ∧ n = 0) ∨
          (c = .convCfgWrite p ch w ∧ off = 0x80 ∧ i = noPreset { (s.chan ch).want with convCfg := w &&& 0x3F01#32 } 0x80 ∧
            n = (s.chan ch).cfgSet)) →
        (s.unitLocked ch i = true → exec c s = .next (State.commit s ((s.rejectAt (chanPage ch) 2 p off).shadowUnit ch))) ∧
        (s.unitLocked ch i = false → s.cutsFsk ch i = true →
          exec c s = .next (State.commit s ((s.rejectAt (chanPage ch) 4 p off).shadowUnit ch))) ∧
        (s.unitLocked ch i = false → s.cutsFsk ch i = false → ∀ e, s.configure ch i n = .error e →
          exec c s = .next (State.commit s ((s.rejectAt (chanPage ch) e.2 p off).shadowUnit ch))) ∧
        (s.unitLocked ch i = false → s.cutsFsk ch i = false → ∀ t, s.configure ch i n = .ok t →
          exec c s = .next (State.commit s (t.1.shadowUnit ch)))) ∧
      (∀ c o v0 v1 v2 v3 v, (c = .outCfgWrite p ch w ∨ c = .parWrite p ch w) → Reaches s p (chanPage ch) 0x300 →
        o = (s.chan ch).want.outCfg → v0 = w &&& 0xFF030330#32 → v1 = keepFld o v0 24 8 (decide (fld v0 24 8 ≤ 200)) →
        v2 = keepFld o v1 16 2 (fld v1 16 2 != 3) → v3 = keepFld o v2 8 2 (fld v2 8 2 != 3) →
        v = keepFld o v3 4 2 (fld v3 4 2 != 3) →
        (fld v 16 2 ≠ fld (s.chan ch).want.outCfg 16 2 → exec c s =
          .next (State.commit s ((s.configWrite p ch 0x300 { (s.chan ch).want with outCfg := v } (s.chan ch).cfgSet).shadowUnit ch))) ∧
        (fld v 16 2 = fld (s.chan ch).want.outCfg 16 2 → ∀ tf x items, tf = tenAfterTwenty s.clk.now →
          x = s.dieAt ch.die [] (tf + 1) → items = x.declCosts ch.die [ch.c] x.led.vd (fun i => { i with outCfg := v }) tf →
          (∀ t, s.ledgerAdmit items (Img.sclass (s.chan ch).want) s.clk.now = .ok t →
            exec c s = .next (State.commit s (((t.putLater ch [(0x300, v)]).settlePools ch.die).shadowUnit ch))) ∧
          (∀ e, s.ledgerAdmit items (Img.sclass (s.chan ch).want) s.clk.now = .error e →
            exec c s = .next (State.commit s ((s.rejectAt (chanPage ch) 6 p 0x300).shadowUnit ch)))))) ∧
  (∀ (s : State) (ch : Chan) (i : ChanImg) (n : Nat) (t : State) (tm : Tick), s.configure ch i n = .ok (t, tm) →
      tm % (10 * us) = 0 ∧ s.clk.now + 20 * us ≤ tm ∧ tm < s.clk.now + 30 * us ∧
        ((t.chan ch).pend = (s.chan ch).pend ++ [⟨tm, i, n, none⟩]) ∧ (t.chan ch).img = (s.chan ch).img ∧
        (∀ d, d ≠ ch.die → (t.die d).chans = (s.die d).chans) ∧ t.clk = s.clk ∧ t.power = s.power ∧ t.sync = s.sync ∧
        t.active = s.active)

/-- Registers of the hub pages MAINS, AXIS, LEDGER, SCHED and PWR (R83, R126, R181, R276, R335, R345): what a write that
reaches its register puts in place, with the fields out of range keeping their values (R433; for CH above 95, HOLD_S above 3,600, DOMAIN
above 127 and TRANSPORT 3 the model's choice: log 59). TIME.CTRL and the ports' configurations, and KEY_COMMIT (R40, R43, R46, R47, R57,
R291, R363), which over ZCS, with ID 0, beside four other keys and without the role has no effect (the model's reading: log 54). -/
def Obligations.HubRegisterWrites : Prop :=
  (∀ (s : State) (p : Path) (h : HubId) (w : Word),
      (Reaches s p (.hub h 7) 0x40 → exec (.mainsCtrlWrite p h w) s = .next (State.commit s { s with core := { s.core with
        mains := ({ s.core.mains with
          src := (if fld w 0 2 = 3 then s.core.mains.src else fld w 0 2)
          nom := bit w 2
          ch := (if fld w 8 7 ≤ 95 then fld w 8 7 else s.core.mains.ch)
          holdS := (if 1 ≤ fld w 16 16 ∧ fld w 16 16 ≤ 3600 then fld w 16 16 else s.core.mains.holdS)
          st := .free
          meas := []
          lastCross := none } : Mains).setPeriod s.clk.now (if bit w 2 then 50000000 else 60000000) } })) ∧
      (Reaches s p (.hub h 7) 0x4C →
        (45000 ≤ w.toNat ∧ w.toNat ≤ 65000 → s.core.mains.src ≠ 2 → exec (.netFreqWrite p h w) s =
          .next (State.commit s { s with core := { s.core with mains := { s.core.mains with netFreq := w.toNat } } })) ∧
        (45000 ≤ w.toNat ∧ w.toNat ≤ 65000 → s.core.mains.src = 2 → exec (.netFreqWrite p h w) s =
          .next (State.commit s (({ s with core := { s.core with mains := { s.core.mains with netFreq := w.toNat } } } : State).mainsMeasure
            (divRound 3000000000000 w.toNat).toNat true))) ∧
        (w.toNat < 45000 ∨ 65000 < w.toNat → exec (.netFreqWrite p h w) s = .next (State.commit s s))) ∧
      (∀ a r t, Reaches s p (.hub h 8) (axisOff a r) → t = (s.modCore (·.modAxis a (·.write r w))).clearHigh a →
        (axisIgnores r w = true → exec (.axisCfgWrite p h a r w) s = .next (State.commit s s)) ∧
        (axisIgnores r w = false → r ≠ .cfg ∨ t.axisPair a = none → exec (.axisCfgWrite p h a r w) s = .next (State.commit s t)) ∧
        (∀ ch, r = .cfg → t.axisPair a = some ch → exec (.axisCfgWrite p h a r w) s =
          .next (State.commit s (t.modCore (·.modAxis a fun x => { x with took := (t.chan ch).din.feedN }))))) ∧
      (Reaches s p (.hub h 3) 0x50 → exec (.ledgerPtWrite p h w) s =
        .next (State.commit s { s with core := { s.core with ledger := s.core.ledger.writePt w } })) ∧
      (Reaches s p (.hub h 2) 0x40 → exec (.admitWrite p h w) s = .next (State.commit s { s with core := { s.core with
        sched := { s.core.sched with admits := bit w 0, doneEvAll := bit w 1 } } })) ∧
      (Reaches s p (.hub h 4) 0x54 → exec (.alarmWrite p h w) s = .next (State.commit s { s with core := { s.core with
        pwr := { s.core.pwr with alarmLo := w, alarm := w.toNat + s.core.pwr.alarmHi.toNat * 2 ^ 32 } } })) ∧
      (Reaches s p (.hub h 4) 0x48 → exec (.wakeCfgWrite p h w) s = .next (State.commit s { s with core := { s.core with
        pwr := { s.core.pwr with wakeCfg := (if leNat s.core.pwr.token = 0 then fld w 0 6 else fld w 0 8) } } })) ∧
      (Reaches s p (.hub h 4) 0x40 → exec (.pwrRequestWrite p h w) s =
        .next (State.commit s (s.askPower none (fld w 0 3) (fld w 6 1) (if bit w 6 then fld w 3 3 else 0))))) ∧
  (∀ (s : State) (p : Path) (h : HubId) (w : Word),
      (∀ c, Reaches s p (.hub h 1) 0x40 → c = .roleWrite p h w ∨ c = .acceptWrite p h w →
        (fld w 1 2 = 3 ∨ fld w 1 2 = s.core.time.role → exec c s =
          .next (State.commit s (State.noteUsable s { s with core := { s.core with time := { s.core.time with
            accept := bit w 0 && !(s.sync.st == .unlocked && decide (s.sync.since = s.clk.elapsed)) } } }))) ∧
        (fld w 1 2 ≠ 3 ∧ fld w 1 2 ≠ s.core.time.role → exec c s =
          .next (State.commit s (State.noteMix s (((s.writeAccept (bit w 0)).modCore fun c =>
            { c with time := { c.time with role := fld w 1 2 } }).restartPtp))))) ∧
      (∀ port : PortId, Reaches s p (.hub h 1) (0x60 + 4 * port.val) → ∀ pr dom tr, pr = fld w 0 2 →
        dom = (if fld w 8 8 ≤ 127 then fld w 8 8 else s.core.time.domain[port.val]) →
        tr = (if fld w 16 2 = 3 then s.core.time.transport[port.val] else fld w 16 2) →
        (pr = s.core.time.profile[port.val] ∧ dom = s.core.time.domain[port.val] ∧ tr = s.core.time.transport[port.val] →
          exec (.portCfgWrite p h port w) s = .next (State.commit s s)) ∧
        (¬(pr = s.core.time.profile[port.val] ∧ dom = s.core.time.domain[port.val] ∧ tr = s.core.time.transport[port.val]) →
          exec (.portCfgWrite p h port w) s = .next (State.commit s (({ s with core := { s.core with time := { s.core.time with
            profile := s.core.time.profile.set port.val pr port.isLt
            domain := s.core.time.domain.set port.val dom port.isLt
            transport := s.core.time.transport.set port.val tr port.isLt } } } : State).ptpRestart port
              (decide (pr ≠ s.core.time.profile[port.val])))))) ∧
      (Reaches s p (.hub h 10) 0x88 → ∀ id rest, id = fld w 0 8 → rest = s.core.keys.filter (·.1 != id) →
        (p = .zcs ∨ id = 0 ∨ 4 ≤ rest.length ∨ s.takeRole true = none →
          exec (.keyCommitWrite p h w) s = .next (State.commit s s)) ∧
        (∀ t, p ≠ .zcs → id ≠ 0 → rest.length < 4 → s.takeRole true = some t →
          ∀ keys, keys = (id, s.core.net.keyLoad.toList.flatMap fun x => leBytes 4 x.toNat) :: rest →
          exec (.keyCommitWrite p h w) s = .next (State.commit s
            ((t.modCore fun c => { c with keys := keys }).putStore (·.storeKeys keys))))))

/-- Registers of the die pages and POLICY (R131, R137, R138, R261, R271, R408): AUX shadows, REF_CTRL, the declarations,
HUBLOSS_T and the floors and ceilings. A TRIG of 3 keeps the old one, a LEN above 64 is not taken, and LEN is judged by the AUTO bit of
the same write (the model's choice: log 59); a new PASS_MS counts from the write on (R135). -/
def Obligations.DieRegisterWrites : Prop :=
  ∀ (s : State) (p : Path) (d : DieId) (w : Word),
    (∀ i : Fin 64, Reaches s p (.die d 20) (0x100 + 4 * i.val) → exec (.auxShadowWrite p d (.table i) w) s =
      .next (State.commit s (if (s.die d).aux.auto then s else
        s.modDie d fun k => { k with aux := { k.aux with tableSh := k.aux.tableSh.set i.val (w &&& 0xFFFFFF#32) i.isLt } }))) ∧
    (Reaches s p (.die d 20) 0x40 → exec (.auxShadowWrite p d .len w) s =
      .next (State.commit s (s.modDie d fun k => { k with aux := { k.aux with
        run := bit w 0
        auto := bit w 1
        passMs := (if 10 ≤ fld w 16 10 ∧ fld w 16 10 ≤ 1000 then fld w 16 10 else k.aux.passMs)
        passFrom := (if 10 ≤ fld w 16 10 ∧ fld w 16 10 ≤ 1000 ∧ fld w 16 10 ≠ k.aux.passMs then max k.aux.passFrom k.replica
          else k.aux.passFrom)
        lenSh := (if bit w 1 = false ∧ fld w 8 7 ≤ 64 then fld w 8 7 else k.aux.lenSh) } }))) ∧
    (∀ (i : Fin 4) v, Reaches s p (.die d 20) (0x50 + 4 * i.val) →
      v = keepFld ((s.die d).aux.privSh[i.val]) (w &&& 0xFCFF#32) 10 2 (fld w 10 2 != 3) →
      exec (.auxShadowWrite p d (.priv i) w) s = .next (State.commit s (if slotClash (s.die d).aux.privSh i v then s else
        s.modDie d fun k => { k with aux := { k.aux with privSh := k.aux.privSh.set i.val v i.isLt } }))) ∧
    (∀ (i : Fin 4) (j : Fin 8), Reaches s p (.die d 20) (0x300 + 0x20 * i.val + 4 * j.val) →
      exec (.auxShadowWrite p d (.inj i j) w) s = .next (State.commit s (s.modDie d fun k => { k with aux := { k.aux with
        injSh := k.aux.injSh.set (8 * i.val + j.val) (w &&& 0xFFFFFF#32) (by omega) } }))) ∧
    (Reaches s p (.die d 20) 0x60 → exec (.refSelWrite p d w) s =
      .next (State.commit s (s.modDie d fun k => { k with aux := { k.aux with
        refSel := bit w 0
        autoSw := bit w 1
        switched := false
        refNext := (if bit w 0 = k.aux.inUse then none else some (tenAfterTwenty s.clk.now, bit w 0, false)) } }))) ∧
    (Reaches s p (.die d 0) 0x40 → ∀ v, v = fld w 0 17 → exec (.hublossTWrite p d w) s =
      .next (State.commit s (if 50 ≤ v ∧ v ≤ 100000 ∧ (s.variant.dual = false ∨ 1000 ≤ v) then
        s.modDie d fun k => { k with hublossT := v } else s.rejectAt (.die d 0) 1 p 0x40))) ∧
    (Reaches s p (.die d 21) 0x74 → exec (.declWrite p d .lpDecl w) s = .next (State.commit s (s.lpDeclWrite p d w))) ∧
    (∀ c tf items, Reaches s p (.die d 21) (0x100 + 4 * c.val) → tf = tenAfterTwenty s.clk.now →
      items = (s.dieAt d [] (tf + 1)).declCosts d [c] (s.dieAt d [] (tf + 1)).led.vd (fun i => { i with decl := w &&& 0xCFFF1FFF#32 }) tf →
      (∀ t, s.ledgerAdmit items (fld (w &&& 0xCFFF1FFF#32) 30 2) s.clk.now = .ok t → exec (.declWrite p d (.decl c) w) s =
        .next (State.commit s ((t.putLater ⟨d, c⟩ [(0xDEC, w &&& 0xCFFF1FFF#32)]).settlePools d))) ∧
      (∀ e, s.ledgerAdmit items (fld (w &&& 0xCFFF1FFF#32) 30 2) s.clk.now = .error e → exec (.declWrite p d (.decl c) w) s =
        .next (State.commit s (s.rejectAt (.die d 21) 6 p (0x100 + 4 * c.val))))) ∧
    (∀ sc k x, Reaches s p (policyAt sc k).1 (policyAt sc k).2 → x = (⟨fld w 0 16, fld w 16 16⟩ : Policy) →
      (∀ c, (s.policyPut sc k x).1 = some c → exec (.policyWrite p sc k w) s =
        .next (State.commit s (s.rejectAt (policyAt sc k).1 c p (policyAt sc k).2))) ∧
      ((s.policyPut sc k x).1 = none → exec (.policyWrite p sc k w) s = .next (State.commit s (match sc with
        | .package _ => { s with core := { s.core with ledger := { s.core.ledger with
            policy := s.core.ledger.policy.set k.val x k.isLt } } }
        | .die e => s.modDie e fun y => { y with led := { y.led with policy := y.led.policy.set k.val x k.isLt } }))))

/-- Service of the watchdog (R312 to R314): KEY_A arms it; KEY_B of an armed watchdog in the open window starts a period;
KEY_B in the closed window is early; any other value, or a key out of turn, is a sequence violation; KEY_B in the register cycle
of a late violation is part of it; a watchdog that does not run takes nothing. The command writes KEY_A, and KEY_B one register
cycle later, which in the model is a tick (log 6), and answers ZS_OK with the outcome, while the hub still serves (R391): a service, early,
a sequence violation where the watchdog was armed already, late where n reaches P with KEY_B, or ignored. A watchdog violation (R311,
R313 to R315): n reaches P without service. It is counted, its event is raised, a waived period starts at its instant, disarmed, and its
action follows: none, the WATCHDOG request level for every channel, a switchover to a READY standby, or the restart of the hub. -/
def Obligations.WatchdogService : Prop :=
  ((∀ (s : State) (p : Path) (h : HubId), Reaches s p (.hub h 5) 0x48 → s.wdIsLate s.clk.elapsed = false →
      (s.core.wd.running = false → ∀ v, exec (.serveOtherValue p h v) s = .next (State.commit s s) ∧
        exec (.serveKeyA p h) s = .next (State.commit s s) ∧ exec (.serveKeyB p h) s = .next (State.commit s s)) ∧
      (s.core.wd.running = true →
        (s.core.wd.armed = false → exec (.serveKeyA p h) s =
          .next (State.commit s { s with core := { s.core with wd := { s.core.wd with armed := true } } })) ∧
        (s.core.wd.armed = true → exec (.serveKeyA p h) s = .next (State.commit s (s.wdViolate .seq s.clk.elapsed))) ∧
        (s.core.wd.lateAt = some s.clk.elapsed → exec (.serveKeyB p h) s = .next (State.commit s s)) ∧
        (s.core.wd.lateAt ≠ some s.clk.elapsed →
          (s.core.wd.armed = false → exec (.serveKeyB p h) s =
            .next (State.commit s (s.wdViolate .seq s.clk.elapsed))) ∧
          (s.core.wd.armed = true → s.core.wd.n s.clk.elapsed < s.core.wd.c → exec (.serveKeyB p h) s =
            .next (State.commit s (s.wdViolate .early s.clk.elapsed))) ∧
          (s.core.wd.armed = true → s.core.wd.c ≤ s.core.wd.n s.clk.elapsed → exec (.serveKeyB p h) s =
            .next (State.commit s { s with core := { s.core with wd := s.core.wd.restart s.clk.elapsed false } }))) ∧
        (∀ v, v ≠ keyA → v ≠ keyB → exec (.serveOtherValue p h v) s =
          .next (State.commit s (s.wdViolate .seq s.clk.elapsed))))) ∧
    ∀ (s : State) (r : Req), Runs s r 0x0062 →
      (s.pageLocked (.hub s.active 5) = true → exec (.watchdogServe r) s = .next (replied s s r (resp 0x0062 .busy []))) ∧
      (s.pageLocked (.hub s.active 5) = false → s.core.wd.running = false →
        exec (.watchdogServe r) s = .next (replied s s r (resp 0x0062 .ok [4#8]))) ∧
      (s.pageLocked (.hub s.active 5) = false → s.wdIsLate s.clk.elapsed = false → s.core.wd.lateAt ≠ some (s.clk.elapsed + 1) →
        s.core.wd.running = true → ∀ e u, e = s.clk.elapsed + 1 →
        u = ({ s with core := { s.core with wd := { s.core.wd with armed := true } } } : State) →
        (s.core.wd.armed = false → s.wdIsLate e = false → s.core.wd.c ≤ s.core.wd.n e →
          exec (.watchdogServe r) s = .next (replied s
            { s with core := { s.core with wd := ({ s.core.wd with armed := true } : Wdog).restart e false } } r (resp 0x0062 .ok [0#8]))) ∧
        (∀ t x,
          (s.core.wd.armed = false ∧ s.wdIsLate e = false ∧ s.core.wd.n e < s.core.wd.c ∧ t = u.wdViolate .early e ∧ x = 1#8) ∨
          (s.core.wd.armed = false ∧ s.wdIsLate e = true ∧ t = u.wdViolate .late (s.core.wd.start + s.core.wd.p * us) ∧ x = 3#8) ∨
          (s.core.wd.armed = true ∧ x = 2#8 ∧ ∃ a, a = s.wdViolate .seq s.clk.elapsed ∧
            ((a.serving = false ∧ t = a) ∨
              (a.serving = true ∧ a.core.wd.running = true ∧ a.wdIsLate e = false ∧ a.core.wd.lateAt ≠ some e ∧
                a.core.wd.armed = false ∧ t = a.wdViolate .seq e))) →
          (t.serving = true → exec (.watchdogServe r) s = .next (replied s t r (resp 0x0062 .ok [x]))) ∧
          (t.serving = false → exec (.watchdogServe r) s = .next (State.commit s t))))) ∧
  (∀ (s : State), s.wdIsLate s.clk.elapsed = true → ∀ w, w = s.core.wd.violate .late (s.core.wd.start + s.core.wd.p * us) →
      w.lateCnt = satInc s.core.wd.lateCnt ∧ w.lateAt = some (s.core.wd.start + s.core.wd.p * us) ∧
      w.waived = true ∧ w.armed = false ∧ w.start = s.core.wd.start + s.core.wd.p * us ∧
      w.earlyCnt = s.core.wd.earlyCnt ∧ w.seqCnt = s.core.wd.seqCnt ∧ w.en = s.core.wd.en ∧
      (s.core.wd.actLate = 0 → exec .watchdogLate s =
        .next (State.commit s (({ s with core := { s.core with wd := w } } : State).raiseNow .wdogLate []))) ∧
      (s.core.wd.actLate = 1 → ∃ t, exec .watchdogLate s = .next t ∧ t.core.wd = w ∧ t.dies = s.dies ∧ t.power = s.power ∧
        ∀ d, (s.die d).present = true → ∀ c : ChanId,
          ((t.core.levels[d.val])[c.val]).wdog = true ∧ ((t.core.levels[d.val])[c.val]).host = ((s.core.levels[d.val])[c.val]).host) ∧
      ∀ t, t = ({ s with core := { s.core with wd := w } } : State).raiseNow .wdogLate [] →
        (s.core.wd.actLate = 2 → s.standbyReady = true → exec .watchdogLate s = .next (State.commit s (t.startSwitchover 1 none))) ∧
        (s.core.wd.actLate = 2 → s.standbyReady = false → exec .watchdogLate s = .next (State.commit s t.fieldSafe)) ∧
        (s.core.wd.actLate = 3 → exec .watchdogLate s = .next (State.commit s (t.restartHub s.active))))

/-- Configuration of the watchdog (R311, R316, R320, R321): with EN 0, or in the open window, CTRL takes its action fields
and EN starts a waived period; PERIOD acts at once while EN is 0, and at the next period otherwise; outside the open window
a write of either is counted with EV_WDOG_CFG_REJECT; a PERIOD out of range is recorded with cause 1. `WatchdogConfigure` (R391) writes
PERIOD, then CTRL, and answers which of them it wrote, ZS_BUSY where one was turned away (that the answer then tells what was taken is
the model's reading: log 43), and ZS_BAD_ARG for a PERIOD out of range and for a code 2 in an S part. -/
def Obligations.WatchdogConfiguration : Prop :=
  (∀ (s : State) (p : Path) (h : HubId) (w : Word), s.serving = true → s.wdIsLate s.clk.elapsed = false →
    (Reaches s p (.hub h 5) 0x40 → s.wdCode2 w = false → ∀ c, c = .tsoldEnSet p h w ∨ c = .tsoldActionWrite p h w → ∀ x,
      x = ({ s.core.wd with
        actEarly := fld w 2 2
        actLate := fld w 4 2
        actSeq := fld w 6 2 } : Wdog) →
      (s.core.wd.en = false → bit w 0 = false → exec c s =
        .next (State.commit s { s with core := { s.core with wd := x } })) ∧
      (s.core.wd.en = false → bit w 0 = true → exec c s =
        .next (State.commit s { s with core := { s.core with wd := { x.restart s.clk.elapsed true with en := true } } })) ∧
      (s.core.wd.en = true → s.wdAccepts = true → exec c s =
        .next (State.commit s { s with core := { s.core with wd := x } })) ∧
      (s.wdAccepts = false → exec c s = .next (State.commit s
        (({ s with core := { s.core with wd := { s.core.wd with rejectCnt := satInc s.core.wd.rejectCnt } } } : State).raiseNow
          .wdogCfgReject [])))) ∧
    (Reaches s p (.hub h 5) 0x44 →
      (wdPeriodOk w = false → exec (.tsoldPeriodWrite p h w) s =
        .next (State.commit s (s.rejectAt (.hub s.active 5) 1 p 0x44))) ∧
      (wdPeriodOk w = true → s.core.wd.en = false → exec (.tsoldPeriodWrite p h w) s =
        .next (State.commit s { s with core := { s.core with
          wd := { s.core.wd with p := fld w 0 24, close := fld w 24 8 } } })) ∧
      (wdPeriodOk w = true → s.core.wd.en = true → s.wdAccepts = true → exec (.tsoldPeriodWrite p h w) s =
        .next (State.commit s { s with core := { s.core with
          wd := { s.core.wd with pend := some (fld w 0 24, fld w 24 8) } } })) ∧
      (wdPeriodOk w = true → s.core.wd.en = true → s.wdAccepts = false → exec (.tsoldPeriodWrite p h w) s = .next (State.commit s
        (({ s with core := { s.core with wd := { s.core.wd with rejectCnt := satInc s.core.wd.rejectCnt } } } : State).raiseNow
          .wdogCfgReject []))))) ∧
  (∀ (s : State) (r : Req) (period ctrl : Word) (which : Byte), Runs s r 0x0061 →
    s.pageLocked (.hub s.active 5) = false → s.wdIsLate s.clk.elapsed = false →
    ∀ wp wc : Bool, wp = which.getLsbD 0 → wc = which.getLsbD 1 → ∀ cmd, cmd = Instr.watchdogConfigure r period ctrl which →
    ((wp = true ∧ wdPeriodOk period = false) ∨ (wc = true ∧ s.wdCode2 ctrl = true) →
      exec cmd s = .next (replied s s r (resp 0x0061 .badArg []))) ∧
    ((wp = true → wdPeriodOk period = true) → (wc = true → s.wdCode2 ctrl = false) → ∀ per act rej : State → State,
      (∀ u, per u = { u with core := { u.core with wd :=
        if s.core.wd.en = true then { u.core.wd with pend := some (fld period 0 24, fld period 24 8) }
        else { u.core.wd with p := fld period 0 24, close := fld period 24 8 } } }) →
      (∀ u x, x = ({ u.core.wd with actEarly := fld ctrl 2 2, actLate := fld ctrl 4 2, actSeq := fld ctrl 6 2 } : Wdog) →
        act u = { u with core := { u.core with wd :=
          if (s.core.wd.en = false ∧ bit ctrl 0 = true) then { x.restart s.clk.elapsed true with en := true } else x } }) →
      (∀ u, rej u = ({ u with core := { u.core with wd := { u.core.wd with rejectCnt := satInc u.core.wd.rejectCnt } } } : State).raiseNow
        .wdogCfgReject []) →
      (wp = false → wc = false → exec cmd s = .next (replied s s r (resp 0x0061 .ok [0#8]))) ∧
      (s.wdAccepts = true →
        (wp = true → wc = false → exec cmd s = .next (replied s (per s) r (resp 0x0061 .ok [1#8]))) ∧
        (wp = false → wc = true → exec cmd s = .next (replied s (act s) r (resp 0x0061 .ok [2#8]))) ∧
        (wp = true → wc = true → exec cmd s = .next (replied s (act (per s)) r (resp 0x0061 .ok [3#8])))) ∧
      (s.wdAccepts = false →
        (wp ≠ wc → exec cmd s = .next (replied s (rej s) r (resp 0x0061 .busy [0#8]))) ∧
        (wp = true → wc = true → exec cmd s = .next (replied s (rej (rej s)) r (resp 0x0061 .busy [0#8]))))))

/-- While no hub serves, a command does nothing; during a planned switchover every command answers ZS_BUSY, and a session at
ZCS 2.x gets ZS_VERSION for a command that ZCS 2 has not (R14, R295, R342, R392), with no other effect. An answer of `ScheduleSubmit`
has its fields all the same (R385): that they then name no entry and the instant of the answer is the model's reading (log 52). -/
def Obligations.CommandsTurnedAway : Prop :=
  ∀ (c : Instr) (s : State) (r : Req) (cmd : Nat), commandOf c = some (r, cmd) →
    (s.serving = false → exec c s = .next s) ∧
    (s.serving = true → s.switching = true → exec c s = .next (replied s s r (s.turnAway cmd .busy))) ∧
    (s.serving = true → s.switching = false → s.isV2 r.who = true → v2Allows cmd = false →
      exec c s = .next (replied s s r (s.turnAway cmd .version))) ∧
    ∀ z, s.turnAway cmd z = (if cmd = 0x0030 then resp cmd z (submitBody 0 0#32 s.clk.now) else resp cmd z [])

/-- `Identify`, `RegRead` and `RegWrite` (R25, R327, R382, R383, R406). That a ZS_BLOCK_OFF answer carries the words read, or counts the
words that reached power, and that a run which would meet a locked page writes nothing, is the model's reading (log 53). -/
def Obligations.IdentityAndRegisterCommands : Prop :=
  (∀ (s : State) (r : Req), Runs s r 0x0003 → exec (.identify r) s = .next (replied s s r (resp 0x0003 .ok s.identityBody)) ∧
    s.identityBody.length = 44 ∧ s.identityBody.take 12 = s.orderCode ∧
    s.identityBody[14]? = some (BitVec.ofNat 8 s.active.val)) ∧
  (∀ (s : State) (r : Req) (addr : Word) (n : BitVec 16), Runs s r 0x0010 →
    (s.runOk addr.toNat n.toNat = false →
      exec (.regRead r addr n) s = .next (replied s s r (resp 0x0010 .badArg []))) ∧
    (s.runOk addr.toNat n.toNat = true → ∀ x, x = s.readRun (runOf addr.toNat n.toNat) →
      exec (.regRead r addr n) s = .next (replied s x.1 r
        (resp 0x0010 (if (runOf addr.toNat n.toNat).any s.unpowered then .blockOff else .ok) (x.2.flatMap fun w => leBytes 4 w.toNat))) ∧
      x.2.length = n.toNat ∧ x.1.core = s.core ∧ x.1.net = s.net ∧ x.1.power = s.power ∧ x.1.sync = s.sync ∧
      (∀ d, (x.1.die d).chans = (s.die d).chans ∧ (x.1.die d).ntq = (s.die d).ntq ∧ (x.1.die d).led = (s.die d).led) ∧
      (∀ h, (x.1.hub h).log = (s.hub h).log))) ∧
  (∀ (s : State) (r : Req) (addr : Word) (ws : List Word), Runs s r 0x0011 →
    (s.runOk addr.toNat ws.length = false →
      exec (.regWrite r addr ws) s = .next (replied s s r (resp 0x0011 .badArg []))) ∧
    (s.runOk addr.toNat ws.length = true → s.runLocked ((runOf addr.toNat ws.length).zip ws) [] = true →
      exec (.regWrite r addr ws) s = .next (replied s s r (resp 0x0011 .busy []))) ∧
    (s.runOk addr.toNat ws.length = true → s.runLocked ((runOf addr.toNat ws.length).zip ws) [] = false →
      ∀ l t off, l = (runOf addr.toNat ws.length).zip ws →
      t = l.foldl (fun u x => u.writeOne (match r.who with | .udp .. => .zcs | .spi => .tunnel) x.1 x.2) s →
      off = l.countP (fun x => s.unpowered x.1) →
      (t.serving = true → exec (.regWrite r addr ws) s = .next (replied s t r
        (resp 0x0011 (if off = 0 then .ok else .blockOff) (leBytes 2 (ws.length - off))))) ∧
      (t.serving = false → exec (.regWrite r addr ws) s = .next (State.commit s t))))

/-- `ChannelConfigure`, `ChannelEnable`, `ChannelDisable` and `FaultClear` (R74, R93, R109, R154, R266, R384, R406): a configuration is
stored, put in force, or both, beside at most 1,024 stored ones; one that a locked page meets is answered ZS_BUSY. -/
def Obligations.ChannelCommands : Prop :=
  (∀ (s : State) (r : Req) (ch set : BitVec 16) (flags : Byte) (a : ImageArg), Runs s r 0x0020 →
    (s.chanOf ch.toNat = none ∨ 1 < flags.toNat →
      exec (.channelConfigure r ch set flags a) s = .next (replied s s r (resp 0x0020 .badArg []))) ∧
    (∀ c, s.chanOf ch.toNat = some c → flags.toNat ≤ 1 →
      (s.imageOk r.who c a = false ∨ 4095 < set.toNat ∨ set.toNat = 0 ∧ flags.getLsbD 0 = false →
        exec (.channelConfigure r ch set flags a) s = .next (replied s s r (resp 0x0020 .badArg []))) ∧
      (s.imageOk r.who c a = true → 1 ≤ set.toNat → set.toNat ≤ 4095 → (s.core.sets.any fun x => x.1 == set.toNat) = false →
        1024 ≤ s.core.sets.length →
        exec (.channelConfigure r ch set flags a) s = .next (replied s s r (resp 0x0020 .busy []))) ∧
      (s.imageOk r.who c a = true → 1 ≤ set.toNat → set.toNat ≤ 4095 → flags.getLsbD 0 = false →
        (s.core.sets.any fun x => x.1 == set.toNat) = true ∨ s.core.sets.length < 1024 →
        exec (.channelConfigure r ch set flags a) s = .next (replied s { s with core := { s.core with
          sets := (set.toNat, ch, a) :: s.core.sets.filter (·.1 != set.toNat) } } r (resp 0x0020 .ok (leBytes 8 0)))) ∧
      (s.imageOk r.who c a = true → set.toNat ≤ 4095 → flags.getLsbD 0 = true →
        (set.toNat = 0 ∨ (s.core.sets.any fun x => x.1 == set.toNat) = true ∨ s.core.sets.length < 1024) →
        (s.imageLocked c a = true →
          exec (.channelConfigure r ch set flags a) s = .next (replied s s r (resp 0x0020 .busy []))) ∧
        (s.imageLocked c a = false → ∀ e, s.configure c (s.imageFor c a) set.toNat = .error e →
          exec (.channelConfigure r ch set flags a) s = .next (replied s s r (resp 0x0020 e.1 []))) ∧
        (s.imageLocked c a = false → ∀ t tm, s.configure c (s.imageFor c a) set.toNat = .ok (t, tm) →
          exec (.channelConfigure r ch set flags a) s = .next (replied s ((t.dropHeldBy c a (s.imageFor c a)).modCore (·.storeSet set.toNat ch a)) r
            (resp 0x0020 .ok (leBytes 8 tm))))))) ∧
  (∀ (s : State) (r : Req) (ch set : BitVec 16), Runs s r 0x0021 →
    (s.chanOf ch.toNat = none ∨ s.core.sets.find? (fun x => x.1 == set.toNat && x.1 != 0) = none →
      exec (.channelEnable r ch set) s = .next (replied s s r (resp 0x0021 .badArg []))) ∧
    (∀ c x, s.chanOf ch.toNat = some c → s.core.sets.find? (fun x => x.1 == set.toNat && x.1 != 0) = some x →
      s.imageLocked c x.2.2 = true → exec (.channelEnable r ch set) s = .next (replied s s r (resp 0x0021 .busy []))) ∧
    (∀ c x, s.chanOf ch.toNat = some c → s.core.sets.find? (fun x => x.1 == set.toNat && x.1 != 0) = some x →
      s.imageLocked c x.2.2 = false →
      (∀ e, s.configure c (s.imageFor c x.2.2) x.1 = .error e →
        exec (.channelEnable r ch set) s = .next (replied s s r (resp 0x0021 e.1 []))) ∧
      (∀ t tm, s.configure c (s.imageFor c x.2.2) x.1 = .ok (t, tm) →
        exec (.channelEnable r ch set) s = .next (replied s (t.dropHeldBy c x.2.2 (s.imageFor c x.2.2)) r (resp 0x0021 .ok (leBytes 8 tm)))))) ∧
  (∀ (s : State) (r : Req) (ch : BitVec 16), Runs s r 0x0022 →
    (s.chanOf ch.toNat = none → exec (.channelDisable r ch) s = .next (replied s s r (resp 0x0022 .badArg []))) ∧
    (∀ c, s.chanOf ch.toNat = some c → s.unitLockedNow c = true →
      exec (.channelDisable r ch) s = .next (replied s s r (resp 0x0022 .busy []))) ∧
    (∀ c, s.chanOf ch.toNat = some c → s.unitLockedNow c = false → s.entering c.die = true →
      exec (.channelDisable r ch) s = .next (replied s s r (resp 0x0022 .blockOff []))) ∧
    (∀ c z, s.chanOf ch.toNat = some c → s.unitLockedNow c = false → s.entering c.die = false → s.barred c.die = some z →
      exec (.channelDisable r ch) s = .next (replied s s r (resp 0x0022 z []))) ∧
    (∀ c, s.chanOf ch.toNat = some c → s.unitLockedNow c = false → s.entering c.die = false → s.barred c.die = none →
      ∀ td, td = tenAfterTwenty s.clk.now → ∃ t, exec (.channelDisable r ch) s = .next (replied s t r (resp 0x0022 .ok (leBytes 8 td))) ∧
        t.core.disables = s.core.disables ++ [(c, td)] ∧ (t.chan c) = (s.chan c) ∧ t.hubs = s.hubs ∧ t.net = s.net ∧ t.power = s.power)) ∧
  (∀ (s : State) (r : Req) (sc : Scope) (resume : Byte), Runs s r 0x0071 →
    (s.named sc = none ∨ 1 < resume.toNat →
      exec (.faultClear r sc resume) s = .next (replied s s r (resp 0x0071 .badArg []))) ∧
    (∀ cs, s.named sc = some cs → resume.toNat ≤ 1 → ∀ t, t = cs.foldl (fun t c => t.clearOne (decide (resume = 1#8)) c) s →
      exec (.faultClear r sc resume) s = .next (replied s { t with free := t.free + 96 } r
        (resp 0x0071 .ok (leBytes 12 (t.clearMask cs))))))

/-- `ScheduleSubmit` (R63, R66, R68, R76, R78, R385): an entry that passes the twelve checks is admitted, alone in its unit: its
schedule slot, its record and its costs are reserved and the answer is ZS_OK. A unit is admitted whole, deferred, or refused with
nothing of it in the store. -/
def Obligations.ScheduleCommands : Prop :=
  (∀ (s : State) (r : Req) (e : SchedEntry) (oct : List Byte) (ch : Chan) (img : Option ChanImg), Runs s r 0x0030 →
    s.core.sched.admits = true → SchedEntry.octetCount e = oct.length → s.chanOf e.channel.toNat = some ch → s.setOf ch e = some img →
    fieldsOk e = true → s.core.destOk e = true → s.modeOk ch e img [(ch, e, img)] = true →
    s.clk.now + s.core.sched.minLead * us ≤ e.time.toNat →
    ∀ d lock words p items, d = s.dieAt ch.die [] e.time.toNat →
    lock = (Img.lock (modeSetImg d ch.c e img) == 1 && hasChain (Img.mode (modeSetImg d ch.c e img))) →
    words = recordWords e (d.chan ch.c).img →
    p = d.lanePlan ch.c e s.core.mains.period s.clk.now (s.pwmAhead ch e.time.toNat) →
    items = d.entryCosts ch.die ch.c e img s.core.nextId →
    versionOk (s.isV2 r.who) (s.lane s.active ch.die).version lock e = true →
    (s.die ch.die).on = true → s.entering ch.die = false → (s.usable = true ∨ SchedEntry.freeRun e = true) →
    s.core.slots.free ≠ 0 →
    (s.isV2 r.who = true → (s.core.entries.countP fun x => x.ver2 && decide (x.owner = r.who)) < 4096) →
    words ≤ s.core.store.free →
    planFails ((s.core.entries.filter fun x => x.live && decide (x.ch.die = ch.die)).map (·.plan)) p = none →
    (items = [] ∨ s.policyOk s.core.plan items e.cls.toNat s.clk.now = true ∧ s.creditShort s.core.plan items e.cls.toNat s.clk.now = none) →
    ∀ t, t = ({ s with core := { s.core with
        plan := s.core.plan ++ items
        slots := s.core.slots.reserve 1
        store := s.core.store.reserve words
        entries := s.core.entries ++ [⟨s.core.nextId, e, oct, ch, r.who, s.isV2 r.who, .admitted, 0, none, none, words, 0, img, p⟩]
        records := (if words = 0 then s.core.records else
          s.core.records ++ [newRecord s.core.nextId e (d.chan ch.c).img words])
        nextId := s.core.nextId + 1
        sched := { s.core.sched with inFlight := s.core.sched.inFlight + 1, submitted := s.core.sched.submitted + 1 } } } : State) →
    exec (.scheduleSubmit r [e] oct) s = .next (replied s (t.settlePools ch.die) r (resp 0x0030 .ok (submitBody 0 0#32 s.clk.now)))) ∧
  (∀ (s : State) (r : Req) (es : List SchedEntry) (oct : List Byte), Runs s r 0x0030 →
    (¬(1 ≤ es.length ∧ es.length ≤ 64 ∧ (es.map SchedEntry.octetCount).sum = oct.length) →
      exec (.scheduleSubmit r es oct) s = .next (replied s s r (resp 0x0030 .badArg (submitBody 0 0#32 s.clk.now)))) ∧
    (1 ≤ es.length ∧ es.length ≤ 64 ∧ (es.map SchedEntry.octetCount).sum = oct.length →
      (∀ s1, s.admitUnit r.who (s.isV2 r.who) (dealOctets es oct) = .ok s1 →
        exec (.scheduleSubmit r es oct) s = .next (replied s
          { s1 with core := { s1.core with sched := { s1.core.sched with
              submitted := s1.core.sched.submitted + (dealOctets es oct).length } } } r
          (resp 0x0030 .ok (submitBody 0 0#32 s.clk.now)))) ∧
      (∀ i st reason check, s.admitUnit r.who (s.isV2 r.who) (dealOctets es oct) = .error (i, st, reason, check) →
        ∀ u n tag, u = dealOctets es oct → n = u.length →
        tag = (match u[i]? with | some p => p.1.tag | none => 0#32) →
        (7 ≤ check → u.any (fun p => SchedEntry.deferOk p.1) = true → s.core.sched.deferred + n ≤ 1024 →
          exec (.scheduleSubmit r es oct) s = .next (replied s { s with core := { s.core with
              defer := s.core.defer ++ [⟨u, r.who, s.isV2 r.who, reason⟩]
              sched := { s.core.sched with
                submitted := s.core.sched.submitted + n
                deferred := s.core.sched.deferred + n } } } r ⟨0x0030, .deferred, reason, submitBody (i + 1) tag s.clk.now⟩)) ∧
        (7 ≤ check → u.any (fun p => SchedEntry.deferOk p.1) = true → 1024 < s.core.sched.deferred + n →
          exec (.scheduleSubmit r es oct) s = .next (replied s { s with core := { s.core with sched := { s.core.sched with
              submitted := s.core.sched.submitted + n
              refused := s.core.sched.refused + n
              lastRefuse := refuseWord tag 10 .busy } } } r ⟨0x0030, .busy, 10, submitBody (i + 1) tag s.clk.now⟩)) ∧
        (check < 7 ∨ u.any (fun p => SchedEntry.deferOk p.1) = false →
          exec (.scheduleSubmit r es oct) s = .next (replied s { s with core := { s.core with sched := { s.core.sched with
              submitted := s.core.sched.submitted + n
              refused := s.core.sched.refused + n
              lastRefuse := refuseWord tag reason st } } } r ⟨0x0030, st, reason, submitBody (i + 1) tag s.clk.now⟩)))))

/-- `ScheduleCancel` (R75, R385): the cancellation names the live entries with its tags, or of its channel and range, and waits for
tc, the next multiple of 10 µs at least 20 µs away; the answer leaves then. -/
def Obligations.CancelCommands : Prop :=
  (∀ (s : State) (r : Req) (tags : List Word), Runs s r 0x0031 →
    (¬(1 ≤ tags.length ∧ tags.length ≤ 64) →
      exec (.scheduleCancelByTag r tags) s = .next (replied s s r (resp 0x0031 .badArg []))) ∧
    (1 ≤ tags.length ∧ tags.length ≤ 64 → ∀ es, es = s.liveEntries.filter (fun e => tags.contains e.e.tag) →
      exec (.scheduleCancelByTag r tags) s = .next (State.commit s { s with core := { s.core with
        cancels := s.core.cancels ++ [(r, tenAfterTwenty s.clk.now, es.map fun e => (e.id, e.e.tag),
          tags.countP fun t => !es.any fun e => e.e.tag == t)] } }))) ∧
  (∀ (s : State) (r : Req) (ch : BitVec 16) (lo hi : Dword), Runs s r 0x0031 →
    (s.chanOf ch.toNat = none →
      exec (.scheduleCancelByRange r ch lo hi) s = .next (replied s s r (resp 0x0031 .badArg []))) ∧
    (∀ c, s.chanOf ch.toNat = some c → exec (.scheduleCancelByRange r ch lo hi) s =
      .next (State.commit s { s with core := { s.core with cancels := s.core.cancels ++ [(r, tenAfterTwenty s.clk.now,
        (s.liveEntries.filter fun e => decide (e.ch = c ∧ lo.toNat ≤ e.e.time.toNat ∧ e.e.time.toNat < hi.toNat)).map
          fun e => (e.id, e.e.tag), 0)] } })))

/-- `ResultFetch`, `StreamOpen` and `StreamClose` (R80, R360, R366, R385). -/
def Obligations.ResultAndStreamCommands : Prop :=
  (∀ (s : State) (r : Req) (w : Word), Runs s r 0x0032 →
    (¬(1 ≤ w.toNat ∧ w.toNat ≤ 355) → exec (.resultFetch r w) s = .next (replied s s r (resp 0x0032 .badArg []))) ∧
    (1 ≤ w.toNat ∧ w.toNat ≤ 355 → s.core.fetchNext = none →
      exec (.resultFetch r w) s = .next (replied s s r (resp 0x0032 .ok (fetchBody [] false false 0)))) ∧
    (1 ≤ w.toNat ∧ w.toNat ≤ 355 → ∀ x, s.core.fetchNext = some x → ∀ m, m = min w.toNat (x.readable - x.sent) →
      ∀ last, last = decide (0 < m ∧ x.len ≤ x.sent + m) → ∀ c, c = s.core.delivered x.id (x.sent + m) last →
      exec (.resultFetch r w) s = .next (replied s { s with core := c } r
        (resp 0x0032 .ok (fetchBody ((List.range m).map fun j => x.word (x.sent + j)) last c.fetchMore x.sent))))) ∧
  (∀ (s : State) (r : Req) (p : StreamOpenP), Runs s r 0x0033 →
    (s.streamOk r.who p = false → exec (.streamOpen r p) s = .next (replied s s r (resp 0x0033 .badArg []))) ∧
    (s.streamOk r.who p = true → ∀ x l, x = streamOf p r.who → l = s.core.streams.filter (·.n != x.n) ++ [x] →
      ((s.core.streams.any fun y => y.n == x.n && y.isOpen) = true ∨ (∃ q, x.onPort q = true ∧ s.bwFits q (totalBw l q) = false) →
        exec (.streamOpen r p) s = .next (replied s s r (resp 0x0033 .busy []))) ∧
      ((s.core.streams.any fun y => y.n == x.n && y.isOpen) = false → (∀ q, x.onPort q = true → s.bwFits q (totalBw l q) = true) →
        exec (.streamOpen r p) s = .next (replied s { s with core := { s.core with streams := l } } r (resp 0x0033 .ok []))))) ∧
  (∀ (s : State) (r : Req) (n : Byte), Runs s r 0x0034 →
    ((s.core.streams.any fun x => x.n == n.toNat && x.isOpen) = false →
      exec (.streamClose r n) s = .next (replied s s r (resp 0x0034 .badArg []))) ∧
    ((s.core.streams.any fun x => x.n == n.toNat && x.isOpen) = true →
      exec (.streamClose r n) s = .next (replied s (({ s with core := { s.core with streams := s.core.streams.map fun x =>
          if x.n == n.toNat then { x with isOpen := false, suspended := false } else x } } : State).resumeOn) r
        (resp 0x0034 .ok []))))

/-- `FilterSync` and the calibration commands (R170, R196 to R201, R390): a decimator reset is planned; a point begins at tp
and answers at its end; corrections are stored, put back, or set to the identity. The end of a calibration point and the
instant at which a correction comes into force (R196 to R198). That an identity or stored values come into force at the next multiple of
10 µs at least 20 µs away, and that a D part answers ZS_STORE_FAIL while its standby does not share the store, is the model's choice (log
63); that after a failed read-back the other bank counts is its reading (log 38). -/
def Obligations.CalibrationCommands : Prop :=
  ((∀ (s : State) (r : Req) (tr : Dword), Runs s r 0x0040 → ∀ n, n = (if tr = 0#64 then tenAfterTwenty s.clk.now else tr.toNat) →
      (n % 125 = 0 ∧ s.clk.now + 20 * us ≤ n →
        ∀ l, l = (if s.core.resets.any (·.1 == n) then s.core.resets else s.core.resets ++ [(n, 1)]) →
        exec (.filterSync r tr) s = .next (replied s { s with core := { s.core with resets := l } } r (resp 0x0040 .ok (leBytes 8 n)))) ∧
      (¬(n % 125 = 0 ∧ s.clk.now + 20 * us ≤ n) → exec (.filterSync r tr) s = .next (replied s s r (resp 0x0040 .badArg [])))) ∧
    (∀ (s : State) (r : Req) (p : CalP) (span : Bool), Runs s r 0x0041 →
      ∀ cmd, cmd = (if span then .calibrateSystemSpan r p else .calibrateSystemZero r p : Instr) →
      (s.chanOf p.channel.toNat = none → exec cmd s = .next (replied s s r (resp 0x0041 .badArg []))) ∧
      (∀ c, s.chanOf p.channel.toNat = some c →
        (∀ z, s.barred c.die = some z → exec cmd s = .next (replied s s r (resp 0x0041 z []))) ∧
        (s.barred c.die = none → (s.chan c).calible = false → exec cmd s = .next (replied s s r (resp 0x0041 .badArg []))) ∧
        (s.barred c.die = none → (s.chan c).calible = true → (s.chan c).cal.point.isSome = true ∨ (s.die c.die).aux.suspect = true →
          exec cmd s = .next (replied s s r (resp 0x0041 .busy []))) ∧
        (s.barred c.die = none → (s.chan c).calible = true → (s.chan c).cal.point = none → (s.die c.die).aux.suspect = false →
          exec cmd s = .next (State.commit s (s.modCh c fun k => { k with cal := { k.cal with
            point := some ⟨r, span, p.v, p.w, p.s, tenAfterTwenty s.clk.now⟩ } }))))) ∧
    (∀ (s : State) (r : Req) (sc : Scope) (rb : Bool), Runs s r 0x0042 →
      (s.named sc = none → exec (.calibrationCommitStore r sc rb) s = .next (replied s s r (resp 0x0042 .badArg [])) ∧
        exec (.calibrationCommitIdentity r sc rb) s = .next (replied s s r (resp 0x0042 .badArg [])) ∧
        exec (.calibrationCommitRevert r sc) s = .next (replied s s r (resp 0x0042 .badArg []))) ∧
      (∀ cs, s.named sc = some cs →
        (∀ z, s.allBarred cs = some z → exec (.calibrationCommitStore r sc rb) s = .next (replied s s r (resp 0x0042 z [])) ∧
          exec (.calibrationCommitIdentity r sc rb) s = .next (replied s s r (resp 0x0042 z [])) ∧
          exec (.calibrationCommitRevert r sc) s = .next (replied s s r (resp 0x0042 z []))) ∧
        (s.allBarred cs = none →
          (∀ t, s.storeSet (s.calSet cs fun c => ((s.chan c).cal.sysOff, (s.chan c).cal.sysGain)) rb = some t →
            (rb = true → s.bothStores = true → exec (.calibrationCommitStore r sc rb) s =
              .next (replied s (t.modCals cs fun _ k => { k with uncommitted := false }) r (resp 0x0042 .ok (leBytes 4 t.act.nv.seq)))) ∧
            (rb = false ∨ s.bothStores = false → exec (.calibrationCommitStore r sc rb) s = .next (replied s t r (resp 0x0042 .storeFail [])))) ∧
          (∀ t, s.storeSet (s.calSet cs fun _ => (0, 2 ^ 30)) rb = some t →
            (rb = true → s.bothStores = true → exec (.calibrationCommitIdentity r sc rb) s = .next (replied s (t.modCals cs fun _ k => { k with
                next := some (tenAfterTwenty s.clk.now, 0, 2 ^ 30, false), zero := none, uncommitted := false }) r
              (resp 0x0042 .ok (leBytes 4 t.act.nv.seq)))) ∧
            (rb = false ∨ s.bothStores = false → exec (.calibrationCommitIdentity r sc rb) s = .next (replied s t r (resp 0x0042 .storeFail [])))) ∧
          exec (.calibrationCommitRevert r sc) s = .next (replied s (s.modCals cs fun c k => { k with
              next := some (tenAfterTwenty s.clk.now, (s.act.nv.stored (gOf c)).1, (s.act.nv.stored (gOf c)).2, false)
              zero := none, uncommitted := false }) r (resp 0x0042 .ok (leBytes 4 s.act.nv.seq))))))) ∧
  (∀ (s : State) (ch : Chan),
      (∀ open' l p, (s.chan ch).cal.point = some p → (s.die ch.die).past (p.tp + 100 * ms) = true →
        ∀ m j n, m = divRound l.sum (max 1 l.length) → j = (s.chan ch).judgePoint p open' l m →
        n = (s.chan ch).cal.newCorrection p.span p.v m →
        exec (.calPointEnd ch open' l) s = .next (replied s ((s.modDie ch.die (·.endPoint ch.die ch.c p.tp)).modCh ch fun k =>
          { k with cal := { k.cal with
            lastPoint := j.2
            next := (if j.1 = .ok then some (tenAfterTwenty (p.tp + 100 * ms), n.1, n.2, true) else (s.chan ch).cal.next)
            zero := (if j.1 = .ok ∧ p.span = false then some (m, p.v) else k.cal.zero) } }) p.req
          (resp 0x0041 j.1 (leBytes 8 p.tp ++ leBytes 4 (wordOfInt m).toNat ++ leBytes 4 (stdDev l) ++
            leBytes 4 (wordOfInt (s.chan ch).cal.sysOff).toNat ++ leBytes 4 (wordOfInt (s.chan ch).cal.sysGain).toNat)))) ∧
      (∀ open' l p, (s.chan ch).cal.point = some p → (s.die ch.die).past (p.tp + 100 * ms) = false →
        exec (.calPointEnd ch open' l) s = .next s) ∧
      (∀ t o g u, (s.chan ch).cal.next = some (t, o, g, u) → (s.die ch.die).past t = true →
        exec (.sysCorrectionApply ch) s = .next (s.modCh ch fun k => { k with cal := { k.cal with
          sysWas := ((t, k.cal.sysOff, k.cal.sysGain) :: k.cal.sysWas).take 8
          sysOff := o, sysGain := g, next := none, uncommitted := u } })))

/-- `LedgerQuery` and `LedgerPolicySet` (R271, R391, R406). -/
def Obligations.LedgerCommands : Prop :=
  ∀ (s : State) (r : Req),
    (Runs s r 0x0050 →
      (∀ b d, s.dieOf b.toNat = some d → s.barred d = none →
        exec (.ledgerQuery r 1#8 b) s = .next (replied s s r (resp 0x0050 .ok (s.dieBody d)))) ∧
      (∀ b d z, s.dieOf b.toNat = some d → s.barred d = some z →
        exec (.ledgerQuery r 1#8 b) s = .next (replied s s r (resp 0x0050 z []))) ∧
      exec (.ledgerQuery r 2#8 0#8) s = .next (replied s s r (resp 0x0050 .ok s.packageBody)) ∧
      (∀ sc b, sc ≠ 1#8 → (sc ≠ 2#8 ∨ b ≠ 0#8) →
        exec (.ledgerQuery r sc b) s = .next (replied s s r (resp 0x0050 .badArg [])))) ∧
    (Runs s r 0x0051 → ∀ p,
      (s.policyScope p = none ∨ p.cls = 0#8 ∨ 3 < p.cls.toNat →
        exec (.ledgerPolicySet r p) s = .next (replied s s r (resp 0x0051 .badArg []))) ∧
      (∀ x (k : Fin 3), s.policyScope p = some x → p.cls.toNat = k.val + 1 →
        (s.pageLocked x.2 = true → exec (.ledgerPolicySet r p) s = .next (replied s s r (resp 0x0051 .busy []))) ∧
        (s.pageLocked x.2 = false → s.locOn x.2 0x40 = true → ∀ t, t = s.policyPut x.1 k ⟨p.floor.toNat, p.ceil.toNat⟩ →
          (t.1 = none → exec (.ledgerPolicySet r p) s = .next (replied s t.2 r (resp 0x0051 .ok []))) ∧
          (t.1 ≠ none → exec (.ledgerPolicySet r p) s = .next (replied s s r (resp 0x0051 .badArg []))))))

/-- `EventLogRead`, `ReturnPrepare`, `HubSwitchover`, `PoolAudit` and `KeyRotate` (R31, R295, R304, R364, R387, R389, R391). The model's
readings: `KeyRotate` answers ZS_BUSY without the role (log 38, 54), `EventLogRead` answers ZS_BLOCK_OFF for a hub that is not reached
(log 22), and the first SEQ of an empty answer is a free value (log 11). -/
def Obligations.LogRedundancyAndKeyCommands : Prop :=
  (∀ (s : State) (r : Req) (src hub n : Byte) (seq : Word), Runs s r 0x0070 →
    (¬(hub.toNat < 2 ∧ src.toNat < 2 ∧ 1 ≤ n.toNat ∧ n.toNat ≤ 44) →
      exec (.eventLogRead r src hub n seq) s = .next (replied s s r (resp 0x0070 .badArg []))) ∧
    (∀ h : HubId, hub.toNat = h.val → src.toNat < 2 → 1 ≤ n.toNat → n.toNat ≤ 44 → (h = 0 ∨ s.variant.dual = true) →
      ((s.hub h).present = true → (s.hub h).up = true → h = s.active ∨ s.strung = true → exec (.eventLogRead r src hub n seq) s =
        .next (replied s { s with free := s.free + 1 } r (resp 0x0070 .ok
          (logBody (if src = 0#8 then (s.hub h).log.ring else (s.hub h).log.bb) (s.hub h).log.seq n.toNat seq.toNat
            (Config.measured s.free).toNat)))) ∧
      ((s.hub h).present = false ∨ (s.hub h).up = false ∨ (h ≠ s.active ∧ s.strung = false) → exec (.eventLogRead r src hub n seq) s =
        .next (replied s s r (resp 0x0070 .blockOff []))))) ∧
  (∀ (s : State) (r : Req) (conf : BitVec 16), Runs s r 0x0082 →
    (conf ≠ 0x52D7#16 → exec (.returnPrepare r conf) s = .next (replied s s r (resp 0x0082 .badArg []))) ∧
    exec (.returnPrepare r 0x52D7#16) s = .next (replied s { s with hubs := s.hubs.map fun h =>
        if h.present then { h with log := { h.log.flush s.clk.elapsed with bbFrozen := true, returnMark := true } } else h } r
      (resp 0x0082 .ok []))) ∧
  (∀ (s : State) (r : Req), Runs s r 0x0072 →
    (s.variant.dual = false → exec (.hubSwitchover r) s = .next (replied s s r (resp 0x0072 .badArg []))) ∧
    (s.variant.dual = true → s.standbyReady = false → exec (.hubSwitchover r) s = .next (replied s s r (resp 0x0072 .busy []))) ∧
    (s.standbyReady = true → exec (.hubSwitchover r) s = .next (State.commit s (s.startSwitchover 0 (some r))) ∧
      ((s.startSwitchover 0 (some r)).hub (other s.active)).claiming = some (s.clk.now, s.clk.elapsed, some r, 0))) ∧
  (∀ (s : State) (r : Req), Runs s r 0x0081 → exec (.poolAudit r) s = .next (replied s
      { s with core := { s.core with audit := s.core.audit ++ [(r, tenAfterTwenty s.clk.now)] } } r
      (resp 0x0081 .ok (leBytes 8 (tenAfterTwenty s.clk.now))))) ∧
  (∀ (s : State) (r : Req) (id : Byte) (g : BitVec 16) (nonce : List Byte) (stored : Bool), Runs s r 0x0080 →
    ∀ cmd, cmd = Instr.keyRotate r id g nonce stored →
    (assoc s.core.keys r.keyId.toNat = none ∨ id = 0#8 ∨ (assoc s.core.keys id.toNat).isSome = true ∨ g = 0#16 ∨ 3600 < g.toNat ∨
        nonce.length ≠ 16 → exec cmd s = .next (replied s s r (resp 0x0080 .badArg []))) ∧
    (∀ k, assoc s.core.keys r.keyId.toNat = some k → id ≠ 0#8 → assoc s.core.keys id.toNat = none → g ≠ 0#16 → g.toNat ≤ 3600 →
      nonce.length = 16 →
      (s.core.grace.isSome = true ∨ 4 ≤ s.core.keys.length ∨ s.takeRole true = none →
        exec cmd s = .next (replied s s r (resp 0x0080 .busy []))) ∧
      (∀ t, s.core.grace = none → s.core.keys.length < 4 → s.takeRole true = some t →
        (stored = false → exec cmd s = .next (replied s t.tickFree r (resp 0x0080 .storeFail []))) ∧
        (stored = true → ∀ keys, keys = (id.toNat, deriveKey k id nonce s.drawNonce) :: s.core.keys →
          exec cmd s = .next (replied s (((t.tickFree).modCore fun c => { c with
              keys := keys
              grace := some (r.keyId.toNat, id.toNat, s.clk.elapsed + g.toNat * sec, r.who) }).putStore (·.storeKeys keys)) r
            (resp 0x0080 .ok s.drawNonce))))))

/-- `TimeStatus` and `AuxSequenceLoad` (R40, R46, R47, R137, R138, R390, R406). A load while a step is decided answers ZS_BUSY in UNLOCKED
too (the model's reading: log 16). -/
def Obligations.TimeAndAuxCommands : Prop :=
  (∀ (s : State) (r : Req), Runs s r 0x0090 →
    exec (.timeStatusRead r) s = .next (replied s s r (resp 0x0090 .ok s.timeBody)) ∧
    (s.isV2 r.who = true → (∀ t, exec (.timeStatusLoad r t) s = .next (replied s s r (resp 0x0090 .version []))) ∧
      ∀ v, exec (.timeStatusWriteAccept r v) s = .next (replied s s r (resp 0x0090 .version []))) ∧
    (s.isV2 r.who = false →
      (∀ t, s.sync.st = .unlocked → s.sync.step = none → ∀ u, u = { s with sync := { s.sync with
          step := some (tenAfterTwenty s.clk.now, (t.toNat : Int) - tenAfterTwenty s.clk.now), slew := 0, set := true } } →
        exec (.timeStatusLoad r t) s = .next (replied s u r (resp 0x0090 .ok u.timeBody))) ∧
      (∀ t, s.sync.st ≠ .unlocked ∨ s.sync.step ≠ none →
        exec (.timeStatusLoad r t) s = .next (replied s s r (resp 0x0090 .busy []))) ∧
      (∀ v, (s.hdr (.hub s.active 1)).locked = true →
        exec (.timeStatusWriteAccept r v) s = .next (replied s s r (resp 0x0090 .busy []))) ∧
      (∀ v, (s.hdr (.hub s.active 1)).locked = false → 1 < v.toNat →
        exec (.timeStatusWriteAccept r v) s = .next (replied s s r (resp 0x0090 .badArg []))) ∧
      (∀ v, (s.hdr (.hub s.active 1)).locked = false → v.toNat ≤ 1 → ∀ u,
        u = State.noteUsable s { s with core := { s.core with time := { s.core.time with
          accept := decide (v = 1#8) && !(s.sync.st == .unlocked && decide (s.sync.since = s.clk.elapsed)) } } } →
        exec (.timeStatusWriteAccept r v) s = .next (replied s u r (resp 0x0090 .ok u.timeBody))))) ∧
  (∀ (s : State) (r : Req) (d : Byte) (es : List Word), Runs s r 0x0091 →
    (es.length = 0 ∨ 64 < es.length ∨ es.all entryOk = false →
      exec (.auxSequenceLoadTable r d es) s = .next (replied s s r (resp 0x0091 .badArg []))) ∧
    (1 ≤ es.length → es.length ≤ 64 → es.all entryOk = true →
      (∀ z, s.auxTarget d = .error z → exec (.auxSequenceLoadTable r d es) s = .next (replied s s r (resp 0x0091 z []))) ∧
      (∀ k, s.auxTarget d = .ok k → (s.die k).aux.auto = true →
        exec (.auxSequenceLoadTable r d es) s = .next (replied s s r (resp 0x0091 .badArg []))) ∧
      (∀ k, s.auxTarget d = .ok k → (s.die k).aux.auto = false →
        exec (.auxSequenceLoadTable r d es) s = .next (replied s (s.modDie k fun x => { x with aux := { x.aux with
            tableSh := layTable es x.aux.tableSh, lenSh := es.length } }) r (resp 0x0091 .ok (leBytes 8 (s.die k).nextPass)))))) ∧
  (∀ (s : State) (r : Req) (d k : Byte) (priv : Word) (es : List Word), Runs s r 0x0091 →
    (3 < k.toNat ∨ es.length = 0 ∨ 8 < es.length ∨ es.all entryOk = false ∨ fld priv 10 2 = 3 ∨ priv ≠ priv &&& 0xFCFF#32 →
      exec (.auxSequenceLoadSlot r d k priv es) s = .next (replied s s r (resp 0x0091 .badArg []))) ∧
    (∀ i : Fin 4, k.toNat = i.val → 1 ≤ es.length → es.length ≤ 8 → es.all entryOk = true → fld priv 10 2 ≠ 3 → priv = priv &&& 0xFCFF#32 →
      (∀ z, s.auxTarget d = .error z → exec (.auxSequenceLoadSlot r d k priv es) s = .next (replied s s r (resp 0x0091 z []))) ∧
      (∀ x, s.auxTarget d = .ok x → slotClash (s.die x).aux.privSh i priv = true →
        exec (.auxSequenceLoadSlot r d k priv es) s = .next (replied s s r (resp 0x0091 .badArg []))) ∧
      (∀ x, s.auxTarget d = .ok x → slotClash (s.die x).aux.privSh i priv = false →
        exec (.auxSequenceLoadSlot r d k priv es) s = .next (replied s (s.modDie x fun y => { y with aux := { y.aux with
            privSh := y.aux.privSh.set i.val priv i.isLt, injSh := layInj y.aux.injSh i.val es } }) r
          (resp 0x0091 .ok (leBytes 8 (s.die x).nextPass))))))

/-- A power request (R328, R329, R337, R391): a package request opens the handshake; another entry, wake or power-down in progress
gives ZS_BUSY; a target that is no low state gives ZS_BAD_ARG; Run wakes a die that sleeps; a
level wake source that is asserted aborts an entry (R337), and each port notes whether it has a link then (R334); outside Run the package
takes no request. -/
def Obligations.PowerRequests : Prop :=
  (∀ (s : State) (p : Path) (h : HubId) (w : Word), Reaches s p (.hub h 4) 0x40 → s.awake = false →
    exec (.pwrRequestWrite p h w) s = .next (State.commit s s)) ∧
  ∀ (s : State) (r : Req), Runs s r 0x0060 →
    (∀ t : Byte, t = 2#8 ∨ t = 3#8 ∨ t = 4#8 → s.power.busy = true →
      exec (.powerStateRequest r t 0#8 0#8) s = .next (replied s s r (resp 0x0060 .busy []))) ∧
    (∀ (t : Byte) (p : PwrState), (t = 2#8 ∧ p = .sleep ∨ t = 3#8 ∧ p = .deepSleep ∨ t = 4#8 ∧ p = .off) → s.power.busy = false →
      ∀ q u, q = (⟨p, none, some r, s.clk.elapsed, [], none, none, none⟩ : PwrReq) →
      u = ({ s with
        power := { s.power with req := some q }
        net := { s.net with ports := s.net.ports.map fun (x : NetPort) => { x with linkAtTq := x.link, energyOff := none } } } : State) →
      (s.assertedNow p = none → exec (.powerStateRequest r t 0#8 0#8) s = .next (State.commit s u)) ∧
      (∀ src, s.assertedNow p = some src → exec (.powerStateRequest r t 0#8 0#8) s = .next (State.commit s (u.abortPower q src)))) ∧
    (∀ t : Byte, t = 0#8 ∨ t = 1#8 ∨ 5 ≤ t.toNat → exec (.powerStateRequest r t 0#8 0#8) s = .next (replied s s r (resp 0x0060 .badArg []))) ∧
    (∀ b d, s.dieOf b.toNat = some d → s.power.busy = false → (s.die d).pwr = .sleep ∨ (s.die d).pwr = .deepSleep →
      ∃ t, exec (.powerStateRequest r 0#8 1#8 b) s = .next (State.commit s t) ∧ t.power.waking = some (6, some d, false) ∧
        (t.die d).pwrBusy = true ∧ (∀ e, e ≠ d → t.die e = s.die e) ∧ t.hubs = s.hubs) ∧
    (∀ b d, s.dieOf b.toNat = some d → s.power.busy = false → (s.die d).pwr = .run ∨ (s.die d).pwr = .idle →
      ∀ (t : Byte) (p : PwrState), (t = 2#8 ∧ p = .sleep ∨ t = 3#8 ∧ p = .deepSleep) →
      ∀ q u, q = (⟨p, some d, some r, s.clk.elapsed, [], none, none, none⟩ : PwrReq) →
      u = ({ s.modDie d (fun k => { k with pwrBusy := true }) with
        power := { s.power with req := some q }
        net := { s.net with ports := s.net.ports.map fun (x : NetPort) => { x with linkAtTq := x.link, energyOff := none } } } : State) →
      (s.assertedNow p = none → exec (.powerStateRequest r t 1#8 b) s = .next (State.commit s u)) ∧
      (∀ src, s.assertedNow p = some src → exec (.powerStateRequest r t 1#8 b) s = .next (State.commit s (u.abortPower q src))))

/-- The command queue (R35, R378, R392): the controller takes the oldest command, reads its body under the version that its session then
has, and executes it as its row; a body that is refused is answered ZS_BAD_ARG; while no hub serves, or nothing waits, nothing happens. -/
def Obligations.CommandQueue : Prop :=
  ∀ (s : State),
    (s.core.cmdq = [] → exec .commandAccept s = .next s) ∧
    (s.serving = false → exec .commandAccept s = .next s) ∧
    (s.serving = true → ∀ q rest t, s.core.cmdq = q :: rest → t = ({ s with core := { s.core with cmdq := rest } } : State) →
      (∀ k c, q.read (s.isV2 q.req.who) = (k, some c) → ∃ u, exec .commandAccept s = .next u ∧
        exec (rowOf q.req (Config.storeOk s.free) c) (if readsBack c then { t with free := t.free + 1 } else t) = .next u) ∧
      (∀ k, q.read (s.isV2 q.req.who) = (k, none) → exec .commandAccept s = .next (replied s t q.req
        (resp k .badArg (if k = 0x0030 then submitBody 0 0#32 s.clk.now else [])))) ∧
      ∀ b, (q.origin = none → q.read b = parseBody b q.body) ∧
        ∀ o p k, q.origin = some o → parseBody b q.body = (k, some (.sessionOpen p)) →
          q.read b = (k, some (.sessionOpen { p with port := o.1, src := o.2.1, srcPort := o.2.2 })))

/-- Datagrams (R351, R352, R354 to R359, R362, R373, R374): one that does not name the port and ZCS, on a port that is disabled, without
link or without its hub, does nothing; on the other hub's port it enters the relay queue of 65,536 octets, or is discarded and counted;
the second copy under redundancy is only counted; one that is not authentic is counted; a `SessionOpen` enters the queue; a request of no
live session is answered ZS_AUTH; a session's datagram restarts its timer, and its request or its axis samples are taken. A request held
100 ms, also one of the SPI session (R370), is dropped and counted. The forms of a port's addresses are the model's (log 49). A session's
requests by SEQ (R356): the next one enters the queue, or is answered ZS_BUSY while 32 wait; one up to 7 ahead is held; one of the last 16
is a duplicate, answered again from the cache; any other is dropped and counted. -/
def Obligations.DatagramsReceived : Prop :=
  (∀ (s : State) (p : PortId) (g : Datagram) (c : Instr), c = .datagramReceive p g ∨ c = .axisSamplesDatagram p g →
      (s.hears p g = true ↔ s.portSends p = true ∧ (s.net.ports[p.val]).isAddr g.dst = true ∧ g.dstPort.toNat = s.core.net.udpPort) ∧
      (s.portSends p = true ↔ s.portRuns p = true ∧ (s.net.ports[p.val]).link = true) ∧
      (s.hears p g = false → exec c s = .next (State.commit s s)) ∧
      (s.hears p g = true → s.portOwner p ≠ s.active → ∀ n, n = wireOctets g.body.length (s.net.mode == 1) →
        (65536 < s.net.relayOctets + n →
          exec c s = .next (State.commit s { s with core := { s.core with relayDrop := satInc s.core.relayDrop } })) ∧
        (s.net.relayOctets + n ≤ 65536 →
          exec c s = .next (State.commit s { s with net := { s.net with relay := s.net.relay ++ [(p, g, n)] } }))) ∧
      (s.hears p g = true → s.portOwner p = s.active → ∀ n d u, (n, d) = s.net.discard g.tag.toNat p s.clk.elapsed → u = ({ s with net := n } : State) →
        (d = true → exec c s = .next (State.commit s { u with core := { u.core with dupDiscard := satInc u.core.dupDiscard } })) ∧
        (d = false →
          (s.core.authentic g = false → exec c s = .next (State.commit s u.authFails)) ∧
          (s.core.authentic g = true → g.kind = 1#8 → g.session = 0#32 → g.epoch = 0#32 → g.boot = 0#32 →
            ∀ q, parseBody false g.body = (0x0001, some q) →
            (s.core.cmdq.length < 32 → exec c s = .next (State.commit s { u with core := { u.core with
              cmdq := u.core.cmdq ++ [⟨⟨.udp 0 0, g.seq, g.keyId⟩, g.body, some (p, g.src, g.srcPort)⟩] } })) ∧
            (32 ≤ s.core.cmdq.length → exec c s = .next (State.commit s
              (u.bareReply g.seq.toNat g.keyId.toNat (u.turnAway (cmdOf g) .busy) (g.src, g.srcPort.toNat) p)))) ∧
          (s.core.authentic g = true → g.session ≠ 0#32 → u.sessionFor g = none → exec c s = .next (State.commit s
            (if g.kind = 1#8 then u.bareReply g.seq.toNat g.keyId.toNat (u.turnAway (cmdOf g) .auth) (g.src, g.srcPort.toNat) p else u))) ∧
          (∀ i x, s.core.authentic g = true → g.session ≠ 0#32 → u.sessionFor g = some i → (u.heard i).core.session i = some x →
            exec c s = .next (State.commit s
              (if g.kind = 1#8 then (u.heard i).takeRequest i x g else (u.heard i).takeAxis g)))))) ∧
  ((∀ (s : State) (i : Fin 8) (x : Session) (g : Datagram) (ahead : Nat), ahead = (g.seq.toNat + 2 ^ 32 - x.next) % 2 ^ 32 →
      (ahead = 0 → s.takeRequest i x g = State.followHeld i 7
        (({ s with core := s.core.modSess i fun y => { y with next := (y.next + 1) % 2 ^ 32 } } : State).enqueue
          ⟨.udp i x.epoch, g.seq, g.keyId⟩ g.body)) ∧
      (1 ≤ ahead → ahead ≤ 7 → x.held.any (·.1 == g.seq.toNat) = false → s.takeRequest i x g =
        s.modCore (·.modSess i fun y => { y with held := y.held ++ [(g.seq.toNat, s.clk.elapsed, g)] })) ∧
      (1 ≤ ahead → ahead ≤ 7 → x.held.any (·.1 == g.seq.toNat) = true → s.takeRequest i x g = s) ∧
      (2 ^ 32 - 16 ≤ ahead → s.takeRequest i x g = s.duplicate (.udp i x.epoch) x.cache g.seq.toNat g.keyId.toNat) ∧
      (8 ≤ ahead → ahead < 2 ^ 32 - 16 → s.takeRequest i x g =
        { s with core := { s.core with seqDrop := satInc s.core.seqDrop } })) ∧
    (∀ (s : State) (r : Req) (b : List Byte),
      (s.core.cmdq.length < 32 → s.enqueue r b = { s with core :=
        ({ s.core with cmdq := s.core.cmdq ++ [⟨r, b, none⟩] } : Core).asked r.who r.seq.toNat }) ∧
      (32 ≤ s.core.cmdq.length → s.enqueue r b = s.respond r (s.turnAway (leAt b 0 2) .busy))) ∧
    (∀ (s : State) (w : Who) (cache : List (Nat × Response)) (seq keyId : Nat),
      (assoc cache seq = none → s.duplicate w cache seq keyId = s) ∧
      (∀ x, assoc cache seq = some x → s.responseHeld w seq = false →
        s.duplicate w cache seq keyId = s.emit (s.message w 2 seq keyId true (respBody x)))) ∧
    (∀ (s : State) (i : Fin 8) (seq : Word) (x : Session), s.core.session i = some x → s.serving = true →
      (x.held.any fun h => h.1 == seq.toNat && decide (h.2.1 + 100 * ms ≤ s.clk.elapsed)) = true →
      exec (.heldRequestTimeout (.udp i x.epoch) seq) s = .next (State.commit s (s.modCore fun c =>
        { c.modSess i (fun y => { y with held := y.held.filter (·.1 != seq.toNat) }) with seqDrop := satInc c.seqDrop }))) ∧
    (∀ (s : State) (seq : Word), s.serving = true →
      (s.core.spi.held.any fun h => h.1 == seq.toNat && decide (h.2.1 + 100 * ms ≤ s.clk.elapsed)) = true →
      exec (.heldRequestTimeout .spi seq) s = .next (State.commit s { s with core := { s.core with
        spi := { s.core.spi with held := s.core.spi.held.filter (·.1 != seq.toNat) }, seqDrop := satInc s.core.seqDrop } })))

/-- Host SPI (R5, R25, R327, R370 to R372): a hub that answers shifts out its status word and the words read, or the status
word alone; the active hub's port reads and writes any register and carries the tunnel, which in Sleep is not powered; a write completes
when the standby has acknowledged its unit (R282, R325); a standby's port discards writes and requests. A tunnel request is handled by
its header as a session's is (R356, R357, R362, R370): a `SessionOpen` enters the queue, one that names another boot counter, session or
epoch is answered ZS_AUTH, and the others go by their SEQ, of which the first gives N. That an unsound header is discarded, and that
TUNNEL_FULL stands in the write's own status word, is the model's reading (log 52). -/
def Obligations.HostSpi : Prop :=
  ∀ (s : State) (h : HubId),
    (s.spiAlive h = false → ∀ q a n ws m,
      exec (.spiRegisterRead h q a n) s = .next { s with spiOut := vmod s.spiOut h fun _ => [] } ∧
      exec (.spiRegisterWrite h q a ws) s = .next { s with spiOut := vmod s.spiOut h fun _ => [] } ∧
      exec (.spiTunnelWrite h m) s = .next { s with spiOut := vmod s.spiOut h fun _ => [] } ∧
      exec (.spiTunnelRead h) s = .next { s with spiOut := vmod s.spiOut h fun _ => [] }) ∧
    (s.spiAlive h = true → h = s.active →
      (∀ q a n x, x = s.readRun (spiRun a n) → exec (.spiRegisterRead h q a n) s =
        .next (x.1.shiftOut h (s.spiStatus h ((spiRun a n).any s.unpowered) false :: x.2))) ∧
      (∀ q a ws t err, t = s.writeRun (.spi h) ((spiRun a ws.length).zip ws) → err = (spiRun a ws.length).any s.unpowered →
        (t.mirroring = false → exec (.spiRegisterWrite h q a ws) s =
          .next ((State.commit s t).shiftOut h [(State.commit s t).spiStatus h err false])) ∧
        (t.mirroring = true → exec (.spiRegisterWrite h q a ws) s =
          .next (State.commit s ((t.shiftOut h []).hold (.spiWrite err))))) ∧
      (s.awake = false → ∀ m, exec (.spiTunnelWrite h m) s = .next (s.shiftOut h [s.spiStatus h true false]) ∧
        exec (.spiTunnelRead h) s = .next (s.shiftOut h [s.spiStatus h true false])) ∧
      (∀ m t ok, ok = (m.magic == 0x5A4C#16 && m.kind == 1#8 && decide (m.length.toNat = m.body.length)) → t = State.commit s (s.tunnelRequest m) →
        (s.serving = true → ok = true →
          exec (.spiTunnelWrite h m) s = .next (t.shiftOut h [t.spiStatus h false (s.tunnelFull m)])) ∧
        (s.awake = true → s.serving = false ∨ ok = false →
          exec (.spiTunnelWrite h m) s = .next (s.shiftOut h [s.spiStatus h false false]))) ∧
      (∀ (m : TunnelMsg) (opens live : Bool) (r : Req) (n : Nat),
        opens = (decide (leAt m.body 0 2 = 1) && m.boot == 0#32 && m.session == 0#32 && m.epoch == 0#32) →
        live = (decide (m.boot.toNat = s.act.nv.boot) && m.session == 0#32 && decide (m.epoch.toNat = s.core.spi.epoch)) →
        r = ⟨.spi, m.seq, 0#8⟩ →
        n = (match s.core.spi.next with | some k => (m.seq.toNat + 2 ^ 32 - k) % 2 ^ 32 | none => 0) →
        (s.tunnelFull m = (decide (32 ≤ s.core.cmdq.length ∧ m.body.length ≤ 4096) && (opens || (live && decide (n = 0))))) ∧
        (opens = true → s.tunnelRequest m = s.enqueue r m.body) ∧
        (opens = false → live = false → s.tunnelRequest m =
          s.emit { s.message .spi 2 m.seq.toNat 0 false (respBody (s.turnAway (leAt m.body 0 2) .auth)) with epoch := 0 }) ∧
        (opens = false → live = true →
          (n = 0 → ∀ t, t = ({ s with core := { s.core with spi := { s.core.spi with
              next := some ((m.seq.toNat + 1) % 2 ^ 32) } } } : State) → s.tunnelRequest m = State.followTunnel 7
            (if m.body.length ≤ 4096 then t.enqueue r m.body else t.respond r (t.turnAway (leAt m.body 0 2) .badArg))) ∧
          (1 ≤ n → n ≤ 7 → (s.core.spi.held.any fun x => x.1 == m.seq.toNat) = false → s.tunnelRequest m =
            { s with core := { s.core with spi := { s.core.spi with
              held := s.core.spi.held ++ [(m.seq.toNat, s.clk.elapsed, m)] } } }) ∧
          (1 ≤ n → n ≤ 7 → (s.core.spi.held.any fun x => x.1 == m.seq.toNat) = true → s.tunnelRequest m = s) ∧
          (2 ^ 32 - 16 ≤ n → s.tunnelRequest m = s.duplicate .spi s.core.spi.cache m.seq.toNat 0) ∧
          (8 ≤ n → n < 2 ^ 32 - 16 → s.tunnelRequest m = { s with core := { s.core with seqDrop := satInc s.core.seqDrop } }))) ∧
      (∀ m rest u, s.awake = true → s.core.spi.tunnel = m :: rest → u = State.commit s { s with core := { s.core with
          spi := { s.core.spi with tunnel := rest } } } →
        exec (.spiTunnelRead h) s = .next (u.shiftOut h (s.spiStatus h false false :: wordsOf (ceilDiv m.octets.length 4) m.octets))) ∧
      (s.awake = true → s.core.spi.tunnel = [] → s.core.spi.evq = [] →
        exec (.spiTunnelRead h) s = .next (s.shiftOut h [s.spiStatus h false false]))) ∧
    (s.spiAlive h = true → h ≠ s.active → ∀ q a n ws m,
      exec (.spiRegisterRead h q a n) s = .next ((s.ownRun h (spiRun a n)).1.shiftOut h
        (s.spiStatus h ((spiRun a n).any (s.ownOff h)) false :: (s.ownRun h (spiRun a n)).2)) ∧
      exec (.spiRegisterWrite h q a ws) s = .next (s.shiftOut h [s.spiStatus h false false]) ∧
      exec (.spiTunnelWrite h m) s = .next (s.shiftOut h [s.spiStatus h (!s.awake) false]) ∧
      exec (.spiTunnelRead h) s = .next (s.shiftOut h [s.spiStatus h (!s.awake) false]))

/-- Output state and Status frames (R17, R110 to R112): the active hub's levels of a die's 16 channels go out in four frames; the die
takes the four levels of each channel of the frame that arrives, and leaves every other channel's levels, and every other die, as they
are; a powered die fills its eight Status frames with the words of its channels; a hub that does not hold the lease only keeps the frame.
Over a lane that does not pass frames nothing happens. Time frames (R48, R49): the time master's own counter goes out on a lane; the die
sets its replica to the payload plus the lane's one-way delay, which is half the round trip, rounded down (log 20), with the factory's
trim, or after coasting realigns to it without a step, and ends coasting; 16 µs without one starts it; the frequency while coasting, the
last one with a free error of at most 500, and the realignment are the model's choice (log 14). The String carries Time frames and
measures its delay in the same way, for the standby's counter (R42, R43); the rows without a die name it by the active hub (log 20: the
model's choice). -/
def Obligations.LaneFrames : Prop :=
  (∀ (s : State) (h : HubId) (d : DieId),
      (s.ticking = true → s.linked s.active d = true → exec (.outputStateSend d) s = .next (s.modLane s.active d fun l =>
        { l with outState := Vector.ofFn fun k => outStateOf (s.core.levels[d.val]) k })) ∧
      (s.ticking = false ∨ s.linked s.active d = false → exec (.outputStateSend d) s = .next s) ∧
      (∀ k : Fin 4,
        (s.linked s.active d = true → ∃ t, exec (.outputStateReceive s.active d k) s = .next t ∧
          (∀ c : ChanId, c.val / 4 = k.val → (t.die d).levels[c.val] =
            Levels.ofBits (((s.lane s.active d).outState[k.val]).toNat >>> (16 * (c.val % 4)) % 65536)) ∧
          (∀ c : ChanId, c.val / 4 ≠ k.val → (t.die d).levels[c.val] = (s.die d).levels[c.val]) ∧
          (∀ e, e ≠ d → t.die e = s.die e) ∧ t.power = s.power ∧ t.net = s.net ∧ t.sync = s.sync) ∧
        (h ≠ s.active ∨ s.linked h d = false → exec (.outputStateReceive h d k) s = .next s)) ∧
      ((s.die d).laneOn = true → ∃ t, exec (.statusSend d) s = .next t ∧
        t = { s with dies := t.dies } ∧ (∀ e, e ≠ d → t.die e = s.die e) ∧
        t.die d = { s.die d with statusTx := (t.die d).statusTx } ∧
        ∀ k : Fin 8, (((t.die d).statusTx[k.val]).toNat % 2 ^ 32 = ((s.die d).chan ⟨2 * k.val, by omega⟩).word.toNat ∧
          ((t.die d).statusTx[k.val]).toNat / 2 ^ 32 = ((s.die d).chan ⟨2 * k.val + 1, by omega⟩).word.toNat)) ∧
      ((s.die d).laneOn = false → exec (.statusSend d) s = .next s) ∧
      (∀ k : Fin 8,
        (s.linked h d = false → exec (.statusReceive h d k) s = .next s) ∧
        (s.linked h d = true → h ≠ s.active → exec (.statusReceive h d k) s = .next (s.modLane h d fun l =>
          { l.gotUp FrameType.status.code ((s.die d).statusTx[k.val]) with
            status := vmod l.status k fun _ => (s.die d).statusTx[k.val] })))) ∧
  (∀ (s : State) (h : HubId) (d : DieId),
      (s.timeMaster = some h → s.linked h d = true →
        exec (.timeFrameSend (.lane h d)) s = .next (s.modLane h d fun l => { l with timeFrame := some (if h = s.active then s.clk.now else s.clk.peer) })) ∧
      (s.timeMaster ≠ some h ∨ s.linked h d = false → exec (.timeFrameSend (.lane h d)) s = .next s) ∧
      (∀ p, (s.lane h d).timeFrame = some p → s.linked h d = true → ∃ t, exec (.timeFrameReceive h (some d)) s = .next t ∧
        ((s.die d).coasting = false → (t.die d).replica = (((p + (s.lane h d).delay : Nat) : Int) - (s.die d).realign).toNat ∧
          (t.die d).realign = (s.die d).realign) ∧
        ((s.die d).coasting = true → (t.die d).replica = (s.die d).replica ∧
          (t.die d).realign = ((p + (s.lane h d).delay : Nat) : Int) - (s.die d).replica) ∧
        (t.die d).coasting = false ∧ (t.die d).lastTime = s.clk.elapsed ∧
        (t.die d).chans = (s.die d).chans ∧ (t.die d).ntq = (s.die d).ntq ∧ (t.lane h d).timeFrame = none ∧
        t = { s with dies := t.dies, hubs := t.hubs } ∧ ∀ e, e ≠ d → t.die e = s.die e) ∧
      ((s.lane h d).timeFrame = none ∨ s.linked h d = false → exec (.timeFrameReceive h (some d)) s = .next s) ∧
      ((s.die d).laneOn = true → (s.die d).coasting = false → (s.die d).lastTime + 16 * us ≤ s.clk.elapsed →
        exec (.coastingStart d) s = .next ({ s with free := s.free + 1 }.modDie d fun x => { x with
          coasting := true
          coastFreq := s.sync.freq + clampInt (-500) 500 (Config.coastError s.free)
          realign := 0 })) ∧
      ((s.die d).laneOn = false ∨ (s.die d).coasting = true ∨ s.clk.elapsed < (s.die d).lastTime + 16 * us →
        exec (.coastingStart d) s = .next s) ∧
      (∀ rt, s.linked h d = true → exec (.laneDelayMeasure h (some d) rt) s =
        .next (s.modLane h d fun l => { l with delay := ((rt / 2 : Nat) + Config.laneAsymmetry h.val d.val).toNat })) ∧
      (∀ rt, s.linked h d = false → exec (.laneDelayMeasure h (some d) rt) s = .next s)) ∧
  (∀ (s : State),
      (s.variant.dual = true → s.mirror.str.st = .trained →
        (s.timeMaster = some s.active → exec (.timeFrameSend .string) s =
          .next { s with mirror := { s.mirror with str := { s.mirror.str with timeFrame := some s.clk.now } } }) ∧
        (∀ rt, exec (.laneDelayMeasure s.active none rt) s = .next { s with mirror := { s.mirror with str := { s.mirror.str with
          delay := ((rt / 2 : Nat) + Config.stringAsymmetry).toNat } } }) ∧
        (∀ p, s.mirror.str.timeFrame = some p → (s.hub (other s.active)).up = true → ∃ t,
          exec (.timeFrameReceive s.active none) s = .next t ∧ t.clk = { s.clk with peer := p + s.mirror.str.delay } ∧
          t.mirror.str.timeFrame = none ∧ t = { s with clk := t.clk, mirror := t.mirror, dies := t.dies })) ∧
      (s.variant.dual = false ∨ s.mirror.str.st ≠ .trained → exec (.timeFrameSend .string) s = .next s) ∧
      (∀ h, s.variant.dual = false ∨ s.mirror.str.st ≠ .trained ∨ h ≠ s.active → exec (.timeFrameReceive h none) s = .next s ∧
        ∀ rt, exec (.laneDelayMeasure h none rt) s = .next s))

/-- The shadow of a channel (R113): a Status word equal to it ends a run of differences; one of the first four differences
in a row is counted; at the fifth the shadow takes the die's word, and EV_STATE_SKEW carries both; the fourth skew within 1
s sets the channel's SKEW request level and pushes nothing. A Status frame compares its two channels. -/
def Obligations.StateShadow : Prop :=
  (∀ (s : State) (ch : Chan) (w : Word) (x : Shadow), x = (s.core.shadow[ch.die.val])[ch.c.val] →
    (w = x.word → ((s.compareShadow ch w).core.shadow[ch.die.val])[ch.c.val] = { x with run := 0 }) ∧
    (w ≠ x.word → x.run < 4 → ((s.compareShadow ch w).core.shadow[ch.die.val])[ch.c.val] = { x with run := x.run + 1 } ∧
      (s.compareShadow ch w).dies = s.dies ∧ (s.compareShadow ch w).core.levels = s.core.levels) ∧
    (w ≠ x.word → 4 ≤ x.run → ∀ n, n = (x.skews.filter fun t => decide (s.clk.elapsed < t + sec)).length →
      ((s.compareShadow ch w).core.shadow[ch.die.val])[ch.c.val].word = w ∧
      ((s.compareShadow ch w).core.shadow[ch.die.val])[ch.c.val].run = 0 ∧
      (n < 3 → (s.compareShadow ch w).core.levels = s.core.levels) ∧
      (3 ≤ n → (s.compareShadow ch w).dies = s.dies ∧
        (((s.compareShadow ch w).core.levels[ch.die.val])[ch.c.val]).skew = true ∧
        ∀ c e, (c, e) ≠ (ch.c, ch.die) → ((s.compareShadow ch w).core.levels[e.val])[c.val] = (s.core.levels[e.val])[c.val]))) ∧
  ∀ (s : State) (d : DieId) (k : Fin 8) (t : State), s.linked s.active d = true →
    t = s.modLane s.active d (fun l => { l.gotUp FrameType.status.code ((s.die d).statusTx[k.val]) with
      status := vmod l.status k fun _ => (s.die d).statusTx[k.val] }) →
    exec (.statusReceive s.active d k) s = .next (State.commit s
      ((t.compareShadow ⟨d, ⟨2 * k.val, by omega⟩⟩ (lo32 ((s.die d).statusTx[k.val]).toNat)).compareShadow
        ⟨d, ⟨2 * k.val + 1, by omega⟩⟩ (hi32 ((s.die d).statusTx[k.val]).toNat)))

/-- Promotion (R20, R21, R69, R282, R283, R285): the first due entry of a die takes the next promotion index, its slot comes
into use and a queue slot is reserved; an entry that is not due, or not the first, stays, and
so does each while the lane's next slot may begin none: a promotion has not left whole or waits for the standby, no credit is there, or a
frame goes out again or a lease message is due first. A frame of a hub that does not
hold the lease is discarded and counted; the lease holder's frames are collected, and the fourth puts the entry at the end
of the near-term queue. -/
def Obligations.Promotion : Prop :=
  (∀ (s : State) (id : Nat) (e : Entry), s.core.entry id = some e →
    (s.promoDue e = true → (∀ x ∈ s.core.entries, x.ch.die = e.ch.die → s.promoDue x = true → x.goesBefore e = false) →
      s.mayPromote e.ch.die = true →
      s.mirroring = false →
      exec (.promotionBegin id) s = .next (State.commit s
        ((({ s with core := { (s.core.modEntry id fun x => { x with
            phase := .promoting
            promo := some (s.lane s.active e.ch.die).promoIdx }) with slots := s.core.slots.begin 1 } } : State).modLane
          s.active e.ch.die fun l => { l with
            promoIdx := ((s.lane s.active e.ch.die).promoIdx + 1) % 65536
            promo := l.promo ++ [(id, 4)] }).modDie e.ch.die fun k => { k with ntqPool := k.ntqPool.reserve 1 }))) ∧
    (s.promoDue e = true → (∀ x ∈ s.core.entries, x.ch.die = e.ch.die → s.promoDue x = true → x.goesBefore e = false) →
      s.mayPromote e.ch.die = true →
      s.mirroring = true → ∃ t, exec (.promotionBegin id) s = .next t ∧
        t.core.entry id = some { e with phase := .promoting, promo := some (s.lane s.active e.ch.die).promoIdx } ∧
        t.core.slots = s.core.slots.begin 1 ∧ (t.die e.ch.die).ntqPool = (s.die e.ch.die).ntqPool.reserve 1 ∧
        (t.lane s.active e.ch.die).promo = (s.lane s.active e.ch.die).promo ∧
        t.mirror.held = s.mirror.held ++ [(s.mirror.committed + 1, .promote id)]) ∧
    (s.promoDue e = false → exec (.promotionBegin id) s = .next s) ∧
    (s.mayPromote e.ch.die = false →
      exec (.promotionBegin id) s = .next s) ∧
    (∀ x ∈ s.core.entries, x.ch.die = e.ch.die → s.promoDue x = true → x.goesBefore e = true →
      exec (.promotionBegin id) s = .next s)) ∧
  (∀ (s : State) (id : Nat), s.core.entry id = none → exec (.promotionBegin id) s = .next s) ∧
  ∀ (s : State) (h : HubId) (d : DieId),
    ((s.lane h d).nextPromo = none → exec (.promotionFrameReceive h d) s = .next s) ∧
    (∀ id n, (s.lane h d).nextPromo = some (id, n) →
      (s.carries h d (.promo id n) = false ∨ (s.lane h d).down.canSend = false ∨
          (s.lane h d).mayGo s.clk.elapsed (.promo id n) = false →
        exec (.promotionFrameReceive h d) s = .next (State.commit s s)) ∧
      (s.carries h d (.promo id n) = true → (s.lane h d).down.canSend = true → (s.lane h d).mayGo s.clk.elapsed (.promo id n) = true →
        (s.lane h d).down.inSeq = false →
        exec (.promotionFrameReceive h d) s = .next (State.commit s (s.strayDown h d (.promo id n) (s.promoPayload h id n))))) ∧
    (∀ id n t, (s.lane h d).nextPromo = some (id, n) → s.carries h d (.promo id n) = true → (s.lane h d).down.canSend = true →
      (s.lane h d).mayGo s.clk.elapsed (.promo id n) = true → (s.lane h d).down.inSeq = true →
      t = s.bufferedDown h d (.promo id n) (s.promoPayload h id n) →
      ((s.lane h d).down.resend = [] → (s.lane h d).again = [] →
        (t.lane h d).promo = (if n ≤ 1 then (s.lane h d).promo.tail else (id, n - 1) :: (s.lane h d).promo.tail)) ∧
      ((s.die d).holder ≠ some h → exec (.promotionFrameReceive h d) s =
        .next (State.commit s (t.modDie d fun k => { k with foreignDisc := satInc k.foreignDisc }))) ∧
      ((s.die d).holder = some h → 1 < n → exec (.promotionFrameReceive h d) s =
        .next (State.commit s (t.modDie d fun k => { k with partialPromo := some (id, 5 - n) }))) ∧
      ((s.die d).holder = some h → n ≤ 1 → ∀ e, (s.coreOf h).entry id = some e → e.phase = .promoting →
        ∃ u, exec (.promotionFrameReceive h d) s = .next u ∧
          (u.die d).ntq = (s.die d).ntq ++ [{ e with phase := .queued }] ∧
          (u.die d).promoCnt = ((s.die d).promoCnt + 1) % 65536 ∧ (u.die d).partialPromo = none ∧
          (u.die d).ntqPool = (s.die d).ntqPool.begin 1 ∧
          (u.die d).ntqHigh = max (s.die d).ntqHigh ((s.die d).ntqPool.begin 1).use ∧
          (u.die d).chans = (s.die d).chans ∧ ∀ k, k ≠ d → u.die k = s.die k))

/-- Management frames (R16, R20, R21, R26, R112, R285): a request leaves where no promotion waits or its reserved slot is due,
and where a lost one is resent that one does, but none to a die in Sleep (R22, R325); a die
answers every request of its lease holder, a write with the word it got and a read with the register's value, and discards and
counts the other hub's; a response leaves numbered, is counted as taken, and a write of a channel page advances the channel's
shadow. -/
def Obligations.ManagementFrames : Prop :=
  ∀ (s : State) (h : HubId) (d : DieId),
    (∀ m, (s.carries h d (.access (some m)) = false ∨ (s.lane h d).down.canSend = false ∨
          (s.lane h d).mayGo s.clk.elapsed (.access (some m)) = false →
        exec (.managementRequestReceive h d m) s = .next (State.commit s s)) ∧
      (s.carries h d (.access (some m)) = true → (s.lane h d).down.canSend = true →
          (s.lane h d).mayGo s.clk.elapsed (.access (some m)) = true →
        ((s.lane h d).down.inSeq = false → exec (.managementRequestReceive h d m) s =
          .next (State.commit s (s.strayDown h d (.access (some m)) (mgmtPayload m)))) ∧
        ((s.lane h d).down.inSeq = true → ∀ t, t = s.bufferedDown h d (.access (some m)) (mgmtPayload m) →
          (t.lane h d).mgmtDownAt = s.clk.elapsed ∧
          ((s.die d).holder ≠ some h → exec (.managementRequestReceive h d m) s =
            .next (State.commit s (t.modDie d fun k => { k with foreignDisc := satInc k.foreignDisc }))) ∧
          ((s.die d).holder = some h →
            (∀ x : m.page < 23,
              (m.write = true → exec (.managementRequestReceive h d m) s = .next (State.commit s
                ((t.dieWrite (.die d ⟨m.page, x⟩) m.offset m.data).modDie d fun k =>
                  { k with mgmt := k.mgmt ++ [(m.page, m.offset, true, m.data)] }))) ∧
              (m.write = false → ∀ u w, (u, w) = t.dieRead (.die d ⟨m.page, x⟩) m.offset →
                exec (.managementRequestReceive h d m) s = .next (State.commit s
                  (u.modDie d fun k => { k with mgmt := k.mgmt ++ [(m.page, m.offset, false, w)] })))) ∧
            (23 ≤ m.page → exec (.managementRequestReceive h d m) s = .next (State.commit s
              (t.modDie d fun k => { k with mgmt := k.mgmt ++ [(m.page, m.offset, m.write, 0#32)] }))))))) ∧
    ((∀ p o wr w, s.upNext d ≠ some (h, .mgmt p o wr w)) → exec (.managementResponseReceive h d) s = .next s) ∧
    (∀ p o wr w, s.upNext d = some (h, .mgmt p o wr w) →
      ((s.lane h d).up.inSeq = false →
        exec (.managementResponseReceive h d) s = .next (s.strayUp h d (.mgmt p o wr w))) ∧
      ((s.lane h d).up.inSeq = true → ∀ t, t = s.takeUp h d (.mgmt p o wr w) →
        (h = s.active → wr = true → exec (.managementResponseReceive h d) s = .next (State.commit s
          (t.syncShadow d (allC.filter fun c => decide (p = c.val + 1))))) ∧
        (h = s.active → wr = false → exec (.managementResponseReceive h d) s = .next (State.commit s (t.syncShadow d []))) ∧
        (h ≠ s.active → exec (.managementResponseReceive h d) s = .next (State.commit s t))))

/-- Frames of a die's results, captures, angle words and events (R20, R22, R33, R80, R169, R221, R283, R300): the next buffered
frame of the die leaves numbered on its lease holder's lane, is counted as taken, and its words enter their record, or its
event is raised at that hub; the words of a capture are its restored instant and its edge; a frame out of sequence is discarded.
A row whose frame is not the next one does nothing. -/
def Obligations.FramesOfADie : Prop :=
  (∀ (s : State) (d : DieId),
    (s.upNext d = none → exec (.resultFrameReceive d) s = .next s ∧
      exec (.captureFrameReceive d) s = .next s ∧ exec (.angleTagFrameReceive d) s = .next s ∧
      exec (.eventFrameReceive d) s = .next s) ∧
    (∀ h x, s.upNext d = some (h, x) → ∀ c,
      (c = .resultFrameReceive d ∧ (∃ id ws st q n z, x = .result id ws st q n z)) ∨
        (c = .captureFrameReceive d ∧ (∃ id v low r q a, x = .capture id v low r q a)) ∨
        (c = .angleTagFrameReceive d ∧ (∃ id ws st q n, x = .angle id ws st q n)) ∨
        (c = .eventFrameReceive d ∧ ∃ r, x = .event r) →
      (s.lane h d).up.inSeq = false → exec c s = .next (s.strayUp h d x)) ∧
    (∀ h x, s.upNext d = some (h, x) → (s.lane h d).up.inSeq = true → ∀ u, u = s.takeUp h d x →
      u.die d = (s.die d).sentUp (s.grantFor h d) (s.mgmtUpDue h d) ∧
      (h = s.active → u.core.taken[d.val] = (s.core.taken[d.val] + 1) % 65536) ∧
      (∀ id ws st q n z, x = .result id ws st q n z → exec (.resultFrameReceive d) s =
        .next (State.commit s (u.modCoreOf h (·.putResult id ws st q n z)))) ∧
      (∀ id v low r q a, x = .capture id v low r q a → exec (.captureFrameReceive d) s =
        .next (State.commit s (u.modCoreOf h (·.putCapture id (restore40 low s.clk.now) r q a)))) ∧
      (∀ id ws st q n, x = .angle id ws st q n → exec (.angleTagFrameReceive d) s =
        .next (State.commit s (u.modCoreOf h (·.putAngle id ws st q n)))) ∧
      (∀ r, x = .event r → h = s.active → exec (.eventFrameReceive d) s =
        .next (State.commit s ((u.modHub h (·.take (hubBitOf r.code) r)).syncShadow d (recChans r)))) ∧
      (∀ r, x = .event r → h ≠ s.active → exec (.eventFrameReceive d) s =
        .next (State.commit s (u.modHub h (·.take (hubBitOf r.code) r)))))) ∧
  ∀ (c : Core) (id : Nat) (y : Record) (st : Tick) (r a : Bool) (q : Nat), c.record id = some y →
    c.putCapture id st r q a = c.writeRecord id
      [(5 + (if a then 4 else 3) * y.done, lo32 st), (5 + (if a then 4 else 3) * y.done + 1, hi32 st),
        (5 + (if a then 4 else 3) * y.done + 2, BitVec.ofNat 32 (putBit r 0 + putFld q 1 2))] (y.done + 1) st 0

/-- Credit, errors and replay (R18, R19, R22, R23, R282, R298): a receiver frees one place and owes its credit, but a hub keeps a die's
frame whose unit the standby has not acknowledged; a frame that fails its CRC is only counted, by the hub that receives it, and a buffered
one is asked for again; a Replay request resends the unacknowledged frames from its SEQ on. Training of a lane (R18, R23, R24, R105,
R298): 16 bad frames in a row put the lane back in training and give the die's channels the LANE_CRC cause; completed training sets the
higher version that both ends support, and credits to 16 less the places that stand occupied, by a row whose report is what both ends hold
(log 20: the model's reading); a third failure makes the lane FAILED, a FAILED lane is trained again every 10 ms; an Idle frame brings the
die's lease report, and a lane at keep-alive carries no Replay request (R325). The String is handled in the same way, and each hub counts
its faults (R280, R298). -/
def Obligations.LaneCreditsAndTraining : Prop :=
  ((∀ (s : State) (h : HubId) (d : DieId),
      exec (.frameConsume (.lane h d) .down) s = .next (s.modLane h d fun x => { x with down := x.down.consume }) ∧
      ((if h = s.active then s.mirror.held.countP (·.2 == .consume d) else 0) < (s.lane h d).up.places →
        exec (.frameConsume (.lane h d) .up) s = .next (s.modLane h d fun x => { x with up := x.up.consume })) ∧
      ((s.lane h d).up.places ≤ (if h = s.active then s.mirror.held.countP (·.2 == .consume d) else 0) →
        exec (.frameConsume (.lane h d) .up) s = .next s) ∧
      exec (.frameConsume .string .down) s =
        .next { s with mirror := { s.mirror with str := { s.mirror.str with down := s.mirror.str.down.consume } } } ∧
      exec (.frameConsume .string .up) s =
        .next { s with mirror := { s.mirror with str := { s.mirror.str with up := s.mirror.str.up.consume } } }) ∧
    (∀ f : Flow, (f.places = 0 → f.consume = f) ∧
      (f.places ≠ 0 → f.consume = { f with places := f.places - 1, toReturn := f.toReturn + 1 })) ∧
    ∀ (s : State) (l : Link),
      ((s.link l).st ≠ .trained → (∀ dir b, exec (.frameCrcFail l dir b) s = .next s) ∧
        ∀ dir q, exec (.replayRequestReceive l dir q) s = .next s) ∧
      ((s.link l).st = .trained →
        exec (.frameCrcFail l .down false) s = .next ((s.countFail l .down false).modLink l fun x => { x with
          down := { x.down with crcRun := x.down.crcRun + 1 } }) ∧
        exec (.frameCrcFail l .up false) s = .next ((s.countFail l .up false).modLink l fun x => { x with
          up := { x.up with crcRun := x.up.crcRun + 1 } }) ∧
        (∀ dir, s.hasFrame l dir = false → exec (.frameCrcFail l dir true) s = .next s) ∧
        (s.hasFrame l .down = true → ∀ t, (match l with
            | .lane h d => t = s.modLane h d fun x => x.keptDown (x.nextDown s.clk.elapsed) s.clk.elapsed
            | .string => t = s) →
          exec (.frameCrcFail l .down true) s = .next ((t.countFail l .down true).modLink l fun x => { x with
            down := { x.down.lose with replay := some x.down.expect, crcRun := x.down.crcRun + 1 } })) ∧
        (s.hasFrame l .up = true → ∀ t, (match l with | .lane h d => t = s.loseUp h d | .string => t = s) →
          exec (.frameCrcFail l .up true) s = .next ((t.countFail l .up true).modLink l fun x => { x with
            up := { x.up.lose with replay := some x.up.expect, crcRun := x.up.crcRun + 1 } })) ∧
        (∀ h d b, s.countFail (.lane h d) .down b = s ∧
          s.countFail (.lane h d) .up b = s.modLane h d fun x => { x with
            crc := satTo 0xFFFF (x.crc + 1), replays := if b then satTo 0xFF (x.replays + 1) else x.replays }) ∧
        (∀ b, s.countFail .string .up b = s.countStr 0 (fun e => e.failed b) ∧
          s.countFail .string .down b = s.countStr 1 (fun e => e.failed b)) ∧
        (s.asksAgain l = false → ∀ dir q, exec (.replayRequestReceive l dir q) s = .next s) ∧
        (∀ h d, s.asksAgain (.lane h d) = true ↔ (s.die d).pwr ≠ .sleep) ∧
        (∀ q : Fin 16, (s.link l).down.replay ≠ some q.val → exec (.replayRequestReceive l .down q) s = .next s) ∧
        (∀ q : Fin 16, (s.link l).up.replay ≠ some q.val → exec (.replayRequestReceive l .up q) s = .next s) ∧
        (∀ q : Fin 16, s.asksAgain l = true → (s.link l).down.replay = some q.val → exec (.replayRequestReceive l .down q) s =
          .next (s.modLink l fun x => { x.gotUp 0xB (replayPayload q.val) with
            down := (x.down.credit).replayFrom q.val })) ∧
        (∀ q : Fin 16, s.asksAgain l = true → (s.link l).up.replay = some q.val → ∃ t, exec (.replayRequestReceive l .up q) s = .next t ∧
          (t.link l).up = ((s.link l).up.credit).replayFrom q.val ∧ (t.link l).st = .trained ∧ t.core = s.core ∧
          t.clk = s.clk ∧ t.power = s.power)) ∧
      (∀ (g : Flow) (q : Nat), g.replayFrom q = { g with
        unacked := g.unacked.dropWhile (· != q)
        resend := g.unacked.dropWhile (· != q)
        replay := none })) ∧
  (∀ (s : State) (h : HubId) (d : DieId),
      ((s.lane h d).st = .trained → (16 ≤ (s.lane h d).down.crcRun ∨ 16 ≤ (s.lane h d).up.crcRun) → ∃ t,
        exec (.laneCrcRun h (some d)) s = .next t ∧ (t.lane h d).st = .training ∧ (t.lane h d).version = 0 ∧
        (t.lane h d).retrain = satTo 63 ((s.lane h d).retrain + 1) ∧ (t.lane h d).down.credits = 0 ∧
        t.die d = (if (s.die d).present then (s.die d).setCauses d (s.dq d) 1 allC else s.die d) ∧
        (∀ e, e ≠ d → t.die e = s.die e) ∧ t.core = s.core) ∧
      ((s.lane h d).st ≠ .trained ∨ ((s.lane h d).down.crcRun < 16 ∧ (s.lane h d).up.crcRun < 16) →
        exec (.laneCrcRun h (some d)) s = .next s) ∧
      (∀ v a b, (s.lane h d).st = .trained ∨ (s.hub h).present = false ∨ (s.hub h).up = false ∨ (s.die d).laneOn = false ∨
          v ≠ s.agreed h d ∨ a ≠ (s.lane h d).down.places ∨ b ≠ (s.lane h d).up.places →
        exec (.trainingComplete (.lane h d) v a b) s = .next s) ∧
      ((s.lane h d).st ≠ .trained → (s.hub h).present = true → (s.hub h).up = true → (s.die d).laneOn = true → ∃ t,
        exec (.trainingComplete (.lane h d) (s.agreed h d) (s.lane h d).down.places (s.lane h d).up.places) s = .next t ∧
        (t.lane h d).st = .trained ∧ (t.lane h d).version = s.agreed h d ∧
        (t.lane h d).down.credits = 16 - (s.lane h d).down.places ∧ (t.lane h d).down.outstanding = (s.lane h d).down.places ∧
        (t.lane h d).down.places = (s.lane h d).down.places ∧
        (t.lane h d).up.credits = 16 - (s.lane h d).up.places ∧ (t.lane h d).up.outstanding = (s.lane h d).up.places ∧
        (t.lane h d).up.places = (s.lane h d).up.places ∧
        (t.lane h d).failRun = 0 ∧ (t.lane h d).down.unacked = [] ∧ (t.lane h d).up.unacked = [] ∧
        (t.lane h d).again = (s.lane h d).lostDown ++ (s.lane h d).again ∧ (t.lane h d).lostDown = [] ∧
        (∀ k e, (k, e) ≠ (h, d) → t.lane k e = s.lane k e) ∧ t.core = s.core ∧ (t.die d).chans = (s.die d).chans) ∧
      ((s.lane h d).st = .training → 3 ≤ (s.lane h d).failRun →
        exec (.laneFailed h d) s = .next (s.modLane h d fun l => { l with st := .failed, failAt := s.clk.elapsed })) ∧
      ((s.lane h d).st = .training → (s.lane h d).failRun < 3 → (s.hub h).up = true → (s.die d).present = true →
        ∀ t, t = (s.modLane h d fun l => { l with st := .failed, failRun := 3, failAt := s.clk.elapsed }).modHub h
          (·.raise .laneFailed (mkRec .laneFailed s.clk.now (srcDie d) s.quality false [] none)) →
        (h ≠ s.active → exec (.laneFailed h d) s = .next (t.modHub h fun x =>
          if x.hstate = .ready then { x with hstate := .syncing } else x)) ∧
        (h = s.active → (t.die d).holder = some h → t.core.redun.laneSwitch = true → (s.lane (other h) d).st = .trained →
          exec (.laneFailed h d) s = .next (State.commit s (t.startSwitchover 3 none))) ∧
        (h = s.active → ((t.die d).holder ≠ some h ∨ t.core.redun.laneSwitch = false ∨ (s.lane (other h) d).st ≠ .trained) →
          exec (.laneFailed h d) s = .next (State.commit s t))) ∧
      ((s.lane h d).st ≠ .training → exec (.laneFailed h d) s = .next s) ∧
      ((s.lane h d).st = .failed → (s.hub h).up = true → (s.lane h d).failAt + 10 * ms ≤ s.clk.elapsed →
        exec (.laneTrainingRetry h (some d)) s = .next (s.modLane h d fun l => { l with st := .training })) ∧
      ((s.lane h d).st ≠ .failed ∨ (s.hub h).up = false ∨ s.clk.elapsed < (s.lane h d).failAt + 10 * ms → exec (.laneTrainingRetry h (some d)) s = .next s) ∧
      (s.linked h d = true → ∀ w, w = BitVec.ofNat 64 (leaseReport (s.die d) s.clk.elapsed) →
        exec (.idleFrameReceive h (some d)) s = .next (s.modLane h d fun l => { l.gotUp FrameType.idle.code w with report := w })) ∧
      (s.linked h d = false → exec (.idleFrameReceive h (some d)) s = .next s)) ∧
  ∀ (s : State) (h : HubId),
      ((s.mirror.str.st = .trained ∧ (16 ≤ s.mirror.str.down.crcRun ∨ 16 ≤ s.mirror.str.up.crcRun)) → ∃ t,
        exec (.laneCrcRun h none) s = .next t ∧ t.mirror.str.st = .training ∧ t.mirror.str.down.credits = 0 ∧ t.dies = s.dies ∧
        t.core = s.core ∧ ∀ k, (t.hub k).strErr.retrain = satTo 63 ((s.hub k).strErr.retrain + 1)) ∧
      (s.mirror.str.st ≠ .trained ∨ (s.mirror.str.down.crcRun < 16 ∧ s.mirror.str.up.crcRun < 16) →
        exec (.laneCrcRun h none) s = .next s) ∧
      (s.variant.dual = true → (s.hub h).up = true → s.mirror.str.st = .failed → s.mirror.str.failAt + 10 * ms ≤ s.clk.elapsed →
        exec (.laneTrainingRetry h none) s = .next (s.modLink .string fun l => { l with st := .training })) ∧
      (s.variant.dual = false ∨ (s.hub h).up = false ∨ s.mirror.str.st ≠ .failed ∨ s.clk.elapsed < s.mirror.str.failAt + 10 * ms →
        exec (.laneTrainingRetry h none) s = .next s) ∧
      (s.strung = true → ∃ w, exec (.idleFrameReceive h none) s = .next (s.gotStr h StrType.idle.code w)) ∧
      (s.strung = false → exec (.idleFrameReceive h none) s = .next s)

/-- Field leases (R21, R284 to R289): after a multiple of 10 µs of its device time a hub renews, once, on every linked
lane whose report names it; a RENEW of the holder
restarts the lease and the hub-loss timer; a hub that claims asks, once
for each multiple, every present die whose report does not name it; a die
that no hub holds grants, discards partial promotions and resends its kept frames from RESUME on; RELEASE of the holder ends
the lease; 200 µs without RENEW end it. A lease message of a hub that does not hold the lease is discarded and counted, and one
out of sequence is discarded (R22). The GRANT (R287, R289, R292): it comes after the resent frames; the hub it names notes itself as
the holder, counts the frame as taken, and takes up promotion where PROMO_CNT says, which may make it ACTIVE. That a CLAIM is granted in
its own step, with the GRANT after the resent frames, and that a CLAIM of the holder changes nothing, is the model's reading (log 21). -/
def Obligations.FieldLeases : Prop :=
  ((∀ (s : State) (h : HubId),
      (s.renews h = true → (s.hub h).renewMult ≠ some (s.multiple h) → exec (.renewSend h) s = .next (s.modHub h fun x => { x with
        renewMult := some (s.multiple h)
        lanes := vmap x.lanes fun d l => if s.linked h d && reportHolder l == h.val then { l with lease := some .renew } else l })) ∧
      (s.renews h = false ∨ (s.hub h).renewMult = some (s.multiple h) → exec (.renewSend h) s = .next s) ∧
      (s.claims h = true → (s.hub h).claimMult ≠ some (s.multiple h) →
        exec (.claimSend h) s = .next (State.commit s ((s.modHub h fun x => { x with
        claimMult := some (s.multiple h)
        lanes := vmap x.lanes fun d l =>
          if s.linked h d && reportHolder l != h.val && (s.die d).pwr != .sleep then
            { l with lease := some (.claim ((s.coreOf h).taken[d.val])) }
          else l }).takeoverComplete h))) ∧
      (s.claims h = false ∨ (s.hub h).claimMult = some (s.multiple h) → exec (.claimSend h) s = .next s)) ∧
    ∀ (s : State) (h : HubId) (d : DieId),
      (∀ c, (c = .renewReceive h d ∧ (s.lane h d).nextLease ≠ some .renew) ∨
          (c = .claimReceive h d ∧ ∀ n, (s.lane h d).nextLease ≠ some (.claim n)) ∨
          (c = .releaseReceive h d ∧ ∀ n, (s.lane h d).nextLease ≠ some (.release n)) → exec c s = .next s) ∧
      (∀ m c, (s.lane h d).nextLease = some m → (m = .renew ∧ c = .renewReceive h d) ∨ ((∃ n, m = .claim n) ∧ c = .claimReceive h d) ∨
          ((∃ n, m = .release n) ∧ c = .releaseReceive h d) →
        (s.carries h d (.lease m) = false ∨ (s.lane h d).mayGo s.clk.elapsed (.lease m) = false ∨ (s.lane h d).down.canSend = false →
          exec c s = .next s) ∧
        (s.carries h d (.lease m) = true → (s.lane h d).mayGo s.clk.elapsed (.lease m) = true → (s.lane h d).down.canSend = true →
          (s.lane h d).down.inSeq = false → exec c s = .next (s.strayDown h d (.lease m) (leasePayload h m)))) ∧
      (∀ m t, (s.lane h d).nextLease = some m → s.carries h d (.lease m) = true → (s.lane h d).mayGo s.clk.elapsed (.lease m) = true →
        (s.lane h d).down.canSend = true → (s.lane h d).down.inSeq = true →
        t = s.bufferedDown h d (.lease m) (leasePayload h m) →
        ((s.lane h d).down.resend = [] → (s.lane h d).again = [] →
          (t.lane h d).lease = none ∧ (t.lane h d).mgmtDownAt = s.clk.elapsed) ∧
        (m = .renew →
          ((s.die d).holder = some h → exec (.renewReceive h d) s =
            .next (t.modDie d fun k => { k with renewAt := s.clk.elapsed, lossFrom := some s.clk.elapsed })) ∧
          ((s.die d).holder ≠ some h → exec (.renewReceive h d) s =
            .next (t.modDie d fun k => { k with foreignDisc := satInc k.foreignDisc }))) ∧
        (∀ n, m = .release n →
          ((s.die d).holder = some h → exec (.releaseReceive h d) s = .next (t.modDie d fun k => { k with holder := none })) ∧
          ((s.die d).holder ≠ some h → exec (.releaseReceive h d) s =
            .next (t.modDie d fun k => { k with foreignDisc := satInc k.foreignDisc }))) ∧
        (∀ n, m = .claim n →
          ((s.die d).holder = some h → exec (.claimReceive h d) s = .next t) ∧
          ((s.die d).holder = some (other h) → exec (.claimReceive h d) s = .next ((t.modDie d fun k =>
            { k with foreignDisc := satInc k.foreignDisc }).modHub h fun y => { y with claimDisc := satInc y.claimDisc })) ∧
          ((s.die d).holder = none → ∃ u, exec (.claimReceive h d) s = .next u ∧
            (u.die d).holder = some h ∧ (u.die d).renewAt = s.clk.elapsed ∧ (u.die d).lossFrom = some s.clk.elapsed ∧
            (u.die d).partialPromo = none ∧ (u.die d).heldFrames = [] ∧
            (u.die d).resend = ((s.die d).heldFrames ++ (s.die d).resend).filter (fun p => !precedes p.1 n) ∧
            (u.lane h d).grant = some (s.die d).promoCnt ∧ (u.lane h d).lease = (t.lane h d).lease ∧ (u.die d).ntq = (s.die d).ntq ∧
            (u.die d).chans = (s.die d).chans ∧ (∀ e, e ≠ d → u.die e = s.die e) ∧ u.core = s.core))) ∧
      ((s.die d).holder ≠ none → (s.die d).pwr ≠ .deepSleep → (s.die d).renewAt + 200 * us ≤ s.clk.elapsed →
        exec (.leaseExpiry d) s = .next (s.modDie d fun k => { k with holder := none })) ∧
      ((s.die d).holder = none ∨ (s.die d).pwr = .deepSleep ∨ s.clk.elapsed < (s.die d).renewAt + 200 * us →
        exec (.leaseExpiry d) s = .next s)) ∧
  (∀ (s : State) (h : HubId) (d : DieId),
      (∀ g n, s.upNext d = some (h, .grant g n) →
        ((s.lane h d).up.inSeq = false → exec (.grantReceive h d) s = .next (s.strayUp h d (.grant g n))) ∧
        ((s.lane h d).up.inSeq = true → ∀ t, t = s.takeUp h d (.grant g n) →
          (g = h → exec (.grantReceive h d) s = .next (State.commit s
            (((t.modLane h d fun l => { l with report := BitVec.ofNat 64 (leaseReport (t.die d) t.clk.elapsed) }).resumePromotion
              h d n).takeoverComplete h))) ∧
          (g ≠ h → exec (.grantReceive h d) s = .next (State.commit s t)))) ∧
      ((∀ g n, s.upNext d ≠ some (h, .grant g n)) → exec (.grantReceive h d) s = .next s) ∧
      (∀ n, ((s.resumePromotion h d n).lane h d).promoIdx = (n + ((s.resumePromotion h d n).lane h d).promo.length) % 65536 ∧
        (∀ p ∈ ((s.resumePromotion h d n).lane h d).promo, p.2 = 4 ∧
          ∃ e ∈ (s.coreOf h).entries, e.id = p.1 ∧ e.ch.die = d ∧ e.repromoted n = true)))

/-- Heartbeats and the loss of the active hub (R279, R281, R291 to R293): a hub sends its state, roles and unit index; the
peer takes them, forgets what it missed and renews the roles shown; a READY standby that missed 8 in a row applies no
further unit and, with AUTO_TAKEOVER, claims, while what a stopped hub held back is lost; after 200 µs with a live lease elsewhere it is
DETACHED with EV_STRING_FAULT; a hub that stops leaves the dies as they are, and its ports stop with it. What becomes of held actions and
of units on their way is the model's choice (log 65), as is that ports stop with their hub and without an event (log 66). -/
def Obligations.HeartbeatsAndTakeover : Prop :=
  (∀ (s : State) (h : HubId),
    (s.strung = true → exec (.heartbeatSend h) s = .next (s.modHub h fun x => { x with
      hbSent := some (if h = s.active then s.mirror.committed else s.mirror.applied, x.hstate.toNat, s.roles h)
      hbCount := (x.hbCount + 1) % 65536 })) ∧
    (s.strung = false → exec (.heartbeatSend h) s = .next s ∧ exec (.heartbeatReceive h) s = .next s) ∧
    ((s.hub (other h)).hbSent = none → exec (.heartbeatReceive h) s = .next s) ∧
    (∀ idx st ro, s.strung = true → (s.hub (other h)).hbSent = some (idx, st, ro) → ∃ t,
      exec (.heartbeatReceive h) s = .next t ∧ (t.hub h).peer = (st, ro, idx) ∧ (t.hub h).hbAt = s.clk.elapsed ∧
      (t.hub h).hbTime = s.clk.now ∧ (t.hub h).hbMiss = 0 ∧ (t.hub (other h)).hbSent = none ∧
      (t.hub (other h)).nvLock = renewRole (s.hub (other h)).nvLock (ro / 2 % 2 == 1) s.clk.elapsed ∧
      (t.hub (other h)).keyRole = renewRole (s.hub (other h)).keyRole (ro / 4 % 2 == 1) s.clk.elapsed ∧
      t.dies = s.dies ∧ t.core = s.core) ∧
    (∀ due, due = (s.hub h).hbAt - (s.hub h).hbTime % (10 * us) + ((s.hub h).hbMiss + 1) * (10 * us) + us →
      (s.variant.dual = true → (s.hub h).present = true → (s.hub h).up = true → due ≤ s.clk.elapsed →
        exec (.heartbeatMissed h) s = .next (s.modHub h fun y => { y with hbMiss := y.hbMiss + 1 })) ∧
      (s.variant.dual = false ∨ (s.hub h).up = false ∨ s.clk.elapsed < due → exec (.heartbeatMissed h) s = .next s))) ∧
  ∀ (s : State) (o : HubId), o = other s.active →
    (s.standbyReady = true → 8 ≤ (s.hub o).hbMiss → (s.hub o).tdet = none → s.switching = false → ∀ t,
      (s.serving = true ∧ t = { s with mirror := { s.mirror with rx := none } }) ∨
        (s.serving = false ∧ t = { s with mirror := { s.mirror with wire := [], rx := none, held := [] } }) →
      (s.copy.redun.autoTakeover = true → exec .lossOfActiveHub s =
        .next (t.modHub o fun x => { x with tdet := some s.clk.elapsed })) ∧
      (s.copy.redun.autoTakeover = false → exec .lossOfActiveHub s = .next t)) ∧
    (s.standbyReady = false ∨ (s.hub o).hbMiss < 8 ∨ (s.hub o).tdet ≠ none ∨ s.switching = true →
      exec .lossOfActiveHub s = .next s) ∧
    (∀ t0, (s.hub o).tdet = some t0 →
      (t0 + 200 * us ≤ s.clk.elapsed → (∃ d ∈ s.presentDies, reportHolder (s.lane o d) = s.active.val ∧ reportAge (s.lane o d) < 200) →
        ∀ u, u = (s.modHub o fun x => { x with tdet := none, hstate := .detached }).raise o .stringFault s.clk.now false [] →
        exec .takeoverClaimTimeout s = .next (if s.serving then u.stopMirror else u)) ∧
      (s.clk.elapsed < t0 + 200 * us → exec .takeoverClaimTimeout s = .next s) ∧
      ((∀ d ∈ s.presentDies, reportHolder (s.lane o d) = s.active.val → 200 ≤ reportAge (s.lane o d)) →
        exec .takeoverClaimTimeout s = .next s)) ∧
    ((s.hub o).tdet = none → exec .takeoverClaimTimeout s = .next s) ∧
    (s.serving = true → exec .activeHubStop s =
      .next ((s.modHub s.active fun x => { x with up := false, hstate := if s.variant.dual then .failed else .active }).stopPorts
        s.active)) ∧
    (s.serving = false → exec .activeHubStop s = .next s)

/-- Mirroring (R274, R279, R282, R292, R295, R298, R361): the standby buffers the oldest unit on the String, applies it when its commit
frame arrives, and what waited for the unit goes ahead when ACK covers it; a SYNCING standby whose lanes are trained enters READY with
both stores reconciled and the headers of the active hub's pages (R398, R406), and where the active hub's boot counter changes with that
no session survives (R361; how they end is the model's choice: log 51); a String whose third training fails detaches the standby and stops
mirroring; one that trains again puts it back in SYNCING, by a row whose report is what both ends hold (log 20: the model's reading). -/
def Obligations.Mirroring : Prop :=
  ∀ (s : State) (o : HubId), o = other s.active →
    (s.applying = false ∨ s.mirror.wire = [] ∨ s.strung = false ∨ s.mirror.rx ≠ none ∨ (s.strFlow s.active).canSend = false →
      exec .mirrorFrameReceive s = .next s) ∧
    (∀ u rest, s.applying = true → s.mirror.wire = u :: rest → s.strung = true → s.mirror.rx = none → (s.strFlow s.active).canSend = true →
      ∀ p, p = Config.framePayload [3, u.idx] →
      ((s.strFlow s.active).inSeq = false → exec .mirrorFrameReceive s = .next (s.strayStr s.active .mirror p)) ∧
      ((s.strFlow s.active).inSeq = true → ∀ t, t = s.passStr s.active .mirror p →
        exec .mirrorFrameReceive s = .next { t with mirror := { t.mirror with rx := some u } })) ∧
    (s.mirror.rx = none ∨ s.strung = false ∨ (s.strFlow s.active).canSend = false → exec .mirrorCommitReceive s = .next s) ∧
    (∀ u, s.mirror.rx = some u → s.strung = true → (s.strFlow s.active).canSend = true → ∀ p, p = Config.framePayload [4, u.idx] →
      ((s.strFlow s.active).inSeq = false → exec .mirrorCommitReceive s = .next (s.strayStr s.active .mirrorCommit p)) ∧
      ((s.strFlow s.active).inSeq = true → ∀ t, t = (s.passStr s.active .mirrorCommit p).applyUnit u →
        t.copy = { u.core with ledger := { u.core.ledger with
          clipCnt := t.copy.ledger.clipCnt, conflictCnt := t.copy.ledger.conflictCnt } } ∧
        (u.hdr = [] → t.copy.ledger.clipCnt = s.copy.ledger.clipCnt ∧ t.copy.ledger.conflictCnt = s.copy.ledger.conflictCnt) ∧
        t.mirror.applied = u.idx ∧
        exec .mirrorCommitReceive s = .next { t with mirror := { t.mirror with rx := none, wire := t.mirror.wire.tail } })) ∧
    (s.strung = false ∨ s.mirror.applied ≤ s.mirror.acked → exec .mirrorCommitAck s = .next s) ∧
    (s.strung = true → s.mirror.acked < s.mirror.applied → ∀ t,
      t = ({ s with mirror := { s.mirror with acked := s.mirror.applied } } : State).releaseTo s.mirror.applied →
      exec .mirrorCommitAck s = .next (State.commit { s with mirror := { s.mirror with held := t.mirror.held } } t)) ∧
    (∀ k, s.releaseTo k = ((s.mirror.held.filter fun p => decide (p.1 ≤ k)).map (·.2)).foldl State.release
      { s with mirror := { s.mirror with held := s.mirror.held.filter fun p => !decide (p.1 ≤ k) } }) ∧
    (s.strung = false ∨ (s.hub o).hstate ≠ .syncing → exec .mirrorReady s = .next s) ∧
    (s.strung = true → (s.hub o).hstate = .syncing →
      (∀ d ∈ s.presentDies, (s.lane o d).st = .trained ∨ (s.die d).pwr ≠ .run) → ∃ t,
      exec .mirrorReady s = .next t ∧ (t.hub o).hstate = .ready ∧
      t.copy = { t.core with ledger := { t.core.ledger with
        clipCnt := t.copy.ledger.clipCnt, conflictCnt := t.copy.ledger.conflictCnt } } ∧ t.mirror.applied = t.mirror.committed ∧ t.mirror.acked = t.mirror.committed ∧
      (t.hub 0).nv.boot = max (s.hub 0).nv.boot (s.hub 1).nv.boot ∧ (t.hub 1).nv.boot = (t.hub 0).nv.boot ∧
      (s.act.nv.boot ≠ max (s.hub 0).nv.boot (s.hub 1).nv.boot → ∀ i, t.core.session i = none) ∧
      ∀ r : Fin 12, (t.hdr (.hub o r)).locked = (t.hdr (.hub s.active r)).locked ∧
        (t.hdr (.hub o r)).enable = (t.hdr (.hub s.active r)).enable ∧
        (t.hdr (.hub o r)).frozen.isSome = (t.hdr (.hub s.active r)).frozen.isSome) ∧
    (s.variant.dual = false ∨ s.mirror.str.st ≠ .training → exec .stringFault s = .next s) ∧
    (s.variant.dual = true → s.mirror.str.st = .training → 3 ≤ s.mirror.str.failRun →
      exec .stringFault s = .next (s.modLink .string fun l => { l with st := .failed, failAt := s.clk.elapsed })) ∧
    (s.variant.dual = true → s.mirror.str.st = .training → s.mirror.str.failRun < 3 → ∀ t,
      t = ({ s with mirror := { s.mirror with str := { s.mirror.str with
        st := .failed, failRun := 3, failAt := s.clk.elapsed } } } : State).modHub o
        (fun x => if x.up && (x.hstate == .ready || x.hstate == .syncing) then { x with hstate := .detached } else x) →
      (s.serving = true → exec .stringFault s =
        .next (State.commit s (t.stopMirror.raise s.active .stringFault s.clk.now false []))) ∧
      (s.serving = false → exec .stringFault s = .next (State.commit s t))) ∧
    (∀ v a b, s.mirror.str.st = .trained ∨ s.variant.dual = false ∨ (s.hub 0).up = false ∨ (s.hub 1).up = false ∨ v ≠ 2 ∨
        a ≠ s.mirror.str.down.places ∨ b ≠ s.mirror.str.up.places → exec (.trainingComplete .string v a b) s = .next s) ∧
    (s.mirror.str.st ≠ .trained → s.variant.dual = true → (s.hub 0).up = true → (s.hub 1).up = true →
      s.power.st ≠ .deepSleep → s.power.st ≠ .off → exec (.trainingComplete .string 2 s.mirror.str.down.places s.mirror.str.up.places) s =
        .next (({ s with mirror := { s.mirror with str := s.mirror.str.trainedAt 2 } } : State).modHub o
          fun x => if x.hstate = .detached then { x with hstate := .syncing } else x))

/-- Roles, restarts and faults of hubs (R14, R279, R291, R296 to R299, R361): a Role lease frame grants the role for 200 µs
to its receiver alone, or notes it free; a role expires; a hub that stopped, or a DETACHED standby that no die's
lease names, restarts as at a power-up, with its boot count one higher, its ports down and the String in training; what it keeps is the
model's reading (log 44): the copies that are never skipped, those of staged events that are always copied among them (R303), still wait
for its black box. The hub restarting enters SYNCING beside a READY or ACTIVE hub, and such a peer that had not taken over does so then
(log 44), else it becomes ACTIVE (R297); a stopped hub's state and ports are the model's (log 66). A self-check
failure is a device fault of its hub, acted on at once; an active hub with nothing under way may go idle (R324; what that is: log 47). -/
def Obligations.HubRolesAndRestarts : Prop :=
  (∀ (s : State) (h : HubId),
    (∀ r g, s.strung = false ∨ (s.strFlow (other h)).canSend = false ∨ (other h = s.active ∧ s.mirror.wire ≠ []) →
      exec (.roleLeaseReceive h r g) s = .next s) ∧
    (∀ r g p, s.strung = true → (s.strFlow (other h)).canSend = true → other h ≠ s.active ∨ s.mirror.wire = [] →
      p = Config.framePayload [5, h.val, putBit (r == .keyRole) 0, putBit g 0] →
      ((s.strFlow (other h)).inSeq = false → exec (.roleLeaseReceive h r g) s = .next (s.strayStr (other h) .roleLease p)) ∧
      ((s.strFlow (other h)).inSeq = true → ∀ t, t = s.passStr (other h) .roleLease p →
        (r = .nvLock → g = true → exec (.roleLeaseReceive h r g) s = .next ((t.modHub h fun x =>
          { x with nvLock := some (s.clk.elapsed + 200 * us) }).modHub (other h) fun x => { x with nvLock := none })) ∧
        (r = .keyRole → g = true → exec (.roleLeaseReceive h r g) s = .next ((t.modHub h fun x =>
          { x with keyRole := some (s.clk.elapsed + 200 * us) }).modHub (other h) fun x => { x with keyRole := none })) ∧
        (r = .nvLock → g = false → exec (.roleLeaseReceive h r g) s = .next (t.modHub h fun x => { x with nvLock := none })) ∧
        (r = .keyRole → g = false → exec (.roleLeaseReceive h r g) s = .next (t.modHub h fun x => { x with keyRole := none })))) ∧
    (∀ t, (s.hub h).nvLock = some t →
      (t ≤ s.clk.elapsed → exec (.roleLeaseExpiry h .nvLock) s = .next (s.modHub h fun x => { x with nvLock := none })) ∧
      (s.clk.elapsed < t → exec (.roleLeaseExpiry h .nvLock) s = .next s)) ∧
    (∀ t, (s.hub h).keyRole = some t →
      (t ≤ s.clk.elapsed → exec (.roleLeaseExpiry h .keyRole) s = .next (s.modHub h fun x => { x with keyRole := none })) ∧
      (s.clk.elapsed < t → exec (.roleLeaseExpiry h .keyRole) s = .next s)) ∧
    ((s.hub h).nvLock = none → exec (.roleLeaseExpiry h .nvLock) s = .next s) ∧
    ((s.hub h).keyRole = none → exec (.roleLeaseExpiry h .keyRole) s = .next s)) ∧
  (∀ (s : State) (h : HubId),
    (∀ orphan : Prop, orphan ↔ ((s.hub h).up = true ∧ (s.hub h).hstate = .detached ∧ ∀ d ∈ s.presentDies, (s.die d).holder = none) →
    ((s.hub h).present = true → s.power.boot = .complete → ((s.hub h).up = false ∧ (s.hub h).booting = false) ∨ orphan →
      exec (.hubRestart h) s = .next (s.restartHub h) ∧
      ((s.restartHub h).hub h).nv.boot = ((s.hub h).nv.boot + 1) % 2 ^ 32 ∧ ((s.restartHub h).hub h).up = false ∧
      ((s.restartHub h).hub h).booting = true ∧
      ((s.restartHub h).hub h).hstate = (if s.variant.dual then .failed else .active) ∧
      ((s.restartHub h).hub h).log.bb = (s.hub h).log.bb ∧
      ((s.hub h).log.staged = [] → ((s.restartHub h).hub h).log.seq = (s.hub h).log.seq) ∧
      (∀ r ∈ (s.hub h).log.bbWait, r.kept = true → r ∈ ((s.restartHub h).hub h).log.bbWait) ∧
      ((s.hub h).log.bbFrozen = false → (s.hub h).log.bbWait.length + (s.hub h).log.staged.length ≤ 64 →
        ∀ r ∈ (s.hub h).log.staged, alwaysCopied.contains r.code = true → ∃ x ∈ ((s.restartHub h).hub h).log.bbWait,
          x.code = r.code ∧ x.time = r.time ∧ x.source = r.source ∧ x.data = r.data) ∧
      (s.restartHub h).mirror.str.st = .training ∧ (s.restartHub h).mirror.str.down.credits = 0 ∧
      (∀ p, s.portOwner p = h → ((s.restartHub h).net.ports[p.val]).link = false) ∧
      (s.restartHub h).clk = s.clk ∧ (s.restartHub h).mirror.wire = [] ∧
      (h ≠ s.active → (s.restartHub h).copy = Core.reset ∧
        (s.mirror.held = [] → (s.restartHub h).core.entries = s.core.entries ∧ (s.restartHub h).dies = s.dies)) ∧
      (h = s.active → (s.restartHub h).dies = s.dies ∧ (s.restartHub h).core.entries = [] ∧ (s.restartHub h).core.records = [] ∧
        (s.restartHub h).core.slots.total = 65536 ∧ (s.restartHub h).sync.st = .unlocked ∧
        (s.restartHub h).sync.epoch = 0 ∧ (s.restartHub h).sync.set = s.sync.set)) ∧
    ((s.hub h).present = false ∨ s.power.boot ≠ .complete ∨ (((s.hub h).up = true ∨ (s.hub h).booting = true) ∧ ¬orphan) →
      exec (.hubRestart h) s = .next s)) ∧
    (∀ p, p = s.hub (other h) →
      ((s.hub h).present = true → (s.hub h).up = false → (s.hub h).booting = true → s.power.boot = .complete →
        (p.present = true → p.up = true → (p.hstate = .active ∨ p.hstate = .ready) → ∀ t,
          t = s.modHub h (fun y => { y with up := true, booting := false, hstate := .syncing }) →
          (h ≠ s.active → exec (.hubRestartComplete h) s = .next (State.commit s (t.restartPorts h).settlePackage)) ∧
          (h = s.active → exec (.hubRestartComplete h) s =
            .next (State.commit s ((t.takeOver (other h)).restartPorts h).settlePackage))) ∧
        (p.present = false ∨ p.up = false ∨ (p.hstate ≠ .active ∧ p.hstate ≠ .ready) → ∀ n c y, n = (s.presentDies.map fun d => (s.die d).missed.length).sum →
          c = (if h = s.active then s.core else s.core.boot (s.hub h).nv) → y = (if h = s.active then s else s.syncAnew) →
          exec (.hubRestartComplete h) s =
          .next (({ y.modHub h (fun z => { z with up := true, booting := false, hstate := .active }) with
            active := h
            clk := (if h = s.active then s.clk else s.clk.swap)
            core := { c with sched := { c.sched with missed := c.sched.missed + n, submitted := c.sched.submitted + n } }
            dies := s.dies.map fun (d : Die) => { d with missed := [] } } : State).restartPorts h).settlePackage)) ∧
      ((s.hub h).present = false ∨ (s.hub h).up = true ∨ (s.hub h).booting = false ∨ s.power.boot ≠ .complete →
        exec (.hubRestartComplete h) s = .next s)) ∧
    ((s.hub h).present = true → (s.hub h).up = true →
      (h ≠ s.active → exec (.hubSelfCheckFail h) s = .next (State.commit s
        ((((s.raiseFault s.active 1 (srcHub h)).modHub h fun x => { x with hstate := .failed, up := false }).stopPorts h).stopMirror))) ∧
      (h = s.active → ∀ u, u = s.raiseFault s.active 1 (srcHub h) →
        (u.standbyReady = false ∨ s.core.redun.faultSwitch = false → exec (.hubSelfCheckFail h) s = .next (State.commit s
          { u with core := { u.core with sched := { u.core.sched with admits := false } } })) ∧
        (u.standbyReady = true → s.core.redun.faultSwitch = true →
          exec (.hubSelfCheckFail h) s = .next (State.commit s (u.startSwitchover 2 none))))) ∧
    ((s.hub h).present = false ∨ (s.hub h).up = false → exec (.hubSelfCheckFail h) s = .next s) ∧
    (s.quiet h = true ↔ h ≠ s.active ∨ ((s.coreOf h).cmdq = [] ∧ (s.coreOf h).cancels = [] ∧ (s.coreOf h).audit = [] ∧
      s.power.req = none ∧ s.switching = false ∧ ∀ ch ∈ s.allChans, (s.chan ch).cal.point = none)) ∧
    ((s.hub h).up = true → s.awake = true → s.quiet h = true →
      exec (.idleEntry h) s = .next (s.modHub h fun x => { x with idle := true })) ∧
    ((s.hub h).up = false ∨ s.awake = false ∨ s.quiet h = false → exec (.idleEntry h) s = .next s) ∧
    exec (.idleExit h) s = .next (s.modHub h fun x => { x with idle := false }))

/-- Pool checks and audits (R27, R28, R31, R32, R389): while the identities are held to, each 10 µs a die that is on checks its
pools, with the first of them each hub that runs its own, and a failing mask is a pool mismatch; a snapshot that is due is taken with
the masks of the hubs and of every present die, and EV_POOL_AUDIT tells its session. A mask of zero changes nothing; one that the
continuous check finds enters CHECK (R412), one of an audit does not. That the hubs' pools are checked with the first die that is on is
the model's reading (log 46). -/
def Obligations.PoolChecks : Prop :=
  (∀ (s : State) (hs : List HubId) (ds : List DieId) (t : Tick), (s.poolMismatch hs ds t false).core.check = s.core.check ∧
    ((∃ h ∈ hs, s.hubFailsOf h ≠ 0) ∨ (∃ d ∈ ds, s.dieFails d ≠ 0) →
      (s.poolMismatch hs ds t true).core.check = s.core.check ||| BitVec.ofNat 32 (s.failMask hs ds))) ∧
  (∀ (s : State) (hs : List HubId) (ds : List DieId) (t : Tick), (∀ h ∈ hs, s.hubFailsOf h = 0) → (∀ d ∈ ds, s.dieFails d = 0) →
    ∀ c, s.poolMismatch hs ds t c = s) ∧
  (∀ (s : State) (d : DieId),
    (s.poolsHeld = true → s.clk.now % iv = 0 → ∀ hs ds, (d = s.checkDie ∧ hs = s.runningHubs ∨ d ≠ s.checkDie ∧ hs = []) →
      ((s.die d).on = true ∧ ds = [d] ∨ (s.die d).on = false ∧ ds = []) →
      exec (.poolCheck d) s = .next (State.commit s (s.poolMismatch hs ds s.clk.now true))) ∧
    (s.poolsHeld = false ∨ s.clk.now % iv ≠ 0 → exec (.poolCheck d) s = .next s) ∧
    ((s.dieFails d = 0) ↔ (∀ h : HubId, (s.hub h).present = true → (s.lane h d).up.ok ((s.lane h d).st == .trained) = true) ∧
      (s.die d).ntqPool.total = 256 ∧ (s.die d).led.ok = true ∧ (s.die d).led.pool.total = 4000) ∧
    (∀ h, (s.hub h).present = true → (s.hub h).up = true → (s.hubFailsOf h = 0 ↔
      (h = s.active → s.core.slots.total = 65536 ∧ s.core.sched.balanced = true ∧ s.core.store.total = 1048576 ∧
        s.core.ledger.pool.total = 25000) ∧
      (s.hub h).log.raised = (s.hub h).log.logged + (s.hub h).log.counted ∧
      (∀ e ∈ s.presentDies, (s.lane h e).down.ok ((s.lane h e).st == .trained) = true) ∧
      (s.variant.dual = true → (s.strFlow h).ok (s.mirror.str.st == .trained) = true)))) ∧
  ∀ (s : State),
    (∀ r t rest, s.core.audit = (r, t) :: rest → s.serving = true → t ≤ s.clk.now →
      ∀ m, m = s.failMask s.runningHubs s.presentDies →
      exec .poolAuditSnapshot s = .next (State.commit s ((({ s with core := { s.core with
          audit := rest
          auditAt := t
          auditMask := BitVec.ofNat 32 m
          auditCnt := satInc s.core.auditCnt } } : State).raiseSrc .poolAudit s.clk.now (srcHub s.active) (m != 0)
        (leBytes 4 m ++ leBytes 8 t) (some r.who)).poolMismatch s.runningHubs s.presentDies t false))) ∧
    (∀ r t rest, s.core.audit = (r, t) :: rest → s.clk.now < t → exec .poolAuditSnapshot s = .next s) ∧
    (s.core.audit = [] ∨ s.serving = false → exec .poolAuditSnapshot s = .next s)

/-- PTP messages and timeouts (R38 to R42, R44, R45, R435): a Sync with an accepted interval restarts the receipt timeout, on the
profile's transport keeps the offset, and on a serving SLAVE port disciplines time; an Announce may choose the port's profile and, if it
is of its domain, is held and decided on; three intervals without a Sync, or the Announce timeout, drop it; a missing transmit timestamp
makes the port FAULTY, which restarts after 1 s. What an offset of the SLAVE port does (R44, R45): in ACQUIRING, 16 offsets of at most 60
ticks in a row lock with EV_TIME_LOCK and set SET; an offset up to STEP_THR slews, a larger one decides a step at ts; in LOCKED the servo
sets the frequency within ±200 ppm, and 4 offsets over 3,000 ticks in a row lose the lock; between a step's decision and ts an offset is
only kept. HOLDOVER ends after HOLD_MAX in UNLOCKED, which clears ACCEPT (R44, R47); a step decided for ts applies once device time has
reached ts, and not before (R45); a filtered SYNC_IN edge is stamped, counted and resets the decimators at the next multiple of 125 ticks
after 1 µs, one within 1 µs of the last accepted is only counted as ignored, and a shorter pulse is no edge (R53, R170). The slew by the
negative offset and the servo's free value are the model's choice (log 13), the receipt timeouts and the profile that an Announce chooses
its reading (log 15). -/
def Obligations.TimeTransfer : Prop :=
  (∀ (s : State) (p : PortId) (x : PtpPort), x = s.sync.ports[p.val] →
      (∀ m sdo dom off k (w : SyncMsg), w = ⟨sdo, dom, off, k⟩ →
        (x.hears sdo dom = true ↔ (x.act = 1 ∧ sdo = 1#4 ∧ dom = 0#8) ∨ (x.act = 2 ∧ sdo = 0#4 ∧ dom.toNat = x.dom)) ∧
        (s.ptpLive p = false ∨ s.mediaOk p x.act m = false ∨ x.hears sdo dom = false ∨ intervalOk x.act k = false →
          exec (.syncReceive p m w) s = .next s) ∧
        (s.ptpLive p = true → s.mediaOk p x.act m = true → x.hears sdo dom = true → intervalOk x.act k = true → ∀ t,
          t = s.modPtp p (fun y => { y with interval := intervalTicks k, syncFrom := s.clk.elapsed, offset := off }) →
          (x.st = .slave → s.serving = true → exec (.syncReceive p m w) s = .next (State.commit s (t.measure off))) ∧
          (x.st ≠ .slave ∨ s.serving = false → exec (.syncReceive p m w) s = .next t))) ∧
      (∀ a y, y = x.learn a →
        (s.ptpLive p = false ∨ s.serving = false ∨ s.mediaOk p y.act a.media = false → exec (.announceReceive p a) s = .next s) ∧
        (s.ptpLive p = true → s.serving = true → s.mediaOk p y.act a.media = true → ∀ t, t = State.noteMix s (s.modPtp p fun _ => y) →
          (y.hears a.majorSdoId a.domain = true → exec (.announceReceive p a) s = .next (State.commit s
            (t.modPtp p fun z => { z with ann := some a, annFrom := s.clk.elapsed, annInterval := intervalTicks a.logInterval }).bmca)) ∧
          (y.hears a.majorSdoId a.domain = false → exec (.announceReceive p a) s = .next (State.commit s t)))) ∧
      (x.act ≠ 0 → ∀ a, x.learn a = x) ∧ (s.mediaOk p 1 .udp4 = false ∧ s.mediaOk p 1 .udp6 = false) ∧
      (x.st = .slave → x.syncFrom + 3 * x.interval ≤ s.clk.elapsed → s.serving = true →
        exec (.syncReceiptTimeout p) s = .next (State.commit s (s.modPtp p fun y => { y with ann := none }).bmca)) ∧
      (x.st ≠ .slave ∨ s.clk.elapsed < x.syncFrom + 3 * x.interval ∨ s.serving = false →
        exec (.syncReceiptTimeout p) s = .next s) ∧
      (x.ann ≠ none ∨ x.st = .listening → x.annFrom + 3 * x.annInterval ≤ s.clk.elapsed → s.serving = true →
        exec (.announceReceiptTimeout p) s = .next (State.commit s (s.modPtp p fun y => { y with ann := none }).bmca)) ∧
      ((x.ann = none ∧ x.st ≠ .listening) ∨ s.clk.elapsed < x.annFrom + 3 * x.annInterval ∨ s.serving = false →
        exec (.announceReceiptTimeout p) s = .next s) ∧
      (s.ptpLive p = true → exec (.txTimestampMissing p) s = .next (State.commit s
        (s.modPtp p fun y => { y with st := .faulty, faultyAt := s.clk.elapsed, ann := none }).bmca)) ∧
      (s.ptpLive p = false → exec (.txTimestampMissing p) s = .next s) ∧
      (x.st = .faulty → x.faultyAt + sec ≤ s.clk.elapsed → exec (.faultyEnd p) s = .next (State.commit s (s.ptpRestart p false))) ∧
      (x.st ≠ .faulty ∨ s.clk.elapsed < x.faultyAt + sec → exec (.faultyEnd p) s = .next s)) ∧
  (∀ (s : State) (o : Int) (t : State), t = { s with sync := { s.sync with offset := o } } →
      (s.sync.step ≠ none → s.measure o = t) ∧
      (s.sync.step = none → s.sync.st = .acquiring → o.natAbs ≤ 60 → 15 ≤ s.sync.good →
        (s.measure o).sync.st = .locked ∧ (s.measure o).sync.set = true ∧ (s.measure o).sync.slew = 0 ∧
        (s.measure o).sync.since = s.clk.elapsed ∧ (s.measure o).sync.good = 0 ∧ (s.measure o).dies = s.dies) ∧
      (s.sync.step = none → s.sync.st = .acquiring → (60 < o.natAbs ∨ s.sync.good < 15) →
        (o.natAbs ≤ s.core.time.stepThr → s.measure o = { s with sync := { s.sync with
          offset := o, slew := -o, good := if o.natAbs ≤ 60 then s.sync.good + 1 else 0 } }) ∧
        (s.core.time.stepThr < o.natAbs → s.measure o = { s with sync := { s.sync with
          offset := o, step := some (tenAfterTwenty s.clk.now, -o), slew := 0
          good := if o.natAbs ≤ 60 then s.sync.good + 1 else 0 } })) ∧
      (s.sync.step = none → s.sync.st = .locked → (o.natAbs ≤ 3000 ∨ s.sync.bad < 3) →
        ∀ v, v = clampInt (-200000) 200000 (Config.servo s.free o) → s.measure o = { s with
          free := s.free + 1
          sync := { s.sync with
            offset := o
            bad := if 3000 < o.natAbs then s.sync.bad + 1 else 0
            freq := v
            freqs := (s.clk.elapsed, v) :: s.sync.freqs } }) ∧
      (s.sync.step = none → s.sync.st = .locked → 3000 < o.natAbs → 3 ≤ s.sync.bad →
        s.measure o = (t.enterSync .acquiring (some .timeLost)).correct o) ∧
      (s.sync.step = none → s.sync.st = .unlocked ∨ s.sync.st = .holdover → s.measure o = t)) ∧
  (∀ (s : State),
      (s.sync.st = .holdover → s.sync.since + s.core.time.holdMax * sec ≤ s.clk.elapsed → s.ticking = true → ∃ t,
        exec .holdoverLimit s = .next t ∧ t.sync.st = .unlocked ∧ t.core.time.accept = false ∧ t.dies = s.dies ∧
        t.sync.since = s.clk.elapsed ∧ t.core.entries = s.core.entries) ∧
      (s.sync.st ≠ .holdover ∨ s.clk.elapsed < s.sync.since + s.core.time.holdMax * sec ∨ s.ticking = false →
        exec .holdoverLimit s = .next s) ∧
      (∀ ts dl, s.sync.step = some (ts, dl) →
        (ts ≤ s.clk.now → exec .timeStep s = .next (State.commit s (s.stepTime ts dl))) ∧
        (s.clk.now < ts → exec .timeStep s = .next s)) ∧
      (s.sync.step = none → exec .timeStep s = .next s) ∧
      (∀ lo hi,
        (s.serving = false ∨ lo < 60 ∨ hi < 60 → exec (.syncInEdge lo hi) s = .next s) ∧
        (s.serving = true → 60 ≤ lo → 60 ≤ hi →
          (∀ l, s.sync.syncLast = some l → s.clk.elapsed < l + us → exec (.syncInEdge lo hi) s =
            .next { s with sync := { s.sync with syncIgn := satTo 65535 (s.sync.syncIgn + 1) } }) ∧
          ((∀ l, s.sync.syncLast = some l → l + us ≤ s.clk.elapsed) → exec (.syncInEdge lo hi) s =
            .next (State.commit s ((({ s with sync := { s.sync with
                syncIn := s.clk.now
                syncAcc := satTo 65535 (s.sync.syncAcc + 1)
                syncLast := some s.clk.elapsed } } : State).raiseNow .syncIn []).addReset
              (nextMultiple 125 (s.clk.now + us)) 0))))))

/-- Link loss and the end of a session (R353, R358, R360, R364): a session that controls dies and is cut off, or silent for 3 KA, loses
its link, and every channel in an output mode on its dies gets HOLD_REQ; after RETRY its streams close, its HOLD_REQ goes and
EV_SESSION_LOST tells; the old key of a rotation is deleted when its grace ends, with the key-store write role, which no hub takes in a
power-down (R291, R343), and EV_KEY_ROTATED tells who rotated. Links, gates and redundancy (R350 to R353, R365, R368, R373, R435): a link
that goes down raises its event, stops its port's PTP and its charge, and cuts sessions off; one that comes up at an allowed speed takes
the port's addresses; a new speed suspends or resumes streams; a gate cycle starts at its multiples; supervision frames leave every 2 s by
both ports, duplicate entries live 400 ms; a Port relay frame carries 8 octets of the oldest received frame, which takes effect once all
of it has come, or of the oldest one that is to leave by the port. What a relayed frame's octets are and a supervision frame's length is
the model's choice (log 49), as is that the old key goes only with the role (log 54). -/
def Obligations.LinksAndSessions : Prop :=
  ((∀ (s : State) (i : Fin 8) (x : Session), s.core.session i = some x → s.serving = true →
      (s.lossDue x = true ↔ x.control ≠ 0 ∧ x.lost = false ∧ (s.cutOff x.port = true ∨ x.lastRx + 3 * x.ka * ms ≤ s.clk.elapsed)) ∧
      (s.lossDue x = true → ∃ t, exec (.linkLossDeclare i) s = .next t ∧ t.core.session i = some { x with lost := true } ∧
        (∀ j, j ≠ i → t.core.session j = s.core.session j) ∧ t.dies = s.dies ∧
        ∀ (d : DieId) (c : ChanId), ((t.core.levels[d.val])[c.val]).hold =
          (((s.core.levels[d.val])[c.val]).hold ||
            (Nat.testBit x.control d.val && (s.die d).present && isOutMode ((s.die d).chan c).mode))) ∧
      (s.lossDue x = false → exec (.linkLossDeclare i) s = .next (State.commit s s)) ∧
      (s.clk.elapsed < x.lastRx + x.retry * sec → exec (.sessionTimeout i) s = .next s) ∧
      (x.lastRx + x.retry * sec ≤ s.clk.elapsed → ∃ t, exec (.sessionTimeout i) s = .next t ∧ t.core.session i = none ∧
        (∀ j, j ≠ i → t.core.session j = s.core.session j) ∧ (∀ y ∈ t.core.streams, y.who = .udp i x.epoch → y.isOpen = false) ∧
        (∀ (d : DieId) (c : ChanId), Nat.testBit x.control d.val = true → ((t.core.levels[d.val])[c.val]).hold = false) ∧
        t.core.entries = s.core.entries ∧ t.core.records = s.core.records)) ∧
    (∀ (s : State) (i : Fin 8), s.serving = false → exec (.linkLossDeclare i) s = .next s ∧ exec (.sessionTimeout i) s = .next s) ∧
    (∀ (s : State) (i : Fin 8), s.core.session i = none → exec (.sessionTimeout i) s = .next s) ∧
    ∀ (s : State),
      (s.power.step ≠ 0 → ∀ b, s.takeRole b = none) ∧
      (s.power.step = 0 →
        (s.variant.dual = false ∨ s.mirror.str.st ≠ .trained → ∀ b, s.takeRole b = some s) ∧
        (s.variant.dual = true → s.mirror.str.st = .trained →
          ((∀ t, (s.hub (other s.active)).keyRole = some t → t ≤ s.clk.elapsed) → s.takeRole true =
            some (s.modHub s.active fun y => { y with keyRole := some (s.clk.elapsed + 200 * us) })) ∧
          (∀ t, (s.hub (other s.active)).keyRole = some t → s.clk.elapsed < t → s.takeRole true = none))) ∧
      (∀ o n till w, s.core.grace = some (o, n, till, w) → s.serving = true → till ≤ s.clk.elapsed →
        (s.takeRole true = none → exec .keyGraceExpiry s = .next s) ∧
        (∀ r, s.takeRole true = some r → ∀ t, t = (({ r with core := { r.core with
            keys := s.core.keys.filter (·.1 != o)
            grace := none } } : State).putStore (·.storeKeys (s.core.keys.filter (·.1 != o)))) →
        exec .keyGraceExpiry s = .next (State.commit s (t.raiseSrc .keyRotated s.clk.now (srcHub s.active) false
          (leBytes 1 o ++ leBytes 1 n) (some w))))) ∧
      (s.core.grace = none ∨ s.serving = false → exec .keyGraceExpiry s = .next s) ∧
      (∀ o n till w, s.core.grace = some (o, n, till, w) → s.clk.elapsed < till → exec .keyGraceExpiry s = .next s)) ∧
  (∀ (s : State) (p : PortId) (x : NetPort), x = s.net.ports[p.val] →
      (x.link = true → (s.hub (s.portOwner p)).up = true → ∀ t,
        t = ((((s.modPort p fun y => { y with link := false }).portEvent p .linkDown x.speed).ptpRestart p true).settlePackage) →
        (s.serving = true → exec (.linkDown p) s = .next (State.commit s t.declareAll)) ∧
        (s.serving = false → exec (.linkDown p) s = .next (State.commit s t))) ∧
      (x.link = false ∨ (s.hub (s.portOwner p)).up = false → exec (.linkDown p) s = .next s) ∧
      (∀ v, (s.portRuns p = true → x.link = false → (s.core.net.ports[p.val]).speedMax ≤ Speed.toNat v →
          exec (.linkUp p v) s = .next (State.commit s
            (((((s.modPort p fun y => { y with link := true, speed := v, addr := s.core.net.addrs }).portEvent p .linkUp v).ptpRestart
              p true).settlePackage).settleStreams p))) ∧
        (s.portRuns p = false ∨ x.link = true ∨ Speed.toNat v < (s.core.net.ports[p.val]).speedMax →
          exec (.linkUp p v) s = .next s) ∧
        (s.portRuns p = true → x.link = true → (s.core.net.ports[p.val]).speedMax ≤ Speed.toNat v →
          exec (.speedRenegotiate p v) s = .next (State.commit s
            (((s.modPort p fun y => { y with speed := v }).settlePackage).settleStreams p))) ∧
        (s.portRuns p = false ∨ x.link = false ∨ Speed.toNat v < (s.core.net.ports[p.val]).speedMax →
          exec (.speedRenegotiate p v) s = .next s)) ∧
      ((s.hub (s.portOwner p)).up = true → s.clk.now % ((s.core.net.ports[p.val]).cycle * us) = 0 →
        exec (.gateCycleStart p) s = .next (s.modPort p fun y => { y with cycleAt := s.clk.now })) ∧
      ((s.hub (s.portOwner p)).up = false ∨ s.clk.now % ((s.core.net.ports[p.val]).cycle * us) ≠ 0 →
        exec (.gateCycleStart p) s = .next s) ∧
      (s.serving = true → s.net.mode ≠ 0 → s.net.superAt + 2 * sec ≤ s.clk.elapsed → exec .supervisionFrameSend s =
        .next { s with net := { s.net with
          superAt := s.clk.elapsed
          superCnt := s.net.superCnt + 1
          egress := vmap s.net.egress fun q l =>
            l ++ [(if s.portOwner q = s.active then 0 else 84, .supervision (s.net.superCnt + 1))] } }) ∧
      (s.serving = false ∨ s.net.mode = 0 ∨ s.clk.elapsed < s.net.superAt + 2 * sec → exec .supervisionFrameSend s = .next s) ∧
      exec .duplicateEntryExpiry s = .next { s with net := { s.net with
        dup := s.net.dup.filter fun e => decide (s.clk.elapsed < e.2 + 400 * ms) } } ∧
      (∀ (b : Bool) (f : List Byte),
        (s.variant.dual = false ∨ s.portOwner p = s.active ∨ (s.hub (s.portOwner p)).up = false ∨ s.act.up = false ∨
            s.relayWaits p b = false → exec (.portRelayReceive p b f) s = .next s) ∧
        (s.variant.dual = true → s.portOwner p ≠ s.active → (s.hub (s.portOwner p)).up = true → s.act.up = true →
          ∀ w, w = (BitVec.ofNat 64 (leAt f 0 8) : Dword) →
            (s.relayWaits p true = true →
              (s.strung = true → s.mirror.wire = [] → (s.strFlow s.active).canSend = true →
                ((s.strFlow s.active).inSeq = true → ∀ t, t = s.passStr s.active .portRelay w →
                  exec (.portRelayReceive p true f) s = .next (State.commit s
                    { t with net := { t.net with egress := vmod t.net.egress p carryOut } })) ∧
                ((s.strFlow s.active).inSeq = false → exec (.portRelayReceive p true f) s =
                  .next (State.commit s (s.strayStr s.active .portRelay w)))) ∧
              (s.strung = false ∨ s.mirror.wire ≠ [] ∨ (s.strFlow s.active).canSend = false →
                exec (.portRelayReceive p true f) s = .next (State.commit s s))) ∧
            ∀ q g n rest, s.net.relay = (q, g, n) :: rest →
              (s.strung = false ∨ (s.strFlow (s.portOwner p)).canSend = false →
                exec (.portRelayReceive p false f) s = .next (State.commit s s)) ∧
              (s.strung = true → (s.strFlow (s.portOwner p)).canSend = true →
                ((s.strFlow (s.portOwner p)).inSeq = false → exec (.portRelayReceive p false f) s =
                  .next (State.commit s (s.strayStr (s.portOwner p) .portRelay w))) ∧
                ((s.strFlow (s.portOwner p)).inSeq = true → ∀ t, t = s.passStr (s.portOwner p) .portRelay w →
                  (8 < n → exec (.portRelayReceive p false f) s = .next (State.commit s
                    { t with net := { t.net with relay := (q, g, n - 8) :: rest } })) ∧
                  (n ≤ 8 → exec (.portRelayReceive p false f) s = .next (State.commit s
                    (({ t with net := { t.net with relay := rest } } : State).reached q g))))))) ∧
      ∀ (n : Nat) (x : NetFrame) (l : List (Nat × NetFrame)),
        (n = 0 → carryOut ((n, x) :: l) = (n, x) :: carryOut l) ∧ (n ≠ 0 → carryOut ((n, x) :: l) = (n - min n 8, x) :: l))

/-- What leaves to sessions (R80, R353, R364, R366, R367, R386): an open, running stream's next block leaves under the newest key with the
session's next SEQ, through an open gate and no faster than the stream's B, and counts as delivered; up to 44 of a session's waiting
events leave in one datagram, none to a session that is cut off. The writer of the event log (R300 to R303, R386): the oldest staged
record of a hub that runs goes to the ring with the next SEQ, waits for the black box where its class asks for it, and with an empty queue
the summaries follow; the record reaches the sessions that want it, the standby's while the String passes frames (log 49: the model's
choice). A copy goes to the black box 100 µs after the last at the earliest, never a frozen one. -/
def Obligations.BlocksAndEvents : Prop :=
  ((∀ (s : State) (n : Fin 64) (x : Stream) (i : Fin 8) (y : Session) (id : Nat) (b : Block) (m : OutMsg),
      (s.core.streams.find? fun z => z.n == n.val && z.isOpen && !z.suspended) = some x → x.who = .udp i y.epoch →
      s.core.session i = some y → s.core.nextBlock x = some (id, b) →
      m = s.message x.who b.kind y.txSeq s.core.newestKey false b.body →
      (s.serving = true → s.streamLeaves x (b.wire (s.net.mode == 1)) = true → exec (.streamBlockSend n) s = .next (State.commit s
        (({ s with core := ((s.core.delivered id b.sent b.last).paced x.n (b.wire (s.net.mode == 1)) s.clk.elapsed).modSess i fun z =>
            { z with txSeq := (z.txSeq + 1) % 2 ^ 32 } } : State).emit
          { m with dst := (m.dst.1, if x.udpPort = 0 then m.dst.2 else x.udpPort), port := x.port }))) ∧
      (s.serving = false ∨ s.streamLeaves x (b.wire (s.net.mode == 1)) = false → exec (.streamBlockSend n) s = .next s)) ∧
    (∀ (s : State) (n : Fin 64), (s.core.streams.find? fun z => z.n == n.val && z.isOpen && !z.suspended) = none →
      exec (.streamBlockSend n) s = .next s) ∧
    (∀ (s : State) (n : Fin 64) (x : Stream), (s.core.streams.find? fun z => z.n == n.val && z.isOpen && !z.suspended) = some x →
      (s.core.nextBlock x = none ∨ s.core.sessOf x.who = none) → exec (.streamBlockSend n) s = .next s) ∧
    ∀ (s : State),
      (∀ i y, s.serving = true → s.core.session i = some y → y.evq ≠ [] →
        s.classLeaves 5 y.port (wireOctets ((y.evq.take 44).flatMap LogRec.bytes).length (s.net.mode == 1)) = true →
        exec (.eventDatagramSend (.udp i y.epoch)) s = .next (State.commit s
          (({ s with core := s.core.modSess i fun z => { z with
              evq := z.evq.drop 44
              txSeq := (z.txSeq + 1) % 2 ^ 32 } } : State).emit
            (s.message (.udp i y.epoch) 3 y.txSeq s.core.newestKey false ((y.evq.take 44).flatMap LogRec.bytes))))) ∧
      (∀ i e, s.serving = false ∨ s.core.sessOf (.udp i e) = none → exec (.eventDatagramSend (.udp i e)) s = .next s) ∧
      (∀ i e, s.core.sessOf (.udp i e) = none ↔ ∀ y, s.core.session i = some y → y.epoch ≠ e) ∧
      (∀ i y, s.core.session i = some y → (y.evq = [] ∨
        s.classLeaves 5 y.port (wireOctets ((y.evq.take 44).flatMap LogRec.bytes).length (s.net.mode == 1)) = false) →
        exec (.eventDatagramSend (.udp i y.epoch)) s = .next s) ∧
      (s.serving = true → s.core.spi.evq ≠ [] → exec (.eventDatagramSend .spi) s = .next (State.commit s
        (({ s with core := { s.core with spi := { s.core.spi with
            evq := s.core.spi.evq.drop 44
            txSeq := (s.core.spi.txSeq + 1) % 2 ^ 32 } } } : State).emit
          (s.message .spi 3 s.core.spi.txSeq 0 false ((s.core.spi.evq.take 44).flatMap LogRec.bytes))))) ∧
      (s.serving = false → exec (.eventDatagramSend .spi) s = .next s)) ∧
  ((∀ (s : State) (h : HubId) (r : LogRec) (rest : List LogRec), (s.hub h).log.staged = r :: rest → (s.hub h).present = true →
      (s.hub h).up = true → ∀ m l w, m = (s.coreOf h).logr.bbMask →
        (l, w) = ({ (s.hub h).log with staged := rest } : Log).write m r →
        w.seq = (s.hub h).log.seq ∧ l.ring = (w :: (s.hub h).log.ring).take 4096 ∧ l.seq = ((s.hub h).log.seq + 1) % 2 ^ 32 ∧
        l.staged = rest ∧
        (rest ≠ [] → l.writeSummaries h m = l) ∧
        (h ≠ s.active → s.strung = false → exec (.logWrite h) s = .next (s.modHub h fun y => { y with log := l.writeSummaries h m })) ∧
        (h = s.active ∨ s.strung = true → exec (.logWrite h) s = .next (State.commit s
          ((s.modHub h fun y => { y with log := l.writeSummaries h m }).modCore (·.deliverEvent w))))) ∧
    (∀ (s : State) (h : HubId), (s.hub h).log.staged = [] ∨ (s.hub h).present = false ∨ (s.hub h).up = false →
      exec (.logWrite h) s = .next s) ∧
    ∀ (s : State) (h : HubId),
      ((s.hub h).present = true → (s.hub h).up = true → (s.hub h).log.bbFrozen = false →
        (∀ t, (s.hub h).log.bbLast = some t → t + 100 * us ≤ s.clk.elapsed) →
        (∀ r rest, (s.hub h).log.bbWait = r :: rest → exec (.blackBoxCopy h) s = .next (s.modHub h fun y => { y with
          log := { y.log with
            bb := (r :: y.log.bb).take 1024
            bbHead := (y.log.bbHead + 1) % 1024
            bbWait := rest
            bbLast := some s.clk.elapsed } })) ∧
        ((s.hub h).log.bbWait = [] → exec (.blackBoxCopy h) s = .next s)) ∧
      ((s.hub h).up = false ∨ (s.hub h).log.bbFrozen = true ∨
        (∃ t, (s.hub h).log.bbLast = some t ∧ s.clk.elapsed < t + 100 * us) → exec (.blackBoxCopy h) s = .next s))

/-- Execution of an entry (R59, R70, R71, R73, R233, R236, R290): a ripe entry that R73 misses is only marked missed, and a queue slot
falls free; another acts by its operation, and its channel's shadow follows; an entry that is not ripe waits, and so does one whose gate
command would go before a step, a configuration, a disable or a cancellation that comes by its TIME, or an output entry of after a
transition before that has ended (R93): this order is the model's choice (log 73), and what is missed beyond R73 its reading (log 26); one
that has not reached its queue at its TIME is missed where the active hub is of a D variant. An output command on one channel (R59, R101,
R235, R236): outside a group the channel takes the value and keeps it as its last output entry; an off-pulse that would last beyond T is
counted in OPT_SKIP, and one that ends before T is not; other channels do not change. Retirement, deferral, cancellation and staleness
(R64, R66, R72, R75, R81, R282, R385): an entry that its die finished and whose results have all arrived retires with its outcome, at once
or with its unit; deferred units are tried again, oldest first, at each interval, but not during a switchover; at tc of a cancel the named
entries at or after tc and those in progress are cancelled and answered; a retired record undelivered at its stale age is dropped and
counted. -/
def Obligations.EntryExecution : Prop :=
  ((∀ (s : State) (id : Nat) (e : Entry), s.queued id = some e →
      ((s.die e.ch.die).ripe e = false ∨ s.waitsForT e = true → exec (.entryExecute id) s = .next s) ∧
      (e.nextAt ≤ (s.die e.ch.die).replica → (∀ tm, (s.chan e.ch).trans = some tm → e.nextAt < tm + 50 * us) → s.waitsForT e = false) ∧
      (∀ tm, (s.chan e.ch).trans = some tm → e.e.isTransOut = true → tm + 50 * us ≤ e.nextAt → s.waitsForT e = true) ∧
      ((s.die e.ch.die).ripe e = true → s.waitsForT e = false → s.missedAt e e.nextAt = true → exec (.entryExecute id) s =
        .next (s.modDie e.ch.die fun d => { d with
          ntq := d.ntq.map fun x => if x.live && x.id == id then { x with phase := .finished .missed } else x
          ntqPool := d.ntqPool.finish (d.ntq.countP fun x => x.live && x.id == id) })) ∧
      ((s.die e.ch.die).ripe e = true → s.waitsForT e = false → s.missedAt e e.nextAt = false → ∀ u, u = s.perform e e.nextAt →
        exec (.entryExecute id) s = .next (State.commit s (u.noteExecuted e
          ((s.die e.ch.die).unit e.ch.c ++ (u.die e.ch.die).unit e.ch.c))))) ∧
    (∀ (s : State) (id : Nat), s.queued id = none →
      (∀ e, s.core.entry id = some e → s.variant.dual = true → s.serving = true → e.unqueued = true →
        e.e.time.toNat ≤ s.clk.now → s.isHeld (.retire id) = false →
        exec (.entryExecute id) s = .next (State.commit s (s.outcome id .missed))) ∧
      (∀ e, s.core.entry id = some e → (s.variant.dual = false ∨ s.clk.now < e.e.time.toNat) →
        exec (.entryExecute id) s = .next s) ∧
      (s.core.entry id = none → exec (.entryExecute id) s = .next s)) ∧
    ∀ (s : State) (e : Entry) (t : Tick) (di : DieId) (c : ChanId), di = e.ch.die → c = e.ch.c →
      (e.e.op = 1 ∨ e.e.op = 2 → s.perform e t = s.modDie di fun d => d.modEntry e.id fun x => { x with phase := .active }) ∧
      (e.e.op = 3 → s.perform e t = s.modDie di fun d => (d.outSet di (s.qualityOf t) c e.e.param t).began e.id e.e.readback) ∧
      (e.e.op = 4 → s.perform e t = s.modDie di fun d =>
        (d.modCh c fun k => { k with out := { k.out with duty := fld e.e.param 0 16, last := some (4, e.e.param) } }).modEntry e.id
          fun x => { x with phase := .active }) ∧
      (e.e.op = 5 → s.perform e t = (s.modDie di fun d =>
        (d.modCh c fun k => ({ k with out := { k.out with
          period := e.e.param.toNat
          last := some (5, e.e.param)
          nextPk := if k.out.run then some t else k.out.nextPk } } : Channel).recharge d.led.vd).modEntry e.id
            fun x => { x with phase := .active }).settlePools di) ∧
      (e.e.op = 6 → s.perform e t = s.modDie di (·.auxOccurrence e t)) ∧
      (e.e.op = 7 → s.perform e t = s.modDie di fun d =>
        (d.modCh c fun k => { k with fsk := k.fsk.start e.id e.e (Img.lead k.img) (s.qualityOf t) }).modEntry e.id
          fun x => { x with phase := .active }) ∧
      (e.e.op = 8 → s.perform e t = s.applyConfig e.ch
        ⟨t, Img.withMode (e.img.getD (s.chan e.ch).img) (fld e.e.param 0 4), fld e.e.param 4 12, some e.id⟩) ∧
      (e.e.op = 9 → s.perform e t = (s.disableAt e.ch t (some e.id)).modDie di (·.finish e.id .executed)) ∧
      (e.e.op = 10 → s.perform e t = s.modDie di (·.timerOccurrence di (s.qualityOf t) e t))) ∧
  (∀ (d : Die) (di : DieId) (q : Nat) (c : ChanId) (w : Word) (t : Tick), (d.chan c).group = none →
      d.outSet di q c w t = d.outSetOne di q c w t ∧
      ((d.chan c).diag.backfeed = false → ∀ gone : Bool, gone = ((d.chan c).out.pulse.any fun p => decide (p + 200 * us ≤ t)) →
        (∀ e, e ≠ c → (d.outSet di q c w t).chan e = d.chan e) ∧
        ((d.outSet di q c w t).chan c).out.last = some (3, w) ∧
        ((d.outSet di q c w t).chan c).out.optSkip =
          (if (d.chan c).out.pulse.isSome && !gone then satInc (d.chan c).out.optSkip else (d.chan c).out.optSkip) ∧
        ((d.outSet di q c w t).chan c).out.drive =
          (((d.chan c).out.set (d.chan c).mode (if (d.chan c).mode = 11 ∨ (d.chan c).mode = 12 then w.toInt else w.toNat) t).drive &&
            !gone && !d.allOff) ∧
        ((d.outSet di q c w t).chan c).out.onAt =
          (if 8 ≤ (d.chan c).mode ∧ (d.chan c).mode ≤ 10 ∧ w = 1#32 then some t else (d.chan c).out.onAt) ∧
        ((d.outSet di q c w t).chan c).img = (d.chan c).img ∧ (d.outSet di q c w t).ntq = d.ntq)) ∧
  ((∀ (s : State) (id : Nat) (e : Entry) (o : EntryOutcome), s.queued id = some e → e.phase = .finished o →
      (s.serving = true → (s.die e.ch.die).holder = some s.active → s.laneUp s.active e.ch.die = true →
        (s.die e.ch.die).drained e = true → s.isHeld (.retire id) = false →
        (s.core.entry id = none → exec (.entryRetire id) s =
          .next (s.modDie e.ch.die fun d => { d with ntq := d.ntq.filter (·.id != id) })) ∧
        (s.core.entry id ≠ none → exec (.entryRetire id) s = .next (State.commit s
          (({ s with core := s.core.modRecord id fun r =>
              { r with status := if e.st = 0 then r.status else e.st } } : State).outcome id o)))) ∧
      (s.serving = false ∨ (s.die e.ch.die).holder ≠ some s.active ∨ s.laneUp s.active e.ch.die = false ∨
        (s.die e.ch.die).drained e = false ∨ s.isHeld (.retire id) = true → exec (.entryRetire id) s = .next s)) ∧
    (∀ (s : State) (id : Nat), s.queued id = none → exec (.entryRetire id) s = .next s) ∧
    (∀ (s : State) (id : Nat) (e : Entry), s.queued id = some e → e.live = true → exec (.entryRetire id) s = .next s) ∧
    (∀ (s : State) (id : Nat) (o : EntryOutcome),
      (s.mirroring = false → s.outcome id o = s.retire id o) ∧
      (∀ e, s.core.entry id = some e → ∃ t, s.retire id o = t ∧ t.core = s.core.retire e o s.clk.elapsed ∧
        (∀ k, k ≠ e.ch.die → t.die k = s.die k) ∧
        t.die e.ch.die = { s.die e.ch.die with ntq := (s.die e.ch.die).ntq.filter (·.id != id) })) ∧
    ∀ (s : State),
      (s.serving = true → s.switching = false → s.clk.now % iv = 0 → exec .deferralRetry s = .next (State.commit s
        (s.core.defer.foldl State.retryUnit { s with core := { s.core with defer := [] } }))) ∧
      (s.serving = false ∨ s.switching = true ∨ s.clk.now % iv ≠ 0 → exec .deferralRetry s = .next s) ∧
      ((∀ p ∈ s.core.cancels, s.clk.now < p.2.1) → exec .cancelInstant s = .next s) ∧
      (∀ r tc es unk, (s.core.cancels.find? fun p => decide (p.2.1 ≤ s.clk.now)) = some (r, tc, es, unk) →
        ∀ can : Nat × Word → Bool,
        (∀ x, can x = match s.entryNow x.1 with
          | some e => e.cancellable tc && (e.unqueued || (s.barred e.ch.die).isNone)
          | none => false) →
        ∀ u, u = (es.filter can).foldl (fun (t : State) (x : Nat × Word) =>
          match t.entryNow x.1 with | some e => t.cancelEntry e tc | none => t) s →
        exec .cancelInstant s = .next (replied s
          { u with core := { u.core with cancels := u.core.cancels.filter (· != (r, tc, es, unk)) } } r
          (resp 0x0031 .ok (cancelBody tc (es.filter can).length (es.filter fun x => !can x).length unk
            ((es.filter fun x => !can x).map (·.2)))))) ∧
      (∀ rec r t, s.core.record rec = some r → r.retired = some t →
        (t + s.core.staleAge r.dest * ms ≤ s.clk.elapsed → ∃ u, exec (.staleAgeExpiry rec) s = .next u ∧
          u.core.records = s.core.records.filter (·.id != rec) ∧ u.core.store = s.core.store.finish r.used ∧
          u.core.sched.staleRec = satInc s.core.sched.staleRec ∧
          u.core.sched.staleWords = satAdd s.core.sched.staleWords r.len ∧ u.core.entries = s.core.entries ∧ u.dies = s.dies) ∧
        (s.clk.elapsed < t + s.core.staleAge r.dest * ms → exec (.staleAgeExpiry rec) s = .next s)) ∧
      (∀ rec, s.core.record rec = none → exec (.staleAgeExpiry rec) s = .next s) ∧
      (∀ rec r, s.core.record rec = some r → r.retired = none → exec (.staleAgeExpiry rec) s = .next s))

/-- Mode changes, disabling and filter settings (R74, R92, R93, R153 to R155, R261, R437): the waiting configuration whose
tm has come takes effect on the channel and its pair or group; 50 µs later the transition ends and its MODE_SET retires as
executed; a disable acts at td, on its channel, pair or group; settings that wait for tf take effect, and the charges
follow. Chain results and decimator resets (R51, R88, R131, R151 to R160, R166, R170 to R172, R182, R198, R217): a base-rate
sample whose fixed span has passed is corrected and goes through the DC blocker; the next output of the grid, of a window, of a
crossing, or of a count leaves once its span has passed, and a channel in transition or without a chain gives none; one whose
span contains a switch of the reference is counted as straddling, another is corrected, clamped, and goes to the entries that
take it. A result whose span contains the restart has no code and is straddling, and a crossing known so late that its span ended before
the restart is discarded (R153). The DC blocker's estimate in 2^-24 of a code and how it, the corrections and the history of 6,200 samples
are rounded and kept is the model's choice (log 35). The earliest reset that has come restarts the
chains of every die that the hub reaches and whose lease it holds (R13, R21), and moves the origin of every channel that is not exempt. -/
def Obligations.ModeChangesAndResults : Prop :=
  ((∀ (s : State) (ch : Chan) (d : Die), d = s.die ch.die →
      (∀ p, ((d.chan ch.c).pend.find? fun p => d.past p.tm) = some p → ∀ t, t = s.applyConfig ch p →
        exec (.modeChangeStart ch) s = .next (State.commit s (t.syncShadow ch.die (d.unit ch.c ++ (t.die ch.die).unit ch.c)))) ∧
      ((∀ p ∈ (d.chan ch.c).pend, d.past p.tm = false) → s.serving = false →
        exec (.modeChangeStart ch) s = .next (State.commit s s)) ∧
      (∀ tm, (d.chan ch.c).trans = some tm → d.past (tm + 50 * us) = true → ∀ high, ∃ t, exec (.transitionEnd ⟨ch, high⟩) s = .next t ∧
        (t.chan ch).trans = none ∧ (t.chan ch).chain.tq = max (tm + 50 * us) (d.chan ch.c).chain.tq ∧ (t.chan ch).chain.dcb = 0 ∧
        (t.chan ch).chain.hist = [] ∧ (t.chan ch).chain.settling = hasChain (d.chan ch.c).mode ∧
        (t.chan ch).din.enc.cnt = 0 ∧ (t.chan ch).din.raw = (comparing (d.chan ch.c).mode && high) ∧ (t.chan ch).din.filt = false ∧
        (isOutMode (d.chan ch.c).mode = true → (d.chan ch.c).latched = true ∨ d.uvLow = true → (t.chan ch).out.drive = false) ∧
        (t.chan ch).din.since = max (tm + 50 * us) (d.chan ch.c).chain.tq ∧ (t.chan ch).mode = (d.chan ch.c).mode ∧
        (∀ e ∈ (t.die ch.die).ntq, e.live = true → e.e.op = 8 → e.phase = .active → e.ch.c = ch.c → e.e.time.toNat ≠ tm) ∧
        (∀ c, c ≠ ch.c → c ≠ evenOf ch.c → (t.die ch.die).chan c = d.chan c) ∧ (∀ k, k ≠ ch.die → t.die k = s.die k)) ∧
      (((d.chan ch.c).trans = none ∨ ∃ tm, (d.chan ch.c).trans = some tm ∧ d.past (tm + 50 * us) = false) → s.serving = false →
        ∀ high, exec (.transitionEnd ⟨ch, high⟩) s = .next (State.commit s s)) ∧
      (∀ p, (s.core.disables.find? fun p => decide (p.1 = ch) && d.past p.2) = some p → ∀ t, t = s.disableAt ch p.2 none →
        exec (.channelDisableInstant ch) s = .next (State.commit s
          (({ t with core := { t.core with disables := t.core.disables.filter (· != p) } } : State).syncShadow ch.die
            (d.unit ch.c)))) ∧
      ((∀ p ∈ s.core.disables, p.1 = ch → d.past p.2 = false) → exec (.channelDisableInstant ch) s = .next s)) ∧
    (∀ (s : State) (ch : Chan) (td : Tick) (self : Option Nat) (t : State), (s.die ch.die).unit ch.c = [ch.c] →
      t = s.disableAt ch td self →
      (t.chan ch).mode = 0 ∧ (t.chan ch).out.drive = false ∧ (t.chan ch).out.last = none ∧ (t.chan ch).trans = none ∧
        (t.chan ch).hold = none ∧ (t.chan ch).group = none ∧ (t.chan ch).chgHeat = 0 ∧ (t.chan ch).chgBar = 0 ∧
        (∀ c, c ≠ ch.c → (t.die ch.die).chan c = (s.die ch.die).chan c) ∧
        ∀ k, k ≠ ch.die → (t.die k).chans = (s.die k).chans) ∧
    ∀ (s : State) (ch : Chan) (d : Die), d = s.die ch.die →
      ∀ vd had : Bool, vd = (d.led.vdAt.any fun p => d.past p.1) → had = ((d.chan ch.c).pendF.any fun p => d.past p.1) →
        exec (.filterChange ch) s = .next (State.commit s
          (((s.modDie ch.die fun _ => (d.applyFilters ch.c).applyVd).modCore
            (·.dropStanding ch.die (fun c => vd || (had && decide (c = ch.c))) d.replica)).settlePools ch.die)) ∧
        (had = false → d.applyFilters ch.c = d) ∧
        ((∀ p ∈ d.led.vdAt, d.past p.1 = false) → d.applyVd = d) ∧
        (∀ p, (d.led.vdAt.filter fun p => d.past p.1).getLast? = some p →
          d.applyVd.led.vd = p.2 ∧ d.applyVd.led.vdAt = d.led.vdAt.filter fun x => !d.past x.1)) ∧
  ((∀ (s : State) (ch : Chan) (l : List Int) (w : Option Int) (d : Die) (k : Channel), d = s.die ch.die → k = d.chan ch.c →
      (d.on = false ∨ hasChain k.mode = false ∨ k.trans ≠ none ∨ Img.mcEn k.img = true → exec (.chainOutput ch l w) s = .next s) ∧
      (d.on = true → hasChain k.mode = true → k.trans = none → Img.mcEn k.img = false → ∀ u,
        u = (if Img.lock k.img = 2 ∨ k.counts = true then d else l.foldl (fun x v => x.takeSample ch.die ch.c v) d) →
        (u.nextResult ch.die ch.c w = none → exec (.chainOutput ch l w) s = .next (s.modDie ch.die fun _ => u)) ∧
        (∀ t n y, u.nextResult ch.die ch.c w = some (t, n, y) →
          exec (.chainOutput ch l w) s = .next (s.modDie ch.die fun _ => u.giveResult ch.c (s.qualityOf t) t n y)))) ∧
    (∀ (d : Die) (di : DieId) (c : ChanId) (raw : Int) (k : Channel) (t : Int), k = d.chan c →
      t = k.chain.origin + k.chain.next * 12000 →
      ((d.replica : Int) < t + 20 * us → d.takeSample di c raw = d) ∧
      (t + 20 * us ≤ (d.replica : Int) → ∀ x, x = d.corrected di c raw t.toNat → ∃ e y, d.takeSample di c raw =
        (d.modCh c fun k => { k with chain := { k.chain with
          dcb := e, next := k.chain.next + 1, hist := (y :: k.chain.hist).take 6200 } }) ∧
        (Img.dcbEn k.img = false → y = x ∧ e = k.chain.dcb) ∧
        (Img.dcbEn k.img = true → y = x - divRound k.chain.dcb (2 ^ 24) ∧
          (Img.dcbFreeze k.img = true → e = k.chain.dcb) ∧
          (Img.dcbFreeze k.img = false →
            e = k.chain.dcb + divRound (x * 2 ^ 24 - k.chain.dcb) (2 ^ Img.dcbK k.img))))) ∧
    (∀ (d : Die) (di : DieId) (c : ChanId) (w : Option Int) (k : Channel) (t : Tick), k = d.chan c → t = k.outAt k.chain.nextK →
      (Img.lock k.img ≠ 1 → d.past (t + k.span) = false → d.nextResult di c w = none) ∧
      (Img.lock k.img ≠ 1 → d.past (t + k.span) = true → t < k.chain.tq + k.span → d.nextResult di c w = some (t, none, 0)) ∧
      (Img.lock k.img ≠ 1 → d.past (t + k.span) = true → k.chain.tq + k.span ≤ t → k.counts = true → d.nextResult di c w = some (t, none, (k.encAt t).cnt)) ∧
      (Img.lock k.img = 0 → d.past (t + k.span) = true → k.chain.tq + k.span ≤ t → k.counts = false → ∀ y, k.resampled t = some y →
        d.nextResult di c w = some (t, none, y)) ∧
      (Img.lock k.img = 2 → d.past (t + k.span) = true → k.chain.tq + k.span ≤ t → k.counts = false → ∀ raw, w = some raw →
        d.nextResult di c w = some (t, none, d.corrected di c raw (t - k.span))) ∧
      (Img.lock k.img = 1 → k.chain.cross = [] → d.nextResult di c w = none) ∧
      (Img.lock k.img = 1 → ∀ n x rest, k.chain.cross = (n, x) :: rest → d.past (x + k.span) = true →
        (x < k.chain.tq + k.span → d.nextResult di c w = some (x, some n, 0)) ∧
        (k.chain.tq + k.span ≤ x → ∀ y, k.resampled x = some y → d.nextResult di c w = some (x, some n, y)))) ∧
    (∀ (d : Die) (c : ChanId) (q : Nat) (t : Tick) (y : Int) (k : Channel), k = d.chan c →
      (d.refCuts ((t : Int) - k.span) (t + k.span) = true → d.giveResult c q t none y =
        { (d.modCh c fun k => { k with chain := { k.chain with nextK := k.chain.nextK + 1 } }) with
          straddle := satInc d.straddle }) ∧
      (d.refCuts ((t : Int) - k.span) (t + k.span) = false → k.chain.tq + k.span ≤ t → ∀ z b, (z, b) = k.report y t → d.giveResult c q t none y =
        ((d.modCh c fun k => { k with chain := { k.chain with nextK := k.chain.nextK + 1 } }).modCh c
          (·.noteResult z b t)).deliver c t (timeItems k.img (wordOfInt z) t q)) ∧
      (d.refCuts ((t : Int) - k.span) (t + k.span) = false → t < k.chain.tq + k.span → k.chain.tq < t + k.span →
        d.giveResult c q t none y = { (d.modCh c fun k => { k with chain := { k.chain with nextK := k.chain.nextK + 1 } }) with
          straddle := satInc d.straddle }) ∧
      (∀ n, t < k.chain.tq + k.span → ∀ u,
        u = d.modCh c (fun k => { k with chain := { k.chain with cross := k.chain.cross.tail } }) →
        (d.refCuts ((t : Int) - k.span) (t + k.span) = true ∨ k.chain.tq < t + k.span →
          d.giveResult c q t (some n) y = { u with straddle := satInc d.straddle }) ∧
        (d.refCuts ((t : Int) - k.span) (t + k.span) = false → t + k.span ≤ k.chain.tq →
          d.giveResult c q t (some n) y = u))) ∧
    (∀ (k : Channel) (y : Int) (t : Tick), k.counts = false → k.diag.shunt = false → ∀ off gain, (off, gain) = k.cal.sysAt t →
      ∀ z, z = off + divRound (gain * y) (2 ^ 30) → ∀ sp, sp = codeSpan k.img k.odd →
      (sp.1 ≤ z → z ≤ sp.2 → k.report y t = (z, false)) ∧
      (z < sp.1 → k.report y t = (-(2 ^ 31), true)) ∧
      (sp.1 ≤ z → sp.2 < z → k.report y t = (2 ^ 31 - 1, true))) ∧
    ∀ (s : State),
      (s.core.dueReset s.clk.now = none → exec .decimatorReset s = .next s) ∧
      (∀ tr src, s.core.dueReset s.clk.now = some (tr, src) → ∃ t, exec .decimatorReset s = .next t ∧
        t.core.lastReset = tr ∧ t.core.resetCnt = satInc s.core.resetCnt ∧ t.core.resets = s.core.resets.filter (·.1 != tr) ∧
        t.core.mains.origin = tr ∧ t.core.entries = s.core.entries ∧
        ∀ d, (s.linked s.active d = false → t.die d = s.die d) ∧
          (s.linked s.active d = true → (s.die d).holder ≠ some s.active →
            t.die d = { s.die d with foreignDisc := satInc (s.die d).foreignDisc }) ∧
          (s.linked s.active d = true → (s.die d).holder = some s.active → ∀ c,
            Img.exempt ((s.die d).chan c).img = false → ((t.die d).chan c).chain.origin = tr ∧
            (hasChain ((s.die d).chan c).mode = true → ((s.die d).chan c).trans = none →
              ((t.die d).chan c).chain.tq = tr ∧ ((t.die d).chan c).chain.settling = true))))

/-- Inputs (R208 to R213, R216, R220 to R224, R235): an edge of a comparator that works is timestamped, with the front-end delay removed,
and with the filter off it is accepted; at a multiple of TICK, once for each, the integrator steps, and a change of its output is an
accepted edge with the time of the last transition in its direction; CNT_PRESET acts at its instant; an encoder episode ends after 10 ms;
an edge held 8,000 µs leaves with the last angle word; a CAPTURE retires when its window and filter delay have passed and no edge of it
waits. Counting (R209, R212 to R217): an accepted edge is counted with its time; the acts of an encoder pair stand in timestamp order, and
the count at an instant is that of the acts up to it; A and B edges count up and down by the decoding, and two of them less than 100 ns
apart are an illegal transition of which neither counts; a rising Z edge of the pair's Z channel copies the count, or copies and clears
it, by Z_MODE, and leaves the count that the axes see alone; a preset puts its value. That neither edge of an illegal transition counts,
and the order of acts with one timestamp, is the model's reading (log 39). -/
def Obligations.InputsAndCounts : Prop :=
  ((∀ (s : State) (ch : Chan) (d : Die) (k : Channel), d = s.die ch.die → k = d.chan ch.c →
      (k.mode ≠ 7 → s.trimPairs ch = s) ∧
      (∀ r, (d.watches ch.c = false ∨ (k.din.known = true ∧ k.din.raw = r) →
          exec (.comparatorEdge ch r) s = .next (s.trimPairs ch).tickFree) ∧
        (d.watches ch.c = true → (k.din.known = false ∨ k.din.raw ≠ r) → ∀ t u w, t = d.replica - Config.frontDelay →
          u = d.modCh ch.c (fun y => { y with din := { y.din with
            raw := r
            known := true
            lastRise := if r then some t else y.din.lastRise
            lastFall := if r then y.din.lastFall else some t } }) →
          w = u.acceptEdge ch (s.qualityOf t) s.clk.elapsed t r (s.core.angleAt (Img.axis k.img) t) →
          (k.filtered = true → exec (.comparatorEdge ch r) s = .next ((s.modDie ch.die fun _ => u).trimPairs ch).tickFree) ∧
          (k.filtered = false → isOutMode k.mode = false →
            exec (.comparatorEdge ch r) s = .next ((s.modDie ch.die fun _ => w).trimPairs ch).tickFree) ∧
          (k.filtered = false → isOutMode k.mode = true → exec (.comparatorEdge ch r) s =
            .next ((s.modDie ch.die fun _ => w.measureEdge ch (s.qualityOf t) ((t : Int) + Config.halfCrossing s.free) r).trimPairs ch).tickFree))) ∧
      (∀ m, m = d.replica / (Img.tick k.img * 300) * (Img.tick k.img * 300) →
      (d.watches ch.c = false ∨ k.filtered = false ∨ m ≤ k.din.filtAt → exec (.filterTick ch) s = .next (s.trimPairs ch)) ∧
      (d.watches ch.c = true → k.filtered = true → k.din.filtAt < m → ∀ n f u,
        (n, f) = integStep k.din.integ (Img.thr k.img) k.din.raw k.din.filt →
        u = d.modCh ch.c (fun y => { y with din := { y.din with integ := n, filt := f, filtAt := m } }) →
        (f = k.din.filt → exec (.filterTick ch) s = .next ((s.modDie ch.die fun _ => u).trimPairs ch)) ∧
        (f ≠ k.din.filt → ∀ t, t = (if f then k.din.lastRise else k.din.lastFall).getD k.din.since →
          exec (.filterTick ch) s = .next ((s.modDie ch.die fun _ => u.acceptEdge ch (s.qualityOf t) s.clk.elapsed t f
            (s.core.angleAt (Img.axis k.img) t)).trimPairs ch)))) ∧
      ((∀ p ∈ k.din.preset, d.past p.2 = false) → exec (.countPresetApply ch) s = .next (s.trimPairs ch)) ∧
      (∀ w t, (k.din.preset.find? fun p => d.past p.2) = some (w, t) → exec (.countPresetApply ch) s =
        .next ((s.modDie ch.die fun _ => (d.modCh ch.c fun y => { y with din := { y.din with
          preset := y.din.preset.filter (· != (w, t)) } }).pairAct ch.die ch.c (s.dq ch.die) s.clk.elapsed
            ⟨t, .preset w⟩).trimPairs ch)) ∧
      (∀ t, k.din.encEp = some t →
        (t + 10 * ms ≤ s.clk.elapsed → exec (.encoderEpisodeEnd ch) s = .next (s.modDie ch.die fun _ =>
          d.modCh ch.c fun y => { y with din := { y.din with encEp := none } })) ∧
        (s.clk.elapsed < t + 10 * ms → exec (.encoderEpisodeEnd ch) s = .next s)) ∧
      (k.din.encEp = none → exec (.encoderEpisodeEnd ch) s = .next s) ∧
      ((∀ p ∈ k.din.capWait, d.past (p.2.1 + 8000 * us) = false) →
        exec (.captureHeldTimeout ch) s = .next { s with free := s.free + 1 }) ∧
      (∀ p x w, (k.din.capWait.find? fun p => d.past (p.2.1 + 8000 * us)) = some p → s.core.axes[Img.axis k.img]? = some x →
        x.heldAt p.2.1 = some w → exec (.captureHeldTimeout ch) s = .next { s.modDie ch.die fun _ =>
          d.sendCapture ch.c (s.qualityOf p.2.1) p (w, true) with free := s.free + 1 })) ∧
    (∀ (d : Die) (c : ChanId) (q : Nat) (p : Nat × Tick × Bool) (w : Word),
      ((d.sendCapture c q p (w, true)).chan c).din.capHeld = satInc (d.chan c).din.capHeld ∧
      ((d.sendCapture c q p (w, false)).chan c).din.capHeld = (d.chan c).din.capHeld ∧
      ∀ b, ((d.sendCapture c q p (w, b)).chan c).din.capWait = (d.chan c).din.capWait.filter (· != p)) ∧
    (∀ n thr raw filt, 0 < thr → n ≤ thr →
      (raw = true → n + 1 < thr → integStep n thr raw filt = (n + 1, filt)) ∧
      (raw = true → thr ≤ n + 1 → integStep n thr raw filt = (thr, true)) ∧
      (raw = false → 2 ≤ n → integStep n thr raw filt = (n - 1, filt)) ∧
      (raw = false → n ≤ 1 → integStep n thr raw filt = (0, false))) ∧
    ∀ (s : State) (id : Nat), ∃ t, exec (.captureRetire id) s = .next t ∧ t = { s with dies := t.dies } ∧ ∀ d : DieId,
      ((s.die d).queued id = none → t.die d = s.die d) ∧
      (∀ e k n o, (s.die d).queued id = some e → k = (s.die d).chan e.ch.c →
        (e.cut = none → n = e.e.time.toNat + e.e.period.toNat ∧ o = .executed) →
        (∀ a b, e.cut = some (a, b) → n = min (e.e.time.toNat + e.e.period.toNat) a ∧ o = b) →
        (e.e.op = 2 → e.phase = .active → (s.die d).past (n + k.filterDelay) = true → (∀ p ∈ k.din.capWait, p.1 ≠ id) →
          t.die d = (s.die d).finish id o) ∧
        (e.e.op ≠ 2 ∨ e.phase ≠ .active ∨ (s.die d).past (n + k.filterDelay) = false ∨ (∃ p ∈ k.din.capWait, p.1 = id) →
          t.die d = s.die d))) ∧
  ((∀ (d : Die) (ch : Chan) (q el : Nat) (t : Tick) (r : Bool) (w : Option (Word × Bool)), (d.chan ch.c).mode ≠ 7 →
      isDinMode (d.chan ch.c).mode = false → d.acceptEdge ch q el t r w =
        d.modCh ch.c fun y => { y with din := { y.din with edgeAt := t, edgeCnt := y.din.edgeCnt + 1#32 } }) ∧
    (∀ r o : Bool, encDelta 0 true r o = (if r = o then -1 else 1) ∧ encDelta 0 false r o = (if r = o then 1 else -1) ∧
      encDelta 1 true r o = encDelta 0 true r o ∧ encDelta 1 false r o = 0 ∧ encDelta 2 true true o = encDelta 0 true true o ∧
      encDelta 2 true false o = 0 ∧ encDelta 3 true true o = (if o then -1 else 1) ∧ encDelta 3 false r o = 0 ∧
      encDelta 4 true true o = 1 ∧ encDelta 4 false true o = -1 ∧ encDelta 4 true false o = 0 ∧ encDelta 4 false false o = 0) ∧
    (∀ (e : EncSt) (isA r : Bool) (t : Tick) (next : List PairEv) (p : EncSt × Bool × Bool) (prev : Option Tick) (other : Bool),
      p = e.act ⟨t, if isA then .a r else .b r⟩ next → prev = (if isA then e.lb else e.la) → other = (if isA then e.b else e.a) →
      p.1.a = (if isA then r else e.a) ∧ p.1.b = (if isA then e.b else r) ∧ p.1.la = (if isA then some t else e.la) ∧
      p.1.lb = (if isA then e.lb else some t) ∧ p.1.zLatch = e.zLatch ∧ p.1.dec = e.dec ∧ p.1.zMode = e.zMode ∧
      ((2 < e.dec ∨ ((∀ u, prev = some u → u + 300 ≤ t) ∧ ∀ y ∈ next, y.act.input = some (!isA) → t + 300 ≤ y.t)) →
        p.2 = (false, true) ∧ p.1.cnt = wrap32 (e.cnt + encDelta e.dec isA r other) ∧
        p.1.pos = wrap32 (e.pos + encDelta e.dec isA r other)) ∧
      (∀ u, e.dec ≤ 2 → prev = some u → t < u + 300 → p.2 = (true, false) ∧ p.1.cnt = wrap32 e.cnt ∧ p.1.pos = wrap32 e.pos) ∧
      (∀ y ∈ next, e.dec ≤ 2 → y.act.input = some (!isA) → y.t < t + 300 →
        p.2.2 = false ∧ p.1.cnt = wrap32 e.cnt ∧ p.1.pos = wrap32 e.pos)) ∧
    (∀ (e : EncSt) (t : Tick) (next : List PairEv),
      (e.zMode = 1 → e.act ⟨t, .z⟩ next = ({ e with zLatch := wordOfInt e.cnt }, false, false)) ∧
      (e.zMode = 2 → e.act ⟨t, .z⟩ next = ({ e with zLatch := wordOfInt e.cnt, cnt := 0 }, false, false)) ∧
      (e.zMode ≠ 1 → e.zMode ≠ 2 → e.act ⟨t, .z⟩ next = (e, false, false)) ∧
      (∀ w, e.act ⟨t, .preset w⟩ next = ({ e with cnt := w.toInt, pos := w.toInt }, false, false)) ∧
      (∀ m z, e.act ⟨t, .config m z⟩ next = ({ e with dec := m, zMode := z }, false, false)) ∧
      ∀ b, e.act ⟨t, .level true b⟩ next = ({ e with a := b }, false, false) ∧
        e.act ⟨t, .level false b⟩ next = ({ e with b := b }, false, false)) ∧
    (∀ (l : List PairEv) (x y : PairEv), y ∈ book l x ↔ y = x ∨ y ∈ l) ∧
    (∀ (d : Die) (di : DieId) (a : ChanId) (q el : Nat) (x : PairEv), ∀ k, k = (d.settlePair a).chan a →
      ((d.pairAct di a q el x).chan a).din.book = book k.din.book x ∧
      ((d.pairAct di a q el x).chan a).din.enc = k.din.enc ∧
      (∀ c, c ≠ a → (d.pairAct di a q el x).chan c = d.chan c)) ∧
    ∀ (d : Die) (di : DieId) (c p : ChanId) (q el : Nat) (t : Tick), p.val = 2 * Img.zOf (d.chan c).img →
      ((d.chan p).counts = true → d.zEdge di c q el t = d.pairAct di p q el ⟨t, .z⟩) ∧
      ((d.chan p).counts = false → d.zEdge di c q el t = d))

/-- Input and terminal diagnostics (R88, R95 to R98, R114): an over-range of 10 ms sets or clears its flag with an event; a
test result moves OPEN after OW_FILT in a row; a terminal's class changes with an event; a shunt opens at 50 mA and is tried
again every 100 ms; a supply folds back, and a loop supply is tried again every 100 ms. A channel whose mode has no such
diagnostic stays. Output diagnostics (R100, R102, R439, R440): a confirmed overload, short to FG or over-temperature of a
watched output that the condition concerns turns it off and latches, with its event, the whole group if it is in one; a
backfeed of an output that is off is flagged, in modes 0xB and 0xC latched, and correlated with the one output that went on,
or at its end off, one filter time before; an undervoltage of Fd_LP latches every watched output, with one event per episode, at whose
end an output that it kept off without a latch does what its state gives it (log 29). On a group a diagnostic of the terminal is every
member's, and its event names the lowest and carries the member mask (R239); how far that goes is the model's choice (log 72). That the
confirmed rows carry the comparison's outcome, and the trials of 100 ms, are its reading (log 29), as is the end of a latched backfeed
(log 30). -/
def Obligations.Diagnostics : Prop :=
  ((∀ (s : State) (ch : Chan) (d : Die) (k : Channel) (q : Nat), d = s.die ch.die → k = d.chan ch.c → q = s.dq ch.die →
      (∀ b x, x = (if b then k.chain.overSince else k.chain.inSince) →
        (hasChain k.mode = true → k.trans = none → k.diag.overr ≠ b → (∃ t, x = some t ∧ d.past (t + 10 * ms) = true) →
          exec (.overrangeConfirm ch b) s = .next (s.modDie ch.die fun _ =>
            (d.modCh ch.c fun y => { y with diag := { y.diag with overr := b } }).evCh ch q .overrange b [])) ∧
        (hasChain k.mode = false ∨ k.trans ≠ none ∨ k.diag.overr = b ∨ (∀ t, x = some t → d.past (t + 10 * ms) = false) →
          exec (.overrangeConfirm ch b) s = .next s)) ∧
      (k.group = none → (∀ f, d.modDiag ch.c f = d.modCh ch.c fun y => { y with diag := f y.diag }) ∧
        ∀ e b, d.evUnit ch q e b = d.evCh ch q e b []) ∧
      (∀ g, k.group = some g → (∀ f, d.modDiag ch.c f = (d.unit ch.c).foldl (fun (x : Die) m =>
          x.modCh m fun y => { y with diag := f y.diag }) d) ∧
        ∀ e b, d.evUnit ch q e b = d.evCh ⟨ch.die, g⟩ q e b (leBytes 2 (maskOf (d.unit ch.c)))) ∧
      (∀ b, (d.on = false ∨ hasOpenTest k.img k.odd = false ∨ k.trans ≠ none → exec (.openWireResult ch b) s = .next s) ∧
        (d.on = true → hasOpenTest k.img k.odd = true → k.trans = none →
          ∀ u, u = d.modDiag ch.c (fun g => g.openResult (Img.owFilt (d.govern ch.c)) b) →
          ((u.chan ch.c).diag.openW = k.diag.openW → exec (.openWireResult ch b) s = .next (s.modDie ch.die fun _ => u)) ∧
          ((u.chan ch.c).diag.openW ≠ k.diag.openW → exec (.openWireResult ch b) s =
            .next (s.modDie ch.die fun _ => u.evUnit ch q .openWire (u.chan ch.c).diag.openW)))) ∧
      (∀ sn mV, (d.on = false ∨ k.mode ≠ 0 ∨ Img.termMon k.img = false → exec (.terminalMonitorResult ch sn mV) s = .next s) ∧
        (d.on = true → k.mode = 0 → Img.termMon k.img = true → ∀ u, u = d.modCh ch.c (fun y => { y with diag :=
            if sn then { y.diag with termSn := termClass mV } else { y.diag with termIo := termClass mV } }) →
          (termClass mV = (if sn then k.diag.termSn else k.diag.termIo) →
            exec (.terminalMonitorResult ch sn mV) s = .next (s.modDie ch.die fun _ => u)) ∧
          (termClass mV ≠ (if sn then k.diag.termSn else k.diag.termIo) → exec (.terminalMonitorResult ch sn mV) s =
            .next (s.modDie ch.die fun _ => u.evCh ch q .terminalVoltage false [])))) ∧
      (k.mode = 2 ∨ k.mode = 3 → k.trans = none → k.diag.shunt = false → exec (.shuntOpen ch) s = .next (s.modDie ch.die fun _ =>
        (d.modCh ch.c fun y => { y with diag := { y.diag with shunt := true, shuntAt := some s.clk.elapsed } }).evCh ch q
          .inputOvercurrent true [])) ∧
      ((k.mode ≠ 2 ∧ k.mode ≠ 3) ∨ k.trans ≠ none ∨ k.diag.shunt = true → exec (.shuntOpen ch) s = .next s) ∧
      ((∀ t, k.diag.shuntAt = some t → t + 100 * ms ≤ s.clk.elapsed) → exec (.shuntRecloseTrial ch) s =
        .next (s.modDie ch.die fun _ => d.modCh ch.c fun y => { y with diag := { y.diag with shunt := false } })) ∧
      (∀ t, k.diag.shuntAt = some t → s.clk.elapsed < t + 100 * ms → exec (.shuntRecloseTrial ch) s = .next s) ∧
      (k.mode = 3 ∨ k.mode = 4 ∨ k.mode = 5 → k.trans = none → k.diag.fold = false → exec (.currentLimitFoldback ch) s =
        .next (s.modDie ch.die fun _ => (d.modCh ch.c fun y =>
          { y with diag := { y.diag with fold := true, foldAt := some s.clk.elapsed } }).evCh ch q .shortFg true [])) ∧
      ((k.mode ≠ 3 ∧ k.mode ≠ 4 ∧ k.mode ≠ 5) ∨ k.trans ≠ none ∨ k.diag.fold = true →
        exec (.currentLimitFoldback ch) s = .next s) ∧
      (k.mode = 3 → (∀ t, k.diag.foldAt = some t → t + 100 * ms ≤ s.clk.elapsed) → exec (.foldbackRetry ch) s =
        .next (s.modDie ch.die fun _ => d.modCh ch.c fun y => { y with diag := { y.diag with fold := false } })) ∧
      (k.mode ≠ 3 ∨ (∃ t, k.diag.foldAt = some t ∧ s.clk.elapsed < t + 100 * ms) → exec (.foldbackRetry ch) s = .next s)) ∧
    (∀ (g : Diag) (n : Nat), 0 < n →
      (g.openW = false → n ≤ g.owBad + 1 → (g.openResult n true).openW = true) ∧
      (g.openW = false → g.owBad + 1 < n → (g.openResult n true).openW = false ∧ (g.openResult n true).owBad = g.owBad + 1) ∧
      (g.openW = true → n ≤ g.owGood + 1 → (g.openResult n false).openW = false) ∧
      (g.openW = true → g.owGood + 1 < n → (g.openResult n false).openW = true ∧ (g.openResult n false).owGood = g.owGood + 1) ∧
      (g.openResult n true).owGood = 0 ∧ (g.openResult n false).owBad = 0)) ∧
  (∀ (s : State) (ch : Chan) (d : Die) (k : Channel) (q : Nat), d = s.die ch.die → k = d.chan ch.c → q = s.dq ch.die →
      (k.watched = true → k.mode ≤ 10 → k.out.drive = true → exec (.overloadConfirm ch) s = .next (s.modDie ch.die fun _ =>
        d.trip ch q .overload fun g => { g with overload := true })) ∧
      (k.watched = false ∨ 10 < k.mode ∨ k.out.drive = false → exec (.overloadConfirm ch) s = .next s) ∧
      (k.watched = true → k.mode ≠ 11 → k.out.drive = true → exec (.shortFgConfirm ch) s = .next (s.modDie ch.die fun _ =>
        d.trip ch q .shortFg fun g => { g with shortFg := true })) ∧
      (k.watched = false ∨ k.mode = 11 ∨ k.out.drive = false → exec (.shortFgConfirm ch) s = .next s) ∧
      (k.watched = true → exec (.thermalConfirm ch) s = .next (s.modDie ch.die fun _ =>
        d.trip ch q .thermal fun g => { g with thermal := true })) ∧
      (k.watched = false → exec (.thermalConfirm ch) s = .next s) ∧
      (k.group = none → ∀ e f, d.trip ch q e f = ((d.missOut ch.c).modCh ch.c fun y => { y with
        diag := f y.diag
        out := y.out.turnOff d.replica }).evCh ch q e true []) ∧
      (k.watched = false ∨ k.diag.backfeed = true ∨ (k.mode ≠ 11 ∧ k.mode ≠ 12 ∧ k.out.drive = true) →
        exec (.backfeedConfirm ch) s = .next s) ∧
      (k.watched = true → k.diag.backfeed = false → k.mode = 11 ∨ k.mode = 12 ∨ k.out.drive = false → ∀ v u,
        v = (if k.mode = 11 ∨ k.mode = 12 then d.latchUnit ch.c fun g => { g with backfeed := true, bfLatch := true, bfCond := true }
          else d.modDiag ch.c fun g => { g with backfeed := true, bfCond := true }) →
        u = v.evUnit ch q .backfeed true →
        ∀ l, l = ((u.outputsBut ch.c).filter fun b => (u.chan b).out.high &&
          inWindow (u.chan b).out.onAt d.replica (Img.bfFilt (d.govern ch.c))) →
        (l.length ≠ 1 → exec (.backfeedConfirm ch) s = .next (s.modDie ch.die fun _ =>
          u.modDiag ch.c fun g => { g with bfAlone := true })) ∧
        (∀ b, l = [b] → exec (.backfeedConfirm ch) s = .next (s.modDie ch.die fun _ => u.foreignDrive ch.die q (u.named ch.c) b))) ∧
      (k.diag.bfCond = false → exec (.backfeedClear ch) s = .next s) ∧
      (k.diag.bfCond = true → ∀ u,
        (k.diag.backfeed = true → k.diag.bfLatch = false → u = (d.modDiag ch.c fun g => { g with
          backfeed := false, bfAlone := false, bfCond := false }).evUnit ch q .backfeed false) →
        (k.diag.backfeed = false ∨ k.diag.bfLatch = true → u = d.modDiag ch.c fun g => { g with
          bfCond := false, bfAlone := false }) →
        ∀ l, l = ((u.outputsBut ch.c).filter fun b => inWindow (u.chan b).out.offAt d.replica (Img.bfFilt (d.govern ch.c))) →
        (k.diag.bfAlone = false ∨ l.length ≠ 1 → exec (.backfeedClear ch) s = .next (s.modDie ch.die fun _ => u)) ∧
        (∀ b, k.diag.bfAlone = true → l = [b] →
          exec (.backfeedClear ch) s = .next (s.modDie ch.die fun _ => u.foreignDrive ch.die q (u.named ch.c) b))) ∧
      (∀ cs new : List ChanId, cs = (allC.filter fun c => (d.chan c).watched) → new = (cs.filter fun c => !(d.chan c).diag.lpUv) →
        ∀ u, u = new.foldl (fun (x : Die) c => (x.missOut c).modCh c (·.latch (fun g => { g with lpUv := true }) d.replica)) { d with uvLow := true } →
        (d.uvEp = false → exec (.lpUndervoltConfirm ch.die) s = .next (s.modDie ch.die fun _ =>
          { (u.raiseMask ch.die cs .lpUndervolt d.replica q true (leBytes 2 (maskOf cs))) with uvEp := true })) ∧
        (d.uvEp = true → exec (.lpUndervoltConfirm ch.die) s = .next (s.modDie ch.die fun _ =>
          new.foldl (fun x c => x.modHdr (chPage c) (·.condition 7)) u))) ∧
      exec (.lpUndervoltEpisodeEnd ch.die) s = .next (s.modDie ch.die fun _ => { d.lpBack with uvEp := false }) ∧
      (d.uvLow = false → d.lpBack = d) ∧ d.lpBack.uvLow = false ∧
      ((k.watched = false ∨ k.latched = true) → d.lpBack.chan ch.c = k) ∧
      (d.uvLow = true → d.isoPower = true → k.watched = true → k.latched = false → ∀ g, g = d.govern ch.c →
        (d.lpBack.chan ch.c).out = if k.isSafe then k.out.safe g d.replica else (k.resumeOut g true d.replica).out))

/-- Off-pulses, ramps, holds and a die's own safe states (R101, R103 to R108, R239, R256, R296): on a die that works an off-pulse starts
at its multiple, on a group at its lowest channel's, and ends after 200 µs, and above 5 V it is a short to L+; a ramp steps at its
multiple of 10 µs; holds that lasted HOLD_MS, and a hub lost for HUBLOSS_T, which Deep Sleep suspends, set their causes, on every channel
concerned at one instant; without isolated power every output is off. A group's off-pulse on every member at once is the model's choice
(log 72), as is the pulse that a command which goes ahead of its T skips (log 73, log 31). -/
def Obligations.DieSafety : Prop :=
  ∀ (s : State) (ch : Chan) (d : Die) (k : Channel) (g : ChanImg) (q : Nat), d = s.die ch.die → k = d.chan ch.c →
    g = d.govern ch.c → q = s.dq ch.die →
    (d.on = true → d.named ch.c = ch.c → k.out.pulse = none → k.pulseable g d.replica = true →
      d.replica % (Img.optPeriod g * ms) = (ch.c.val * 250 * us) % (Img.optPeriod g * ms) →
      exec (.offPulseStart ch) s = .next (s.modDie ch.die fun _ => (d.together ch.c).foldl (fun x c =>
        x.modCh c fun y => { y with out := y.out.beginPulse d.replica }) d)) ∧
    (d.on = false ∨ d.named ch.c ≠ ch.c ∨ k.out.pulse ≠ none ∨ k.pulseable g d.replica = false ∨
        d.replica % (Img.optPeriod g * ms) ≠ (ch.c.val * 250 * us) % (Img.optPeriod g * ms) →
      exec (.offPulseStart ch) s = .next s) ∧
    (∀ (p : Output) (t : Tick), (p.ahead t = false → p.beginPulse t = { p with drive := false, pulse := some t }) ∧
      (p.ahead t = true → p.beginPulse t = { p with optSkip := satInc p.optSkip })) ∧
    (∀ v, (k.out.pulse = none ∨ d.on = false → exec (.offPulseEnd ch v) s = .next s) ∧
      (∀ t, k.out.pulse = some t → d.past (t + 200 * us) = false → exec (.offPulseEnd ch v) s = .next s) ∧
      (∀ t, d.on = true → k.out.pulse = some t → d.past (t + 200 * us) = true → ∀ u,
        u = Die.backfeedLeft d ((d.together ch.c).foldl (fun x c => x.modCh c fun y => { y with out := { y.out with
            drive := if y.mode = 9 then decide (y.out.value ≠ 2) else decide (y.out.value = 1)
            pulse := none, lastPulse := some (d.replica, decide (v ≤ 5000)) } }) d) ch.die q (d.together ch.c) →
        (v ≤ 5000 → exec (.offPulseEnd ch v) s = .next (s.modDie ch.die fun _ => u)) ∧
        (5000 < v → ∀ w, w = (u.modDiag ch.c fun g => { g with shortLp := true }).evUnit ch q .shortLp true →
          (Img.slpSafe (w.govern ch.c) = false → exec (.offPulseEnd ch v) s = .next (s.modDie ch.die fun _ => w)) ∧
          (Img.slpSafe (w.govern ch.c) = true → exec (.offPulseEnd ch v) s =
            .next (s.modDie ch.die fun _ => w.setCauses ch.die q 4 (w.together ch.c)))))) ∧
    (∀ t, k.out.ramp = some t →
      (d.past t = true → k.isSafe = true → Img.kind g = 3 → exec (.rampStep ch) s = .next (s.modDie ch.die fun _ =>
        d.modCh ch.c fun y => { y with out := y.out.rampStep g t })) ∧
      (d.past t = false ∨ k.isSafe = false ∨ Img.kind g ≠ 3 → exec (.rampStep ch) s = .next s)) ∧
    (k.out.ramp = none → exec (.rampStep ch) s = .next s) ∧
    (∀ t, k.hold = some t →
      (t + Img.holdMs k.img * ms ≤ s.clk.elapsed →
        ∀ cs, cs = (allC.filter fun c => (d.chan c).holdEnd == some (t + Img.holdMs k.img * ms)) →
        exec (.holdMsExpiry ch) s = .next (s.modDie ch.die fun _ =>
          (cs.foldl (fun x c => x.modCh c fun y => { y with hold := none }) d).setCauses ch.die (d.q s.quality) 2 cs)) ∧
      (s.clk.elapsed < t + Img.holdMs k.img * ms → exec (.holdMsExpiry ch) s = .next s)) ∧
    (k.hold = none → exec (.holdMsExpiry ch) s = .next s) ∧
    (∀ t, d.lossFrom = some t →
      (d.pwr = .deepSleep ∨ s.clk.elapsed < t + d.hublossT * us → exec (.hubLossExpiry ch.die) s = .next s) ∧
      (d.pwr ≠ .deepSleep → t + d.hublossT * us ≤ s.clk.elapsed → ∀ u, u = d.setCauses ch.die (d.q s.quality) 0 allC →
        (s.variant.dual = true → ((s.hub 0).hstate = .ready ∨ (s.hub 1).hstate = .ready) →
          exec (.hubLossExpiry ch.die) s = .next (s.modDie ch.die fun _ => u)) ∧
        (s.variant.dual = false ∨ ((s.hub 0).hstate ≠ .ready ∧ (s.hub 1).hstate ≠ .ready) →
          exec (.hubLossExpiry ch.die) s = .next (s.modDie ch.die fun _ =>
            { u with
              ntq := u.ntq.map fun e => if e.live then { e with phase := .finished .missed } else e
              ntqPool := u.ntqPool.finish (u.ntq.countP (·.live))
              missed := u.missed ++ (u.ntq.filter (·.live)).map (·.id) })))) ∧
    (d.lossFrom = none → exec (.hubLossExpiry ch.die) s = .next s) ∧
    (∃ t, exec (.isolatedPowerLost ch.die) s = .next t ∧ (t.die ch.die).isoPower = false ∧
      (∀ c, ((t.die ch.die).chan c).out.drive = false ∧ ((t.die ch.die).chan c).out.run = false ∧
        ((t.die ch.die).chan c).mode = (d.chan c).mode ∧ ((t.die ch.die).chan c).cause = (d.chan c).cause) ∧
      (t.die ch.die).ntq = d.ntq ∧ ∀ e, e ≠ ch.die → t.die e = s.die e)

/-- The regular table (R131, R132, R134 to R137, R142): once for each multiple of PASS_MS the shadow is installed and, with RUN,
entry 0 begins; a pass still running skips it; an entry that has ended gives its result, a wait none, unless its window
straddles a switch of the reference, and the next entry begins at its end while RUN is 1; an injected sequence holds the
table. A regular entry's test current flows until its end and is removed by an injected sequence, of which
the entry that is connected has its own (R132, R134, R140, R142). Urgent triggers (R59, R138 to R142): a trigger meets
its instant and its delay begins; at its arrival the injected sequence starts, unless a cause of R141 drops it; with no PWM
event before its limit it is dropped with cause 3; a sequence that has ended gives its results, the last occurrence retires
the entry, and the table resumes. A bandgap check only after an entry of source 0x35 is the model's choice (log 71), the precedence of
the causes and TRIG 3's limit its reading (log 34). -/
def Obligations.AuxiliaryConverter : Prop :=
  (∀ (s : State) (d : DieId) (k : Die), k = s.die d →
      (∀ te, te = nextMultiple (k.aux.passMs * ms) k.aux.passFrom →
        (k.past te = false ∨ k.on = false → exec (.auxPassStart d) s = .next s) ∧
        (k.past te = true → k.on = true → ∀ y, y = { k with aux := { k.aux with passFrom := te + 1 } } →
          (k.aux.entry ≠ none → exec (.auxPassStart d) s = .next (s.modDie d fun _ =>
            { y with aux := { y.aux with passSkip := satInc k.aux.passSkip } })) ∧
          (k.aux.entry = none → y.installAux.aux.run = false →
            exec (.auxPassStart d) s = .next (s.modDie d fun _ => y.installAux)) ∧
          (k.aux.entry = none → y.installAux.aux.run = true → exec (.auxPassStart d) s = .next (s.modDie d fun _ =>
            { y.installAux with aux := { y.installAux.aux with
              entry := (y.installAux.aux.nextFrom 0).map fun i => (i, te) } })))) ∧
      (k.aux.auto = false → k.installAux = { k with aux := { k.aux with
        priv := k.aux.privSh, inj := k.aux.injSh, table := k.aux.tableSh, len := k.aux.lenSh } }) ∧
      (k.aux.auto = true → k.installAux.aux.len = k.autoTable.length ∧ k.installAux.aux.table = layTable k.autoTable k.aux.table ∧
        k.installAux.aux.priv = k.aux.privSh ∧ k.installAux.aux.inj = k.aux.injSh) ∧
      ∀ v, (k.aux.entry = none ∨ k.aux.injRun ≠ none → exec (.auxEntryEnd d v) s = .next s) ∧
        ∀ i te w e, k.aux.entry = some (i, te) → k.aux.injRun = none → w = k.aux.entryAt i → e = te + AuxEntry.length w →
          (k.past e = false ∨ k.on = false → exec (.auxEntryEnd d v) s = .next s) ∧
          (k.past e = true → k.on = true → ∀ ws keep u y, ws = AuxEntry.windows w te →
            keep = (ws.getLast?.any fun v => !k.refCuts v.1 v.2) →
            u = (if keep then k.auxResult (AuxEntry.source w) v else k) →
            y = { u with
              straddle := satAdd u.straddle (ws.countP fun v => k.refCuts v.1 v.2)
              aux := { u.aux with
                result := if keep then vmap u.aux.result fun j x => if j.val = i then wordOfInt v else x else u.aux.result
                entry := if u.aux.run then (u.aux.nextFrom (i + 1)).map fun j => (j, e) else none } } →
            (AuxEntry.source w = 0xFF → ws = []) ∧
            (AuxEntry.source w ≠ 0x35 ∨ keep = false → exec (.auxEntryEnd d v) s = .next (s.modDie d fun _ => y)) ∧
            (AuxEntry.source w = 0x35 → keep = true → exec (.auxEntryEnd d v) s = .next (s.modDie d fun _ => y.refCheck)))) ∧
  (∀ d : Die, (d.aux.cutAt = none → ∀ a b, d.refCuts a b = false) ∧
      (d.aux.injRun = none → d.aux.entry = none → d.testCurrent = 0) ∧
      (∀ k id occ ta l, d.aux.injRun = some (k, id, occ, ta, l) → (d.replica < ta → d.testCurrent = 0) ∧
        ∀ p w, (((injWindows l ta true).zip l).find? fun v => decide (d.replica < v.1.2)) = some (p, w) → ta ≤ d.replica →
          (AuxEntry.test w = 0 ∨ AuxEntry.measured w = none → d.testCurrent = 0) ∧
          (∀ c, AuxEntry.measured w = some c → (AuxEntry.test w = 1 ∨ AuxEntry.test w = 3 → d.testCurrent = d.testSize c) ∧
            (AuxEntry.test w = 2 → d.testCurrent = -(d.testSize c : Int)))) ∧
      ∀ i te w, d.aux.entry = some (i, te) → d.aux.injRun = none → w = d.aux.table.toList.getD i 0#32 → te ≤ d.replica →
        d.replica < te + AuxEntry.length w →
        (AuxEntry.test w = 0 ∨ AuxEntry.measured w = none → d.testCurrent = 0) ∧
        (∀ c, AuxEntry.measured w = some c → (AuxEntry.test w = 1 → d.testCurrent = d.testSize c) ∧
          (AuxEntry.test w = 2 → d.testCurrent = -(d.testSize c : Int)) ∧
          (AuxEntry.test w = 3 → d.replica < te + max (AuxEntry.settle w) (40 * us) + AuxEntry.window w →
            d.testCurrent = d.testSize c))) ∧
  (∀ (s : State) (d : DieId) (x : Die), x = s.die d →
      (∀ id, (x.queued id = none → exec (.urgentTrigger d id) s = .next s) ∧
        ∀ e, x.queued id = some e →
          (x.aux.slotOf e.ch.c = none → exec (.urgentTrigger d id) s = .next s) ∧
          ∀ sl, x.aux.slotOf e.ch.c = some sl → ∀ l, l = x.aux.waiting[sl.val] →
            (l.find? (fun u => u.id == id && u.ta.isNone) = none → exec (.urgentTrigger d id) s = .next s) ∧
            ∀ u, l.find? (fun u => u.id == id && u.ta.isNone) = some u →
              (x.triggerAt x.aux.priv[sl.val] u = none → exec (.urgentTrigger d id) s = .next s) ∧
              ∀ t, x.triggerAt x.aux.priv[sl.val] u = some t → exec (.urgentTrigger d id) s = .next (s.modDie d fun _ =>
                { x with aux := x.aux.modWait sl fun l => l.map fun y =>
                  if y = u then { u with ta := some (t + 125 * fld e.e.param 0 16) } else y })) ∧
      (∀ w (u : Urgent), privTrig w = 0 →
        (x.past u.occAt = true → x.triggerAt w u = some u.occAt) ∧ (x.past u.occAt = false → x.triggerAt w u = none)) ∧
      (∀ k : Fin 4, ∀ l, l = x.aux.waiting[k.val] →
        (l.find? (fun u => u.ta.any x.past) = none →
          exec (.urgentArrival d k) s = .next s) ∧
        (∀ u ta y, l.find? (fun u => u.ta.any x.past) = some u → u.ta = some ta →
          y = { x with aux := x.aux.modWait k fun l => l.filter (· != u) } →
          (x.queued u.id = none → exec (.urgentArrival d k) s = .next (s.modDie d fun _ => y)) ∧
          ∀ e, x.queued u.id = some e →
            (e.live = false → exec (.urgentArrival d k) s = .next (s.modDie d fun _ => y)) ∧
            (e.live = true →
              (∀ cause, x.aux.dropCause k u ta = some cause → exec (.urgentArrival d k) s =
                .next (s.modDie d fun _ => y.dropUrgent d (s.qualityOf ta) k u cause ta)) ∧
              (x.aux.dropCause k u ta = none → exec (.urgentArrival d k) s = .next (s.modDie d fun _ =>
                { y with aux := { y.aux with injRun := some (k.val, u.id, u.occ, ta, y.aux.sequence k) } })))) ∧
        (l.find? (fun u => u.ta.isNone && x.past u.limit && privTrig x.aux.priv[k.val] != 0) = none →
          exec (.pwmEventTimeout d k) s = .next s) ∧
        (privTrig x.aux.priv[k.val] = 0 → exec (.pwmEventTimeout d k) s = .next s) ∧
        (∀ u y, l.find? (fun u => u.ta.isNone && x.past u.limit && privTrig x.aux.priv[k.val] != 0) = some u →
          y = { x with aux := x.aux.modWait k fun l => l.filter (· != u) } →
          (x.queued u.id = none → exec (.pwmEventTimeout d k) s = .next (s.modDie d fun _ => y)) ∧
          ∀ e, x.queued u.id = some e →
            (e.live = false → exec (.pwmEventTimeout d k) s = .next (s.modDie d fun _ => y)) ∧
            (e.live = true → exec (.pwmEventTimeout d k) s = .next (s.modDie d fun _ => y.dropUrgent d (s.qualityOf u.limit) k u 3 u.limit)))) ∧
      ∀ rs, (x.aux.injRun = none → exec (.injectedSequenceEnd d rs) s = .next { s with free := s.free + 8 }) ∧
        ∀ k id occ ta l, x.aux.injRun = some (k, id, occ, ta, l) →
          (x.past (injEnd l ta) = false ∨ x.on = false → exec (.injectedSequenceEnd d rs) s = .next { s with free := s.free + 8 }) ∧
          (x.past (injEnd l ta) = true → x.on = true → ∀ ws, ws = injWindows l ta true → ∀ lost : Nat → Bool,
            (∀ j, lost j = match ws[j]? with | some v => x.refCuts v.1 v.2 | none => false) → ∀ u v,
            u = l.zipIdx.foldl (fun (y : Die) (p : Word × Nat) =>
              if AuxEntry.isWait p.1 || lost p.2 then y else y.auxResult (AuxEntry.source p.1) (rs.getD p.2 0))
              { x with straddle := satAdd x.straddle (ws.countP fun (v : Tick × Tick) => x.refCuts v.1 v.2) } →
            v = { u with aux := ({ u.aux with injRun := none } : Aux).resumeTable (injEnd l ta) } →
            (x.queued id = none →
              exec (.injectedSequenceEnd d rs) s = .next { s.modDie d fun _ => v with free := s.free + 8 }) ∧
            ∀ e, x.queued id = some e →
              (e.live = false → exec (.injectedSequenceEnd d rs) s = .next { s.modDie d fun _ => v with free := s.free + 8 }) ∧
              (e.live = true → ∀ rw, rw = (l.zipIdx.map fun p => if AuxEntry.isWait p.1 then 0#32
                  else if lost p.2 then Config.measured (s.free + p.2) else wordOfInt (rs.getD p.2 0)) →
                ∀ a b r q, ws = (a, b) :: r → q = s.qualityOf ((a + b) / 2) →
                exec (.injectedSequenceEnd d rs) s = .next { s.modDie d fun _ =>
                  (v.push [LaneItem.result id (auxWords occ rw false q) ((a + b) / 2) q (occ + 1) 0]).endOccurrence
                    ⟨id, occ, ta, none, 0⟩ with free := s.free + 8 })))

/-- The references (R129, R131): once every 1 ms a comparison is taken; the mean of the last 16 beyond 20 ppm sets SUSPECT, with
the start of their span, and a second at 15 ppm or less clears it; at its instant a switch takes effect, says SWITCHED, and
discards the conversions whose window contains it. That a comparison comes once in 1 ms of elapsed ticks is the model's choice and that
the event names 1 ms before the oldest of the 16 its reading (log 34). -/
def Obligations.References : Prop :=
  ∀ (s : State) (d : DieId) (k : Die) (q : Nat), k = s.die d → q = s.dq d →
    (∀ v, (k.on = false ∨ (∃ t, k.aux.cmpAt = some t ∧ s.clk.elapsed < t + ms) → exec (.refCompare d v) s = .next s) ∧
      (k.on = true → (∀ t, k.aux.cmpAt = some t → t + ms ≤ s.clk.elapsed) → ∀ l sum n u, l = ((k.replica, v) :: k.aux.diffs).take 16 →
        sum = (l.map (·.2)).sum →
        n = (if sum.natAbs * 1000 ≤ 15 * l.length * 2 ^ 30 then some (k.aux.goodSince.getD s.clk.elapsed) else none) →
        u = { k with aux := { k.aux with diffs := l, cmpAt := some s.clk.elapsed, goodSince := n } } →
        (k.aux.suspect = false →
          (l.length = 16 → 20 * 16 * 2 ^ 30 < sum.natAbs * 1000 → ∀ t x, l.getLast? = some (t, x) →
            exec (.refCompare d v) s = .next (s.modDie d fun _ =>
              ({ u with aux := { u.aux with suspect := true, suspAt := some k.replica,
                                            episodes := satTo 65535 (k.aux.episodes + 1) } } : Die).refEvent d (t - ms)
                (s.qualityOf (t - ms)) true false)) ∧
          (l.length ≠ 16 ∨ sum.natAbs * 1000 ≤ 20 * 16 * 2 ^ 30 →
            exec (.refCompare d v) s = .next (s.modDie d fun _ => u))) ∧
        (k.aux.suspect = true →
          (∀ t, n = some t → t + sec ≤ s.clk.elapsed → exec (.refCompare d v) s = .next (s.modDie d fun _ =>
            ({ u with aux := { u.aux with suspect := false, clearAt := some k.replica } } : Die).refEvent d k.replica q false false)) ∧
          (n = none ∨ (∃ t, n = some t ∧ s.clk.elapsed < t + sec) →
            exec (.refCompare d v) s = .next (s.modDie d fun _ => u))))) ∧
    (k.aux.refNext = none → exec (.refSwitch d) s = .next s) ∧
    ∀ t b own, k.aux.refNext = some (t, b, own) →
      (k.past t = false → exec (.refSwitch d) s = .next s) ∧
      (k.past t = true → exec (.refSwitch d) s = .next (s.modDie d fun _ =>
        ({ k with
          aux := { k.aux with inUse := b, refNext := none, switched := k.aux.switched || own, cutAt := some t } } : Die).refEvent d t
            (s.qualityOf t) k.aux.suspect true))

/-- Mains (R122 to R126): a crossing that the source channel's codes hold gives a period, which moves the tracker; 100 ms without one ends
LOCKED, and HOLD_S ends HOLD; once the last boundary has fallen the active hub sends the next, a tracked period later, in whole packets,
to each die that it reaches and whose lease it holds (R13, R21); a window ends at a boundary whose number is a multiple of N with one
result at its midpoint, discarded if the window contains a switch of the reference. Axes (R161, R163 to R168, R180, R214): a network
sample, or the next settled edge of an encoder's pair, takes the position, starts MOVING, and reaches each such die; a network sample not
later than the last is discarded; a rising Z edge takes the angle word to ZERO by the shorter way, by the row that brings its time (log
36: the model's reading), and the hub takes no edge of a die that it does not reach; STILL without a sample ends MOVING; 10 ms without
another crossing ends an episode. The run of measurements that LOCKED clears when it ends is the model's choice (log 68), the rounding of
periods, crossings and midpoints and a boundary's carried rest its reading (log 33). -/
def Obligations.MainsAndAxes : Prop :=
  ((∀ (s : State) (m : Mains), m = s.core.mains →
      (∀ (first : Int) (codes : List Int),
        (∀ ch t l, s.chanOf m.ch = some ch → t = (s.chan ch).chain.origin + first * 12000 →
          l = (codes.zipIdx.map fun p => (s.die ch.die).corrected ch.die ch.c p.1 (t + p.2 * 12000).toNat) →
          (m.src = 1 → (s.chan ch).mode = 1 → (s.chan ch).trans = none → s.barred ch.die = none → swings l = true →
            t + (codes.length - 1 : Nat) * 12000 + 20 * us ≤ ((s.die ch.die).replica : Int) →
            (crossingOf t l = none → exec (.mainsZeroCrossing ⟨first, codes⟩) s = .next s) ∧
            (∀ c u, crossingOf t l = some c →
              u = s.modCore (fun x => { x with mains := { x.mains with lastCross := some c.toNat, lastMeas := s.clk.elapsed } }) →
              (m.lastCross = none → exec (.mainsZeroCrossing ⟨first, codes⟩) s = .next (State.commit s u)) ∧
              (∀ b, m.lastCross = some b → b < c.toNat → exec (.mainsZeroCrossing ⟨first, codes⟩) s =
                .next (State.commit s (u.mainsMeasure (c.toNat - b) (inMains (c.toNat - b))))) ∧
              (∀ b, m.lastCross = some b → c.toNat ≤ b → exec (.mainsZeroCrossing ⟨first, codes⟩) s = .next (State.commit s s)))) ∧
          (m.src ≠ 1 ∨ (s.chan ch).mode ≠ 1 ∨ (s.chan ch).trans ≠ none ∨ s.barred ch.die ≠ none ∨ swings l = false ∨
            ((s.die ch.die).replica : Int) < t + (codes.length - 1 : Nat) * 12000 + 20 * us →
            exec (.mainsZeroCrossing ⟨first, codes⟩) s = .next s)) ∧
        (s.chanOf m.ch = none → exec (.mainsZeroCrossing ⟨first, codes⟩) s = .next s)) ∧
      (m.st = .locked → m.lastMeas + 100 * ms ≤ s.clk.elapsed → exec .mainsSourceTimeout s = .next (State.commit s
        ((s.modCore fun c => { c with mains := { c.mains with st := .hold, holdSince := s.clk.elapsed, meas := [] } }).raiseNow
          .mainsLost []))) ∧
      (m.st ≠ .locked ∨ s.clk.elapsed < m.lastMeas + 100 * ms → exec .mainsSourceTimeout s = .next s) ∧
      (m.st = .hold → m.holdSince + m.holdS * sec ≤ s.clk.elapsed → exec .mainsHoldExpiry s = .next (State.commit s
        (s.modCore fun c => { c with mains :=
          ({ m with st := .free, meas := [] } : Mains).setPeriod s.clk.now (nominalPeriod m.nom) }))) ∧
      (m.st ≠ .hold ∨ s.clk.elapsed < m.holdSince + m.holdS * sec → exec .mainsHoldExpiry s = .next s) ∧
      (s.serving = true → m.last.2 ≤ s.clk.now → ∀ t b y, t = m.last.2 + m.periodAt m.last.2 + m.carry →
        b = (m.last.1 + 1, t / 125 * 125) →
        y = ({ m with bounds := (b :: m.bounds).take 4, carry := t % 125, perWas := m.perWas.filter fun p => decide (b.2 < p.1) } : Mains) →
        exec .mainsBoundarySend s = .next (State.commit s ((s.modCore fun c => { c with mains := y }).overLanes fun _ d =>
          { d with bounds := (b :: d.bounds).take 4 }))) ∧
      (s.serving = false ∨ s.clk.now < m.last.2 → exec .mainsBoundarySend s = .next s)) ∧
    (∀ (m : Mains) (p now el : Nat), (inMains p = true ↔ 45 * p ≤ 3000000000 ∧ 3000000000 ≤ 65 * p) ∧
      (m.st = .locked → (m.measure p false now el).2 = some .mainsLost ∧ (m.measure p false now el).1.st = .hold) ∧
      (m.st = .locked → (m.measure p true now el).2 = none ∧ (m.measure p true now el).1.st = .locked ∧
        (m.measure p true now el).1.period = meanOf ((p :: m.meas).take 8)) ∧
      (m.st ≠ .locked → (m.measure p false now el).2 = none ∧ (m.measure p false now el).1.st = m.st) ∧
      (m.st ≠ .locked → steady ((p :: m.meas).take 8) = true → (m.measure p true now el).2 = some .mainsLock ∧
        (m.measure p true now el).1.st = .locked ∧ (m.measure p true now el).1.period = meanOf ((p :: m.meas).take 8)) ∧
      (m.st ≠ .locked → steady ((p :: m.meas).take 8) = false → (m.measure p true now el).2 = none ∧
        (m.measure p true now el).1.st = m.st)) ∧
    (∀ (d : Die) (k : Channel) (b : Tick), d.meets k = some b → b ≤ d.replica ∧
      (∃ n, (n, b) ∈ d.bounds ∧ n % (Img.mcN k.img + 1) = 0) ∧ (∀ a, k.chain.mcStart = some a → a < b) ∧
      (k.chain.mcStart = none → k.chain.tq ≤ b)) ∧
    ∀ (s : State) (ch : Chan) (raw : Int) (d : Die) (k : Channel) (o : Option Tick), d = s.die ch.die → k = d.chan ch.c →
      o = d.meets k →
      (d.on = true → Img.mcEn k.img = true → 1 ≤ k.mode → k.mode ≤ 5 → k.trans = none → ∀ b, o = some b →
        (k.chain.mcStart = none → exec (.mainsWindowEnd ch raw) s = .next (s.modDie ch.die fun _ =>
          d.modCh ch.c fun k => { k with chain := { k.chain with mcStart := some b } })) ∧
        ∀ a, k.chain.mcStart = some a →
          (d.refCuts a b = true → exec (.mainsWindowEnd ch raw) s = .next (s.modDie ch.die fun _ =>
            { (d.modCh ch.c fun k => { k with chain := { k.chain with mcStart := some b } }) with straddle := satInc d.straddle })) ∧
          (d.refCuts a b = false → ∀ z len, z = k.report (d.corrected ch.die ch.c raw a) ((a + b) / 2) →
            len = BitVec.ofNat 32 ((b - a) / 125) →
            ∀ u, u = d.modCh ch.c (fun k => { k.noteResult z.1 z.2 ((a + b) / 2) with
              chain := { (k.noteResult z.1 z.2 ((a + b) / 2)).chain with mcLen := len, mcStart := some b } }) →
            exec (.mainsWindowEnd ch raw) s = .next (s.modDie ch.die fun _ => u.deliver ch.c ((a + b) / 2)
              (angleItems (wordOfInt z.1) len ((a + b) / 2) (s.qualityOf ((a + b) / 2)))))) ∧
      (d.on = false ∨ Img.mcEn k.img = false ∨ k.mode = 0 ∨ 5 < k.mode ∨ k.trans ≠ none ∨ o = none →
        exec (.mainsWindowEnd ch raw) s = .next s)) ∧
  (∀ (s : State) (a : AxisId) (x : Axis), x = s.core.axis a →
      (∀ t p, (x.src ≠ 1 → x.src ≠ 2 → exec (.axisSample a t p) s = .next (State.commit s s)) ∧
        (x.src = 2 → ∀ b, x.posAt = some b → t ≤ b → exec (.axisSample a t p) s = .next (State.commit s
          (s.modCore (·.modAxis a fun y => { y with netDiscard := satInc y.netDiscard })))) ∧
        (x.src = 2 → (∀ b, x.posAt = some b → b < t) →
          exec (.axisSample a t p) s = .next (State.commit s (s.axisMove a t (wrap64 (x.zero + p))))) ∧
        (x.src = 1 → exec (.axisSample a t p) s = .next (State.commit s (s.axisEdge a))) ∧
        ∀ u v, u = s.modCore (·.modAxis a fun y => { y.note t p s.clk.now with posAt := some t, moving := true, lastRx := s.clk.elapsed }) →
          v = (if x.moving then u else u.raiseSrc .axisStill s.clk.now (srcHub s.active) true (leBytes 1 a.val) none) →
          s.axisMove a t p = v.overLanes fun di d => d.axisSample di a s.qualityOf s.clk.elapsed s.clk.now
            (x.note t p s.clk.now).angleAt (x.posAt.map fun t => (t, x.pos)) t p) ∧
      (∀ f : DieId → Die → Die, ∀ d, (s.linked s.active d = false → (s.overLanes f).die d = s.die d) ∧
        (s.linked s.active d = true → (s.die d).holder = some s.active → (s.overLanes f).die d = f d (s.die d)) ∧
        (s.linked s.active d = true → (s.die d).holder ≠ some s.active →
          (s.overLanes f).die d = { s.die d with foreignDisc := satInc (s.die d).foreignDisc })) ∧
      (∀ u, u = s.axisSettle a → (u.axisNext a = none → s.axisEdge a = u) ∧
        (∀ ch n t v, u.axisNext a = some (ch, n, t, some v) →
          s.axisEdge a = (u.axisTake a ch n).axisMove a t ((u.core.axis a).position v)) ∧
        (∀ ch n t, u.axisNext a = some (ch, n, t, none) →
          ((u.core.axis a).zref = true → s.axisEdge a = u) ∧ ((u.core.axis a).zref = false → s.axisEdge a = u.axisTake a ch n)) ∧
        ((∀ ch n t, u.axisNext a = some (ch, n, t, none) → (u.core.axis a).zref = false) →
          ∀ t, exec (.axisZReference a t) s = .next (State.commit s u)) ∧
        (∀ ch n t, u.axisNext a = some (ch, n, t, none) → (u.core.axis a).zref = true →
          (∀ r, r ≠ t → exec (.axisZReference a r) s = .next (State.commit s u)) ∧
          ((u.core.axis a).posAt = none → exec (.axisZReference a t) s = .next (State.commit s (u.axisTake a ch n))) ∧
          ((u.core.axis a).posAt ≠ none →
            exec (.axisZReference a t) s = .next (State.commit s ((u.axisTake a ch n).axisZero a t))))) ∧
      (x.src ≠ 1 → s.axisNext a = none) ∧
      (∀ ch, s.axisPair a = some ch → s.reaches ch.die = false → s.axisNext a = none) ∧
      (x.src = 1 → ∀ v, x.position v = wrap64 (divZero ((x.zero + x.corr) * x.cpr + (if x.dir then -v else v) * 2 ^ 32) x.cpr)) ∧
      (∀ t e p u, e = x.zCorrection → p = wrap64 (x.pos + e) →
        u = s.modCore (·.modAxis a fun y => { y with pos := p, corr := y.corr + e }) →
        ∀ v, v = (if x.cpr * e.natAbs > 2 ^ 32 then u.raiseSrc .axisSlip t (srcHub s.active) false
          (leBytes 8 (BitVec.ofInt 64 e).toNat ++ leBytes 1 a.val) none else u) →
        (e ≤ 0 → s.axisZero a t = v) ∧
        (0 < e → s.axisZero a t = v.overLanes fun _ d => d.skipSteps a x.pos p)) ∧
      (BitVec.ofInt 32 (x.pos + x.zCorrection) = BitVec.ofInt 32 x.zero ∧ -(2 ^ 31) ≤ x.zCorrection ∧ x.zCorrection < 2 ^ 31) ∧
      (x.moving = true → x.lastRx + x.still * ms ≤ s.clk.elapsed → exec (.axisStill a) s = .next (State.commit s
        ((s.modCore (·.modAxis a fun y => { y with moving := false })).raiseSrc .axisStill s.clk.now (srcHub s.active) false
          (leBytes 1 a.val) none))) ∧
      (x.moving = false ∨ s.clk.elapsed < x.lastRx + x.still * ms → exec (.axisStill a) s = .next s) ∧
      ∀ ch : Chan,
        exec (.angleEpisodeEnd ch true) s = .next (s.modCh ch fun k => { k with chain := { k.chain with
          overEp := k.chain.overEp.filter fun t => decide (s.clk.elapsed < t + 10 * ms) } }) ∧
        exec (.angleEpisodeEnd ch false) s = .next (s.modCh ch fun k => { k with chain := { k.chain with
          lateEp := k.chain.lateEp.filter fun t => decide (s.clk.elapsed < t + 10 * ms) } }))

/-- Carousel visits (R121, R130, R183 to R185, R187, R188, R197): at its slot start a spare that runs and is free, and that no entry into
Sleep stops (R330), starts a visit to its channel, or calibrates itself where the channel cannot be visited; a slot whose instant the
replica has passed begins all the same, once; a handback that waits skips the slot; at tk the spare takes its trim, and serves if the
match check passes, else the visit is skipped; at th the own slice serves again, with coefficients that were accepted and their hallmark,
or Δ is taken and ramped again before another try. Slices (R130, R186, R189 to R195, R200): the four points give the coefficients; a slice
whose own coefficients are beyond the limits is faulty, which parks a channel or withdraws a spare and starts the other spare's cycle of
16 s; others are accepted or rejected by their residual, by Δ and by SUSPECT; the warm-start set is stored at a whole hour, or within 1 s
of it, with the lock, and not in a power-down; where the read-back, a free value, fails, the newest bank stays as it was (R194, R200,
R343). A point's extension of its pair's phases and RESID's rounding are the model's reading (log 37); a slot that finds its visit still
running, the idle spare after a handback past its slot, the quiet windows, the free mean and the spoilt bank are its choice (log 63). -/
def Obligations.Carousel : Prop :=
  (∀ (s : State) (d : DieId) (k : SpareId) (x : Die) (p : Spare) (h : Channel) (q : Nat), x = s.die d → p = x.spare k →
      h = x.chan p.ch → q = s.dq d →
      (∀ t y, t = p.nextSlot k → y = x.modSpare k (fun p => { p with slotFrom := t + 1 }) →
        (p.slotFrom = 0 → t = k.val * (500 * ms)) ∧ (k.val * (500 * ms) ≤ p.slotFrom → p.slotFrom ≤ t ∧ t < p.slotFrom + sec) ∧
        t % sec = k.val * (500 * ms) ∧
        (x.on = false ∨ x.past t = false → exec (.carouselSlotStart d k) s = .next s) ∧
        (x.on = true → x.past t = true →
          (x.car.run = false ∨ s.enteringSleep d = true ∨ p.fault = true ∨ p.phase = .parked →
            exec (.carouselSlotStart d k) s = .next (s.modDie d fun _ => y)) ∧
          (x.car.run = true → s.enteringSleep d = false → p.fault = false → p.phase ≠ .parked →
            (p.retry ≠ none → exec (.carouselSlotStart d k) s = .next (s.modDie d fun _ => y.calSkip d q p.ch 2)) ∧
            (p.retry = none → p.visiting = true → exec (.carouselSlotStart d k) s = .next (s.modDie d fun _ => y)) ∧
            (p.retry = none → p.visiting = false → ∀ c, c = x.car.visit k t →
              ((x.chan c).visitable = true → exec (.carouselSlotStart d k) s = .next (s.modDie d fun _ =>
                y.modSpare k (·.start (x.chan c) c t x.aux.suspect))) ∧
              ((x.chan c).visitable = false → exec (.carouselSlotStart d k) s = .next (s.modDie d fun _ =>
                y.modSpare k fun p => { p.selfCal with slot := t })))))) ∧
      (∀ t, x.car.cycle16 = none → x.car.visit k t = ⟨(2 * (t / sec % 8) + k.val) % 16, Nat.mod_lt _ (by decide)⟩) ∧
      (∀ t a, x.car.cycle16 = some a → a ≤ t → x.car.visit k t = ⟨t / sec % 16, Nat.mod_lt _ (by decide)⟩) ∧
      (∀ (own spare : List Int) (l : List (Int × Int)) (o : Option Tick) (ok : Bool), l = own.zip spare → o = x.switchAt p.ch (x.phaseEnd p.ch (p.slot + 100 * ms)) →
        ok = h.pairsOk (max (x.phaseEnd p.ch (p.slot + 20 * ms)) x.car.cut) (x.phaseEnd p.ch (p.slot + 100 * ms)) l.length →
        (x.on = false ∨ p.phase ≠ .shadowIn ∨ (∀ tk, o = some tk → x.past tk = false) ∨ ok = false →
          exec (.carouselTakeover d k own spare) s = .next { s with free := s.free + 2 }) ∧
        (x.on = true → p.phase = .shadowIn → ok = true → ∀ tk, o = some tk → x.past tk = true → ∀ e trim m y,
          e = pairDiffs (x.ownCo d p.ch p.qty) (p.co d k p.qty) (fun _ => 0) l → trim = accMean s.free e →
          m = accMean (s.free + 1) (e.drop (e.length - h.tenMs)) - trim → y = x.modSpare k (fun p => { p with trim := trim }) →
          (m.natAbs ≤ 8192 → exec (.carouselTakeover d k own spare) s = .next { s.modDie d fun _ =>
            ((y.serveUntil d p.ch tk).modSpare k fun p => { p with phase := .serve }).modCh p.ch fun h =>
              { h with cal := { h.cal with server := k.val + 1 } } with free := s.free + 2 }) ∧
          (8192 < m.natAbs → exec (.carouselTakeover d k own spare) s = .next { s.modDie d fun _ =>
            (y.modSpare k (·.selfCal)).calSkip d q p.ch 1 with free := s.free + 2 }))) ∧
      (∀ (own spare : List Int) (l : List (Int × Int)), l = own.zip spare → (x.on = false ∨ p.phase ≠ .shadowOut →
          exec (.carouselHandback d k own spare) s = .next { s with free := s.free + 1 }) ∧
        (x.on = true → p.phase = .shadowOut →
          (∀ r e, p.mustRamp = some r → e = x.phaseEnd p.ch (r + 50 * ms) →
            (x.past e = false ∨ h.pairsOk (max r x.car.cut) e l.length = false →
              exec (.carouselHandback d k own spare) s = .next { s with free := s.free + 1 }) ∧
            (x.past e = true → h.pairsOk (max r x.car.cut) e l.length = true → ∀ n,
              n = accMean s.free (pairDiffs (x.handCo d p) (p.co d k p.qty) (fun _ => p.trim) l) →
              exec (.carouselHandback d k own spare) s = .next { s.modDie d fun _ => x.modSpare k fun p =>
                { p with ramp := some (p.trim, n, e), trim := p.trim + n } with free := s.free + 1 })) ∧
          (p.mustRamp = none → x.handAt p = none → exec (.carouselHandback d k own spare) s = .next { s with free := s.free + 1 }) ∧
          (∀ th back ok, p.mustRamp = none → x.handAt p = some th → back = (if Img.lock h.img = 2 then h.tenMs * h.step else 10 * ms) →
            ok = h.pairsOk (max (th - back) x.car.cut) th l.length →
            (x.past th = false ∨ ok = false → exec (.carouselHandback d k own spare) s = .next { s with free := s.free + 1 }) ∧
            (x.past th = true → ok = true → ∀ m, m = accMean s.free (pairDiffs (x.handCo d p) (p.co d k p.qty)
                (fun i => x.trimAt k (if Img.mcEn h.img || Img.lock h.img = 2 then th else th - 12000 * (l.length - i))) l) →
              (m.natAbs ≤ 8192 → exec (.carouselHandback d k own spare) s =
                .next { s.modDie d fun _ => x.handOver d k q th with free := s.free + 1 }) ∧
              (8192 < m.natAbs → exec (.carouselHandback d k own spare) s = .next { s.modDie d fun _ =>
                x.modSpare k fun p => { p with retry := some th } with free := s.free + 1 }))))) ∧
      (p.retry = none → p.mustRamp = none) ∧
      (p.retry = none → p.ramp = none → x.handAt p = x.switchAt p.ch (p.slot + 700 * ms)) ∧
      ∀ th y, y = ((x.serveUntil d p.ch th).modSpare k fun p => { p.selfCal with
            phase := if th < p.slot + sec then .selfCal else .idle
            visits := satInc p.visits }).modCh p.ch (fun h => { h with cal := { h.cal with server := 0 } }) →
        (p.solved = none ∨ x.aux.suspect = true → x.handOver d k q th = y) ∧
        (∀ co r temp, p.solved = some (co, r, temp) → x.aux.suspect = false → x.handOver d k q th =
          (y.modCh p.ch fun h => { h with cal := { h.cal with slice := assocSet h.cal.slice p.qty co, warm := true } }).hallmark
            d q th ⟨p.ch.val, by omega⟩ p.ch.val p.qty co temp r (srcCh d p.ch))) ∧
  ((∀ (s : State) (d : DieId) (k : SpareId) (x : Die) (p : Spare) (h : Channel) (q : Nat) (pts : List Int) (co : Coeffs) (r : Int),
      x = s.die d → p = x.spare k → h = x.chan p.ch → q = s.dq d →
      co = solvePoints s.free (point pts 0) (point pts 1) (point pts 2) → r = residual co (point pts 3) →
      (∀ (l : List (Int × Int)) (temp : Int) (e : Tick) (ok : Bool), e = x.phaseEnd p.ch (p.slot + 650 * ms) →
        ok = h.pairsOk (max (x.phaseEnd p.ch (p.slot + 600 * ms)) x.car.cut) e l.length →
        (x.on = false ∨ p.phase ≠ .serve ∨ x.past e = false ∨ ok = false →
          exec (.carouselPointsEnd d k pts l temp) s = .next { s with free := s.free + 4 }) ∧
        (x.on = true → p.phase = .serve → x.past e = true → ok = true →
          (faulty co = true → exec (.carouselPointsEnd d k pts l temp) s = .next { s.modDie d fun _ =>
            (((x.modSpare k fun p => { p with phase := .parked }).modCh p.ch fun h =>
              { h with cal := { h.cal with parked := true } }).sliceFault d q (srcCh d p.ch)).cycle16 with free := s.free + 4 }) ∧
          (faulty co = false → ∀ delta : Coeffs → Int,
            (∀ own, delta own = accMean (s.free + 3) (pairDiffs own (p.co d k p.qty) (fun _ => p.trim) l)) →
            ∀ good, good = (decide (r.natAbs ≤ 4295) && decide ((delta co).natAbs ≤ 214748)) →
            ∀ took, took = (good && x.aux.quiet (x.phaseEnd p.ch (p.slot + 150 * ms)) (x.phaseEnd p.ch (p.slot + 550 * ms))) →
            ∀ n, n = (if took then delta co else delta (x.ownCo d p.ch p.qty)) →
            ∀ y, y = x.modSpare k (fun p => { p with
              phase := .shadowOut
              solved := if took then some (co, r.natAbs, temp) else none
              ramp := some (p.trim, n, e)
              trim := p.trim + n }) →
            (took = true → exec (.carouselPointsEnd d k pts l temp) s =
              .next { s.modDie d fun _ => y with free := s.free + 4 }) ∧
            (took = false → exec (.carouselPointsEnd d k pts l temp) s =
              .next { s.modDie d fun _ => y.calReject q (srcCh d p.ch) r good with free := s.free + 4 })))) ∧
      ∀ temp, (x.on = false ∨ p.phase ≠ .selfCal ∨ x.past (p.slot + sec) = false →
          exec (.carouselSelfCalEnd d k pts temp) s = .next { s with free := s.free + 3 }) ∧
        (x.on = true → p.phase = .selfCal → x.past (p.slot + sec) = true →
          (faulty co = true → exec (.carouselSelfCalEnd d k pts temp) s = .next { s.modDie d fun _ =>
            ((x.modSpare k fun p => { p with phase := .fault, fault := true }).sliceFault d q (srcDie d)).cycle16 with
              free := s.free + 3 }) ∧
          (faulty co = false → ∀ y ok, y = x.modSpare k (fun p => { p with phase := .idle }) →
            ok = x.aux.quiet (p.slot + 750 * ms) (p.slot + sec) →
            (r.natAbs ≤ 4295 → ok = true → exec (.carouselSelfCalEnd d k pts temp) s = .next { s.modDie d fun _ =>
              (y.modSpare k fun p => { p with next := some (p.qty, co) }).hallmark d q (p.slot + sec) ⟨16 + k.val, by omega⟩
                ((k.val + 1) * 16) p.qty co temp r.natAbs (srcDie d) with free := s.free + 3 }) ∧
            (4295 < r.natAbs ∨ ok = false → exec (.carouselSelfCalEnd d k pts temp) s = .next { s.modDie d fun _ =>
              y.calReject q (srcDie d) r (decide (r.natAbs ≤ 4295)) with free := s.free + 3 })))) ∧
    (∀ co : Coeffs, faulty co = true ↔ 2 ^ 30 < 100 * (co.gain - 2 ^ 30).natAbs ∨ 2 ^ 24 < co.offset.natAbs) ∧
    (∀ (k : Die) (q src : Nat) (r : Int), (k.calReject q src r true) = { k with car := { k.car with
      rejectCnt := satInc k.car.rejectCnt } }) ∧
    (∀ n : NvStore, n.spoilWarm.bankA = n.bankA ∧ n.spoilWarm.bankB = n.bankB ∧ n.spoilWarm.keyA = n.keyA ∧ n.spoilWarm.keyB = n.keyB ∧
      ∀ a b, n.warmA = some a → n.warmB = some b →
        (a.1 < b.1 → n.spoilWarm.warmA = none ∧ n.spoilWarm.warmB = some b) ∧
        (b.1 ≤ a.1 → n.spoilWarm.warmA = some a ∧ n.spoilWarm.warmB = none)) ∧
    ∀ (s : State) (hour : Nat) (some' : Bool), hour = s.clk.now / (3600 * sec) * (3600 * sec) →
      some' = (s.presentDies.any fun d => (s.die d).car.persist) →
      (s.power.step = 0 → s.variant.dual = false → s.takeRole false = some s) ∧ (s.power.step ≠ 0 → s.takeRole false = none) ∧
      (s.serving = true → some' = true → s.clk.now ≤ hour + sec → s.core.warmAt ≠ some hour →
        (∀ t, s.takeRole false = some t →
          (Config.storeOk s.free = true → exec .warmStartWrite s = .next (State.commit s
            ((t.tickFree.putStore fun n => n.storeWarm (s.warmSet s.act.nv.warm)).modCore fun c => { c with warmAt := some hour }))) ∧
          (Config.storeOk s.free = false → exec .warmStartWrite s = .next (State.commit s
            ((t.tickFree.putStore fun n => n.spoilWarm).modCore fun c => { c with warmAt := some hour })))) ∧
        (s.takeRole false = none → exec .warmStartWrite s = .next s)) ∧
      (s.serving = false ∨ some' = false ∨ hour + sec < s.clk.now ∨ s.core.warmAt = some hour →
        exec .warmStartWrite s = .next s))

/-- PWM and groups (R59, R233, R236, R237, R240): a period begins at its instant, less the compensation of the edge that it makes, with
the PERIOD and DUTY stored, and entries that waited for it retire; the output goes low at the end of the high phase, unless the low phase
would be too short, which is omitted and counted, or does not come, because a cut falls in the high phase; every 1 ms
a group's share is compared, ten bad comparisons in a row of one member begin an imbalance and ten good ones end it. FSK (R246 to R248,
R252): at tw the carrier stops and the window opens; a carrier is noticed in the modes with FSK; an octet in the window is
stored as received, with its errors, and beyond NRX only counted; without a carrier the entry times out with STATUS 5; the
carrier's end, NRX octets or the span's end ends the reception, and its record says whether reception was cut. That p_k and the high
phase's end come before their instants, SHARE's rounding and the carrier's end as the row that ends reception are the model's reading
(log 40); that ten comparisons count for each member is its choice (log 72). -/
def Obligations.PwmAndFsk : Prop :=
  (∀ (s : State) (ch : Chan) (d : Die) (k : Channel), d = s.die ch.die → k = d.chan ch.c →
      (∀ t ok, k.out.nextPk = some t → ok = decide ((t : Int) - d.periodLead ch.die ch.c ≤ d.replica) →
        (d.on = true → ok = true → k.mode = 10 → k.out.run = true → k.trans = none → d.outWaits ch.c t = false → exec (.pwmPeriodStart ch) s =
          .next (s.modDie ch.die fun _ => (d.modCh ch.c fun k => { k with
            out := k.out.beginPeriod (minPhase (Img.slew (d.govern ch.c))) t (d.cutAfter ch.c t) }).close
              (fun e => e.phase == .active && decide (e.ch.c = ch.c) && (e.e.op == 4 || e.e.op == 5) && !e.e.readback) .executed)) ∧
        (d.on = false ∨ ok = false ∨ k.mode ≠ 10 ∨ k.out.run = false ∨ k.trans ≠ none ∨ d.outWaits ch.c t = true →
          exec (.pwmPeriodStart ch) s = .next s) ∧
        ∀ v, v = (k.out.beginPeriod (minPhase (Img.slew (d.govern ch.c))) t (d.cutAfter ch.c t)).value →
          (v = k.out.value → d.periodLead ch.die ch.c = 0) ∧
          (v ≠ k.out.value → d.periodLead ch.die ch.c = d.comp ch.die ch.c (v == 1))) ∧
      (k.out.nextPk = none → exec (.pwmPeriodStart ch) s = .next s) ∧
      (∀ ok, ok = decide ((k.out.hEnd : Int) - d.comp ch.die ch.c false ≤ d.replica) →
        (d.on = true → k.mode = 10 → k.out.run = true → k.out.value = 1 → k.out.hEnd < k.out.pk + k.out.period → ok = true →
          (d.lowLen ch.c = 0 → exec (.pwmDutyEnd ch) s = .next (s.modDie ch.die fun _ => d.modCh ch.c fun k => k)) ∧
          (minPhase (Img.slew (d.govern ch.c)) ≤ d.lowLen ch.c → 0 < d.lowLen ch.c → exec (.pwmDutyEnd ch) s = .next (s.modDie ch.die fun _ => d.modCh ch.c fun k =>
            { k with out := { k.out with value := 0, edge := some (k.out.hEnd, false) } })) ∧
          (0 < d.lowLen ch.c → d.lowLen ch.c < minPhase (Img.slew (d.govern ch.c)) → exec (.pwmDutyEnd ch) s = .next (s.modDie ch.die fun _ => d.modCh ch.c fun k =>
            { k with out := { k.out with hEnd := k.out.pk + k.out.period, clip := satInc k.out.clip } }))) ∧
        (d.cutAfter ch.c k.out.pk = none → d.lowLen ch.c = k.out.pk + k.out.period - k.out.hEnd) ∧
        (∀ c, d.cutAfter ch.c k.out.pk = some c → d.lowLen ch.c = min c (k.out.pk + k.out.period) - k.out.hEnd) ∧
        (d.on = false ∨ k.mode ≠ 10 ∨ k.out.run = false ∨ k.out.value ≠ 1 ∨ k.out.pk + k.out.period ≤ k.out.hEnd ∨ ok = false →
          exec (.pwmDutyEnd ch) s = .next s)) ∧
      (∀ t m, (k.out.beginPeriod m t none).pk = t ∧ (k.out.beginPeriod m t none).nextPk = some (t + k.out.period) ∧
        (k.out.duty = 0 → (k.out.beginPeriod m t none).value = 0) ∧
        ∀ cut e stop high, e = t + pwmHigh k.out.period k.out.duty →
          stop = (match cut with | some x => min x (t + k.out.period) | none => t + k.out.period) → high = min e stop - t →
          (0 < high → high < m → (k.out.beginPeriod m t cut).value = 0 ∧ (k.out.beginPeriod m t cut).hEnd = t ∧
            (k.out.beginPeriod m t cut).clip = satAdd k.out.clip (if 0 < stop - e ∧ stop - e < m then 2 else 1)) ∧
          (0 < high → m ≤ high → (k.out.beginPeriod m t cut).value = 1 ∧ (k.out.beginPeriod m t cut).hEnd = e ∧
            (k.out.beginPeriod m t cut).clip = k.out.clip)) ∧
      ∀ xs : List Nat, ((∃ t, k.out.shareAt = some t ∧ s.clk.elapsed < t + ms) ∨ k.group ≠ some ch.c ∨ k.out.high = false ∨ xs.length ≠ (d.unit ch.c).length ∨
          xs.sum < 100000 * (d.unit ch.c).length → exec (.shareCompare ch xs) s = .next s) ∧
        ((∀ t, k.out.shareAt = some t → t + ms ≤ s.clk.elapsed) → k.group = some ch.c → k.out.high = true → xs.length = (d.unit ch.c).length →
          100000 * (d.unit ch.c).length ≤ xs.sum → ∀ bad good,
          bad = (xs.zipIdx.map fun p => if 15 * xs.sum < 100 * Int.natAbs ((xs.length * p.1 : Nat) - (xs.sum : Int)) then
            k.out.shareBad.getD p.2 0 + 1 else 0) →
          good = (if xs.all fun x => decide (100 * Int.natAbs ((xs.length * x : Nat) - (xs.sum : Int)) ≤ 12 * xs.sum) then
            k.out.shareGood + 1 else 0) →
          ∀ b, b = (if k.out.imbal then decide (good < 10) else bad.any fun x => decide (10 ≤ x)) →
          ∀ u, u = d.modCh ch.c (fun k => { k with out := { k.out with
            shareBad := bad, shareGood := good, imbal := b, shareAt := some s.clk.elapsed
            share := BitVec.ofNat 32 (putFld (min (worstShare xs).1 65535) 0 16 + putFld (ch.c.val + (worstShare xs).2) 16 4) } }) →
          (b = k.out.imbal → exec (.shareCompare ch xs) s = .next (s.modDie ch.die fun _ => u)) ∧
          (b ≠ k.out.imbal → exec (.shareCompare ch xs) s = .next (s.modDie ch.die fun _ =>
            u.evCh ch (s.dq ch.die) .shareImbalance b (leBytes 2 (maskOf (d.unit ch.c)) ++ leBytes 1 (ch.c.val + (worstShare xs).2)))))) ∧
  ((∀ (s : State) (ch : Chan) (d : Die) (k : Channel), d = s.die ch.die → k = d.chan ch.c →
      (k.fsk.run = none → exec (.fskTransmitEnd ch) s = .next s ∧ exec (.fskTimeout ch) s = .next s ∧
        (∀ o p f t, exec (.fskOctetReceive ch o p f t) s = .next (s.modDie ch.die fun _ => d.modCh ch.c fun k => { k with
          fsk := if k.fsk.overrun then { k.fsk with beyond := satTo 255 (k.fsk.beyond + 1) } else k.fsk })) ∧
        ∀ c, exec (.fskReceptionEnd ch c) s = .next (s.modDie ch.die fun _ =>
          d.modCh ch.c fun k => { k with fsk := { k.fsk with cd := c, overrun := k.fsk.overrun && c } })) ∧
      (k.mode = 3 ∨ k.mode = 11 → Img.fskOn k.img = true → exec (.fskCarrierDetect ch) s = .next (s.modDie ch.die fun _ =>
        d.modCh ch.c fun k => { k with fsk := { k.fsk with
          cd := true, run := k.fsk.run.map fun r => { r with carrier := r.carrier || k.fsk.rx } } })) ∧
      ((k.mode ≠ 3 ∧ k.mode ≠ 11) ∨ Img.fskOn k.img = false → exec (.fskCarrierDetect ch) s = .next s) ∧
      ∀ r, k.fsk.run = some r →
        (d.past r.tw = true → k.fsk.tx = true → exec (.fskTransmitEnd ch) s = .next (s.modDie ch.die fun _ =>
          d.modCh ch.c fun k => { k with fsk := { k.fsk with
            tx := false, rx := true, run := some { r with carrier := r.carrier || k.fsk.cd, q := s.qualityOf r.tw } } })) ∧
        (d.past r.tw = false ∨ k.fsk.tx = false → exec (.fskTransmitEnd ch) s = .next s) ∧
        (∀ o p f t, (k.fsk.rx = false → exec (.fskOctetReceive ch o p f t) s = .next s) ∧
          (k.fsk.rx = true → ∀ e, d.queued r.id = some e → exec (.fskOctetReceive ch o p f t) s = .next (s.modDie ch.die fun _ =>
            d.modCh ch.c fun k => { k with fsk := k.fsk.octet e.e.nrx o p f t (s.qualityOf t) }))) ∧
        (∀ e, d.queued r.id = some e →
          (k.fsk.rx = true → r.carrier = false → d.past (r.tw + e.e.tmo * bitTime) = true →
            exec (.fskTimeout ch) s = .next (s.modDie ch.die fun _ => d.endFsk ch false true)) ∧
          (k.fsk.rx = false ∨ r.carrier = true ∨ d.past (r.tw + e.e.tmo * bitTime) = false →
            exec (.fskTimeout ch) s = .next s)) ∧
        (∀ e, d.queued r.id = some e → d.fskOver r false = true ∧
          (d.fskOver r true = true ↔ e.e.nrx ≤ r.octets.length ∨ d.past e.plan.hi = true) ∧
          (e.e.nrx ≤ r.octets.length → ∀ c, d.fskCut r c = c) ∧
          (r.octets.length < e.e.nrx → ∀ c, d.fskCut r c = d.past e.plan.hi)) ∧
        ∀ c u, u = d.modCh ch.c (fun k => { k with fsk := { k.fsk with cd := c, overrun := k.fsk.overrun && c } }) →
          (k.fsk.rx = true → r.carrier = true → d.fskOver r c = true → exec (.fskReceptionEnd ch c) s =
            .next (s.modDie ch.die fun _ => (u.endFsk ch (d.fskCut r c) false).modCh ch.c fun k => { k with fsk := { k.fsk with
              overrun := c && (d.queued r.id).all fun e => decide (e.e.nrx ≤ r.octets.length) } })) ∧
          (k.fsk.rx = false ∨ r.carrier = false ∨ d.fskOver r c = false →
            exec (.fskReceptionEnd ch c) s = .next (s.modDie ch.die fun _ => u))) ∧
    (∀ (f : Fsk) (r : FskRun) (n : Nat) (o : Byte) (p e : Bool) (t : Tick) (q : Nat), f.run = some r →
      (n ≤ r.octets.length → f.octet n o p e t q = { f with beyond := satTo 255 (f.beyond + 1) }) ∧
      (r.octets.length < n → ∃ x, (f.octet n o p e t q).run = some x ∧ x.octets = r.octets ++ [o] ∧ x.carrier = true ∧
        x.parity = (r.parity || p) ∧ x.framing = (r.framing || e) ∧ (f.octet n o p e t q).beyond = f.beyond ∧
        (r.time0 = none → x.time0 = some t ∧ x.q = q) ∧ (r.time0 ≠ none → x.time0 = r.time0 ∧ x.q = r.q))) ∧
    ∀ (d : Die) (ch : Chan) (cut tmo : Bool) (r : FskRun) (e : Entry), (d.chan ch.c).fsk.run = some r →
      d.queued r.id = some e → ∃ u : Die, (u.chan ch.c).fsk.run = none ∧ d.endFsk ch cut tmo =
        { u.finish r.id .executed with fifo := (d.fifo ++ [LaneItem.result r.id (fskWords e.octets r.octets r cut) (r.time0.getD r.tw) r.q
          r.octets.length (if tmo then 5 else 0)]).take 1024 })

/-- Epochs and metering (R27, R257, R258, R267): at an epoch boundary the metered energy leaves the reservoir, 12,000 units
of 0.01 credit arrive, and what does not fit overflows; each millisecond the heat of every channel, computed from
what the die measures (R251), and Fd_LP are compared with the charges, and
an excess in its tenth millisecond is an overdraw and raises the charge. The operating point (R272, R339 to R341): a hub
wants a point by its busy share and by the free credits, held within PT.MIN and PT.MAX, with an episode where that is
clipped or in conflict; a change that may begin is requested; a confirmation puts the point and its charge in force; without
one in 1 ms the change is abandoned. A draw of at most the level, the lower point's priority and the timeout of 1 ms, and 4 µs with PSEL,
are the model's reading (log 42); that a hub adapts and a die meters once in 1 ms of elapsed ticks is its choice (log 34). -/
def Obligations.LedgerEpochsAndPoints : Prop :=
  ((∀ (s : State) (d : DieId) (k : Die) (n : Nat), k = s.die d →
      (k.present = true → k.isoPower = true → k.led.epoch * iv ≤ k.replica → exec (.ledgerEpoch d n) s =
        .next (State.commit s (((s.modDie d fun _ => { k with led := k.led.epochStep n }).modCore
          (·.prunePlan d (k.led.epoch * iv))).settlePools d))) ∧
      (k.present = false ∨ k.isoPower = false ∨ k.replica < k.led.epoch * iv → exec (.ledgerEpoch d n) s = .next s)) ∧
    (∀ (l : DieLedger) (n : Nat), l.level ≤ 60000 →
      (l.epochStep n).level ≤ 60000 ∧ (l.epochStep n).refilled = l.refilled + 12000 ∧ (l.epochStep n).epoch = l.epoch + 1 ∧
      (l.epochStep n).drawn = l.drawn + min n l.level ∧
      (l.epochStep n).level + (l.epochStep n).drawn + (l.epochStep n).overflowed + l.refilled =
        l.level + l.drawn + l.overflowed + (l.epochStep n).refilled ∧
      (l.level - min n l.level ≤ 48000 → (l.epochStep n).overflowed = l.overflowed)) ∧
    ∀ (s : State) (d : DieId) (k : Die) (m : HeatSample), k = s.die d →
      (k.on = false ∨ (∃ t, k.led.meterAt = some t ∧ s.clk.elapsed < t + ms) → exec (.heatMetering d m) s = .next s) ∧
      (k.on = true → (∀ t, k.led.meterAt = some t → t + ms ≤ s.clk.elapsed) → ∀ h bad l, h = (fun c : ChanId => k.heatNow m c) →
        bad = (fun c => decide (11 * (k.chan c).chgHeat < 10 * h c)) → l = decide (1000 * k.led.vd + 500 < m.lpMv) →
        ∀ hit u, hit = allC.filter (fun c => bad c && (k.chan c).overMs == 9) →
        u = { k with
          led := { k.led with lpMs := if l then min 10 (k.led.lpMs + 1) else 0, meterAt := some s.clk.elapsed }
          chans := Vector.ofFn fun c => { k.chan c with overMs := if bad c then min 10 ((k.chan c).overMs + 1) else 0 } } →
        ∀ v, v = hit.foldl (fun x c => x.overdraw (srcCh d c) (s.dq d)) u →
        exec (.heatMetering d m) s = .next (State.commit s (hit.foldl (fun t c => t.chargeMetered ⟨d, c⟩ (h c))
          (s.modDie d fun _ => if l && k.led.lpMs == 9 then v.overdraw (srcDie d) (s.dq d) else v))))) ∧
  ((∀ (s : State) (h : HubId) (x : Hub) (l : LedgerRegs) (n : Nat), x = s.hub h → l = s.ledgerOf h →
      (x.present = false ∨ x.up = false ∨ s.power.boot ≠ .complete ∨
          (∃ t, x.adjAt = some t ∧ s.clk.elapsed < t + ms) → exec (.operatingPointAdjust h n) s = .next s) ∧
      (x.present = true → x.up = true → s.power.boot = .complete →
          (∀ t, x.adjAt = some t → t + ms ≤ s.clk.elapsed) →
        ∀ v, v = s.modHub h (fun y => { y with adjAt := some s.clk.elapsed }) → ∀ w, w = wantPoint x.point n s.pkgPool.free →
        ∀ g u, g = max l.ptMax (min l.ptMin (w.getD x.point)) →
        (w = none → u = v) → (∀ t, w = some t → (t < l.ptMax → u = v.policyEvent h true) ∧
          (l.ptMax ≤ t → l.ptMin < t → u = v.policyEvent h false) ∧ (l.ptMax ≤ t → t ≤ l.ptMin → u = v)) →
        (g ≠ x.point → x.change = none → x.changeHold ≤ s.clk.elapsed → (x.point < g ∨ v.pointFits h g = true) →
          exec (.operatingPointAdjust h n) s = .next (State.commit s
            (u.modHub h (·.startChange g s.clk.elapsed s.power.straps.psel)).settlePackage)) ∧
        (g = x.point ∨ x.change ≠ none ∨ s.clk.elapsed < x.changeHold ∨ (g ≤ x.point ∧ v.pointFits h g = false) →
          exec (.operatingPointAdjust h n) s = .next (State.commit s u)))) ∧
    (∀ p b f : Nat, (wantPoint p b f = some (p + 1) ↔ (b < 25 ∨ f < 1250) ∧ p < 2) ∧
      (25 ≤ b → 1250 ≤ f → b ≤ 75 → wantPoint p b f = none) ∧ (75 < b → 1250 ≤ f → 0 < p → wantPoint p b f = some (p - 1))) ∧
    ∀ (s : State) (h : HubId) (x : Hub), x = s.hub h →
      (∀ c o, o = (if c then x.clipEp else x.confEp) →
        (o = none → exec (.policyEpisodeEnd h c) s = .next s) ∧
        ∀ t, o = some t →
          (s.clk.elapsed < t + 100 * ms → exec (.policyEpisodeEnd h c) s = .next s) ∧
          (t + 100 * ms ≤ s.clk.elapsed → exec (.policyEpisodeEnd h c) s = .next (s.modHub h fun x =>
            if c then { x with clipEp := none } else { x with confEp := none }))) ∧
      (∀ p a b, x.change = some (p, a, b) → ∀ u, u = (s.modHub h fun x => { x with point := p, held := p, change := none }).settlePackage →
        (s.power.straps.psel = false → exec (.voltageConfirm h) s = .next (State.commit s u)) ∧
        (s.power.straps.psel = true → exec (.vreqAck h) s = .next (State.commit s u)) ∧
        ∀ e, e = (a + ms + if s.power.straps.psel then 4 * us else 0) →
          (s.clk.elapsed < e → exec (.vreqTimeout h) s = .next s) ∧
          (e ≤ s.clk.elapsed → exec (.vreqTimeout h) s = .next (State.commit s
            (((s.modHub h fun x => { x with
              change := none
              changeHold := if s.power.straps.psel then s.clk.elapsed + 10 * ms else x.changeHold
              vreqTo := if s.power.straps.psel then satInc x.vreqTo else x.vreqTo }).settlePackage).raise h .vreqTimeout s.clk.now
                false [])))) ∧
      (x.change = none → exec (.vreqTimeout h) s = .next s ∧ (s.power.straps.psel = false → exec (.voltageConfirm h) s =
        .next (State.commit s s)) ∧ (s.power.straps.psel = true → exec (.vreqAck h) s = .next (State.commit s s))) ∧
      (s.power.straps.psel = true → exec (.voltageConfirm h) s = .next s) ∧
      (s.power.straps.psel = false → exec (.vreqAck h) s = .next s))

/-- The handshake and the entry (R329 to R331, R337): a block that must refuse, or refuses, ends the request with its
reason; one that must delay, or delays, changes nothing; the last grant is tg; a block that still delays after 10 ms refuses
with reason 4; at tc the entry begins and 4 µs later it is complete, for a die or for the package, with the yo-yo wake of a
level seen between. Wake sources (R333 to R338): WAKE_N, the alarm, link energy and the wake pattern are each a wake event
under their own conditions; an event that is not enabled, or does not act in the target state, is nothing; before tc it
aborts the entry, in the commit window a level is a yo-yo wake, and from te on it starts the wake; at tw the die, or the
package, is in Run, a die that was in Deep Sleep once its lane has trained or FAILED; the response to a package request that has not left
by tc is lost (R391). Which blocks answer from the state, and a wake of a die answered at once, is the model's reading (log 47); the
times of a wake and the order within it are its choice (log 48). -/
def Obligations.PowerHandshakeAndWake : Prop :=
  (∀ s : State,
      (s.power.req = none → (∀ b a, exec (.powerHandshakeAnswer b a) s = .next s) ∧ exec .powerHandshakeTimeout s = .next s ∧
        exec .commitStart s = .next s ∧ exec .entryComplete s = .next s) ∧
      ∀ r, s.power.req = some r →
        (∀ b a, (r.tc ≠ none ∨ b ∉ s.pwrBlocks r ∨ b ∈ r.granted → exec (.powerHandshakeAnswer b a) s = .next s) ∧
          (r.tc = none → b ∈ s.pwrBlocks r → b ∉ r.granted →
            (∀ n, s.mustRefuse r b = some n → exec (.powerHandshakeAnswer b a) s = .next (State.commit s (s.refusePower r b n))) ∧
            (s.mustRefuse r b = none →
              (s.mustDelay b = true ∨ a = .delay → exec (.powerHandshakeAnswer b a) s = .next s) ∧
              (s.mustDelay b = false →
                (∀ n, a = .refuse n → exec (.powerHandshakeAnswer b a) s = .next (State.commit s (s.refusePower r b n.toNat))) ∧
                (a = .grant → ∀ g u, g = { r with granted := r.granted ++ [b] } →
                  u = { s with power := { s.power with req := some g } } →
                  ((∀ x ∈ s.pwrBlocks r, x ∈ g.granted) → exec (.powerHandshakeAnswer b a) s =
                    .next (State.commit s (u.grantPower g))) ∧
                  ((∃ x ∈ s.pwrBlocks r, x ∉ g.granted) → exec (.powerHandshakeAnswer b a) s = .next u)))))) ∧
        (r.tc ≠ none ∨ s.clk.elapsed < r.tq + 10 * ms ∨ (∀ b ∈ s.pwrBlocks r, b ∈ r.granted) →
          exec .powerHandshakeTimeout s = .next s) ∧
        (r.tc = none → r.tq + 10 * ms ≤ s.clk.elapsed → ∀ b, (s.pwrBlocks r).find? (fun b => !r.granted.contains b) = some b →
          exec .powerHandshakeTimeout s = .next (State.commit s (s.refusePower r b 4))) ∧
        (r.tc = none ∨ r.te ≠ none ∨ (∃ tc, r.tc = some tc ∧ s.clk.now < tc) → exec .commitStart s = .next s) ∧
        (∀ tc, r.tc = some tc → r.te = none → tc ≤ s.clk.now → exec .commitStart s =
          .next (State.commit s { s.loseAnswer r with power := { s.power with req := some { r with te := some (tc + 4 * us) } } })) ∧
        (r.die ≠ none ∨ r.req = none → s.loseAnswer r = s) ∧
        (∀ q m, r.die = none → r.req = some q → m.answersPower q = true → m ∉ (s.loseAnswer r).core.spi.tunnel ∧
          (∀ p : PortId, ∀ x ∈ (s.loseAnswer r).net.egress[p.val], x.2 ≠ .zcs m) ∧
          ∀ x ∈ (s.loseAnswer r).mirror.held, ∀ w, x.2 ≠ .response m w) ∧
        (∀ d, (s.die d).pwr = .deepSleep → s.mustDelay (.die d) = false) ∧
        (r.te = none → exec .entryComplete s = .next s) ∧
        ∀ te, r.te = some te →
          (s.clk.now < te → exec .entryComplete s = .next s) ∧
          (te ≤ s.clk.now →
            (∀ d, r.die = some d → ∀ u, u = ((s.clearReq.sleepDie r.target d).settlePools d).raiseSrc .pwrEntry te (srcDie d) false [] none →
              (r.yoyo = none → exec .entryComplete s = .next (State.commit s u)) ∧
              (∀ src, r.yoyo = some src → exec .entryComplete s = .next (State.commit s
                (({ u.modDie d (fun k => { k with pwrBusy := true }) with power := { u.power with
                  waking := some (src, some d, true)
                  yoyoCnt := satInc u.power.yoyoCnt } } : State).raise s.active .yoyoWake te false (leBytes 1 src))))) ∧
            (r.die = none → ∀ u, u = (s.clearReq.sleepPackage r.target te).settlePackage →
              (r.yoyo = none → exec .entryComplete s = .next (State.commit s u)) ∧
              (∀ src, r.yoyo = some src → exec .entryComplete s = .next (State.commit s { u with power := { u.power with
                waking := some (src, none, true)
                yoyoCnt := satInc u.power.yoyoCnt
                heldEvs := u.power.heldEvs ++ [(.yoyoWake, te, leBytes 1 src)] } }))))) ∧
  ((∀ s : State,
      (∀ low t, t = { s with power := { s.power with wakeN := low } } →
        (low = false ∨ (s.sourceLevel 0 = false ∧ s.power.wakeN = true) → exec (.wakeNEvent low) s = .next t) ∧
        (low = true → (s.sourceLevel 0 = true ∨ s.power.wakeN = false) →
          (s.power.boot = .down → s.sourceOn 0 = true → exec (.wakeNEvent low) s = .next (t.startUp s.power.straps true)) ∧
          (s.power.boot = .down → s.sourceOn 0 = false → exec (.wakeNEvent low) s = .next t) ∧
          (s.power.boot ≠ .down → exec (.wakeNEvent low) s = .next (t.wakeEvent 0 (s.sourceLevel 0))))) ∧
      (s.alarmSeen = true → exec .alarmWake s = .next (s.wakeEvent 1 (s.sourceLevel 1))) ∧
      (s.alarmSeen = false → exec .alarmWake s = .next s) ∧
      (s.alarmClock < s.core.pwr.alarm → s.alarmSeen = false) ∧
      (s.core.pwr.alarm ≤ s.alarmClock → s.sourceLevel 1 = true → s.alarmSeen = true) ∧
      (s.power.st ≠ .deepSleep → s.alarmClock = s.clk.now) ∧
      (∀ p x, x = s.net.ports[p.val] →
        ∀ v : Option Nat → State, (∀ o, v o = { s with net := { s.net with ports := vmod s.net.ports p fun y => { y with energyOff := o } } }) →
        (s.portThere p = false ↔ p = 1 ∧ s.variant.dPart = true ∧ s.variant.dual = false) ∧
        (s.portThere p = false → (∀ b, exec (.linkEnergyWake p b) s = .next s) ∧ ∀ b pl, exec (.wakePattern p b pl) s = .next s) ∧
        (s.portThere p = true → x.linkAtTq = false → exec (.linkEnergyWake p true) s = .next ((v none).wakeEvent (2 + p.val) true)) ∧
        (s.portThere p = true → x.linkAtTq = true → s.power.sleepFrom ≠ none → s.power.req = none → ∀ t, x.energyOff = some t →
          (t + 10 * ms ≤ s.clk.elapsed → exec (.linkEnergyWake p true) s = .next ((v none).wakeEvent (2 + p.val) true)) ∧
          (s.clk.elapsed < t + 10 * ms → exec (.linkEnergyWake p true) s = .next (v none))) ∧
        (s.portThere p = true → x.linkAtTq = true → s.power.sleepFrom = none ∨ s.power.req ≠ none ∨ x.energyOff = none →
          exec (.linkEnergyWake p true) s = .next (v none)) ∧
        (s.portThere p = true → s.power.st = .sleep → x.energyOff = none → exec (.linkEnergyWake p false) s = .next (v (some s.clk.elapsed))) ∧
        (s.power.st ≠ .sleep ∨ x.energyOff ≠ none → exec (.linkEnergyWake p false) s = .next s)) ∧
      (∀ p b pl, (s.portThere p = true → (s.net.ports[p.val]).link = true → b = true → holdsToken s.core.pwr.token pl = true →
          exec (.wakePattern p b pl) s =
          .next (s.wakeEvent (4 + p.val) false)) ∧
        ((s.net.ports[p.val]).link = false ∨ b = false ∨ holdsToken s.core.pwr.token pl = false → exec (.wakePattern p b pl) s = .next s)) ∧
      (s.power.waking = none → exec .wakeComplete s = .next s) ∧
      (∀ src d y, s.power.waking = some (src, some d, y) →
        (s.dieReady d = true → exec .wakeComplete s = .next (State.commit s
          (State.wakeDies { s with power := { s.power with waking := none, lastWake := (src, y) } } [d]))) ∧
        (s.dieReady d = false → exec .wakeComplete s = .next s)) ∧
      (∀ d, s.dieReady d = false ↔ (s.die d).pwr = .deepSleep ∧ (s.lane s.active d).st = .training) ∧
      (∀ src y, s.power.waking = some (src, none, y) →
        (s.power.st = .sleep ∨ s.power.st = .deepSleep → exec .wakeComplete s = .next (State.commit s (s.wakePackage src y))) ∧
        (s.power.st ≠ .sleep → s.power.st ≠ .deepSleep → ∀ t, t = s.wakeDies (s.stillLow.filter s.dieReady) →
          (t.stillLow = [] → exec .wakeComplete s =
            .next (State.commit s { t with power := { t.power with waking := none } })) ∧
          (t.stillLow ≠ [] → exec .wakeComplete s = .next (State.commit s t))))) ∧
    (∀ (s : State) (src : Nat) (lv : Bool),
      (s.sourceOn src = false ∨ sourceActs src s.power.target = false → s.wakeEvent src lv = s) ∧
      (s.sourceOn src = true → sourceActs src s.power.target = true →
        (∀ r, s.power.req = some r → r.tc = none → s.wakeEvent src lv = State.commit s (s.abortPower r src)) ∧
        (∀ r tc, s.power.req = some r → r.tc = some tc →
          (s.clk.now < tc → s.wakeEvent src lv = State.commit s (s.abortPower r src)) ∧
          (tc ≤ s.clk.now → s.clk.now < tc + 4 * us → (lv = true → r.yoyo = none → s.wakeEvent src lv =
              { s with power := { s.power with req := some { r with yoyo := some src } } }) ∧
            (lv = false ∨ r.yoyo ≠ none → s.wakeEvent src lv = s)) ∧
          (tc + 4 * us ≤ s.clk.now → s.wakeEvent src lv = (s.completeEntry r (tc + 4 * us)).startWake src)) ∧
        (s.power.req = none → s.power.step ≠ 0 → lv = false ∨ s.power.failure = true → s.wakeEvent src lv = s) ∧
        (s.power.req = none → s.power.step = 0 → s.wakeEvent src lv = s.startWake src)) ∧
      ((s.power.st = .sleep ∨ s.power.st = .deepSleep) → s.power.waking = none →
        s.startWake src = { s with power := { s.power with waking := some (src, none, false) } }) ∧
      ((s.power.st ≠ .sleep ∧ s.power.st ≠ .deepSleep) ∨ s.power.waking ≠ none → s.startWake src = s)) ∧
    ∀ src, (sourceActs src .sleep = true ↔ src ≤ 3) ∧ (sourceActs src .deepSleep = true ↔ src ≤ 1 ∨ src = 4 ∨ src = 5) ∧
      (sourceActs src .off = true ↔ src = 0))

/-- Power-up and power-down (R342 to R344, R348, R421, R422): POWER_UP from Off reads the straps; with a TEST strap it holds the device in
reset, all but the non-volatile stores as reset leaves it and every hub stopped; its completion is Run; a power failure begins a
power-down, or turns a requested one into one that fails too; each step of a power-down is recorded in DOWN_EVENT, and a failure skips
step 2. That step 2 lasts 1 ms at least, while no time is asked of the other steps, is the model's choice (log 48). -/
def Obligations.PowerUpAndDown : Prop :=
  (∀ s : State,
    (∀ st, (s.power.boot = .unpowered ∨ s.power.boot = .down →
        (st.test = true → exec (.powerUp st) s = .next (s.holdInReset st) ∧ (s.holdInReset st).power.boot = .heldInReset ∧
          (s.holdInReset st).power.straps = st ∧ (s.holdInReset st).pending = s.pending ∧ (s.holdInReset st).core.entries = [] ∧
          (s.holdInReset st).dies = (State.resetOf s.variant).dies ∧
          ∀ h, ((s.holdInReset st).hub h).up = false ∧ ((s.holdInReset st).hub h).nv = (s.hub h).nv) ∧
        (st.test = false → exec (.powerUp st) s = .next (s.startUp st false))) ∧
      (s.power.boot ≠ .unpowered → s.power.boot ≠ .down → exec (.powerUp st) s = .next s)) ∧
    (s.power.boot ≠ .starting → exec .powerUpComplete s = .next s) ∧
    (s.power.boot = .starting → ∀ t, t = State.logHeld { s with power := { s.power with boot := .complete, st := .run } } →
      exec .powerUpComplete s = .next (t.presentDies.foldl State.settlePools t.settlePackage)) ∧
    (s.power.boot = .unpowered → exec .powerFailure s = .next s) ∧
    (s.power.boot = .heldInReset ∨ s.power.boot = .down →
      exec .powerFailure s = .next { s with power := { s.power with boot := .unpowered } }) ∧
    (s.power.boot = .starting ∨ s.power.boot = .complete →
      (s.power.step = 0 → exec .powerFailure s = .next (State.beginDown
        { s with power := { s.power with req := none, waking := none, failure := true } } 2)) ∧
      (s.power.step ≠ 0 → ∃ w, exec .powerFailure s = .next { s with power := { s.power with failure := true, downEvent := w } } ∧
        w % 16 = s.power.downEvent % 16 ∧ (s.power.downEvent / 16 % 4 = 1 → w / 16 % 4 = 3))) ∧
    ∀ c, c = s.power.downEvent / 16 % 4 →
      (s.power.step = 0 ∨ 5 ≤ s.power.step → exec .powerDownStep s = .next s) ∧
      (s.power.step = 1 → s.power.failure = false → exec .powerDownStep s = .next (s.presentDies.foldl (fun (x : State) d =>
        x.modDie d fun k => k.setCauses d (s.dq d) 5 allC) (s.noteDown 2 c))) ∧
      (s.power.step = 2 → s.power.failure = false → s.clk.elapsed < s.power.stepAt + ms → exec .powerDownStep s = .next s) ∧
      ((s.power.step = 1 ∧ s.power.failure = true) ∨ (s.power.step = 2 ∧ (s.power.failure = true ∨
        s.power.stepAt + ms ≤ s.clk.elapsed)) → exec .powerDownStep s = .next { s.noteDown 3 c with dies := s.dies.map Die.unpower }) ∧
      (s.power.step = 3 → ∀ t, t = s.noteDown 4 c → exec .powerDownStep s = .next { t with hubs := t.hubs.map fun (h : Hub) =>
        if h.present then { h with log := h.log.flush s.clk.elapsed } else h }) ∧
      (s.power.step = 4 → exec .powerDownStep s = .next (s.noteDown 5 c).railsDown)) ∧
  (∀ (s : State) (n c : Nat), n ≤ 5 → c ≤ 3 → (s.noteDown n c).power.step = n ∧ (s.noteDown n c).power.downEvent % 8 = n ∧
    (s.noteDown n c).power.downEvent / 16 % 4 = c ∧ (s.noteDown n c).core = s.core ∧ (s.noteDown n c).dies = s.dies) ∧
  ∀ (s : State), (s.power.failure = true ∨ bit (BitVec.ofNat 32 s.power.downEvent) 6 = false) →
    s.railsDown.power.st = .off ∧ s.railsDown.power.step = 0 ∧
    s.railsDown.power.boot = (if s.power.failure then .unpowered else .down) ∧ ∀ h, (s.railsDown.hub h).up = false

/-- Register addresses (R393): an address names the page of its bits [31:12] at the offset of its bits [11:0]; `RegRead` and
`RegWrite` refuse an address whose bits [1:0] are not 0, with no other effect; host SPI ignores those two bits; a read gives
one 32-bit word for each address of its run. -/
def Obligations.RegisterAddresses : Prop :=
  (∀ (s : State) (addr : Nat) (pg : PageRef) (off : Nat), s.locate addr = .page pg off →
    off = addr % 4096 ∧ addr / 4096 = (match pg with
      | .hub h r => 0x80 * h.val + r.val
      | .die d r => 0x100 + 0x40 * d.val + r.val)) ∧
  (∀ (s : State) (r : Req) (addr : Word), addr.toNat % 4 ≠ 0 →
    (Runs s r 0x0010 → ∀ n, exec (.regRead r addr n) s = .next (replied s s r (resp 0x0010 .badArg []))) ∧
    (Runs s r 0x0011 → ∀ ws, exec (.regWrite r addr ws) s = .next (replied s s r (resp 0x0011 .badArg [])))) ∧
  (∀ (s : State) (h : HubId) (q : Bool) (a : BitVec 24),
    (∀ n, exec (.spiRegisterRead h q a n) s = exec (.spiRegisterRead h q (a &&& 0xFFFFFC#24) n) s) ∧
    (∀ ws, exec (.spiRegisterWrite h q a ws) s = exec (.spiRegisterWrite h q (a &&& 0xFFFFFC#24) ws) s)) ∧
  (∀ (s : State) (l : List Nat), (s.readRun l).2.length = l.length)

/-- A service of the watchdog (R312): KEY_A = 0x6A17 written to TSOLD.SERVE arms it, as STATUS.ARMED then shows; KEY_B =
0x95E8 that follows, at whatever instant but the register cycle of a
late violation (R314), is judged by the value of n when it lands: from C on it is a service, which starts
a period, below C it is early. -/
def Obligations.WatchdogKeys : Prop :=
  keyA = 0x6A17#32 ∧ keyB = 0x95E8#32 ∧
  ∀ (s : State) (p : Path) (h : HubId), Reaches s p (.hub h 5) 0x48 → s.wdIsLate s.clk.elapsed = false → s.core.wd.running = true →
    s.core.wd.armed = false →
    ∃ t, exec (.serveKeyA p h) s = .next t ∧ t.core.wd = { s.core.wd with armed := true } ∧
      ((s.hdr (.hub s.active 5)).frozen = none → bit (t.current (.hub s.active 5) 0x4C) 1 = true) ∧
      ∀ (u : State) (p' : Path) (h' : HubId), Reaches u p' (.hub h' 5) 0x48 → u.wdIsLate u.clk.elapsed = false → u.core.wd = t.core.wd →
        u.core.wd.lateAt ≠ some u.clk.elapsed →
        (u.core.wd.c ≤ u.core.wd.n u.clk.elapsed → exec (.serveKeyB p' h') u =
          .next (State.commit u { u with core := { u.core with wd := u.core.wd.restart u.clk.elapsed false } })) ∧
        (u.core.wd.n u.clk.elapsed < u.core.wd.c → exec (.serveKeyB p' h') u =
          .next (State.commit u (u.wdViolate .early u.clk.elapsed)))

/-- The bounds of the policies (R271): a write of POLICYc that would give FLOOR above CEIL, or floors above 25,000 less the
device charges in the package scope or 4,000 less 490 in a die's, changes no policy and is recorded in ERR_CAPTURE;
`LedgerPolicySet` refuses such values with ZS_BAD_ARG. -/
def Obligations.PolicyBounds : Prop :=
  ∀ (s : State) (k : Fin 3) (x : Policy) (sc : PolicyScope),
    (x.ceil < x.floor ∨ (match sc with
      | .package _ => 25000 - s.deviceCharge < (((s.core.ledger.policy.set k.val x k.isLt).toList).map (·.floor)).sum
      | .die d => 4000 - 490 < ((((s.die d).led.policy.set k.val x k.isLt).toList).map (·.floor)).sum)) →
    (∀ p w, Reaches s p (policyAt sc k).1 (policyAt sc k).2 → x = ⟨fld w 0 16, fld w 16 16⟩ →
      ∃ c u, u = s.rejectAt (policyAt sc k).1 c p (policyAt sc k).2 ∧ exec (.policyWrite p sc k w) s = .next (State.commit s u) ∧
        u.core.ledger.policy = s.core.ledger.policy ∧ ∀ d, (u.die d).led.policy = (s.die d).led.policy) ∧
    (∀ r g pg, Runs s r 0x0051 → s.policyScope g = some (sc, pg) → g.cls.toNat = k.val + 1 → x = ⟨g.floor.toNat, g.ceil.toNat⟩ →
      s.pageLocked pg = false → s.policyBar sc = none →
      exec (.ledgerPolicySet r g) s = .next (replied s s r (resp 0x0051 .badArg [])))

/-- Every command completes: exec answers a next state, and leaves the queue of waiting commands, the order code's dies and
their part numbers, and the identity as they are (R3, R4). -/
def Obligations.EveryCommandCompletes : Prop :=
  ∀ (c : Instr) (s : State), ∃ t, exec c s = .next t ∧ t.pending = s.pending ∧ t.variant.dies = s.variant.dies ∧
    t.variant.dPart = s.variant.dPart ∧ t.ident = s.ident

/-- What a register reads as, over a `RegRead` of one word (R5, R10, R12, R25, R30, R327, R397, R399 to R403): a page of an absent block
is refused; a reserved page or location reads 0; a location without power answers ZS_BLOCK_OFF with 0x0FF0_0FF0, and nothing changes; a
write-only register reads 0. A latched partner returns what was latched, and 0 before the first latch of a pair; reading the low half of a
pair, or a pool's free count, latches the partners of that instant and changes nothing else. Every header register returns its field; on a
frozen page a copy is returned; the registers of a channel's image return the values last written (R203, R226, R252). That a hub's page
and a die's are off behind the String and a lane that are not up, and which locations the AO domain answers, are the model's reading (log
22). -/
def Obligations.RegisterReads : Prop :=
  (∀ (s : State) (r : Req) (addr : Word), Runs s r 0x0010 → addr.toNat % 4 = 0 →
    (s.locate addr.toNat = .absent → exec (.regRead r addr 1#16) s = .next (replied s s r (resp 0x0010 .badArg []))) ∧
    (s.locate addr.toNat = .reserved → exec (.regRead r addr 1#16) s = .next (replied s s r (resp 0x0010 .ok (leBytes 4 0)))) ∧
    ∀ pg off, s.locate addr.toNat = .page pg off →
      (s.locOn pg off = false →
        exec (.regRead r addr 1#16) s = .next (replied s s r (resp 0x0010 .blockOff (leBytes 4 0x0FF00FF0)))) ∧
      (s.locOn pg off = true → s.pageHeard pg off = true →
        exec (.regRead r addr 1#16) s =
          .next (replied s (s.readReg pg off).1 r (resp 0x0010 .ok (leBytes 4 (s.readReg pg off).2.toNat))))) ∧
  (∀ (s : State) (pg : PageRef) (off : Nat) (w : Word), w = (s.readReg pg off).2 →
    ((latchOf pg off).1 = [] → (s.readReg pg off).1 = s) ∧
    (∃ l, (s.readReg pg off).1 = s.modHdr pg (fun h => { h with latch := l }) ∧
      (∀ o ∈ (latchOf pg off).1, assoc l o = some (s.current pg o)) ∧
      (∀ o, o ∉ (latchOf pg off).1 → assoc l o = assoc (s.hdr pg).latch o)) ∧
    (∀ v, assoc (s.hdr pg).latch off = some v → w = v) ∧
    (assoc (s.hdr pg).latch off = none → (zeroLatched pg off = true → w = 0#32) ∧ (zeroLatched pg off = false → w = s.current pg off))) ∧
  (∀ (s : State) (pg : PageRef) (h : PageHdr), h = s.hdr pg →
    (∀ hb r, pg = .hub hb r → s.current pg 0x00 = BitVec.ofNat 32 ((0x100 + r.val) * 65536 + hb.val * 256 + 1) ∧
      s.current pg 0x04 = (if r.val = 0 then BitVec.ofNat 32 (s.dieMask + 256 + if s.variant.dual then 512 else 0) else 0#32) ∧
      bit (s.current pg 0x08) 0 = true) ∧
    (∀ d, pg = .die d 0 → s.current pg 0x00 = BitVec.ofNat 32 (0x200 * 65536 + d.val * 256 + 1)) ∧
    (∀ (ch : Chan), pg = .die ch.die (chPage ch.c) →
      s.current pg 0x00 = BitVec.ofNat 32 (0x201 * 65536 + (16 * ch.die.val + ch.c.val) * 256 + 1) ∧
      s.current pg 0x04 = BitVec.ofNat 32 (0x3FFF + if (s.lane s.active ch.die).version = 2 then 65536 else 0) ∧
      bit (s.current pg 0x08) 0 = decide ((s.chan ch).mode ≠ 0)) ∧
    bit (s.current pg 0x08) 1 = h.frozen.isSome ∧ bit (s.current pg 0x08) 2 = false ∧
    bit (s.current pg 0x0C) 0 = true ∧ bit (s.current pg 0x0C) 2 = h.frozen.isSome ∧ bit (s.current pg 0x0C) 3 = h.locked ∧
    bit (s.current pg 0x0C) 4 = decide (h.err.count ≠ 0) ∧
    s.current pg 0x10 = h.pending ∧ s.current pg 0x14 = h.enable ∧ s.current pg 0x18 = h.pending ∧ s.current pg 0x1C = h.ovf ∧
    s.current pg 0x24 = BitVec.ofNat 32 h.refuse ∧ s.current pg 0x28 = (if h.locked then 1#32 else 0#32) ∧
    s.current pg 0x2C = h.err.word ∧ (∀ off, 0x30 ≤ off → off < 0x40 → s.current pg off = 0#32) ∧
    (∀ l off v, h.frozen = some l → 0x40 ≤ off → assoc l off = some v → s.current pg off = v) ∧
    (∀ off, 0x40 ≤ off → h.frozen = none → (∀ x ∈ s.pageRegs pg, x.off ≠ off) → s.current pg off = 0#32)) ∧
  (∀ (s : State) (h : HubId), (s.hdr (.hub h 1)).frozen = none → (s.hdr (.hub h 3)).frozen = none → (s.hdr (.hub h 4)).frozen = none →
      (s.hdr (.hub h 5)).frozen = none → (s.hdr (.hub h 10)).frozen = none →
    s.current (.hub h 1) 0x48 = lo32 s.clk.now ∧ s.current (.hub h 1) 0x4C = hi32 s.clk.now ∧
    (latchOf (.hub h 1) 0x48).1 = [0x4C] ∧ zeroLatched (.hub h 1) 0x4C = true ∧
    (latchOf (.hub h 3) 0x40).1 = [0x44, 0x48] ∧ zeroLatched (.hub h 3) 0x44 = false ∧
    s.current (.hub h 4) 0x40 = 0#32 ∧ s.current (.hub h 4) 0x5C = 0#32 ∧ s.current (.hub h 4) 0x60 = 0#32 ∧
    s.current (.hub h 5) 0x48 = 0#32 ∧ s.current (.hub h 10) 0x88 = 0#32 ∧ s.current (.hub h 10) 0xA0 = 0#32 ∧ s.current (.hub h 10) 0xBC = 0#32) ∧
  ∀ (s : State) (ch : Chan) (pg : PageRef) (i : ChanImg), pg = .die ch.die (chPage ch.c) → i = (s.chan ch).want →
    (s.hdr pg).frozen = none →
    s.current pg 0x44 = (s.chan ch).word ∧ s.current pg 0x48 = i.safe ∧ s.current pg 0x4C = i.safeVal ∧ s.current pg 0x50 = i.linkloss ∧
    s.current pg 0x54 = i.diag ∧ s.current pg 0x58 = i.opt ∧ s.current pg 0x5C = 0#32 ∧ s.current pg 0x80 = i.convCfg ∧
    s.current pg 0x100 = i.filtCfg ∧ s.current pg 0x104 = i.perInt ∧ s.current pg 0x10C = i.maLen ∧ s.current pg 0x110 = i.dcbCfg ∧
    s.current pg 0x118 = i.angCfg ∧ s.current pg 0x200 = i.dinCfg ∧ s.current pg 0x210 = 0#32 ∧ s.current pg 0x300 = i.outCfg ∧
    s.current pg 0x31C = i.fskCfg ∧ ((s.chan ch).heldFrac = none → s.current pg 0x108 = i.perFrac)

/-- Every step, whatever command it takes, keeps RAISED = LOGGED + COUNTED on both hubs and at most 64 staged records (R27,
R300, R301). -/
def Obligations.EventsKept : Prop :=
  ∀ s t : State, EventsWhole s → step s = .next t → EventsWhole t

/-- Every step, whatever command it takes, keeps the identity of the schedule slots, the result store and the near-term
queues, in the active hub, its copy at the standby, and the units on their way (R27). -/
def Obligations.PoolsKept : Prop :=
  ∀ s t : State, PoolsWhole s → step s = .next t → PoolsWhole t
end

