-- ==== Sys2Proof/Laws/State.lean ====
section
/-! SUPPORT. What each named change of the state leaves alone and what it puts in its place: one lemma per field and change,
true by definition, so that no proof unfolds a record update. -/

namespace Sys2Proof
open Machine

/-! ### Places of a vector -/

@[simp] theorem vmod_self {α : Type} {n : Nat} (v : Vector α n) (i : Fin n) (f : α → α) : (vmod v i f)[i.val] = f v[i.val] := by
  simp [vmod]
theorem vmod_ne {α : Type} {n : Nat} (v : Vector α n) (i : Fin n) (f : α → α) (j : Nat) (hj : j < n) (h : i.val ≠ j) :
    (vmod v i f)[j] = v[j] := by
  simp [vmod, h]
theorem vmod_at {α : Type} {n : Nat} (v : Vector α n) (i : Fin n) (f : α → α) (j : Nat) (hj : j < n) :
    (vmod v i f)[j] = if i.val = j then f v[j] else v[j] := by
  simp only [vmod, Vector.getElem_set]; split
  · next h => subst h; rfl
  · rfl

namespace Machine

/-! ### State.modHub -/

@[simp] theorem State.modHub_variant (s : State) (h : HubId) (f : Hub → Hub) : (s.modHub h f).variant = s.variant := rfl
@[simp] theorem State.modHub_ident (s : State) (h : HubId) (f : Hub → Hub) : (s.modHub h f).ident = s.ident := rfl
@[simp] theorem State.modHub_clk (s : State) (h : HubId) (f : Hub → Hub) : (s.modHub h f).clk = s.clk := rfl
@[simp] theorem State.modHub_active (s : State) (h : HubId) (f : Hub → Hub) : (s.modHub h f).active = s.active := rfl
@[simp] theorem State.modHub_core (s : State) (h : HubId) (f : Hub → Hub) : (s.modHub h f).core = s.core := rfl
@[simp] theorem State.modHub_copy (s : State) (h : HubId) (f : Hub → Hub) : (s.modHub h f).copy = s.copy := rfl
@[simp] theorem State.modHub_dies (s : State) (h : HubId) (f : Hub → Hub) : (s.modHub h f).dies = s.dies := rfl
@[simp] theorem State.modHub_sync (s : State) (h : HubId) (f : Hub → Hub) : (s.modHub h f).sync = s.sync := rfl
@[simp] theorem State.modHub_net (s : State) (h : HubId) (f : Hub → Hub) : (s.modHub h f).net = s.net := rfl
@[simp] theorem State.modHub_power (s : State) (h : HubId) (f : Hub → Hub) : (s.modHub h f).power = s.power := rfl
@[simp] theorem State.modHub_mirror (s : State) (h : HubId) (f : Hub → Hub) : (s.modHub h f).mirror = s.mirror := rfl
@[simp] theorem State.modHub_spiOut (s : State) (h : HubId) (f : Hub → Hub) : (s.modHub h f).spiOut = s.spiOut := rfl
@[simp] theorem State.modHub_base (s : State) (h : HubId) (f : Hub → Hub) : (s.modHub h f).base = s.base := rfl
@[simp] theorem State.modHub_free (s : State) (h : HubId) (f : Hub → Hub) : (s.modHub h f).free = s.free := rfl
@[simp] theorem State.modHub_pending (s : State) (h : HubId) (f : Hub → Hub) : (s.modHub h f).pending = s.pending := rfl

/-! ### State.modDie -/

@[simp] theorem State.modDie_variant (s : State) (d : DieId) (f : Die → Die) : (s.modDie d f).variant = s.variant := rfl
@[simp] theorem State.modDie_ident (s : State) (d : DieId) (f : Die → Die) : (s.modDie d f).ident = s.ident := rfl
@[simp] theorem State.modDie_clk (s : State) (d : DieId) (f : Die → Die) : (s.modDie d f).clk = s.clk := rfl
@[simp] theorem State.modDie_active (s : State) (d : DieId) (f : Die → Die) : (s.modDie d f).active = s.active := rfl
@[simp] theorem State.modDie_core (s : State) (d : DieId) (f : Die → Die) : (s.modDie d f).core = s.core := rfl
@[simp] theorem State.modDie_copy (s : State) (d : DieId) (f : Die → Die) : (s.modDie d f).copy = s.copy := rfl
@[simp] theorem State.modDie_hubs (s : State) (d : DieId) (f : Die → Die) : (s.modDie d f).hubs = s.hubs := rfl
@[simp] theorem State.modDie_sync (s : State) (d : DieId) (f : Die → Die) : (s.modDie d f).sync = s.sync := rfl
@[simp] theorem State.modDie_net (s : State) (d : DieId) (f : Die → Die) : (s.modDie d f).net = s.net := rfl
@[simp] theorem State.modDie_power (s : State) (d : DieId) (f : Die → Die) : (s.modDie d f).power = s.power := rfl
@[simp] theorem State.modDie_mirror (s : State) (d : DieId) (f : Die → Die) : (s.modDie d f).mirror = s.mirror := rfl
@[simp] theorem State.modDie_spiOut (s : State) (d : DieId) (f : Die → Die) : (s.modDie d f).spiOut = s.spiOut := rfl
@[simp] theorem State.modDie_base (s : State) (d : DieId) (f : Die → Die) : (s.modDie d f).base = s.base := rfl
@[simp] theorem State.modDie_free (s : State) (d : DieId) (f : Die → Die) : (s.modDie d f).free = s.free := rfl
@[simp] theorem State.modDie_pending (s : State) (d : DieId) (f : Die → Die) : (s.modDie d f).pending = s.pending := rfl

/-! ### State.modCore -/

@[simp] theorem State.modCore_variant (s : State) (f : Core → Core) : (s.modCore f).variant = s.variant := rfl
@[simp] theorem State.modCore_ident (s : State) (f : Core → Core) : (s.modCore f).ident = s.ident := rfl
@[simp] theorem State.modCore_clk (s : State) (f : Core → Core) : (s.modCore f).clk = s.clk := rfl
@[simp] theorem State.modCore_active (s : State) (f : Core → Core) : (s.modCore f).active = s.active := rfl
@[simp] theorem State.modCore_copy (s : State) (f : Core → Core) : (s.modCore f).copy = s.copy := rfl
@[simp] theorem State.modCore_hubs (s : State) (f : Core → Core) : (s.modCore f).hubs = s.hubs := rfl
@[simp] theorem State.modCore_dies (s : State) (f : Core → Core) : (s.modCore f).dies = s.dies := rfl
@[simp] theorem State.modCore_sync (s : State) (f : Core → Core) : (s.modCore f).sync = s.sync := rfl
@[simp] theorem State.modCore_net (s : State) (f : Core → Core) : (s.modCore f).net = s.net := rfl
@[simp] theorem State.modCore_power (s : State) (f : Core → Core) : (s.modCore f).power = s.power := rfl
@[simp] theorem State.modCore_mirror (s : State) (f : Core → Core) : (s.modCore f).mirror = s.mirror := rfl
@[simp] theorem State.modCore_spiOut (s : State) (f : Core → Core) : (s.modCore f).spiOut = s.spiOut := rfl
@[simp] theorem State.modCore_base (s : State) (f : Core → Core) : (s.modCore f).base = s.base := rfl
@[simp] theorem State.modCore_free (s : State) (f : Core → Core) : (s.modCore f).free = s.free := rfl
@[simp] theorem State.modCore_pending (s : State) (f : Core → Core) : (s.modCore f).pending = s.pending := rfl

/-! ### State.modCh -/

@[simp] theorem State.modCh_variant (s : State) (ch : Chan) (f : Channel → Channel) : (s.modCh ch f).variant = s.variant := rfl
@[simp] theorem State.modCh_ident (s : State) (ch : Chan) (f : Channel → Channel) : (s.modCh ch f).ident = s.ident := rfl
@[simp] theorem State.modCh_clk (s : State) (ch : Chan) (f : Channel → Channel) : (s.modCh ch f).clk = s.clk := rfl
@[simp] theorem State.modCh_active (s : State) (ch : Chan) (f : Channel → Channel) : (s.modCh ch f).active = s.active := rfl
@[simp] theorem State.modCh_core (s : State) (ch : Chan) (f : Channel → Channel) : (s.modCh ch f).core = s.core := rfl
@[simp] theorem State.modCh_copy (s : State) (ch : Chan) (f : Channel → Channel) : (s.modCh ch f).copy = s.copy := rfl
@[simp] theorem State.modCh_hubs (s : State) (ch : Chan) (f : Channel → Channel) : (s.modCh ch f).hubs = s.hubs := rfl
@[simp] theorem State.modCh_sync (s : State) (ch : Chan) (f : Channel → Channel) : (s.modCh ch f).sync = s.sync := rfl
@[simp] theorem State.modCh_net (s : State) (ch : Chan) (f : Channel → Channel) : (s.modCh ch f).net = s.net := rfl
@[simp] theorem State.modCh_power (s : State) (ch : Chan) (f : Channel → Channel) : (s.modCh ch f).power = s.power := rfl
@[simp] theorem State.modCh_mirror (s : State) (ch : Chan) (f : Channel → Channel) : (s.modCh ch f).mirror = s.mirror := rfl
@[simp] theorem State.modCh_spiOut (s : State) (ch : Chan) (f : Channel → Channel) : (s.modCh ch f).spiOut = s.spiOut := rfl
@[simp] theorem State.modCh_base (s : State) (ch : Chan) (f : Channel → Channel) : (s.modCh ch f).base = s.base := rfl
@[simp] theorem State.modCh_free (s : State) (ch : Chan) (f : Channel → Channel) : (s.modCh ch f).free = s.free := rfl
@[simp] theorem State.modCh_pending (s : State) (ch : Chan) (f : Channel → Channel) : (s.modCh ch f).pending = s.pending := rfl

/-! ### State.modLane -/

@[simp] theorem State.modLane_variant (s : State) (h : HubId) (d : DieId) (f : Lane → Lane) : (s.modLane h d f).variant = s.variant := rfl
@[simp] theorem State.modLane_ident (s : State) (h : HubId) (d : DieId) (f : Lane → Lane) : (s.modLane h d f).ident = s.ident := rfl
@[simp] theorem State.modLane_clk (s : State) (h : HubId) (d : DieId) (f : Lane → Lane) : (s.modLane h d f).clk = s.clk := rfl
@[simp] theorem State.modLane_active (s : State) (h : HubId) (d : DieId) (f : Lane → Lane) : (s.modLane h d f).active = s.active := rfl
@[simp] theorem State.modLane_core (s : State) (h : HubId) (d : DieId) (f : Lane → Lane) : (s.modLane h d f).core = s.core := rfl
@[simp] theorem State.modLane_copy (s : State) (h : HubId) (d : DieId) (f : Lane → Lane) : (s.modLane h d f).copy = s.copy := rfl
@[simp] theorem State.modLane_dies (s : State) (h : HubId) (d : DieId) (f : Lane → Lane) : (s.modLane h d f).dies = s.dies := rfl
@[simp] theorem State.modLane_sync (s : State) (h : HubId) (d : DieId) (f : Lane → Lane) : (s.modLane h d f).sync = s.sync := rfl
@[simp] theorem State.modLane_net (s : State) (h : HubId) (d : DieId) (f : Lane → Lane) : (s.modLane h d f).net = s.net := rfl
@[simp] theorem State.modLane_power (s : State) (h : HubId) (d : DieId) (f : Lane → Lane) : (s.modLane h d f).power = s.power := rfl
@[simp] theorem State.modLane_mirror (s : State) (h : HubId) (d : DieId) (f : Lane → Lane) : (s.modLane h d f).mirror = s.mirror := rfl
@[simp] theorem State.modLane_spiOut (s : State) (h : HubId) (d : DieId) (f : Lane → Lane) : (s.modLane h d f).spiOut = s.spiOut := rfl
@[simp] theorem State.modLane_base (s : State) (h : HubId) (d : DieId) (f : Lane → Lane) : (s.modLane h d f).base = s.base := rfl
@[simp] theorem State.modLane_free (s : State) (h : HubId) (d : DieId) (f : Lane → Lane) : (s.modLane h d f).free = s.free := rfl
@[simp] theorem State.modLane_pending (s : State) (h : HubId) (d : DieId) (f : Lane → Lane) : (s.modLane h d f).pending = s.pending := rfl

/-! ### State.tickFree -/

@[simp] theorem State.tickFree_variant (s : State) : (s.tickFree).variant = s.variant := rfl
@[simp] theorem State.tickFree_ident (s : State) : (s.tickFree).ident = s.ident := rfl
@[simp] theorem State.tickFree_clk (s : State) : (s.tickFree).clk = s.clk := rfl
@[simp] theorem State.tickFree_active (s : State) : (s.tickFree).active = s.active := rfl
@[simp] theorem State.tickFree_core (s : State) : (s.tickFree).core = s.core := rfl
@[simp] theorem State.tickFree_copy (s : State) : (s.tickFree).copy = s.copy := rfl
@[simp] theorem State.tickFree_hubs (s : State) : (s.tickFree).hubs = s.hubs := rfl
@[simp] theorem State.tickFree_dies (s : State) : (s.tickFree).dies = s.dies := rfl
@[simp] theorem State.tickFree_sync (s : State) : (s.tickFree).sync = s.sync := rfl
@[simp] theorem State.tickFree_net (s : State) : (s.tickFree).net = s.net := rfl
@[simp] theorem State.tickFree_power (s : State) : (s.tickFree).power = s.power := rfl
@[simp] theorem State.tickFree_mirror (s : State) : (s.tickFree).mirror = s.mirror := rfl
@[simp] theorem State.tickFree_spiOut (s : State) : (s.tickFree).spiOut = s.spiOut := rfl
@[simp] theorem State.tickFree_base (s : State) : (s.tickFree).base = s.base := rfl
@[simp] theorem State.tickFree_pending (s : State) : (s.tickFree).pending = s.pending := rfl

/-! ### State.commit -/

@[simp] theorem State.commit_variant (s t : State) : (State.commit s t).variant = t.variant := rfl
@[simp] theorem State.commit_ident (s t : State) : (State.commit s t).ident = t.ident := rfl
@[simp] theorem State.commit_clk (s t : State) : (State.commit s t).clk = t.clk := rfl
@[simp] theorem State.commit_active (s t : State) : (State.commit s t).active = t.active := rfl
@[simp] theorem State.commit_core (s t : State) : (State.commit s t).core = t.core := rfl
@[simp] theorem State.commit_copy (s t : State) : (State.commit s t).copy = t.copy := rfl
@[simp] theorem State.commit_hubs (s t : State) : (State.commit s t).hubs = t.hubs := rfl
@[simp] theorem State.commit_dies (s t : State) : (State.commit s t).dies = t.dies := rfl
@[simp] theorem State.commit_sync (s t : State) : (State.commit s t).sync = t.sync := rfl
@[simp] theorem State.commit_net (s t : State) : (State.commit s t).net = t.net := rfl
@[simp] theorem State.commit_power (s t : State) : (State.commit s t).power = t.power := rfl
@[simp] theorem State.commit_spiOut (s t : State) : (State.commit s t).spiOut = t.spiOut := rfl
@[simp] theorem State.commit_base (s t : State) : (State.commit s t).base = t.base := rfl
@[simp] theorem State.commit_free (s t : State) : (State.commit s t).free = t.free := rfl
@[simp] theorem State.commit_pending (s t : State) : (State.commit s t).pending = t.pending := rfl

/-! ### What was put in place -/

@[simp] theorem State.modCore_core (s : State) (f : Core → Core) : (s.modCore f).core = f s.core := rfl
@[simp] theorem State.tickFree_free (s : State) : s.tickFree.free = s.free + 1 := rfl
@[simp] theorem State.hub_modHub (s : State) (h : HubId) (f : Hub → Hub) : (s.modHub h f).hub h = f (s.hub h) := vmod_self ..
theorem State.hub_modHub_ne (s : State) (h k : HubId) (f : Hub → Hub) (n : h ≠ k) : (s.modHub h f).hub k = s.hub k :=
  vmod_ne _ _ _ _ _ (fun e => n (Fin.ext e))
@[simp] theorem State.die_modDie (s : State) (d : DieId) (f : Die → Die) : (s.modDie d f).die d = f (s.die d) := vmod_self ..
theorem State.die_modDie_ne (s : State) (d e : DieId) (f : Die → Die) (n : d ≠ e) : (s.modDie d f).die e = s.die e :=
  vmod_ne _ _ _ _ _ (fun x => n (Fin.ext x))
@[simp] theorem State.die_modHub (s : State) (h : HubId) (f : Hub → Hub) (d : DieId) : (s.modHub h f).die d = s.die d := rfl
@[simp] theorem State.die_modCore (s : State) (f : Core → Core) (d : DieId) : (s.modCore f).die d = s.die d := rfl
@[simp] theorem State.die_commit (s t : State) (d : DieId) : (State.commit s t).die d = t.die d := rfl
@[simp] theorem State.die_tickFree (s : State) (d : DieId) : s.tickFree.die d = s.die d := rfl
@[simp] theorem State.hub_modDie (s : State) (d : DieId) (f : Die → Die) (h : HubId) : (s.modDie d f).hub h = s.hub h := rfl
@[simp] theorem State.hub_modCore (s : State) (f : Core → Core) (h : HubId) : (s.modCore f).hub h = s.hub h := rfl
@[simp] theorem State.hub_commit (s t : State) (h : HubId) : (State.commit s t).hub h = t.hub h := rfl
@[simp] theorem State.hub_tickFree (s : State) (h : HubId) : s.tickFree.hub h = s.hub h := rfl
@[simp] theorem State.chan_eq (s : State) (ch : Chan) : (s.die ch.die).chan ch.c = s.chan ch := rfl
@[simp] theorem State.chan_commit (s t : State) (ch : Chan) : (State.commit s t).chan ch = t.chan ch := rfl

/-! ### Die.modCh -/

@[simp] theorem Die.chan_modCh (d : Die) (c : ChanId) (f : Channel → Channel) :
    (d.modCh c f).chan c = (d.chan c).settle ((f (d.chan c)).held d.allOff) d.replica := vmod_self ..
theorem Die.chan_modCh_ne (d : Die) (c k : ChanId) (f : Channel → Channel) (n : c ≠ k) : (d.modCh c f).chan k = d.chan k :=
  vmod_ne _ _ _ _ _ (fun e => n (Fin.ext e))
@[simp] theorem Die.modCh_present (d : Die) (c : ChanId) (f : Channel → Channel) : (d.modCh c f).present = d.present := rfl
@[simp] theorem Die.modCh_pwr (d : Die) (c : ChanId) (f : Channel → Channel) : (d.modCh c f).pwr = d.pwr := rfl
@[simp] theorem Die.modCh_pwrBusy (d : Die) (c : ChanId) (f : Channel → Channel) : (d.modCh c f).pwrBusy = d.pwrBusy := rfl
@[simp] theorem Die.modCh_isoPower (d : Die) (c : ChanId) (f : Channel → Channel) : (d.modCh c f).isoPower = d.isoPower := rfl
@[simp] theorem Die.modCh_hdr (d : Die) (c : ChanId) (f : Channel → Channel) : (d.modCh c f).hdr = d.hdr := rfl
@[simp] theorem Die.modCh_replica (d : Die) (c : ChanId) (f : Channel → Channel) : (d.modCh c f).replica = d.replica := rfl
@[simp] theorem Die.modCh_coasting (d : Die) (c : ChanId) (f : Channel → Channel) : (d.modCh c f).coasting = d.coasting := rfl
@[simp] theorem Die.modCh_lastTime (d : Die) (c : ChanId) (f : Channel → Channel) : (d.modCh c f).lastTime = d.lastTime := rfl
@[simp] theorem Die.modCh_holder (d : Die) (c : ChanId) (f : Channel → Channel) : (d.modCh c f).holder = d.holder := rfl
@[simp] theorem Die.modCh_renewAt (d : Die) (c : ChanId) (f : Channel → Channel) : (d.modCh c f).renewAt = d.renewAt := rfl
@[simp] theorem Die.modCh_lossFrom (d : Die) (c : ChanId) (f : Channel → Channel) : (d.modCh c f).lossFrom = d.lossFrom := rfl
@[simp] theorem Die.modCh_hublossT (d : Die) (c : ChanId) (f : Channel → Channel) : (d.modCh c f).hublossT = d.hublossT := rfl
@[simp] theorem Die.modCh_promoCnt (d : Die) (c : ChanId) (f : Channel → Channel) : (d.modCh c f).promoCnt = d.promoCnt := rfl
@[simp] theorem Die.modCh_nextFrame (d : Die) (c : ChanId) (f : Channel → Channel) : (d.modCh c f).nextFrame = d.nextFrame := rfl
@[simp] theorem Die.modCh_heldFrames (d : Die) (c : ChanId) (f : Channel → Channel) : (d.modCh c f).heldFrames = d.heldFrames := rfl
@[simp] theorem Die.modCh_resend (d : Die) (c : ChanId) (f : Channel → Channel) : (d.modCh c f).resend = d.resend := rfl
@[simp] theorem Die.modCh_fifo (d : Die) (c : ChanId) (f : Channel → Channel) : (d.modCh c f).fifo = d.fifo := rfl
@[simp] theorem Die.modCh_evq (d : Die) (c : ChanId) (f : Channel → Channel) : (d.modCh c f).evq = d.evq := rfl
@[simp] theorem Die.modCh_partialPromo (d : Die) (c : ChanId) (f : Channel → Channel) : (d.modCh c f).partialPromo = d.partialPromo := rfl
@[simp] theorem Die.modCh_mgmt (d : Die) (c : ChanId) (f : Channel → Channel) : (d.modCh c f).mgmt = d.mgmt := rfl
@[simp] theorem Die.modCh_foreignDisc (d : Die) (c : ChanId) (f : Channel → Channel) : (d.modCh c f).foreignDisc = d.foreignDisc := rfl
@[simp] theorem Die.modCh_levels (d : Die) (c : ChanId) (f : Channel → Channel) : (d.modCh c f).levels = d.levels := rfl
@[simp] theorem Die.modCh_statusTx (d : Die) (c : ChanId) (f : Channel → Channel) : (d.modCh c f).statusTx = d.statusTx := rfl
@[simp] theorem Die.modCh_ntq (d : Die) (c : ChanId) (f : Channel → Channel) : (d.modCh c f).ntq = d.ntq := rfl
@[simp] theorem Die.modCh_ntqPool (d : Die) (c : ChanId) (f : Channel → Channel) : (d.modCh c f).ntqPool = d.ntqPool := rfl
@[simp] theorem Die.modCh_ntqHigh (d : Die) (c : ChanId) (f : Channel → Channel) : (d.modCh c f).ntqHigh = d.ntqHigh := rfl
@[simp] theorem Die.modCh_aux (d : Die) (c : ChanId) (f : Channel → Channel) : (d.modCh c f).aux = d.aux := rfl
@[simp] theorem Die.modCh_car (d : Die) (c : ChanId) (f : Channel → Channel) : (d.modCh c f).car = d.car := rfl
@[simp] theorem Die.modCh_led (d : Die) (c : ChanId) (f : Channel → Channel) : (d.modCh c f).led = d.led := rfl
@[simp] theorem Die.modCh_temp (d : Die) (c : ChanId) (f : Channel → Channel) : (d.modCh c f).temp = d.temp := rfl
@[simp] theorem Die.modCh_lpMv (d : Die) (c : ChanId) (f : Channel → Channel) : (d.modCh c f).lpMv = d.lpMv := rfl
@[simp] theorem Die.modCh_uvLow (d : Die) (c : ChanId) (f : Channel → Channel) : (d.modCh c f).uvLow = d.uvLow := rfl
@[simp] theorem Die.modCh_uvEp (d : Die) (c : ChanId) (f : Channel → Channel) : (d.modCh c f).uvEp = d.uvEp := rfl
@[simp] theorem Die.modCh_allowSafe (d : Die) (c : ChanId) (f : Channel → Channel) : (d.modCh c f).allowSafe = d.allowSafe := rfl
@[simp] theorem Die.modCh_straddle (d : Die) (c : ChanId) (f : Channel → Channel) : (d.modCh c f).straddle = d.straddle := rfl
@[simp] theorem Die.modCh_missed (d : Die) (c : ChanId) (f : Channel → Channel) : (d.modCh c f).missed = d.missed := rfl

/-! ### Channel.settle and Channel.held (R108, R111): only EPOCH and the driver follow the change -/

@[simp] theorem Channel.settle_want (a b : Channel) (t : Tick) : (a.settle b t).want = b.want := by
  unfold Channel.settle; split <;> rfl
@[simp] theorem Channel.settle_img (a b : Channel) (t : Tick) : (a.settle b t).img = b.img := by
  unfold Channel.settle; split <;> rfl
@[simp] theorem Channel.settle_cfgSet (a b : Channel) (t : Tick) : (a.settle b t).cfgSet = b.cfgSet := by
  unfold Channel.settle; split <;> rfl
@[simp] theorem Channel.settle_pend (a b : Channel) (t : Tick) : (a.settle b t).pend = b.pend := by
  unfold Channel.settle; split <;> rfl
@[simp] theorem Channel.settle_heldFrac (a b : Channel) (t : Tick) : (a.settle b t).heldFrac = b.heldFrac := by
  unfold Channel.settle; split <;> rfl
@[simp] theorem Channel.settle_pendF (a b : Channel) (t : Tick) : (a.settle b t).pendF = b.pendF := by
  unfold Channel.settle; split <;> rfl
@[simp] theorem Channel.settle_trans (a b : Channel) (t : Tick) : (a.settle b t).trans = b.trans := by
  unfold Channel.settle; split <;> rfl
@[simp] theorem Channel.settle_odd (a b : Channel) (t : Tick) : (a.settle b t).odd = b.odd := by
  unfold Channel.settle; split <;> rfl
@[simp] theorem Channel.settle_group (a b : Channel) (t : Tick) : (a.settle b t).group = b.group := by
  unfold Channel.settle; split <;> rfl
@[simp] theorem Channel.settle_cause (a b : Channel) (t : Tick) : (a.settle b t).cause = b.cause := by
  unfold Channel.settle; split <;> rfl
@[simp] theorem Channel.settle_hold (a b : Channel) (t : Tick) : (a.settle b t).hold = b.hold := by
  unfold Channel.settle; split <;> rfl
@[simp] theorem Channel.settle_resume (a b : Channel) (t : Tick) : (a.settle b t).resume = b.resume := by
  unfold Channel.settle; split <;> rfl
@[simp] theorem Channel.settle_out (a b : Channel) (t : Tick) : (a.settle b t).out = b.out := by
  unfold Channel.settle; split <;> rfl
@[simp] theorem Channel.settle_diag (a b : Channel) (t : Tick) : (a.settle b t).diag = b.diag := by
  unfold Channel.settle; split <;> rfl
@[simp] theorem Channel.settle_din (a b : Channel) (t : Tick) : (a.settle b t).din = b.din := by
  unfold Channel.settle; split <;> rfl
@[simp] theorem Channel.settle_chain (a b : Channel) (t : Tick) : (a.settle b t).chain = b.chain := by
  unfold Channel.settle; split <;> rfl
@[simp] theorem Channel.settle_cal (a b : Channel) (t : Tick) : (a.settle b t).cal = b.cal := by
  unfold Channel.settle; split <;> rfl
@[simp] theorem Channel.settle_fsk (a b : Channel) (t : Tick) : (a.settle b t).fsk = b.fsk := by
  unfold Channel.settle; split <;> rfl
@[simp] theorem Channel.settle_chgHeat (a b : Channel) (t : Tick) : (a.settle b t).chgHeat = b.chgHeat := by
  unfold Channel.settle; split <;> rfl
@[simp] theorem Channel.settle_chgBar (a b : Channel) (t : Tick) : (a.settle b t).chgBar = b.chgBar := by
  unfold Channel.settle; split <;> rfl
@[simp] theorem Channel.settle_overMs (a b : Channel) (t : Tick) : (a.settle b t).overMs = b.overMs := by
  unfold Channel.settle; split <;> rfl
@[simp] theorem Channel.held_want (a : Channel) (o : Bool) : (a.held o).want = a.want := by
  unfold Channel.held; split <;> rfl
@[simp] theorem Channel.held_img (a : Channel) (o : Bool) : (a.held o).img = a.img := by
  unfold Channel.held; split <;> rfl
@[simp] theorem Channel.held_cfgSet (a : Channel) (o : Bool) : (a.held o).cfgSet = a.cfgSet := by
  unfold Channel.held; split <;> rfl
@[simp] theorem Channel.held_pend (a : Channel) (o : Bool) : (a.held o).pend = a.pend := by
  unfold Channel.held; split <;> rfl
@[simp] theorem Channel.held_heldFrac (a : Channel) (o : Bool) : (a.held o).heldFrac = a.heldFrac := by
  unfold Channel.held; split <;> rfl
@[simp] theorem Channel.held_pendF (a : Channel) (o : Bool) : (a.held o).pendF = a.pendF := by
  unfold Channel.held; split <;> rfl
@[simp] theorem Channel.held_trans (a : Channel) (o : Bool) : (a.held o).trans = a.trans := by
  unfold Channel.held; split <;> rfl
@[simp] theorem Channel.held_odd (a : Channel) (o : Bool) : (a.held o).odd = a.odd := by
  unfold Channel.held; split <;> rfl
@[simp] theorem Channel.held_group (a : Channel) (o : Bool) : (a.held o).group = a.group := by
  unfold Channel.held; split <;> rfl
@[simp] theorem Channel.held_cause (a : Channel) (o : Bool) : (a.held o).cause = a.cause := by
  unfold Channel.held; split <;> rfl
@[simp] theorem Channel.held_hold (a : Channel) (o : Bool) : (a.held o).hold = a.hold := by
  unfold Channel.held; split <;> rfl
@[simp] theorem Channel.held_resume (a : Channel) (o : Bool) : (a.held o).resume = a.resume := by
  unfold Channel.held; split <;> rfl
@[simp] theorem Channel.held_diag (a : Channel) (o : Bool) : (a.held o).diag = a.diag := by
  unfold Channel.held; split <;> rfl
@[simp] theorem Channel.held_din (a : Channel) (o : Bool) : (a.held o).din = a.din := by
  unfold Channel.held; split <;> rfl
@[simp] theorem Channel.held_chain (a : Channel) (o : Bool) : (a.held o).chain = a.chain := by
  unfold Channel.held; split <;> rfl
@[simp] theorem Channel.held_cal (a : Channel) (o : Bool) : (a.held o).cal = a.cal := by
  unfold Channel.held; split <;> rfl
@[simp] theorem Channel.held_fsk (a : Channel) (o : Bool) : (a.held o).fsk = a.fsk := by
  unfold Channel.held; split <;> rfl
@[simp] theorem Channel.held_chgHeat (a : Channel) (o : Bool) : (a.held o).chgHeat = a.chgHeat := by
  unfold Channel.held; split <;> rfl
@[simp] theorem Channel.held_chgBar (a : Channel) (o : Bool) : (a.held o).chgBar = a.chgBar := by
  unfold Channel.held; split <;> rfl
@[simp] theorem Channel.held_overMs (a : Channel) (o : Bool) : (a.held o).overMs = a.overMs := by
  unfold Channel.held; split <;> rfl
@[simp] theorem Channel.held_false (a : Channel) : a.held false = a := rfl

end Machine
end Sys2Proof
end

