-- ==== Sys2Proof/Laws/Fixed.lean ====
section
/-! SUPPORT. No operation and no command changes the waiting commands, the order code or the identity:
one lemma for each function that answers a state. -/

set_option linter.unusedVariables false
set_option linter.unusedTactic false
set_option linter.unreachableTactic false
set_option linter.unusedSimpArgs false

namespace Sys2Proof.Machine
open Sys2Proof

/-- What no command touches: the waiting commands, the order code and the identity. -/
def State.fixed (s : State) : List Instr × Nat × Bool × Ident := (s.pending, s.variant.dies, s.variant.dPart, s.ident)
@[simp] theorem State.fixed_mk (s : State) : (s.pending, s.variant.dies, s.variant.dPart, s.ident) = s.fixed := rfl
@[simp] theorem State.mk_fixed (v i c a co cp hu di sy ne po mi sp ba fr pe) :
    (State.mk v i c a co cp hu di sy ne po mi sp ba fr pe).fixed = (pe, v.dies, v.dPart, i) := rfl
@[simp] theorem State.ite_fixed (p : Prop) [Decidable p] (s t : State) : (if p then s else t).fixed = if p then s.fixed else t.fixed := by
  split <;> rfl
@[simp] theorem State.dite_fixed (p : Prop) [Decidable p] (f : p → State) (g : ¬p → State) (s : State)
    (hf : ∀ h, (f h).fixed = s.fixed) (hg : ∀ h, (g h).fixed = s.fixed) : (if h : p then f h else g h).fixed = s.fixed := by
  split
  · exact hf _
  · exact hg _
@[simp] theorem foldl_fixed {α : Type} (f : State → α → State) (h : ∀ s a, (f s a).fixed = s.fixed) (l : List α) (s : State) :
    (l.foldl f s).fixed = s.fixed := by
  induction l generalizing s with
  | nil => rfl
  | cons a l ih => rw [List.foldl_cons, ih, h]
@[simp] theorem foldl_modDie_fixed {α : Type} (g : State → α → DieId) (f : State → α → Die → Die) (l : List α) (s : State) :
    (l.foldl (fun x a => x.modDie (g x a) (f x a)) s).fixed = s.fixed := foldl_fixed _ (fun _ _ => by rfl) _ _
/-- A check that fails answers no state. -/
theorem of_check_fixed {ε : Type} {p : Prop} [Decidable p] {x : ε} {y : Except ε State} {z : State} {g : Prop}
    (h : (if p then .error x else y) = .ok z) (k : y = .ok z → g) : g := by
  split at h
  · injection h
  · exact k h
@[simp] theorem State.noteQuality_fixed (old : State) (s : State) : (State.noteQuality old s).fixed = s.fixed := by
  unfold State.noteQuality; split <;> rfl
@[simp] theorem State.modHub_fixed (s : State) (h : HubId) (f : Hub → Hub) : (s.modHub h f).fixed = s.fixed := rfl
@[simp] theorem State.modDie_fixed (s : State) (d : DieId) (f : Die → Die) : (s.modDie d f).fixed = s.fixed := rfl
@[simp] theorem State.modCore_fixed (s : State) (f : Core → Core) : (s.modCore f).fixed = s.fixed := rfl
@[simp] theorem State.modCh_fixed (s : State) (ch : Chan) (f : Channel → Channel) : (s.modCh ch f).fixed = s.fixed := rfl
@[simp] theorem State.modLane_fixed (s : State) (h : HubId) (d : DieId) (f : Lane → Lane) : (s.modLane h d f).fixed = s.fixed := rfl
@[simp] theorem State.tickFree_fixed (s : State) : s.tickFree.fixed = s.fixed := rfl
@[simp] theorem State.skipFree_fixed (s : State) (n : ℕ) : (State.skipFree s n).fixed = s.fixed := by
  rfl
@[simp] theorem State.sendTo_fixed (s : State) (p : DieId → Bool) (f : DieId → Die → Die) : (State.sendTo s p f).fixed = s.fixed := rfl
@[simp] theorem State.overLanes_fixed (s : State) (f : DieId → Die → Die) : (State.overLanes s f).fixed = s.fixed := rfl
@[simp] theorem State.modHdr_fixed (s : State) (p : PageRef) (f : PageHdr → PageHdr) : (State.modHdr s p f).fixed = s.fixed := by
  unfold State.modHdr; split <;> simp
@[simp] theorem State.raise_fixed (s : State) (h : HubId) (e : Ev) (time : ℕ) (st : Bool) (data : List Byte) : (State.raise s h e time st data).fixed = s.fixed := by
  rfl
@[simp] theorem State.raiseNow_fixed (s : State) (e : Ev) (data : List Byte) : (State.raiseNow s e data).fixed = s.fixed := by
  rfl
@[simp] theorem State.raiseSrc_fixed (s : State) (e : Ev) (time : ℕ) (source : ℕ) (st : Bool) (data : List Byte) (owner : Option Who) : (State.raiseSrc s e time source st data owner).fixed = s.fixed := by
  rfl
@[simp] theorem State.rejectAt_fixed (s : State) (p : PageRef) (cause : ℕ) (path : Path) (offset : ℕ) : (State.rejectAt s p cause path offset).fixed = s.fixed := by
  simp [State.rejectAt]
@[simp] theorem State.commit_fixed (s t : State) : (State.commit s t).fixed = t.fixed := rfl
@[simp] theorem State.hold_fixed (s : State) (x1 : HeldBack) : (State.hold s x1).fixed = s.fixed := by
  simp [State.hold]
@[simp] theorem State.emit_fixed (s : State) (m : OutMsg) : (State.emit s m).fixed = s.fixed := by
  unfold State.emit; split <;> simp
@[simp] theorem State.respond_fixed (s : State) (r : Req) (x : Response) : (State.respond s r x).fixed = s.fixed := by
  simp [State.respond]
@[simp] theorem State.command_fixed (s : State) (r : Req) (cmd : ℕ) (f : State → State × Response) (hf : ∀ x, (f x).1.fixed = x.fixed) : (State.command s r cmd f).fixed = s.fixed := by
  unfold State.command; repeat' split
  all_goals first | rfl | (simp; done) | (simp [*]; done)
@[simp] theorem State.commandLater_fixed (s : State) (r : Req) (cmd : ℕ) (f : State → State × Option Response) (hf : ∀ x, (f x).1.fixed = x.fixed) : (State.commandLater s r cmd f).fixed = s.fixed := by
  unfold State.commandLater
  split
  · split
    · simp
    · have h := hf s
      split <;> (next e => rw [e] at h; simpa using h)
  · rfl
@[simp] theorem State.tick_fixed (s : State) : (State.tick s).fixed = s.fixed := by
  simp [State.tick]
@[simp] theorem State.settlePools_fixed (s : State) (d : DieId) : (State.settlePools s d).fixed = s.fixed := by
  rfl
@[simp] theorem State.settlePackage_fixed (s : State) : (State.settlePackage s).fixed = s.fixed := by
  rfl
@[simp] theorem State.retire_fixed (s : State) (id : ℕ) (o : EntryOutcome) : (State.retire s id o).fixed = s.fixed := by
  unfold State.retire; split <;> simp
@[simp] theorem State.outcome_fixed (s : State) (id : ℕ) (o : EntryOutcome) : (State.outcome s id o).fixed = s.fixed := by
  simp [State.outcome]
@[simp] theorem State.outcomes_fixed (s : State) (ids : List ℕ) (o : EntryOutcome) : (State.outcomes s ids o).fixed = s.fixed := by
  simp [State.outcomes]
@[simp] theorem State.syncShadow_fixed (s : State) (d : DieId) (cs : List ChanId) : (State.syncShadow s d cs).fixed = s.fixed := by
  simp [State.syncShadow]
@[simp] theorem State.shadowUnit_fixed (s : State) (ch : Chan) : (State.shadowUnit s ch).fixed = s.fixed := State.syncShadow_fixed ..
@[simp] theorem State.applyConfig_fixed (s : State) (ch : Chan) (p : PendCfg) : (State.applyConfig s ch p).fixed = s.fixed := by
  simp [State.applyConfig]
@[simp] theorem State.queueConfig_fixed (s : State) (ch : Chan) (i : ChanImg) (set : ℕ) (tm : Tick) : (State.queueConfig s ch i set tm).fixed = s.fixed := by
  unfold State.queueConfig
  dsimp only
  rw [foldl_fixed _ (fun x c => by rfl)]; rfl
@[simp] theorem State.startModeChange_fixed (s : State) (ch : Chan) : (State.startModeChange s ch).fixed = s.fixed := by
  unfold State.startModeChange; split <;> simp
theorem execModeChangeStart_fixed {ch : Chan} {s : State} {z : State} (h : execModeChangeStart ch s = .next z) : z.fixed = s.fixed := by
  cases h; simp
theorem execTransitionEnd_fixed {x : InputLevel} {s : State} {z} (h : execTransitionEnd x s = .next z) : z.fixed = s.fixed := by
  cases h; simp
@[simp] theorem State.disableAt_fixed (s : State) (ch : Chan) (td : Tick) (self : Option ℕ) : (State.disableAt s ch td self).fixed = s.fixed := by
  simp [State.disableAt]
theorem execChannelDisableInstant_fixed {ch : Chan} {s : State} {z : State} (h : execChannelDisableInstant ch s = .next z) : z.fixed = s.fixed := by
  cases h; split <;> simp
theorem execHubLossExpiry_fixed {d : DieId} {s : State} {z : State} (h : execHubLossExpiry d s = .next z) : z.fixed = s.fixed := by
  cases h; rfl
theorem execHoldMsExpiry_fixed {ch : Chan} {s : State} {z : State} (h : execHoldMsExpiry ch s = .next z) : z.fixed = s.fixed := by
  cases h; rfl
theorem execRampStep_fixed {ch : Chan} {s : State} {z : State} (h : execRampStep ch s = .next z) : z.fixed = s.fixed := by
  cases h; rfl
theorem execIsolatedPowerLost_fixed {d : DieId} {s : State} {z : State} (h : execIsolatedPowerLost d s = .next z) : z.fixed = s.fixed := by
  cases h; rfl
theorem execOverrangeConfirm_fixed {ch : Chan} {isOver : Bool} {s : State} {z : State} (h : execOverrangeConfirm ch isOver s = .next z) : z.fixed = s.fixed := by
  cases h; rfl
theorem execOpenWireResult_fixed {ch : Chan} {isOpen : Bool} {s : State} {z : State} (h : execOpenWireResult ch isOpen s = .next z) : z.fixed = s.fixed := by
  cases h; rfl
theorem execTerminalMonitorResult_fixed {ch : Chan} {sn : Bool} {mV : ℤ} {s : State} {z : State} (h : execTerminalMonitorResult ch sn mV s = .next z) : z.fixed = s.fixed := by
  cases h; rfl
theorem execOverloadConfirm_fixed {ch : Chan} {s : State} {z : State} (h : execOverloadConfirm ch s = .next z) : z.fixed = s.fixed := by
  cases h; rfl
theorem execShortFgConfirm_fixed {ch : Chan} {s : State} {z : State} (h : execShortFgConfirm ch s = .next z) : z.fixed = s.fixed := by
  cases h; rfl
theorem execThermalConfirm_fixed {ch : Chan} {s : State} {z : State} (h : execThermalConfirm ch s = .next z) : z.fixed = s.fixed := by
  cases h; rfl
theorem execBackfeedConfirm_fixed {ch : Chan} {s : State} {z : State} (h : execBackfeedConfirm ch s = .next z) : z.fixed = s.fixed := by
  cases h; rfl
theorem execBackfeedClear_fixed {ch : Chan} {s : State} {z : State} (h : execBackfeedClear ch s = .next z) : z.fixed = s.fixed := by
  cases h; rfl
theorem execLpUndervoltConfirm_fixed {d : DieId} {s : State} {z : State} (h : execLpUndervoltConfirm d s = .next z) : z.fixed = s.fixed := by
  cases h; rfl
theorem execLpUndervoltEpisodeEnd_fixed {d : DieId} {s : State} {z : State} (h : execLpUndervoltEpisodeEnd d s = .next z) : z.fixed = s.fixed := by
  cases h; rfl
theorem execOffPulseStart_fixed {ch : Chan} {s : State} {z : State} (h : execOffPulseStart ch s = .next z) : z.fixed = s.fixed := by
  cases h; rfl
theorem execOffPulseEnd_fixed {ch : Chan} {vioMv : ℤ} {s : State} {z : State} (h : execOffPulseEnd ch vioMv s = .next z) : z.fixed = s.fixed := by
  cases h; rfl
theorem execShuntOpen_fixed {ch : Chan} {s : State} {z : State} (h : execShuntOpen ch s = .next z) : z.fixed = s.fixed := by
  cases h; rfl
theorem execShuntRecloseTrial_fixed {ch : Chan} {s : State} {z : State} (h : execShuntRecloseTrial ch s = .next z) : z.fixed = s.fixed := by
  cases h; rfl
theorem execCurrentLimitFoldback_fixed {ch : Chan} {s : State} {z : State} (h : execCurrentLimitFoldback ch s = .next z) : z.fixed = s.fixed := by
  cases h; rfl
theorem execFoldbackRetry_fixed {ch : Chan} {s : State} {z : State} (h : execFoldbackRetry ch s = .next z) : z.fixed = s.fixed := by
  cases h; rfl
theorem execPwmPeriodStart_fixed {ch : Chan} {s : State} {z : State} (h : execPwmPeriodStart ch s = .next z) : z.fixed = s.fixed := by
  cases h; rfl
theorem execPwmDutyEnd_fixed {ch : Chan} {s : State} {z : State} (h : execPwmDutyEnd ch s = .next z) : z.fixed = s.fixed := by
  cases h; rfl
theorem execShareCompare_fixed {ch : Chan} {currents : List ℕ} {s : State} {z : State} (h : execShareCompare ch currents s = .next z) : z.fixed = s.fixed := by
  cases h; rfl
theorem execFskTransmitEnd_fixed {ch : Chan} {s : State} {z : State} (h : execFskTransmitEnd ch s = .next z) : z.fixed = s.fixed := by
  cases h; rfl
theorem execFskCarrierDetect_fixed {ch : Chan} {s : State} {z : State} (h : execFskCarrierDetect ch s = .next z) : z.fixed = s.fixed := by
  cases h; rfl
theorem execFskOctetReceive_fixed {ch : Chan} {octet : Byte} {parityErr : Bool} {framingErr : Bool} {start : Tick} {s : State} {z : State} (h : execFskOctetReceive ch octet parityErr framingErr start s = .next z) : z.fixed = s.fixed := by
  cases h; rfl
theorem execFskTimeout_fixed {ch : Chan} {s : State} {z : State} (h : execFskTimeout ch s = .next z) : z.fixed = s.fixed := by
  cases h; rfl
theorem execFskReceptionEnd_fixed {ch : Chan} {carrier : Bool} {s : State} {z : State} (h : execFskReceptionEnd ch carrier s = .next z) : z.fixed = s.fixed := by
  cases h; rfl
theorem execChainOutput_fixed {ch : Chan} {samples : List ℤ} {window : Option ℤ} {s : State} {z} (h : execChainOutput ch samples window s = .next z) : z.fixed = s.fixed := by
  cases h; rfl
theorem execFilterChange_fixed {ch : Chan} {s : State} {z : State} (h : execFilterChange ch s = .next z) : z.fixed = s.fixed := by
  cases h; rfl
@[simp] theorem State.decimate_fixed (s : State) (tr : Tick) (src : ℕ) : (State.decimate s tr src).fixed = s.fixed := by
  rfl
theorem execDecimatorReset_fixed {s : State} {z : State} (h : execDecimatorReset s = .next z) : z.fixed = s.fixed := by
  cases h; split <;> simp
@[simp] theorem State.trimFeed_fixed (s : State) (di : DieId) (c : ChanId) : (State.trimFeed s di c).fixed = s.fixed := by
  unfold State.trimFeed; (try dsimp only); (repeat' split) <;> first | rfl | (simp; done) | (simp_all; done)
@[simp] theorem State.trimPairs_fixed (s : State) (ch : Chan) : (State.trimPairs s ch).fixed = s.fixed := by
  unfold State.trimPairs; (try dsimp only); (repeat' split) <;> first | rfl | (simp; done) | (simp_all; done)
theorem execComparatorEdge_fixed {ch : Chan} {rising : Bool} {s : State} {z} (h : execComparatorEdge ch rising s = .next z) : z.fixed = s.fixed := by
  cases h; simp
theorem execFilterTick_fixed {ch : Chan} {s : State} {z} (h : execFilterTick ch s = .next z) : z.fixed = s.fixed := by
  cases h; simp
theorem execEncoderEpisodeEnd_fixed {ch : Chan} {s : State} {z : State} (h : execEncoderEpisodeEnd ch s = .next z) : z.fixed = s.fixed := by
  cases h; rfl
theorem execCountPresetApply_fixed {ch : Chan} {s : State} {z} (h : execCountPresetApply ch s = .next z) : z.fixed = s.fixed := by
  cases h; simp
theorem execCaptureHeldTimeout_fixed {ch : Chan} {s : State} {z : State} (h : execCaptureHeldTimeout ch s = .next z) : z.fixed = s.fixed := by
  cases h; rfl
theorem execCaptureRetire_fixed {id : ℕ} {s : State} {z : State} (h : execCaptureRetire id s = .next z) : z.fixed = s.fixed := by
  cases h; rfl
@[simp] theorem State.axisMove_fixed (s : State) (a : AxisId) (time : Tick) (p : ℤ) : (State.axisMove s a time p).fixed = s.fixed := by
  have h : ∀ (b : Bool) (x y : State), x.fixed = s.fixed → y.fixed = s.fixed → (if b = true then x else y).fixed = s.fixed :=
    fun b x y hx hy => by cases b <;> assumption
  exact h _ _ _ rfl (State.raiseSrc_fixed ..)
@[simp] theorem State.axisSample_fixed (s : State) (x1 : AxisId) (time : Tick) (pos : ℤ) : (State.axisSample s x1 time pos).fixed = s.fixed := by
  unfold State.axisSample; dsimp only; repeat' split
  all_goals first | rfl | exact State.axisMove_fixed _ _ _ _
@[simp] theorem State.axisSettle_fixed (s : State) (a : AxisId) : (State.axisSettle s a).fixed = s.fixed := by
  unfold State.axisSettle; (try dsimp only); (repeat' split) <;> first | rfl | (simp; done) | (simp_all; done)
@[simp] theorem State.axisTake_fixed (s : State) (a : AxisId) (ch : Chan) (n : ℕ) : (State.axisTake s a ch n).fixed = s.fixed := by
  simp [State.axisTake]
@[simp] theorem State.axisEdge_fixed (s : State) (a : AxisId) : (State.axisEdge s a).fixed = s.fixed := by
  unfold State.axisEdge; (try dsimp only); (repeat' split) <;> first | rfl | (simp; done) | (simp_all; done)
theorem execAxisSample_fixed {x1 : AxisId} {time : Tick} {pos : ℤ} {s : State} {z : State} (h : execAxisSample x1 time pos s = .next z) : z.fixed = s.fixed := by
  cases h; simp
@[simp] theorem State.axisZero_fixed (s : State) (a : AxisId) (time : Tick) : (State.axisZero s a time).fixed = s.fixed := by
  simp [State.axisZero]
theorem execAxisZReference_fixed {a : AxisId} {time : Tick} {s : State} {z} (h : execAxisZReference a time s = .next z) : z.fixed = s.fixed := by
  cases h; dsimp only; (repeat' split) <;> first | rfl | (simp; done) | (simp_all; done)
theorem execAxisStill_fixed {x1 : AxisId} {s : State} {z : State} (h : execAxisStill x1 s = .next z) : z.fixed = s.fixed := by
  cases h; simp
theorem execAngleEpisodeEnd_fixed {ch : Chan} {overspeed : Bool} {s : State} {z : State} (h : execAngleEpisodeEnd ch overspeed s = .next z) : z.fixed = s.fixed := by
  cases h; rfl
@[simp] theorem State.mainsMeasure_fixed (s : State) (p : ℕ) (inside : Bool) : (State.mainsMeasure s p inside).fixed = s.fixed := by
  unfold State.mainsMeasure; dsimp only; repeat' split
  all_goals first | rfl | (simp; done) | (simp [*]; done)
theorem execMainsZeroCrossing_fixed {x : BaseCodes} {s : State} {z} (h : execMainsZeroCrossing x s = .next z) : z.fixed = s.fixed := by
  cases h; dsimp only; (repeat' split) <;> first | rfl | (simp; done) | (simp_all; done)
theorem execMainsSourceTimeout_fixed {s : State} {z : State} (h : execMainsSourceTimeout s = .next z) : z.fixed = s.fixed := by
  cases h; simp
theorem execMainsHoldExpiry_fixed {s : State} {z : State} (h : execMainsHoldExpiry s = .next z) : z.fixed = s.fixed := by
  cases h; simp
theorem execMainsBoundarySend_fixed {s : State} {z : State} (h : execMainsBoundarySend s = .next z) : z.fixed = s.fixed := by
  cases h; simp
theorem execMainsWindowEnd_fixed {ch : Chan} {raw : ℤ} {s : State} {z : State} (h : execMainsWindowEnd ch raw s = .next z) : z.fixed = s.fixed := by
  cases h; rfl
theorem execAuxPassStart_fixed {d : DieId} {s : State} {z : State} (h : execAuxPassStart d s = .next z) : z.fixed = s.fixed := by
  cases h; rfl
theorem execAuxEntryEnd_fixed {d : DieId} {result : ℤ} {s : State} {z : State} (h : execAuxEntryEnd d result s = .next z) : z.fixed = s.fixed := by
  cases h; rfl
theorem execUrgentTrigger_fixed {d : DieId} {id : ℕ} {s : State} {z : State} (h : execUrgentTrigger d id s = .next z) : z.fixed = s.fixed := by
  cases h; rfl
theorem execUrgentArrival_fixed {d : DieId} {k : Fin 4} {s : State} {z : State} (h : execUrgentArrival d k s = .next z) : z.fixed = s.fixed := by
  cases h; rfl
theorem execPwmEventTimeout_fixed {d : DieId} {k : Fin 4} {s : State} {z : State} (h : execPwmEventTimeout d k s = .next z) : z.fixed = s.fixed := by
  cases h; rfl
theorem execInjectedSequenceEnd_fixed {d : DieId} {results : List ℤ} {s : State} {z : State} (h : execInjectedSequenceEnd d results s = .next z) : z.fixed = s.fixed := by
  cases h; rfl
theorem execRefCompare_fixed {d : DieId} {diff : ℤ} {s : State} {z : State} (h : execRefCompare d diff s = .next z) : z.fixed = s.fixed := by
  cases h; rfl
theorem execRefSwitch_fixed {d : DieId} {s : State} {z : State} (h : execRefSwitch d s = .next z) : z.fixed = s.fixed := by
  cases h; rfl
theorem execCarouselSlotStart_fixed {d : DieId} {k : SpareId} {s : State} {z : State} (h : execCarouselSlotStart d k s = .next z) : z.fixed = s.fixed := by
  cases h; rfl
theorem execCarouselTakeover_fixed {d : DieId} {k : SpareId} {own spare : List ℤ} {s : State} {z} (h : execCarouselTakeover d k own spare s = .next z) : z.fixed = s.fixed := by
  cases h; rfl
theorem execCarouselPointsEnd_fixed {d : DieId} {k : SpareId} {points : List ℤ} {pairs : List (ℤ × ℤ)} {temp : ℤ} {s : State} {z} (h : execCarouselPointsEnd d k points pairs temp s = .next z) : z.fixed = s.fixed := by
  cases h; rfl
theorem execCarouselHandback_fixed {d : DieId} {k : SpareId} {own spare : List ℤ} {s : State} {z} (h : execCarouselHandback d k own spare s = .next z) : z.fixed = s.fixed := by
  cases h; rfl
theorem execCarouselSelfCalEnd_fixed {d : DieId} {k : SpareId} {points : List ℤ} {temp : ℤ} {s : State} {z : State} (h : execCarouselSelfCalEnd d k points temp s = .next z) : z.fixed = s.fixed := by
  cases h; rfl
@[simp] theorem State.putStore_fixed (s : State) (f : NvStore → NvStore) : (State.putStore s f).fixed = s.fixed := by
  simp [State.putStore]
theorem State.takeRole_fixed {s : State} {key : Bool} {z : State} (h : State.takeRole s key = some z) : z.fixed = s.fixed := by
  unfold State.takeRole at h
  split at h
  · cases h
  · split at h
    · cases h; rfl
    · dsimp only at h
      split at h <;> split at h <;> first | (cases h; rfl) | cases h
theorem execWarmStartWrite_fixed {s : State} {z} (h : execWarmStartWrite s = .next z) : z.fixed = s.fixed := by
  cases h; (try dsimp only)
  split
  · split
    · next e => simp [State.takeRole_fixed e]
    · rfl
  · rfl
theorem execCalPointEnd_fixed {ch : Chan} {openSeen : Bool} {subMeans : List ℤ} {s : State} {z : State} (h : execCalPointEnd ch openSeen subMeans s = .next z) : z.fixed = s.fixed := by
  cases h; split <;> simp
theorem execSysCorrectionApply_fixed {ch : Chan} {s : State} {z : State} (h : execSysCorrectionApply ch s = .next z) : z.fixed = s.fixed := by
  cases h; rfl
@[simp] theorem State.perform_fixed (s : State) (e : Entry) (t : Tick) : (State.perform s e t).fixed = s.fixed := by
  unfold State.perform; split <;> simp
@[simp] theorem State.noteExecuted_fixed (s : State) (e : Entry) (cs : List ChanId) : (State.noteExecuted s e cs).fixed = s.fixed := by
  simp [State.noteExecuted]
@[simp] theorem State.unqueuedMiss_fixed (s : State) (id : ℕ) : (State.unqueuedMiss s id).fixed = s.fixed := by
  unfold State.unqueuedMiss; split <;> simp
theorem execEntryExecute_fixed {id : ℕ} {s : State} {z : State} (h : execEntryExecute id s = .next z) : z.fixed = s.fixed := by
  cases h; split <;> simp
theorem execEntryRetire_fixed {id : ℕ} {s : State} {z : State} (h : execEntryRetire id s = .next z) : z.fixed = s.fixed := by
  cases h; repeat' split
  all_goals first | rfl | (simp; done) | (simp [*]; done)
@[simp] theorem State.cancelEntry_fixed (s : State) (e : Entry) (t : Tick) : (State.cancelEntry s e t).fixed = s.fixed := by
  simp [State.cancelEntry]
theorem execCancelInstant_fixed {s : State} {z} (h : execCancelInstant s = .next z) : z.fixed = s.fixed := by
  cases h
  split
  · dsimp only
    rw [State.commit_fixed, State.respond_fixed, State.modCore_fixed]
    refine foldl_fixed _ (fun t x => ?_) _ _
    split <;> simp
  · rfl
theorem execStaleAgeExpiry_fixed {rec : ℕ} {s : State} {z : State} (h : execStaleAgeExpiry rec s = .next z) : z.fixed = s.fixed := by
  cases h; repeat' split
  all_goals first | rfl | (simp; done) | (simp [*]; done)
@[simp] theorem State.preempted_fixed (s : State) (cls : ℕ) (ids : List ℕ) : (State.preempted s cls ids).fixed = s.fixed := by
  simp [State.preempted]
theorem State.ledgerAdmit_fixed {s : State} {items : List PlanItem} {cls : ℕ} {now : Tick} {below : ℕ} {z} (h : State.ledgerAdmit s items cls now below = .ok z) : z.fixed = s.fixed := by
  unfold State.ledgerAdmit at h; repeat' split at h
  all_goals first | (cases h; rfl) | (cases h; simp; done) | (simp at h; done) | (simp_all; done)
theorem State.admitEntry_fixed {s : State} {who : Who} {v2 : Bool} {below : ℕ} {unit : List (Chan × SchedEntry × Option ChanImg)} {e : SchedEntry} {octets : List Byte} {z} (h : State.admitEntry s who v2 below unit e octets = .ok z) : z.fixed = s.fixed := by
  unfold State.admitEntry at h
  split at h
  · injection h
  · try dsimp only at h
    split at h
    · injection h
    · try dsimp only at h
      refine of_check_fixed h fun h => of_check_fixed h fun h => of_check_fixed h fun h => of_check_fixed h fun h => of_check_fixed h fun h =>
        of_check_fixed h fun h => of_check_fixed h fun h => of_check_fixed h fun h => ?_
      split at h
      · injection h
      · injection h
      · split at h
        · injection h
        · next e =>
          injection h with h
          subst h
          simp [State.ledgerAdmit_fixed e]
theorem State.admitFrom_fixed {s : State} {who : Who} {v2 : Bool} {below : ℕ} {unit : List (Chan × SchedEntry × Option ChanImg)} {x5 : ℕ} {x6 : List (SchedEntry × List Byte)} {z} (h : State.admitFrom s who v2 below unit x5 x6 = .ok z) : z.fixed = s.fixed := by
  induction x6 generalizing s x5 with
  | nil => cases h; rfl
  | cons p rest ih =>
    obtain ⟨e, o⟩ := p
    unfold State.admitFrom at h
    split at h
    · cases h
    · next e1 => rw [ih h, State.admitEntry_fixed e1]
theorem State.admitUnit_fixed {s : State} {who : Who} {v2 : Bool} {es : List (SchedEntry × List Byte)} {z} (h : State.admitUnit s who v2 es = .ok z) : z.fixed = s.fixed := by
  unfold State.admitUnit at h
  split at h
  · cases h
  · split at h
    · cases h
    · next e => cases h; simp [State.admitFrom_fixed e]
@[simp] theorem State.submit_fixed (s : State) (who : Who) (v2 : Bool) (es : List (SchedEntry × List Byte)) : (State.submit s who v2 es).1.fixed = s.fixed := by
  unfold State.submit
  dsimp only
  split
  · next e => simp [State.admitUnit_fixed e]
  · split <;> (try split) <;> simp
@[simp] theorem State.deferEnd_fixed (s : State) (u : DeferUnit) (result : ℕ) (reason : ℕ) : (State.deferEnd s u result reason).fixed = s.fixed := by
  rfl
@[simp] theorem State.retryUnit_fixed (s : State) (u : DeferUnit) : (State.retryUnit s u).fixed = s.fixed := by
  unfold State.retryUnit
  dsimp only
  split
  · simp
  · split
    · next e => simp [State.admitUnit_fixed e]
    · simp
theorem execDeferralRetry_fixed {s : State} {z : State} (h : execDeferralRetry s = .next z) : z.fixed = s.fixed := by
  cases h; simp
theorem execLedgerEpoch_fixed {d : DieId} {metered : ℕ} {s : State} {z : State} (h : execLedgerEpoch d metered s = .next z) : z.fixed = s.fixed := by
  cases h; simp
@[simp] theorem State.chargeMetered_fixed (s : State) (ch : Chan) (heat : ℕ) : (State.chargeMetered s ch heat).fixed = s.fixed := by
  unfold State.chargeMetered; dsimp only; repeat' split
  all_goals first | rfl | (simp; done) | (simp [*]; done)
theorem execHeatMetering_fixed {d : DieId} {m : HeatSample} {s : State} {z : State} (h : execHeatMetering d m s = .next z) : z.fixed = s.fixed := by
  cases h; split
  · rw [State.commit_fixed, foldl_fixed _ fun t c => State.chargeMetered_fixed ..]; rfl
  · rfl
@[simp] theorem State.modLedger_fixed (s : State) (h : HubId) (f : LedgerRegs → LedgerRegs) : (State.modLedger s h f).fixed = s.fixed := by
  simp [State.modLedger]
@[simp] theorem State.policyEvent_fixed (s : State) (h : HubId) (clip : Bool) : (State.policyEvent s h clip).fixed = s.fixed := by
  simp [State.policyEvent]
theorem execOperatingPointAdjust_fixed {h : HubId} {busyPct : ℕ} {s : State} {z : State} (h : execOperatingPointAdjust h busyPct s = .next z) : z.fixed = s.fixed := by
  cases h; simp
theorem execPolicyEpisodeEnd_fixed {h : HubId} {clip : Bool} {s : State} {z : State} (h : execPolicyEpisodeEnd h clip s = .next z) : z.fixed = s.fixed := by
  cases h; simp
@[simp] theorem State.confirmPoint_fixed (s : State) (h : HubId) : (State.confirmPoint s h).fixed = s.fixed := by
  unfold State.confirmPoint; split <;> simp
theorem execVoltageConfirm_fixed {h : HubId} {s : State} {z : State} (h : execVoltageConfirm h s = .next z) : z.fixed = s.fixed := by
  cases h; simp
theorem execVreqAck_fixed {h : HubId} {s : State} {z : State} (h : execVreqAck h s = .next z) : z.fixed = s.fixed := by
  cases h; simp
theorem execVreqTimeout_fixed {h : HubId} {s : State} {z : State} (h : execVreqTimeout h s = .next z) : z.fixed = s.fixed := by
  cases h; split <;> simp
@[simp] theorem State.modCoreOf_fixed (s : State) (h : HubId) (f : Core → Core) : (State.modCoreOf s h f).fixed = s.fixed := by
  simp [State.modCoreOf]
@[simp] theorem State.readReg_fixed (s : State) (p : PageRef) (off : ℕ) : (State.readReg s p off).1.fixed = s.fixed := by
  simp [State.readReg]
@[simp] theorem State.unheard_fixed (s : State) (p : PageRef) : (State.unheard s p).fixed = s.fixed := by
  unfold State.unheard; (try dsimp only); (repeat' split) <;> first | rfl | (simp; done) | (simp_all; done)
@[simp] theorem State.noteUsable_fixed (old : State) (s : State) : (State.noteUsable old s).fixed = s.fixed := by
  simp [State.noteUsable]
@[simp] theorem State.enterSync_fixed (s : State) (st : SyncState) (ev : Option Ev) : (State.enterSync s st ev).fixed = s.fixed := by
  unfold State.enterSync; (try dsimp only); (repeat' split) <;> first | rfl | (simp; done) | (simp_all; done)
@[simp] theorem State.writeAccept_fixed (s : State) (b : Bool) : (State.writeAccept s b).fixed = s.fixed := by
  simp [State.writeAccept]
@[simp] theorem State.modPtp_fixed (s : State) (p : PortId) (f : PtpPort → PtpPort) : (State.modPtp s p f).fixed = s.fixed := by
  rfl
@[simp] theorem State.bmca_fixed (s : State) : (State.bmca s).fixed = s.fixed := by
  unfold State.bmca; dsimp only; repeat' split
  all_goals first | rfl | (simp; done) | (simp [*]; done)
@[simp] theorem State.noteMix_fixed (old : State) (s : State) : (State.noteMix old s).fixed = s.fixed := by
  unfold State.noteMix; repeat' split
  all_goals first | rfl | (simp; done) | (simp [*]; done)
@[simp] theorem State.ptpRestart_fixed (s : State) (p : PortId) (forget : Bool) : (State.ptpRestart s p forget).fixed = s.fixed := by
  simp [State.ptpRestart]
@[simp] theorem State.loseAnnounce_fixed (s : State) (p : PortId) : (State.loseAnnounce s p).fixed = s.fixed := by
  simp [State.loseAnnounce]
@[simp] theorem State.stopPorts_fixed (s : State) (h : HubId) : (State.stopPorts s h).fixed = s.fixed := by
  unfold State.stopPorts; dsimp only; split
  · simp only [State.settlePackage_fixed, State.bmca_fixed]; rfl
  · rfl
@[simp] theorem State.resetHubCounters_fixed (s : State) (h : HubId) (r : Fin 12) : (State.resetHubCounters s h r).fixed = s.fixed := by
  have e : ((s.modHub h (·.resetCounters (s.base.hubs[h.val]) r.val)).modCoreOf h (·.resetCounters (s.baseCore h) r.val)).fixed = s.fixed := by
    simp
  unfold State.resetHubCounters; dsimp only; repeat' split
  all_goals exact e
@[simp] theorem State.blockReset_fixed (s : State) (p : PageRef) : (State.blockReset s p).fixed = s.fixed := by
  unfold State.blockReset; split <;> simp
@[simp] theorem State.setFreeze_fixed (s : State) (p : PageRef) (b : Bool) : (State.setFreeze s p b).fixed = s.fixed := by
  simp [State.setFreeze]
@[simp] theorem State.writeHdr_fixed (s : State) (p : PageRef) (off : ℕ) (w : Word) : (State.writeHdr s p off w).fixed = s.fixed := by
  unfold State.writeHdr; split <;> simp
@[simp] theorem State.shiftOut_fixed (s : State) (h : HubId) (l : List Word) : (State.shiftOut s h l).fixed = s.fixed := by
  rfl
@[simp] theorem State.release_fixed (s : State) (x1 : HeldBack) : (State.release s x1).fixed = s.fixed := by
  unfold State.release; repeat' split
  all_goals first | rfl | (simp; done) | (simp [*]; done)
@[simp] theorem State.releaseTo_fixed (s : State) (k : ℕ) : (State.releaseTo s k).fixed = s.fixed := by
  simp [State.releaseTo]
@[simp] theorem State.applyUnit_fixed (s : State) (u : MUnit) : (State.applyUnit s u).fixed = s.fixed := by
  unfold State.applyUnit
  dsimp only
  rw [State.mk_fixed, State.fixed_mk]
  refine foldl_fixed _ (fun x w => ?_) _ _
  split <;> simp
@[simp] theorem State.stopMirror_fixed (s : State) : (State.stopMirror s).fixed = s.fixed := by
  simp [State.stopMirror]
@[simp] theorem State.dropMirror_fixed (s : State) : (State.dropMirror s).fixed = s.fixed := by
  rfl
@[simp] theorem State.finishMirror_fixed (s : State) : (State.finishMirror s).fixed = s.fixed := by
  simp [State.finishMirror]
@[simp] theorem State.startSwitchover_fixed (s : State) (cause : ℕ) (req : Option Req) : (State.startSwitchover s cause req).fixed = s.fixed := by
  simp [State.startSwitchover]
@[simp] theorem State.becomeActive_fixed (s : State) (h : HubId) (failed : Bool) : (State.becomeActive s h failed).fixed = s.fixed := by
  unfold State.becomeActive; dsimp only; split
  · rw [State.stopPorts_fixed]; rfl
  · rw [State.bmca_fixed]; rfl
@[simp] theorem State.retireRecorded_fixed (s : State) : (State.retireRecorded s).fixed = s.fixed := by
  unfold State.retireRecorded
  refine foldl_fixed _ (fun t e => ?_) _ _
  split <;> simp
@[simp] theorem State.takeOver_fixed (s : State) (h : HubId) : (State.takeOver s h).fixed = s.fixed := by
  simp [State.takeOver]
@[simp] theorem State.switchOver_fixed (s : State) (h : HubId) (ts : Tick) (t0 : ℕ) (req : Option Req) (cause : ℕ) :
    (State.switchOver s h ts t0 req cause).fixed = s.fixed := by
  unfold State.switchOver; dsimp only; split <;> simp
@[simp] theorem State.takeoverComplete_fixed (s : State) (h : HubId) : (State.takeoverComplete s h).fixed = s.fixed := by
  unfold State.takeoverComplete; dsimp only; repeat' split
  all_goals first | rfl | simp
@[simp] theorem State.raiseFault_fixed (s : State) (h : HubId) (source : ℕ) (unit : ℕ) : (State.raiseFault s h source unit).fixed = s.fixed := by
  rfl
@[simp] theorem State.hubFault_fixed (s : State) (h : HubId) : (State.hubFault s h).fixed = s.fixed := by
  simp [State.hubFault]
@[simp] theorem State.box_fixed (s : State) (hh : HubId) (t : Tick) (recs : List (ℕ × List Byte)) : (State.box s hh t recs).fixed = s.fixed := by
  rfl
@[simp] theorem State.boxSnapshot_fixed (s : State) (hs : List HubId) (ds : List DieId) (t : Tick) : (State.boxSnapshot s hs ds t).fixed = s.fixed := by
  simp [State.boxSnapshot]
@[simp] theorem State.poolMismatch_fixed (s : State) (hs : List HubId) (ds : List DieId) (t : Tick) (b : Bool) : (State.poolMismatch s hs ds t b).fixed = s.fixed := by
  unfold State.poolMismatch
  dsimp only
  repeat' split
  all_goals simp
@[simp] theorem State.modLink_fixed (s : State) (l : Link) (f : Lane → Lane) : (State.modLink s l f).fixed = s.fixed := by
  unfold State.modLink; split <;> simp
@[simp] theorem State.creditDown_fixed (s : State) (hh : HubId) (d : DieId) (n : ℕ) : (State.creditDown s hh d n).fixed = s.fixed := by
  rfl
@[simp] theorem State.frameDown_fixed (s : State) (hh : HubId) (d : DieId) (type : ℕ) (payload : Dword) : (State.frameDown s hh d type payload).fixed = s.fixed := by
  rfl
@[simp] theorem State.bufferedDown_fixed (s : State) (h : HubId) (d : DieId) (x : DownItem) (payload : Dword) : (State.bufferedDown s h d x payload).fixed = s.fixed := by
  rfl
@[simp] theorem State.strayDown_fixed (s : State) (h : HubId) (d : DieId) (x : DownItem) (payload : Dword) : (State.strayDown s h d x payload).fixed = s.fixed := by
  rfl
@[simp] theorem State.sendDown_fixed (s : State) (h : HubId) (d : DieId) (x : DownItem) (payload : Dword) (f : State → State) (fk : ∀ y0, (f y0).fixed = y0.fixed) : (State.sendDown s h d x payload f).fixed = s.fixed := by
  unfold State.sendDown; repeat' split
  all_goals first | rfl | (rw [fk]; rfl)
@[simp] theorem State.passStr_fixed (s : State) (hh : HubId) (type : StrType) (payload : Dword) : (State.passStr s hh type payload).fixed = s.fixed := by
  rfl
@[simp] theorem State.countStr_fixed (s : State) (h : HubId) (f : LinkErr → LinkErr) : (State.countStr s h f).fixed = s.fixed := rfl
@[simp] theorem State.strayStr_fixed (s : State) (hh : HubId) (type : StrType) (payload : Dword) : (State.strayStr s hh type payload).fixed = s.fixed := by
  rfl
@[simp] theorem State.gotStr_fixed (s : State) (hh : HubId) (type : ℕ) (payload : Dword) : (State.gotStr s hh type payload).fixed = s.fixed := by
  rfl
@[simp] theorem State.sendStr_fixed (s : State) (hh : HubId) (type : StrType) (payload : Dword) (f : State → State) (fk : ∀ y0, (f y0).fixed = y0.fixed) : (State.sendStr s hh type payload f).fixed = s.fixed := by
  simp [State.sendStr, fk]
theorem execOutputStateSend_fixed {d : DieId} {s : State} {z : State} (h : execOutputStateSend d s = .next z) : z.fixed = s.fixed := by
  cases h; simp
theorem execOutputStateReceive_fixed {hh : HubId} {d : DieId} {k : Fin 4} {s : State} {z} (h : execOutputStateReceive hh d k s = .next z) : z.fixed = s.fixed := by
  cases h; simp
theorem execStatusSend_fixed {d : DieId} {s : State} {z : State} (h : execStatusSend d s = .next z) : z.fixed = s.fixed := by
  cases h; rfl
@[simp] theorem State.pushConfig_fixed (s : State) (ch : Chan) : (State.pushConfig s ch).fixed = s.fixed := by
  simp [State.pushConfig]
@[simp] theorem State.pushIntent_fixed (s : State) (ch : Chan) : (State.pushIntent s ch).fixed = s.fixed := by
  unfold State.pushIntent; split <;> simp
@[simp] theorem State.stateSkew_fixed (s : State) (ch : Chan) (w : Word) : (State.stateSkew s ch w).fixed = s.fixed := by
  simp [State.stateSkew]
@[simp] theorem State.compareShadow_fixed (s : State) (ch : Chan) (w : Word) : (State.compareShadow s ch w).fixed = s.fixed := by
  simp [State.compareShadow]
theorem execStatusReceive_fixed {h : HubId} {d : DieId} {k : Fin 8} {s : State} {z : State} (h : execStatusReceive h d k s = .next z) : z.fixed = s.fixed := by
  cases h; simp
theorem execTimeFrameSend_fixed {l : Link} {s : State} {z} (h : execTimeFrameSend l s = .next z) : z.fixed = s.fixed := by
  cases h; split <;> simp
theorem execTimeFrameReceive_fixed {h : HubId} {d : Option DieId} {s : State} {z} (h : execTimeFrameReceive h d s = .next z) : z.fixed = s.fixed := by
  cases h; dsimp only; (repeat' split) <;> first | rfl | (simp; done) | (simp_all; done)
theorem execCoastingStart_fixed {d : DieId} {s : State} {z} (h : execCoastingStart d s = .next z) : z.fixed = s.fixed := by
  cases h; simp
theorem execLaneDelayMeasure_fixed {h : HubId} {d : Option DieId} {roundTrip : ℕ} {s : State} {z} (h : execLaneDelayMeasure h d roundTrip s = .next z) : z.fixed = s.fixed := by
  cases h; dsimp only; (repeat' split) <;> first | rfl | (simp; done) | (simp_all; done)
theorem execPromotionBegin_fixed {id : ℕ} {s : State} {z : State} (h : execPromotionBegin id s = .next z) : z.fixed = s.fixed := by
  cases h; split <;> simp
@[simp] theorem State.takePromo_fixed (s : State) (h : HubId) (d : DieId) (id n : ℕ) : (State.takePromo s h d id n).fixed = s.fixed := by
  simp [State.takePromo]
theorem execPromotionFrameReceive_fixed {h : HubId} {d : DieId} {s : State} {z : State} (h : execPromotionFrameReceive h d s = .next z) : z.fixed = s.fixed := by
  cases h; split <;> simp
@[simp] theorem State.takeUp_fixed (s : State) (hh : HubId) (d : DieId) (x : LaneItem) : (State.takeUp s hh d x).fixed = s.fixed := by
  simp [State.takeUp]
@[simp] theorem State.strayUp_fixed (s : State) (hh : HubId) (d : DieId) (x : LaneItem) : (State.strayUp s hh d x).fixed = s.fixed := by
  rfl
@[simp] theorem State.sendUp_fixed (s : State) (hh : HubId) (d : DieId) (x : LaneItem) (f : State → State) (fk : ∀ y0, (f y0).fixed = y0.fixed) : (State.sendUp s hh d x f).fixed = s.fixed := by
  simp [State.sendUp, fk]
theorem execResultFrameReceive_fixed {d : DieId} {s : State} {z : State} (h : execResultFrameReceive d s = .next z) : z.fixed = s.fixed := by
  cases h; split <;> simp
theorem execCaptureFrameReceive_fixed {d : DieId} {s : State} {z : State} (h : execCaptureFrameReceive d s = .next z) : z.fixed = s.fixed := by
  cases h; split <;> simp
theorem execAngleTagFrameReceive_fixed {d : DieId} {s : State} {z : State} (h : execAngleTagFrameReceive d s = .next z) : z.fixed = s.fixed := by
  cases h; split <;> simp
theorem execEventFrameReceive_fixed {d : DieId} {s : State} {z : State} (h : execEventFrameReceive d s = .next z) : z.fixed = s.fixed := by
  cases h; split <;> simp
theorem execFrameConsume_fixed {l : Link} {dir : Dir} {s : State} {z : State} (h : execFrameConsume l dir s = .next z) : z.fixed = s.fixed := by
  cases h; split <;> simp
@[simp] theorem State.loseUp_fixed (s : State) (hh : HubId) (d : DieId) : (State.loseUp s hh d).fixed = s.fixed := by
  unfold State.loseUp; (try dsimp only); (repeat' split) <;> first | rfl | (simp; done) | (simp_all; done)
@[simp] theorem State.loseFrame_fixed (s : State) (l : Link) (dir : Dir) : (State.loseFrame s l dir).fixed = s.fixed := by
  unfold State.loseFrame; (try dsimp only); (repeat' split) <;> first | rfl | (simp; done) | (simp_all; done)
@[simp] theorem State.countFail_fixed (s : State) (l : Link) (dir : Dir) (b : Bool) : (State.countFail s l dir b).fixed = s.fixed := by
  unfold State.countFail; (try dsimp only); (repeat' split) <;> first | rfl | (simp; done) | (simp_all; done)
theorem execFrameCrcFail_fixed {l : Link} {dir : Dir} {buffered : Bool} {s : State} {z} (h : execFrameCrcFail l dir buffered s = .next z) : z.fixed = s.fixed := by
  cases h; (repeat' split) <;> first | rfl | (simp; done) | (simp_all; done)
@[simp] theorem State.replayOn_fixed (s : State) (l : Link) (dir : Dir) (seq : ℕ) : (State.replayOn s l dir seq).fixed = s.fixed := by
  unfold State.replayOn; (try dsimp only); (repeat' split) <;> first | rfl | (simp; done) | (simp_all; done)
theorem execReplayRequestReceive_fixed {l : Link} {dir : Dir} {seq : Fin 16} {s : State} {z : State} (h : execReplayRequestReceive l dir seq s = .next z) : z.fixed = s.fixed := by
  cases h; simp
theorem execLaneCrcRun_fixed {hh : HubId} {d : Option DieId} {s : State} {z : State} (h : execLaneCrcRun hh d s = .next z) : z.fixed = s.fixed := by
  cases h; cases d <;> (repeat' split) <;> first | rfl | (simp; done) | (simp_all; done)
theorem execTrainingComplete_fixed {l : Link} {version occDown occUp : ℕ} {s : State} {z} (h : execTrainingComplete l version occDown occUp s = .next z) : z.fixed = s.fixed := by
  cases h; repeat' split
  all_goals first | rfl | (simp; done) | (simp [*]; done)
theorem execLaneFailed_fixed {h : HubId} {d : DieId} {s : State} {z : State} (h : execLaneFailed h d s = .next z) : z.fixed = s.fixed := by
  cases h; simp
theorem execLaneTrainingRetry_fixed {hh : HubId} {d : Option DieId} {s : State} {z : State} (h : execLaneTrainingRetry hh d s = .next z) : z.fixed = s.fixed := by
  cases h; cases d <;> (repeat' split) <;> first | rfl | (simp; done) | (simp_all; done)
theorem execIdleFrameReceive_fixed {hh : HubId} {d : Option DieId} {s : State} {z : State} (h : execIdleFrameReceive hh d s = .next z) : z.fixed = s.fixed := by
  cases h; cases d <;> (repeat' split) <;> first | rfl | (simp; done) | (simp_all; done)
theorem execRenewSend_fixed {h : HubId} {s : State} {z : State} (h : execRenewSend h s = .next z) : z.fixed = s.fixed := by
  cases h; simp
@[simp] theorem State.sendLease_fixed (s : State) (hh : HubId) (d : DieId) (m : LeaseMsg) (f : State → State) (fk : ∀ y0, (f y0).fixed = y0.fixed) : (State.sendLease s hh d m f).fixed = s.fixed := by
  simp [State.sendLease, fk]
theorem execRenewReceive_fixed {hh : HubId} {d : DieId} {s : State} {z} (h : execRenewReceive hh d s = .next z) : z.fixed = s.fixed := by
  cases h; (try dsimp only)
  split
  · apply State.sendLease_fixed; intro y; rfl
  · rfl
theorem execClaimSend_fixed {h : HubId} {s : State} {z : State} (h : execClaimSend h s = .next z) : z.fixed = s.fixed := by
  cases h; simp
@[simp] theorem State.takeClaim_fixed (s : State) (hh : HubId) (d : DieId) (resume : ℕ) : (State.takeClaim s hh d resume).fixed = s.fixed := by
  unfold State.takeClaim; (try dsimp only); (repeat' split) <;> first | rfl | (simp; done) | (simp_all; done)
theorem execClaimReceive_fixed {hh : HubId} {d : DieId} {s : State} {z} (h : execClaimReceive hh d s = .next z) : z.fixed = s.fixed := by
  unfold execClaimReceive at h; (repeat' split at h) <;> (cases h; first | rfl | (simp; done) | (simp_all; done))
theorem execReleaseReceive_fixed {hh : HubId} {d : DieId} {s : State} {z} (h : execReleaseReceive hh d s = .next z) : z.fixed = s.fixed := by
  cases h; (try dsimp only)
  split
  · apply State.sendLease_fixed; intro y; rfl
  · rfl
@[simp] theorem State.resumePromotion_fixed (s : State) (h : HubId) (d : DieId) (cnt : ℕ) : (State.resumePromotion s h d cnt).fixed = s.fixed := by
  simp [State.resumePromotion]
@[simp] theorem State.takeGrant_fixed (s : State) (hh : HubId) (d : DieId) (cnt : ℕ) : (State.takeGrant s hh d cnt).fixed = s.fixed := by
  simp [State.takeGrant]
theorem execGrantReceive_fixed {h : HubId} {d : DieId} {s : State} {z : State} (h : execGrantReceive h d s = .next z) : z.fixed = s.fixed := by
  cases h; split <;> simp
theorem execLeaseExpiry_fixed {d : DieId} {s : State} {z : State} (h : execLeaseExpiry d s = .next z) : z.fixed = s.fixed := by
  cases h; rfl
theorem execHeartbeatSend_fixed {h : HubId} {s : State} {z : State} (h : execHeartbeatSend h s = .next z) : z.fixed = s.fixed := by
  cases h; simp
theorem execHeartbeatReceive_fixed {hh : HubId} {s : State} {z} (h : execHeartbeatReceive hh s = .next z) : z.fixed = s.fixed := by
  cases h; split <;> simp
theorem execHeartbeatMissed_fixed {h : HubId} {s : State} {z : State} (h : execHeartbeatMissed h s = .next z) : z.fixed = s.fixed := by
  cases h; simp
theorem execLossOfActiveHub_fixed {s : State} {z : State} (h : execLossOfActiveHub s = .next z) : z.fixed = s.fixed := by
  cases h; simp
theorem execTakeoverClaimTimeout_fixed {s : State} {z : State} (h : execTakeoverClaimTimeout s = .next z) : z.fixed = s.fixed := by
  cases h; split <;> simp
theorem execActiveHubStop_fixed {s : State} {z : State} (h : execActiveHubStop s = .next z) : z.fixed = s.fixed := by
  cases h; simp
theorem execMirrorFrameReceive_fixed {s : State} {z} (h : execMirrorFrameReceive s = .next z) : z.fixed = s.fixed := by
  cases h; (try dsimp only)
  split
  · rfl
  · split
    · apply State.sendStr_fixed; intro y; rfl
    · rfl
theorem execMirrorCommitReceive_fixed {s : State} {z : State} (h : execMirrorCommitReceive s = .next z) : z.fixed = s.fixed := by
  cases h; split <;> simp
theorem execMirrorCommitAck_fixed {s : State} {z : State} (h : execMirrorCommitAck s = .next z) : z.fixed = s.fixed := by
  cases h; simp
theorem execRoleLeaseReceive_fixed {h : HubId} {r : Role} {granted : Bool} {s : State} {z : State} (h : execRoleLeaseReceive h r granted s = .next z) : z.fixed = s.fixed := by
  cases h; simp
theorem execRoleLeaseExpiry_fixed {h : HubId} {r : Role} {s : State} {z : State} (h : execRoleLeaseExpiry h r s = .next z) : z.fixed = s.fixed := by
  cases h; split <;> simp
theorem execStringFault_fixed {s : State} {z : State} (h : execStringFault s = .next z) : z.fixed = s.fixed := by
  cases h; simp
@[simp] theorem State.lostBanks_fixed (s : State) (hh : HubId) (n : NvStore) : (State.lostBanks s hh n).fixed = s.fixed := by
  simp [State.lostBanks]
@[simp] theorem State.syncAnew_fixed (s : State) : (State.syncAnew s).fixed = s.fixed := by
  simp [State.syncAnew]
@[simp] theorem State.resetString_fixed (s : State) : (State.resetString s).fixed = s.fixed := rfl
@[simp] theorem State.copyHdr_fixed (s : State) (r : Fin 12) : (State.copyHdr s r).fixed = s.fixed := by
  simp [State.copyHdr]
@[simp] theorem State.copyHdrs_fixed (s : State) : (State.copyHdrs s).fixed = s.fixed :=
  foldl_fixed _ (fun _ _ => State.copyHdr_fixed _ _) _ _
@[simp] theorem State.restartHub_fixed (s : State) (h : HubId) : (State.restartHub s h).fixed = s.fixed := by
  simp [State.restartHub]
theorem execHubSelfCheckFail_fixed {h : HubId} {s : State} {z : State} (h : execHubSelfCheckFail h s = .next z) : z.fixed = s.fixed := by
  cases h; simp
theorem execPoolCheck_fixed {d : DieId} {s : State} {z} (h : execPoolCheck d s = .next z) : z.fixed = s.fixed := by
  cases h; simp
theorem execPoolAuditSnapshot_fixed {s : State} {z} (h : execPoolAuditSnapshot s = .next z) : z.fixed = s.fixed := by
  cases h; split <;> simp
theorem execLogWrite_fixed {h : HubId} {s : State} {z : State} (h : execLogWrite h s = .next z) : z.fixed = s.fixed := by
  cases h; split <;> simp
theorem execBlackBoxCopy_fixed {h : HubId} {s : State} {z : State} (h : execBlackBoxCopy h s = .next z) : z.fixed = s.fixed := by
  cases h; simp
@[simp] theorem State.spiEvents_fixed (s : State) : (State.spiEvents s).fixed = s.fixed := by
  simp [State.spiEvents]
theorem execEventDatagramSend_fixed {w : Who} {s : State} {z : State} (h : execEventDatagramSend w s = .next z) : z.fixed = s.fixed := by
  cases h; repeat' split
  all_goals first | rfl | (simp; done) | (simp [*]; done)
@[simp] theorem State.correct_fixed (s : State) (offset : ℤ) : (State.correct s offset).fixed = s.fixed := by
  simp [State.correct]
@[simp] theorem State.servo_fixed (s : State) (offset : ℤ) : (State.servo s offset).fixed = s.fixed := by
  rfl
@[simp] theorem State.measure_fixed (s : State) (offset : ℤ) : (State.measure s offset).fixed = s.fixed := by
  unfold State.measure; split <;> (try split) <;> simp
theorem execSyncReceive_fixed {p : PortId} {media : PtpMedia} {m : SyncMsg} {s : State} {z} (h : execSyncReceive p media m s = .next z) : z.fixed = s.fixed := by
  cases h; simp
theorem execAnnounceReceive_fixed {p : PortId} {x1 : Announce} {s : State} {z : State} (h : execAnnounceReceive p x1 s = .next z) : z.fixed = s.fixed := by
  cases h; simp
theorem execSyncReceiptTimeout_fixed {p : PortId} {s : State} {z : State} (h : execSyncReceiptTimeout p s = .next z) : z.fixed = s.fixed := by
  cases h; simp
theorem execAnnounceReceiptTimeout_fixed {p : PortId} {s : State} {z : State} (h : execAnnounceReceiptTimeout p s = .next z) : z.fixed = s.fixed := by
  cases h; simp
theorem execHoldoverLimit_fixed {s : State} {z : State} (h : execHoldoverLimit s = .next z) : z.fixed = s.fixed := by
  cases h; simp
theorem execTxTimestampMissing_fixed {p : PortId} {s : State} {z : State} (h : execTxTimestampMissing p s = .next z) : z.fixed = s.fixed := by
  cases h; simp
theorem execFaultyEnd_fixed {p : PortId} {s : State} {z} (h : execFaultyEnd p s = .next z) : z.fixed = s.fixed := by
  cases h; simp
@[simp] theorem State.stepTime_fixed (s : State) (ts : Tick) (delta : ℤ) : (State.stepTime s ts delta).fixed = s.fixed := by
  unfold State.stepTime; dsimp only; repeat' split
  all_goals first | rfl | (simp; done) | (simp [*]; done)
theorem execTimeStep_fixed {s : State} {z : State} (h : execTimeStep s = .next z) : z.fixed = s.fixed := by
  cases h; split <;> simp
@[simp] theorem State.addReset_fixed (s : State) (tr : Tick) (src : ℕ) : (State.addReset s tr src).fixed = s.fixed := by
  rfl
theorem execSyncInEdge_fixed {lowFor : ℕ} {highFor : ℕ} {s : State} {z : State} (h : execSyncInEdge lowFor highFor s = .next z) : z.fixed = s.fixed := by
  cases h; simp
theorem execTimeStatusRead_fixed {r : Req} {s : State} {z : State} (h : execTimeStatusRead r s = .next z) : z.fixed = s.fixed := by
  cases h; simp
theorem execTimeStatusLoad_fixed {r : Req} {t : Dword} {s : State} {z : State} (h : execTimeStatusLoad r t s = .next z) : z.fixed = s.fixed := by
  cases h
  refine State.command_fixed _ _ _ _ fun x => ?_
  repeat' split
  all_goals first | rfl | (simp; done)
theorem execTimeStatusWriteAccept_fixed {r : Req} {v : Byte} {s : State} {z : State} (h : execTimeStatusWriteAccept r v s = .next z) : z.fixed = s.fixed := by
  cases h; refine State.command_fixed _ _ _ _ fun x => ?_
  repeat' split
  all_goals first | rfl | (simp; done) | (simp [*]; done)
@[simp] theorem State.offWrite_fixed (s : State) : (State.offWrite s).fixed = s.fixed := by
  rfl
@[simp] theorem State.access_fixed (s : State) (p : Path) (pg : PageRef) (off : ℕ) (f : State → State) (hf : ∀ x, (f x).fixed = x.fixed) : (State.access s p pg off f).fixed = s.fixed := by
  unfold State.access; repeat' split
  all_goals first | rfl | (simp; done) | (simp [*]; done)
@[simp] theorem State.accessed_fixed (s : State) (p : Path) (pg : PageRef) (off : ℕ) (f : State → State) (hf : ∀ x, (f x).fixed = x.fixed) : (State.accessed s p pg off f).fixed = s.fixed := by
  unfold State.accessed; repeat' split
  all_goals first | rfl | (simp; done) | (simp [*]; done)
@[simp] theorem State.hdrWrite_fixed (s : State) (pg : PageRef) (off : ℕ) (w : Word) : (State.hdrWrite s pg off w).fixed = s.fixed := by
  unfold State.hdrWrite; split <;> simp
@[simp] theorem State.fieldSafe_fixed (s : State) : (State.fieldSafe s).fixed = s.fixed := by
  rfl
@[simp] theorem State.wdAction_fixed (s : State) (code : ℕ) : (State.wdAction s code).fixed = s.fixed := by
  unfold State.wdAction; split <;> simp
@[simp] theorem State.wdViolate_fixed (s : State) (v : Violation) (start : ℕ) : (State.wdViolate s v start).fixed = s.fixed := by
  simp [State.wdViolate]
@[simp] theorem State.wdCatchUp_fixed (s : State) (a : ℕ) : (State.wdCatchUp s a).fixed = s.fixed := by
  simp [State.wdCatchUp]
theorem execWatchdogLate_fixed {s : State} {z : State} (h : execWatchdogLate s = .next z) : z.fixed = s.fixed := by
  cases h; simp
@[simp] theorem State.serveNow_fixed (s : State) (v : Word) (a : ℕ) : (State.serveNow s v a).1.fixed = s.fixed := by
  unfold State.serveNow; dsimp only; repeat' split
  all_goals first | rfl | (simp; done) | (simp [*]; done)
@[simp] theorem State.serveAt_fixed (s : State) (v : Word) (a : ℕ) : (State.serveAt s v a).1.fixed = s.fixed := by
  unfold State.serveAt; dsimp only; split <;> simp
@[simp] theorem State.serve_fixed (s : State) (v : Word) : (State.serve s v).1.fixed = s.fixed := by
  simp [State.serve]
theorem execServeKeyA_fixed {p : Path} {h : HubId} {s : State} {z : State} (h : execServeKeyA p h s = .next z) : z.fixed = s.fixed := by
  cases h; simp
theorem execServeKeyB_fixed {p : Path} {h : HubId} {s : State} {z : State} (h : execServeKeyB p h s = .next z) : z.fixed = s.fixed := by
  cases h; simp
theorem execServeOtherValue_fixed {p : Path} {h : HubId} {v : Word} {s : State} {z : State} (h : execServeOtherValue p h v s = .next z) : z.fixed = s.fixed := by
  cases h; simp
@[simp] theorem State.wdReject_fixed (s : State) : (State.wdReject s).fixed = s.fixed := by
  rfl
@[simp] theorem State.tsoldCtrl_fixed (s : State) (w : Word) : (State.tsoldCtrl s w).1.fixed = s.fixed := by
  unfold State.tsoldCtrl; dsimp only; repeat' split
  all_goals first | rfl | (simp; done) | (simp [*]; done)
@[simp] theorem State.tsoldPeriod_fixed (s : State) (w : Word) : (State.tsoldPeriod s w).1.fixed = s.fixed := by
  unfold State.tsoldPeriod; dsimp only; repeat' split
  all_goals first | rfl | (simp; done) | (simp [*]; done)
@[simp] theorem State.tsoldCtrlWrite_fixed (s : State) (p : Path) (w : Word) : (State.tsoldCtrlWrite s p w).fixed = s.fixed := by
  simp [State.tsoldCtrlWrite]
@[simp] theorem State.tsoldPeriodWrite_fixed (s : State) (p : Path) (w : Word) : (State.tsoldPeriodWrite s p w).fixed = s.fixed := by
  simp [State.tsoldPeriodWrite]
theorem execTsoldEnSet_fixed {p : Path} {h : HubId} {w : Word} {s : State} {z : State} (h : execTsoldEnSet p h w s = .next z) : z.fixed = s.fixed := by
  cases h; simp
theorem execTsoldActionWrite_fixed {p : Path} {h : HubId} {w : Word} {s : State} {z : State} (h : execTsoldActionWrite p h w s = .next z) : z.fixed = s.fixed := by
  cases h; simp
theorem execTsoldPeriodWrite_fixed {p : Path} {h : HubId} {w : Word} {s : State} {z : State} (h : execTsoldPeriodWrite p h w s = .next z) : z.fixed = s.fixed := by
  cases h; simp
@[simp] theorem State.ifServing_fixed (s : State) (x : Response) : (State.ifServing s x).1.fixed = s.fixed := by
  rfl
theorem execWatchdogConfigure_fixed {r : Req} {period : Word} {ctrl : Word} {which : Byte} {s : State} {z : State} (h : execWatchdogConfigure r period ctrl which s = .next z) : z.fixed = s.fixed := by
  cases h; refine State.commandLater_fixed _ _ _ _ fun x => ?_
  dsimp only; repeat' split
  all_goals first | rfl | (simp; done) | (simp [*]; done)
theorem execWatchdogServe_fixed {r : Req} {s : State} {z : State} (h : execWatchdogServe r s = .next z) : z.fixed = s.fixed := by
  cases h; refine State.commandLater_fixed _ _ _ _ fun x => ?_
  dsimp only; repeat' split
  all_goals first | rfl | (simp; done) | (simp [*]; done)
theorem execIdleEntry_fixed {h : HubId} {s : State} {z : State} (h : execIdleEntry h s = .next z) : z.fixed = s.fixed := by
  cases h; simp
theorem execIdleExit_fixed {h : HubId} {s : State} {z : State} (h : execIdleExit h s = .next z) : z.fixed = s.fixed := by
  cases h; rfl
@[simp] theorem State.answerPower_fixed (s : State) (r : Option Req) (x : Response) : (State.answerPower s r x).fixed = s.fixed := by
  unfold State.answerPower; split <;> simp
@[simp] theorem State.clearReq_fixed (s : State) : (State.clearReq s).fixed = s.fixed := by
  rfl
@[simp] theorem State.refusePower_fixed (s : State) (r : PwrReq) (b : PwrBlock) (reason : ℕ) : (State.refusePower s r b reason).fixed = s.fixed := by
  simp [State.refusePower]
@[simp] theorem State.abortPower_fixed (s : State) (r : PwrReq) (src : ℕ) : (State.abortPower s r src).fixed = s.fixed := by
  simp [State.abortPower]
@[simp] theorem State.noteDown_fixed (s : State) (step : ℕ) (cause : ℕ) : (State.noteDown s step cause).fixed = s.fixed := by
  rfl
@[simp] theorem State.beginDown_fixed (s : State) (cause : ℕ) : (State.beginDown s cause).fixed = s.fixed := by
  rfl
@[simp] theorem State.grantPower_fixed (s : State) (r : PwrReq) : (State.grantPower s r).fixed = s.fixed := by
  unfold State.grantPower
  dsimp only
  split
  · simp
  · split <;> simp
@[simp] theorem State.armEnergy_fixed (s : State) : (State.armEnergy s).fixed = s.fixed := rfl
@[simp] theorem State.askPower_fixed (s : State) (q : Option Req) (target : ℕ) (scope : ℕ) (die : ℕ) : (State.askPower s q target scope die).fixed = s.fixed := by
  unfold State.askPower; dsimp only; repeat' split
  all_goals first | rfl | (simp; done) | (simp [*]; done)
theorem execPowerStateRequest_fixed {r : Req} {target : Byte} {scope : Byte} {die : Byte} {s : State} {z : State} (h : execPowerStateRequest r target scope die s = .next z) : z.fixed = s.fixed := by
  cases h; simp
@[simp] theorem State.pwrRequest_fixed (s : State) (w : Word) : (State.pwrRequest s w).fixed = s.fixed := by
  simp [State.pwrRequest]
theorem execPwrRequestWrite_fixed {p : Path} {h : HubId} {w : Word} {s : State} {z : State} (h : execPwrRequestWrite p h w s = .next z) : z.fixed = s.fixed := by
  cases h; simp
theorem execPowerHandshakeAnswer_fixed {b : PwrBlock} {x1 : PwrAnswer} {s : State} {z : State} (h : execPowerHandshakeAnswer b x1 s = .next z) : z.fixed = s.fixed := by
  cases h; repeat' split
  all_goals first | rfl | (simp; done) | (simp [*]; done)
theorem execPowerHandshakeTimeout_fixed {s : State} {z : State} (h : execPowerHandshakeTimeout s = .next z) : z.fixed = s.fixed := by
  cases h; repeat' split
  all_goals first | rfl | (simp; done) | (simp [*]; done)
@[simp] theorem State.loseAnswer_fixed (s : State) (r : PwrReq) : (State.loseAnswer s r).fixed = s.fixed := by
  unfold State.loseAnswer; split <;> rfl
theorem execCommitStart_fixed {s : State} {z : State} (h : execCommitStart s = .next z) : z.fixed = s.fixed := by
  cases h; repeat' split
  all_goals first | rfl | (rw [State.commit_fixed]; exact State.loseAnswer_fixed _ _)
@[simp] theorem State.dropLanes_fixed (s : State) (d : DieId) : (State.dropLanes s d).fixed = s.fixed := by
  rfl
@[simp] theorem State.sleepDie_fixed (s : State) (target : PwrState) (d : DieId) : (State.sleepDie s target d).fixed = s.fixed := by
  simp [State.sleepDie]
@[simp] theorem State.sleepPorts_fixed (s : State) (target : PwrState) : (State.sleepPorts s target).fixed = s.fixed := by
  simp [State.sleepPorts]
@[simp] theorem State.sleepPackage_fixed (s : State) (target : PwrState) (te : Tick) : (State.sleepPackage s target te).fixed = s.fixed := by
  unfold State.sleepPackage; dsimp only; split
  all_goals exact (State.sleepPorts_fixed _ _).trans (foldl_fixed _ (fun _ _ => State.sleepDie_fixed _ _ _) _ _)
@[simp] theorem State.completeEntry_fixed (s : State) (r : PwrReq) (te : Tick) : (State.completeEntry s r te).fixed = s.fixed := by
  unfold State.completeEntry; (try dsimp only); (repeat' split) <;> first | rfl | (simp; done) | (simp_all; done)
theorem execEntryComplete_fixed {s : State} {z : State} (h : execEntryComplete s = .next z) : z.fixed = s.fixed := by
  cases h; repeat' split
  all_goals first | rfl | (simp; done) | (simp [*]; done)
@[simp] theorem State.startWake_fixed (s : State) (src : ℕ) : (State.startWake s src).fixed = s.fixed := by
  simp [State.startWake]
@[simp] theorem State.wakeEvent_fixed (s : State) (src : ℕ) (level : Bool) : (State.wakeEvent s src level).fixed = s.fixed := by
  unfold State.wakeEvent; dsimp only; repeat' split
  all_goals first | rfl | (simp; done) | (simp [*]; done)
theorem execAlarmWake_fixed {s : State} {z : State} (h : execAlarmWake s = .next z) : z.fixed = s.fixed := by
  cases h; simp
theorem execLinkEnergyWake_fixed {p : PortId} {energy : Bool} {s : State} {z : State} (h : execLinkEnergyWake p energy s = .next z) : z.fixed = s.fixed := by
  cases h; simp
theorem execWakePattern_fixed {p : PortId} {addressed : Bool} {payload : List Byte} {s : State} {z : State} (h : execWakePattern p addressed payload s = .next z) : z.fixed = s.fixed := by
  cases h; simp
@[simp] theorem State.wakeEntries_fixed (s : State) (ds : List DieId) : (State.wakeEntries s ds).fixed = s.fixed := by
  simp [State.wakeEntries]
@[simp] theorem State.wakeDies_fixed (s : State) (ds : List DieId) : (State.wakeDies s ds).fixed = s.fixed := by
  unfold State.wakeDies
  dsimp only
  rw [foldl_fixed _ (fun x d => by simp), State.wakeEntries_fixed, foldl_fixed _ (fun x d => by simp)]
@[simp] theorem State.logHeld_fixed (s : State) : (State.logHeld s).fixed = s.fixed := by
  simp [State.logHeld]
@[simp] theorem State.resumeClock_fixed (s : State) : (State.resumeClock s).fixed = s.fixed := by
  simp [State.resumeClock]
@[simp] theorem State.wakePackage_fixed (s : State) (src : ℕ) (yoyo : Bool) : (State.wakePackage s src yoyo).fixed = s.fixed := by
  simp [State.wakePackage]
@[simp] theorem State.wakeReady_fixed (s : State) : (State.wakeReady s).fixed = s.fixed := by
  simp [State.wakeReady]
theorem execWakeComplete_fixed {s : State} {z : State} (h : execWakeComplete s = .next z) : z.fixed = s.fixed := by
  cases h; split <;> simp
@[simp] theorem State.startUp_fixed (s : State) (st : Straps) (kept : Bool) : (State.startUp s st kept).fixed = s.fixed := by
  unfold State.startUp
  dsimp only
  split
  · exact (State.lostBanks_fixed _ _ _).trans ((State.lostBanks_fixed _ _ _).trans rfl)
  · exact (State.lostBanks_fixed _ _ _).trans rfl
@[simp] theorem State.holdInReset_fixed (s : State) (st : Straps) : (State.holdInReset s st).fixed = s.fixed := rfl
theorem execPowerUp_fixed {st : Straps} {s : State} {z : State} (h : execPowerUp st s = .next z) : z.fixed = s.fixed := by
  cases h; simp
theorem execPowerUpComplete_fixed {s : State} {z : State} (h : execPowerUpComplete s = .next z) : z.fixed = s.fixed := by
  cases h; simp
theorem execWakeNEvent_fixed {low : Bool} {s : State} {z : State} (h : execWakeNEvent low s = .next z) : z.fixed = s.fixed := by
  cases h; simp
theorem execPowerFailure_fixed {s : State} {z : State} (h : execPowerFailure s = .next z) : z.fixed = s.fixed := by
  cases h; split <;> simp
@[simp] theorem State.railsDown_fixed (s : State) : (State.railsDown s).fixed = s.fixed := by
  simp [State.railsDown]
theorem execPowerDownStep_fixed {s : State} {z : State} (h : execPowerDownStep s = .next z) : z.fixed = s.fixed := by
  unfold execPowerDownStep at h
  injection h with h
  subst h
  dsimp only
  split
  · split <;> simp
  all_goals simp
theorem execHubRestart_fixed {hh : HubId} {s : State} {z} (h : execHubRestart hh s = .next z) : z.fixed = s.fixed := by
  cases h; simp
@[simp] theorem State.restartPorts_fixed (s : State) (hh : HubId) : (State.restartPorts s hh).fixed = s.fixed := by
  simp [State.restartPorts]
theorem execHubRestartComplete_fixed {h : HubId} {s : State} {z : State} (h : execHubRestartComplete h s = .next z) : z.fixed = s.fixed := by
  cases h; simp
@[simp] theorem State.setHold_fixed (s : State) (mask : ℕ) : (State.setHold s mask).fixed = s.fixed := by
  rfl
@[simp] theorem State.clearHold_fixed (s : State) (mask : ℕ) : (State.clearHold s mask).fixed = s.fixed := by
  rfl
@[simp] theorem State.declareLoss_fixed (s : State) (i : Fin 8) : (State.declareLoss s i).fixed = s.fixed := by
  unfold State.declareLoss; split <;> simp
theorem execLinkLossDeclare_fixed {slot : Fin 8} {s : State} {z : State} (h : execLinkLossDeclare slot s = .next z) : z.fixed = s.fixed := by
  cases h; simp
theorem execKeyGraceExpiry_fixed {s : State} {z : State} (h : execKeyGraceExpiry s = .next z) : z.fixed = s.fixed := by
  cases h; split
  · split
    · split
      · next e => simp [State.takeRole_fixed e]
      · rfl
    · rfl
  · rfl
theorem execGateCycleStart_fixed {p : PortId} {s : State} {z : State} (h : execGateCycleStart p s = .next z) : z.fixed = s.fixed := by
  cases h; simp
@[simp] theorem State.suspendOn_fixed (s : State) (p : PortId) : (State.suspendOn s p).fixed = s.fixed := by
  unfold State.suspendOn
  refine foldl_fixed _ (fun t n => ?_) _ _
  repeat' split
  all_goals simp
@[simp] theorem State.resumeOn_fixed (s : State) : (State.resumeOn s).fixed = s.fixed := by
  unfold State.resumeOn
  refine foldl_fixed _ (fun t n => ?_) _ _
  split
  · dsimp only; split <;> simp
  · rfl
@[simp] theorem State.settleStreams_fixed (s : State) (p : PortId) : (State.settleStreams s p).fixed = s.fixed := by
  simp [State.settleStreams]
@[simp] theorem State.endSession_fixed (s : State) (i : Fin 8) (lost : Bool) : (State.endSession s i lost).fixed = s.fixed := by
  unfold State.endSession; split <;> simp
@[simp] theorem State.dropSessions_fixed (s : State) : (State.dropSessions s).fixed = s.fixed := by
  rw [State.dropSessions, State.modCore_fixed]; exact foldl_fixed _ (fun _ _ => State.endSession_fixed _ _ _) _ _
@[simp] theorem State.completeCopy_fixed (s : State) (boot : ℕ) (keys : List (ℕ × List Byte)) :
    (State.completeCopy s boot keys).fixed = s.fixed := by
  rw [State.completeCopy, State.copyHdrs_fixed]
  refine Eq.trans (b := (if boot = s.act.nv.boot then s.finishMirror else s.finishMirror.dropSessions).fixed) rfl ?_
  split <;> simp
theorem execMirrorReady_fixed {s : State} {z : State} (h : execMirrorReady s = .next z) : z.fixed = s.fixed := by
  cases h; split <;> simp
theorem execSessionTimeout_fixed {slot : Fin 8} {s : State} {z : State} (h : execSessionTimeout slot s = .next z) : z.fixed = s.fixed := by
  cases h; split <;> simp
theorem execStreamBlockSend_fixed {stream : Fin 64} {s : State} {z : State} (h : execStreamBlockSend stream s = .next z) : z.fixed = s.fixed := by
  cases h; repeat' split
  all_goals first | rfl | (simp; done) | (simp [*]; done)
@[simp] theorem State.modPort_fixed (s : State) (p : PortId) (f : NetPort → NetPort) : (State.modPort s p f).fixed = s.fixed := by
  rfl
@[simp] theorem State.portEvent_fixed (s : State) (p : PortId) (e : Ev) (v : Speed) : (State.portEvent s p e v).fixed = s.fixed := by
  rfl
@[simp] theorem State.declareAll_fixed (s : State) : (State.declareAll s).fixed = s.fixed := by
  simp [State.declareAll]
theorem execLinkDown_fixed {p : PortId} {s : State} {z} (h : execLinkDown p s = .next z) : z.fixed = s.fixed := by
  cases h; simp
theorem execLinkUp_fixed {p : PortId} {v : Speed} {s : State} {z} (h : execLinkUp p v s = .next z) : z.fixed = s.fixed := by
  cases h; simp
theorem execSpeedRenegotiate_fixed {p : PortId} {v : Speed} {s : State} {z : State} (h : execSpeedRenegotiate p v s = .next z) : z.fixed = s.fixed := by
  cases h; simp
theorem execSupervisionFrameSend_fixed {s : State} {z : State} (h : execSupervisionFrameSend s = .next z) : z.fixed = s.fixed := by
  cases h; simp
theorem execDuplicateEntryExpiry_fixed {s : State} {z : State} (h : execDuplicateEntryExpiry s = .next z) : z.fixed = s.fixed := by
  cases h; rfl
theorem State.configure_fixed {s : State} {ch : Chan} {i : ChanImg} {set : ℕ} {z : State × Tick} (h : State.configure s ch i set = .ok z) : z.1.fixed = s.fixed := by
  unfold State.configure at h
  dsimp only at h
  repeat' split at h
  all_goals first | (cases h; done) | skip
  next e => cases h; simp [State.ledgerAdmit_fixed e]
@[simp] theorem State.configWrite_fixed (s : State) (p : Path) (ch : Chan) (off : ℕ) (i : ChanImg) (set : ℕ) : (State.configWrite s p ch off i set).fixed = s.fixed := by
  unfold State.configWrite; (try dsimp only); repeat' (first | rfl | (simp; done) | (rw [State.configure_fixed (by assumption)]; done) | (rw [State.configure_fixed (by assumption)]; simp; done) | split | dsimp only)
@[simp] theorem State.putNow_fixed (s : State) (ch : Chan) (f : ChanImg → ChanImg) : (State.putNow s ch f).fixed = s.fixed := by
  rfl
@[simp] theorem State.putLater_fixed (s : State) (ch : Chan) (l : List (ℕ × Word)) : (State.putLater s ch l).fixed = s.fixed := by
  rfl
@[simp] theorem State.filterPut_fixed (s : State) (p : Path) (ch : Chan) (off : ℕ) (w : Word) (new : ChanImg) : (State.filterPut s p ch off w new).fixed = s.fixed := by
  simp [State.filterPut]
@[simp] theorem State.filterWrite_fixed (s : State) (p : Path) (ch : Chan) (off : ℕ) (w : Word) : (State.filterWrite s p ch off w).fixed = s.fixed := by
  unfold State.filterWrite; split <;> simp
@[simp] theorem State.admitWrite_fixed (s : State) (p : Path) (pg : PageRef) (off : ℕ) (items : List PlanItem) (cls : ℕ) (d : DieId) (f : State → State) (hf : ∀ x, (f x).fixed = x.fixed) : (State.admitWrite s p pg off items cls d f).fixed = s.fixed := by
  unfold State.admitWrite
  split
  · next e => simp [hf, State.ledgerAdmit_fixed e]
  · simp
@[simp] theorem State.outCfgWrite_fixed (s : State) (p : Path) (ch : Chan) (w : Word) : (State.outCfgWrite s p ch w).fixed = s.fixed := by
  simp [State.outCfgWrite]
@[simp] theorem State.declWriteCh_fixed (s : State) (p : Path) (d : DieId) (c : ChanId) (w : Word) : (State.declWriteCh s p d c w).fixed = s.fixed := by
  simp [State.declWriteCh]
@[simp] theorem State.lpDeclWrite_fixed (s : State) (p : Path) (d : DieId) (w : Word) : (State.lpDeclWrite s p d w).fixed = s.fixed := by
  refine Eq.trans (State.ite_fixed _ _ _) ?_
  split
  · refine Eq.trans (State.ite_fixed _ _ _) ?_
    split
    · exact State.admitWrite_fixed _ _ _ _ _ _ _ _ fun x => State.modDie_fixed ..
    · exact State.rejectAt_fixed ..
  · rfl
@[simp] theorem State.chanOp_fixed (s : State) (p : Path) (ch : Chan) (off : ℕ) (w : Word) : (State.chanOp s p ch off w).fixed = s.fixed := by
  unfold State.chanOp; split <;> simp
@[simp] theorem State.policyPut_fixed (s : State) (x1 : PolicyScope) (x2 : Fin 3) (x3 : Policy) : (State.policyPut s x1 x2 x3).2.fixed = s.fixed := by
  unfold State.policyPut; repeat' split
  all_goals first | rfl | (simp; done) | (simp [*]; done)
@[simp] theorem State.policyRegWrite_fixed (s : State) (p : Path) (pg : PageRef) (off : ℕ) (sc : PolicyScope) (k : Fin 3) (w : Word) : (State.policyRegWrite s p pg off sc k w).fixed = s.fixed := by
  unfold State.policyRegWrite
  dsimp only
  split <;> simp
@[simp] theorem State.modAux_fixed (s : State) (d : DieId) (f : Aux → Aux) : (State.modAux s d f).fixed = s.fixed := by
  rfl
@[simp] theorem State.auxOp_fixed (s : State) (d : DieId) (off : ℕ) (w : Word) : (State.auxOp s d off w).fixed = s.fixed := by
  unfold State.auxOp; split <;> (try split) <;> simp
@[simp] theorem State.dieOp_fixed (s : State) (p : Path) (d : DieId) (r : Fin 23) (off : ℕ) (w : Word) : (State.dieOp s p d r off w).fixed = s.fixed := by
  unfold State.dieOp; dsimp only; repeat' split
  all_goals first | rfl | (simp; done) | (simp [*]; done)
@[simp] theorem State.restartPtp_fixed (s : State) : (State.restartPtp s).fixed = s.fixed := by
  simp [State.restartPtp]
@[simp] theorem State.timeCtrl_fixed (s : State) (w : Word) : (State.timeCtrl s w).fixed = s.fixed := by
  simp [State.timeCtrl]
@[simp] theorem State.ptpCfg_fixed (s : State) (port : PortId) (w : Word) : (State.ptpCfg s port w).fixed = s.fixed := by
  simp [State.ptpCfg]
@[simp] theorem State.timeOp_fixed (s : State) (off : ℕ) (w : Word) : (State.timeOp s off w).fixed = s.fixed := by
  unfold State.timeOp; split <;> simp
@[simp] theorem State.schedOp_fixed (s : State) (off : ℕ) (w : Word) : (State.schedOp s off w).fixed = s.fixed := by
  unfold State.schedOp; split <;> simp
@[simp] theorem State.ledgerOp_fixed (s : State) (p : Path) (h : HubId) (off : ℕ) (w : Word) : (State.ledgerOp s p h off w).fixed = s.fixed := by
  unfold State.ledgerOp; split <;> (try split) <;> simp
@[simp] theorem State.pwrOp_fixed (s : State) (off : ℕ) (w : Word) : (State.pwrOp s off w).fixed = s.fixed := by
  unfold State.pwrOp
  split
  · exact State.pwrRequest_fixed s w
  · exact State.modCore_fixed s _
  · exact State.modCore_fixed s _
  · exact State.modCore_fixed s _
  · exact State.modCore_fixed s _
  · exact State.modCore_fixed s _
  · exact rfl
@[simp] theorem State.netFreq_fixed (s : State) (w : Word) : (State.netFreq s w).fixed = s.fixed := by
  simp [State.netFreq]
@[simp] theorem State.mainsOp_fixed (s : State) (off : ℕ) (w : Word) : (State.mainsOp s off w).fixed = s.fixed := by
  unfold State.mainsOp; split <;> simp
@[simp] theorem State.clearHigh_fixed (s : State) (x1 : AxisId) : (State.clearHigh s x1).fixed = s.fixed := by
  rfl
@[simp] theorem State.axisWrite_fixed (s : State) (a : AxisId) (r : AxisReg) (w : Word) : (State.axisWrite s a r w).fixed = s.fixed := by
  unfold State.axisWrite; (try dsimp only); (repeat' split) <;> first | rfl | (simp; done) | (simp_all; done)
@[simp] theorem State.axisOp_fixed (s : State) (off : ℕ) (w : Word) : (State.axisOp s off w).fixed = s.fixed := by
  unfold State.axisOp; split <;> (try split) <;> simp
@[simp] theorem State.modPortRegs_fixed (s : State) (port : PortId) (f : PortRegs → PortRegs) : (State.modPortRegs s port f).fixed = s.fixed := by
  rfl
@[simp] theorem State.portCtrl_fixed (s : State) (port : PortId) (w : Word) : (State.portCtrl s port w).fixed = s.fixed := by
  simp [State.portCtrl]
@[simp] theorem State.keyCommit_fixed (s : State) (p : Path) (w : Word) : (State.keyCommit s p w).fixed = s.fixed := by
  unfold State.keyCommit
  dsimp only
  split
  · rfl
  · split
    · next e => simp [State.takeRole_fixed e]
    · rfl
@[simp] theorem State.netOp_fixed (s : State) (p : Path) (off : ℕ) (w : Word) : (State.netOp s p off w).fixed = s.fixed := by
  unfold State.netOp; split <;> (try split) <;> simp
@[simp] theorem State.hubOp_fixed (s : State) (p : Path) (h : HubId) (r : Fin 12) (off : ℕ) (w : Word) : (State.hubOp s p h r off w).fixed = s.fixed := by
  unfold State.hubOp; split <;> simp
@[simp] theorem State.regPut_fixed (s : State) (p : Path) (pg : PageRef) (off : ℕ) (w : Word) : (State.regPut s p pg off w).fixed = s.fixed := by
  unfold State.regPut; repeat' split
  all_goals first | rfl | (simp; done) | (simp [*]; done)
@[simp] theorem State.regOp_fixed (s : State) (p : Path) (pg : PageRef) (off : ℕ) (w : Word) : (State.regOp s p pg off w).fixed = s.fixed := by
  unfold State.regOp; (repeat' split) <;> simp
@[simp] theorem State.writeReg_fixed (s : State) (p : Path) (pg : PageRef) (off : ℕ) (w : Word) : (State.writeReg s p pg off w).fixed = s.fixed := by
  simp [State.writeReg]
@[simp] theorem State.writeAddr_fixed (s : State) (p : Path) (addr : ℕ) (w : Word) : (State.writeAddr s p addr w).fixed = s.fixed := by
  unfold State.writeAddr; split <;> (try split) <;> simp
@[simp] theorem State.writePage_fixed (s : State) (p : Path) (page : ℕ) (off : ℕ) (w : Word) : (State.writePage s p page off w).fixed = s.fixed := by
  simp [State.writePage]
theorem execRegisterWrite_fixed {p : Path} {addr : Word} {w : Word} {s : State} {z : State} (h : execRegisterWrite p addr w s = .next z) : z.fixed = s.fixed := by
  cases h; simp
theorem execChCfgWrite_fixed {p : Path} {ch : Chan} {w : Word} {s : State} {z : State} (h : execChCfgWrite p ch w s = .next z) : z.fixed = s.fixed := by
  cases h; simp
theorem execConvCfgWrite_fixed {p : Path} {ch : Chan} {w : Word} {s : State} {z : State} (h : execConvCfgWrite p ch w s = .next z) : z.fixed = s.fixed := by
  cases h; simp
theorem execSafeReq_fixed {p : Path} {ch : Chan} {w : Word} {s : State} {z : State} (h : execSafeReq p ch w s = .next z) : z.fixed = s.fixed := by
  cases h; simp
theorem execPageLock_fixed {p : Path} {page : ℕ} {s : State} {z : State} (h : execPageLock p page s = .next z) : z.fixed = s.fixed := by
  cases h; simp
theorem execPageUnlock_fixed {p : Path} {page : ℕ} {s : State} {z : State} (h : execPageUnlock p page s = .next z) : z.fixed = s.fixed := by
  cases h; simp
theorem execEvClearWrite_fixed {p : Path} {page : ℕ} {w : Word} {s : State} {z : State} (h : execEvClearWrite p page w s = .next z) : z.fixed = s.fixed := by
  cases h; simp
theorem execBlockReset_fixed {p : Path} {page : ℕ} {w : Word} {s : State} {z : State} (h : execBlockReset p page w s = .next z) : z.fixed = s.fixed := by
  cases h; simp
theorem execFreezeWrite_fixed {p : Path} {page : ℕ} {w : Word} {s : State} {z : State} (h : execFreezeWrite p page w s = .next z) : z.fixed = s.fixed := by
  cases h; simp
theorem execCntPresetWrite_fixed {p : Path} {ch : Chan} {w : Word} {s : State} {z : State} (h : execCntPresetWrite p ch w s = .next z) : z.fixed = s.fixed := by
  cases h; simp
theorem execKeyCommitWrite_fixed {p : Path} {h : HubId} {w : Word} {s : State} {z : State} (h : execKeyCommitWrite p h w s = .next z) : z.fixed = s.fixed := by
  cases h; simp
theorem execNetFreqWrite_fixed {p : Path} {h : HubId} {w : Word} {s : State} {z : State} (h : execNetFreqWrite p h w s = .next z) : z.fixed = s.fixed := by
  cases h; simp
theorem execMainsCtrlWrite_fixed {p : Path} {h : HubId} {w : Word} {s : State} {z : State} (h : execMainsCtrlWrite p h w s = .next z) : z.fixed = s.fixed := by
  cases h; simp
theorem execFilterRegisterWrite_fixed {p : Path} {ch : Chan} {r : FiltReg} {w : Word} {s : State} {z : State} (h : execFilterRegisterWrite p ch r w s = .next z) : z.fixed = s.fixed := by
  cases h; simp
theorem execDinCfgWrite_fixed {p : Path} {ch : Chan} {w : Word} {s : State} {z : State} (h : execDinCfgWrite p ch w s = .next z) : z.fixed = s.fixed := by
  cases h; simp
theorem execOutCfgWrite_fixed {p : Path} {ch : Chan} {w : Word} {s : State} {z : State} (h : execOutCfgWrite p ch w s = .next z) : z.fixed = s.fixed := by
  cases h; simp
theorem execParWrite_fixed {p : Path} {ch : Chan} {w : Word} {s : State} {z : State} (h : execParWrite p ch w s = .next z) : z.fixed = s.fixed := by
  cases h; simp
theorem execAuxShadowWrite_fixed {p : Path} {d : DieId} {r : AuxReg} {w : Word} {s : State} {z : State} (h : execAuxShadowWrite p d r w s = .next z) : z.fixed = s.fixed := by
  cases h; simp
theorem execRefSelWrite_fixed {p : Path} {d : DieId} {w : Word} {s : State} {z : State} (h : execRefSelWrite p d w s = .next z) : z.fixed = s.fixed := by
  cases h; simp
theorem execAxisCfgWrite_fixed {p : Path} {h : HubId} {x1 : AxisId} {r : AxisReg} {w : Word} {s : State} {z : State} (h : execAxisCfgWrite p h x1 r w s = .next z) : z.fixed = s.fixed := by
  cases h; simp
theorem execLedgerPtWrite_fixed {p : Path} {h : HubId} {w : Word} {s : State} {z : State} (h : execLedgerPtWrite p h w s = .next z) : z.fixed = s.fixed := by
  cases h; simp
theorem execPolicyWrite_fixed {p : Path} {sc : PolicyScope} {k : Fin 3} {w : Word} {s : State} {z : State} (h : execPolicyWrite p sc k w s = .next z) : z.fixed = s.fixed := by
  cases h; simp
theorem execDeclWrite_fixed {p : Path} {d : DieId} {r : DeclReg} {w : Word} {s : State} {z : State} (h : execDeclWrite p d r w s = .next z) : z.fixed = s.fixed := by
  cases h; simp
theorem execRoleWrite_fixed {p : Path} {h : HubId} {w : Word} {s : State} {z : State} (h : execRoleWrite p h w s = .next z) : z.fixed = s.fixed := by
  cases h; simp
theorem execPortCfgWrite_fixed {p : Path} {h : HubId} {port : PortId} {w : Word} {s : State} {z : State} (h : execPortCfgWrite p h port w s = .next z) : z.fixed = s.fixed := by
  cases h; simp
theorem execAcceptWrite_fixed {p : Path} {h : HubId} {w : Word} {s : State} {z : State} (h : execAcceptWrite p h w s = .next z) : z.fixed = s.fixed := by
  cases h; simp
theorem execAdmitWrite_fixed {p : Path} {h : HubId} {w : Word} {s : State} {z : State} (h : execAdmitWrite p h w s = .next z) : z.fixed = s.fixed := by
  cases h; simp
theorem execAlarmWrite_fixed {p : Path} {h : HubId} {w : Word} {s : State} {z : State} (h : execAlarmWrite p h w s = .next z) : z.fixed = s.fixed := by
  cases h; simp
theorem execWakeCfgWrite_fixed {p : Path} {h : HubId} {w : Word} {s : State} {z : State} (h : execWakeCfgWrite p h w s = .next z) : z.fixed = s.fixed := by
  cases h; simp
theorem execHublossTWrite_fixed {p : Path} {d : DieId} {w : Word} {s : State} {z : State} (h : execHublossTWrite p d w s = .next z) : z.fixed = s.fixed := by
  cases h; simp
@[simp] theorem State.dieWrite_fixed (s : State) (pg : PageRef) (off : ℕ) (w : Word) : (State.dieWrite s pg off w).fixed = s.fixed := by
  simp [State.dieWrite]
@[simp] theorem State.dieRead_fixed (s : State) (pg : PageRef) (off : ℕ) : (State.dieRead s pg off).1.fixed = s.fixed := by
  unfold State.dieRead; split <;> simp
@[simp] theorem State.dieAccess_fixed (s : State) (d : DieId) (m : MgmtReq) : (State.dieAccess s d m).fixed = s.fixed := by
  unfold State.dieAccess; split <;> simp
@[simp] theorem State.takeAccess_fixed (s : State) (hh : HubId) (d : DieId) (m : MgmtReq) : (State.takeAccess s hh d m).fixed = s.fixed := by
  simp [State.takeAccess]
theorem execManagementRequestReceive_fixed {h : HubId} {d : DieId} {m : MgmtReq} {s : State} {z : State} (h : execManagementRequestReceive h d m s = .next z) : z.fixed = s.fixed := by
  cases h; simp
theorem execManagementResponseReceive_fixed {h : HubId} {d : DieId} {s : State} {z : State} (h : execManagementResponseReceive h d s = .next z) : z.fixed = s.fixed := by
  cases h; split <;> simp
@[simp] theorem State.bareReply_fixed (s : State) (seq : ℕ) (keyId : ℕ) (x : Response) (dst : BitVec 128 × ℕ) (p : PortId) : (State.bareReply s seq keyId x dst p).fixed = s.fixed := by
  rfl
@[simp] theorem State.openSpi_fixed (s : State) (r : Req) (p : SessionOpenP) : (State.openSpi s r p).fixed = s.fixed := by
  unfold State.openSpi; split <;> simp
@[simp] theorem State.openUdp_fixed (s : State) (r : Req) (p : SessionOpenP) : (State.openUdp s r p).fixed = s.fixed := by
  unfold State.openUdp; split <;> simp
theorem execSessionOpen_fixed {r : Req} {p : SessionOpenP} {s : State} {z : State} (h : execSessionOpen r p s = .next z) : z.fixed = s.fixed := by
  cases h; repeat' split
  all_goals first | rfl | (simp; done) | (simp [*]; done)
@[simp] theorem State.closeSession_fixed (s : State) (r : Req) : (State.closeSession s r).fixed = s.fixed := by
  unfold State.closeSession; split <;> simp
theorem execSessionClose_fixed {r : Req} {s : State} {z : State} (h : execSessionClose r s = .next z) : z.fixed = s.fixed := by
  cases h; simp
theorem execIdentify_fixed {r : Req} {s : State} {z : State} (h : execIdentify r s = .next z) : z.fixed = s.fixed := by
  cases h; simp
@[simp] theorem State.readAddr_fixed (s : State) (addr : ℕ) : (State.readAddr s addr).1.fixed = s.fixed := by
  unfold State.readAddr; (try dsimp only); (repeat' split) <;> first | rfl | (simp; done) | (simp_all; done)
@[simp] theorem State.readRun_fixed (s : State) (x1 : List ℕ) : (State.readRun s x1).1.fixed = s.fixed := by
  induction x1 generalizing s with
  | nil => rfl
  | cons a l ih => unfold State.readRun; simp [ih]
theorem execRegRead_fixed {r : Req} {addr : Word} {n : BitVec 16} {s : State} {z : State} (h : execRegRead r addr n s = .next z) : z.fixed = s.fixed := by
  cases h; refine State.command_fixed _ _ _ _ fun x => ?_
  repeat' split
  all_goals first | rfl | (simp; done) | (simp [*]; done)
@[simp] theorem State.writeOne_fixed (s : State) (p : Path) (addr : ℕ) (w : Word) : (State.writeOne s p addr w).fixed = s.fixed := by
  unfold State.writeOne; split <;> simp
@[simp] theorem State.writeRun_fixed (s : State) (p : Path) (l : List (ℕ × Word)) : (State.writeRun s p l).fixed = s.fixed := by
  simp [State.writeRun]
theorem execRegWrite_fixed {r : Req} {addr : Word} {words : List Word} {s : State} {z : State} (h : execRegWrite r addr words s = .next z) : z.fixed = s.fixed := by
  cases h; refine State.commandLater_fixed _ _ _ _ fun x => ?_
  dsimp only; repeat' split
  all_goals first | rfl | (simp; done) | (simp [*]; done)
@[simp] theorem State.dropHeldBy_fixed (s : State) (c : Chan) (a : ImageArg) (i : ChanImg) : (State.dropHeldBy s c a i).fixed = s.fixed := rfl
@[simp] theorem State.configureCmd_fixed (s : State) (w : Who) (c : Chan) (ch : BitVec 16) (n : ℕ) (apply : Bool) (x1 : ImageArg) : (State.configureCmd s w c ch n apply x1).1.fixed = s.fixed := by
  unfold State.configureCmd
  repeat' split
  all_goals first | rfl | (next e => simp [State.configure_fixed e]; done)
theorem execChannelConfigure_fixed {r : Req} {ch : BitVec 16} {set : BitVec 16} {flags : Byte} {img : ImageArg} {s : State} {z : State} (h : execChannelConfigure r ch set flags img s = .next z) : z.fixed = s.fixed := by
  cases h; refine State.command_fixed _ _ _ _ fun x => ?_
  repeat' split
  all_goals first | rfl | (simp; done) | (simp [*]; done)
theorem execChannelEnable_fixed {r : Req} {ch : BitVec 16} {set : BitVec 16} {s : State} {z : State} (h : execChannelEnable r ch set s = .next z) : z.fixed = s.fixed := by
  cases h
  refine State.command_fixed _ _ _ _ fun x => ?_
  dsimp only
  repeat' split
  all_goals first | rfl | (next e => exact State.configure_fixed e)
@[simp] theorem State.planDisable_fixed (s : State) (ch : Chan) (td : Tick) : (State.planDisable s ch td).fixed = s.fixed := by
  rfl
theorem execChannelDisable_fixed {r : Req} {ch : BitVec 16} {s : State} {z : State} (h : execChannelDisable r ch s = .next z) : z.fixed = s.fixed := by
  cases h; refine State.command_fixed _ _ _ _ fun x => ?_
  repeat' split
  all_goals first | rfl | (simp; done) | (simp [*]; done)
@[simp] theorem State.lowerLevels_fixed (s : State) (ch : Chan) : (State.lowerLevels s ch).fixed = s.fixed := by
  rfl
@[simp] theorem State.clearOne_fixed (s : State) (resume : Bool) (ch : Chan) : (State.clearOne s resume ch).fixed = s.fixed := by
  simp [State.clearOne]
theorem execFaultClear_fixed {r : Req} {sc : Scope} {resume : Byte} {s : State} {z : State} (h : execFaultClear r sc resume s = .next z) : z.fixed = s.fixed := by
  cases h; refine State.command_fixed _ _ _ _ fun x => ?_
  repeat' split
  all_goals first | rfl | (simp; done) | (simp [*]; done)
theorem execScheduleSubmit_fixed {r : Req} {entries : List SchedEntry} {octets : List Byte} {s : State} {z : State} (h : execScheduleSubmit r entries octets s = .next z) : z.fixed = s.fixed := by
  cases h; split <;> simp
@[simp] theorem State.queueCancel_fixed (s : State) (r : Req) (es : List Entry) (unknown : ℕ) : (State.queueCancel s r es unknown).fixed = s.fixed := by
  rfl
theorem execScheduleCancelByTag_fixed {r : Req} {tags : List Word} {s : State} {z : State} (h : execScheduleCancelByTag r tags s = .next z) : z.fixed = s.fixed := by
  cases h; split <;> simp
theorem execScheduleCancelByRange_fixed {r : Req} {ch : BitVec 16} {lo : Dword} {hi : Dword} {s : State} {z : State} (h : execScheduleCancelByRange r ch lo hi s = .next z) : z.fixed = s.fixed := by
  cases h; refine State.commandLater_fixed _ _ _ _ fun x => ?_
  repeat' split
  all_goals first | rfl | (simp; done) | (simp [*]; done)
theorem execResultFetch_fixed {r : Req} {w : Word} {s : State} {z : State} (h : execResultFetch r w s = .next z) : z.fixed = s.fixed := by
  cases h; refine State.command_fixed _ _ _ _ fun x => ?_
  repeat' split
  all_goals first | rfl | (simp; done) | (simp [*]; done)
theorem execStreamOpen_fixed {r : Req} {p : StreamOpenP} {s : State} {z : State} (h : execStreamOpen r p s = .next z) : z.fixed = s.fixed := by
  cases h; refine State.command_fixed _ _ _ _ fun x => ?_
  dsimp only; repeat' split
  all_goals first | rfl | (simp; done) | (simp [*]; done)
theorem execStreamClose_fixed {r : Req} {n : Byte} {s : State} {z : State} (h : execStreamClose r n s = .next z) : z.fixed = s.fixed := by
  cases h; refine State.command_fixed _ _ _ _ fun x => ?_
  repeat' split
  all_goals first | rfl | (simp; done) | (simp [*]; done)
theorem execFilterSync_fixed {r : Req} {tr : Dword} {s : State} {z : State} (h : execFilterSync r tr s = .next z) : z.fixed = s.fixed := by
  cases h; refine State.command_fixed _ _ _ _ fun x => ?_
  dsimp only; repeat' split
  all_goals first | rfl | (simp; done) | (simp [*]; done)
@[simp] theorem State.startPoint_fixed (s : State) (r : Req) (span : Bool) (p : CalP) : (State.startPoint s r span p).1.fixed = s.fixed := by
  unfold State.startPoint; dsimp only; repeat' split
  all_goals first | rfl | (simp; done) | (simp [*]; done)
theorem execCalibrateSystemZero_fixed {r : Req} {p : CalP} {s : State} {z : State} (h : execCalibrateSystemZero r p s = .next z) : z.fixed = s.fixed := by
  cases h; simp
theorem execCalibrateSystemSpan_fixed {r : Req} {p : CalP} {s : State} {z : State} (h : execCalibrateSystemSpan r p s = .next z) : z.fixed = s.fixed := by
  cases h; simp
theorem State.storeSet_fixed {s : State} {set : List (ℕ × ℤ × ℤ)} {readBack : Bool} {z : State} (h : State.storeSet s set readBack = some z) : z.fixed = s.fixed := by
  unfold State.storeSet at h
  split at h
  · cases h
  · next t e =>
    split at h <;> cases h <;> simp [State.takeRole_fixed e]
@[simp] theorem State.modCals_fixed (s : State) (cs : List Chan) (f : Chan → Cal → Cal) : (State.modCals s cs f).fixed = s.fixed := by
  unfold State.modCals
  refine foldl_fixed _ (fun t c => ?_) _ _
  rfl
@[simp] theorem State.commitStored_fixed (s : State) (sc : Scope) (readBack : Bool) (f : Chan → ℤ × ℤ) (g : Chan → Cal → Cal) : (State.commitStored s sc readBack f g).1.fixed = s.fixed := by
  unfold State.commitStored
  split
  · rfl
  · split
    · rfl
    · split
      · rfl
      · next e => split <;> simp [State.storeSet_fixed e]
theorem execCalibrationCommitStore_fixed {r : Req} {sc : Scope} {readBack : Bool} {s : State} {z : State} (h : execCalibrationCommitStore r sc readBack s = .next z) : z.fixed = s.fixed := by
  cases h; simp
theorem execCalibrationCommitIdentity_fixed {r : Req} {sc : Scope} {readBack : Bool} {s : State} {z : State} (h : execCalibrationCommitIdentity r sc readBack s = .next z) : z.fixed = s.fixed := by
  cases h; simp
theorem execCalibrationCommitRevert_fixed {r : Req} {sc : Scope} {s : State} {z : State} (h : execCalibrationCommitRevert r sc s = .next z) : z.fixed = s.fixed := by
  cases h; refine State.command_fixed _ _ _ _ fun x => ?_
  repeat' split
  all_goals first | rfl | (simp; done) | (simp [*]; done)
theorem execLedgerQuery_fixed {r : Req} {scope : Byte} {die : Byte} {s : State} {z : State} (h : execLedgerQuery r scope die s = .next z) : z.fixed = s.fixed := by
  cases h; refine State.command_fixed _ _ _ _ fun x => ?_
  repeat' split
  all_goals first | rfl | (simp; done) | (simp [*]; done)
theorem execLedgerPolicySet_fixed {r : Req} {p : PolicyP} {s : State} {z : State} (h : execLedgerPolicySet r p s = .next z) : z.fixed = s.fixed := by
  cases h; refine State.command_fixed _ _ _ _ fun x => ?_
  dsimp only; repeat' split
  all_goals first | rfl | (simp; done) | (simp [*]; done)
theorem execEventLogRead_fixed {r : Req} {src : Byte} {hub : Byte} {n : Byte} {seq : Word} {s : State} {z : State} (h : execEventLogRead r src hub n seq s = .next z) : z.fixed = s.fixed := by
  cases h; refine State.command_fixed _ _ _ _ fun x => ?_
  dsimp only; repeat' split
  all_goals first | rfl | (simp; done) | (simp [*]; done)
theorem execReturnPrepare_fixed {r : Req} {conf : BitVec 16} {s : State} {z : State} (h : execReturnPrepare r conf s = .next z) : z.fixed = s.fixed := by
  cases h; refine State.command_fixed _ _ _ _ fun x => ?_
  repeat' split
  all_goals first | rfl | (simp; done) | (simp [*]; done)
theorem execHubSwitchover_fixed {r : Req} {s : State} {z : State} (h : execHubSwitchover r s = .next z) : z.fixed = s.fixed := by
  cases h; refine State.commandLater_fixed _ _ _ _ fun x => ?_
  repeat' split
  all_goals first | rfl | (simp; done) | (simp [*]; done)
theorem execPoolAudit_fixed {r : Req} {s : State} {z : State} (h : execPoolAudit r s = .next z) : z.fixed = s.fixed := by
  cases h; refine State.command_fixed _ _ _ _ fun x => ?_
  repeat' split
  all_goals first | rfl | (simp; done) | (simp [*]; done)
theorem execKeyRotate_fixed {r : Req} {keyId : Byte} {grace : BitVec 16} {nonce : List Byte} {stored : Bool} {s : State} {z : State} (h : execKeyRotate r keyId grace nonce stored s = .next z) : z.fixed = s.fixed := by
  cases h
  refine State.command_fixed _ _ _ _ fun x => ?_
  dsimp only
  repeat' split
  all_goals first | rfl | (next e => simp [State.takeRole_fixed e]; done) | (next e _ => simp [State.takeRole_fixed e]; done)
theorem execAuxSequenceLoadTable_fixed {r : Req} {d : Byte} {entries : List Word} {s : State} {z : State} (h : execAuxSequenceLoadTable r d entries s = .next z) : z.fixed = s.fixed := by
  cases h; refine State.command_fixed _ _ _ _ fun x => ?_
  repeat' split
  all_goals first | rfl | (simp; done) | (simp [*]; done)
theorem execAuxSequenceLoadSlot_fixed {r : Req} {d : Byte} {k : Byte} {priv : Word} {entries : List Word} {s : State} {z : State} (h : execAuxSequenceLoadSlot r d k priv entries s = .next z) : z.fixed = s.fixed := by
  cases h; refine State.command_fixed _ _ _ _ fun x => ?_
  repeat' split
  all_goals first | rfl | (simp; done) | (simp [*]; done)
@[simp] theorem State.enqueue_fixed (s : State) (r : Req) (body : List Byte) : (State.enqueue s r body).fixed = s.fixed := by
  unfold State.enqueue; split <;> (try split) <;> simp
theorem runCmd_fixed {r : Req} {s : State} {x1 : ZcsCmd} {z : State} (h : runCmd r s x1 = .next z) : z.fixed = s.fixed := by
  cases x1 <;> unfold runCmd at h
  · exact execSessionOpen_fixed h
  · exact execSessionClose_fixed h
  · exact execIdentify_fixed h
  · exact execRegRead_fixed h
  · exact execRegWrite_fixed h
  · exact execChannelConfigure_fixed h
  · exact execChannelEnable_fixed h
  · exact execChannelDisable_fixed h
  · exact execScheduleSubmit_fixed h
  · exact execScheduleCancelByTag_fixed h
  · exact execScheduleCancelByRange_fixed h
  · exact execResultFetch_fixed h
  · exact execStreamOpen_fixed h
  · exact execStreamClose_fixed h
  · exact execFilterSync_fixed h
  · exact execCalibrateSystemZero_fixed h
  · exact execCalibrateSystemSpan_fixed h
  · exact (execCalibrationCommitStore_fixed h).trans rfl
  · exact execCalibrationCommitRevert_fixed h
  · exact (execCalibrationCommitIdentity_fixed h).trans rfl
  · exact execLedgerQuery_fixed h
  · exact execLedgerPolicySet_fixed h
  · exact execPowerStateRequest_fixed h
  · exact execWatchdogConfigure_fixed h
  · exact execWatchdogServe_fixed h
  · exact execEventLogRead_fixed h
  · exact execFaultClear_fixed h
  · exact execHubSwitchover_fixed h
  · exact (execKeyRotate_fixed h).trans rfl
  · exact execPoolAudit_fixed h
  · exact execReturnPrepare_fixed h
  · exact execTimeStatusRead_fixed h
  · exact execTimeStatusLoad_fixed h
  · exact execTimeStatusWriteAccept_fixed h
  · exact execAuxSequenceLoadTable_fixed h
  · exact execAuxSequenceLoadSlot_fixed h
@[simp] theorem State.refuseBody_fixed (s : State) (r : Req) (code : ℕ) : (State.refuseBody s r code).fixed = s.fixed := by
  simp [State.refuseBody]
theorem execCommandAccept_fixed {s : State} {z : State} (h : execCommandAccept s = .next z) : z.fixed = s.fixed := by
  unfold execCommandAccept at h
  split at h
  · cases h; rfl
  · split at h
    · dsimp only at h
      split at h
      · rw [runCmd_fixed h]; rfl
      · cases h; simp
    · cases h; rfl
@[simp] theorem State.authFails_fixed (s : State) : (State.authFails s).fixed = s.fixed := by
  simp [State.authFails]
@[simp] theorem State.openRequest_fixed (s : State) (p : PortId) (g : Datagram) : (State.openRequest s p g).fixed = s.fixed := by
  unfold State.openRequest; split <;> simp
@[simp] theorem State.heard_fixed (s : State) (i : Fin 8) : (State.heard s i).fixed = s.fixed := by
  unfold State.heard; split <;> simp
@[simp] theorem State.dropSeq_fixed (s : State) : (State.dropSeq s).fixed = s.fixed := rfl
@[simp] theorem State.acceptReq_fixed (s : State) (i : Fin 8) (x : Session) (g : Datagram) : (State.acceptReq s i x g).fixed = s.fixed := by
  simp [State.acceptReq]
@[simp] theorem State.followHeld_fixed (i : Fin 8) (x1 : ℕ) (x2 : State) : (State.followHeld i x1 x2).fixed = x2.fixed := by
  induction x1 generalizing x2 with
  | zero => rfl
  | succ n ih =>
    unfold State.followHeld
    repeat' split
    all_goals first | rfl | simp [ih]
@[simp] theorem State.duplicate_fixed (s : State) (w : Who) (c : List (ℕ × Response)) (seq keyId : ℕ) :
    (State.duplicate s w c seq keyId).fixed = s.fixed := by
  unfold State.duplicate; split <;> simp
@[simp] theorem State.takeRequest_fixed (s : State) (i : Fin 8) (x : Session) (g : Datagram) : (State.takeRequest s i x g).fixed = s.fixed := by
  unfold State.takeRequest; repeat' split
  all_goals first | rfl | (simp; done) | (simp [*]; done)
@[simp] theorem State.takeAxis_fixed (s : State) (g : Datagram) : (State.takeAxis s g).fixed = s.fixed := by
  unfold State.takeAxis; dsimp only; repeat' split
  all_goals first | rfl | (simp; done) | (simp [*]; done)
@[simp] theorem State.datagram_fixed (s : State) (p : PortId) (g : Datagram) : (State.datagram s p g).fixed = s.fixed := by
  unfold State.datagram; dsimp only; repeat' split
  all_goals first | rfl | (simp; done) | (simp [*]; done)
@[simp] theorem State.reached_fixed (s : State) (p : PortId) (g : Datagram) : (State.reached s p g).fixed = s.fixed := by
  unfold State.reached; dsimp only; repeat' split
  all_goals first | rfl | exact State.datagram_fixed _ _ _
@[simp] theorem State.arrive_fixed (s : State) (p : PortId) (g : Datagram) : (State.arrive s p g).fixed = s.fixed := by
  simp [State.arrive]
@[simp] theorem State.relayIn_fixed (s : State) : (State.relayIn s).fixed = s.fixed := by
  unfold State.relayIn; repeat' split
  all_goals first | rfl | exact State.reached_fixed _ _ _
theorem execPortRelayReceive_fixed {p : PortId} {egress : Bool} {frame : List Byte} {s : State} {z} (h : execPortRelayReceive p egress frame s = .next z) : z.fixed = s.fixed := by
  cases h; dsimp only; repeat' split
  · exact State.sendStr_fixed _ _ _ _ _ fun _ => rfl
  · exact State.sendStr_fixed _ _ _ _ _ State.relayIn_fixed
  · rfl
theorem execDatagramReceive_fixed {p : PortId} {dg : Datagram} {s : State} {z : State} (h : execDatagramReceive p dg s = .next z) : z.fixed = s.fixed := by
  cases h; simp
theorem execAxisSamplesDatagram_fixed {p : PortId} {dg : Datagram} {s : State} {z : State} (h : execAxisSamplesDatagram p dg s = .next z) : z.fixed = s.fixed := by
  cases h; simp
theorem execHeldRequestTimeout_fixed {w : Who} {seq : Word} {s : State} {z : State} (h : execHeldRequestTimeout w seq s = .next z) : z.fixed = s.fixed := by
  cases h; split <;> simp
@[simp] theorem State.ownRead_fixed (s : State) (hh : HubId) (addr : ℕ) : (State.ownRead s hh addr).1.fixed = s.fixed := by
  unfold State.ownRead; (try dsimp only); (repeat' split) <;> first | rfl | (simp; done) | (simp_all; done)
@[simp] theorem State.ownRun_fixed (s : State) (h : HubId) (x1 : List ℕ) : (State.ownRun s h x1).1.fixed = s.fixed := by
  induction x1 generalizing s with
  | nil => rfl
  | cons a l ih => unfold State.ownRun; simp [ih]
theorem execSpiRegisterRead_fixed {h : HubId} {_quad : Bool} {addr : BitVec 24} {n : ℕ} {s : State} {z : State} (h : execSpiRegisterRead h _quad addr n s = .next z) : z.fixed = s.fixed := by
  cases h; simp
theorem execSpiRegisterWrite_fixed {h : HubId} {_quad : Bool} {addr : BitVec 24} {words : List Word} {s : State} {z : State} (h : execSpiRegisterWrite h _quad addr words s = .next z) : z.fixed = s.fixed := by
  cases h; simp
@[simp] theorem State.acceptTunnel_fixed (s : State) (m : TunnelMsg) : (State.acceptTunnel s m).fixed = s.fixed := by
  simp [State.acceptTunnel]
@[simp] theorem State.followTunnel_fixed (n : ℕ) (s : State) : (State.followTunnel n s).fixed = s.fixed := by
  induction n generalizing s with
  | zero => rfl
  | succ n ih =>
    unfold State.followTunnel
    split
    · simp [ih]
    · rfl
@[simp] theorem State.takeTunnel_fixed (s : State) (m : TunnelMsg) : (State.takeTunnel s m).fixed = s.fixed := by
  unfold State.takeTunnel; dsimp only; repeat' split
  all_goals first | rfl | simp
@[simp] theorem State.tunnelRequest_fixed (s : State) (m : TunnelMsg) : (State.tunnelRequest s m).fixed = s.fixed := by
  unfold State.tunnelRequest; repeat' split
  all_goals first | rfl | simp
theorem execSpiTunnelWrite_fixed {h : HubId} {m : TunnelMsg} {s : State} {z : State} (h : execSpiTunnelWrite h m s = .next z) : z.fixed = s.fixed := by
  cases h; simp
theorem execSpiTunnelRead_fixed {h : HubId} {s : State} {z : State} (h : execSpiTunnelRead h s = .next z) : z.fixed = s.fixed := by
  cases h; dsimp only; repeat' split
  all_goals first | rfl | (simp; done) | (simp [*]; done)

end Sys2Proof.Machine
end

