-- ==== Sys2Proof/Laws/Logs.lean ====
section
/-! SUPPORT. Every operation and every command keeps the event counts of both hubs' logs (R27, R300): one lemma for
each function that answers a state. -/

set_option linter.unusedVariables false
set_option linter.unusedTactic false
set_option linter.unreachableTactic false
set_option linter.unusedSimpArgs false

namespace Sys2Proof.Machine
open Sys2Proof

/-- The counts of one log agree and its staging queue is within its size (R300). -/
def Log.Ok (l : Log) : Prop := l.raised = l.logged + l.counted ∧ l.staged.length ≤ 64
/-- The counts of every hub's log agree. -/
structure LogsOk (hs : Vector Hub 2) : Prop where
  ok : ∀ i : HubId, Log.Ok (hs[i.val]).log
theorem Log.stage_ok {l : Log} {r : LogRec} (h : l.Ok) : (l.stage r).Ok := by
  obtain ⟨a, b⟩ := h
  unfold Log.Ok Log.stage
  dsimp only
  split
  · refine ⟨by dsimp only; omega, ?_⟩
    simp only [List.length_append, List.length_cons, List.length_nil]; omega
  · exact ⟨by dsimp only; omega, b⟩
theorem Log.reset_ok : Log.reset.Ok := ⟨rfl, Nat.zero_le _⟩
theorem Log.restart_ok {l : Log} : l.restart.Ok := ⟨rfl, Nat.zero_le _⟩
theorem Log.waitCopy_ok {l : Log} {r b} (h : l.Ok) : (l.waitCopy r b).Ok := by
  unfold Log.waitCopy; split
  · exact h
  · split <;> exact h
theorem Log.boxRecord_ok {l : Log} {a b c d e} (h : l.Ok) : (l.boxRecord a b c d e).Ok := by
  unfold Log.boxRecord; exact Log.waitCopy_ok h
theorem Log.copyNow_ok {l : Log} {e} (h : l.Ok) : (l.copyNow e).Ok := by
  unfold Log.copyNow; split <;> exact h
theorem Log.fold_ok {α : Type} {f : Log → α → Log} {k : List α} {l : Log} (h : l.Ok) (g : ∀ l a, l.Ok → (f l a).Ok) :
    (k.foldl f l).Ok := by
  induction k generalizing l with
  | nil => exact h
  | cons a k ih => rw [List.foldl_cons]; exact ih (g _ _ h)
theorem Log.flush_ok {l : Log} {e} (h : l.Ok) : (l.flush e).Ok := by
  unfold Log.flush; split
  · exact h
  · exact Log.fold_ok h fun _ _ h => Log.copyNow_ok h
theorem Log.prepare_ok {l : Log} {e} (h : l.Ok) : (l.prepare e).Ok := by
  have := Log.flush_ok (e := e) h; exact this
theorem Log.write_ok {l : Log} {m r} (h : l.Ok) : (l.write m r).1.Ok := by
  unfold Log.write; dsimp only; split
  · exact Log.waitCopy_ok h
  · exact h
theorem Log.writeSummaries_ok {l : Log} {i m} (h : l.Ok) : (l.writeSummaries i m).Ok := by
  unfold Log.writeSummaries; split
  · have := Log.fold_ok (k := l.summaries i) (f := fun x r => (x.write m r).1) h fun _ _ h => Log.write_ok h
    exact this
  · exact h
theorem Hub.take_ok {x : Hub} {p r} (h : x.log.Ok) : (x.take p r).log.Ok := by
  unfold Hub.take; split
  · exact Log.stage_ok h
  · dsimp only; split
    · exact Log.stage_ok h
    · exact h
theorem Hub.raise_ok {x : Hub} {e r} (h : x.log.Ok) : (x.raise e r).log.Ok := Hub.take_ok h
theorem Logs.map {hs : Vector Hub 2} {f : Hub → Hub} (h : LogsOk hs) (g : ∀ x, x.log.Ok → (f x).log.Ok) : LogsOk (hs.map f) := by
  constructor; intro i; rw [Vector.getElem_map]; exact g _ (h.ok i)
theorem Logs.vmap {hs : Vector Hub 2} {f : Fin 2 → Hub → Hub} (h : LogsOk hs) (g : ∀ i x, x.log.Ok → (f i x).log.Ok) :
    LogsOk (vmap hs f) := by
  constructor; intro i; simp only [Sys2Proof.vmap, Vector.getElem_ofFn]; exact g _ _ (h.ok _)
theorem foldl_logs {α : Type} {f : State → α → State} {l : List α} {s : State} (h : LogsOk s.hubs)
    (g : ∀ s a, LogsOk s.hubs → LogsOk (f s a).hubs) : LogsOk (l.foldl f s).hubs := by
  induction l generalizing s with
  | nil => exact h
  | cons a l ih => rw [List.foldl_cons]; exact ih (g _ _ h)
theorem Hub.restart_ok {x : Hub} {v} : (x.restart v).log.Ok := Log.restart_ok
theorem Hub.boot_ok {x : Hub} {p a n} : (x.boot p a n).log.Ok := Log.restart_ok
theorem Hub.startChange_ok {x : Hub} {a b c} (h : x.log.Ok) : (x.startChange a b c).log.Ok := h
theorem Hub.setRole_ok {x : Hub} {r v} (h : x.log.Ok) : (x.setRole r v).log.Ok := by cases r <;> exact h
theorem Hub.modHdr_ok {x : Hub} {r v} (h : x.log.Ok) : (x.modHdr r v).log.Ok := h
theorem Hub.modLane_ok {x : Hub} {r v} (h : x.log.Ok) : (x.modLane r v).log.Ok := h
theorem Logs.two {a b : Hub} (ha : a.log.Ok) (hb : b.log.Ok) : LogsOk #v[a, b] := by
  constructor; intro i
  match i with
  | 0 => exact ha
  | 1 => exact hb
/-- A check that fails answers no state. -/
theorem of_check_logs {ε : Type} {p : Prop} [Decidable p] {x : ε} {y : Except ε State} {z : State} {g : Prop}
    (h : (if p then .error x else y) = .ok z) (k : y = .ok z → g) : g := by
  split at h
  · injection h
  · exact k h
theorem Logs.ite {c : Prop} [Decidable c] {a b : State} (ha : LogsOk a.hubs) (hb : LogsOk b.hubs) :
    LogsOk (if c then a else b).hubs := by split <;> assumption
theorem Log.railsDown_ok {l : Log} {e} (h : l.Ok) : (l.railsDown e).Ok := by
  have := Log.flush_ok (l := { l with bbWait := l.bbWait.filter LogRec.forced }) (e := e) h; exact this
theorem State.noteQuality_logs (old : State) (s : State) (h0 : LogsOk s.hubs) : LogsOk (State.noteQuality old s).hubs := by
  unfold State.noteQuality
  repeat' (first | (first | assumption | with_reducible apply foldl_logs | with_reducible apply Logs.map | with_reducible apply Logs.vmap | with_reducible apply Hub.raise_ok | with_reducible apply Log.boxRecord_ok | (intro) | split) | dsimp only)
theorem State.modHub_logs {s : State} {i : HubId} {f : Hub → Hub} (h : LogsOk s.hubs) (g : ∀ x, x.log.Ok → (f x).log.Ok) :
    LogsOk (s.modHub i f).hubs := by
  constructor; intro k
  by_cases e : i = k
  · subst e; simp only [State.modHub, vmod]; simpa using g _ (h.ok i)
  · have := h.ok k; simpa [State.modHub, vmod, Fin.val_inj, e, Vector.getElem_set] using this
theorem State.modDie_logs {s : State} {d f} (h : LogsOk s.hubs) : LogsOk (s.modDie d f).hubs := h
theorem State.modCore_logs {s : State} {f} (h : LogsOk s.hubs) : LogsOk (s.modCore f).hubs := h
theorem State.modCh_logs {s : State} {d f} (h : LogsOk s.hubs) : LogsOk (s.modCh d f).hubs := h
theorem State.modLane_logs {s : State} {i d f} (h : LogsOk s.hubs) : LogsOk (s.modLane i d f).hubs :=
  State.modHub_logs h fun _ h => h
theorem State.tickFree_logs {s : State} (h : LogsOk s.hubs) : LogsOk s.tickFree.hubs := h
theorem State.skipFree_logs (s : State) (n : ℕ) (h0 : LogsOk s.hubs) : LogsOk (State.skipFree s n).hubs := by
  exact h0
theorem State.sendTo_logs (s : State) (p : DieId → Bool) (f : DieId → Die → Die) (h0 : LogsOk s.hubs) : LogsOk (State.sendTo s p f).hubs := h0
theorem State.overLanes_logs (s : State) (f : DieId → Die → Die) (h0 : LogsOk s.hubs) : LogsOk (State.overLanes s f).hubs := h0
theorem State.modHdr_logs (s : State) (p : PageRef) (f : PageHdr → PageHdr) (h0 : LogsOk s.hubs) : LogsOk (State.modHdr s p f).hubs := by
  unfold State.modHdr
  repeat' (first | assumption | with_reducible apply State.modHub_logs | with_reducible apply Hub.modHdr_ok | split | intro)
theorem State.raise_logs (s : State) (h : HubId) (e : Ev) (time : ℕ) (st : Bool) (data : List Byte) (h0 : LogsOk s.hubs) : LogsOk (State.raise s h e time st data).hubs := by
  unfold State.raise
  repeat' (first | assumption | with_reducible apply State.modHub_logs | (with_reducible apply Hub.raise_ok) | intro)
theorem State.raiseNow_logs (s : State) (e : Ev) (data : List Byte) (h0 : LogsOk s.hubs) : LogsOk (State.raiseNow s e data).hubs := by
  unfold State.raiseNow
  repeat' (first | assumption | with_reducible apply State.raise_logs)
theorem State.raiseSrc_logs (s : State) (e : Ev) (time : ℕ) (source : ℕ) (st : Bool) (data : List Byte) (owner : Option Who) (h0 : LogsOk s.hubs) : LogsOk (State.raiseSrc s e time source st data owner).hubs := by
  unfold State.raiseSrc
  repeat' (first | assumption | with_reducible apply State.modHub_logs | (with_reducible apply Hub.raise_ok) | intro)
theorem State.rejectAt_logs (s : State) (p : PageRef) (cause : ℕ) (path : Path) (offset : ℕ) (h0 : LogsOk s.hubs) : LogsOk (State.rejectAt s p cause path offset).hubs := by
  unfold State.rejectAt
  repeat' (first | assumption | with_reducible apply State.modHdr_logs)
theorem State.commit_logs {s t : State} (h : LogsOk t.hubs) : LogsOk (State.commit s t).hubs := h
theorem State.hold_logs (s : State) (x1 : HeldBack) (h0 : LogsOk s.hubs) : LogsOk (State.hold s x1).hubs := by
  unfold State.hold
  repeat' (first | assumption | split)
theorem State.emit_logs (s : State) (m : OutMsg) (h0 : LogsOk s.hubs) : LogsOk (State.emit s m).hubs := by
  unfold State.emit
  repeat' (first | assumption | split)
theorem State.respond_logs (s : State) (r : Req) (x : Response) (h0 : LogsOk s.hubs) : LogsOk (State.respond s r x).hubs := by
  unfold State.respond
  repeat' (first | (first | assumption | with_reducible apply State.hold_logs | with_reducible apply State.emit_logs | split) | dsimp only)
theorem State.command_logs (s : State) (r : Req) (cmd : ℕ) (f : State → State × Response) (hf : ∀ x, LogsOk x.hubs → LogsOk (f x).1.hubs) (h0 : LogsOk s.hubs) : LogsOk (State.command s r cmd f).hubs := by
  unfold State.command
  split
  · split
    · exact State.respond_logs _ _ _ h0
    · exact State.respond_logs _ _ _ (hf _ h0)
  · exact h0
theorem State.commandLater_logs (s : State) (r : Req) (cmd : ℕ) (f : State → State × Option Response) (hf : ∀ x, LogsOk x.hubs → LogsOk (f x).1.hubs) (h0 : LogsOk s.hubs) : LogsOk (State.commandLater s r cmd f).hubs := by
  unfold State.commandLater
  split
  · split
    · exact State.respond_logs _ _ _ h0
    · have h := hf s h0
      split <;> (next e => rw [e] at h; first | exact h | exact State.respond_logs _ _ _ h)
  · exact h0
theorem State.tick_logs (s : State) (h0 : LogsOk s.hubs) : LogsOk (State.tick s).hubs := by
  unfold State.tick
  repeat' (first | (first | assumption | with_reducible apply foldl_logs | with_reducible apply Logs.map | with_reducible apply Logs.vmap | with_reducible apply Hub.raise_ok | with_reducible apply Log.boxRecord_ok | (intro) | split) | dsimp only)
theorem State.settlePools_logs (s : State) (d : DieId) (h0 : LogsOk s.hubs) : LogsOk (State.settlePools s d).hubs := by
  exact h0
theorem State.settlePackage_logs (s : State) (h0 : LogsOk s.hubs) : LogsOk (State.settlePackage s).hubs := by
  exact h0
theorem State.retire_logs (s : State) (id : ℕ) (o : EntryOutcome) (h0 : LogsOk s.hubs) : LogsOk (State.retire s id o).hubs := by
  unfold State.retire
  repeat' (first | assumption | with_reducible apply State.raiseSrc_logs | split)
theorem State.outcome_logs (s : State) (id : ℕ) (o : EntryOutcome) (h0 : LogsOk s.hubs) : LogsOk (State.outcome s id o).hubs := by
  unfold State.outcome
  repeat' (first | assumption | with_reducible apply State.hold_logs | with_reducible apply State.retire_logs | split)
theorem State.outcomes_logs (s : State) (ids : List ℕ) (o : EntryOutcome) (h0 : LogsOk s.hubs) : LogsOk (State.outcomes s ids o).hubs := by
  unfold State.outcomes
  repeat' (first | assumption | with_reducible apply foldl_logs | with_reducible apply State.outcome_logs | intro)
theorem State.syncShadow_logs (s : State) (d : DieId) (cs : List ChanId) (h0 : LogsOk s.hubs) : LogsOk (State.syncShadow s d cs).hubs := by
  unfold State.syncShadow
  repeat' (first | assumption | split)
theorem State.shadowUnit_logs (s : State) (ch : Chan) (h0 : LogsOk s.hubs) : LogsOk (State.shadowUnit s ch).hubs := State.syncShadow_logs _ _ _ h0
theorem State.applyConfig_logs (s : State) (ch : Chan) (p : PendCfg) (h0 : LogsOk s.hubs) : LogsOk (State.applyConfig s ch p).hubs := by
  unfold State.applyConfig
  repeat' (first | assumption | with_reducible apply State.modCore_logs | with_reducible apply State.outcomes_logs | with_reducible apply State.settlePools_logs)
theorem State.queueConfig_logs (s : State) (ch : Chan) (i : ChanImg) (set : ℕ) (tm : Tick) (h0 : LogsOk s.hubs) : LogsOk (State.queueConfig s ch i set tm).hubs := by
  unfold State.queueConfig
  repeat' (first | assumption | with_reducible apply State.modCh_logs | with_reducible apply foldl_logs | intro)
theorem State.startModeChange_logs (s : State) (ch : Chan) (h0 : LogsOk s.hubs) : LogsOk (State.startModeChange s ch).hubs := by
  unfold State.startModeChange
  repeat' (first | assumption | with_reducible apply State.applyConfig_logs | split)
theorem execModeChangeStart_logs {ch : Chan} {s : State} {z : State} (h : execModeChangeStart ch s = .next z) (h0 : LogsOk s.hubs) : LogsOk z.hubs := by
  cases h; (try unfold execModeChangeStart)
  (try dsimp only)
  repeat' (first | (first | assumption | with_reducible apply State.commit_logs | with_reducible apply State.startModeChange_logs | with_reducible apply State.syncShadow_logs) | dsimp only)
theorem execTransitionEnd_logs {x : InputLevel} {s : State} {z} (h : execTransitionEnd x s = .next z) (h0 : LogsOk s.hubs) : LogsOk z.hubs := by
  cases h; (try unfold execTransitionEnd)
  (try dsimp only)
  repeat' (first | (first | assumption | with_reducible apply State.commit_logs | with_reducible apply State.syncShadow_logs) | dsimp only)
theorem State.disableAt_logs (s : State) (ch : Chan) (td : Tick) (self : Option ℕ) (h0 : LogsOk s.hubs) : LogsOk (State.disableAt s ch td self).hubs := by
  unfold State.disableAt
  repeat' (first | assumption | with_reducible apply State.outcomes_logs | with_reducible apply State.settlePools_logs)
theorem execChannelDisableInstant_logs {ch : Chan} {s : State} {z : State} (h : execChannelDisableInstant ch s = .next z) (h0 : LogsOk s.hubs) : LogsOk z.hubs := by
  cases h; dsimp only
  repeat' (first | assumption | with_reducible apply State.modCore_logs | with_reducible apply State.commit_logs | with_reducible apply State.disableAt_logs | with_reducible apply State.syncShadow_logs | split)
theorem execHubLossExpiry_logs {d : DieId} {s : State} {z : State} (h : execHubLossExpiry d s = .next z) (h0 : LogsOk s.hubs) : LogsOk z.hubs := by
  cases h; exact h0
theorem execHoldMsExpiry_logs {ch : Chan} {s : State} {z : State} (h : execHoldMsExpiry ch s = .next z) (h0 : LogsOk s.hubs) : LogsOk z.hubs := by
  cases h; exact h0
theorem execRampStep_logs {ch : Chan} {s : State} {z : State} (h : execRampStep ch s = .next z) (h0 : LogsOk s.hubs) : LogsOk z.hubs := by
  cases h; exact h0
theorem execIsolatedPowerLost_logs {d : DieId} {s : State} {z : State} (h : execIsolatedPowerLost d s = .next z) (h0 : LogsOk s.hubs) : LogsOk z.hubs := by
  cases h; exact h0
theorem execOverrangeConfirm_logs {ch : Chan} {isOver : Bool} {s : State} {z : State} (h : execOverrangeConfirm ch isOver s = .next z) (h0 : LogsOk s.hubs) : LogsOk z.hubs := by
  cases h; exact h0
theorem execOpenWireResult_logs {ch : Chan} {isOpen : Bool} {s : State} {z : State} (h : execOpenWireResult ch isOpen s = .next z) (h0 : LogsOk s.hubs) : LogsOk z.hubs := by
  cases h; exact h0
theorem execTerminalMonitorResult_logs {ch : Chan} {sn : Bool} {mV : ℤ} {s : State} {z : State} (h : execTerminalMonitorResult ch sn mV s = .next z) (h0 : LogsOk s.hubs) : LogsOk z.hubs := by
  cases h; exact h0
theorem execOverloadConfirm_logs {ch : Chan} {s : State} {z : State} (h : execOverloadConfirm ch s = .next z) (h0 : LogsOk s.hubs) : LogsOk z.hubs := by
  cases h; exact h0
theorem execShortFgConfirm_logs {ch : Chan} {s : State} {z : State} (h : execShortFgConfirm ch s = .next z) (h0 : LogsOk s.hubs) : LogsOk z.hubs := by
  cases h; exact h0
theorem execThermalConfirm_logs {ch : Chan} {s : State} {z : State} (h : execThermalConfirm ch s = .next z) (h0 : LogsOk s.hubs) : LogsOk z.hubs := by
  cases h; exact h0
theorem execBackfeedConfirm_logs {ch : Chan} {s : State} {z : State} (h : execBackfeedConfirm ch s = .next z) (h0 : LogsOk s.hubs) : LogsOk z.hubs := by
  cases h; exact h0
theorem execBackfeedClear_logs {ch : Chan} {s : State} {z : State} (h : execBackfeedClear ch s = .next z) (h0 : LogsOk s.hubs) : LogsOk z.hubs := by
  cases h; exact h0
theorem execLpUndervoltConfirm_logs {d : DieId} {s : State} {z : State} (h : execLpUndervoltConfirm d s = .next z) (h0 : LogsOk s.hubs) : LogsOk z.hubs := by
  cases h; exact h0
theorem execLpUndervoltEpisodeEnd_logs {d : DieId} {s : State} {z : State} (h : execLpUndervoltEpisodeEnd d s = .next z) (h0 : LogsOk s.hubs) : LogsOk z.hubs := by
  cases h; exact h0
theorem execOffPulseStart_logs {ch : Chan} {s : State} {z : State} (h : execOffPulseStart ch s = .next z) (h0 : LogsOk s.hubs) : LogsOk z.hubs := by
  cases h; exact h0
theorem execOffPulseEnd_logs {ch : Chan} {vioMv : ℤ} {s : State} {z : State} (h : execOffPulseEnd ch vioMv s = .next z) (h0 : LogsOk s.hubs) : LogsOk z.hubs := by
  cases h; exact h0
theorem execShuntOpen_logs {ch : Chan} {s : State} {z : State} (h : execShuntOpen ch s = .next z) (h0 : LogsOk s.hubs) : LogsOk z.hubs := by
  cases h; exact h0
theorem execShuntRecloseTrial_logs {ch : Chan} {s : State} {z : State} (h : execShuntRecloseTrial ch s = .next z) (h0 : LogsOk s.hubs) : LogsOk z.hubs := by
  cases h; exact h0
theorem execCurrentLimitFoldback_logs {ch : Chan} {s : State} {z : State} (h : execCurrentLimitFoldback ch s = .next z) (h0 : LogsOk s.hubs) : LogsOk z.hubs := by
  cases h; exact h0
theorem execFoldbackRetry_logs {ch : Chan} {s : State} {z : State} (h : execFoldbackRetry ch s = .next z) (h0 : LogsOk s.hubs) : LogsOk z.hubs := by
  cases h; exact h0
theorem execPwmPeriodStart_logs {ch : Chan} {s : State} {z : State} (h : execPwmPeriodStart ch s = .next z) (h0 : LogsOk s.hubs) : LogsOk z.hubs := by
  cases h; exact h0
theorem execPwmDutyEnd_logs {ch : Chan} {s : State} {z : State} (h : execPwmDutyEnd ch s = .next z) (h0 : LogsOk s.hubs) : LogsOk z.hubs := by
  cases h; exact h0
theorem execShareCompare_logs {ch : Chan} {currents : List ℕ} {s : State} {z : State} (h : execShareCompare ch currents s = .next z) (h0 : LogsOk s.hubs) : LogsOk z.hubs := by
  cases h; exact h0
theorem execFskTransmitEnd_logs {ch : Chan} {s : State} {z : State} (h : execFskTransmitEnd ch s = .next z) (h0 : LogsOk s.hubs) : LogsOk z.hubs := by
  cases h; exact h0
theorem execFskCarrierDetect_logs {ch : Chan} {s : State} {z : State} (h : execFskCarrierDetect ch s = .next z) (h0 : LogsOk s.hubs) : LogsOk z.hubs := by
  cases h; exact h0
theorem execFskOctetReceive_logs {ch : Chan} {octet : Byte} {parityErr : Bool} {framingErr : Bool} {start : Tick} {s : State} {z : State} (h : execFskOctetReceive ch octet parityErr framingErr start s = .next z) (h0 : LogsOk s.hubs) : LogsOk z.hubs := by
  cases h; exact h0
theorem execFskTimeout_logs {ch : Chan} {s : State} {z : State} (h : execFskTimeout ch s = .next z) (h0 : LogsOk s.hubs) : LogsOk z.hubs := by
  cases h; exact h0
theorem execFskReceptionEnd_logs {ch : Chan} {carrier : Bool} {s : State} {z : State} (h : execFskReceptionEnd ch carrier s = .next z) (h0 : LogsOk s.hubs) : LogsOk z.hubs := by
  cases h; exact h0
theorem execChainOutput_logs {ch : Chan} {samples : List ℤ} {window : Option ℤ} {s : State} {z} (h : execChainOutput ch samples window s = .next z) (h0 : LogsOk s.hubs) : LogsOk z.hubs := by
  cases h; exact h0
theorem execFilterChange_logs {ch : Chan} {s : State} {z : State} (h : execFilterChange ch s = .next z) (h0 : LogsOk s.hubs) : LogsOk z.hubs := by
  cases h; exact h0
theorem State.decimate_logs (s : State) (tr : Tick) (src : ℕ) (h0 : LogsOk s.hubs) : LogsOk (State.decimate s tr src).hubs := by
  unfold State.decimate
  repeat' (first | assumption | with_reducible apply State.raiseSrc_logs)
theorem execDecimatorReset_logs {s : State} {z : State} (h : execDecimatorReset s = .next z) (h0 : LogsOk s.hubs) : LogsOk z.hubs := by
  cases h; (try unfold execDecimatorReset)
  (try dsimp only)
  repeat' (first | (first | assumption | with_reducible apply State.commit_logs | with_reducible apply State.decimate_logs | split) | dsimp only)
theorem State.trimFeed_logs (s : State) (di : DieId) (c : ChanId) (h0 : LogsOk s.hubs) : LogsOk (State.trimFeed s di c).hubs := by
  unfold State.trimFeed
  repeat' (first | (first | assumption | with_reducible apply State.modDie_logs | with_reducible apply foldl_logs | with_reducible apply Logs.map | with_reducible apply Logs.vmap | with_reducible apply Hub.raise_ok | with_reducible apply Log.boxRecord_ok | (intro) | split) | dsimp only)
theorem State.trimPairs_logs (s : State) (ch : Chan) (h0 : LogsOk s.hubs) : LogsOk (State.trimPairs s ch).hubs := by
  unfold State.trimPairs
  repeat' (first | (first | assumption | with_reducible apply State.trimFeed_logs | with_reducible apply foldl_logs | with_reducible apply Logs.map | with_reducible apply Logs.vmap | with_reducible apply Hub.raise_ok | with_reducible apply Log.boxRecord_ok | (intro) | split) | dsimp only)
theorem execComparatorEdge_logs {ch : Chan} {rising : Bool} {s : State} {z} (h : execComparatorEdge ch rising s = .next z) (h0 : LogsOk s.hubs) : LogsOk z.hubs := by
  cases h; (try dsimp only)
  repeat' (first | assumption | with_reducible apply State.modCh_logs | with_reducible apply State.modDie_logs | with_reducible apply State.tickFree_logs | with_reducible apply State.trimPairs_logs | with_reducible apply foldl_logs | with_reducible apply Logs.map | with_reducible apply Logs.vmap | (intro) | split | dsimp only)
theorem execFilterTick_logs {ch : Chan} {s : State} {z} (h : execFilterTick ch s = .next z) (h0 : LogsOk s.hubs) : LogsOk z.hubs := by
  cases h; (try unfold execFilterTick)
  (try dsimp only)
  repeat' (first | (first | assumption | with_reducible apply State.trimPairs_logs | with_reducible apply State.modDie_logs | with_reducible apply foldl_logs | with_reducible apply Logs.map | with_reducible apply Logs.vmap | with_reducible apply Hub.raise_ok | with_reducible apply Log.boxRecord_ok | (intro) | split) | dsimp only)
theorem execEncoderEpisodeEnd_logs {ch : Chan} {s : State} {z : State} (h : execEncoderEpisodeEnd ch s = .next z) (h0 : LogsOk s.hubs) : LogsOk z.hubs := by
  cases h; exact h0
theorem execCountPresetApply_logs {ch : Chan} {s : State} {z} (h : execCountPresetApply ch s = .next z) (h0 : LogsOk s.hubs) : LogsOk z.hubs := by
  cases h; (try unfold execCountPresetApply)
  (try dsimp only)
  repeat' (first | (first | assumption | with_reducible apply State.trimPairs_logs | with_reducible apply State.modDie_logs | with_reducible apply foldl_logs | with_reducible apply Logs.map | with_reducible apply Logs.vmap | with_reducible apply Hub.raise_ok | with_reducible apply Log.boxRecord_ok | (intro) | split) | dsimp only)
theorem execCaptureHeldTimeout_logs {ch : Chan} {s : State} {z : State} (h : execCaptureHeldTimeout ch s = .next z) (h0 : LogsOk s.hubs) : LogsOk z.hubs := by
  cases h; exact h0
theorem execCaptureRetire_logs {id : ℕ} {s : State} {z : State} (h : execCaptureRetire id s = .next z) (h0 : LogsOk s.hubs) : LogsOk z.hubs := by
  cases h; exact h0
theorem State.axisMove_logs (s : State) (a : AxisId) (time : Tick) (p : ℤ) (h0 : LogsOk s.hubs) : LogsOk (State.axisMove s a time p).hubs := by
  have h : ∀ (b : Bool) (x y : State), LogsOk x.hubs → LogsOk y.hubs → LogsOk (if b = true then x else y).hubs :=
    fun b x y hx hy => by cases b <;> assumption
  exact h _ _ _ h0 (State.raiseSrc_logs _ _ _ _ _ _ _ h0)
theorem State.axisSample_logs (s : State) (x1 : AxisId) (time : Tick) (pos : ℤ) (h0 : LogsOk s.hubs) : LogsOk (State.axisSample s x1 time pos).hubs := by
  unfold State.axisSample; dsimp only; repeat' split
  all_goals first | exact h0 | exact State.axisMove_logs _ _ _ _ h0
theorem State.axisSettle_logs (s : State) (a : AxisId) (h0 : LogsOk s.hubs) : LogsOk (State.axisSettle s a).hubs := by
  unfold State.axisSettle
  repeat' (first | (first | assumption | with_reducible apply State.modDie_logs | with_reducible apply foldl_logs | with_reducible apply Logs.map | with_reducible apply Logs.vmap | with_reducible apply Hub.raise_ok | with_reducible apply Log.boxRecord_ok | (intro) | split) | dsimp only)
theorem State.axisTake_logs (s : State) (a : AxisId) (ch : Chan) (n : ℕ) (h0 : LogsOk s.hubs) : LogsOk (State.axisTake s a ch n).hubs := by
  unfold State.axisTake
  repeat' (first | (first | assumption | with_reducible apply State.trimFeed_logs | with_reducible apply State.modCore_logs | with_reducible apply foldl_logs | with_reducible apply Logs.map | with_reducible apply Logs.vmap | with_reducible apply Hub.raise_ok | with_reducible apply Log.boxRecord_ok | (intro) | split) | dsimp only)
theorem State.axisEdge_logs (s : State) (a : AxisId) (h0 : LogsOk s.hubs) : LogsOk (State.axisEdge s a).hubs := by
  unfold State.axisEdge
  repeat' (first | (first | assumption | with_reducible apply State.axisSettle_logs | with_reducible apply State.axisMove_logs | with_reducible apply State.axisTake_logs | with_reducible apply foldl_logs | with_reducible apply Logs.map | with_reducible apply Logs.vmap | with_reducible apply Hub.raise_ok | with_reducible apply Log.boxRecord_ok | (intro) | split) | dsimp only)
theorem execAxisSample_logs {a : AxisId} {time : Tick} {pos : ℤ} {s : State} {z} (h : execAxisSample a time pos s = .next z) (h0 : LogsOk s.hubs) : LogsOk z.hubs := by
  cases h; (try unfold execAxisSample)
  (try dsimp only)
  repeat' (first | (first | assumption | with_reducible apply State.commit_logs | with_reducible apply State.axisEdge_logs | with_reducible apply State.axisSample_logs | with_reducible apply foldl_logs | with_reducible apply Logs.map | with_reducible apply Logs.vmap | with_reducible apply Hub.raise_ok | with_reducible apply Log.boxRecord_ok | (intro) | split) | dsimp only)
theorem State.axisZero_logs (s : State) (a : AxisId) (time : Tick) (h0 : LogsOk s.hubs) : LogsOk (State.axisZero s a time).hubs := by
  unfold State.axisZero
  repeat' (first | assumption | with_reducible apply State.modCore_logs | with_reducible apply State.overLanes_logs | with_reducible apply State.raiseSrc_logs | with_reducible apply foldl_logs | with_reducible apply Logs.map | with_reducible apply Logs.vmap | (intro) | split | dsimp only)
theorem execAxisZReference_logs {a : AxisId} {time : Tick} {s : State} {z} (h : execAxisZReference a time s = .next z) (h0 : LogsOk s.hubs) : LogsOk z.hubs := by
  cases h; (try unfold execAxisZReference)
  (try dsimp only)
  repeat' (first | (first | assumption | with_reducible apply State.commit_logs | with_reducible apply State.axisSettle_logs | with_reducible apply State.axisZero_logs | with_reducible apply State.axisTake_logs | with_reducible apply foldl_logs | with_reducible apply Logs.map | with_reducible apply Logs.vmap | with_reducible apply Hub.raise_ok | with_reducible apply Log.boxRecord_ok | (intro) | split) | dsimp only)
theorem execAxisStill_logs {x1 : AxisId} {s : State} {z : State} (h : execAxisStill x1 s = .next z) (h0 : LogsOk s.hubs) : LogsOk z.hubs := by
  cases h; (try unfold execAxisStill)
  (try dsimp only)
  repeat' (first | (first | assumption | with_reducible apply State.commit_logs | with_reducible apply State.raiseSrc_logs | split) | dsimp only)
theorem execAngleEpisodeEnd_logs {ch : Chan} {overspeed : Bool} {s : State} {z : State} (h : execAngleEpisodeEnd ch overspeed s = .next z) (h0 : LogsOk s.hubs) : LogsOk z.hubs := by
  cases h; exact h0
theorem State.mainsMeasure_logs (s : State) (p : ℕ) (inside : Bool) (h0 : LogsOk s.hubs) : LogsOk (State.mainsMeasure s p inside).hubs := by
  unfold State.mainsMeasure
  repeat' (first | (first | assumption | with_reducible apply State.raiseNow_logs | split) | dsimp only)
theorem execMainsZeroCrossing_logs {x : BaseCodes} {s : State} {z} (h : execMainsZeroCrossing x s = .next z) (h0 : LogsOk s.hubs) : LogsOk z.hubs := by
  cases h; dsimp only
  repeat' (first | assumption | with_reducible apply State.commit_logs | with_reducible apply State.mainsMeasure_logs | split)
theorem execMainsSourceTimeout_logs {s : State} {z : State} (h : execMainsSourceTimeout s = .next z) (h0 : LogsOk s.hubs) : LogsOk z.hubs := by
  cases h; dsimp only
  repeat' (first | assumption | with_reducible apply State.commit_logs | with_reducible apply State.raiseNow_logs | split)
theorem execMainsHoldExpiry_logs {s : State} {z : State} (h : execMainsHoldExpiry s = .next z) (h0 : LogsOk s.hubs) : LogsOk z.hubs := by
  cases h; dsimp only
  repeat' (first | assumption | split)
theorem execMainsBoundarySend_logs {s : State} {z : State} (h : execMainsBoundarySend s = .next z) (h0 : LogsOk s.hubs) : LogsOk z.hubs := by
  cases h; (try unfold execMainsBoundarySend)
  (try dsimp only)
  repeat' (first | (first | assumption | split) | dsimp only)
theorem execMainsWindowEnd_logs {ch : Chan} {raw : ℤ} {s : State} {z : State} (h : execMainsWindowEnd ch raw s = .next z) (h0 : LogsOk s.hubs) : LogsOk z.hubs := by
  cases h; exact h0
theorem execAuxPassStart_logs {d : DieId} {s : State} {z : State} (h : execAuxPassStart d s = .next z) (h0 : LogsOk s.hubs) : LogsOk z.hubs := by
  cases h; exact h0
theorem execAuxEntryEnd_logs {d : DieId} {result : ℤ} {s : State} {z : State} (h : execAuxEntryEnd d result s = .next z) (h0 : LogsOk s.hubs) : LogsOk z.hubs := by
  cases h; exact h0
theorem execUrgentTrigger_logs {d : DieId} {id : ℕ} {s : State} {z : State} (h : execUrgentTrigger d id s = .next z) (h0 : LogsOk s.hubs) : LogsOk z.hubs := by
  cases h; exact h0
theorem execUrgentArrival_logs {d : DieId} {k : Fin 4} {s : State} {z : State} (h : execUrgentArrival d k s = .next z) (h0 : LogsOk s.hubs) : LogsOk z.hubs := by
  cases h; exact h0
theorem execPwmEventTimeout_logs {d : DieId} {k : Fin 4} {s : State} {z : State} (h : execPwmEventTimeout d k s = .next z) (h0 : LogsOk s.hubs) : LogsOk z.hubs := by
  cases h; exact h0
theorem execInjectedSequenceEnd_logs {d : DieId} {results : List ℤ} {s : State} {z : State} (h : execInjectedSequenceEnd d results s = .next z) (h0 : LogsOk s.hubs) : LogsOk z.hubs := by
  cases h; exact h0
theorem execRefCompare_logs {d : DieId} {diff : ℤ} {s : State} {z : State} (h : execRefCompare d diff s = .next z) (h0 : LogsOk s.hubs) : LogsOk z.hubs := by
  cases h; exact h0
theorem execRefSwitch_logs {d : DieId} {s : State} {z : State} (h : execRefSwitch d s = .next z) (h0 : LogsOk s.hubs) : LogsOk z.hubs := by
  cases h; exact h0
theorem execCarouselSlotStart_logs {d : DieId} {k : SpareId} {s : State} {z : State} (h : execCarouselSlotStart d k s = .next z) (h0 : LogsOk s.hubs) : LogsOk z.hubs := by
  cases h; exact h0
theorem execCarouselTakeover_logs {d : DieId} {k : SpareId} {own spare : List ℤ} {s : State} {z} (h : execCarouselTakeover d k own spare s = .next z) (h0 : LogsOk s.hubs) : LogsOk z.hubs := by
  cases h; exact h0
theorem execCarouselPointsEnd_logs {d : DieId} {k : SpareId} {points : List ℤ} {pairs : List (ℤ × ℤ)} {temp : ℤ} {s : State} {z} (h : execCarouselPointsEnd d k points pairs temp s = .next z) (h0 : LogsOk s.hubs) : LogsOk z.hubs := by
  cases h; exact h0
theorem execCarouselHandback_logs {d : DieId} {k : SpareId} {own spare : List ℤ} {s : State} {z} (h : execCarouselHandback d k own spare s = .next z) (h0 : LogsOk s.hubs) : LogsOk z.hubs := by
  cases h; exact h0
theorem execCarouselSelfCalEnd_logs {d : DieId} {k : SpareId} {points : List ℤ} {temp : ℤ} {s : State} {z : State} (h : execCarouselSelfCalEnd d k points temp s = .next z) (h0 : LogsOk s.hubs) : LogsOk z.hubs := by
  cases h; exact h0
theorem State.putStore_logs (s : State) (f : NvStore → NvStore) (h0 : LogsOk s.hubs) : LogsOk (State.putStore s f).hubs := by
  unfold State.putStore
  repeat' (first | assumption | with_reducible apply State.modHub_logs | split | intro)
theorem State.takeRole_logs {s : State} {key : Bool} {z : State} (h : State.takeRole s key = some z) (h0 : LogsOk s.hubs) : LogsOk z.hubs := by
  unfold State.takeRole at h; (try dsimp only at h); repeat' split at h
  all_goals (try cases h)
  all_goals repeat' (first | (first | assumption | with_reducible apply State.modHub_logs | intro) | dsimp only)
theorem execWarmStartWrite_logs {s : State} {z} (h : execWarmStartWrite s = .next z) (h0 : LogsOk s.hubs) : LogsOk z.hubs := by
  cases h; dsimp only
  repeat' (first | assumption | with_reducible apply State.commit_logs | with_reducible apply State.putStore_logs | with_reducible apply State.raiseSrc_logs | with_reducible apply State.tickFree_logs | with_reducible apply State.modCore_logs | (exact State.takeRole_logs (by assumption) h0) | split)
theorem execCalPointEnd_logs {ch : Chan} {openSeen : Bool} {subMeans : List ℤ} {s : State} {z : State} (h : execCalPointEnd ch openSeen subMeans s = .next z) (h0 : LogsOk s.hubs) : LogsOk z.hubs := by
  cases h; dsimp only
  repeat' (first | assumption | with_reducible apply State.commit_logs | with_reducible apply State.respond_logs | split)
theorem execSysCorrectionApply_logs {ch : Chan} {s : State} {z : State} (h : execSysCorrectionApply ch s = .next z) (h0 : LogsOk s.hubs) : LogsOk z.hubs := by
  cases h; exact h0
theorem State.perform_logs (s : State) (e : Entry) (t : Tick) (h0 : LogsOk s.hubs) : LogsOk (State.perform s e t).hubs := by
  unfold State.perform
  repeat' (first | assumption | with_reducible apply State.modDie_logs | with_reducible apply State.applyConfig_logs | with_reducible apply State.disableAt_logs | split)
theorem State.noteExecuted_logs (s : State) (e : Entry) (cs : List ChanId) (h0 : LogsOk s.hubs) : LogsOk (State.noteExecuted s e cs).hubs := by
  unfold State.noteExecuted
  repeat' (first | assumption | with_reducible apply State.modCore_logs | with_reducible apply State.syncShadow_logs | split)
theorem State.unqueuedMiss_logs (s : State) (id : ℕ) (h0 : LogsOk s.hubs) : LogsOk (State.unqueuedMiss s id).hubs := by
  unfold State.unqueuedMiss
  repeat' (first | assumption | with_reducible apply State.commit_logs | with_reducible apply State.outcome_logs | split)
theorem execEntryExecute_logs {id : ℕ} {s : State} {z : State} (h : execEntryExecute id s = .next z) (h0 : LogsOk s.hubs) : LogsOk z.hubs := by
  cases h; dsimp only
  repeat' (first | assumption | with_reducible apply State.commit_logs | with_reducible apply State.perform_logs | with_reducible apply State.noteExecuted_logs | with_reducible apply State.unqueuedMiss_logs | split)
theorem execEntryRetire_logs {id : ℕ} {s : State} {z : State} (h : execEntryRetire id s = .next z) (h0 : LogsOk s.hubs) : LogsOk z.hubs := by
  cases h; (try unfold execEntryRetire)
  (try dsimp only)
  repeat' (first | (first | assumption | with_reducible apply State.commit_logs | with_reducible apply State.outcome_logs | split) | dsimp only)
theorem State.cancelEntry_logs (s : State) (e : Entry) (t : Tick) (h0 : LogsOk s.hubs) : LogsOk (State.cancelEntry s e t).hubs := by
  unfold State.cancelEntry
  repeat' (first | assumption | with_reducible apply State.outcome_logs | split)
theorem execCancelInstant_logs {s : State} {z} (h : execCancelInstant s = .next z) (h0 : LogsOk s.hubs) : LogsOk z.hubs := by
  cases h; dsimp only
  repeat' (first | assumption | with_reducible apply State.modCore_logs | with_reducible apply State.commit_logs | with_reducible apply foldl_logs | with_reducible apply State.cancelEntry_logs | with_reducible apply State.respond_logs | split | intro)
theorem execStaleAgeExpiry_logs {rec : ℕ} {s : State} {z : State} (h : execStaleAgeExpiry rec s = .next z) (h0 : LogsOk s.hubs) : LogsOk z.hubs := by
  cases h; dsimp only
  repeat' (first | assumption | split)
theorem State.preempted_logs (s : State) (cls : ℕ) (ids : List ℕ) (h0 : LogsOk s.hubs) : LogsOk (State.preempted s cls ids).hubs := by
  unfold State.preempted
  repeat' (first | assumption | with_reducible apply State.modCore_logs | with_reducible apply State.outcomes_logs | with_reducible apply State.raiseNow_logs)
theorem State.ledgerAdmit_logs {s : State} {items : List PlanItem} {cls : ℕ} {now : Tick} {below : ℕ} {z} (h : State.ledgerAdmit s items cls now below = .ok z) (h0 : LogsOk s.hubs) : LogsOk z.hubs := by
  unfold State.ledgerAdmit at h; (try dsimp only at h); repeat' split at h
  all_goals (try cases h)
  all_goals repeat' (first | (first | assumption | with_reducible apply State.modCore_logs | with_reducible apply State.preempted_logs) | dsimp only)
theorem State.admitEntry_logs {s : State} {who : Who} {v2 : Bool} {below : ℕ} {unit : List (Chan × SchedEntry × Option ChanImg)} {e : SchedEntry} {octets : List Byte} {z} (h : State.admitEntry s who v2 below unit e octets = .ok z) (h0 : LogsOk s.hubs) : LogsOk z.hubs := by
  unfold State.admitEntry at h
  split at h
  · injection h
  · dsimp only at h
    split at h
    · injection h
    · refine of_check_logs h fun h => of_check_logs h fun h => of_check_logs h fun h => of_check_logs h fun h => of_check_logs h fun h =>
        of_check_logs h fun h => of_check_logs h fun h => of_check_logs h fun h => ?_
      split at h
      · injection h
      · injection h
      · split at h
        · injection h
        · next e =>
          injection h with h
          subst h
          exact State.modCore_logs (State.ledgerAdmit_logs e h0)
theorem State.admitFrom_logs {s : State} {who : Who} {v2 : Bool} {below : ℕ} {unit : List (Chan × SchedEntry × Option ChanImg)} {x5 : ℕ} {x6 : List (SchedEntry × List Byte)} {z} (h : State.admitFrom s who v2 below unit x5 x6 = .ok z) (h0 : LogsOk s.hubs) : LogsOk z.hubs := by
  induction x6 generalizing s x5 with
  | nil => cases h; exact h0
  | cons p rest ih =>
    obtain ⟨e, o⟩ := p
    unfold State.admitFrom at h
    split at h
    · cases h
    · next e1 => exact ih h (State.admitEntry_logs e1 h0)
theorem State.admitUnit_logs {s : State} {who : Who} {v2 : Bool} {es : List (SchedEntry × List Byte)} {z} (h : State.admitUnit s who v2 es = .ok z) (h0 : LogsOk s.hubs) : LogsOk z.hubs := by
  unfold State.admitUnit at h; (try dsimp only at h); repeat' split at h
  all_goals (try cases h)
  all_goals repeat' (first | (first | assumption | (apply State.admitFrom_logs; assumption) | with_reducible apply State.modCore_logs | with_reducible apply foldl_logs | with_reducible apply State.settlePools_logs) | dsimp only)
theorem State.submit_logs (s : State) (who : Who) (v2 : Bool) (es : List (SchedEntry × List Byte)) (h0 : LogsOk s.hubs) : LogsOk (State.submit s who v2 es).1.hubs := by
  unfold State.submit
  dsimp only
  split
  · next e => exact State.modCore_logs (State.admitUnit_logs e h0)
  · split <;> (try split) <;> exact State.modCore_logs h0
theorem State.deferEnd_logs (s : State) (u : DeferUnit) (result : ℕ) (reason : ℕ) (h0 : LogsOk s.hubs) : LogsOk (State.deferEnd s u result reason).hubs := by
  unfold State.deferEnd
  repeat' (first | assumption | with_reducible apply State.raiseSrc_logs)
theorem State.retryUnit_logs (s : State) (u : DeferUnit) (h0 : LogsOk s.hubs) : LogsOk (State.retryUnit s u).hubs := by
  unfold State.retryUnit
  repeat' (first | (first | assumption | (apply State.admitUnit_logs; assumption) | with_reducible apply State.modCore_logs | with_reducible apply State.deferEnd_logs | split) | dsimp only)
theorem execDeferralRetry_logs {s : State} {z : State} (h : execDeferralRetry s = .next z) (h0 : LogsOk s.hubs) : LogsOk z.hubs := by
  cases h; (try unfold execDeferralRetry)
  (try dsimp only)
  repeat' (first | (first | assumption | with_reducible apply State.commit_logs | with_reducible apply foldl_logs | with_reducible apply State.retryUnit_logs | split) | dsimp only)
theorem execLedgerEpoch_logs {d : DieId} {metered : ℕ} {s : State} {z : State} (h : execLedgerEpoch d metered s = .next z) (h0 : LogsOk s.hubs) : LogsOk z.hubs := by
  cases h; dsimp only
  repeat' (first | assumption | split)
theorem State.chargeMetered_logs (s : State) (ch : Chan) (heat : ℕ) (h0 : LogsOk s.hubs) : LogsOk (State.chargeMetered s ch heat).hubs := by
  unfold State.chargeMetered
  repeat' (first | assumption | with_reducible apply State.modDie_logs | with_reducible apply State.preempted_logs | with_reducible apply State.settlePools_logs | split)
theorem execHeatMetering_logs {d : DieId} {m : HeatSample} {s : State} {z : State} (h : execHeatMetering d m s = .next z) (h0 : LogsOk s.hubs) : LogsOk z.hubs := by
  cases h; dsimp only
  repeat' (first | assumption | with_reducible apply State.commit_logs | with_reducible apply foldl_logs | with_reducible apply State.chargeMetered_logs | split | intro)
theorem State.modLedger_logs (s : State) (h : HubId) (f : LedgerRegs → LedgerRegs) (h0 : LogsOk s.hubs) : LogsOk (State.modLedger s h f).hubs := by
  unfold State.modLedger
  repeat' (first | assumption | split)
theorem State.policyEvent_logs (s : State) (h : HubId) (clip : Bool) (h0 : LogsOk s.hubs) : LogsOk (State.policyEvent s h clip).hubs := by
  unfold State.policyEvent
  repeat' (first | (first | assumption | with_reducible apply State.modHub_logs | with_reducible apply State.raise_logs | with_reducible apply State.modLedger_logs | split | intro) | dsimp only)
theorem execOperatingPointAdjust_logs {h : HubId} {busyPct : ℕ} {s : State} {z : State} (h : execOperatingPointAdjust h busyPct s = .next z) (h0 : LogsOk s.hubs) : LogsOk z.hubs := by
  cases h; dsimp only
  repeat' (first | assumption | with_reducible apply State.modHub_logs | with_reducible apply State.commit_logs | with_reducible apply Hub.startChange_ok | with_reducible apply State.policyEvent_logs | with_reducible apply State.settlePackage_logs | split | intro)
theorem execPolicyEpisodeEnd_logs {h : HubId} {clip : Bool} {s : State} {z : State} (h : execPolicyEpisodeEnd h clip s = .next z) (h0 : LogsOk s.hubs) : LogsOk z.hubs := by
  cases h; dsimp only
  repeat' (first | assumption | with_reducible apply State.modHub_logs | split | intro)
theorem State.confirmPoint_logs (s : State) (h : HubId) (h0 : LogsOk s.hubs) : LogsOk (State.confirmPoint s h).hubs := by
  unfold State.confirmPoint
  repeat' (first | assumption | with_reducible apply State.modHub_logs | with_reducible apply State.settlePackage_logs | split | intro)
theorem execVoltageConfirm_logs {h : HubId} {s : State} {z : State} (h : execVoltageConfirm h s = .next z) (h0 : LogsOk s.hubs) : LogsOk z.hubs := by
  cases h; (try unfold execVoltageConfirm)
  (try dsimp only)
  repeat' (first | (first | assumption | with_reducible apply State.commit_logs | with_reducible apply State.confirmPoint_logs | split) | dsimp only)
theorem execVreqAck_logs {h : HubId} {s : State} {z : State} (h : execVreqAck h s = .next z) (h0 : LogsOk s.hubs) : LogsOk z.hubs := by
  cases h; (try unfold execVreqAck)
  (try dsimp only)
  repeat' (first | (first | assumption | with_reducible apply State.commit_logs | with_reducible apply State.confirmPoint_logs | split) | dsimp only)
theorem execVreqTimeout_logs {h : HubId} {s : State} {z : State} (h : execVreqTimeout h s = .next z) (h0 : LogsOk s.hubs) : LogsOk z.hubs := by
  cases h; dsimp only
  repeat' (first | assumption | with_reducible apply State.modHub_logs | with_reducible apply State.commit_logs | with_reducible apply State.raise_logs | with_reducible apply State.settlePackage_logs | split | intro)
theorem State.modCoreOf_logs (s : State) (h : HubId) (f : Core → Core) (h0 : LogsOk s.hubs) : LogsOk (State.modCoreOf s h f).hubs := by
  unfold State.modCoreOf
  repeat' (first | assumption | split)
theorem State.readReg_logs (s : State) (p : PageRef) (off : ℕ) (h0 : LogsOk s.hubs) : LogsOk (State.readReg s p off).1.hubs := by
  unfold State.readReg
  repeat' (first | (first | assumption | with_reducible apply State.modHdr_logs | split) | dsimp only)
theorem State.unheard_logs (s : State) (p : PageRef) (h0 : LogsOk s.hubs) : LogsOk (State.unheard s p).hubs := by
  unfold State.unheard
  repeat' (first | (first | assumption | with_reducible apply State.modDie_logs | with_reducible apply foldl_logs | with_reducible apply Logs.map | with_reducible apply Logs.vmap | with_reducible apply Hub.raise_ok | with_reducible apply Log.boxRecord_ok | (intro) | split) | dsimp only)
theorem State.noteUsable_logs (old : State) (s : State) (h0 : LogsOk s.hubs) : LogsOk (State.noteUsable old s).hubs := by
  unfold State.noteUsable
  repeat' (first | (first | assumption | with_reducible apply State.noteQuality_logs | with_reducible apply foldl_logs | with_reducible apply Logs.map | with_reducible apply Logs.vmap | with_reducible apply Hub.raise_ok | with_reducible apply Log.boxRecord_ok | (intro) | split) | dsimp only)
theorem State.enterSync_logs (s : State) (st : SyncState) (ev : Option Ev) (h0 : LogsOk s.hubs) : LogsOk (State.enterSync s st ev).hubs := by
  unfold State.enterSync
  repeat' (first | assumption | with_reducible apply State.noteUsable_logs | with_reducible apply State.raiseNow_logs | split)
theorem State.writeAccept_logs (s : State) (b : Bool) (h0 : LogsOk s.hubs) : LogsOk (State.writeAccept s b).hubs := by
  unfold State.writeAccept
  repeat' (first | assumption | with_reducible apply State.noteUsable_logs)
theorem State.modPtp_logs (s : State) (p : PortId) (f : PtpPort → PtpPort) (h0 : LogsOk s.hubs) : LogsOk (State.modPtp s p f).hubs := by
  exact h0
theorem State.bmca_logs (s : State) (h0 : LogsOk s.hubs) : LogsOk (State.bmca s).hubs := by
  unfold State.bmca
  repeat' (first | (first | assumption | with_reducible apply State.enterSync_logs | split) | dsimp only)
theorem State.noteMix_logs (old : State) (s : State) (h0 : LogsOk s.hubs) : LogsOk (State.noteMix old s).hubs := by
  unfold State.noteMix
  repeat' (first | assumption | with_reducible apply State.raiseNow_logs | split)
theorem State.ptpRestart_logs (s : State) (p : PortId) (forget : Bool) (h0 : LogsOk s.hubs) : LogsOk (State.ptpRestart s p forget).hubs := by
  unfold State.ptpRestart
  repeat' (first | (first | assumption | with_reducible apply State.modPtp_logs | with_reducible apply State.bmca_logs | with_reducible apply State.noteMix_logs | with_reducible apply foldl_logs | with_reducible apply Logs.map | with_reducible apply Logs.vmap | with_reducible apply Hub.raise_ok | with_reducible apply Log.boxRecord_ok | (intro) | split) | dsimp only)
theorem State.loseAnnounce_logs (s : State) (p : PortId) (h0 : LogsOk s.hubs) : LogsOk (State.loseAnnounce s p).hubs := by
  unfold State.loseAnnounce
  repeat' (first | assumption | with_reducible apply State.bmca_logs)
theorem State.stopPorts_logs (s : State) (h : HubId) (h0 : LogsOk s.hubs) : LogsOk (State.stopPorts s h).hubs := by
  unfold State.stopPorts
  repeat' (first | assumption | with_reducible apply State.bmca_logs | with_reducible apply State.settlePackage_logs | with_reducible apply foldl_logs | with_reducible apply Logs.map | with_reducible apply Logs.vmap | (intro) | split | dsimp only)
theorem Hub.resetCounters_ok {x b : Hub} {r : ℕ} (h : x.log.Ok) : (x.resetCounters b r).log.Ok := by
  unfold Hub.resetCounters; split <;> exact h
theorem State.resetHubCounters_logs (s : State) (h : HubId) (r : Fin 12) (h0 : LogsOk s.hubs) : LogsOk (State.resetHubCounters s h r).hubs := by
  unfold State.resetHubCounters
  repeat' (first | assumption | with_reducible apply Hub.resetCounters_ok | with_reducible apply State.modHub_logs | with_reducible apply State.modCoreOf_logs | with_reducible apply State.modLedger_logs | split | intro)
theorem State.blockReset_logs (s : State) (p : PageRef) (h0 : LogsOk s.hubs) : LogsOk (State.blockReset s p).hubs := by
  unfold State.blockReset
  repeat' (first | assumption | with_reducible apply State.resetHubCounters_logs | with_reducible apply State.modHdr_logs | split)
theorem State.setFreeze_logs (s : State) (p : PageRef) (b : Bool) (h0 : LogsOk s.hubs) : LogsOk (State.setFreeze s p b).hubs := by
  unfold State.setFreeze
  repeat' (first | assumption | with_reducible apply State.modHdr_logs | split)
theorem State.writeHdr_logs (s : State) (p : PageRef) (off : ℕ) (w : Word) (h0 : LogsOk s.hubs) : LogsOk (State.writeHdr s p off w).hubs := by
  unfold State.writeHdr
  repeat' (first | assumption | with_reducible apply State.blockReset_logs | with_reducible apply State.setFreeze_logs | with_reducible apply State.modHdr_logs | split)
theorem State.shiftOut_logs (s : State) (h : HubId) (l : List Word) (h0 : LogsOk s.hubs) : LogsOk (State.shiftOut s h l).hubs := by
  exact h0
theorem State.release_logs (s : State) (x1 : HeldBack) (h0 : LogsOk s.hubs) : LogsOk (State.release s x1).hubs := by
  unfold State.release
  repeat' (first | assumption | with_reducible apply State.modLane_logs | with_reducible apply State.emit_logs | with_reducible apply State.retire_logs | split)
theorem State.releaseTo_logs (s : State) (k : ℕ) (h0 : LogsOk s.hubs) : LogsOk (State.releaseTo s k).hubs := by
  unfold State.releaseTo
  repeat' (first | assumption | with_reducible apply foldl_logs | with_reducible apply State.release_logs)
theorem State.applyUnit_logs (s : State) (u : MUnit) (h0 : LogsOk s.hubs) : LogsOk (State.applyUnit s u).hubs := by
  unfold State.applyUnit
  repeat' (first | assumption | with_reducible apply foldl_logs | with_reducible apply State.writeHdr_logs | split | intro)
theorem State.stopMirror_logs (s : State) (h0 : LogsOk s.hubs) : LogsOk (State.stopMirror s).hubs := by
  unfold State.stopMirror
  repeat' (first | assumption | with_reducible apply State.releaseTo_logs)
theorem State.dropMirror_logs (s : State) (h0 : LogsOk s.hubs) : LogsOk (State.dropMirror s).hubs := by
  exact h0
theorem State.finishMirror_logs (s : State) (h0 : LogsOk s.hubs) : LogsOk (State.finishMirror s).hubs := by
  unfold State.finishMirror
  repeat' (first | assumption | with_reducible apply foldl_logs | with_reducible apply State.applyUnit_logs | with_reducible apply State.releaseTo_logs)
theorem State.startSwitchover_logs (s : State) (cause : ℕ) (req : Option Req) (h0 : LogsOk s.hubs) : LogsOk (State.startSwitchover s cause req).hubs := by
  unfold State.startSwitchover
  repeat' (first | assumption | with_reducible apply State.modHub_logs | with_reducible apply State.finishMirror_logs | split | intro)
theorem State.becomeActive_logs (s : State) (h : HubId) (failed : Bool) (h0 : LogsOk s.hubs) : LogsOk (State.becomeActive s h failed).hubs := by
  unfold State.becomeActive
  repeat' (first | assumption | with_reducible apply Hub.restart_ok | with_reducible apply Log.restart_ok | with_reducible apply State.bmca_logs | with_reducible apply State.modHub_logs | with_reducible apply State.stopPorts_logs | with_reducible apply foldl_logs | with_reducible apply Logs.map | with_reducible apply Logs.vmap | (intro) | split | dsimp only)
theorem State.retireRecorded_logs (s : State) (h0 : LogsOk s.hubs) : LogsOk (State.retireRecorded s).hubs := by
  unfold State.retireRecorded
  repeat' (first | assumption | with_reducible apply foldl_logs | with_reducible apply State.retire_logs | split | intro)
theorem State.raiseFault_logs (s : State) (h : HubId) (source : ℕ) (unit : ℕ) (h0 : LogsOk s.hubs) : LogsOk (State.raiseFault s h source unit).hubs := by
  unfold State.raiseFault
  repeat' (first | assumption | with_reducible apply State.modHub_logs | (with_reducible apply Hub.raise_ok) | intro)
theorem State.hubFault_logs (s : State) (h : HubId) (h0 : LogsOk s.hubs) : LogsOk (State.hubFault s h).hubs := by
  unfold State.hubFault
  repeat' (first | assumption | with_reducible apply State.modCore_logs | with_reducible apply State.modHub_logs | with_reducible apply State.startSwitchover_logs | with_reducible apply State.stopMirror_logs | with_reducible apply State.stopPorts_logs | with_reducible apply foldl_logs | with_reducible apply Logs.map | with_reducible apply Logs.vmap | (intro) | split | dsimp only)
theorem State.box_logs (s : State) (hh : HubId) (t : Tick) (recs : List (ℕ × List Byte)) (h0 : LogsOk s.hubs) : LogsOk (State.box s hh t recs).hubs := by
  exact State.modHub_logs h0 fun x h => Log.fold_ok h fun _ _ h => Log.boxRecord_ok h
theorem State.boxSnapshot_logs (s : State) (hs : List HubId) (ds : List DieId) (t : Tick) (h0 : LogsOk s.hubs) : LogsOk (State.boxSnapshot s hs ds t).hubs := by
  unfold State.boxSnapshot
  repeat' (first | (first | assumption | with_reducible apply State.box_logs | with_reducible apply foldl_logs | with_reducible apply Logs.map | with_reducible apply Logs.vmap | with_reducible apply Hub.raise_ok | with_reducible apply Log.boxRecord_ok | (intro) | split) | dsimp only)
theorem State.takeOver_logs (s : State) (h : HubId) (h0 : LogsOk s.hubs) : LogsOk (State.takeOver s h).hubs := by
  unfold State.takeOver
  repeat' (first | assumption | with_reducible apply State.modHub_logs | with_reducible apply State.raise_logs | with_reducible apply State.retireRecorded_logs | with_reducible apply State.becomeActive_logs | (intro) | dsimp only)
theorem State.switchOver_logs (s : State) (h : HubId) (ts : Tick) (t0 : ℕ) (req : Option Req) (cause : ℕ) (h0 : LogsOk s.hubs) :
    LogsOk (State.switchOver s h ts t0 req cause).hubs := by
  unfold State.switchOver
  repeat' (first | assumption | with_reducible apply State.raise_logs | with_reducible apply State.retireRecorded_logs | with_reducible apply State.becomeActive_logs | with_reducible apply State.finishMirror_logs | with_reducible apply State.respond_logs | split | (intro) | dsimp only)
theorem State.takeoverComplete_logs (s : State) (h : HubId) (h0 : LogsOk s.hubs) : LogsOk (State.takeoverComplete s h).hubs := by
  unfold State.takeoverComplete
  repeat' (first | assumption | with_reducible apply State.takeOver_logs | with_reducible apply State.switchOver_logs | split | dsimp only)
theorem State.poolMismatch_logs (s : State) (hs : List HubId) (ds : List DieId) (t : Tick) (b : Bool) (h0 : LogsOk s.hubs) : LogsOk (State.poolMismatch s hs ds t b).hubs := by
  unfold State.poolMismatch
  repeat' (first | (first | assumption | with_reducible apply State.modCore_logs | with_reducible apply State.modDie_logs | with_reducible apply foldl_logs | with_reducible apply State.raise_logs | with_reducible apply State.boxSnapshot_logs | with_reducible apply State.raiseFault_logs | with_reducible apply State.hubFault_logs | split | intro) | dsimp only)
theorem State.modLink_logs (s : State) (l : Link) (f : Lane → Lane) (h0 : LogsOk s.hubs) : LogsOk (State.modLink s l f).hubs := by
  unfold State.modLink
  repeat' (first | assumption | with_reducible apply State.modLane_logs | split)
theorem State.creditDown_logs (s : State) (hh : HubId) (d : DieId) (n : ℕ) (h0 : LogsOk s.hubs) : LogsOk (State.creditDown s hh d n).hubs := by
  exact h0
theorem State.frameDown_logs (s : State) (hh : HubId) (d : DieId) (type : ℕ) (payload : Dword) (h0 : LogsOk s.hubs) : LogsOk (State.frameDown s hh d type payload).hubs := by
  unfold State.frameDown
  repeat' (first | (first | assumption | with_reducible apply State.creditDown_logs | with_reducible apply State.modLane_logs | with_reducible apply foldl_logs | with_reducible apply Logs.map | with_reducible apply Logs.vmap | with_reducible apply Hub.raise_ok | with_reducible apply Log.boxRecord_ok | (intro) | split) | dsimp only)
theorem State.bufferedDown_logs (s : State) (h : HubId) (d : DieId) (x : DownItem) (payload : Dword) (h0 : LogsOk s.hubs) : LogsOk (State.bufferedDown s h d x payload).hubs := by
  unfold State.bufferedDown
  repeat' (first | assumption | with_reducible apply Hub.modLane_ok | with_reducible apply State.creditDown_logs | with_reducible apply State.modLane_logs | with_reducible apply foldl_logs | with_reducible apply Logs.map | with_reducible apply Logs.vmap | (intro) | split | dsimp only)
theorem State.strayDown_logs (s : State) (h : HubId) (d : DieId) (x : DownItem) (payload : Dword) (h0 : LogsOk s.hubs) : LogsOk (State.strayDown s h d x payload).hubs := by
  unfold State.strayDown
  repeat' (first | assumption | with_reducible apply Hub.modLane_ok | with_reducible apply State.creditDown_logs | with_reducible apply State.modLane_logs | with_reducible apply foldl_logs | with_reducible apply Logs.map | with_reducible apply Logs.vmap | (intro) | split | dsimp only)
theorem State.sendDown_logs (s : State) (h : HubId) (d : DieId) (x : DownItem) (payload : Dword) (f : State → State) (h0 : LogsOk s.hubs) (fk : ∀ y0, LogsOk y0.hubs → LogsOk (f y0).hubs) : LogsOk (State.sendDown s h d x payload f).hubs := by
  unfold State.sendDown
  repeat' (first | assumption | with_reducible apply State.bufferedDown_logs | with_reducible apply State.strayDown_logs | with_reducible apply fk | split)
theorem State.passStr_logs (s : State) (hh : HubId) (type : StrType) (payload : Dword) (h0 : LogsOk s.hubs) : LogsOk (State.passStr s hh type payload).hubs := by
  exact h0
theorem State.countStr_logs (s : State) (h : HubId) (f : LinkErr → LinkErr) (h0 : LogsOk s.hubs) : LogsOk (State.countStr s h f).hubs :=
  State.modHub_logs h0 fun _ k => k
theorem State.strayStr_logs (s : State) (h : HubId) (type : StrType) (payload : Dword) (h0 : LogsOk s.hubs) : LogsOk (State.strayStr s h type payload).hubs :=
  State.countStr_logs _ _ _ (State.modLink_logs _ _ _ h0)
theorem State.gotStr_logs (s : State) (hh : HubId) (type : ℕ) (payload : Dword) (h0 : LogsOk s.hubs) : LogsOk (State.gotStr s hh type payload).hubs := by
  exact h0
theorem State.sendStr_logs (s : State) (hh : HubId) (type : StrType) (payload : Dword) (f : State → State) (h0 : LogsOk s.hubs) (fk : ∀ y0, LogsOk y0.hubs → LogsOk (f y0).hubs) : LogsOk (State.sendStr s hh type payload f).hubs := by
  unfold State.sendStr
  repeat' (first | (first | assumption | with_reducible apply State.passStr_logs | with_reducible apply State.strayStr_logs | with_reducible apply foldl_logs | with_reducible apply Logs.map | with_reducible apply Logs.vmap | with_reducible apply Hub.raise_ok | with_reducible apply Log.boxRecord_ok | (with_reducible apply fk) | (intro) | split) | dsimp only)
theorem execOutputStateSend_logs {d : DieId} {s : State} {z : State} (h : execOutputStateSend d s = .next z) (h0 : LogsOk s.hubs) : LogsOk z.hubs := by
  cases h; (try unfold execOutputStateSend)
  (try dsimp only)
  repeat' (first | (first | assumption | with_reducible apply State.modLane_logs | split) | dsimp only)
theorem execOutputStateReceive_logs {hh : HubId} {d : DieId} {k : Fin 4} {s : State} {z} (h : execOutputStateReceive hh d k s = .next z) (h0 : LogsOk s.hubs) : LogsOk z.hubs := by
  cases h; dsimp only
  repeat' (first | assumption | with_reducible apply State.modDie_logs | with_reducible apply State.commit_logs | with_reducible apply State.frameDown_logs | with_reducible apply State.syncShadow_logs | split)
theorem execStatusSend_logs {d : DieId} {s : State} {z : State} (h : execStatusSend d s = .next z) (h0 : LogsOk s.hubs) : LogsOk z.hubs := by
  cases h; exact h0
theorem State.pushConfig_logs (s : State) (ch : Chan) (h0 : LogsOk s.hubs) : LogsOk (State.pushConfig s ch).hubs := by
  unfold State.pushConfig
  repeat' (first | (first | assumption | with_reducible apply State.queueConfig_logs | with_reducible apply foldl_logs | with_reducible apply Logs.map | with_reducible apply Logs.vmap | with_reducible apply Hub.raise_ok | with_reducible apply Log.boxRecord_ok | (intro) | split) | dsimp only)
theorem State.pushIntent_logs (s : State) (ch : Chan) (h0 : LogsOk s.hubs) : LogsOk (State.pushIntent s ch).hubs := by
  unfold State.pushIntent
  repeat' (first | (first | assumption | with_reducible apply State.pushConfig_logs | with_reducible apply State.modDie_logs | with_reducible apply foldl_logs | with_reducible apply Logs.map | with_reducible apply Logs.vmap | with_reducible apply Hub.raise_ok | with_reducible apply Log.boxRecord_ok | (intro) | split) | dsimp only)
theorem State.stateSkew_logs (s : State) (ch : Chan) (w : Word) (h0 : LogsOk s.hubs) : LogsOk (State.stateSkew s ch w).hubs := by
  unfold State.stateSkew
  repeat' (first | (first | assumption | with_reducible apply State.modDie_logs | with_reducible apply State.raiseSrc_logs | with_reducible apply State.pushIntent_logs | split) | dsimp only)
theorem State.compareShadow_logs (s : State) (ch : Chan) (w : Word) (h0 : LogsOk s.hubs) : LogsOk (State.compareShadow s ch w).hubs := by
  unfold State.compareShadow
  repeat' (first | (first | assumption | with_reducible apply State.stateSkew_logs | split) | dsimp only)
theorem execStatusReceive_logs {h : HubId} {d : DieId} {k : Fin 8} {s : State} {z : State} (h : execStatusReceive h d k s = .next z) (h0 : LogsOk s.hubs) : LogsOk z.hubs := by
  cases h; dsimp only
  repeat' (first | assumption | with_reducible apply State.commit_logs | with_reducible apply State.modLane_logs | with_reducible apply State.compareShadow_logs | split)
theorem execTimeFrameSend_logs {l : Link} {s : State} {z} (h : execTimeFrameSend l s = .next z) (h0 : LogsOk s.hubs) : LogsOk z.hubs := by
  cases h; (try unfold execTimeFrameSend)
  (try dsimp only)
  repeat' (first | (first | assumption | with_reducible apply State.modLane_logs | split) | dsimp only)
theorem execTimeFrameReceive_logs {h : HubId} {d : Option DieId} {s : State} {z} (h : execTimeFrameReceive h d s = .next z) (h0 : LogsOk s.hubs) : LogsOk z.hubs := by
  cases h; (try unfold execTimeFrameReceive)
  (try dsimp only)
  repeat' (first | (first | assumption | with_reducible apply State.modDie_logs | with_reducible apply State.modLane_logs | with_reducible apply State.frameDown_logs | split) | dsimp only)
theorem execCoastingStart_logs {d : DieId} {s : State} {z} (h : execCoastingStart d s = .next z) (h0 : LogsOk s.hubs) : LogsOk z.hubs := by
  cases h; (try unfold execCoastingStart)
  (try dsimp only)
  repeat' (first | (first | assumption | with_reducible apply State.modDie_logs | with_reducible apply State.tickFree_logs | with_reducible apply foldl_logs | with_reducible apply Logs.map | with_reducible apply Logs.vmap | with_reducible apply Hub.raise_ok | with_reducible apply Log.boxRecord_ok | (intro) | split) | dsimp only)
theorem execLaneDelayMeasure_logs {h : HubId} {d : Option DieId} {roundTrip : ℕ} {s : State} {z} (h : execLaneDelayMeasure h d roundTrip s = .next z) (h0 : LogsOk s.hubs) : LogsOk z.hubs := by
  cases h; (try unfold execLaneDelayMeasure)
  (try dsimp only)
  repeat' (first | (first | assumption | with_reducible apply State.modLane_logs | split) | dsimp only)
theorem execPromotionBegin_logs {id : ℕ} {s : State} {z : State} (h : execPromotionBegin id s = .next z) (h0 : LogsOk s.hubs) : LogsOk z.hubs := by
  cases h; dsimp only
  repeat' (first | assumption | with_reducible apply State.modDie_logs | with_reducible apply State.commit_logs | with_reducible apply State.modLane_logs | with_reducible apply State.hold_logs | split)
theorem State.takePromo_logs (s : State) (h : HubId) (d : DieId) (id n : ℕ) (h0 : LogsOk s.hubs) : LogsOk (State.takePromo s h d id n).hubs := by
  unfold State.takePromo
  repeat' (first | assumption | with_reducible apply State.enqueue_logs | with_reducible apply State.modCoreOf_logs | with_reducible apply State.modDie_logs | with_reducible apply foldl_logs | with_reducible apply Logs.map | with_reducible apply Logs.vmap | (intro) | split | dsimp only)
theorem execPromotionFrameReceive_logs {hh : HubId} {d : DieId} {s : State} {z} (h : execPromotionFrameReceive hh d s = .next z) (h0 : LogsOk s.hubs) : LogsOk z.hubs := by
  cases h; (try unfold execPromotionFrameReceive)
  (try dsimp only)
  repeat' (first | (first | assumption | with_reducible apply State.commit_logs | with_reducible apply State.sendDown_logs | with_reducible apply State.takePromo_logs | with_reducible apply foldl_logs | with_reducible apply Logs.map | with_reducible apply Logs.vmap | with_reducible apply Hub.raise_ok | with_reducible apply Log.boxRecord_ok | (intro) | split) | dsimp only)
theorem State.takeUp_logs (s : State) (hh : HubId) (d : DieId) (x : LaneItem) (h0 : LogsOk s.hubs) : LogsOk (State.takeUp s hh d x).hubs := by
  unfold State.takeUp
  repeat' (first | assumption | with_reducible apply State.modLane_logs | with_reducible apply State.modCoreOf_logs | with_reducible apply State.hold_logs | split)
theorem State.strayUp_logs (s : State) (hh : HubId) (d : DieId) (x : LaneItem) (h0 : LogsOk s.hubs) : LogsOk (State.strayUp s hh d x).hubs := by
  unfold State.strayUp
  repeat' (first | (first | assumption | with_reducible apply State.modLane_logs | with_reducible apply State.modDie_logs | with_reducible apply foldl_logs | with_reducible apply Logs.map | with_reducible apply Logs.vmap | with_reducible apply Hub.raise_ok | with_reducible apply Log.boxRecord_ok | (intro) | split) | dsimp only)
theorem State.sendUp_logs (s : State) (hh : HubId) (d : DieId) (x : LaneItem) (f : State → State) (h0 : LogsOk s.hubs) (fk : ∀ y0, LogsOk y0.hubs → LogsOk (f y0).hubs) : LogsOk (State.sendUp s hh d x f).hubs := by
  unfold State.sendUp
  repeat' (first | (first | assumption | with_reducible apply State.commit_logs | with_reducible apply State.takeUp_logs | with_reducible apply State.strayUp_logs | with_reducible apply foldl_logs | with_reducible apply Logs.map | with_reducible apply Logs.vmap | with_reducible apply Hub.raise_ok | with_reducible apply Log.boxRecord_ok | (with_reducible apply fk) | (intro) | split) | dsimp only)
theorem execResultFrameReceive_logs {d : DieId} {s : State} {z} (h : execResultFrameReceive d s = .next z) (h0 : LogsOk s.hubs) : LogsOk z.hubs := by
  cases h; (try unfold execResultFrameReceive)
  (try dsimp only)
  repeat' (first | (first | assumption | with_reducible apply State.sendUp_logs | with_reducible apply State.modCoreOf_logs | with_reducible apply foldl_logs | with_reducible apply Logs.map | with_reducible apply Logs.vmap | with_reducible apply Hub.raise_ok | with_reducible apply Log.boxRecord_ok | (intro) | split) | dsimp only)
theorem execCaptureFrameReceive_logs {d : DieId} {s : State} {z} (h : execCaptureFrameReceive d s = .next z) (h0 : LogsOk s.hubs) : LogsOk z.hubs := by
  cases h; (try unfold execCaptureFrameReceive)
  (try dsimp only)
  repeat' (first | (first | assumption | with_reducible apply State.sendUp_logs | with_reducible apply State.modCoreOf_logs | with_reducible apply foldl_logs | with_reducible apply Logs.map | with_reducible apply Logs.vmap | with_reducible apply Hub.raise_ok | with_reducible apply Log.boxRecord_ok | (intro) | split) | dsimp only)
theorem execAngleTagFrameReceive_logs {d : DieId} {s : State} {z} (h : execAngleTagFrameReceive d s = .next z) (h0 : LogsOk s.hubs) : LogsOk z.hubs := by
  cases h; (try unfold execAngleTagFrameReceive)
  (try dsimp only)
  repeat' (first | (first | assumption | with_reducible apply State.sendUp_logs | with_reducible apply State.modCoreOf_logs | with_reducible apply foldl_logs | with_reducible apply Logs.map | with_reducible apply Logs.vmap | with_reducible apply Hub.raise_ok | with_reducible apply Log.boxRecord_ok | (intro) | split) | dsimp only)
theorem execEventFrameReceive_logs {d : DieId} {s : State} {z} (h : execEventFrameReceive d s = .next z) (h0 : LogsOk s.hubs) : LogsOk z.hubs := by
  cases h; (try unfold execEventFrameReceive)
  (try dsimp only)
  repeat' (first | (first | assumption | with_reducible apply State.sendUp_logs | with_reducible apply State.modHub_logs | with_reducible apply Hub.take_ok | with_reducible apply State.syncShadow_logs | with_reducible apply foldl_logs | with_reducible apply Logs.map | with_reducible apply Logs.vmap | with_reducible apply Hub.raise_ok | with_reducible apply Log.boxRecord_ok | (intro) | split) | dsimp only)
theorem execFrameConsume_logs {l : Link} {dir : Dir} {s : State} {z : State} (h : execFrameConsume l dir s = .next z) (h0 : LogsOk s.hubs) : LogsOk z.hubs := by
  cases h; dsimp only
  repeat' (first | assumption | with_reducible apply State.modLane_logs | split)
theorem State.loseUp_logs (s : State) (hh : HubId) (d : DieId) (h0 : LogsOk s.hubs) : LogsOk (State.loseUp s hh d).hubs := by
  unfold State.loseUp
  repeat' (first | (first | assumption | with_reducible apply State.modLane_logs | with_reducible apply State.modDie_logs | with_reducible apply foldl_logs | with_reducible apply Logs.map | with_reducible apply Logs.vmap | with_reducible apply Hub.raise_ok | with_reducible apply Log.boxRecord_ok | (intro) | split) | dsimp only)
theorem State.loseFrame_logs (s : State) (l : Link) (dir : Dir) (h0 : LogsOk s.hubs) : LogsOk (State.loseFrame s l dir).hubs := by
  unfold State.loseFrame
  repeat' (first | assumption | with_reducible apply Hub.modLane_ok | with_reducible apply State.loseUp_logs | with_reducible apply State.modLane_logs | with_reducible apply foldl_logs | with_reducible apply Logs.map | with_reducible apply Logs.vmap | (intro) | split | dsimp only)
theorem State.countFail_logs (s : State) (l : Link) (dir : Dir) (b : Bool) (h0 : LogsOk s.hubs) : LogsOk (State.countFail s l dir b).hubs := by
  unfold State.countFail
  repeat' (first | assumption | with_reducible apply Hub.modLane_ok | with_reducible apply State.countStr_logs | with_reducible apply State.modLane_logs | with_reducible apply foldl_logs | with_reducible apply Logs.map | with_reducible apply Logs.vmap | (intro) | split | dsimp only)
theorem execFrameCrcFail_logs {l : Link} {dir : Dir} {buffered : Bool} {s : State} {z : State} (h : execFrameCrcFail l dir buffered s = .next z) (h0 : LogsOk s.hubs) : LogsOk z.hubs := by
  cases h; (try dsimp only)
  repeat' (first | assumption | with_reducible apply State.countFail_logs | with_reducible apply State.loseFrame_logs | with_reducible apply State.modLink_logs | with_reducible apply foldl_logs | with_reducible apply Logs.map | with_reducible apply Logs.vmap | (intro) | split | dsimp only)
theorem State.replayOn_logs (s : State) (l : Link) (dir : Dir) (seq : ℕ) (h0 : LogsOk s.hubs) : LogsOk (State.replayOn s l dir seq).hubs := by
  unfold State.replayOn
  repeat' (first | (first | assumption | with_reducible apply State.modLink_logs | with_reducible apply State.frameDown_logs | with_reducible apply State.gotStr_logs | with_reducible apply foldl_logs | with_reducible apply Logs.map | with_reducible apply Logs.vmap | with_reducible apply Hub.raise_ok | with_reducible apply Log.boxRecord_ok | (intro) | split) | dsimp only)
theorem execReplayRequestReceive_logs {l : Link} {dir : Dir} {seq : Fin 16} {s : State} {z} (h : execReplayRequestReceive l dir seq s = .next z) (h0 : LogsOk s.hubs) : LogsOk z.hubs := by
  cases h; (try unfold execReplayRequestReceive)
  (try dsimp only)
  repeat' (first | (first | assumption | with_reducible apply State.replayOn_logs | with_reducible apply foldl_logs | with_reducible apply Logs.map | with_reducible apply Logs.vmap | with_reducible apply Hub.raise_ok | with_reducible apply Log.boxRecord_ok | (intro) | split) | dsimp only)
theorem execLaneCrcRun_logs {hh : HubId} {d : Option DieId} {s : State} {z : State} (h : execLaneCrcRun hh d s = .next z) (h0 : LogsOk s.hubs) : LogsOk z.hubs := by
  cases h; (try dsimp only)
  repeat' (first | assumption | with_reducible apply Hub.modLane_ok | with_reducible apply State.countStr_logs | with_reducible apply State.modDie_logs | with_reducible apply State.modLane_logs | with_reducible apply State.modLink_logs | with_reducible apply foldl_logs | with_reducible apply Logs.map | with_reducible apply Logs.vmap | (intro) | split | dsimp only)
theorem execTrainingComplete_logs {l : Link} {version occDown occUp : ℕ} {s : State} {z} (h : execTrainingComplete l version occDown occUp s = .next z) (h0 : LogsOk s.hubs) : LogsOk z.hubs := by
  cases h; dsimp only
  repeat' (first | assumption | with_reducible apply State.modHub_logs | with_reducible apply State.modDie_logs | with_reducible apply State.modLane_logs | split | intro)
theorem execLaneFailed_logs {h : HubId} {d : DieId} {s : State} {z : State} (h : execLaneFailed h d s = .next z) (h0 : LogsOk s.hubs) : LogsOk z.hubs := by
  cases h; dsimp only
  repeat' (first | assumption | with_reducible apply State.modHub_logs | with_reducible apply State.commit_logs | with_reducible apply State.modLane_logs | with_reducible apply State.startSwitchover_logs | (with_reducible apply Hub.raise_ok) | split | intro)
theorem execLaneTrainingRetry_logs {hh : HubId} {d : Option DieId} {s : State} {z : State} (h : execLaneTrainingRetry hh d s = .next z) (h0 : LogsOk s.hubs) : LogsOk z.hubs := by
  cases h; (try dsimp only)
  repeat' (first | assumption | with_reducible apply Hub.modLane_ok | with_reducible apply State.modLane_logs | with_reducible apply State.modLink_logs | with_reducible apply foldl_logs | with_reducible apply Logs.map | with_reducible apply Logs.vmap | (intro) | split | dsimp only)
theorem execIdleFrameReceive_logs {hh : HubId} {d : Option DieId} {s : State} {z : State} (h : execIdleFrameReceive hh d s = .next z) (h0 : LogsOk s.hubs) : LogsOk z.hubs := by
  cases h; (try dsimp only)
  repeat' (first | assumption | with_reducible apply Hub.modLane_ok | with_reducible apply State.gotStr_logs | with_reducible apply State.modLane_logs | with_reducible apply foldl_logs | with_reducible apply Logs.map | with_reducible apply Logs.vmap | (intro) | split | dsimp only)
theorem execRenewSend_logs {h : HubId} {s : State} {z : State} (h : execRenewSend h s = .next z) (h0 : LogsOk s.hubs) : LogsOk z.hubs := by
  cases h; (try unfold execRenewSend)
  (try dsimp only)
  repeat' (first | (first | assumption | with_reducible apply State.modHub_logs | split | intro) | dsimp only)
theorem State.sendLease_logs (s : State) (hh : HubId) (d : DieId) (m : LeaseMsg) (f : State → State) (h0 : LogsOk s.hubs) (fk : ∀ y0, LogsOk y0.hubs → LogsOk (f y0).hubs) : LogsOk (State.sendLease s hh d m f).hubs := by
  unfold State.sendLease
  repeat' (first | assumption | with_reducible apply State.sendDown_logs | with_reducible apply foldl_logs | with_reducible apply Logs.map | with_reducible apply Logs.vmap | with_reducible apply fk | (intro) | split | dsimp only)
theorem execRenewReceive_logs {hh : HubId} {d : DieId} {s : State} {z} (h : execRenewReceive hh d s = .next z) (h0 : LogsOk s.hubs) : LogsOk z.hubs := by
  cases h; (try unfold execRenewReceive)
  (try dsimp only)
  repeat' (first | (first | assumption | with_reducible apply State.sendLease_logs | with_reducible apply State.modDie_logs | with_reducible apply foldl_logs | with_reducible apply Logs.map | with_reducible apply Logs.vmap | with_reducible apply Hub.raise_ok | with_reducible apply Log.boxRecord_ok | (intro) | split) | dsimp only)
theorem execClaimSend_logs {h : HubId} {s : State} {z : State} (h : execClaimSend h s = .next z) (h0 : LogsOk s.hubs) : LogsOk z.hubs := by
  cases h; dsimp only
  repeat' (first | assumption | with_reducible apply State.modHub_logs | with_reducible apply State.commit_logs | with_reducible apply State.takeoverComplete_logs | split | intro)
theorem State.takeClaim_logs (s : State) (hh : HubId) (d : DieId) (resume : ℕ) (h0 : LogsOk s.hubs) : LogsOk (State.takeClaim s hh d resume).hubs := by
  unfold State.takeClaim
  repeat' (first | (first | assumption | with_reducible apply State.modLane_logs | with_reducible apply State.modDie_logs | with_reducible apply State.modHub_logs | with_reducible apply foldl_logs | with_reducible apply Logs.map | with_reducible apply Logs.vmap | with_reducible apply Hub.raise_ok | with_reducible apply Log.boxRecord_ok | (intro) | split) | dsimp only)
theorem execClaimReceive_logs {hh : HubId} {d : DieId} {s : State} {z} (h : execClaimReceive hh d s = .next z) (h0 : LogsOk s.hubs) : LogsOk z.hubs := by
  cases h; (try unfold execClaimReceive)
  (try dsimp only)
  repeat' (first | (first | assumption | with_reducible apply State.sendLease_logs | with_reducible apply State.takeClaim_logs | with_reducible apply foldl_logs | with_reducible apply Logs.map | with_reducible apply Logs.vmap | with_reducible apply Hub.raise_ok | with_reducible apply Log.boxRecord_ok | (intro) | split) | dsimp only)
theorem execReleaseReceive_logs {hh : HubId} {d : DieId} {s : State} {z} (h : execReleaseReceive hh d s = .next z) (h0 : LogsOk s.hubs) : LogsOk z.hubs := by
  cases h; (try unfold execReleaseReceive)
  (try dsimp only)
  repeat' (first | (first | assumption | with_reducible apply State.sendLease_logs | with_reducible apply State.modDie_logs | with_reducible apply foldl_logs | with_reducible apply Logs.map | with_reducible apply Logs.vmap | with_reducible apply Hub.raise_ok | with_reducible apply Log.boxRecord_ok | (intro) | split) | dsimp only)
theorem State.resumePromotion_logs (s : State) (h : HubId) (d : DieId) (cnt : ℕ) (h0 : LogsOk s.hubs) : LogsOk (State.resumePromotion s h d cnt).hubs := by
  unfold State.resumePromotion
  repeat' (first | assumption | with_reducible apply State.modDie_logs | with_reducible apply State.modLane_logs | with_reducible apply State.modCoreOf_logs)
theorem State.takeGrant_logs (s : State) (hh : HubId) (d : DieId) (cnt : ℕ) (h0 : LogsOk s.hubs) : LogsOk (State.takeGrant s hh d cnt).hubs := by
  unfold State.takeGrant
  repeat' (first | (first | assumption | with_reducible apply State.modLane_logs | with_reducible apply State.takeoverComplete_logs | with_reducible apply State.resumePromotion_logs | with_reducible apply foldl_logs | with_reducible apply Logs.map | with_reducible apply Logs.vmap | with_reducible apply Hub.raise_ok | with_reducible apply Log.boxRecord_ok | (intro) | split) | dsimp only)
theorem execGrantReceive_logs {hh : HubId} {d : DieId} {s : State} {z} (h : execGrantReceive hh d s = .next z) (h0 : LogsOk s.hubs) : LogsOk z.hubs := by
  cases h; (try unfold execGrantReceive)
  (try dsimp only)
  repeat' (first | (first | assumption | with_reducible apply State.sendUp_logs | with_reducible apply State.takeGrant_logs | with_reducible apply foldl_logs | with_reducible apply Logs.map | with_reducible apply Logs.vmap | with_reducible apply Hub.raise_ok | with_reducible apply Log.boxRecord_ok | (intro) | split) | dsimp only)
theorem execLeaseExpiry_logs {d : DieId} {s : State} {z : State} (h : execLeaseExpiry d s = .next z) (h0 : LogsOk s.hubs) : LogsOk z.hubs := by
  cases h; exact h0
theorem execHeartbeatSend_logs {h : HubId} {s : State} {z : State} (h : execHeartbeatSend h s = .next z) (h0 : LogsOk s.hubs) : LogsOk z.hubs := by
  cases h; dsimp only
  repeat' (first | assumption | with_reducible apply State.modHub_logs | split | intro)
theorem execHeartbeatReceive_logs {h : HubId} {s : State} {z : State} (h : execHeartbeatReceive h s = .next z) (h0 : LogsOk s.hubs) : LogsOk z.hubs := by
  cases h; dsimp only
  repeat' (first | assumption | with_reducible apply State.modHub_logs | split | intro)
theorem execHeartbeatMissed_logs {h : HubId} {s : State} {z : State} (h : execHeartbeatMissed h s = .next z) (h0 : LogsOk s.hubs) : LogsOk z.hubs := by
  cases h; (try unfold execHeartbeatMissed)
  (try dsimp only)
  repeat' (first | (first | assumption | with_reducible apply State.modHub_logs | split | intro) | dsimp only)
theorem execLossOfActiveHub_logs {s : State} {z : State} (h : execLossOfActiveHub s = .next z) (h0 : LogsOk s.hubs) : LogsOk z.hubs := by
  cases h; dsimp only
  repeat' (first | assumption | with_reducible apply State.modHub_logs | with_reducible apply State.stopMirror_logs | split | intro)
theorem execTakeoverClaimTimeout_logs {s : State} {z : State} (h : execTakeoverClaimTimeout s = .next z) (h0 : LogsOk s.hubs) : LogsOk z.hubs := by
  cases h; (try dsimp only)
  repeat' (first | assumption | with_reducible apply Hub.raise_ok | with_reducible apply State.modHub_logs | with_reducible apply State.raise_logs | with_reducible apply State.stopMirror_logs | with_reducible apply foldl_logs | with_reducible apply Logs.map | with_reducible apply Logs.vmap | (intro) | split | dsimp only)
theorem execActiveHubStop_logs {s : State} {z : State} (h : execActiveHubStop s = .next z) (h0 : LogsOk s.hubs) : LogsOk z.hubs := by
  cases h; (try dsimp only)
  repeat' (first | assumption | with_reducible apply State.modHub_logs | with_reducible apply State.stopPorts_logs | with_reducible apply foldl_logs | with_reducible apply Logs.map | with_reducible apply Logs.vmap | (intro) | split | dsimp only)
theorem execMirrorFrameReceive_logs  {s : State} {z : State} (h : execMirrorFrameReceive s = .next z) (h0 : LogsOk s.hubs) : LogsOk z.hubs := by
  cases h; (try dsimp only)
  repeat' (first | assumption | with_reducible apply State.sendStr_logs | with_reducible apply foldl_logs | with_reducible apply Logs.map | with_reducible apply Logs.vmap | (intro) | split | dsimp only)
theorem execMirrorCommitReceive_logs {s : State} {z} (h : execMirrorCommitReceive s = .next z) (h0 : LogsOk s.hubs) : LogsOk z.hubs := by
  cases h; (try unfold execMirrorCommitReceive)
  (try dsimp only)
  repeat' (first | (first | assumption | with_reducible apply State.sendStr_logs | with_reducible apply State.applyUnit_logs | with_reducible apply foldl_logs | with_reducible apply Logs.map | with_reducible apply Logs.vmap | with_reducible apply Hub.raise_ok | with_reducible apply Log.boxRecord_ok | (intro) | split) | dsimp only)
theorem execMirrorCommitAck_logs {s : State} {z : State} (h : execMirrorCommitAck s = .next z) (h0 : LogsOk s.hubs) : LogsOk z.hubs := by
  cases h; (try unfold execMirrorCommitAck)
  (try dsimp only)
  repeat' (first | (first | assumption | with_reducible apply State.commit_logs | with_reducible apply State.releaseTo_logs | split) | dsimp only)
theorem execRoleLeaseReceive_logs {hh : HubId} {r : Role} {granted : Bool} {s : State} {z} (h : execRoleLeaseReceive hh r granted s = .next z) (h0 : LogsOk s.hubs) : LogsOk z.hubs := by
  cases h; (try unfold execRoleLeaseReceive)
  (try dsimp only)
  repeat' (first | (first | assumption | with_reducible apply State.sendStr_logs | with_reducible apply State.modHub_logs | with_reducible apply Hub.setRole_ok | with_reducible apply foldl_logs | with_reducible apply Logs.map | with_reducible apply Logs.vmap | with_reducible apply Hub.raise_ok | with_reducible apply Log.boxRecord_ok | (intro) | split) | dsimp only)
theorem execRoleLeaseExpiry_logs {h : HubId} {r : Role} {s : State} {z : State} (h : execRoleLeaseExpiry h r s = .next z) (h0 : LogsOk s.hubs) : LogsOk z.hubs := by
  cases h; (try unfold execRoleLeaseExpiry)
  (try dsimp only)
  repeat' (first | (first | assumption | with_reducible apply State.modHub_logs | with_reducible apply Hub.setRole_ok | split | intro) | dsimp only)
theorem execStringFault_logs {s : State} {z : State} (h : execStringFault s = .next z) (h0 : LogsOk s.hubs) : LogsOk z.hubs := by
  cases h; dsimp only
  repeat' (first | assumption | with_reducible apply State.modHub_logs | with_reducible apply State.commit_logs | with_reducible apply State.raise_logs | with_reducible apply State.stopMirror_logs | split | intro)
theorem State.lostBanks_logs (s : State) (hh : HubId) (n : NvStore) (h0 : LogsOk s.hubs) : LogsOk (State.lostBanks s hh n).hubs := by
  unfold State.lostBanks
  repeat' (first | (first | assumption | with_reducible apply State.raise_logs | split) | dsimp only)
theorem State.syncAnew_logs (s : State) (h0 : LogsOk s.hubs) : LogsOk (State.syncAnew s).hubs := by
  unfold State.syncAnew
  repeat' (first | assumption | with_reducible apply Log.reset_ok | with_reducible apply State.noteUsable_logs | with_reducible apply foldl_logs | with_reducible apply Logs.map | with_reducible apply Logs.vmap | (intro) | split | dsimp only)
theorem State.resetString_logs (s : State) (h0 : LogsOk s.hubs) : LogsOk (State.resetString s).hubs := by
  exact h0
theorem State.copyHdr_logs (s : State) (r : Fin 12) (h0 : LogsOk s.hubs) : LogsOk (State.copyHdr s r).hubs :=
  State.setFreeze_logs _ _ _ (State.modHdr_logs _ _ _ h0)
theorem State.copyHdrs_logs (s : State) (h0 : LogsOk s.hubs) : LogsOk (State.copyHdrs s).hubs :=
  foldl_logs h0 fun _ _ h => State.copyHdr_logs _ _ h
theorem State.restartHub_logs (s : State) (h : HubId) (h0 : LogsOk s.hubs) : LogsOk (State.restartHub s h).hubs := by
  unfold State.restartHub
  repeat' (first | assumption | with_reducible apply State.resetString_logs | with_reducible apply Hub.boot_ok | with_reducible apply Hub.restart_ok | with_reducible apply Log.reset_ok | with_reducible apply Log.restart_ok | with_reducible apply State.dropMirror_logs | with_reducible apply State.lostBanks_logs | with_reducible apply State.modHub_logs | with_reducible apply State.stopMirror_logs | with_reducible apply State.stopPorts_logs | with_reducible apply State.syncAnew_logs | with_reducible apply foldl_logs | with_reducible apply Logs.map | with_reducible apply Logs.vmap | (intro) | split | dsimp only)
theorem execHubSelfCheckFail_logs {h : HubId} {s : State} {z : State} (h : execHubSelfCheckFail h s = .next z) (h0 : LogsOk s.hubs) : LogsOk z.hubs := by
  cases h; (try unfold execHubSelfCheckFail)
  (try dsimp only)
  repeat' (first | (first | assumption | with_reducible apply State.commit_logs | with_reducible apply State.hubFault_logs | with_reducible apply State.raiseFault_logs | split) | dsimp only)
theorem execPoolCheck_logs {d : DieId} {s : State} {z} (h : execPoolCheck d s = .next z) (h0 : LogsOk s.hubs) : LogsOk z.hubs := by
  cases h; (try unfold execPoolCheck)
  (try dsimp only)
  repeat' (first | (first | assumption | with_reducible apply State.commit_logs | with_reducible apply State.poolMismatch_logs | with_reducible apply foldl_logs | with_reducible apply Logs.map | with_reducible apply Logs.vmap | with_reducible apply Hub.raise_ok | with_reducible apply Log.boxRecord_ok | (intro) | split) | dsimp only)
theorem execPoolAuditSnapshot_logs {s : State} {z} (h : execPoolAuditSnapshot s = .next z) (h0 : LogsOk s.hubs) : LogsOk z.hubs := by
  cases h; dsimp only
  repeat' (first | assumption | with_reducible apply State.commit_logs | with_reducible apply State.raiseSrc_logs | with_reducible apply State.poolMismatch_logs | split)
theorem execLogWrite_logs {i : HubId} {s : State} {z : State} (h : execLogWrite i s = .next z) (h0 : LogsOk s.hubs) : LogsOk z.hubs := by
  cases h; dsimp only
  split
  · next r rest e =>
    split
    · have o := h0.ok i
      have q : ({ (s.hub i).log with staged := rest } : Log).Ok := by
        refine ⟨o.1, ?_⟩
        have := o.2
        rw [show (s.hubs[i.val]).log.staged = r :: rest from e] at this
        simp only [List.length_cons] at this
        dsimp only; omega
      split
      · refine State.commit_logs (State.modCore_logs (State.modHub_logs h0 fun x _ => ?_))
        exact Log.writeSummaries_ok (Log.write_ok q)
      · refine State.modHub_logs h0 fun x _ => ?_
        exact Log.writeSummaries_ok (Log.write_ok q)
    · exact h0
  · exact h0
theorem execBlackBoxCopy_logs {h : HubId} {s : State} {z : State} (h : execBlackBoxCopy h s = .next z) (h0 : LogsOk s.hubs) : LogsOk z.hubs := by
  cases h; (try unfold execBlackBoxCopy)
  (try dsimp only)
  repeat' (first | (first | assumption | with_reducible apply State.modHub_logs | with_reducible apply Log.copyNow_ok | split | intro) | dsimp only)
theorem State.spiEvents_logs (s : State) (h0 : LogsOk s.hubs) : LogsOk (State.spiEvents s).hubs := by
  unfold State.spiEvents
  repeat' (first | (first | assumption | split) | dsimp only)
theorem execEventDatagramSend_logs {w : Who} {s : State} {z : State} (h : execEventDatagramSend w s = .next z) (h0 : LogsOk s.hubs) : LogsOk z.hubs := by
  cases h; (try unfold execEventDatagramSend)
  (try dsimp only)
  repeat' (first | (first | assumption | with_reducible apply State.commit_logs | with_reducible apply State.spiEvents_logs | split) | dsimp only)
theorem State.correct_logs (s : State) (offset : ℤ) (h0 : LogsOk s.hubs) : LogsOk (State.correct s offset).hubs := by
  unfold State.correct
  repeat' (first | assumption | split)
theorem State.servo_logs (s : State) (offset : ℤ) (h0 : LogsOk s.hubs) : LogsOk (State.servo s offset).hubs := by
  exact h0
theorem State.measure_logs (s : State) (offset : ℤ) (h0 : LogsOk s.hubs) : LogsOk (State.measure s offset).hubs := by
  unfold State.measure
  repeat' (first | (first | assumption | with_reducible apply State.enterSync_logs | with_reducible apply State.correct_logs | split) | dsimp only)
theorem execSyncReceive_logs {p : PortId} {media : PtpMedia} {m : SyncMsg} {s : State} {z} (h : execSyncReceive p media m s = .next z) (h0 : LogsOk s.hubs) : LogsOk z.hubs := by
  cases h; dsimp only
  repeat' (first | assumption | with_reducible apply State.commit_logs | with_reducible apply State.measure_logs | split)
theorem execAnnounceReceive_logs {p : PortId} {x1 : Announce} {s : State} {z : State} (h : execAnnounceReceive p x1 s = .next z) (h0 : LogsOk s.hubs) : LogsOk z.hubs := by
  cases h; dsimp only
  repeat' (first | assumption | with_reducible apply State.commit_logs | with_reducible apply State.modPtp_logs | with_reducible apply State.noteMix_logs | with_reducible apply State.bmca_logs | split)
theorem execSyncReceiptTimeout_logs {p : PortId} {s : State} {z : State} (h : execSyncReceiptTimeout p s = .next z) (h0 : LogsOk s.hubs) : LogsOk z.hubs := by
  cases h; (try unfold execSyncReceiptTimeout)
  (try dsimp only)
  repeat' (first | (first | assumption | with_reducible apply State.commit_logs | with_reducible apply State.loseAnnounce_logs | split) | dsimp only)
theorem execAnnounceReceiptTimeout_logs {p : PortId} {s : State} {z : State} (h : execAnnounceReceiptTimeout p s = .next z) (h0 : LogsOk s.hubs) : LogsOk z.hubs := by
  cases h; (try unfold execAnnounceReceiptTimeout)
  (try dsimp only)
  repeat' (first | (first | assumption | with_reducible apply State.commit_logs | with_reducible apply State.loseAnnounce_logs | split) | dsimp only)
theorem execHoldoverLimit_logs {s : State} {z : State} (h : execHoldoverLimit s = .next z) (h0 : LogsOk s.hubs) : LogsOk z.hubs := by
  cases h; (try unfold execHoldoverLimit)
  (try dsimp only)
  repeat' (first | (first | assumption | with_reducible apply State.commit_logs | with_reducible apply State.enterSync_logs | split) | dsimp only)
theorem execTxTimestampMissing_logs {p : PortId} {s : State} {z : State} (h : execTxTimestampMissing p s = .next z) (h0 : LogsOk s.hubs) : LogsOk z.hubs := by
  cases h; (try unfold execTxTimestampMissing)
  (try dsimp only)
  repeat' (first | (first | assumption | with_reducible apply State.commit_logs | with_reducible apply State.bmca_logs | split) | dsimp only)
theorem execFaultyEnd_logs {p : PortId} {s : State} {z} (h : execFaultyEnd p s = .next z) (h0 : LogsOk s.hubs) : LogsOk z.hubs := by
  cases h; (try unfold execFaultyEnd)
  (try dsimp only)
  repeat' (first | (first | assumption | with_reducible apply State.commit_logs | with_reducible apply State.ptpRestart_logs | split) | dsimp only)
theorem State.stepTime_logs (s : State) (ts : Tick) (delta : ℤ) (h0 : LogsOk s.hubs) : LogsOk (State.stepTime s ts delta).hubs := by
  unfold State.stepTime
  repeat' (first | (first | assumption | with_reducible apply State.raise_logs | with_reducible apply State.modCore_logs | with_reducible apply State.outcomes_logs | with_reducible apply State.decimate_logs | with_reducible apply State.settlePools_logs | with_reducible apply foldl_logs | with_reducible apply Logs.map | with_reducible apply Logs.vmap | with_reducible apply Hub.raise_ok | with_reducible apply Log.boxRecord_ok | (intro) | split) | dsimp only)
theorem execTimeStep_logs {s : State} {z : State} (h : execTimeStep s = .next z) (h0 : LogsOk s.hubs) : LogsOk z.hubs := by
  cases h; (try unfold execTimeStep)
  (try dsimp only)
  repeat' (first | (first | assumption | with_reducible apply State.commit_logs | with_reducible apply State.stepTime_logs | split) | dsimp only)
theorem State.addReset_logs (s : State) (tr : Tick) (src : ℕ) (h0 : LogsOk s.hubs) : LogsOk (State.addReset s tr src).hubs := by
  exact h0
theorem execSyncInEdge_logs {lowFor : ℕ} {highFor : ℕ} {s : State} {z : State} (h : execSyncInEdge lowFor highFor s = .next z) (h0 : LogsOk s.hubs) : LogsOk z.hubs := by
  cases h; (try unfold execSyncInEdge)
  (try dsimp only)
  repeat' (first | (first | assumption | with_reducible apply State.commit_logs | with_reducible apply State.addReset_logs | with_reducible apply State.raiseNow_logs | split) | dsimp only)
theorem execTimeStatusRead_logs {r : Req} {s : State} {z : State} (h : execTimeStatusRead r s = .next z) (h0 : LogsOk s.hubs) : LogsOk z.hubs := by
  cases h; (try unfold execTimeStatusRead)
  (try dsimp only)
  repeat' (first | (first | assumption | with_reducible apply State.command_logs | intro) | dsimp only)
theorem execTimeStatusLoad_logs {r : Req} {t : Dword} {s : State} {z : State} (h : execTimeStatusLoad r t s = .next z) (h0 : LogsOk s.hubs) : LogsOk z.hubs := by
  cases h; dsimp only
  repeat' (first | assumption | with_reducible apply State.command_logs | split | intro)
theorem execTimeStatusWriteAccept_logs {r : Req} {v : Byte} {s : State} {z : State} (h : execTimeStatusWriteAccept r v s = .next z) (h0 : LogsOk s.hubs) : LogsOk z.hubs := by
  cases h; dsimp only
  repeat' (first | assumption | with_reducible apply State.command_logs | with_reducible apply State.writeAccept_logs | split | intro)
theorem State.offWrite_logs (s : State) (h0 : LogsOk s.hubs) : LogsOk (State.offWrite s).hubs := by
  unfold State.offWrite
  repeat' (first | assumption | with_reducible apply State.modHub_logs | intro)
theorem State.access_logs (s : State) (p : Path) (pg : PageRef) (off : ℕ) (f : State → State) (h0 : LogsOk s.hubs) (fk : ∀ y0, LogsOk y0.hubs → LogsOk (f y0).hubs) : LogsOk (State.access s p pg off f).hubs := by
  unfold State.access
  repeat' (first | (first | assumption | with_reducible apply State.offWrite_logs | with_reducible apply State.rejectAt_logs | with_reducible apply State.unheard_logs | with_reducible apply foldl_logs | with_reducible apply Logs.map | with_reducible apply Logs.vmap | with_reducible apply Hub.raise_ok | with_reducible apply Log.boxRecord_ok | (with_reducible apply fk) | (intro) | split) | dsimp only)
theorem State.accessed_logs (s : State) (p : Path) (pg : PageRef) (off : ℕ) (f : State → State) (hf : ∀ x, LogsOk x.hubs → LogsOk (f x).hubs) (h0 : LogsOk s.hubs) : LogsOk (State.accessed s p pg off f).hubs := by
  unfold State.accessed
  repeat' (first | assumption | with_reducible apply State.access_logs | with_reducible apply State.commit_logs | with_reducible apply State.shadowUnit_logs | with_reducible apply foldl_logs | with_reducible apply Logs.map | with_reducible apply Logs.vmap | (intro) | split | dsimp only)
theorem State.hdrWrite_logs (s : State) (pg : PageRef) (off : ℕ) (w : Word) (h0 : LogsOk s.hubs) : LogsOk (State.hdrWrite s pg off w).hubs := by
  unfold State.hdrWrite
  repeat' (first | assumption | with_reducible apply State.writeHdr_logs | split)
theorem State.fieldSafe_logs (s : State) (h0 : LogsOk s.hubs) : LogsOk (State.fieldSafe s).hubs := by
  exact h0
theorem State.wdAction_logs (s : State) (code : ℕ) (h0 : LogsOk s.hubs) : LogsOk (State.wdAction s code).hubs := by
  unfold State.wdAction
  repeat' (first | assumption | with_reducible apply State.startSwitchover_logs | with_reducible apply State.restartHub_logs | split)
theorem State.wdViolate_logs (s : State) (v : Violation) (start : ℕ) (h0 : LogsOk s.hubs) : LogsOk (State.wdViolate s v start).hubs := by
  unfold State.wdViolate
  repeat' (first | assumption | with_reducible apply State.wdAction_logs | with_reducible apply State.raiseNow_logs)
theorem State.wdCatchUp_logs (s : State) (a : ℕ) (h0 : LogsOk s.hubs) : LogsOk (State.wdCatchUp s a).hubs := by
  unfold State.wdCatchUp
  repeat' (first | assumption | with_reducible apply State.wdViolate_logs | with_reducible apply foldl_logs | with_reducible apply Logs.map | with_reducible apply Logs.vmap | (intro) | split | dsimp only)
theorem execWatchdogLate_logs {s : State} {z : State} (h : execWatchdogLate s = .next z) (h0 : LogsOk s.hubs) : LogsOk z.hubs := by
  cases h; (try unfold execWatchdogLate)
  (try dsimp only)
  repeat' (first | (first | assumption | with_reducible apply State.commit_logs | with_reducible apply State.wdCatchUp_logs | split) | dsimp only)
theorem State.serveNow_logs (s : State) (v : Word) (a : ℕ) (h0 : LogsOk s.hubs) : LogsOk (State.serveNow s v a).1.hubs := by
  unfold State.serveNow
  repeat' (first | assumption | with_reducible apply State.wdViolate_logs | split | dsimp only)
theorem State.serveAt_logs (s : State) (v : Word) (a : ℕ) (h0 : LogsOk s.hubs) : LogsOk (State.serveAt s v a).1.hubs := by
  unfold State.serveAt
  repeat' (first | assumption | with_reducible apply State.wdCatchUp_logs | with_reducible apply State.serveNow_logs | split | dsimp only)
theorem State.serve_logs (s : State) (v : Word) (h0 : LogsOk s.hubs) : LogsOk (State.serve s v).1.hubs := State.serveAt_logs s v _ h0
theorem execServeKeyA_logs {p : Path} {h : HubId} {s : State} {z : State} (h : execServeKeyA p h s = .next z) (h0 : LogsOk s.hubs) : LogsOk z.hubs := by
  cases h; (try unfold execServeKeyA)
  (try dsimp only)
  repeat' (first | (first | assumption | with_reducible apply State.accessed_logs | with_reducible apply State.serve_logs | intro) | dsimp only)
theorem execServeKeyB_logs {p : Path} {h : HubId} {s : State} {z : State} (h : execServeKeyB p h s = .next z) (h0 : LogsOk s.hubs) : LogsOk z.hubs := by
  cases h; (try unfold execServeKeyB)
  (try dsimp only)
  repeat' (first | (first | assumption | with_reducible apply State.accessed_logs | with_reducible apply State.serve_logs | intro) | dsimp only)
theorem execServeOtherValue_logs {p : Path} {h : HubId} {v : Word} {s : State} {z : State} (h : execServeOtherValue p h v s = .next z) (h0 : LogsOk s.hubs) : LogsOk z.hubs := by
  cases h; (try unfold execServeOtherValue)
  (try dsimp only)
  repeat' (first | (first | assumption | with_reducible apply State.accessed_logs | with_reducible apply State.serve_logs | intro) | dsimp only)
theorem State.wdReject_logs (s : State) (h0 : LogsOk s.hubs) : LogsOk (State.wdReject s).hubs := by
  unfold State.wdReject
  repeat' (first | assumption | with_reducible apply State.raiseNow_logs)
theorem State.tsoldCtrl_logs (s : State) (w : Word) (h0 : LogsOk s.hubs) : LogsOk (State.tsoldCtrl s w).1.hubs := by
  unfold State.tsoldCtrl
  repeat' (first | (first | assumption | with_reducible apply State.modCore_logs | with_reducible apply State.wdCatchUp_logs | with_reducible apply State.wdReject_logs | split) | dsimp only)
theorem State.tsoldPeriod_logs (s : State) (w : Word) (h0 : LogsOk s.hubs) : LogsOk (State.tsoldPeriod s w).1.hubs := by
  unfold State.tsoldPeriod
  repeat' (first | (first | assumption | with_reducible apply State.modCore_logs | with_reducible apply State.wdCatchUp_logs | with_reducible apply State.wdReject_logs | split) | dsimp only)
theorem State.tsoldCtrlWrite_logs (s : State) (p : Path) (w : Word) (h0 : LogsOk s.hubs) : LogsOk (State.tsoldCtrlWrite s p w).hubs := by
  unfold State.tsoldCtrlWrite
  repeat' (first | assumption | with_reducible apply State.tsoldCtrl_logs | with_reducible apply State.rejectAt_logs | split)
theorem State.tsoldPeriodWrite_logs (s : State) (p : Path) (w : Word) (h0 : LogsOk s.hubs) : LogsOk (State.tsoldPeriodWrite s p w).hubs := by
  unfold State.tsoldPeriodWrite
  repeat' (first | assumption | with_reducible apply State.tsoldPeriod_logs | with_reducible apply State.rejectAt_logs | split)
theorem execTsoldEnSet_logs {p : Path} {h : HubId} {w : Word} {s : State} {z : State} (h : execTsoldEnSet p h w s = .next z) (h0 : LogsOk s.hubs) : LogsOk z.hubs := by
  cases h; (try unfold execTsoldEnSet)
  (try dsimp only)
  repeat' (first | (first | assumption | with_reducible apply State.accessed_logs | with_reducible apply State.tsoldCtrlWrite_logs | intro) | dsimp only)
theorem execTsoldActionWrite_logs {p : Path} {h : HubId} {w : Word} {s : State} {z : State} (h : execTsoldActionWrite p h w s = .next z) (h0 : LogsOk s.hubs) : LogsOk z.hubs := by
  cases h; (try unfold execTsoldActionWrite)
  (try dsimp only)
  repeat' (first | (first | assumption | with_reducible apply State.accessed_logs | with_reducible apply State.tsoldCtrlWrite_logs | intro) | dsimp only)
theorem execTsoldPeriodWrite_logs {p : Path} {h : HubId} {w : Word} {s : State} {z : State} (h : execTsoldPeriodWrite p h w s = .next z) (h0 : LogsOk s.hubs) : LogsOk z.hubs := by
  cases h; (try unfold execTsoldPeriodWrite)
  (try dsimp only)
  repeat' (first | (first | assumption | with_reducible apply State.accessed_logs | with_reducible apply State.tsoldPeriodWrite_logs | intro) | dsimp only)
theorem State.ifServing_logs (s : State) (x : Response) (h0 : LogsOk s.hubs) : LogsOk (State.ifServing s x).1.hubs := by
  exact h0
theorem execWatchdogConfigure_logs {r : Req} {period : Word} {ctrl : Word} {which : Byte} {s : State} {z : State} (h : execWatchdogConfigure r period ctrl which s = .next z) (h0 : LogsOk s.hubs) : LogsOk z.hubs := by
  cases h; dsimp only
  repeat' (first | assumption | with_reducible apply State.commandLater_logs | with_reducible apply State.tsoldPeriod_logs | with_reducible apply State.tsoldCtrl_logs | with_reducible apply State.ifServing_logs | split | intro)
theorem execWatchdogServe_logs {r : Req} {s : State} {z : State} (h : execWatchdogServe r s = .next z) (h0 : LogsOk s.hubs) : LogsOk z.hubs := by
  cases h; (try dsimp only)
  repeat' (first | assumption | with_reducible apply State.commandLater_logs | with_reducible apply State.ifServing_logs | with_reducible apply State.serveAt_logs | with_reducible apply State.serve_logs | with_reducible apply foldl_logs | with_reducible apply Logs.map | with_reducible apply Logs.vmap | (intro) | split | dsimp only)
theorem execIdleEntry_logs {h : HubId} {s : State} {z : State} (h : execIdleEntry h s = .next z) (h0 : LogsOk s.hubs) : LogsOk z.hubs := by
  cases h; (try unfold execIdleEntry)
  (try dsimp only)
  repeat' (first | (first | assumption | with_reducible apply State.modHub_logs | split | intro) | dsimp only)
theorem execIdleExit_logs {h : HubId} {s : State} {z : State} (h : execIdleExit h s = .next z) (h0 : LogsOk s.hubs) : LogsOk z.hubs := by
  cases h; (try unfold execIdleExit)
  (try dsimp only)
  repeat' (first | (first | assumption | with_reducible apply State.modHub_logs | intro) | dsimp only)
theorem State.answerPower_logs (s : State) (r : Option Req) (x : Response) (h0 : LogsOk s.hubs) : LogsOk (State.answerPower s r x).hubs := by
  unfold State.answerPower
  repeat' (first | assumption | with_reducible apply State.respond_logs | split)
theorem State.clearReq_logs (s : State) (h0 : LogsOk s.hubs) : LogsOk (State.clearReq s).hubs := by
  exact h0
theorem State.refusePower_logs (s : State) (r : PwrReq) (b : PwrBlock) (reason : ℕ) (h0 : LogsOk s.hubs) : LogsOk (State.refusePower s r b reason).hubs := by
  unfold State.refusePower
  repeat' (first | assumption | with_reducible apply State.modHdr_logs | with_reducible apply State.answerPower_logs)
theorem State.abortPower_logs (s : State) (r : PwrReq) (src : ℕ) (h0 : LogsOk s.hubs) : LogsOk (State.abortPower s r src).hubs := by
  unfold State.abortPower
  repeat' (first | assumption | with_reducible apply State.raiseNow_logs | with_reducible apply State.answerPower_logs | split)
theorem State.noteDown_logs (s : State) (step : ℕ) (cause : ℕ) (h0 : LogsOk s.hubs) : LogsOk (State.noteDown s step cause).hubs := by
  unfold State.noteDown
  repeat' (first | assumption | with_reducible apply Logs.vmap | with_reducible apply Log.boxRecord_ok | split | intro)
theorem State.beginDown_logs (s : State) (cause : ℕ) (h0 : LogsOk s.hubs) : LogsOk (State.beginDown s cause).hubs := by
  unfold State.beginDown
  repeat' (first | assumption | with_reducible apply State.noteDown_logs)
theorem State.grantPower_logs (s : State) (r : PwrReq) (h0 : LogsOk s.hubs) : LogsOk (State.grantPower s r).hubs := by
  unfold State.grantPower
  repeat' (first | assumption | with_reducible apply State.modDie_logs | with_reducible apply foldl_logs | with_reducible apply State.answerPower_logs | with_reducible apply State.beginDown_logs | with_reducible apply State.clearReq_logs | split | intro)
theorem State.askPower_logs (s : State) (q : Option Req) (target : ℕ) (scope : ℕ) (die : ℕ) (h0 : LogsOk s.hubs) : LogsOk (State.askPower s q target scope die).hubs := by
  unfold State.askPower
  repeat' (first | (first | assumption | with_reducible apply State.modDie_logs | with_reducible apply State.answerPower_logs | with_reducible apply State.abortPower_logs | split) | dsimp only)
theorem execPowerStateRequest_logs {r : Req} {target : Byte} {scope : Byte} {die : Byte} {s : State} {z : State} (h : execPowerStateRequest r target scope die s = .next z) (h0 : LogsOk s.hubs) : LogsOk z.hubs := by
  cases h; (try unfold execPowerStateRequest)
  (try dsimp only)
  repeat' (first | (first | assumption | with_reducible apply State.commandLater_logs | with_reducible apply State.askPower_logs | intro) | dsimp only)
theorem State.pwrRequest_logs (s : State) (w : Word) (h0 : LogsOk s.hubs) : LogsOk (State.pwrRequest s w).hubs := by
  unfold State.pwrRequest
  repeat' (first | assumption | with_reducible apply State.askPower_logs)
theorem execPwrRequestWrite_logs {p : Path} {h : HubId} {w : Word} {s : State} {z : State} (h : execPwrRequestWrite p h w s = .next z) (h0 : LogsOk s.hubs) : LogsOk z.hubs := by
  cases h; (try unfold execPwrRequestWrite)
  (try dsimp only)
  repeat' (first | (first | assumption | with_reducible apply State.accessed_logs | with_reducible apply State.pwrRequest_logs | intro) | dsimp only)
theorem execPowerHandshakeAnswer_logs {b : PwrBlock} {x1 : PwrAnswer} {s : State} {z : State} (h : execPowerHandshakeAnswer b x1 s = .next z) (h0 : LogsOk s.hubs) : LogsOk z.hubs := by
  cases h; dsimp only
  repeat' (first | assumption | with_reducible apply State.commit_logs | with_reducible apply State.refusePower_logs | with_reducible apply State.grantPower_logs | split)
theorem execPowerHandshakeTimeout_logs {s : State} {z : State} (h : execPowerHandshakeTimeout s = .next z) (h0 : LogsOk s.hubs) : LogsOk z.hubs := by
  cases h; (try unfold execPowerHandshakeTimeout)
  (try dsimp only)
  repeat' (first | (first | assumption | with_reducible apply State.commit_logs | with_reducible apply State.refusePower_logs | split) | dsimp only)
theorem State.loseAnswer_logs (s : State) (r : PwrReq) (h0 : LogsOk s.hubs) : LogsOk (State.loseAnswer s r).hubs := by
  unfold State.loseAnswer; split <;> exact h0
theorem execCommitStart_logs {s : State} {z : State} (h : execCommitStart s = .next z) (h0 : LogsOk s.hubs) : LogsOk z.hubs := by
  cases h; repeat' split
  all_goals first | exact h0 | exact State.loseAnswer_logs _ _ h0
theorem State.dropLanes_logs (s : State) (d : DieId) (h0 : LogsOk s.hubs) : LogsOk (State.dropLanes s d).hubs := by
  unfold State.dropLanes
  repeat' (first | assumption | with_reducible apply Hub.modLane_ok | with_reducible apply Logs.map | intro)
theorem State.sleepDie_logs (s : State) (target : PwrState) (d : DieId) (h0 : LogsOk s.hubs) : LogsOk (State.sleepDie s target d).hubs := by
  unfold State.sleepDie
  repeat' (first | assumption | with_reducible apply State.dropLanes_logs | split)
theorem State.sleepPorts_logs (s : State) (target : PwrState) (h0 : LogsOk s.hubs) : LogsOk (State.sleepPorts s target).hubs := by
  unfold State.sleepPorts
  repeat' (first | assumption | with_reducible apply State.bmca_logs | split)
theorem State.sleepPackage_logs (s : State) (target : PwrState) (te : Tick) (h0 : LogsOk s.hubs) : LogsOk (State.sleepPackage s target te).hubs := by
  unfold State.sleepPackage
  repeat' (first | assumption | with_reducible apply State.resetString_logs | with_reducible apply State.modCore_logs | with_reducible apply foldl_logs | with_reducible apply Logs.map | with_reducible apply State.sleepDie_logs | with_reducible apply State.sleepPorts_logs | split | intro)
theorem State.completeEntry_logs (s : State) (r : PwrReq) (te : Tick) (h0 : LogsOk s.hubs) : LogsOk (State.completeEntry s r te).hubs := by
  unfold State.completeEntry
  repeat' (first | assumption | with_reducible apply Hub.raise_ok | with_reducible apply State.clearReq_logs | with_reducible apply State.commit_logs | with_reducible apply State.modDie_logs | with_reducible apply State.raiseSrc_logs | with_reducible apply State.raise_logs | with_reducible apply State.settlePackage_logs | with_reducible apply State.settlePools_logs | with_reducible apply State.sleepDie_logs | with_reducible apply State.sleepPackage_logs | with_reducible apply foldl_logs | with_reducible apply Logs.map | with_reducible apply Logs.vmap | (intro) | split | dsimp only)
theorem execEntryComplete_logs {s : State} {z} (h : execEntryComplete s = .next z) (h0 : LogsOk s.hubs) : LogsOk z.hubs := by
  cases h; (try unfold execEntryComplete)
  (try dsimp only)
  repeat' (first | (first | assumption | with_reducible apply State.completeEntry_logs | with_reducible apply foldl_logs | with_reducible apply Logs.map | with_reducible apply Logs.vmap | with_reducible apply Hub.raise_ok | with_reducible apply Log.boxRecord_ok | (intro) | split) | dsimp only)
theorem State.startWake_logs (s : State) (src : ℕ) (h0 : LogsOk s.hubs) : LogsOk (State.startWake s src).hubs := by
  unfold State.startWake
  repeat' (first | (first | assumption | with_reducible apply foldl_logs | with_reducible apply Logs.map | with_reducible apply Logs.vmap | with_reducible apply Hub.raise_ok | with_reducible apply Log.boxRecord_ok | (intro) | split) | dsimp only)
theorem State.wakeEvent_logs (s : State) (src : ℕ) (level : Bool) (h0 : LogsOk s.hubs) : LogsOk (State.wakeEvent s src level).hubs := by
  unfold State.wakeEvent
  repeat' (first | (first | assumption | with_reducible apply State.commit_logs | with_reducible apply State.abortPower_logs | with_reducible apply State.startWake_logs | with_reducible apply State.completeEntry_logs | with_reducible apply foldl_logs | with_reducible apply Logs.map | with_reducible apply Logs.vmap | with_reducible apply Hub.raise_ok | with_reducible apply Log.boxRecord_ok | (intro) | split) | dsimp only)
theorem execAlarmWake_logs {s : State} {z : State} (h : execAlarmWake s = .next z) (h0 : LogsOk s.hubs) : LogsOk z.hubs := by
  cases h; (try unfold execAlarmWake)
  (try dsimp only)
  repeat' (first | (first | assumption | with_reducible apply State.wakeEvent_logs | split) | dsimp only)
theorem execLinkEnergyWake_logs {p : PortId} {energy : Bool} {s : State} {z : State} (h : execLinkEnergyWake p energy s = .next z) (h0 : LogsOk s.hubs) : LogsOk z.hubs := by
  cases h; dsimp only
  repeat' (first | assumption | with_reducible apply State.wakeEvent_logs | split)
theorem execWakePattern_logs {p : PortId} {addressed : Bool} {payload : List Byte} {s : State} {z : State} (h : execWakePattern p addressed payload s = .next z) (h0 : LogsOk s.hubs) : LogsOk z.hubs := by
  cases h; (try unfold execWakePattern)
  (try dsimp only)
  repeat' (first | (first | assumption | with_reducible apply State.wakeEvent_logs | split) | dsimp only)
theorem State.wakeEntries_logs (s : State) (ds : List DieId) (h0 : LogsOk s.hubs) : LogsOk (State.wakeEntries s ds).hubs := by
  unfold State.wakeEntries
  repeat' (first | assumption | with_reducible apply State.outcomes_logs)
theorem State.wakeDies_logs (s : State) (ds : List DieId) (h0 : LogsOk s.hubs) : LogsOk (State.wakeDies s ds).hubs := by
  unfold State.wakeDies
  repeat' (first | assumption | with_reducible apply State.modDie_logs | with_reducible apply foldl_logs | with_reducible apply State.settlePools_logs | with_reducible apply State.wakeEntries_logs | intro)
theorem State.logHeld_logs (s : State) (h0 : LogsOk s.hubs) : LogsOk (State.logHeld s).hubs := by
  unfold State.logHeld
  repeat' (first | assumption | with_reducible apply foldl_logs | with_reducible apply State.raise_logs | intro)
theorem State.resumeClock_logs (s : State) (h0 : LogsOk s.hubs) : LogsOk (State.resumeClock s).hubs := by
  unfold State.resumeClock
  repeat' (first | assumption | with_reducible apply State.enterSync_logs)
theorem State.wakePackage_logs (s : State) (src : ℕ) (yoyo : Bool) (h0 : LogsOk s.hubs) : LogsOk (State.wakePackage s src yoyo).hubs := by
  unfold State.wakePackage
  extract_lets deep t0 low y1 t1 t2 t3 t4 t5 y2 t6
  have h1 : LogsOk t0.hubs := by
    unfold t0; split
    · exact State.resumeClock_logs _ h0
    · exact h0
  clear_value t0
  have h2 : LogsOk t1.hubs := h1
  clear_value t1
  have h3 : LogsOk t2.hubs := foldl_logs h2 fun s d h => State.modDie_logs h
  clear_value t2
  have h4 : LogsOk t3.hubs := State.wakeDies_logs _ _ h3
  clear_value t3
  have h5 : LogsOk t4.hubs := State.modCore_logs h4
  clear_value t4
  have h6 : LogsOk t5.hubs := State.modHub_logs (State.stopMirror_logs _ h5) fun x h => by split <;> exact h
  clear_value t5
  exact State.settlePackage_logs _ (State.logHeld_logs t6 h6)
theorem State.wakeReady_logs (s : State) (h0 : LogsOk s.hubs) : LogsOk (State.wakeReady s).hubs := by
  unfold State.wakeReady
  repeat' (first | (first | assumption | with_reducible apply State.wakeDies_logs | with_reducible apply foldl_logs | with_reducible apply Logs.map | with_reducible apply Logs.vmap | with_reducible apply Hub.raise_ok | with_reducible apply Log.boxRecord_ok | (intro) | split) | dsimp only)
theorem execWakeComplete_logs {s : State} {z} (h : execWakeComplete s = .next z) (h0 : LogsOk s.hubs) : LogsOk z.hubs := by
  cases h; dsimp only
  split
  · split
    · exact State.commit_logs (State.wakeDies_logs _ _ h0)
    · exact h0
  · refine State.commit_logs ?_
    split
    · exact State.wakePackage_logs _ _ _ h0
    · exact State.wakeReady_logs _ h0
  · exact h0
theorem State.startUp_logs (s : State) (st : Straps) (kept : Bool) (h0 : LogsOk s.hubs) : LogsOk (State.startUp s st kept).hubs := by
  unfold State.startUp
  repeat' (first | (first | with_reducible apply Logs.two | with_reducible apply Hub.boot_ok | with_reducible apply State.lostBanks_logs | split) | dsimp only)
theorem State.holdInReset_logs (s : State) (st : Straps) : LogsOk (State.holdInReset s st).hubs := by
  unfold State.holdInReset
  constructor; intro i; simp only [vmap, Vector.getElem_ofFn]; exact Hub.boot_ok
theorem execPowerUp_logs {st : Straps} {s : State} {z : State} (h : execPowerUp st s = .next z) (h0 : LogsOk s.hubs) : LogsOk z.hubs := by
  cases h
  repeat' (first | assumption | with_reducible apply State.startUp_logs | with_reducible apply State.holdInReset_logs | split)
theorem execPowerUpComplete_logs {s : State} {z : State} (h : execPowerUpComplete s = .next z) (h0 : LogsOk s.hubs) : LogsOk z.hubs := by
  cases h; dsimp only
  repeat' (first | assumption | with_reducible apply foldl_logs | with_reducible apply State.logHeld_logs | with_reducible apply State.settlePools_logs | with_reducible apply State.settlePackage_logs | split)
theorem execWakeNEvent_logs {low : Bool} {s : State} {z : State} (h : execWakeNEvent low s = .next z) (h0 : LogsOk s.hubs) : LogsOk z.hubs := by
  cases h; dsimp only
  repeat' (first | assumption | with_reducible apply State.startUp_logs | with_reducible apply State.wakeEvent_logs | split)
theorem execPowerFailure_logs {s : State} {z : State} (h : execPowerFailure s = .next z) (h0 : LogsOk s.hubs) : LogsOk z.hubs := by
  cases h; dsimp only
  repeat' (first | assumption | with_reducible apply State.beginDown_logs | split)
theorem State.railsDown_logs (s : State) (h0 : LogsOk s.hubs) : LogsOk (State.railsDown s).hubs := by
  unfold State.railsDown
  repeat' (first | assumption | with_reducible apply Hub.boot_ok | with_reducible apply Log.railsDown_ok | with_reducible apply State.startUp_logs | with_reducible apply foldl_logs | with_reducible apply Logs.map | with_reducible apply Logs.vmap | (intro) | split | dsimp only)
theorem execPowerDownStep_logs {s : State} {z : State} (h : execPowerDownStep s = .next z) (h0 : LogsOk s.hubs) : LogsOk z.hubs := by
  cases h; dsimp only
  repeat' (first | assumption | with_reducible apply State.modDie_logs | with_reducible apply foldl_logs | with_reducible apply Logs.map | with_reducible apply State.noteDown_logs | with_reducible apply State.railsDown_logs | with_reducible apply Log.flush_ok | split | intro)
theorem execHubRestart_logs {hh : HubId} {s : State} {z} (h : execHubRestart hh s = .next z) (h0 : LogsOk s.hubs) : LogsOk z.hubs := by
  cases h; (try unfold execHubRestart)
  (try dsimp only)
  repeat' (first | (first | assumption | with_reducible apply State.lostBanks_logs | with_reducible apply State.restartHub_logs | split) | dsimp only)
theorem State.restartPorts_logs (s : State) (hh : HubId) (h0 : LogsOk s.hubs) : LogsOk (State.restartPorts s hh).hubs := by
  unfold State.restartPorts
  repeat' (first | (first | assumption | with_reducible apply State.ptpRestart_logs | with_reducible apply foldl_logs | with_reducible apply Logs.map | with_reducible apply Logs.vmap | with_reducible apply Hub.raise_ok | with_reducible apply Log.boxRecord_ok | (intro) | split) | dsimp only)
theorem execHubRestartComplete_logs {h : HubId} {s : State} {z : State} (h : execHubRestartComplete h s = .next z) (h0 : LogsOk s.hubs) : LogsOk z.hubs := by
  cases h; (try dsimp only)
  repeat' (first | assumption | with_reducible apply State.commit_logs | with_reducible apply State.takeOver_logs | with_reducible apply State.settlePackage_logs | with_reducible apply Hub.boot_ok | with_reducible apply State.modHub_logs | with_reducible apply State.restartPorts_logs | with_reducible apply State.syncAnew_logs | with_reducible apply foldl_logs | with_reducible apply Logs.map | with_reducible apply Logs.vmap | (intro) | split | dsimp only)
theorem State.setHold_logs (s : State) (mask : ℕ) (h0 : LogsOk s.hubs) : LogsOk (State.setHold s mask).hubs := by
  exact h0
theorem State.clearHold_logs (s : State) (mask : ℕ) (h0 : LogsOk s.hubs) : LogsOk (State.clearHold s mask).hubs := by
  exact h0
theorem State.declareLoss_logs (s : State) (i : Fin 8) (h0 : LogsOk s.hubs) : LogsOk (State.declareLoss s i).hubs := by
  unfold State.declareLoss
  repeat' (first | assumption | split)
theorem execLinkLossDeclare_logs {slot : Fin 8} {s : State} {z : State} (h : execLinkLossDeclare slot s = .next z) (h0 : LogsOk s.hubs) : LogsOk z.hubs := by
  cases h; (try unfold execLinkLossDeclare)
  (try dsimp only)
  repeat' (first | (first | assumption | with_reducible apply State.commit_logs | with_reducible apply State.declareLoss_logs | split) | dsimp only)
theorem execKeyGraceExpiry_logs {s : State} {z : State} (h : execKeyGraceExpiry s = .next z) (h0 : LogsOk s.hubs) : LogsOk z.hubs := by
  cases h; dsimp only
  repeat' (first | assumption | with_reducible apply State.commit_logs | with_reducible apply State.putStore_logs | with_reducible apply State.raiseSrc_logs | with_reducible apply State.tickFree_logs | with_reducible apply State.modCore_logs | (exact State.takeRole_logs (by assumption) h0) | split)
theorem execGateCycleStart_logs {p : PortId} {s : State} {z : State} (h : execGateCycleStart p s = .next z) (h0 : LogsOk s.hubs) : LogsOk z.hubs := by
  cases h; dsimp only
  repeat' (first | assumption | split)
theorem State.suspendOn_logs (s : State) (p : PortId) (h0 : LogsOk s.hubs) : LogsOk (State.suspendOn s p).hubs := by
  unfold State.suspendOn
  repeat' (first | assumption | with_reducible apply foldl_logs | with_reducible apply State.raiseNow_logs | split | intro)
theorem State.resumeOn_logs (s : State) (h0 : LogsOk s.hubs) : LogsOk (State.resumeOn s).hubs := by
  unfold State.resumeOn
  repeat' (first | (first | assumption | with_reducible apply foldl_logs | split | intro) | dsimp only)
theorem State.settleStreams_logs (s : State) (p : PortId) (h0 : LogsOk s.hubs) : LogsOk (State.settleStreams s p).hubs := by
  unfold State.settleStreams
  repeat' (first | assumption | with_reducible apply State.resumeOn_logs | with_reducible apply State.suspendOn_logs)
theorem State.endSession_logs (s : State) (i : Fin 8) (lost : Bool) (h0 : LogsOk s.hubs) : LogsOk (State.endSession s i lost).hubs := by
  unfold State.endSession
  repeat' (first | assumption | with_reducible apply State.raiseNow_logs | with_reducible apply State.resumeOn_logs | split)
theorem State.dropSessions_logs (s : State) (h0 : LogsOk s.hubs) : LogsOk (State.dropSessions s).hubs :=
  State.modCore_logs (foldl_logs h0 fun _ _ h => State.endSession_logs _ _ _ h)
theorem State.completeCopy_logs (s : State) (boot : ℕ) (keys : List (ℕ × List Byte)) (h0 : LogsOk s.hubs) :
    LogsOk (State.completeCopy s boot keys).hubs := by
  refine State.copyHdrs_logs _ (?_ : LogsOk (if boot = s.act.nv.boot then s.finishMirror else s.finishMirror.dropSessions).hubs)
  split
  · exact State.finishMirror_logs _ h0
  · exact State.dropSessions_logs _ (State.finishMirror_logs _ h0)
theorem execMirrorReady_logs {s : State} {z : State} (h : execMirrorReady s = .next z) (h0 : LogsOk s.hubs) : LogsOk z.hubs := by
  cases h; split
  · refine State.raise_logs _ _ _ _ _ _ (State.modHub_logs (State.modHub_logs (State.modHub_logs (State.completeCopy_logs _ _ _ h0) ?_) ?_) ?_)
    all_goals exact fun _ h => h
  · exact h0
theorem execSessionTimeout_logs {slot : Fin 8} {s : State} {z : State} (h : execSessionTimeout slot s = .next z) (h0 : LogsOk s.hubs) : LogsOk z.hubs := by
  cases h; (try unfold execSessionTimeout)
  (try dsimp only)
  repeat' (first | (first | assumption | with_reducible apply State.commit_logs | with_reducible apply State.endSession_logs | split) | dsimp only)
theorem execStreamBlockSend_logs {stream : Fin 64} {s : State} {z : State} (h : execStreamBlockSend stream s = .next z) (h0 : LogsOk s.hubs) : LogsOk z.hubs := by
  cases h; dsimp only
  repeat' (first | assumption | with_reducible apply State.commit_logs | with_reducible apply State.emit_logs | split)
theorem State.modPort_logs (s : State) (p : PortId) (f : NetPort → NetPort) (h0 : LogsOk s.hubs) : LogsOk (State.modPort s p f).hubs := by
  exact h0
theorem State.portEvent_logs (s : State) (p : PortId) (e : Ev) (v : Speed) (h0 : LogsOk s.hubs) : LogsOk (State.portEvent s p e v).hubs := by
  unfold State.portEvent
  repeat' (first | assumption | with_reducible apply State.raise_logs)
theorem State.declareAll_logs (s : State) (h0 : LogsOk s.hubs) : LogsOk (State.declareAll s).hubs := by
  unfold State.declareAll
  exact foldl_logs h0 fun _ _ h => State.declareLoss_logs _ _ h
theorem execLinkDown_logs {p : PortId} {s : State} {z} (h : execLinkDown p s = .next z) (h0 : LogsOk s.hubs) : LogsOk z.hubs := by
  cases h; dsimp only
  split
  · have a := State.settlePackage_logs _ (State.ptpRestart_logs _ p true (State.portEvent_logs (s.modPort p fun y => { y with link := false }) p .linkDown (s.net.ports[p.val]).speed h0))
    refine State.commit_logs ?_
    split
    · exact State.declareAll_logs _ a
    · exact a
  · exact h0
theorem execLinkUp_logs {p : PortId} {v : Speed} {s : State} {z} (h : execLinkUp p v s = .next z) (h0 : LogsOk s.hubs) : LogsOk z.hubs := by
  cases h; dsimp only
  repeat' (first | assumption | with_reducible apply State.commit_logs | with_reducible apply State.portEvent_logs | with_reducible apply State.settlePackage_logs | with_reducible apply State.ptpRestart_logs | with_reducible apply State.settleStreams_logs | split)
theorem execSpeedRenegotiate_logs {p : PortId} {v : Speed} {s : State} {z : State} (h : execSpeedRenegotiate p v s = .next z) (h0 : LogsOk s.hubs) : LogsOk z.hubs := by
  cases h; dsimp only
  repeat' (first | assumption | with_reducible apply State.commit_logs | with_reducible apply State.settleStreams_logs | split)
theorem execSupervisionFrameSend_logs {s : State} {z : State} (h : execSupervisionFrameSend s = .next z) (h0 : LogsOk s.hubs) : LogsOk z.hubs := by
  cases h; dsimp only
  repeat' (first | assumption | split)
theorem execDuplicateEntryExpiry_logs {s : State} {z : State} (h : execDuplicateEntryExpiry s = .next z) (h0 : LogsOk s.hubs) : LogsOk z.hubs := by
  cases h; exact h0
theorem State.configure_logs {s : State} {ch : Chan} {i : ChanImg} {set : ℕ} {z : State × Tick} (h : State.configure s ch i set = .ok z) (h0 : LogsOk s.hubs) : LogsOk z.1.hubs := by
  unfold State.configure at h; (try dsimp only at h); repeat' split at h
  all_goals (try cases h)
  all_goals repeat' (first | (first | assumption | (apply State.ledgerAdmit_logs; assumption) | with_reducible apply State.settlePools_logs | with_reducible apply State.queueConfig_logs) | dsimp only)
theorem State.configWrite_logs (s : State) (p : Path) (ch : Chan) (off : ℕ) (i : ChanImg) (set : ℕ) (h0 : LogsOk s.hubs) : LogsOk (State.configWrite s p ch off i set).hubs := by
  unfold State.configWrite
  repeat' (first | assumption | (apply State.configure_logs; assumption) | split)
theorem State.putNow_logs (s : State) (ch : Chan) (f : ChanImg → ChanImg) (h0 : LogsOk s.hubs) : LogsOk (State.putNow s ch f).hubs := by
  exact h0
theorem State.putLater_logs (s : State) (ch : Chan) (l : List (ℕ × Word)) (h0 : LogsOk s.hubs) : LogsOk (State.putLater s ch l).hubs := by
  exact h0
theorem State.filterPut_logs (s : State) (p : Path) (ch : Chan) (off : ℕ) (w : Word) (new : ChanImg) (h0 : LogsOk s.hubs) : LogsOk (State.filterPut s p ch off w new).hubs := by
  unfold State.filterPut
  repeat' (first | assumption | split)
theorem State.filterWrite_logs (s : State) (p : Path) (ch : Chan) (off : ℕ) (w : Word) (h0 : LogsOk s.hubs) : LogsOk (State.filterWrite s p ch off w).hubs := by
  unfold State.filterWrite
  repeat' (first | (first | assumption | with_reducible apply State.configWrite_logs | with_reducible apply State.filterPut_logs | split) | dsimp only)
theorem State.admitWrite_logs (s : State) (p : Path) (pg : PageRef) (off : ℕ) (items : List PlanItem) (cls : ℕ) (d : DieId) (f : State → State) (hf : ∀ x, LogsOk x.hubs → LogsOk (f x).hubs) (h0 : LogsOk s.hubs) : LogsOk (State.admitWrite s p pg off items cls d f).hubs := by
  unfold State.admitWrite
  split
  · next e => exact State.settlePools_logs _ _ (hf _ (State.ledgerAdmit_logs e h0))
  · exact State.rejectAt_logs _ _ _ _ _ h0
theorem State.outCfgWrite_logs (s : State) (p : Path) (ch : Chan) (w : Word) (h0 : LogsOk s.hubs) : LogsOk (State.outCfgWrite s p ch w).hubs := by
  unfold State.outCfgWrite
  repeat' (first | (first | assumption | with_reducible apply State.configWrite_logs | with_reducible apply State.admitWrite_logs | with_reducible apply State.putLater_logs | split | intro) | dsimp only)
theorem State.declWriteCh_logs (s : State) (p : Path) (d : DieId) (c : ChanId) (w : Word) (h0 : LogsOk s.hubs) : LogsOk (State.declWriteCh s p d c w).hubs := by
  unfold State.declWriteCh
  repeat' (first | assumption | with_reducible apply State.admitWrite_logs | with_reducible apply State.putLater_logs | intro)
theorem State.lpDeclWrite_logs (s : State) (p : Path) (d : DieId) (w : Word) (h0 : LogsOk s.hubs) : LogsOk (State.lpDeclWrite s p d w).hubs := by
  refine Logs.ite ?_ h0
  refine Logs.ite ?_ (State.rejectAt_logs _ _ _ _ _ h0)
  exact State.admitWrite_logs _ _ _ _ _ _ _ _ (fun x h => h) h0
theorem State.chanOp_logs (s : State) (p : Path) (ch : Chan) (off : ℕ) (w : Word) (h0 : LogsOk s.hubs) : LogsOk (State.chanOp s p ch off w).hubs := by
  unfold State.chanOp
  repeat' (first | (first | assumption | with_reducible apply State.configWrite_logs | with_reducible apply State.outCfgWrite_logs | with_reducible apply State.filterWrite_logs | split) | dsimp only)
theorem State.policyPut_logs (s : State) (x1 : PolicyScope) (x2 : Fin 3) (x3 : Policy) (h0 : LogsOk s.hubs) : LogsOk (State.policyPut s x1 x2 x3).2.hubs := by
  unfold State.policyPut
  repeat' (first | (first | assumption | split) | dsimp only)
theorem State.policyRegWrite_logs (s : State) (p : Path) (pg : PageRef) (off : ℕ) (sc : PolicyScope) (k : Fin 3) (w : Word) (h0 : LogsOk s.hubs) : LogsOk (State.policyRegWrite s p pg off sc k w).hubs := by
  unfold State.policyRegWrite
  repeat' (first | (first | assumption | with_reducible apply State.policyPut_logs | with_reducible apply State.rejectAt_logs | split) | dsimp only)
theorem State.modAux_logs (s : State) (d : DieId) (f : Aux → Aux) (h0 : LogsOk s.hubs) : LogsOk (State.modAux s d f).hubs := by
  exact h0
theorem State.auxOp_logs (s : State) (d : DieId) (off : ℕ) (w : Word) (h0 : LogsOk s.hubs) : LogsOk (State.auxOp s d off w).hubs := by
  unfold State.auxOp
  repeat' (first | (first | assumption | split) | dsimp only)
theorem State.dieOp_logs (s : State) (p : Path) (d : DieId) (r : Fin 23) (off : ℕ) (w : Word) (h0 : LogsOk s.hubs) : LogsOk (State.dieOp s p d r off w).hubs := by
  unfold State.dieOp
  repeat' (first | (first | assumption | with_reducible apply State.auxOp_logs | with_reducible apply State.lpDeclWrite_logs | with_reducible apply State.policyRegWrite_logs | with_reducible apply State.declWriteCh_logs | split) | dsimp only)
theorem State.restartPtp_logs (s : State) (h0 : LogsOk s.hubs) : LogsOk (State.restartPtp s).hubs := by
  unfold State.restartPtp
  repeat' (first | assumption | with_reducible apply State.ptpRestart_logs)
theorem State.timeCtrl_logs (s : State) (w : Word) (h0 : LogsOk s.hubs) : LogsOk (State.timeCtrl s w).hubs := by
  unfold State.timeCtrl
  repeat' (first | (first | assumption | with_reducible apply State.modCore_logs | with_reducible apply State.writeAccept_logs | with_reducible apply State.noteMix_logs | with_reducible apply State.restartPtp_logs | split) | dsimp only)
theorem State.ptpCfg_logs (s : State) (port : PortId) (w : Word) (h0 : LogsOk s.hubs) : LogsOk (State.ptpCfg s port w).hubs := by
  unfold State.ptpCfg
  repeat' (first | (first | assumption | with_reducible apply State.ptpRestart_logs | split) | dsimp only)
theorem State.timeOp_logs (s : State) (off : ℕ) (w : Word) (h0 : LogsOk s.hubs) : LogsOk (State.timeOp s off w).hubs := by
  unfold State.timeOp
  repeat' (first | (first | assumption | with_reducible apply State.timeCtrl_logs | with_reducible apply State.ptpCfg_logs | split) | dsimp only)
theorem State.schedOp_logs (s : State) (off : ℕ) (w : Word) (h0 : LogsOk s.hubs) : LogsOk (State.schedOp s off w).hubs := by
  unfold State.schedOp
  repeat' (first | (first | assumption | split) | dsimp only)
theorem State.ledgerOp_logs (s : State) (p : Path) (h : HubId) (off : ℕ) (w : Word) (h0 : LogsOk s.hubs) : LogsOk (State.ledgerOp s p h off w).hubs := by
  unfold State.ledgerOp
  repeat' (first | assumption | with_reducible apply State.policyRegWrite_logs | split)
theorem State.pwrOp_logs (s : State) (off : ℕ) (w : Word) (h0 : LogsOk s.hubs) : LogsOk (State.pwrOp s off w).hubs := by
  unfold State.pwrOp
  split
  · exact State.pwrRequest_logs s w h0
  all_goals first | exact State.modCore_logs h0 | exact h0
theorem State.netFreq_logs (s : State) (w : Word) (h0 : LogsOk s.hubs) : LogsOk (State.netFreq s w).hubs := by
  unfold State.netFreq
  repeat' (first | (first | assumption | with_reducible apply State.mainsMeasure_logs | split) | dsimp only)
theorem State.mainsOp_logs (s : State) (off : ℕ) (w : Word) (h0 : LogsOk s.hubs) : LogsOk (State.mainsOp s off w).hubs := by
  unfold State.mainsOp
  repeat' (first | assumption | with_reducible apply State.netFreq_logs | split)
theorem State.clearHigh_logs (s : State) (x1 : AxisId) (h0 : LogsOk s.hubs) : LogsOk (State.clearHigh s x1).hubs := by
  exact h0
theorem State.axisWrite_logs (s : State) (a : AxisId) (r : AxisReg) (w : Word) (h0 : LogsOk s.hubs) : LogsOk (State.axisWrite s a r w).hubs := by
  unfold State.axisWrite
  repeat' (first | (first | assumption | with_reducible apply State.clearHigh_logs | with_reducible apply State.modCore_logs | with_reducible apply foldl_logs | with_reducible apply Logs.map | with_reducible apply Logs.vmap | with_reducible apply Hub.raise_ok | with_reducible apply Log.boxRecord_ok | (intro) | split) | dsimp only)
theorem State.axisOp_logs (s : State) (off : ℕ) (w : Word) (h0 : LogsOk s.hubs) : LogsOk (State.axisOp s off w).hubs := by
  unfold State.axisOp
  repeat' (first | (first | assumption | with_reducible apply State.axisWrite_logs | with_reducible apply State.modCore_logs | with_reducible apply foldl_logs | with_reducible apply Logs.map | with_reducible apply Logs.vmap | with_reducible apply Hub.raise_ok | with_reducible apply Log.boxRecord_ok | (intro) | split) | dsimp only)
theorem State.modPortRegs_logs (s : State) (port : PortId) (f : PortRegs → PortRegs) (h0 : LogsOk s.hubs) : LogsOk (State.modPortRegs s port f).hubs := by
  exact h0
theorem State.portCtrl_logs (s : State) (port : PortId) (w : Word) (h0 : LogsOk s.hubs) : LogsOk (State.portCtrl s port w).hubs := by
  unfold State.portCtrl
  repeat' (first | assumption | with_reducible apply State.ptpRestart_logs | split)
theorem State.keyCommit_logs (s : State) (p : Path) (w : Word) (h0 : LogsOk s.hubs) : LogsOk (State.keyCommit s p w).hubs := by
  unfold State.keyCommit
  repeat' (first | (first | assumption | (apply State.takeRole_logs; assumption) | with_reducible apply State.modCore_logs | with_reducible apply State.putStore_logs | split) | dsimp only)
theorem State.netOp_logs (s : State) (p : Path) (off : ℕ) (w : Word) (h0 : LogsOk s.hubs) : LogsOk (State.netOp s p off w).hubs := by
  unfold State.netOp
  repeat' (first | assumption | with_reducible apply State.portCtrl_logs | with_reducible apply State.keyCommit_logs | split)
theorem State.hubOp_logs (s : State) (p : Path) (h : HubId) (r : Fin 12) (off : ℕ) (w : Word) (h0 : LogsOk s.hubs) : LogsOk (State.hubOp s p h r off w).hubs := by
  unfold State.hubOp
  repeat' (first | assumption | with_reducible apply State.timeOp_logs | with_reducible apply State.schedOp_logs | with_reducible apply State.ledgerOp_logs | with_reducible apply State.pwrOp_logs | with_reducible apply State.tsoldCtrlWrite_logs | with_reducible apply State.tsoldPeriodWrite_logs | with_reducible apply State.serve_logs | with_reducible apply State.mainsOp_logs | with_reducible apply State.axisOp_logs | with_reducible apply State.netOp_logs | split)
theorem State.regPut_logs (s : State) (p : Path) (pg : PageRef) (off : ℕ) (w : Word) (h0 : LogsOk s.hubs) : LogsOk (State.regPut s p pg off w).hubs := by
  unfold State.regPut
  repeat' (first | with_reducible apply State.shadowUnit_logs | assumption | with_reducible apply State.hdrWrite_logs | with_reducible apply State.hubOp_logs | with_reducible apply State.chanOp_logs | with_reducible apply State.dieOp_logs | split)
theorem State.regOp_logs (s : State) (p : Path) (pg : PageRef) (off : ℕ) (w : Word) (h0 : LogsOk s.hubs) : LogsOk (State.regOp s p pg off w).hubs := by
  unfold State.regOp
  repeat' (first | assumption | with_reducible apply State.shadowUnit_logs | with_reducible apply State.regPut_logs | split)
theorem State.writeReg_logs (s : State) (p : Path) (pg : PageRef) (off : ℕ) (w : Word) (h0 : LogsOk s.hubs) : LogsOk (State.writeReg s p pg off w).hubs := by
  unfold State.writeReg
  repeat' (first | assumption | with_reducible apply State.accessed_logs | with_reducible apply State.regOp_logs | intro)
theorem State.writeAddr_logs (s : State) (p : Path) (addr : ℕ) (w : Word) (h0 : LogsOk s.hubs) : LogsOk (State.writeAddr s p addr w).hubs := by
  unfold State.writeAddr
  repeat' (first | (first | assumption | with_reducible apply State.writeReg_logs | split) | dsimp only)
theorem State.writePage_logs (s : State) (p : Path) (page : ℕ) (off : ℕ) (w : Word) (h0 : LogsOk s.hubs) : LogsOk (State.writePage s p page off w).hubs := by
  unfold State.writePage
  repeat' (first | assumption | with_reducible apply State.writeAddr_logs)
theorem execRegisterWrite_logs {p : Path} {addr : Word} {w : Word} {s : State} {z : State} (h : execRegisterWrite p addr w s = .next z) (h0 : LogsOk s.hubs) : LogsOk z.hubs := by
  cases h; (try unfold execRegisterWrite)
  (try dsimp only)
  repeat' (first | (first | assumption | with_reducible apply State.writeAddr_logs) | dsimp only)
theorem execChCfgWrite_logs {p : Path} {ch : Chan} {w : Word} {s : State} {z : State} (h : execChCfgWrite p ch w s = .next z) (h0 : LogsOk s.hubs) : LogsOk z.hubs := by
  cases h; (try unfold execChCfgWrite)
  (try dsimp only)
  repeat' (first | (first | assumption | with_reducible apply State.writeReg_logs) | dsimp only)
theorem execConvCfgWrite_logs {p : Path} {ch : Chan} {w : Word} {s : State} {z : State} (h : execConvCfgWrite p ch w s = .next z) (h0 : LogsOk s.hubs) : LogsOk z.hubs := by
  cases h; (try unfold execConvCfgWrite)
  (try dsimp only)
  repeat' (first | (first | assumption | with_reducible apply State.writeReg_logs) | dsimp only)
theorem execSafeReq_logs {p : Path} {ch : Chan} {w : Word} {s : State} {z : State} (h : execSafeReq p ch w s = .next z) (h0 : LogsOk s.hubs) : LogsOk z.hubs := by
  cases h; (try unfold execSafeReq)
  (try dsimp only)
  repeat' (first | (first | assumption | with_reducible apply State.writeReg_logs) | dsimp only)
theorem execPageLock_logs {p : Path} {page : ℕ} {s : State} {z : State} (h : execPageLock p page s = .next z) (h0 : LogsOk s.hubs) : LogsOk z.hubs := by
  cases h; (try unfold execPageLock)
  (try dsimp only)
  repeat' (first | (first | assumption | with_reducible apply State.writePage_logs) | dsimp only)
theorem execPageUnlock_logs {p : Path} {page : ℕ} {s : State} {z : State} (h : execPageUnlock p page s = .next z) (h0 : LogsOk s.hubs) : LogsOk z.hubs := by
  cases h; (try unfold execPageUnlock)
  (try dsimp only)
  repeat' (first | (first | assumption | with_reducible apply State.writePage_logs) | dsimp only)
theorem execEvClearWrite_logs {p : Path} {page : ℕ} {w : Word} {s : State} {z : State} (h : execEvClearWrite p page w s = .next z) (h0 : LogsOk s.hubs) : LogsOk z.hubs := by
  cases h; (try unfold execEvClearWrite)
  (try dsimp only)
  repeat' (first | (first | assumption | with_reducible apply State.writePage_logs) | dsimp only)
theorem execBlockReset_logs {p : Path} {page : ℕ} {w : Word} {s : State} {z : State} (h : execBlockReset p page w s = .next z) (h0 : LogsOk s.hubs) : LogsOk z.hubs := by
  cases h; (try unfold execBlockReset)
  (try dsimp only)
  repeat' (first | (first | assumption | with_reducible apply State.writePage_logs) | dsimp only)
theorem execFreezeWrite_logs {p : Path} {page : ℕ} {w : Word} {s : State} {z : State} (h : execFreezeWrite p page w s = .next z) (h0 : LogsOk s.hubs) : LogsOk z.hubs := by
  cases h; (try unfold execFreezeWrite)
  (try dsimp only)
  repeat' (first | (first | assumption | with_reducible apply State.writePage_logs) | dsimp only)
theorem execCntPresetWrite_logs {p : Path} {ch : Chan} {w : Word} {s : State} {z : State} (h : execCntPresetWrite p ch w s = .next z) (h0 : LogsOk s.hubs) : LogsOk z.hubs := by
  cases h; (try unfold execCntPresetWrite)
  (try dsimp only)
  repeat' (first | (first | assumption | with_reducible apply State.writeReg_logs) | dsimp only)
theorem execKeyCommitWrite_logs {p : Path} {h : HubId} {w : Word} {s : State} {z : State} (h : execKeyCommitWrite p h w s = .next z) (h0 : LogsOk s.hubs) : LogsOk z.hubs := by
  cases h; (try unfold execKeyCommitWrite)
  (try dsimp only)
  repeat' (first | (first | assumption | with_reducible apply State.writeReg_logs) | dsimp only)
theorem execNetFreqWrite_logs {p : Path} {h : HubId} {w : Word} {s : State} {z : State} (h : execNetFreqWrite p h w s = .next z) (h0 : LogsOk s.hubs) : LogsOk z.hubs := by
  cases h; (try unfold execNetFreqWrite)
  (try dsimp only)
  repeat' (first | (first | assumption | with_reducible apply State.writeReg_logs) | dsimp only)
theorem execMainsCtrlWrite_logs {p : Path} {h : HubId} {w : Word} {s : State} {z : State} (h : execMainsCtrlWrite p h w s = .next z) (h0 : LogsOk s.hubs) : LogsOk z.hubs := by
  cases h; (try unfold execMainsCtrlWrite)
  (try dsimp only)
  repeat' (first | (first | assumption | with_reducible apply State.writeReg_logs) | dsimp only)
theorem execFilterRegisterWrite_logs {p : Path} {ch : Chan} {r : FiltReg} {w : Word} {s : State} {z : State} (h : execFilterRegisterWrite p ch r w s = .next z) (h0 : LogsOk s.hubs) : LogsOk z.hubs := by
  cases h; (try unfold execFilterRegisterWrite)
  (try dsimp only)
  repeat' (first | (first | assumption | with_reducible apply State.writeReg_logs) | dsimp only)
theorem execDinCfgWrite_logs {p : Path} {ch : Chan} {w : Word} {s : State} {z : State} (h : execDinCfgWrite p ch w s = .next z) (h0 : LogsOk s.hubs) : LogsOk z.hubs := by
  cases h; (try unfold execDinCfgWrite)
  (try dsimp only)
  repeat' (first | (first | assumption | with_reducible apply State.writeReg_logs) | dsimp only)
theorem execOutCfgWrite_logs {p : Path} {ch : Chan} {w : Word} {s : State} {z : State} (h : execOutCfgWrite p ch w s = .next z) (h0 : LogsOk s.hubs) : LogsOk z.hubs := by
  cases h; (try unfold execOutCfgWrite)
  (try dsimp only)
  repeat' (first | (first | assumption | with_reducible apply State.writeReg_logs) | dsimp only)
theorem execParWrite_logs {p : Path} {ch : Chan} {w : Word} {s : State} {z : State} (h : execParWrite p ch w s = .next z) (h0 : LogsOk s.hubs) : LogsOk z.hubs := by
  cases h; (try unfold execParWrite)
  (try dsimp only)
  repeat' (first | (first | assumption | with_reducible apply State.writeReg_logs) | dsimp only)
theorem execAuxShadowWrite_logs {p : Path} {d : DieId} {r : AuxReg} {w : Word} {s : State} {z : State} (h : execAuxShadowWrite p d r w s = .next z) (h0 : LogsOk s.hubs) : LogsOk z.hubs := by
  cases h; (try unfold execAuxShadowWrite)
  (try dsimp only)
  repeat' (first | (first | assumption | with_reducible apply State.writeReg_logs) | dsimp only)
theorem execRefSelWrite_logs {p : Path} {d : DieId} {w : Word} {s : State} {z : State} (h : execRefSelWrite p d w s = .next z) (h0 : LogsOk s.hubs) : LogsOk z.hubs := by
  cases h; (try unfold execRefSelWrite)
  (try dsimp only)
  repeat' (first | (first | assumption | with_reducible apply State.writeReg_logs) | dsimp only)
theorem execAxisCfgWrite_logs {p : Path} {h : HubId} {x1 : AxisId} {r : AxisReg} {w : Word} {s : State} {z : State} (h : execAxisCfgWrite p h x1 r w s = .next z) (h0 : LogsOk s.hubs) : LogsOk z.hubs := by
  cases h; (try unfold execAxisCfgWrite)
  (try dsimp only)
  repeat' (first | (first | assumption | with_reducible apply State.writeReg_logs) | dsimp only)
theorem execLedgerPtWrite_logs {p : Path} {h : HubId} {w : Word} {s : State} {z : State} (h : execLedgerPtWrite p h w s = .next z) (h0 : LogsOk s.hubs) : LogsOk z.hubs := by
  cases h; (try unfold execLedgerPtWrite)
  (try dsimp only)
  repeat' (first | (first | assumption | with_reducible apply State.writeReg_logs) | dsimp only)
theorem execPolicyWrite_logs {p : Path} {sc : PolicyScope} {k : Fin 3} {w : Word} {s : State} {z : State} (h : execPolicyWrite p sc k w s = .next z) (h0 : LogsOk s.hubs) : LogsOk z.hubs := by
  cases h; (try unfold execPolicyWrite)
  (try dsimp only)
  repeat' (first | (first | assumption | with_reducible apply State.writeReg_logs) | dsimp only)
theorem execDeclWrite_logs {p : Path} {d : DieId} {r : DeclReg} {w : Word} {s : State} {z : State} (h : execDeclWrite p d r w s = .next z) (h0 : LogsOk s.hubs) : LogsOk z.hubs := by
  cases h; (try unfold execDeclWrite)
  (try dsimp only)
  repeat' (first | (first | assumption | with_reducible apply State.writeReg_logs) | dsimp only)
theorem execRoleWrite_logs {p : Path} {h : HubId} {w : Word} {s : State} {z : State} (h : execRoleWrite p h w s = .next z) (h0 : LogsOk s.hubs) : LogsOk z.hubs := by
  cases h; (try unfold execRoleWrite)
  (try dsimp only)
  repeat' (first | (first | assumption | with_reducible apply State.writeReg_logs) | dsimp only)
theorem execPortCfgWrite_logs {p : Path} {h : HubId} {port : PortId} {w : Word} {s : State} {z : State} (h : execPortCfgWrite p h port w s = .next z) (h0 : LogsOk s.hubs) : LogsOk z.hubs := by
  cases h; (try unfold execPortCfgWrite)
  (try dsimp only)
  repeat' (first | (first | assumption | with_reducible apply State.writeReg_logs) | dsimp only)
theorem execAcceptWrite_logs {p : Path} {h : HubId} {w : Word} {s : State} {z : State} (h : execAcceptWrite p h w s = .next z) (h0 : LogsOk s.hubs) : LogsOk z.hubs := by
  cases h; (try unfold execAcceptWrite)
  (try dsimp only)
  repeat' (first | (first | assumption | with_reducible apply State.writeReg_logs) | dsimp only)
theorem execAdmitWrite_logs {p : Path} {h : HubId} {w : Word} {s : State} {z : State} (h : execAdmitWrite p h w s = .next z) (h0 : LogsOk s.hubs) : LogsOk z.hubs := by
  cases h; (try unfold execAdmitWrite)
  (try dsimp only)
  repeat' (first | (first | assumption | with_reducible apply State.writeReg_logs) | dsimp only)
theorem execAlarmWrite_logs {p : Path} {h : HubId} {w : Word} {s : State} {z : State} (h : execAlarmWrite p h w s = .next z) (h0 : LogsOk s.hubs) : LogsOk z.hubs := by
  cases h; (try unfold execAlarmWrite)
  (try dsimp only)
  repeat' (first | (first | assumption | with_reducible apply State.writeReg_logs) | dsimp only)
theorem execWakeCfgWrite_logs {p : Path} {h : HubId} {w : Word} {s : State} {z : State} (h : execWakeCfgWrite p h w s = .next z) (h0 : LogsOk s.hubs) : LogsOk z.hubs := by
  cases h; (try unfold execWakeCfgWrite)
  (try dsimp only)
  repeat' (first | (first | assumption | with_reducible apply State.writeReg_logs) | dsimp only)
theorem execHublossTWrite_logs {p : Path} {d : DieId} {w : Word} {s : State} {z : State} (h : execHublossTWrite p d w s = .next z) (h0 : LogsOk s.hubs) : LogsOk z.hubs := by
  cases h; (try unfold execHublossTWrite)
  (try dsimp only)
  repeat' (first | (first | assumption | with_reducible apply State.writeReg_logs) | dsimp only)
theorem State.dieWrite_logs (s : State) (pg : PageRef) (off : ℕ) (w : Word) (h0 : LogsOk s.hubs) : LogsOk (State.dieWrite s pg off w).hubs := by
  unfold State.dieWrite
  repeat' (first | assumption | with_reducible apply State.offWrite_logs | with_reducible apply State.rejectAt_logs | with_reducible apply State.regPut_logs | split)
theorem State.dieRead_logs (s : State) (pg : PageRef) (off : ℕ) (h0 : LogsOk s.hubs) : LogsOk (State.dieRead s pg off).1.hubs := by
  unfold State.dieRead
  repeat' (first | assumption | with_reducible apply State.readReg_logs | split)
theorem State.dieAccess_logs (s : State) (d : DieId) (m : MgmtReq) (h0 : LogsOk s.hubs) : LogsOk (State.dieAccess s d m).hubs := by
  unfold State.dieAccess
  repeat' (first | assumption | with_reducible apply State.modDie_logs | with_reducible apply State.dieWrite_logs | with_reducible apply State.dieRead_logs | split)
theorem State.takeAccess_logs (s : State) (hh : HubId) (d : DieId) (m : MgmtReq) (h0 : LogsOk s.hubs) : LogsOk (State.takeAccess s hh d m).hubs := by
  unfold State.takeAccess
  repeat' (first | (first | assumption | with_reducible apply State.modDie_logs | with_reducible apply State.dieAccess_logs | with_reducible apply foldl_logs | with_reducible apply Logs.map | with_reducible apply Logs.vmap | with_reducible apply Hub.raise_ok | with_reducible apply Log.boxRecord_ok | (intro) | split) | dsimp only)
theorem execManagementRequestReceive_logs {hh : HubId} {d : DieId} {m : MgmtReq} {s : State} {z} (h : execManagementRequestReceive hh d m s = .next z) (h0 : LogsOk s.hubs) : LogsOk z.hubs := by
  cases h; (try dsimp only)
  repeat' (first | assumption | with_reducible apply State.access_logs | with_reducible apply State.commit_logs | with_reducible apply State.sendDown_logs | with_reducible apply State.takeAccess_logs | with_reducible apply foldl_logs | with_reducible apply Logs.map | with_reducible apply Logs.vmap | (intro) | split | dsimp only)
theorem execManagementResponseReceive_logs {hh : HubId} {d : DieId} {s : State} {z} (h : execManagementResponseReceive hh d s = .next z) (h0 : LogsOk s.hubs) : LogsOk z.hubs := by
  cases h; (try unfold execManagementResponseReceive)
  (try dsimp only)
  repeat' (first | (first | assumption | with_reducible apply State.sendUp_logs | with_reducible apply State.syncShadow_logs | with_reducible apply foldl_logs | with_reducible apply Logs.map | with_reducible apply Logs.vmap | with_reducible apply Hub.raise_ok | with_reducible apply Log.boxRecord_ok | (intro) | split) | dsimp only)
theorem State.bareReply_logs (s : State) (seq : ℕ) (keyId : ℕ) (x : Response) (dst : BitVec 128 × ℕ) (p : PortId) (h0 : LogsOk s.hubs) : LogsOk (State.bareReply s seq keyId x dst p).hubs := by
  exact h0
theorem State.openSpi_logs (s : State) (r : Req) (p : SessionOpenP) (h0 : LogsOk s.hubs) : LogsOk (State.openSpi s r p).hubs := by
  unfold State.openSpi
  repeat' (first | assumption | with_reducible apply State.respond_logs | split)
theorem State.openUdp_logs (s : State) (r : Req) (p : SessionOpenP) (h0 : LogsOk s.hubs) : LogsOk (State.openUdp s r p).hubs := by
  unfold State.openUdp
  repeat' (first | assumption | with_reducible apply State.respond_logs | split)
theorem execSessionOpen_logs {r : Req} {p : SessionOpenP} {s : State} {z : State} (h : execSessionOpen r p s = .next z) (h0 : LogsOk s.hubs) : LogsOk z.hubs := by
  cases h; (try unfold execSessionOpen)
  (try dsimp only)
  repeat' (first | (first | assumption | with_reducible apply State.commit_logs | with_reducible apply State.respond_logs | with_reducible apply State.openSpi_logs | with_reducible apply State.openUdp_logs | split) | dsimp only)
theorem State.closeSession_logs (s : State) (r : Req) (h0 : LogsOk s.hubs) : LogsOk (State.closeSession s r).hubs := by
  unfold State.closeSession
  repeat' (first | (first | assumption | with_reducible apply State.respond_logs | with_reducible apply State.endSession_logs | with_reducible apply State.hold_logs | with_reducible apply State.emit_logs | split) | dsimp only)
theorem execSessionClose_logs {r : Req} {s : State} {z : State} (h : execSessionClose r s = .next z) (h0 : LogsOk s.hubs) : LogsOk z.hubs := by
  cases h; (try unfold execSessionClose)
  (try dsimp only)
  repeat' (first | (first | assumption | with_reducible apply State.commit_logs | with_reducible apply State.respond_logs | with_reducible apply State.closeSession_logs | split) | dsimp only)
theorem execIdentify_logs {r : Req} {s : State} {z : State} (h : execIdentify r s = .next z) (h0 : LogsOk s.hubs) : LogsOk z.hubs := by
  cases h; (try unfold execIdentify)
  (try dsimp only)
  repeat' (first | (first | assumption | with_reducible apply State.command_logs | intro) | dsimp only)
theorem State.readAddr_logs (s : State) (addr : ℕ) (h0 : LogsOk s.hubs) : LogsOk (State.readAddr s addr).1.hubs := by
  unfold State.readAddr
  repeat' (first | (first | assumption | with_reducible apply State.readReg_logs | with_reducible apply State.tickFree_logs | with_reducible apply State.unheard_logs | with_reducible apply foldl_logs | with_reducible apply Logs.map | with_reducible apply Logs.vmap | with_reducible apply Hub.raise_ok | with_reducible apply Log.boxRecord_ok | (intro) | split) | dsimp only)
theorem State.readRun_logs (s : State) (x1 : List ℕ) (h0 : LogsOk s.hubs) : LogsOk (State.readRun s x1).1.hubs := by
  induction x1 generalizing s with
  | nil => exact h0
  | cons a l ih => unfold State.readRun; exact ih _ (State.readAddr_logs _ _ h0)
theorem execRegRead_logs {r : Req} {addr : Word} {n : BitVec 16} {s : State} {z : State} (h : execRegRead r addr n s = .next z) (h0 : LogsOk s.hubs) : LogsOk z.hubs := by
  cases h; dsimp only
  repeat' (first | assumption | with_reducible apply State.command_logs | with_reducible apply State.readRun_logs | split | intro)
theorem State.writeOne_logs (s : State) (p : Path) (addr : ℕ) (w : Word) (h0 : LogsOk s.hubs) : LogsOk (State.writeOne s p addr w).hubs := by
  unfold State.writeOne
  repeat' (first | assumption | with_reducible apply State.access_logs | with_reducible apply State.shadowUnit_logs | with_reducible apply State.regOp_logs | with_reducible apply foldl_logs | with_reducible apply Logs.map | with_reducible apply Logs.vmap | (intro) | split | dsimp only)
theorem State.writeRun_logs (s : State) (p : Path) (l : List (ℕ × Word)) (h0 : LogsOk s.hubs) : LogsOk (State.writeRun s p l).hubs := by
  unfold State.writeRun
  repeat' (first | assumption | with_reducible apply foldl_logs | with_reducible apply State.writeOne_logs | intro)
theorem execRegWrite_logs {r : Req} {addr : Word} {words : List Word} {s : State} {z : State} (h : execRegWrite r addr words s = .next z) (h0 : LogsOk s.hubs) : LogsOk z.hubs := by
  cases h; dsimp only
  repeat' (first | assumption | with_reducible apply State.commandLater_logs | with_reducible apply State.writeRun_logs | with_reducible apply State.ifServing_logs | split | intro)
theorem State.dropHeldBy_logs (s : State) (c : Chan) (a : ImageArg) (i : ChanImg) (h0 : LogsOk s.hubs) : LogsOk (State.dropHeldBy s c a i).hubs := h0
theorem State.configureCmd_logs (s : State) (w : Who) (c : Chan) (ch : BitVec 16) (n : ℕ) (apply : Bool) (x1 : ImageArg) (h0 : LogsOk s.hubs) : LogsOk (State.configureCmd s w c ch n apply x1).1.hubs := by
  unfold State.configureCmd
  repeat' (first | assumption | (apply State.configure_logs; assumption) | split)
theorem execChannelConfigure_logs {r : Req} {ch : BitVec 16} {set : BitVec 16} {flags : Byte} {img : ImageArg} {s : State} {z : State} (h : execChannelConfigure r ch set flags img s = .next z) (h0 : LogsOk s.hubs) : LogsOk z.hubs := by
  cases h; (try unfold execChannelConfigure)
  (try dsimp only)
  repeat' (first | (first | assumption | with_reducible apply State.command_logs | with_reducible apply State.configureCmd_logs | split | intro) | dsimp only)
theorem execChannelEnable_logs {r : Req} {ch : BitVec 16} {set : BitVec 16} {s : State} {z : State} (h : execChannelEnable r ch set s = .next z) (h0 : LogsOk s.hubs) : LogsOk z.hubs := by
  cases h; dsimp only
  repeat' (first | assumption | (apply State.configure_logs; assumption) | with_reducible apply State.command_logs | split | intro)
theorem State.planDisable_logs (s : State) (ch : Chan) (td : Tick) (h0 : LogsOk s.hubs) : LogsOk (State.planDisable s ch td).hubs := by
  exact h0
theorem execChannelDisable_logs {r : Req} {ch : BitVec 16} {s : State} {z : State} (h : execChannelDisable r ch s = .next z) (h0 : LogsOk s.hubs) : LogsOk z.hubs := by
  cases h; dsimp only
  repeat' (first | assumption | with_reducible apply State.command_logs | with_reducible apply State.planDisable_logs | split | intro)
theorem State.lowerLevels_logs (s : State) (ch : Chan) (h0 : LogsOk s.hubs) : LogsOk (State.lowerLevels s ch).hubs := by
  exact h0
theorem State.clearOne_logs (s : State) (resume : Bool) (ch : Chan) (h0 : LogsOk s.hubs) : LogsOk (State.clearOne s resume ch).hubs := by
  unfold State.clearOne
  repeat' (first | assumption | with_reducible apply State.syncShadow_logs | split)
theorem execFaultClear_logs {r : Req} {sc : Scope} {resume : Byte} {s : State} {z : State} (h : execFaultClear r sc resume s = .next z) (h0 : LogsOk s.hubs) : LogsOk z.hubs := by
  cases h; dsimp only
  repeat' (first | assumption | with_reducible apply foldl_logs | with_reducible apply State.command_logs | with_reducible apply State.clearOne_logs | split | intro)
theorem execScheduleSubmit_logs {r : Req} {entries : List SchedEntry} {octets : List Byte} {s : State} {z : State} (h : execScheduleSubmit r entries octets s = .next z) (h0 : LogsOk s.hubs) : LogsOk z.hubs := by
  cases h; (try unfold execScheduleSubmit)
  (try dsimp only)
  repeat' (first | (first | assumption | with_reducible apply State.command_logs | with_reducible apply State.submit_logs | split | intro) | dsimp only)
theorem State.queueCancel_logs (s : State) (r : Req) (es : List Entry) (unknown : ℕ) (h0 : LogsOk s.hubs) : LogsOk (State.queueCancel s r es unknown).hubs := by
  exact h0
theorem execScheduleCancelByTag_logs {r : Req} {tags : List Word} {s : State} {z : State} (h : execScheduleCancelByTag r tags s = .next z) (h0 : LogsOk s.hubs) : LogsOk z.hubs := by
  cases h; dsimp only
  repeat' (first | assumption | with_reducible apply State.commandLater_logs | with_reducible apply State.queueCancel_logs | split | intro)
theorem execScheduleCancelByRange_logs {r : Req} {ch : BitVec 16} {lo : Dword} {hi : Dword} {s : State} {z : State} (h : execScheduleCancelByRange r ch lo hi s = .next z) (h0 : LogsOk s.hubs) : LogsOk z.hubs := by
  cases h; (try unfold execScheduleCancelByRange)
  (try dsimp only)
  repeat' (first | (first | assumption | with_reducible apply State.commandLater_logs | with_reducible apply State.queueCancel_logs | split | intro) | dsimp only)
theorem execResultFetch_logs {r : Req} {w : Word} {s : State} {z : State} (h : execResultFetch r w s = .next z) (h0 : LogsOk s.hubs) : LogsOk z.hubs := by
  cases h; dsimp only
  repeat' (first | assumption | with_reducible apply State.modCore_logs | with_reducible apply State.command_logs | split | intro)
theorem execStreamOpen_logs {r : Req} {p : StreamOpenP} {s : State} {z : State} (h : execStreamOpen r p s = .next z) (h0 : LogsOk s.hubs) : LogsOk z.hubs := by
  cases h; dsimp only
  repeat' (first | assumption | with_reducible apply State.modCore_logs | with_reducible apply State.command_logs | split | intro)
theorem execStreamClose_logs {r : Req} {n : Byte} {s : State} {z : State} (h : execStreamClose r n s = .next z) (h0 : LogsOk s.hubs) : LogsOk z.hubs := by
  cases h; (try unfold execStreamClose)
  (try dsimp only)
  repeat' (first | (first | assumption | with_reducible apply State.command_logs | with_reducible apply State.resumeOn_logs | split | intro) | dsimp only)
theorem execFilterSync_logs {r : Req} {tr : Dword} {s : State} {z : State} (h : execFilterSync r tr s = .next z) (h0 : LogsOk s.hubs) : LogsOk z.hubs := by
  cases h; dsimp only
  repeat' (first | assumption | with_reducible apply State.command_logs | with_reducible apply State.addReset_logs | split | intro)
theorem State.startPoint_logs (s : State) (r : Req) (span : Bool) (p : CalP) (h0 : LogsOk s.hubs) : LogsOk (State.startPoint s r span p).1.hubs := by
  unfold State.startPoint
  repeat' (first | (first | assumption | split) | dsimp only)
theorem execCalibrateSystemZero_logs {r : Req} {p : CalP} {s : State} {z : State} (h : execCalibrateSystemZero r p s = .next z) (h0 : LogsOk s.hubs) : LogsOk z.hubs := by
  cases h; (try unfold execCalibrateSystemZero)
  (try dsimp only)
  repeat' (first | (first | assumption | with_reducible apply State.commandLater_logs | with_reducible apply State.startPoint_logs | intro) | dsimp only)
theorem execCalibrateSystemSpan_logs {r : Req} {p : CalP} {s : State} {z : State} (h : execCalibrateSystemSpan r p s = .next z) (h0 : LogsOk s.hubs) : LogsOk z.hubs := by
  cases h; (try unfold execCalibrateSystemSpan)
  (try dsimp only)
  repeat' (first | (first | assumption | with_reducible apply State.commandLater_logs | with_reducible apply State.startPoint_logs | intro) | dsimp only)
theorem State.storeSet_logs {s : State} {set : List (ℕ × ℤ × ℤ)} {readBack : Bool} {z : State} (h : State.storeSet s set readBack = some z) (h0 : LogsOk s.hubs) : LogsOk z.hubs := by
  unfold State.storeSet at h; (try dsimp only at h); repeat' split at h
  all_goals (try cases h)
  all_goals repeat' (first | (first | assumption | (apply State.takeRole_logs; assumption) | with_reducible apply State.modHub_logs | with_reducible apply State.putStore_logs | intro) | dsimp only)
theorem State.modCals_logs (s : State) (cs : List Chan) (f : Chan → Cal → Cal) (h0 : LogsOk s.hubs) : LogsOk (State.modCals s cs f).hubs := by
  unfold State.modCals
  repeat' (first | assumption | with_reducible apply State.modCh_logs | with_reducible apply foldl_logs | intro)
theorem State.commitStored_logs (s : State) (sc : Scope) (readBack : Bool) (f : Chan → ℤ × ℤ) (g : Chan → Cal → Cal) (h0 : LogsOk s.hubs) : LogsOk (State.commitStored s sc readBack f g).1.hubs := by
  unfold State.commitStored
  repeat' (first | assumption | (apply State.storeSet_logs; assumption) | with_reducible apply State.modCals_logs | split)
theorem execCalibrationCommitStore_logs {r : Req} {sc : Scope} {readBack : Bool} {s : State} {z : State} (h : execCalibrationCommitStore r sc readBack s = .next z) (h0 : LogsOk s.hubs) : LogsOk z.hubs := by
  cases h; (try unfold execCalibrationCommitStore)
  (try dsimp only)
  repeat' (first | (first | assumption | with_reducible apply State.command_logs | with_reducible apply State.commitStored_logs | intro) | dsimp only)
theorem execCalibrationCommitIdentity_logs {r : Req} {sc : Scope} {readBack : Bool} {s : State} {z : State} (h : execCalibrationCommitIdentity r sc readBack s = .next z) (h0 : LogsOk s.hubs) : LogsOk z.hubs := by
  cases h; (try unfold execCalibrationCommitIdentity)
  (try dsimp only)
  repeat' (first | (first | assumption | with_reducible apply State.command_logs | with_reducible apply State.commitStored_logs | intro) | dsimp only)
theorem execCalibrationCommitRevert_logs {r : Req} {sc : Scope} {s : State} {z : State} (h : execCalibrationCommitRevert r sc s = .next z) (h0 : LogsOk s.hubs) : LogsOk z.hubs := by
  cases h; dsimp only
  repeat' (first | assumption | with_reducible apply State.command_logs | with_reducible apply State.modCals_logs | split | intro)
theorem execLedgerQuery_logs {r : Req} {scope : Byte} {die : Byte} {s : State} {z : State} (h : execLedgerQuery r scope die s = .next z) (h0 : LogsOk s.hubs) : LogsOk z.hubs := by
  cases h; (try unfold execLedgerQuery)
  (try dsimp only)
  repeat' (first | (first | assumption | with_reducible apply State.command_logs | split | intro) | dsimp only)
theorem execLedgerPolicySet_logs {r : Req} {p : PolicyP} {s : State} {z : State} (h : execLedgerPolicySet r p s = .next z) (h0 : LogsOk s.hubs) : LogsOk z.hubs := by
  cases h; dsimp only
  repeat' (first | assumption | with_reducible apply State.command_logs | with_reducible apply State.policyPut_logs | split | intro)
theorem execEventLogRead_logs {r : Req} {src : Byte} {hub : Byte} {n : Byte} {seq : Word} {s : State} {z : State} (h : execEventLogRead r src hub n seq s = .next z) (h0 : LogsOk s.hubs) : LogsOk z.hubs := by
  cases h; dsimp only
  repeat' (first | assumption | with_reducible apply State.tickFree_logs | with_reducible apply State.command_logs | split | intro)
theorem execReturnPrepare_logs {r : Req} {conf : BitVec 16} {s : State} {z : State} (h : execReturnPrepare r conf s = .next z) (h0 : LogsOk s.hubs) : LogsOk z.hubs := by
  cases h; dsimp only
  repeat' (first | assumption | with_reducible apply Logs.map | with_reducible apply State.command_logs | with_reducible apply Log.prepare_ok | split | intro)
theorem execHubSwitchover_logs {r : Req} {s : State} {z : State} (h : execHubSwitchover r s = .next z) (h0 : LogsOk s.hubs) : LogsOk z.hubs := by
  cases h; (try unfold execHubSwitchover)
  (try dsimp only)
  repeat' (first | (first | assumption | with_reducible apply State.commandLater_logs | with_reducible apply State.startSwitchover_logs | split | intro) | dsimp only)
theorem execPoolAudit_logs {r : Req} {s : State} {z : State} (h : execPoolAudit r s = .next z) (h0 : LogsOk s.hubs) : LogsOk z.hubs := by
  cases h; dsimp only
  repeat' (first | assumption | with_reducible apply State.modCore_logs | with_reducible apply State.command_logs | split | intro)
theorem execKeyRotate_logs {r : Req} {keyId : Byte} {grace : BitVec 16} {nonce : List Byte} {stored : Bool} {s : State} {z : State} (h : execKeyRotate r keyId grace nonce stored s = .next z) (h0 : LogsOk s.hubs) : LogsOk z.hubs := by
  cases h; dsimp only
  repeat' (first | assumption | (apply State.takeRole_logs; assumption) | with_reducible apply State.modCore_logs | with_reducible apply State.tickFree_logs | with_reducible apply State.command_logs | with_reducible apply State.putStore_logs | split | intro)
theorem execAuxSequenceLoadTable_logs {r : Req} {d : Byte} {entries : List Word} {s : State} {z : State} (h : execAuxSequenceLoadTable r d entries s = .next z) (h0 : LogsOk s.hubs) : LogsOk z.hubs := by
  cases h; dsimp only
  repeat' (first | assumption | with_reducible apply State.command_logs | with_reducible apply State.modAux_logs | split | intro)
theorem execAuxSequenceLoadSlot_logs {r : Req} {d : Byte} {k : Byte} {priv : Word} {entries : List Word} {s : State} {z : State} (h : execAuxSequenceLoadSlot r d k priv entries s = .next z) (h0 : LogsOk s.hubs) : LogsOk z.hubs := by
  cases h; dsimp only
  repeat' (first | assumption | with_reducible apply State.command_logs | with_reducible apply State.modAux_logs | split | intro)
theorem State.enqueue_logs (s : State) (r : Req) (body : List Byte) (h0 : LogsOk s.hubs) : LogsOk (State.enqueue s r body).hubs := by
  unfold State.enqueue
  repeat' (first | assumption | with_reducible apply State.respond_logs | split)
theorem runCmd_logs {r : Req} {s : State} {x1 : ZcsCmd} {z : State} (h : runCmd r s x1 = .next z) (h0 : LogsOk s.hubs) : LogsOk z.hubs := by
  cases x1 <;> unfold runCmd at h
  · exact execSessionOpen_logs h h0
  · exact execSessionClose_logs h h0
  · exact execIdentify_logs h h0
  · exact execRegRead_logs h h0
  · exact execRegWrite_logs h h0
  · exact execChannelConfigure_logs h h0
  · exact execChannelEnable_logs h h0
  · exact execChannelDisable_logs h h0
  · exact execScheduleSubmit_logs h h0
  · exact execScheduleCancelByTag_logs h h0
  · exact execScheduleCancelByRange_logs h h0
  · exact execResultFetch_logs h h0
  · exact execStreamOpen_logs h h0
  · exact execStreamClose_logs h h0
  · exact execFilterSync_logs h h0
  · exact execCalibrateSystemZero_logs h h0
  · exact execCalibrateSystemSpan_logs h h0
  · exact execCalibrationCommitStore_logs h h0
  · exact execCalibrationCommitRevert_logs h h0
  · exact execCalibrationCommitIdentity_logs h h0
  · exact execLedgerQuery_logs h h0
  · exact execLedgerPolicySet_logs h h0
  · exact execPowerStateRequest_logs h h0
  · exact execWatchdogConfigure_logs h h0
  · exact execWatchdogServe_logs h h0
  · exact execEventLogRead_logs h h0
  · exact execFaultClear_logs h h0
  · exact execHubSwitchover_logs h h0
  · exact execKeyRotate_logs h h0
  · exact execPoolAudit_logs h h0
  · exact execReturnPrepare_logs h h0
  · exact execTimeStatusRead_logs h h0
  · exact execTimeStatusLoad_logs h h0
  · exact execTimeStatusWriteAccept_logs h h0
  · exact execAuxSequenceLoadTable_logs h h0
  · exact execAuxSequenceLoadSlot_logs h h0
theorem State.refuseBody_logs (s : State) (r : Req) (code : ℕ) (h0 : LogsOk s.hubs) : LogsOk (State.refuseBody s r code).hubs := by
  unfold State.refuseBody
  repeat' (first | assumption | with_reducible apply State.respond_logs)
theorem execCommandAccept_logs {s : State} {z : State} (h : execCommandAccept s = .next z) (h0 : LogsOk s.hubs) : LogsOk z.hubs := by
  unfold execCommandAccept at h; (try dsimp only at h); repeat' split at h
  all_goals (try cases h)
  all_goals repeat' (first | (first | assumption | (apply runCmd_logs; assumption) | with_reducible apply State.commit_logs | with_reducible apply State.refuseBody_logs) | dsimp only)
theorem State.authFails_logs (s : State) (h0 : LogsOk s.hubs) : LogsOk (State.authFails s).hubs := by
  unfold State.authFails
  repeat' (first | assumption | with_reducible apply State.raiseNow_logs | split)
theorem State.openRequest_logs (s : State) (p : PortId) (g : Datagram) (h0 : LogsOk s.hubs) : LogsOk (State.openRequest s p g).hubs := by
  unfold State.openRequest
  repeat' (first | assumption | split)
theorem State.heard_logs (s : State) (i : Fin 8) (h0 : LogsOk s.hubs) : LogsOk (State.heard s i).hubs := by
  unfold State.heard
  repeat' (first | assumption | split)
theorem State.dropSeq_logs (s : State) (h0 : LogsOk s.hubs) : LogsOk (State.dropSeq s).hubs := by
  exact h0
theorem State.acceptReq_logs (s : State) (i : Fin 8) (x : Session) (g : Datagram) (h0 : LogsOk s.hubs) : LogsOk (State.acceptReq s i x g).hubs := by
  unfold State.acceptReq
  repeat' (first | assumption | with_reducible apply State.enqueue_logs)
theorem State.followHeld_logs (i : Fin 8) (x1 : ℕ) (x2 : State) (h0 : LogsOk x2.hubs) : LogsOk (State.followHeld i x1 x2).hubs := by
  induction x1 generalizing x2 with
  | zero => exact h0
  | succ n ih =>
    unfold State.followHeld
    repeat' split
    all_goals first | exact h0 | (apply ih; exact State.acceptReq_logs _ _ _ _ h0)
theorem State.duplicate_logs (s : State) (w : Who) (c : List (ℕ × Response)) (seq keyId : ℕ) (h0 : LogsOk s.hubs) :
    LogsOk (State.duplicate s w c seq keyId).hubs := by
  unfold State.duplicate
  repeat' (first | assumption | with_reducible apply State.emit_logs | split)
theorem State.takeRequest_logs (s : State) (i : Fin 8) (x : Session) (g : Datagram) (h0 : LogsOk s.hubs) : LogsOk (State.takeRequest s i x g).hubs := by
  exact Logs.ite (State.followHeld_logs _ _ _ (State.acceptReq_logs _ _ _ _ h0)) (Logs.ite (Logs.ite h0 (State.modCore_logs h0)) (Logs.ite (State.duplicate_logs _ _ _ _ _ h0) (State.modCore_logs h0)))
theorem State.takeAxis_logs (s : State) (g : Datagram) (h0 : LogsOk s.hubs) : LogsOk (State.takeAxis s g).hubs := by
  unfold State.takeAxis
  repeat' (first | (first | assumption | with_reducible apply foldl_logs | with_reducible apply State.axisSample_logs | split | intro) | dsimp only)
theorem State.datagram_logs (s : State) (p : PortId) (g : Datagram) (h0 : LogsOk s.hubs) : LogsOk (State.datagram s p g).hubs := by
  unfold State.datagram
  repeat' (first | (first | assumption | with_reducible apply State.authFails_logs | with_reducible apply State.openRequest_logs | with_reducible apply State.heard_logs | with_reducible apply State.takeRequest_logs | with_reducible apply State.takeAxis_logs | split) | dsimp only)
theorem State.reached_logs (s : State) (p : PortId) (g : Datagram) (h0 : LogsOk s.hubs) : LogsOk (State.reached s p g).hubs := by
  unfold State.reached
  repeat' (first | assumption | with_reducible apply State.datagram_logs | split | dsimp only)
theorem State.relayIn_logs (s : State) (h0 : LogsOk s.hubs) : LogsOk (State.relayIn s).hubs := by
  unfold State.relayIn
  repeat' (first | assumption | with_reducible apply State.reached_logs | split)
theorem execPortRelayReceive_logs {p : PortId} {egress : Bool} {frame : List Byte} {s : State} {z} (h : execPortRelayReceive p egress frame s = .next z) (h0 : LogsOk s.hubs) : LogsOk z.hubs := by
  cases h; (try unfold execPortRelayReceive)
  (try dsimp only)
  repeat' (first | (first | assumption | with_reducible apply State.relayIn_logs | with_reducible apply State.sendStr_logs | with_reducible apply State.commit_logs | with_reducible apply State.modCore_logs | with_reducible apply foldl_logs | with_reducible apply Logs.map | with_reducible apply Logs.vmap | with_reducible apply Hub.raise_ok | with_reducible apply Log.boxRecord_ok | (intro) | split) | dsimp only)
theorem State.arrive_logs (s : State) (p : PortId) (g : Datagram) (h0 : LogsOk s.hubs) : LogsOk (State.arrive s p g).hubs := by
  unfold State.arrive
  repeat' (first | assumption | with_reducible apply State.reached_logs | with_reducible apply State.commit_logs | with_reducible apply State.datagram_logs | split)
theorem execDatagramReceive_logs {p : PortId} {dg : Datagram} {s : State} {z : State} (h : execDatagramReceive p dg s = .next z) (h0 : LogsOk s.hubs) : LogsOk z.hubs := by
  cases h; (try unfold execDatagramReceive)
  (try dsimp only)
  repeat' (first | (first | assumption | with_reducible apply State.arrive_logs) | dsimp only)
theorem execAxisSamplesDatagram_logs {p : PortId} {dg : Datagram} {s : State} {z : State} (h : execAxisSamplesDatagram p dg s = .next z) (h0 : LogsOk s.hubs) : LogsOk z.hubs := by
  cases h; (try unfold execAxisSamplesDatagram)
  (try dsimp only)
  repeat' (first | (first | assumption | with_reducible apply State.arrive_logs) | dsimp only)
theorem execHeldRequestTimeout_logs {w : Who} {seq : Word} {s : State} {z : State} (h : execHeldRequestTimeout w seq s = .next z) (h0 : LogsOk s.hubs) : LogsOk z.hubs := by
  cases h; dsimp only
  repeat' (first | assumption | split)
theorem State.ownRead_logs (s : State) (hh : HubId) (addr : ℕ) (h0 : LogsOk s.hubs) : LogsOk (State.ownRead s hh addr).1.hubs := by
  unfold State.ownRead
  repeat' (first | (first | assumption | with_reducible apply State.tickFree_logs | with_reducible apply State.readReg_logs | with_reducible apply foldl_logs | with_reducible apply Logs.map | with_reducible apply Logs.vmap | with_reducible apply Hub.raise_ok | with_reducible apply Log.boxRecord_ok | (intro) | split) | dsimp only)
theorem State.ownRun_logs (s : State) (h : HubId) (x1 : List ℕ) (h0 : LogsOk s.hubs) : LogsOk (State.ownRun s h x1).1.hubs := by
  induction x1 generalizing s with
  | nil => exact h0
  | cons a l ih => unfold State.ownRun; exact ih _ (State.ownRead_logs _ _ _ h0)
theorem execSpiRegisterRead_logs {h : HubId} {_quad : Bool} {addr : BitVec 24} {n : ℕ} {s : State} {z : State} (h : execSpiRegisterRead h _quad addr n s = .next z) (h0 : LogsOk s.hubs) : LogsOk z.hubs := by
  cases h; dsimp only
  repeat' (first | assumption | with_reducible apply State.shiftOut_logs | with_reducible apply State.readRun_logs | with_reducible apply State.ownRun_logs | split)
theorem execSpiRegisterWrite_logs {h : HubId} {_quad : Bool} {addr : BitVec 24} {words : List Word} {s : State} {z : State} (h : execSpiRegisterWrite h _quad addr words s = .next z) (h0 : LogsOk s.hubs) : LogsOk z.hubs := by
  cases h; (try dsimp only)
  repeat' (first | assumption | with_reducible apply State.commit_logs | with_reducible apply State.hold_logs | with_reducible apply State.shiftOut_logs | with_reducible apply State.writeRun_logs | with_reducible apply foldl_logs | with_reducible apply Logs.map | with_reducible apply Logs.vmap | (intro) | split | dsimp only)
theorem State.acceptTunnel_logs (s : State) (m : TunnelMsg) (h0 : LogsOk s.hubs) : LogsOk (State.acceptTunnel s m).hubs := by
  unfold State.acceptTunnel
  repeat' (first | assumption | with_reducible apply State.enqueue_logs | with_reducible apply State.refuseBody_logs | split | dsimp only)
theorem State.followTunnel_logs (n : ℕ) (s : State) (h0 : LogsOk s.hubs) : LogsOk (State.followTunnel n s).hubs := by
  induction n generalizing s with
  | zero => exact h0
  | succ n ih =>
    unfold State.followTunnel
    split
    · exact ih _ (State.acceptTunnel_logs _ _ h0)
    · exact h0
theorem State.takeTunnel_logs (s : State) (m : TunnelMsg) (h0 : LogsOk s.hubs) : LogsOk (State.takeTunnel s m).hubs := by
  unfold State.takeTunnel
  repeat' (first | assumption | with_reducible apply State.followTunnel_logs | with_reducible apply State.acceptTunnel_logs | with_reducible apply State.duplicate_logs | with_reducible apply State.dropSeq_logs | split | dsimp only)
theorem State.tunnelRequest_logs (s : State) (m : TunnelMsg) (h0 : LogsOk s.hubs) : LogsOk (State.tunnelRequest s m).hubs := by
  unfold State.tunnelRequest
  repeat' (first | assumption | with_reducible apply State.enqueue_logs | with_reducible apply State.emit_logs | with_reducible apply State.takeTunnel_logs | split)
theorem execSpiTunnelWrite_logs {h : HubId} {m : TunnelMsg} {s : State} {z : State} (h : execSpiTunnelWrite h m s = .next z) (h0 : LogsOk s.hubs) : LogsOk z.hubs := by
  cases h; dsimp only
  repeat' (first | assumption | with_reducible apply State.tunnelRequest_logs | with_reducible apply State.commit_logs | with_reducible apply State.shiftOut_logs | with_reducible apply State.enqueue_logs | with_reducible apply State.refuseBody_logs | split)
theorem execSpiTunnelRead_logs {h : HubId} {s : State} {z : State} (h : execSpiTunnelRead h s = .next z) (h0 : LogsOk s.hubs) : LogsOk z.hubs := by
  cases h; dsimp only
  repeat' (first | assumption | with_reducible apply State.modCore_logs | with_reducible apply State.commit_logs | with_reducible apply State.shiftOut_logs | with_reducible apply State.spiEvents_logs | split)

end Sys2Proof.Machine
end

