-- ==== Sys2Proof/Laws/Ops.lean ====
section
/-! SUPPORT. What the shared operations can do, once each: pools, the event log, register writes that reach their register, frames to a die
and the answers to commands. -/

namespace Sys2Proof
open Machine

/-! ### Instants -/

/-- The next multiple lies at the value or less than one multiple above it. -/
theorem nextMultiple_bounds (m x : Nat) (h : 0 < m) : nextMultiple m x % m = 0 ∧ x ≤ nextMultiple m x ∧ nextMultiple m x < x + m := by
  have h1 := Nat.div_add_mod (x + m - 1) m
  have h2 := Nat.mod_lt (x + m - 1) h
  simp only [nextMultiple, ceilDiv]
  refine ⟨Nat.mul_mod_left _ _, ?_, ?_⟩ <;> rw [Nat.mul_comm] <;> omega
/-- The instants that follow an acceptance are multiples of 10 µs, 20 µs to 30 µs away (R93, R154, R197, R330). -/
theorem tenAfterTwenty_bounds (x : Nat) :
    tenAfterTwenty x % (10 * us) = 0 ∧ x + 20 * us ≤ tenAfterTwenty x ∧ tenAfterTwenty x < x + 30 * us := by
  obtain ⟨a, b, c⟩ := nextMultiple_bounds (10 * us) (x + 20 * us) (by decide)
  refine ⟨a, b, ?_⟩
  have : x + 20 * us + 10 * us = x + 30 * us := by rw [Nat.add_assoc, ← Nat.add_mul]
  rw [← this]; exact c

/-! ### Pools (R27) -/

@[simp] theorem Pool.reserve_total (p : Pool) (n : Nat) : (p.reserve n).total = p.total := by
  simp only [Pool.reserve, Pool.total]; omega
@[simp] theorem Pool.begin_total (p : Pool) (n : Nat) : (p.begin n).total = p.total := by
  simp only [Pool.begin, Pool.total]; omega
@[simp] theorem Pool.cancel_total (p : Pool) (n : Nat) : (p.cancel n).total = p.total := by
  simp only [Pool.cancel, Pool.total]; omega
@[simp] theorem Pool.finish_total (p : Pool) (n : Nat) : (p.finish n).total = p.total := by
  simp only [Pool.finish, Pool.total]; omega
@[simp] theorem Pool.take_total (p : Pool) (n : Nat) : (p.take n).total = p.total := by
  simp only [Pool.take, Pool.total]; omega

/-! ### The event log (R300) -/

/-- A staged event is counted in RAISED and in one of LOGGED and COUNTED. -/
theorem Log.stage_whole (l : Log) (r : LogRec) (h : l.raised = l.logged + l.counted) :
    (l.stage r).raised = (l.stage r).logged + (l.stage r).counted := by
  by_cases hl : l.staged.length < 64
  · simp only [Log.stage, hl, dite_true, h]; omega
  · simp only [Log.stage, hl, dite_false, h]; omega
/-- The staging queue never holds more than 64 records. -/
theorem Log.stage_staged (l : Log) (r : LogRec) (h : l.staged.length ≤ 64) : (l.stage r).staged.length ≤ 64 := by
  by_cases hl : l.staged.length < 64
  · simp only [Log.stage, hl, dite_true, List.length_append, List.length_cons, List.length_nil]; omega
  · simp only [Log.stage, hl, dite_false]; exact h

/-! ### Register writes -/

/-- A field that lies whole in the defined bits is what was written. -/
theorem fld_cut (w : Word) (m lo n : Nat) (hn : lo + n ≤ 32) (h : ∀ i < n, m.testBit (lo + i) = true) :
    fld (cut w m) lo n = fld w lo n := by
  apply Nat.eq_of_testBit_eq
  intro i
  simp only [fld, cut, BitVec.toNat_and, BitVec.toNat_ofNat, Nat.testBit_mod_two_pow, Nat.testBit_shiftRight, Nat.testBit_and]
  by_cases hi : i < n
  · simp [hi, h i hi]; omega
  · simp [hi]

/-- A write of a channel's register acts as the register says, and the shadow of the channel's unit follows (R112). -/
theorem regOp_chan (s : State) (p : Path) (ch : Chan) (off : Nat) (w : Word) (h : 0x40 ≤ off) :
    s.regOp p (chanPage ch) off w = (s.chanOp p ch off w).shadowUnit ch := by
  have h1 : 1 ≤ (chPage ch.c).val ∧ (chPage ch.c).val ≤ 16 := by simp only [chPage]; omega
  have h2 : (⟨(chPage ch.c).val - 1, by omega⟩ : ChanId) = ch.c := Fin.ext (by simp [chPage])
  simp only [State.regOp, State.regPut, chanPage, Nat.not_lt.2 h, if_false, h, h1, and_self, dite_true, h2]

/-- A write that reaches its register does what the register's rules say, and is mirrored. -/
theorem writeReg_of_reaches {s : State} {p : Path} {pg : PageRef} {off : Nat} (h : Reaches s p pg off) (w : Word) :
    s.writeReg p pg off w = State.commit s (s.regOp p pg off w) := by
  obtain ⟨h1, h2, h3, h4, h5, h6, h7, h8⟩ := h
  simp [State.writeReg, State.accessed, State.access, h1, h2, h3, h4, h5, h6, h7, h8]

/-! ### Commands -/

/-- What a command that runs answers. -/
theorem command_of_runs {s : State} {r : Req} {cmd : Nat} (h : Runs s r cmd) (f : State → State × Response) :
    s.command r cmd f = State.commit s ((f s).1.respond r (f s).2) := by
  simp [State.command, h.1, h.2]
/-- What a command that runs answers, where its response may come later. -/
theorem commandLater_of_runs {s : State} {r : Req} {cmd : Nat} (h : Runs s r cmd) (f : State → State × Option Response) :
    s.commandLater r cmd f = State.commit s (match (f s).2 with | some x => (f s).1.respond r x | none => (f s).1) := by
  simp only [State.commandLater, h.1, h.2, if_true]
  rcases f s with ⟨t, _ | x⟩ <;> rfl

/-- An action held back while the hub mirrors is the last one held. -/
theorem held_last (s u : State) (a : HeldBack) (h : u.mirroring = true) :
    ∃ n, (State.commit s (u.hold a)).mirror.held.getLast? = some (n, a) := by
  refine ⟨u.mirror.committed + 1, ?_⟩
  simp only [State.hold, h, if_true, State.commit]
  split <;> simp
/-- An action that waits for its unit changes only what is held. -/
theorem hold_of_mirroring (u : State) (a : HeldBack) (h : u.mirroring = true) :
    u.hold a = { u with mirror := { u.mirror with held := u.mirror.held ++ [(u.mirror.committed + 1, a)] } } := by
  simp only [State.hold, h, if_true]
/-- A message to a UDP session is the last that has left. -/
theorem emit_last (s u : State) (m : OutMsg) :
    match m.who with
    | .udp .. => (State.commit s (u.emit m)).net.sent.getLast? = some m
    | .spi => (State.commit s (u.emit m)).core.spi.tunnel.getLast? = some m := by
  unfold State.emit
  cases m.who with
  | udp i e => exact List.getLast?_concat ..
  | spi => exact List.getLast?_concat ..

/-- Where the message of a response stands once it is given. -/
theorem answered_respond (s u : State) (r : Req) (x : Response) : Answered (State.commit s (u.respond r x)) r x := by
  refine ⟨u.message r.who 2 r.seq.toNat r.keyId.toNat false (respBody x), rfl, rfl, rfl, rfl, ?_⟩
  by_cases hm : (u.modCore (·.answered r.who r.seq.toNat x)).mirroring = true
  · left; simp only [State.respond, hm, if_true]; exact held_last _ _ _ hm
  · right; simp only [State.respond, hm, Bool.false_eq_true, if_false]
    exact emit_last s _ (u.message r.who 2 r.seq.toNat r.keyId.toNat false (respBody x))

/-- What a session's books change. -/
theorem answered_only (c : Core) (w : Who) (seq : Nat) (x : Response) :
    c.answered w seq x = { c with sess := (c.answered w seq x).sess, spi := (c.answered w seq x).spi } := by
  cases w <;> rfl
/-- A message that leaves goes to the ports, or into the tunnel. -/
theorem emit_only (s : State) (m : OutMsg) : OnlyAnswer s (s.emit m) := by
  unfold OnlyAnswer State.emit
  split <;> rfl
/-- A response changes only what an answer may change. -/
theorem respond_only (s : State) (r : Req) (x : Response) : OnlyAnswer s (s.respond r x) := by
  by_cases hm : (s.modCore (·.answered r.who r.seq.toNat x)).mirroring = true
  · simp only [State.respond, hm, if_true, hold_of_mirroring _ _ hm, OnlyAnswer]
    simp only [State.modCore]
    rw [answered_only s.core]
  · simp only [State.respond, hm]
    obtain ⟨who, seq, key⟩ := r
    cases who <;> rfl

@[simp] theorem respond_variant (s : State) (r : Req) (x : Response) : (s.respond r x).variant = s.variant := by
  rw [respond_only s r x]
@[simp] theorem respond_ident (s : State) (r : Req) (x : Response) : (s.respond r x).ident = s.ident := by
  rw [respond_only s r x]
@[simp] theorem respond_clk (s : State) (r : Req) (x : Response) : (s.respond r x).clk = s.clk := by
  rw [respond_only s r x]
@[simp] theorem respond_active (s : State) (r : Req) (x : Response) : (s.respond r x).active = s.active := by
  rw [respond_only s r x]
@[simp] theorem respond_copy (s : State) (r : Req) (x : Response) : (s.respond r x).copy = s.copy := by
  rw [respond_only s r x]
@[simp] theorem respond_hubs (s : State) (r : Req) (x : Response) : (s.respond r x).hubs = s.hubs := by
  rw [respond_only s r x]
@[simp] theorem respond_dies (s : State) (r : Req) (x : Response) : (s.respond r x).dies = s.dies := by
  rw [respond_only s r x]
@[simp] theorem respond_sync (s : State) (r : Req) (x : Response) : (s.respond r x).sync = s.sync := by
  rw [respond_only s r x]
@[simp] theorem respond_power (s : State) (r : Req) (x : Response) : (s.respond r x).power = s.power := by
  rw [respond_only s r x]
@[simp] theorem respond_spiOut (s : State) (r : Req) (x : Response) : (s.respond r x).spiOut = s.spiOut := by
  rw [respond_only s r x]
@[simp] theorem respond_free (s : State) (r : Req) (x : Response) : (s.respond r x).free = s.free := by
  rw [respond_only s r x]
@[simp] theorem respond_pending (s : State) (r : Req) (x : Response) : (s.respond r x).pending = s.pending := by
  rw [respond_only s r x]
@[simp] theorem respond_core_time (s : State) (r : Req) (x : Response) : (s.respond r x).core.time = s.core.time := by
  rw [respond_only s r x]
@[simp] theorem respond_core_sched (s : State) (r : Req) (x : Response) : (s.respond r x).core.sched = s.core.sched := by
  rw [respond_only s r x]
@[simp] theorem respond_core_ledger (s : State) (r : Req) (x : Response) : (s.respond r x).core.ledger = s.core.ledger := by
  rw [respond_only s r x]
@[simp] theorem respond_core_pwr (s : State) (r : Req) (x : Response) : (s.respond r x).core.pwr = s.core.pwr := by
  rw [respond_only s r x]
@[simp] theorem respond_core_wd (s : State) (r : Req) (x : Response) : (s.respond r x).core.wd = s.core.wd := by
  rw [respond_only s r x]
@[simp] theorem respond_core_mains (s : State) (r : Req) (x : Response) : (s.respond r x).core.mains = s.core.mains := by
  rw [respond_only s r x]
@[simp] theorem respond_core_axes (s : State) (r : Req) (x : Response) : (s.respond r x).core.axes = s.core.axes := by
  rw [respond_only s r x]
@[simp] theorem respond_core_logr (s : State) (r : Req) (x : Response) : (s.respond r x).core.logr = s.core.logr := by
  rw [respond_only s r x]
@[simp] theorem respond_core_redun (s : State) (r : Req) (x : Response) : (s.respond r x).core.redun = s.core.redun := by
  rw [respond_only s r x]
@[simp] theorem respond_core_net (s : State) (r : Req) (x : Response) : (s.respond r x).core.net = s.core.net := by
  rw [respond_only s r x]
@[simp] theorem respond_core_lastReset (s : State) (r : Req) (x : Response) : (s.respond r x).core.lastReset = s.core.lastReset := by
  rw [respond_only s r x]
@[simp] theorem respond_core_resets (s : State) (r : Req) (x : Response) : (s.respond r x).core.resets = s.core.resets := by
  rw [respond_only s r x]
@[simp] theorem respond_core_slots (s : State) (r : Req) (x : Response) : (s.respond r x).core.slots = s.core.slots := by
  rw [respond_only s r x]
@[simp] theorem respond_core_store (s : State) (r : Req) (x : Response) : (s.respond r x).core.store = s.core.store := by
  rw [respond_only s r x]
@[simp] theorem respond_core_entries (s : State) (r : Req) (x : Response) : (s.respond r x).core.entries = s.core.entries := by
  rw [respond_only s r x]
@[simp] theorem respond_core_nextId (s : State) (r : Req) (x : Response) : (s.respond r x).core.nextId = s.core.nextId := by
  rw [respond_only s r x]
@[simp] theorem respond_core_defer (s : State) (r : Req) (x : Response) : (s.respond r x).core.defer = s.core.defer := by
  rw [respond_only s r x]
@[simp] theorem respond_core_records (s : State) (r : Req) (x : Response) : (s.respond r x).core.records = s.core.records := by
  rw [respond_only s r x]
@[simp] theorem respond_core_plan (s : State) (r : Req) (x : Response) : (s.respond r x).core.plan = s.core.plan := by
  rw [respond_only s r x]
@[simp] theorem respond_core_cmdq (s : State) (r : Req) (x : Response) : (s.respond r x).core.cmdq = s.core.cmdq := by
  rw [respond_only s r x]
@[simp] theorem respond_core_epoch (s : State) (r : Req) (x : Response) : (s.respond r x).core.epoch = s.core.epoch := by
  rw [respond_only s r x]
@[simp] theorem respond_core_streams (s : State) (r : Req) (x : Response) : (s.respond r x).core.streams = s.core.streams := by
  rw [respond_only s r x]
@[simp] theorem respond_core_sets (s : State) (r : Req) (x : Response) : (s.respond r x).core.sets = s.core.sets := by
  rw [respond_only s r x]
@[simp] theorem respond_core_shadow (s : State) (r : Req) (x : Response) : (s.respond r x).core.shadow = s.core.shadow := by
  rw [respond_only s r x]
@[simp] theorem respond_core_levels (s : State) (r : Req) (x : Response) : (s.respond r x).core.levels = s.core.levels := by
  rw [respond_only s r x]
@[simp] theorem respond_core_cancels (s : State) (r : Req) (x : Response) : (s.respond r x).core.cancels = s.core.cancels := by
  rw [respond_only s r x]
@[simp] theorem respond_core_disables (s : State) (r : Req) (x : Response) : (s.respond r x).core.disables = s.core.disables := by
  rw [respond_only s r x]
@[simp] theorem respond_core_audit (s : State) (r : Req) (x : Response) : (s.respond r x).core.audit = s.core.audit := by
  rw [respond_only s r x]
@[simp] theorem respond_core_keys (s : State) (r : Req) (x : Response) : (s.respond r x).core.keys = s.core.keys := by
  rw [respond_only s r x]
@[simp] theorem respond_core_taken (s : State) (r : Req) (x : Response) : (s.respond r x).core.taken = s.core.taken := by
  rw [respond_only s r x]
@[simp] theorem respond_core_grace (s : State) (r : Req) (x : Response) : (s.respond r x).core.grace = s.core.grace := by
  rw [respond_only s r x]
/-- A response enters the books of its own session, and no other one's. -/
theorem respond_session (s : State) (r : Req) (x : Response) (j : Fin 8) :
    (s.respond r x).core.session j =
      match r.who with
      | .udp i e => if i = j then (s.core.session j).map fun y => if y.epoch = e then y.answered r.seq.toNat x else y else s.core.session j
      | .spi => s.core.session j := by
  have h : (s.respond r x).core.sess = (s.core.answered r.who r.seq.toNat x).sess := by
    simp only [State.respond]
    split
    · next hc => rw [hold_of_mirroring _ _ hc]; rfl
    · simp only [State.emit]; split <;> rfl
  obtain ⟨who, seq, key⟩ := r
  simp only [Core.session, h]
  cases who with
  | udp i e => simp only [Core.answered, Core.modSess, vmod_at, Fin.ext_iff]
  | spi => rfl

/-! ### What the active hub sends to the dies (R13, R21), and a frame to a die (R20 to R22) -/

/-- Each die by its lane and its lease: unreached it stays, foreign it discards and counts, else it changes. -/
theorem sendTo_die (s : State) (p : DieId → Bool) (f : DieId → Die → Die) (d : DieId) :
    (s.sendTo p f).die d =
      if !p d || !s.linked s.active d then s.die d
      else if (s.die d).holder = some s.active then f d (s.die d)
      else { s.die d with foreignDisc := satInc (s.die d).foreignDisc } := by
  simp only [State.sendTo, State.die, vmap, Vector.getElem_ofFn, Fin.eta]
  rfl
theorem overLanes_die (s : State) (f : DieId → Die → Die) (d : DieId) :
    (s.overLanes f).die d =
      if s.linked s.active d = false then s.die d
      else if (s.die d).holder = some s.active then f d (s.die d)
      else { s.die d with foreignDisc := satInc (s.die d).foreignDisc } := by
  simp [State.overLanes, sendTo_die]
@[simp] theorem sendTo_core (s : State) (p : DieId → Bool) (f : DieId → Die → Die) : (s.sendTo p f).core = s.core := rfl
@[simp] theorem sendTo_hubs (s : State) (p : DieId → Bool) (f : DieId → Die → Die) : (s.sendTo p f).hubs = s.hubs := rfl
@[simp] theorem sendTo_clk (s : State) (p : DieId → Bool) (f : DieId → Die → Die) : (s.sendTo p f).clk = s.clk := rfl
@[simp] theorem overLanes_core (s : State) (f : DieId → Die → Die) : (s.overLanes f).core = s.core := rfl
@[simp] theorem overLanes_hubs (s : State) (f : DieId → Die → Die) : (s.overLanes f).hubs = s.hubs := rfl
@[simp] theorem overLanes_clk (s : State) (f : DieId → Die → Die) : (s.overLanes f).clk = s.clk := rfl

/-- All that sending a frame to a die can do: nothing, its effect in order, or its discard out of sequence. -/
theorem sendDown_cases (s : State) (h : HubId) (d : DieId) (x : DownItem) (p : Dword) (f : State → State) :
    (s.sendDown h d x p f = s ∧
      (s.carries h d x = false ∨ (s.lane h d).down.canSend = false ∨ (s.lane h d).mayGo s.clk.elapsed x = false)) ∨
    (s.sendDown h d x p f = f (s.bufferedDown h d x p) ∧ s.carries h d x = true ∧ (s.lane h d).down.canSend = true ∧
      (s.lane h d).mayGo s.clk.elapsed x = true ∧ (s.lane h d).down.inSeq = true) ∨
    (s.sendDown h d x p f = s.strayDown h d x p ∧ s.carries h d x = true ∧ (s.lane h d).down.canSend = true ∧
      (s.lane h d).mayGo s.clk.elapsed x = true ∧ (s.lane h d).down.inSeq = false) := by
  unfold State.sendDown
  cases s.carries h d x <;> cases (s.lane h d).down.canSend <;> cases (s.lane h d).mayGo s.clk.elapsed x <;>
    cases (s.lane h d).down.inSeq <;> simp

/-- A diagnostic of a channel that stands alone changes that channel alone (R239). -/
theorem modDiag_alone (d : Die) (c : ChanId) (f : Diag → Diag) (h : (d.chan c).group = none) :
    d.modDiag c f = d.modCh c fun k => { k with diag := f k.diag } := by
  simp [Die.modDiag, Die.together, h]

/-- A new frame to a die is taken from where it waited, when no kept frame goes first (R20, R22). -/
theorem leftDown_lease (l : Lane) (m : LeaseMsg) (t : Nat) (h : l.down.resend = []) (g : l.again = []) :
    l.leftDown (.lease m) t = { l with mgmtDownAt := t, lease := none } := by
  simp [Lane.leftDown, h, g]
theorem leftDown_promo (l : Lane) (id n t : Nat) (h : l.down.resend = []) (g : l.again = []) :
    l.leftDown (.promo id n) t = { l with promo := if n ≤ 1 then l.promo.tail else (id, n - 1) :: l.promo.tail } := by
  simp [Lane.leftDown, h, g]

/-! ### Suspended streams resume (R368) -/

/-- All that resuming can do: streams of the active hub lose their suspension, and nothing else changes. -/
theorem resumeOn_streams (s : State) :
    ∃ l, s.resumeOn = s.modCore (fun c => { c with streams := l }) ∧
      ∀ y ∈ l, ∃ x ∈ s.core.streams, y = x ∨ y = { x with suspended := false } := by
  unfold State.resumeOn
  generalize streamOrder s.core.streams = ns
  suffices H : ∀ t : State, (∃ l, t = s.modCore (fun c => { c with streams := l }) ∧
      ∀ y ∈ l, ∃ x ∈ s.core.streams, y = x ∨ y = { x with suspended := false }) →
      ∃ l, ns.foldl (fun t n =>
        match t.core.streams.find? fun x => x.n == n with
        | some x =>
          let l := setSuspended t.core.streams n false
          if x.isOpen && x.suspended && t.streamsFit l x then t.modCore fun c => { c with streams := l } else t
        | none => t) t = s.modCore (fun c => { c with streams := l }) ∧
        ∀ y ∈ l, ∃ x ∈ s.core.streams, y = x ∨ y = { x with suspended := false } from
    H s ⟨s.core.streams, rfl, fun y h => ⟨y, h, .inl rfl⟩⟩
  induction ns with
  | nil => exact fun t h => h
  | cons n ns ih =>
    intro t h
    refine ih _ ?_
    obtain ⟨l, rfl, hl⟩ := h
    dsimp only
    split
    · split
      · refine ⟨_, rfl, fun y hy => ?_⟩
        obtain ⟨z, hz, rfl⟩ := List.mem_map.1 hy
        obtain ⟨x, hx, e⟩ := hl z hz
        refine ⟨x, hx, ?_⟩
        rcases e with rfl | rfl <;> split <;> simp
      · exact ⟨l, rfl, hl⟩
    · exact ⟨l, rfl, hl⟩

end Sys2Proof
end

