-- ==== Sys2Proof/Laws/Pools.lean ====
section
/-! SUPPORT. Every operation and every command keeps the identities of the schedule slots, the result store and the
near-term queues (R27): one lemma for each function that answers a state, a die, or the active hub's state. -/

set_option linter.unusedVariables false
set_option linter.unusedTactic false
set_option linter.unreachableTactic false
set_option linter.unusedSimpArgs false

namespace Sys2Proof.Machine
open Sys2Proof

/-- The schedule slots and the result store of one copy of the active hub's state keep their sizes (R27). -/
structure CoreOk (a b : Pool) : Prop where
  slots : a.total = 65536
  store : b.total = 1048576
/-- A die's near-term queue keeps its size (R27). -/
structure DieOk (p : Pool) : Prop where
  ntq : p.total = 256
/-- Every pool keeps its size: the active hub's, its copies', and the dies'. -/
structure PoolsOk (c cp : Core) (w : List MUnit) (r : Option MUnit) (ds : Vector Die 6) : Prop where
  core : CoreOk c.slots c.store
  copy : CoreOk cp.slots cp.store
  wire : ∀ u ∈ w, CoreOk u.core.slots u.core.store
  rx : ∀ u ∈ r, CoreOk u.core.slots u.core.store
  dies : ∀ i : DieId, DieOk (ds[i.val]).ntqPool
theorem CoreOk.reserve {a b n} (h : CoreOk a b) : CoreOk (a.reserve n) b := ⟨by simp [h.slots], h.store⟩
theorem CoreOk.begin {a b n} (h : CoreOk a b) : CoreOk (a.begin n) b := ⟨by simp [h.slots], h.store⟩
theorem CoreOk.cancel {a b n} (h : CoreOk a b) : CoreOk (a.cancel n) b := ⟨by simp [h.slots], h.store⟩
theorem CoreOk.finish {a b n} (h : CoreOk a b) : CoreOk (a.finish n) b := ⟨by simp [h.slots], h.store⟩
theorem CoreOk.sreserve {a b n} (h : CoreOk a b) : CoreOk a (b.reserve n) := ⟨h.slots, by simp [h.store]⟩
theorem CoreOk.sbegin {a b n} (h : CoreOk a b) : CoreOk a (b.begin n) := ⟨h.slots, by simp [h.store]⟩
theorem CoreOk.scancel {a b n} (h : CoreOk a b) : CoreOk a (b.cancel n) := ⟨h.slots, by simp [h.store]⟩
theorem CoreOk.sfinish {a b n} (h : CoreOk a b) : CoreOk a (b.finish n) := ⟨h.slots, by simp [h.store]⟩
theorem CoreOk.ite {p : Prop} [Decidable p] {a a' b b'} (h : CoreOk a b) (h' : CoreOk a' b') :
    CoreOk (if p then a else a') (if p then b else b') := by split <;> assumption
theorem CoreOk.ite1 {p : Prop} [Decidable p] {a a' b} (h : CoreOk a b) (h' : CoreOk a' b) :
    CoreOk (if p then a else a') b := by split <;> assumption
theorem DieOk.reserve {a n} (h : DieOk a) : DieOk (a.reserve n) := ⟨by simp [h.ntq]⟩
theorem DieOk.begin {a n} (h : DieOk a) : DieOk (a.begin n) := ⟨by simp [h.ntq]⟩
theorem DieOk.cancel {a n} (h : DieOk a) : DieOk (a.cancel n) := ⟨by simp [h.ntq]⟩
theorem DieOk.finish {a n} (h : DieOk a) : DieOk (a.finish n) := ⟨by simp [h.ntq]⟩
theorem DieOk.ite {p : Prop} [Decidable p] {a b : Die} (h : DieOk a.ntqPool) (h' : DieOk b.ntqPool) :
    DieOk (if p then a else b).ntqPool := by split <;> assumption
theorem PoolsOk.setCore {c c' cp w r ds} (h : PoolsOk c cp w r ds) (g : CoreOk c.slots c.store → CoreOk c'.slots c'.store) : PoolsOk c' cp w r ds :=
  ⟨g h.core, h.copy, h.wire, h.rx, h.dies⟩
theorem PoolsOk.setCopy {c c' cp w r ds} (h : PoolsOk c cp w r ds) (g : CoreOk c'.slots c'.store) : PoolsOk c c' w r ds :=
  ⟨h.core, g, h.wire, h.rx, h.dies⟩
theorem PoolsOk.setDies {c cp w r ds ds'} (h : PoolsOk c cp w r ds) (g : ∀ i : DieId, DieOk (ds'[i.val]).ntqPool) : PoolsOk c cp w r ds' :=
  ⟨h.core, h.copy, h.wire, h.rx, g⟩
theorem PoolsOk.noWire {c cp w r ds} (h : PoolsOk c cp w r ds) : PoolsOk c cp [] none ds :=
  ⟨h.core, h.copy, fun _ hu => (List.not_mem_nil hu).elim, fun _ hu => (Option.not_mem_none _ hu).elim, h.dies⟩
theorem PoolsOk.swap {c cp w r ds} (h : PoolsOk c cp w r ds) : PoolsOk cp c [] none ds :=
  ⟨h.copy, h.core, fun _ hu => (List.not_mem_nil hu).elim, fun _ hu => (Option.not_mem_none _ hu).elim, h.dies⟩
theorem PoolsOk.tail {c cp w r ds} (h : PoolsOk c cp w r ds) : PoolsOk c cp w.tail none ds :=
  ⟨h.core, h.copy, fun u hu => h.wire u (List.mem_of_mem_tail hu), fun _ hu => (Option.not_mem_none _ hu).elim, h.dies⟩
theorem PoolsOk.fresh {c ds} (h : CoreOk c.slots c.store) (g : ∀ i : DieId, DieOk (ds[i.val]).ntqPool) :
    PoolsOk c c [] none ds :=
  ⟨h, h, fun _ hu => (List.not_mem_nil hu).elim, fun _ hu => (Option.not_mem_none _ hu).elim, g⟩
theorem PoolsOk.map {c cp w r} {ds : Vector Die 6} {f : Die → Die} (h : PoolsOk c cp w r ds) (g : ∀ x, DieOk x.ntqPool → DieOk (f x).ntqPool) :
    PoolsOk c cp w r (ds.map f) := h.setDies fun i => by rw [Vector.getElem_map]; exact g _ (h.dies i)
theorem PoolsOk.vmap {c cp w r} {ds : Vector Die 6} {f : Fin 6 → Die → Die} (h : PoolsOk c cp w r ds)
    (g : ∀ i x, DieOk x.ntqPool → DieOk (f i x).ntqPool) : PoolsOk c cp w r (vmap ds f) :=
  h.setDies fun i => by simp only [Sys2Proof.vmap, Vector.getElem_ofFn]; exact g _ _ (h.dies _)
theorem foldl_pools {α : Type} {f : State → α → State} {l : List α} {s : State}
    (h : PoolsOk s.core s.copy s.mirror.wire s.mirror.rx s.dies)
    (g : ∀ s a, PoolsOk s.core s.copy s.mirror.wire s.mirror.rx s.dies →
      PoolsOk (f s a).core (f s a).copy (f s a).mirror.wire (f s a).mirror.rx (f s a).dies) :
    PoolsOk (l.foldl f s).core (l.foldl f s).copy (l.foldl f s).mirror.wire (l.foldl f s).mirror.rx (l.foldl f s).dies := by
  induction l generalizing s with
  | nil => exact h
  | cons a l ih => rw [List.foldl_cons]; exact ih (g _ _ h)
theorem Die.fold_ok {α : Type} {f : Die → α → Die} {l : List α} {d : Die} (h : DieOk d.ntqPool)
    (g : ∀ d a, DieOk d.ntqPool → DieOk (f d a).ntqPool) : DieOk (l.foldl f d).ntqPool := by
  induction l generalizing d with
  | nil => exact h
  | cons a l ih => rw [List.foldl_cons]; exact ih (g _ _ h)
theorem Core.fold_ok {α : Type} {f : Core → α → Core} {l : List α} {d : Core} (h : CoreOk d.slots d.store)
    (g : ∀ d a, CoreOk d.slots d.store → CoreOk (f d a).slots (f d a).store) : CoreOk (l.foldl f d).slots (l.foldl f d).store := by
  induction l generalizing d with
  | nil => exact h
  | cons a l ih => rw [List.foldl_cons]; exact ih (g _ _ h)
theorem PoolsOk.ite {c : Prop} [Decidable c] {a b : State} (ha : PoolsOk a.core a.copy a.mirror.wire a.mirror.rx a.dies)
    (hb : PoolsOk b.core b.copy b.mirror.wire b.mirror.rx b.dies) :
    PoolsOk (if c then a else b).core (if c then a else b).copy (if c then a else b).mirror.wire (if c then a else b).mirror.rx
      (if c then a else b).dies := by
  split <;> assumption
theorem of_check_pools {ε : Type} {p : Prop} [Decidable p] {x : ε} {y : Except ε State} {z : State} {g : Prop}
    (h : (if p then .error x else y) = .ok z) (k : y = .ok z → g) : g := by
  split at h
  · injection h
  · exact k h
theorem Die.reset_ok {b} : DieOk (Die.reset b).ntqPool := ⟨rfl⟩
theorem Core.reset_ok : CoreOk Core.reset.slots Core.reset.store := ⟨rfl, rfl⟩
theorem State.noteQuality_pools (old : State) (s : State) (h0 : PoolsOk s.core s.copy s.mirror.wire s.mirror.rx s.dies) : PoolsOk (State.noteQuality old s).core (State.noteQuality old s).copy (State.noteQuality old s).mirror.wire (State.noteQuality old s).mirror.rx (State.noteQuality old s).dies := by
  unfold State.noteQuality
  repeat' (first | (first | assumption | with_reducible apply foldl_pools | with_reducible apply Die.fold_ok | with_reducible apply Die.modCh_ok | with_reducible apply PoolsOk.map | with_reducible apply PoolsOk.vmap | with_reducible apply Core.fold_ok | (intro) | split) | dsimp only)
theorem State.modHub_pools {s : State} {d f} (h : PoolsOk s.core s.copy s.mirror.wire s.mirror.rx s.dies) :
    PoolsOk (s.modHub d f).core (s.modHub d f).copy (s.modHub d f).mirror.wire (s.modHub d f).mirror.rx (s.modHub d f).dies := h
theorem State.modDie_pools {s : State} {d f} (h : PoolsOk s.core s.copy s.mirror.wire s.mirror.rx s.dies)
    (g : ∀ x, DieOk x.ntqPool → DieOk (f x).ntqPool) :
    PoolsOk (s.modDie d f).core (s.modDie d f).copy (s.modDie d f).mirror.wire (s.modDie d f).mirror.rx (s.modDie d f).dies := by
  refine PoolsOk.setDies h fun k => ?_
  by_cases e : d = k
  · subst e; simp only [State.modDie, vmod]; simpa using g _ (h.dies d)
  · have := h.dies k; simpa [State.modDie, vmod, Fin.val_inj, e, Vector.getElem_set] using this
theorem State.modCore_pools {s : State} {f} (h : PoolsOk s.core s.copy s.mirror.wire s.mirror.rx s.dies)
    (g : ∀ x, CoreOk x.slots x.store → CoreOk (f x).slots (f x).store) :
    PoolsOk (s.modCore f).core (s.modCore f).copy (s.modCore f).mirror.wire (s.modCore f).mirror.rx (s.modCore f).dies :=
  h.setCore (g _)
theorem Die.modCh_ok {d : Die} {c f} (h : DieOk d.ntqPool) : DieOk (d.modCh c f).ntqPool := h
theorem State.modCh_pools {s : State} {d f} (h : PoolsOk s.core s.copy s.mirror.wire s.mirror.rx s.dies) :
    PoolsOk (s.modCh d f).core (s.modCh d f).copy (s.modCh d f).mirror.wire (s.modCh d f).mirror.rx (s.modCh d f).dies :=
  State.modDie_pools h fun _ h => h
theorem State.modLane_pools {s : State} {i d f} (h : PoolsOk s.core s.copy s.mirror.wire s.mirror.rx s.dies) :
    PoolsOk (s.modLane i d f).core (s.modLane i d f).copy (s.modLane i d f).mirror.wire (s.modLane i d f).mirror.rx (s.modLane i d f).dies := h
theorem State.tickFree_pools {s : State} (h : PoolsOk s.core s.copy s.mirror.wire s.mirror.rx s.dies) :
    PoolsOk s.tickFree.core s.tickFree.copy s.tickFree.mirror.wire s.tickFree.mirror.rx s.tickFree.dies := h
theorem State.skipFree_pools (s : State) (n : ℕ) (h0 : PoolsOk s.core s.copy s.mirror.wire s.mirror.rx s.dies) : PoolsOk (State.skipFree s n).core (State.skipFree s n).copy (State.skipFree s n).mirror.wire (State.skipFree s n).mirror.rx (State.skipFree s n).dies := by
  exact h0
theorem State.sendTo_pools (s : State) (p : DieId → Bool) (f : DieId → Die → Die) (g : ∀ i x, DieOk x.ntqPool → DieOk (f i x).ntqPool) (h0 : PoolsOk s.core s.copy s.mirror.wire s.mirror.rx s.dies) :
    PoolsOk (State.sendTo s p f).core (State.sendTo s p f).copy (State.sendTo s p f).mirror.wire (State.sendTo s p f).mirror.rx (State.sendTo s p f).dies := by
  unfold State.sendTo
  dsimp only
  apply PoolsOk.vmap h0
  intro i x h
  split
  · exact h
  · split
    · exact g _ _ h
    · exact h
theorem State.overLanes_pools (s : State) (f : DieId → Die → Die) (g : ∀ i x, DieOk x.ntqPool → DieOk (f i x).ntqPool) (h0 : PoolsOk s.core s.copy s.mirror.wire s.mirror.rx s.dies) :
    PoolsOk (State.overLanes s f).core (State.overLanes s f).copy (State.overLanes s f).mirror.wire (State.overLanes s f).mirror.rx (State.overLanes s f).dies := by
  exact State.sendTo_pools _ _ _ g h0
theorem Die.foreign_ok (d : Die) (h0 : DieOk d.ntqPool) :
    DieOk (Die.foreign d).ntqPool := by
  exact h0
theorem Die.push_ok (d : Die) (l : List LaneItem) (h0 : DieOk d.ntqPool) : DieOk (Die.push d l).ntqPool := by
  exact h0
theorem Die.modHdr_ok (d : Die) (r : Fin 23) (f : PageHdr → PageHdr) (h0 : DieOk d.ntqPool) :
    DieOk (Die.modHdr d r f).ntqPool := by
  exact h0
theorem State.modHdr_pools (s : State) (p : PageRef) (f : PageHdr → PageHdr) (h0 : PoolsOk s.core s.copy s.mirror.wire s.mirror.rx s.dies) :
    PoolsOk (State.modHdr s p f).core (State.modHdr s p f).copy (State.modHdr s p f).mirror.wire (State.modHdr s p f).mirror.rx (State.modHdr s p f).dies := by
  unfold State.modHdr
  repeat' (first | assumption | with_reducible apply State.modDie_pools | with_reducible apply Die.modHdr_ok | (intro _) | split)
theorem Die.raise_ok (d : Die) (e : Ev) (r : Fin 23) (rec : LogRec) (h0 : DieOk d.ntqPool) :
    DieOk (Die.raise d e r rec).ntqPool := by
  unfold Die.raise
  repeat' (first | assumption | split)
theorem Die.raiseHub_ok (d : Die) (rec : LogRec) (h0 : DieOk d.ntqPool) :
    DieOk (Die.raiseHub d rec).ntqPool := by
  exact h0
theorem Die.raiseCh_ok (d : Die) (di : DieId) (c : ChanId) (e : Ev) (time : ℕ) (q : ℕ) (st : Bool) (data : List Byte) (h0 : DieOk d.ntqPool) :
    DieOk (Die.raiseCh d di c e time q st data).ntqPool := by
  unfold Die.raiseCh
  repeat' (first | assumption | with_reducible apply Die.raise_ok)
theorem State.raise_pools (s : State) (h : HubId) (e : Ev) (time : ℕ) (st : Bool) (data : List Byte) (h0 : PoolsOk s.core s.copy s.mirror.wire s.mirror.rx s.dies) :
    PoolsOk (State.raise s h e time st data).core (State.raise s h e time st data).copy (State.raise s h e time st data).mirror.wire (State.raise s h e time st data).mirror.rx (State.raise s h e time st data).dies := by
  exact h0
theorem State.raiseNow_pools (s : State) (e : Ev) (data : List Byte) (h0 : PoolsOk s.core s.copy s.mirror.wire s.mirror.rx s.dies) :
    PoolsOk (State.raiseNow s e data).core (State.raiseNow s e data).copy (State.raiseNow s e data).mirror.wire (State.raiseNow s e data).mirror.rx (State.raiseNow s e data).dies := by
  exact h0
theorem State.raiseSrc_pools (s : State) (e : Ev) (time : ℕ) (source : ℕ) (st : Bool) (data : List Byte) (owner : Option Who) (h0 : PoolsOk s.core s.copy s.mirror.wire s.mirror.rx s.dies) :
    PoolsOk (State.raiseSrc s e time source st data owner).core (State.raiseSrc s e time source st data owner).copy (State.raiseSrc s e time source st data owner).mirror.wire (State.raiseSrc s e time source st data owner).mirror.rx (State.raiseSrc s e time source st data owner).dies := by
  exact h0
theorem State.rejectAt_pools (s : State) (p : PageRef) (cause : ℕ) (path : Path) (offset : ℕ) (h0 : PoolsOk s.core s.copy s.mirror.wire s.mirror.rx s.dies) :
    PoolsOk (State.rejectAt s p cause path offset).core (State.rejectAt s p cause path offset).copy (State.rejectAt s p cause path offset).mirror.wire (State.rejectAt s p cause path offset).mirror.rx (State.rejectAt s p cause path offset).dies := by
  unfold State.rejectAt
  repeat' (first | assumption | with_reducible apply State.modHdr_pools)
theorem State.commit_pools {s t : State} (h : PoolsOk t.core t.copy t.mirror.wire t.mirror.rx t.dies) :
    PoolsOk (State.commit s t).core (State.commit s t).copy (State.commit s t).mirror.wire (State.commit s t).mirror.rx (State.commit s t).dies := by
  unfold State.commit; dsimp only; split
  · refine ⟨h.core, h.copy, fun u hu => ?_, h.rx, h.dies⟩
    rcases List.mem_append.1 hu with hu | hu
    · exact h.wire u hu
    · rw [List.mem_singleton] at hu; subst hu; exact h.core
  · exact h
theorem State.hold_pools (s : State) (x1 : HeldBack) (h0 : PoolsOk s.core s.copy s.mirror.wire s.mirror.rx s.dies) :
    PoolsOk (State.hold s x1).core (State.hold s x1).copy (State.hold s x1).mirror.wire (State.hold s x1).mirror.rx (State.hold s x1).dies := by
  unfold State.hold
  repeat' (first | assumption | split)
theorem State.emit_pools (s : State) (m : OutMsg) (h0 : PoolsOk s.core s.copy s.mirror.wire s.mirror.rx s.dies) :
    PoolsOk (State.emit s m).core (State.emit s m).copy (State.emit s m).mirror.wire (State.emit s m).mirror.rx (State.emit s m).dies := by
  unfold State.emit
  repeat' (first | assumption | with_reducible apply State.modCore_pools | (intro _) | split)
theorem Core.modSess_ok (c : Core) (i : Fin 8) (f : Session → Session) (h0 : CoreOk c.slots c.store) :
    CoreOk (Core.modSess c i f).slots (Core.modSess c i f).store := by
  exact h0
theorem Core.answered_ok (c : Core) (w : Who) (seq : ℕ) (x : Response) (h0 : CoreOk c.slots c.store) :
    CoreOk (c.answered w seq x).slots (c.answered w seq x).store := by
  cases w <;> exact h0
theorem Core.asked_ok (c : Core) (w : Who) (seq : ℕ) (h0 : CoreOk c.slots c.store) :
    CoreOk (c.asked w seq).slots (c.asked w seq).store := by
  cases w <;> exact h0
theorem State.respond_pools (s : State) (r : Req) (x : Response) (h0 : PoolsOk s.core s.copy s.mirror.wire s.mirror.rx s.dies) :
    PoolsOk (State.respond s r x).core (State.respond s r x).copy (State.respond s r x).mirror.wire (State.respond s r x).mirror.rx (State.respond s r x).dies := by
  unfold State.respond
  repeat' (first | (first | assumption | with_reducible apply Core.answered_ok | with_reducible apply State.modCore_pools | with_reducible apply State.hold_pools | with_reducible apply State.emit_pools | with_reducible apply Core.modSess_ok | (intro _) | split) | dsimp only)
theorem State.command_pools (s : State) (r : Req) (cmd : ℕ) (f : State → State × Response) (hf : ∀ x, PoolsOk x.core x.copy x.mirror.wire x.mirror.rx x.dies → PoolsOk (f x).1.core (f x).1.copy (f x).1.mirror.wire (f x).1.mirror.rx (f x).1.dies) (h0 : PoolsOk s.core s.copy s.mirror.wire s.mirror.rx s.dies) :
    PoolsOk (State.command s r cmd f).core (State.command s r cmd f).copy (State.command s r cmd f).mirror.wire (State.command s r cmd f).mirror.rx (State.command s r cmd f).dies := by
  unfold State.command
  split
  · split
    · exact State.commit_pools (State.respond_pools _ _ _ h0)
    · exact State.commit_pools (State.respond_pools _ _ _ (hf _ h0))
  · exact h0
theorem State.commandLater_pools (s : State) (r : Req) (cmd : ℕ) (f : State → State × Option Response) (hf : ∀ x, PoolsOk x.core x.copy x.mirror.wire x.mirror.rx x.dies → PoolsOk (f x).1.core (f x).1.copy (f x).1.mirror.wire (f x).1.mirror.rx (f x).1.dies) (h0 : PoolsOk s.core s.copy s.mirror.wire s.mirror.rx s.dies) :
    PoolsOk (State.commandLater s r cmd f).core (State.commandLater s r cmd f).copy (State.commandLater s r cmd f).mirror.wire (State.commandLater s r cmd f).mirror.rx (State.commandLater s r cmd f).dies := by
  unfold State.commandLater
  split
  · split
    · exact State.commit_pools (State.respond_pools _ _ _ h0)
    · have h := hf s h0
      split <;> (next e => rw [e] at h; first | exact State.commit_pools (State.respond_pools _ _ _ h) | exact State.commit_pools h)
  · exact h0
theorem Die.tick_ok (d : Die) (n : ℤ) (elapsed : ℕ) (h0 : DieOk d.ntqPool) : DieOk (Die.tick d n elapsed).ntqPool := by
  unfold Die.tick
  repeat' (first | (first | assumption | with_reducible apply foldl_pools | with_reducible apply Die.fold_ok | with_reducible apply Die.modCh_ok | with_reducible apply PoolsOk.map | with_reducible apply PoolsOk.vmap | with_reducible apply Core.fold_ok | (intro) | split) | dsimp only)
theorem Die.nextCycle_ok (d : Die) (h0 : DieOk d.ntqPool) : DieOk (Die.nextCycle d).ntqPool := by
  exact h0
theorem State.tick_pools (s : State) (h0 : PoolsOk s.core s.copy s.mirror.wire s.mirror.rx s.dies) : PoolsOk (State.tick s).core (State.tick s).copy (State.tick s).mirror.wire (State.tick s).mirror.rx (State.tick s).dies := by
  unfold State.tick
  repeat' (first | (first | assumption | with_reducible apply Die.nextCycle_ok | with_reducible apply Die.tick_ok | with_reducible apply foldl_pools | with_reducible apply Die.fold_ok | with_reducible apply Die.modCh_ok | with_reducible apply PoolsOk.map | with_reducible apply PoolsOk.vmap | with_reducible apply Core.fold_ok | (intro) | split) | dsimp only)
theorem State.settlePools_pools (s : State) (d : DieId) (h0 : PoolsOk s.core s.copy s.mirror.wire s.mirror.rx s.dies) :
    PoolsOk (State.settlePools s d).core (State.settlePools s d).copy (State.settlePools s d).mirror.wire (State.settlePools s d).mirror.rx (State.settlePools s d).dies := by
  have h := State.modDie_pools (s := s) (d := d) (f := fun k => { k with led := { k.led with
    pool := k.poolNow d s.core.plan s.clk.now
    eRes := min k.led.level (energyAt s.core.plan d (s.clk.now / (10 * us))) } }) h0 fun _ h => h
  exact ⟨h.core, h.copy, h.wire, h.rx, h.dies⟩
theorem State.settlePackage_pools (s : State) (h0 : PoolsOk s.core s.copy s.mirror.wire s.mirror.rx s.dies) :
    PoolsOk (State.settlePackage s).core (State.settlePackage s).copy (State.settlePackage s).mirror.wire (State.settlePackage s).mirror.rx (State.settlePackage s).dies := by
  exact ⟨h0.core, h0.copy, h0.wire, h0.rx, h0.dies⟩
theorem Core.modEntry_ok (c : Core) (id : ℕ) (f : Entry → Entry) (h0 : CoreOk c.slots c.store) :
    CoreOk (Core.modEntry c id f).slots (Core.modEntry c id f).store := by
  exact h0
theorem Core.modRecord_ok (c : Core) (id : ℕ) (f : Record → Record) (h0 : CoreOk c.slots c.store) :
    CoreOk (Core.modRecord c id f).slots (Core.modRecord c id f).store := by
  exact h0
theorem Core.closeRecord_ok (c : Core) (id : ℕ) (o : EntryOutcome) (elapsed : ℕ) (h0 : CoreOk c.slots c.store) :
    CoreOk (Core.closeRecord c id o elapsed).slots (Core.closeRecord c id o elapsed).store := by
  unfold Core.closeRecord
  repeat' (first | assumption | with_reducible apply CoreOk.sbegin | with_reducible apply CoreOk.scancel | with_reducible apply CoreOk.sfinish | split)
theorem Core.retire_ok (c : Core) (e : Entry) (o : EntryOutcome) (elapsed : ℕ) (h0 : CoreOk c.slots c.store) :
    CoreOk (Core.retire c e o elapsed).slots (Core.retire c e o elapsed).store := by
  unfold Core.retire
  repeat' (first | assumption | with_reducible apply Core.closeRecord_ok | with_reducible apply CoreOk.cancel | with_reducible apply CoreOk.finish | split)
theorem State.retire_pools (s : State) (id : ℕ) (o : EntryOutcome) (h0 : PoolsOk s.core s.copy s.mirror.wire s.mirror.rx s.dies) :
    PoolsOk (State.retire s id o).core (State.retire s id o).copy (State.retire s id o).mirror.wire (State.retire s id o).mirror.rx (State.retire s id o).dies := by
  unfold State.retire
  repeat' (first | assumption | with_reducible apply State.modCore_pools | with_reducible apply State.modDie_pools | with_reducible apply State.raiseSrc_pools | with_reducible apply Core.retire_ok | (intro _) | split)
theorem State.outcome_pools (s : State) (id : ℕ) (o : EntryOutcome) (h0 : PoolsOk s.core s.copy s.mirror.wire s.mirror.rx s.dies) :
    PoolsOk (State.outcome s id o).core (State.outcome s id o).copy (State.outcome s id o).mirror.wire (State.outcome s id o).mirror.rx (State.outcome s id o).dies := by
  unfold State.outcome
  repeat' (first | assumption | with_reducible apply State.modCore_pools | with_reducible apply State.hold_pools | with_reducible apply State.retire_pools | with_reducible apply Core.modEntry_ok | (intro _) | split)
theorem State.outcomes_pools (s : State) (ids : List ℕ) (o : EntryOutcome) (h0 : PoolsOk s.core s.copy s.mirror.wire s.mirror.rx s.dies) :
    PoolsOk (State.outcomes s ids o).core (State.outcomes s ids o).copy (State.outcomes s ids o).mirror.wire (State.outcomes s ids o).mirror.rx (State.outcomes s ids o).dies := by
  unfold State.outcomes
  repeat' (first | assumption | with_reducible apply foldl_pools | with_reducible apply State.outcome_pools | (intro _))
theorem Die.close_ok (d : Die) (p : Entry → Bool) (o : EntryOutcome) (h0 : DieOk d.ntqPool) :
    DieOk (Die.close d p o).ntqPool := by
  unfold Die.close
  repeat' (first | assumption | with_reducible apply DieOk.finish)
theorem Die.modEntry_ok (d : Die) (id : ℕ) (f : Entry → Entry) (h0 : DieOk d.ntqPool) :
    DieOk (Die.modEntry d id f).ntqPool := by
  exact h0
theorem Die.finish_ok (d : Die) (id : ℕ) (o : EntryOutcome) (h0 : DieOk d.ntqPool) :
    DieOk (Die.finish d id o).ntqPool := by
  unfold Die.finish
  repeat' (first | assumption | with_reducible apply Die.close_ok)
theorem Core.writeRecord_ok (c : Core) (id : ℕ) (words : List (ℕ × Word)) (done : ℕ) (time0 : Tick) (st : ℕ) (h0 : CoreOk c.slots c.store) :
    CoreOk (Core.writeRecord c id words done time0 st).slots (Core.writeRecord c id words done time0 st).store := by
  unfold Core.writeRecord
  repeat' (first | assumption | with_reducible apply CoreOk.sbegin | split)
theorem Core.freeRecord_ok (c : Core) (id : ℕ) (h0 : CoreOk c.slots c.store) :
    CoreOk (Core.freeRecord c id).slots (Core.freeRecord c id).store := by
  unfold Core.freeRecord
  repeat' (first | assumption | with_reducible apply CoreOk.sfinish | split)
theorem Core.delivered_ok (c : Core) (id : ℕ) (sent : ℕ) (last : Bool) (h0 : CoreOk c.slots c.store) :
    CoreOk (Core.delivered c id sent last).slots (Core.delivered c id sent last).store := by
  unfold Core.delivered
  repeat' (first | (first | assumption | with_reducible apply Core.freeRecord_ok | split) | dsimp only)
theorem State.syncShadow_pools (s : State) (d : DieId) (cs : List ChanId) (h0 : PoolsOk s.core s.copy s.mirror.wire s.mirror.rx s.dies) :
    PoolsOk (State.syncShadow s d cs).core (State.syncShadow s d cs).copy (State.syncShadow s d cs).mirror.wire (State.syncShadow s d cs).mirror.rx (State.syncShadow s d cs).dies := by
  unfold State.syncShadow
  repeat' (first | assumption | with_reducible apply State.modCore_pools | (intro _) | split)
theorem State.shadowUnit_pools (s : State) (ch : Chan) (h0 : PoolsOk s.core s.copy s.mirror.wire s.mirror.rx s.dies) : PoolsOk (State.shadowUnit s ch).core (State.shadowUnit s ch).copy (State.shadowUnit s ch).mirror.wire (State.shadowUnit s ch).mirror.rx (State.shadowUnit s ch).dies := State.syncShadow_pools _ _ _ h0
theorem Die.restartCh_ok (d : Die) (c : ChanId) (f : Channel → Channel) (tq : Tick) (h0 : DieOk d.ntqPool) : DieOk (Die.restartCh d c f tq).ntqPool := by
  exact h0
theorem Die.refilter_ok (d : Die) (c : ChanId) (f : Channel → Channel) (tf : Tick) (h0 : DieOk d.ntqPool) : DieOk (Die.refilter d c f tf).ntqPool := by
  unfold Die.refilter
  repeat' (first | assumption | with_reducible apply Die.modCh_ok | with_reducible apply Die.restartCh_ok | with_reducible apply State.modCh_pools | with_reducible apply State.modDie_pools | with_reducible apply State.modCore_pools | with_reducible apply State.modHub_pools | with_reducible apply foldl_pools | with_reducible apply Die.fold_ok | with_reducible apply Core.fold_ok | with_reducible apply Die.modCh_ok | with_reducible apply PoolsOk.map | with_reducible apply PoolsOk.vmap | (intro) | split | dsimp only)
theorem Die.restartFrom_ok (d : Die) (c : ChanId) (t : Option Tick) (tq : Tick) (h0 : DieOk d.ntqPool) : DieOk (Die.restartFrom d c t tq).ntqPool := by
  unfold Die.restartFrom
  repeat' (first | (first | assumption | with_reducible apply Die.modCh_ok | with_reducible apply foldl_pools | with_reducible apply Die.fold_ok | with_reducible apply Die.modCh_ok | with_reducible apply PoolsOk.map | with_reducible apply PoolsOk.vmap | with_reducible apply Core.fold_ok | (intro) | split) | dsimp only)
theorem Die.syncLevel_ok (d : Die) (c : ChanId) (t : Tick) (h0 : DieOk d.ntqPool) : DieOk (Die.syncLevel d c t).ntqPool := by
  unfold Die.syncLevel
  repeat' (first | (first | assumption | with_reducible apply Die.modCh_ok | with_reducible apply foldl_pools | with_reducible apply Die.fold_ok | with_reducible apply Die.modCh_ok | with_reducible apply PoolsOk.map | with_reducible apply PoolsOk.vmap | with_reducible apply Core.fold_ok | (intro) | split) | dsimp only)
theorem Die.stopFsk_ok (d : Die) (c : ChanId) (cut : Bool) (st : ℕ) (o : EntryOutcome) (h0 : DieOk d.ntqPool) : DieOk (Die.stopFsk d c cut st o).ntqPool := by
  unfold Die.stopFsk
  repeat' (first | (first | assumption | with_reducible apply Die.push_ok | with_reducible apply Die.finish_ok | with_reducible apply Die.modCh_ok | with_reducible apply foldl_pools | with_reducible apply Die.fold_ok | with_reducible apply Die.modCh_ok | with_reducible apply PoolsOk.map | with_reducible apply PoolsOk.vmap | with_reducible apply Core.fold_ok | (intro) | split) | dsimp only)
theorem Die.evCh_ok (d : Die) (ch : Chan) (q : ℕ) (e : Ev) (st : Bool) (data : List Byte) (h0 : DieOk d.ntqPool) :
    DieOk (Die.evCh d ch q e st data).ntqPool := by
  unfold Die.evCh
  repeat' (first | assumption | with_reducible apply Die.raiseCh_ok)
theorem Die.modDiag_ok (d : Die) (c : ChanId) (f : Diag → Diag) (h0 : DieOk d.ntqPool) : DieOk (Die.modDiag d c f).ntqPool := by
  unfold Die.modDiag
  exact Die.fold_ok h0 fun _ _ h => h
theorem Die.evUnit_ok (d : Die) (ch : Chan) (q : ℕ) (e : Ev) (st : Bool) (h0 : DieOk d.ntqPool) : DieOk (Die.evUnit d ch q e st).ntqPool := by
  unfold Die.evUnit
  repeat' (first | assumption | with_reducible apply Die.evCh_ok | with_reducible apply State.modDie_pools | with_reducible apply State.modCore_pools | with_reducible apply State.modHub_pools | with_reducible apply foldl_pools | with_reducible apply Die.fold_ok | with_reducible apply Core.fold_ok | with_reducible apply Die.modCh_ok | with_reducible apply PoolsOk.map | with_reducible apply PoolsOk.vmap | (intro) | split | dsimp only)
theorem Die.backfeedLeft_ok (old : Die) (d : Die) (di : DieId) (q : ℕ) (cs : List ChanId) (h0 : DieOk d.ntqPool) : DieOk (Die.backfeedLeft old d di q cs).ntqPool := by
  exact Die.fold_ok h0 fun x c h => DieOk.ite (Die.evUnit_ok _ _ _ _ _ (Die.modDiag_ok _ _ _ h)) h
theorem Die.reSafe_ok (d : Die) (di : DieId) (q : ℕ) (c : ChanId) (h0 : DieOk d.ntqPool) : DieOk (Die.reSafe d di q c).ntqPool := by
  unfold Die.reSafe
  repeat' (first | assumption | with_reducible apply Die.backfeedLeft_ok | with_reducible apply Die.modCh_ok | with_reducible apply State.modCh_pools | with_reducible apply State.modDie_pools | with_reducible apply State.modCore_pools | with_reducible apply State.modHub_pools | with_reducible apply foldl_pools | with_reducible apply Die.fold_ok | with_reducible apply Core.fold_ok | with_reducible apply Die.modCh_ok | with_reducible apply PoolsOk.map | with_reducible apply PoolsOk.vmap | (intro) | split | dsimp only)
theorem Die.raiseMask_ok (d : Die) (di : DieId) (cs : List ChanId) (e : Ev) (t : ℕ) (q : ℕ) (st : Bool) (data : List Byte) (h0 : DieOk d.ntqPool) :
    DieOk (Die.raiseMask d di cs e t q st data).ntqPool := by
  unfold Die.raiseMask
  repeat' (first | assumption | with_reducible apply Die.modHdr_ok | with_reducible apply Die.raiseCh_ok | with_reducible apply Die.fold_ok | (intro _) | split)
theorem Die.missOut_ok (d : Die) (c : ChanId) (h0 : DieOk d.ntqPool) : DieOk (Die.missOut d c).ntqPool := by
  unfold Die.missOut
  repeat' (first | (first | assumption | with_reducible apply Die.close_ok | with_reducible apply Die.stopFsk_ok | with_reducible apply foldl_pools | with_reducible apply Die.fold_ok | with_reducible apply Die.modCh_ok | with_reducible apply PoolsOk.map | with_reducible apply PoolsOk.vmap | with_reducible apply Core.fold_ok | (intro) | split) | dsimp only)
theorem Die.setCauses_ok (d : Die) (di : DieId) (q : ℕ) (b : ℕ) (cs : List ChanId) (h0 : DieOk d.ntqPool) : DieOk (Die.setCauses d di q b cs).ntqPool := by
  unfold Die.setCauses
  repeat' (first | (first | assumption | with_reducible apply Die.modCh_ok | with_reducible apply Die.missOut_ok | with_reducible apply Die.raiseMask_ok | with_reducible apply Die.backfeedLeft_ok | with_reducible apply foldl_pools | with_reducible apply Die.fold_ok | with_reducible apply Die.modCh_ok | with_reducible apply PoolsOk.map | with_reducible apply PoolsOk.vmap | with_reducible apply Core.fold_ok | (intro) | split) | dsimp only)
theorem Die.raiseLevels_ok (d : Die) (di : DieId) (q : ℕ) (b : ℕ) (f : Levels → Bool) (n : ChanId → Levels) (cs : List ChanId) (h0 : DieOk d.ntqPool) : DieOk (Die.raiseLevels d di q b f n cs).ntqPool := by
  unfold Die.raiseLevels
  repeat' (first | (first | assumption | with_reducible apply Die.setCauses_ok | with_reducible apply foldl_pools | with_reducible apply Die.fold_ok | with_reducible apply Die.modCh_ok | with_reducible apply PoolsOk.map | with_reducible apply PoolsOk.vmap | with_reducible apply Core.fold_ok | (intro) | split) | dsimp only)
theorem Die.lowerLevel_ok (d : Die) (b : ℕ) (f : Levels → Bool) (n : Levels) (c : ChanId) (h0 : DieOk d.ntqPool) : DieOk (Die.lowerLevel d b f n c).ntqPool := by
  unfold Die.lowerLevel
  repeat' (first | (first | assumption | with_reducible apply Die.modCh_ok | with_reducible apply foldl_pools | with_reducible apply Die.fold_ok | with_reducible apply Die.modCh_ok | with_reducible apply PoolsOk.map | with_reducible apply PoolsOk.vmap | with_reducible apply Core.fold_ok | (intro) | split) | dsimp only)
theorem Die.holdLevel_ok (d : Die) (elapsed : ℕ) (n : Levels) (c : ChanId) (h0 : DieOk d.ntqPool) : DieOk (Die.holdLevel d elapsed n c).ntqPool := by
  unfold Die.holdLevel
  repeat' (first | (first | assumption | with_reducible apply Die.modCh_ok | with_reducible apply Die.missOut_ok | with_reducible apply foldl_pools | with_reducible apply Die.fold_ok | with_reducible apply Die.modCh_ok | with_reducible apply PoolsOk.map | with_reducible apply PoolsOk.vmap | with_reducible apply Core.fold_ok | (intro) | split) | dsimp only)
theorem Die.applyLevels_ok (d : Die) (di : DieId) (q : ℕ) (elapsed : ℕ) (cs : List ChanId) (n : ChanId → Levels) (h0 : DieOk d.ntqPool) : DieOk (Die.applyLevels d di q elapsed cs n).ntqPool := by
  unfold Die.applyLevels
  repeat' (first | (first | assumption | with_reducible apply Die.raiseLevels_ok | with_reducible apply Die.lowerLevel_ok | with_reducible apply Die.setCauses_ok | with_reducible apply Die.holdLevel_ok | with_reducible apply Die.backfeedLeft_ok | with_reducible apply foldl_pools | with_reducible apply Die.fold_ok | with_reducible apply Die.modCh_ok | with_reducible apply PoolsOk.map | with_reducible apply PoolsOk.vmap | with_reducible apply Core.fold_ok | (intro) | split) | dsimp only)
theorem Die.latchUnit_ok (d : Die) (c : ChanId) (f : Diag → Diag) (h0 : DieOk d.ntqPool) : DieOk (Die.latchUnit d c f).ntqPool := by
  unfold Die.latchUnit
  repeat' (first | (first | assumption | with_reducible apply Die.modCh_ok | with_reducible apply Die.missOut_ok | with_reducible apply foldl_pools | with_reducible apply Die.fold_ok | with_reducible apply Die.modCh_ok | with_reducible apply PoolsOk.map | with_reducible apply PoolsOk.vmap | with_reducible apply Core.fold_ok | (intro) | split) | dsimp only)
theorem Die.changeMode_ok (d : Die) (c : ChanId) (i : ChanImg) (set : ℕ) (tm : Tick) (h0 : DieOk d.ntqPool) :
    DieOk (Die.changeMode d c i set tm).ntqPool := by
  unfold Die.changeMode
  repeat' (first | assumption | with_reducible apply Die.modCh_ok | with_reducible apply Die.fold_ok | (intro _))
theorem Die.reconfigure_ok (d : Die) (c : ChanId) (i : ChanImg) (first : Bool) (set : ℕ) (tm : Tick) (h0 : DieOk d.ntqPool) : DieOk (Die.reconfigure d c i first set tm).ntqPool := by
  unfold Die.reconfigure
  repeat' (first | assumption | with_reducible apply Die.modCh_ok | with_reducible apply Die.refilter_ok | with_reducible apply Die.syncLevel_ok | with_reducible apply State.modCh_pools | with_reducible apply State.modDie_pools | with_reducible apply State.modCore_pools | with_reducible apply State.modHub_pools | with_reducible apply foldl_pools | with_reducible apply Die.fold_ok | with_reducible apply Core.fold_ok | with_reducible apply Die.modCh_ok | with_reducible apply PoolsOk.map | with_reducible apply PoolsOk.vmap | (intro) | split | dsimp only)
theorem Die.putInForce_ok (d : Die) (di : DieId) (q : ℕ) (c : ChanId) (i : ChanImg) (set : ℕ) (tm : Tick) (h0 : DieOk d.ntqPool) : DieOk (Die.putInForce d di q c i set tm).ntqPool := by
  unfold Die.putInForce
  repeat' (first | assumption | with_reducible apply Die.changeMode_ok | with_reducible apply Die.modCh_ok | with_reducible apply Die.reSafe_ok | with_reducible apply Die.reconfigure_ok | with_reducible apply State.modCh_pools | with_reducible apply State.modDie_pools | with_reducible apply State.modCore_pools | with_reducible apply State.modHub_pools | with_reducible apply foldl_pools | with_reducible apply Die.fold_ok | with_reducible apply Core.fold_ok | with_reducible apply Die.modCh_ok | with_reducible apply PoolsOk.map | with_reducible apply PoolsOk.vmap | (intro) | split | dsimp only)
theorem Die.calSkip_ok (d : Die) (di : DieId) (q : ℕ) (c : ChanId) (reason : ℕ) (h0 : DieOk d.ntqPool) :
    DieOk (Die.calSkip d di q c reason).ntqPool := by
  exact h0
theorem Die.endVisits_ok (d : Die) (di : DieId) (q : ℕ) (cs : List ChanId) (reason : ℕ) (h0 : DieOk d.ntqPool) :
    DieOk (Die.endVisits d di q cs reason).ntqPool := by
  unfold Die.endVisits
  repeat' (first | (first | assumption | with_reducible apply Die.fold_ok | (intro _) | split) | dsimp only)
theorem Die.followPower_ok (d : Die) (h0 : DieOk d.ntqPool) : DieOk (Die.followPower d).ntqPool := by
  exact h0
theorem Die.showWaits_ok (d : Die) (c : ChanId) (h0 : DieOk d.ntqPool) : DieOk (Die.showWaits d c).ntqPool := by
  exact h0
theorem Die.dropHeld_ok (d : Die) (c : ChanId) (i : ChanImg) (h0 : DieOk d.ntqPool) : DieOk (Die.dropHeld d c i).ntqPool := by
  unfold Die.dropHeld
  refine Die.fold_ok h0 fun x k h => ?_
  split <;> exact h
theorem Die.overtake_ok (d : Die) (c : ChanId) (h0 : DieOk d.ntqPool) : DieOk (Die.overtake d c).ntqPool := by
  unfold Die.overtake
  repeat' (first | (first | assumption | with_reducible apply Die.close_ok | with_reducible apply Die.missOut_ok | with_reducible apply Die.stopFsk_ok | with_reducible apply foldl_pools | with_reducible apply Die.fold_ok | with_reducible apply Die.modCh_ok | with_reducible apply PoolsOk.map | with_reducible apply PoolsOk.vmap | with_reducible apply Core.fold_ok | (intro) | split) | dsimp only)
theorem Die.putConfig_ok (d : Die) (ch : Chan) (p : PendCfg) (q : ℕ) (h0 : DieOk d.ntqPool) : DieOk (Die.putConfig d ch p q).ntqPool := by
  have A : ∀ (x : Die) (l : List ChanId) (b : Bool), DieOk x.ntqPool → DieOk (if b = true then l.foldl (·.overtake ·) x else x).ntqPool :=
    fun x l b h => DieOk.ite (Die.fold_ok h fun _ _ h => Die.overtake_ok _ _ h) h
  have B : ∀ (x : Die) (b : Prop) [Decidable b], DieOk x.ntqPool → DieOk (if b then x.dropHeld ch.c p.img else x).ntqPool :=
    fun x b _ h => DieOk.ite (Die.dropHeld_ok _ _ _ h) h
  unfold Die.putConfig
  extract_lets front gone d1 d2 ends d3 d4 d5 d6
  have h1 : DieOk d1.ntqPool := h0
  have h2 : DieOk d2.ntqPool := A _ _ _ h1
  have h3 : DieOk d3.ntqPool := Die.endVisits_ok _ _ _ _ _ h2
  have h4 : DieOk d4.ntqPool := Die.followPower_ok _ (Die.putInForce_ok _ _ _ _ _ _ _ h3)
  have h5 : DieOk d5.ntqPool := B _ _ h4
  exact Die.close_ok _ _ _ (Die.fold_ok (d := d5) h5 fun _ _ h => Die.showWaits_ok _ _ h)
theorem Die.configEntry_ok (d : Die) (front : Bool) (id : ℕ) (h0 : DieOk d.ntqPool) :
    DieOk (Die.configEntry d front id).ntqPool := by
  exact DieOk.ite (Die.modEntry_ok _ _ _ h0) (Die.finish_ok _ _ _ h0)
theorem State.applyConfig_pools (s : State) (ch : Chan) (p : PendCfg) (h0 : PoolsOk s.core s.copy s.mirror.wire s.mirror.rx s.dies) :
    PoolsOk (State.applyConfig s ch p).core (State.applyConfig s ch p).copy (State.applyConfig s ch p).mirror.wire (State.applyConfig s ch p).mirror.rx (State.applyConfig s ch p).dies := by
  refine State.settlePools_pools _ _ (State.modCore_pools (State.outcomes_pools _ _ _ (State.modDie_pools h0 fun d h => ?_)) fun _ h => h)
  have h2 := Die.putConfig_ok d ch p (d.q s.quality) h
  split
  · exact Die.configEntry_ok _ _ _ h2
  · exact h2
theorem State.queueConfig_pools (s : State) (ch : Chan) (i : ChanImg) (set : ℕ) (tm : Tick) (h0 : PoolsOk s.core s.copy s.mirror.wire s.mirror.rx s.dies) :
    PoolsOk (State.queueConfig s ch i set tm).core (State.queueConfig s ch i set tm).copy (State.queueConfig s ch i set tm).mirror.wire (State.queueConfig s ch i set tm).mirror.rx (State.queueConfig s ch i set tm).dies := by
  unfold State.queueConfig
  repeat' (first | assumption | with_reducible apply State.modCh_pools | with_reducible apply foldl_pools | (intro _))
theorem State.startModeChange_pools (s : State) (ch : Chan) (h0 : PoolsOk s.core s.copy s.mirror.wire s.mirror.rx s.dies) :
    PoolsOk (State.startModeChange s ch).core (State.startModeChange s ch).copy (State.startModeChange s ch).mirror.wire (State.startModeChange s ch).mirror.rx (State.startModeChange s ch).dies := by
  unfold State.startModeChange; split
  · exact h0
  · exact State.applyConfig_pools _ _ _ h0
theorem execModeChangeStart_pools {ch : Chan} {s : State} {z : State} (hz : execModeChangeStart ch s = .next z) (h0 : PoolsOk s.core s.copy s.mirror.wire s.mirror.rx s.dies) :
    PoolsOk z.core z.copy z.mirror.wire z.mirror.rx z.dies := by
  cases hz; (try unfold execModeChangeStart)
  (try dsimp only)
  repeat' (first | (first | assumption | with_reducible apply State.commit_pools | with_reducible apply State.startModeChange_pools | with_reducible apply State.syncShadow_pools) | dsimp only)
theorem Die.transitionEnd_ok (d : Die) (c : ChanId) (high : Bool) (h0 : DieOk d.ntqPool) : DieOk (Die.transitionEnd d c high).ntqPool := by
  unfold Die.transitionEnd
  repeat' (first | (first | assumption | with_reducible apply Die.showWaits_ok | with_reducible apply Die.syncLevel_ok | with_reducible apply Die.restartCh_ok | with_reducible apply Die.close_ok | with_reducible apply foldl_pools | with_reducible apply Die.fold_ok | with_reducible apply Die.modCh_ok | with_reducible apply PoolsOk.map | with_reducible apply PoolsOk.vmap | with_reducible apply Core.fold_ok | (intro) | split) | dsimp only)
theorem execTransitionEnd_pools {x : InputLevel} {s : State} {z} (h : execTransitionEnd x s = .next z) (h0 : PoolsOk s.core s.copy s.mirror.wire s.mirror.rx s.dies) : PoolsOk z.core z.copy z.mirror.wire z.mirror.rx z.dies := by
  cases h; (try unfold execTransitionEnd)
  (try dsimp only)
  repeat' (first | (first | assumption | with_reducible apply State.commit_pools | with_reducible apply State.syncShadow_pools | with_reducible apply State.modDie_pools | with_reducible apply Die.transitionEnd_ok | with_reducible apply foldl_pools | with_reducible apply Die.fold_ok | with_reducible apply Die.modCh_ok | with_reducible apply PoolsOk.map | with_reducible apply PoolsOk.vmap | with_reducible apply Core.fold_ok | (intro) | split) | dsimp only)
theorem Die.capture_ok (d : Die) (c : ChanId) (q : ℕ) (t : Tick) (rising : Bool) (angle : Option (Word × Bool)) (e : Entry) (h0 : DieOk d.ntqPool) : DieOk (Die.capture d c q t rising angle e).ntqPool := by
  unfold Die.capture
  repeat' (first | assumption | split)
theorem Die.showLast_ok (d : Die) (c : ChanId) (td : Tick) (q : Tick → ℕ) (angle : ℕ → Tick → Option (Word × Bool)) (h0 : DieOk d.ntqPool) :
    DieOk (Die.showLast d c td q angle).ntqPool := by
  unfold Die.showLast
  exact DieOk.ite (Die.fold_ok h0 fun _ _ h => Die.capture_ok _ _ _ _ _ _ _ h) h0
theorem State.disableAt_pools (s : State) (ch : Chan) (td : Tick) (self : Option ℕ) (h0 : PoolsOk s.core s.copy s.mirror.wire s.mirror.rx s.dies) : PoolsOk (State.disableAt s ch td self).core (State.disableAt s ch td self).copy (State.disableAt s ch td self).mirror.wire (State.disableAt s ch td self).mirror.rx (State.disableAt s ch td self).dies := by
  unfold State.disableAt
  repeat' (first | (first | assumption | with_reducible apply Die.showLast_ok | with_reducible apply State.modDie_pools | with_reducible apply Die.stopFsk_ok | with_reducible apply Die.close_ok | with_reducible apply Die.endVisits_ok | with_reducible apply Die.modCh_ok | with_reducible apply State.outcomes_pools | with_reducible apply State.settlePools_pools | with_reducible apply foldl_pools | with_reducible apply Die.fold_ok | with_reducible apply Die.modCh_ok | with_reducible apply PoolsOk.map | with_reducible apply PoolsOk.vmap | with_reducible apply Core.fold_ok | (intro) | split) | dsimp only)
theorem execChannelDisableInstant_pools {ch : Chan} {s : State} {z : State} (hz : execChannelDisableInstant ch s = .next z) (h0 : PoolsOk s.core s.copy s.mirror.wire s.mirror.rx s.dies) :
    PoolsOk z.core z.copy z.mirror.wire z.mirror.rx z.dies := by
  cases hz; dsimp only
  repeat' (first | assumption | with_reducible apply State.modCore_pools | with_reducible apply State.commit_pools | with_reducible apply State.disableAt_pools | with_reducible apply State.syncShadow_pools | (intro _) | split)
theorem execHubLossExpiry_pools {d : DieId} {s : State} {z : State} (hz : execHubLossExpiry d s = .next z) (h0 : PoolsOk s.core s.copy s.mirror.wire s.mirror.rx s.dies) :
    PoolsOk z.core z.copy z.mirror.wire z.mirror.rx z.dies := by
  cases hz; dsimp only
  repeat' (first | assumption | with_reducible apply State.modDie_pools | with_reducible apply Die.setCauses_ok | with_reducible apply Die.close_ok | (intro _) | split)
theorem execHoldMsExpiry_pools {ch : Chan} {s : State} {z} (h : execHoldMsExpiry ch s = .next z) (h0 : PoolsOk s.core s.copy s.mirror.wire s.mirror.rx s.dies) : PoolsOk z.core z.copy z.mirror.wire z.mirror.rx z.dies := by
  cases h; (try unfold execHoldMsExpiry)
  (try dsimp only)
  repeat' (first | (first | assumption | with_reducible apply State.modDie_pools | with_reducible apply Die.setCauses_ok | with_reducible apply Die.modCh_ok | with_reducible apply foldl_pools | with_reducible apply Die.fold_ok | with_reducible apply Die.modCh_ok | with_reducible apply PoolsOk.map | with_reducible apply PoolsOk.vmap | with_reducible apply Core.fold_ok | (intro) | split) | dsimp only)
theorem execRampStep_pools {ch : Chan} {s : State} {z : State} (hz : execRampStep ch s = .next z) (h0 : PoolsOk s.core s.copy s.mirror.wire s.mirror.rx s.dies) :
    PoolsOk z.core z.copy z.mirror.wire z.mirror.rx z.dies := by
  cases hz; (try unfold execRampStep)
  (try dsimp only)
  repeat' (first | (first | assumption | with_reducible apply State.modDie_pools | (intro _) | split) | dsimp only)
theorem execIsolatedPowerLost_pools {d : DieId} {s : State} {z : State} (hz : execIsolatedPowerLost d s = .next z) (h0 : PoolsOk s.core s.copy s.mirror.wire s.mirror.rx s.dies) :
    PoolsOk z.core z.copy z.mirror.wire z.mirror.rx z.dies := by
  cases hz
  refine State.modDie_pools h0 fun _ h => ?_
  dsimp only
  exact Die.fold_ok h fun _ _ h => h
theorem execOverrangeConfirm_pools {ch : Chan} {isOver : Bool} {s : State} {z : State} (hz : execOverrangeConfirm ch isOver s = .next z) (h0 : PoolsOk s.core s.copy s.mirror.wire s.mirror.rx s.dies) :
    PoolsOk z.core z.copy z.mirror.wire z.mirror.rx z.dies := by
  cases hz; dsimp only
  repeat' (first | assumption | with_reducible apply State.modDie_pools | (intro _) | split)
theorem execOpenWireResult_pools {ch : Chan} {isOpen : Bool} {s : State} {z : State} (hz : execOpenWireResult ch isOpen s = .next z) (h0 : PoolsOk s.core s.copy s.mirror.wire s.mirror.rx s.dies) :
    PoolsOk z.core z.copy z.mirror.wire z.mirror.rx z.dies := by
  cases hz; (try dsimp only)
  repeat' (first | assumption | with_reducible apply Die.evUnit_ok | with_reducible apply Die.modDiag_ok | with_reducible apply State.modDie_pools | with_reducible apply State.modDie_pools | with_reducible apply State.modCore_pools | with_reducible apply State.modHub_pools | with_reducible apply foldl_pools | with_reducible apply Die.fold_ok | with_reducible apply Core.fold_ok | with_reducible apply Die.modCh_ok | with_reducible apply PoolsOk.map | with_reducible apply PoolsOk.vmap | (intro) | split | dsimp only)
theorem execTerminalMonitorResult_pools {ch : Chan} {sn : Bool} {mV : ℤ} {s : State} {z : State} (hz : execTerminalMonitorResult ch sn mV s = .next z) (h0 : PoolsOk s.core s.copy s.mirror.wire s.mirror.rx s.dies) :
    PoolsOk z.core z.copy z.mirror.wire z.mirror.rx z.dies := by
  cases hz; dsimp only
  repeat' (first | assumption | with_reducible apply State.modDie_pools | (intro _) | split)
theorem Die.trip_ok (d : Die) (ch : Chan) (q : ℕ) (e : Ev) (f : Diag → Diag) (h0 : DieOk d.ntqPool) :
    DieOk (Die.trip d ch q e f).ntqPool := by
  unfold Die.trip
  repeat' (first | assumption | with_reducible apply Die.evUnit_ok | with_reducible apply Die.latchUnit_ok | with_reducible apply State.modDie_pools | with_reducible apply State.modCore_pools | with_reducible apply State.modHub_pools | with_reducible apply foldl_pools | with_reducible apply Die.fold_ok | with_reducible apply Core.fold_ok | with_reducible apply Die.modCh_ok | with_reducible apply PoolsOk.map | with_reducible apply PoolsOk.vmap | (intro) | split | dsimp only)
theorem execOverloadConfirm_pools {ch : Chan} {s : State} {z : State} (hz : execOverloadConfirm ch s = .next z) (h0 : PoolsOk s.core s.copy s.mirror.wire s.mirror.rx s.dies) :
    PoolsOk z.core z.copy z.mirror.wire z.mirror.rx z.dies := by
  cases hz; dsimp only
  repeat' (first | assumption | with_reducible apply State.modDie_pools | with_reducible apply Die.trip_ok | (intro _) | split)
theorem execShortFgConfirm_pools {ch : Chan} {s : State} {z : State} (hz : execShortFgConfirm ch s = .next z) (h0 : PoolsOk s.core s.copy s.mirror.wire s.mirror.rx s.dies) :
    PoolsOk z.core z.copy z.mirror.wire z.mirror.rx z.dies := by
  cases hz; dsimp only
  repeat' (first | assumption | with_reducible apply State.modDie_pools | with_reducible apply Die.trip_ok | (intro _) | split)
theorem execThermalConfirm_pools {ch : Chan} {s : State} {z : State} (hz : execThermalConfirm ch s = .next z) (h0 : PoolsOk s.core s.copy s.mirror.wire s.mirror.rx s.dies) :
    PoolsOk z.core z.copy z.mirror.wire z.mirror.rx z.dies := by
  cases hz; (try unfold execThermalConfirm)
  (try dsimp only)
  repeat' (first | (first | assumption | with_reducible apply State.modDie_pools | with_reducible apply Die.trip_ok | (intro _) | split) | dsimp only)
theorem Die.foreignDrive_ok (d : Die) (di : DieId) (q : ℕ) (a : ChanId) (b : ChanId) (h0 : DieOk d.ntqPool) :
    DieOk (Die.foreignDrive d di q a b).ntqPool := by
  unfold Die.foreignDrive
  repeat' (first | assumption | with_reducible apply Die.evCh_ok | with_reducible apply Die.modDiag_ok | with_reducible apply Die.setCauses_ok)
theorem execBackfeedConfirm_pools {ch : Chan} {s : State} {z} (h : execBackfeedConfirm ch s = .next z) (h0 : PoolsOk s.core s.copy s.mirror.wire s.mirror.rx s.dies) : PoolsOk z.core z.copy z.mirror.wire z.mirror.rx z.dies := by
  cases h; (try dsimp only)
  repeat' (first | assumption | with_reducible apply Die.evUnit_ok | with_reducible apply Die.foreignDrive_ok | with_reducible apply Die.latchUnit_ok | with_reducible apply Die.modDiag_ok | with_reducible apply State.modDie_pools | with_reducible apply State.modDie_pools | with_reducible apply State.modCore_pools | with_reducible apply State.modHub_pools | with_reducible apply foldl_pools | with_reducible apply Die.fold_ok | with_reducible apply Core.fold_ok | with_reducible apply Die.modCh_ok | with_reducible apply PoolsOk.map | with_reducible apply PoolsOk.vmap | (intro) | split | dsimp only)
theorem Die.backfeedClear_ok (d : Die) (ch : Chan) (q : ℕ) (h0 : DieOk d.ntqPool) :
    DieOk (Die.backfeedClear d ch q).ntqPool := by
  unfold Die.backfeedClear
  repeat' (first | assumption | with_reducible apply Die.evUnit_ok | with_reducible apply Die.modDiag_ok | with_reducible apply State.modDie_pools | with_reducible apply State.modCore_pools | with_reducible apply State.modHub_pools | with_reducible apply foldl_pools | with_reducible apply Die.fold_ok | with_reducible apply Core.fold_ok | with_reducible apply Die.modCh_ok | with_reducible apply PoolsOk.map | with_reducible apply PoolsOk.vmap | (intro) | split | dsimp only)
theorem execBackfeedClear_pools {ch : Chan} {s : State} {z : State} (hz : execBackfeedClear ch s = .next z) (h0 : PoolsOk s.core s.copy s.mirror.wire s.mirror.rx s.dies) :
    PoolsOk z.core z.copy z.mirror.wire z.mirror.rx z.dies := by
  cases hz; (try dsimp only)
  repeat' (first | assumption | with_reducible apply Die.backfeedClear_ok | with_reducible apply Die.foreignDrive_ok | with_reducible apply Die.modDiag_ok | with_reducible apply State.modDie_pools | with_reducible apply State.modDie_pools | with_reducible apply State.modCore_pools | with_reducible apply State.modHub_pools | with_reducible apply foldl_pools | with_reducible apply Die.fold_ok | with_reducible apply Core.fold_ok | with_reducible apply Die.modCh_ok | with_reducible apply PoolsOk.map | with_reducible apply PoolsOk.vmap | (intro) | split | dsimp only)
theorem execLpUndervoltConfirm_pools {d : DieId} {s : State} {z} (h : execLpUndervoltConfirm d s = .next z) (h0 : PoolsOk s.core s.copy s.mirror.wire s.mirror.rx s.dies) : PoolsOk z.core z.copy z.mirror.wire z.mirror.rx z.dies := by
  cases h; (try unfold execLpUndervoltConfirm)
  (try dsimp only)
  repeat' (first | (first | assumption | with_reducible apply State.modDie_pools | with_reducible apply Die.modCh_ok | with_reducible apply Die.missOut_ok | with_reducible apply Die.modHdr_ok | with_reducible apply Die.raiseMask_ok | with_reducible apply foldl_pools | with_reducible apply Die.fold_ok | with_reducible apply Die.modCh_ok | with_reducible apply PoolsOk.map | with_reducible apply PoolsOk.vmap | with_reducible apply Core.fold_ok | (intro) | split) | dsimp only)
theorem Die.lpBack_ok (d : Die) (h0 : DieOk d.ntqPool) : DieOk (Die.lpBack d).ntqPool := by
  unfold Die.lpBack
  exact DieOk.ite (Die.fold_ok (d := { d with uvLow := false }) h0 fun _ _ h => h) h0
theorem execLpUndervoltEpisodeEnd_pools {d : DieId} {s : State} {z : State} (hz : execLpUndervoltEpisodeEnd d s = .next z) (h0 : PoolsOk s.core s.copy s.mirror.wire s.mirror.rx s.dies) :
    PoolsOk z.core z.copy z.mirror.wire z.mirror.rx z.dies := by
  cases hz; (try unfold execLpUndervoltEpisodeEnd)
  (try dsimp only)
  repeat' (first | (first | assumption | with_reducible apply Die.lpBack_ok | with_reducible apply State.modDie_pools | (intro _)) | dsimp only)
theorem execOffPulseStart_pools {ch : Chan} {s : State} {z : State} (hz : execOffPulseStart ch s = .next z) (h0 : PoolsOk s.core s.copy s.mirror.wire s.mirror.rx s.dies) :
    PoolsOk z.core z.copy z.mirror.wire z.mirror.rx z.dies := by
  cases hz; dsimp only
  repeat' (first | assumption | with_reducible apply State.modDie_pools | with_reducible apply Die.modCh_ok | with_reducible apply Die.fold_ok | (intro _) | split)
theorem execOffPulseEnd_pools {ch : Chan} {vioMv : ℤ} {s : State} {z} (h : execOffPulseEnd ch vioMv s = .next z) (h0 : PoolsOk s.core s.copy s.mirror.wire s.mirror.rx s.dies) : PoolsOk z.core z.copy z.mirror.wire z.mirror.rx z.dies := by
  cases h; (try dsimp only)
  repeat' (first | assumption | with_reducible apply Die.backfeedLeft_ok | with_reducible apply Die.evUnit_ok | with_reducible apply Die.modCh_ok | with_reducible apply Die.modDiag_ok | with_reducible apply Die.setCauses_ok | with_reducible apply State.modCh_pools | with_reducible apply State.modDie_pools | with_reducible apply State.modDie_pools | with_reducible apply State.modCore_pools | with_reducible apply State.modHub_pools | with_reducible apply foldl_pools | with_reducible apply Die.fold_ok | with_reducible apply Core.fold_ok | with_reducible apply Die.modCh_ok | with_reducible apply PoolsOk.map | with_reducible apply PoolsOk.vmap | (intro) | split | dsimp only)
theorem execShuntOpen_pools {ch : Chan} {s : State} {z : State} (hz : execShuntOpen ch s = .next z) (h0 : PoolsOk s.core s.copy s.mirror.wire s.mirror.rx s.dies) :
    PoolsOk z.core z.copy z.mirror.wire z.mirror.rx z.dies := by
  cases hz; dsimp only
  repeat' (first | assumption | with_reducible apply State.modDie_pools | (intro _) | split)
theorem execShuntRecloseTrial_pools {ch : Chan} {s : State} {z : State} (hz : execShuntRecloseTrial ch s = .next z) (h0 : PoolsOk s.core s.copy s.mirror.wire s.mirror.rx s.dies) :
    PoolsOk z.core z.copy z.mirror.wire z.mirror.rx z.dies := by
  cases hz; dsimp only
  repeat' (first | assumption | with_reducible apply State.modCh_pools)
theorem execCurrentLimitFoldback_pools {ch : Chan} {s : State} {z : State} (hz : execCurrentLimitFoldback ch s = .next z) (h0 : PoolsOk s.core s.copy s.mirror.wire s.mirror.rx s.dies) :
    PoolsOk z.core z.copy z.mirror.wire z.mirror.rx z.dies := by
  cases hz; dsimp only
  repeat' (first | assumption | with_reducible apply State.modDie_pools | (intro _) | split)
theorem execFoldbackRetry_pools {ch : Chan} {s : State} {z : State} (hz : execFoldbackRetry ch s = .next z) (h0 : PoolsOk s.core s.copy s.mirror.wire s.mirror.rx s.dies) :
    PoolsOk z.core z.copy z.mirror.wire z.mirror.rx z.dies := by
  cases hz; dsimp only
  repeat' (first | assumption | with_reducible apply State.modCh_pools)
theorem Die.clearCh_ok (d : Die) (c : ChanId) (x : ClearCtx) (resume : Bool) (h0 : DieOk d.ntqPool) :
    DieOk (Die.clearCh d c x resume).ntqPool := by
  exact h0
theorem Die.faultClear_ok (d : Die) (di : DieId) (q : ℕ) (c : ChanId) (x : ClearCtx) (resume : Bool) (h0 : DieOk d.ntqPool) : DieOk (Die.faultClear d di q c x resume).ntqPool := by
  unfold Die.faultClear
  repeat' (first | (first | assumption | with_reducible apply Die.lpBack_ok | with_reducible apply Die.clearCh_ok | with_reducible apply Die.modCh_ok | with_reducible apply Die.backfeedLeft_ok | with_reducible apply foldl_pools | with_reducible apply Die.fold_ok | with_reducible apply Die.modCh_ok | with_reducible apply PoolsOk.map | with_reducible apply PoolsOk.vmap | with_reducible apply Core.fold_ok | (intro) | split) | dsimp only)
theorem Die.measureEdge_ok (d : Die) (ch : Chan) (q : ℕ) (crossing : ℤ) (rising : Bool) (h0 : DieOk d.ntqPool) :
    DieOk (Die.measureEdge d ch q crossing rising).ntqPool := by
  unfold Die.measureEdge
  repeat' (first | (first | assumption | split) | dsimp only)
theorem execPwmPeriodStart_pools {ch : Chan} {s : State} {z : State} (hz : execPwmPeriodStart ch s = .next z) (h0 : PoolsOk s.core s.copy s.mirror.wire s.mirror.rx s.dies) :
    PoolsOk z.core z.copy z.mirror.wire z.mirror.rx z.dies := by
  cases hz; dsimp only
  repeat' (first | assumption | with_reducible apply State.modDie_pools | with_reducible apply Die.close_ok | (intro _) | split)
theorem execPwmDutyEnd_pools {ch : Chan} {s : State} {z : State} (hz : execPwmDutyEnd ch s = .next z) (h0 : PoolsOk s.core s.copy s.mirror.wire s.mirror.rx s.dies) :
    PoolsOk z.core z.copy z.mirror.wire z.mirror.rx z.dies := by
  cases hz; dsimp only
  repeat' (first | assumption | with_reducible apply State.modDie_pools | (intro _) | split)
theorem execShareCompare_pools {ch : Chan} {currents : List ℕ} {s : State} {z : State} (hz : execShareCompare ch currents s = .next z) (h0 : PoolsOk s.core s.copy s.mirror.wire s.mirror.rx s.dies) :
    PoolsOk z.core z.copy z.mirror.wire z.mirror.rx z.dies := by
  cases hz; dsimp only
  repeat' (first | assumption | with_reducible apply State.modDie_pools | (intro _) | split)
theorem Die.endFsk_ok (d : Die) (ch : Chan) (cut : Bool) (timeout : Bool) (h0 : DieOk d.ntqPool) : DieOk (Die.endFsk d ch cut timeout).ntqPool := by
  unfold Die.endFsk
  repeat' (first | (first | assumption | with_reducible apply Die.stopFsk_ok | with_reducible apply foldl_pools | with_reducible apply Die.fold_ok | with_reducible apply Die.modCh_ok | with_reducible apply PoolsOk.map | with_reducible apply PoolsOk.vmap | with_reducible apply Core.fold_ok | (intro) | split) | dsimp only)
theorem execFskTransmitEnd_pools {ch : Chan} {s : State} {z : State} (hz : execFskTransmitEnd ch s = .next z) (h0 : PoolsOk s.core s.copy s.mirror.wire s.mirror.rx s.dies) :
    PoolsOk z.core z.copy z.mirror.wire z.mirror.rx z.dies := by
  cases hz; dsimp only
  repeat' (first | assumption | with_reducible apply State.modDie_pools | (intro _) | split)
theorem execFskCarrierDetect_pools {ch : Chan} {s : State} {z : State} (hz : execFskCarrierDetect ch s = .next z) (h0 : PoolsOk s.core s.copy s.mirror.wire s.mirror.rx s.dies) :
    PoolsOk z.core z.copy z.mirror.wire z.mirror.rx z.dies := by
  cases hz; dsimp only
  repeat' (first | assumption | with_reducible apply State.modCh_pools)
theorem execFskOctetReceive_pools {ch : Chan} {octet : Byte} {parityErr : Bool} {framingErr : Bool} {start : Tick} {s : State} {z : State} (hz : execFskOctetReceive ch octet parityErr framingErr start s = .next z) (h0 : PoolsOk s.core s.copy s.mirror.wire s.mirror.rx s.dies) :
    PoolsOk z.core z.copy z.mirror.wire z.mirror.rx z.dies := by
  cases hz; dsimp only
  repeat' (first | assumption | with_reducible apply State.modDie_pools | (intro _) | split)
theorem execFskTimeout_pools {ch : Chan} {s : State} {z} (h : execFskTimeout ch s = .next z) (h0 : PoolsOk s.core s.copy s.mirror.wire s.mirror.rx s.dies) : PoolsOk z.core z.copy z.mirror.wire z.mirror.rx z.dies := by
  cases h; (try unfold execFskTimeout)
  (try dsimp only)
  repeat' (first | (first | assumption | with_reducible apply State.modDie_pools | with_reducible apply Die.endFsk_ok | with_reducible apply foldl_pools | with_reducible apply Die.fold_ok | with_reducible apply Die.modCh_ok | with_reducible apply PoolsOk.map | with_reducible apply PoolsOk.vmap | with_reducible apply Core.fold_ok | (intro) | split) | dsimp only)
theorem execFskReceptionEnd_pools {ch : Chan} {carrier : Bool} {s : State} {z} (h : execFskReceptionEnd ch carrier s = .next z) (h0 : PoolsOk s.core s.copy s.mirror.wire s.mirror.rx s.dies) : PoolsOk z.core z.copy z.mirror.wire z.mirror.rx z.dies := by
  cases h; (try unfold execFskReceptionEnd)
  (try dsimp only)
  repeat' (first | (first | assumption | with_reducible apply State.modDie_pools | with_reducible apply Die.modCh_ok | with_reducible apply Die.endFsk_ok | with_reducible apply foldl_pools | with_reducible apply Die.fold_ok | with_reducible apply Die.modCh_ok | with_reducible apply PoolsOk.map | with_reducible apply PoolsOk.vmap | with_reducible apply Core.fold_ok | (intro) | split) | dsimp only)
theorem Die.serveUntil_ok (d : Die) (di : DieId) (c : ChanId) (t : Tick) (h0 : DieOk d.ntqPool) : DieOk (Die.serveUntil d di c t).ntqPool := by
  exact h0
theorem Die.takeSample_ok (d : Die) (di : DieId) (c : ChanId) (raw : ℤ) (h0 : DieOk d.ntqPool) : DieOk (Die.takeSample d di c raw).ntqPool := by
  unfold Die.takeSample
  repeat' (first | (first | assumption | with_reducible apply Die.modCh_ok | with_reducible apply foldl_pools | with_reducible apply Die.fold_ok | with_reducible apply Die.modCh_ok | with_reducible apply PoolsOk.map | with_reducible apply PoolsOk.vmap | with_reducible apply Core.fold_ok | (intro) | split) | dsimp only)
theorem Die.deliver_ok (d : Die) (c : ChanId) (stamp : Tick) (f : Entry → List LaneItem) (h0 : DieOk d.ntqPool) :
    DieOk (Die.deliver d c stamp f).ntqPool := by
  unfold Die.deliver
  repeat' (first | assumption | with_reducible apply Die.finish_ok | with_reducible apply Die.fold_ok | (intro _) | split)
theorem Die.giveResult_ok (d : Die) (c : ChanId) (q : ℕ) (stamp : Tick) (step : Option ℕ) (y : ℤ) (h0 : DieOk d.ntqPool) : DieOk (Die.giveResult d c q stamp step y).ntqPool := by
  unfold Die.giveResult
  repeat' (first | (first | assumption | with_reducible apply Die.modCh_ok | with_reducible apply Die.deliver_ok | with_reducible apply foldl_pools | with_reducible apply Die.fold_ok | with_reducible apply Die.modCh_ok | with_reducible apply PoolsOk.map | with_reducible apply PoolsOk.vmap | with_reducible apply Core.fold_ok | (intro) | split) | dsimp only)
theorem execChainOutput_pools {ch : Chan} {samples : List ℤ} {window : Option ℤ} {s : State} {z} (h : execChainOutput ch samples window s = .next z) (h0 : PoolsOk s.core s.copy s.mirror.wire s.mirror.rx s.dies) : PoolsOk z.core z.copy z.mirror.wire z.mirror.rx z.dies := by
  cases h; (try unfold execChainOutput)
  (try dsimp only)
  repeat' (first | (first | assumption | with_reducible apply State.modDie_pools | with_reducible apply Die.takeSample_ok | with_reducible apply Die.giveResult_ok | with_reducible apply foldl_pools | with_reducible apply Die.fold_ok | with_reducible apply Die.modCh_ok | with_reducible apply PoolsOk.map | with_reducible apply PoolsOk.vmap | with_reducible apply Core.fold_ok | (intro) | split) | dsimp only)
theorem Die.applyFilters_ok (d : Die) (c : ChanId) (h0 : DieOk d.ntqPool) : DieOk (Die.applyFilters d c).ntqPool := by
  unfold Die.applyFilters
  repeat' (first | assumption | with_reducible apply Die.modCh_ok | with_reducible apply Die.reconfigure_ok | with_reducible apply Die.refilter_ok | with_reducible apply Die.syncLevel_ok | with_reducible apply State.modCh_pools | with_reducible apply State.modDie_pools | with_reducible apply State.modCore_pools | with_reducible apply State.modHub_pools | with_reducible apply foldl_pools | with_reducible apply Die.fold_ok | with_reducible apply Core.fold_ok | with_reducible apply Die.modCh_ok | with_reducible apply PoolsOk.map | with_reducible apply PoolsOk.vmap | (intro) | split | dsimp only)
theorem Die.applyVd_ok (d : Die) (h0 : DieOk d.ntqPool) : DieOk (Die.applyVd d).ntqPool := by
  unfold Die.applyVd; split
  · next p e =>
    exact Die.fold_ok (d := { d with led := { d.led with vd := p.2, vdAt := d.led.vdAt.filter fun x => !d.past x.1 } }) h0 fun x c h => h
  · exact h0
theorem Core.dropStanding_ok (c : Core) (d : DieId) (p : ChanId → Bool) (now : Tick) (h0 : CoreOk c.slots c.store) :
    CoreOk (Core.dropStanding c d p now).slots (Core.dropStanding c d p now).store := by
  exact h0
theorem execFilterChange_pools {ch : Chan} {s : State} {z} (h : execFilterChange ch s = .next z) (h0 : PoolsOk s.core s.copy s.mirror.wire s.mirror.rx s.dies) : PoolsOk z.core z.copy z.mirror.wire z.mirror.rx z.dies := by
  cases h; (try unfold execFilterChange)
  (try dsimp only)
  repeat' (first | (first | assumption | with_reducible apply State.commit_pools | with_reducible apply State.settlePools_pools | with_reducible apply State.modCore_pools | with_reducible apply State.modDie_pools | with_reducible apply Die.applyVd_ok | with_reducible apply Die.applyFilters_ok | with_reducible apply Core.dropStanding_ok | with_reducible apply foldl_pools | with_reducible apply Die.fold_ok | with_reducible apply Die.modCh_ok | with_reducible apply PoolsOk.map | with_reducible apply PoolsOk.vmap | with_reducible apply Core.fold_ok | (intro) | split) | dsimp only)
theorem Die.dropWindow_ok (d : Die) (c : ChanId) (h0 : DieOk d.ntqPool) : DieOk (Die.dropWindow d c).ntqPool := by
  exact h0
theorem Die.resetChains_ok (d : Die) (tr : Tick) (h0 : DieOk d.ntqPool) : DieOk (Die.resetChains d tr).ntqPool := by
  unfold Die.resetChains
  repeat' (first | (first | assumption | with_reducible apply Die.dropWindow_ok | with_reducible apply Die.modCh_ok | with_reducible apply Die.restartCh_ok | with_reducible apply foldl_pools | with_reducible apply Die.fold_ok | with_reducible apply Die.modCh_ok | with_reducible apply PoolsOk.map | with_reducible apply PoolsOk.vmap | with_reducible apply Core.fold_ok | (intro) | split) | dsimp only)
theorem State.decimate_pools (s : State) (tr : Tick) (src : ℕ) (h0 : PoolsOk s.core s.copy s.mirror.wire s.mirror.rx s.dies) :
    PoolsOk (State.decimate s tr src).core (State.decimate s tr src).copy (State.decimate s tr src).mirror.wire (State.decimate s tr src).mirror.rx (State.decimate s tr src).dies := by
  exact State.raiseSrc_pools _ _ _ _ _ _ _ (State.modCore_pools (State.overLanes_pools _ _ (fun i x h => Die.resetChains_ok _ _ h) h0) fun _ h => h)
theorem execDecimatorReset_pools {s : State} {z : State} (hz : execDecimatorReset s = .next z) (h0 : PoolsOk s.core s.copy s.mirror.wire s.mirror.rx s.dies) :
    PoolsOk z.core z.copy z.mirror.wire z.mirror.rx z.dies := by
  cases hz; split
  · exact State.commit_pools (State.decimate_pools _ _ _ h0)
  · exact h0
theorem Die.settlePair_ok (d : Die) (a : ChanId) (h0 : DieOk d.ntqPool) : DieOk (Die.settlePair d a).ntqPool := by
  exact h0
theorem Die.pairAct_ok (d : Die) (di : DieId) (a : ChanId) (q : ℕ) (elapsed : ℕ) (x : PairEv) (h0 : DieOk d.ntqPool) : DieOk (Die.pairAct d di a q elapsed x).ntqPool := by
  unfold Die.pairAct
  repeat' (first | (first | assumption | with_reducible apply Die.settlePair_ok | with_reducible apply Die.modCh_ok | with_reducible apply Die.raiseCh_ok | with_reducible apply foldl_pools | with_reducible apply Die.fold_ok | with_reducible apply Die.modCh_ok | with_reducible apply PoolsOk.map | with_reducible apply PoolsOk.vmap | with_reducible apply Core.fold_ok | (intro) | split) | dsimp only)
theorem Die.zEdge_ok (d : Die) (di : DieId) (c : ChanId) (q : ℕ) (elapsed : ℕ) (t : Tick) (h0 : DieOk d.ntqPool) : DieOk (Die.zEdge d di c q elapsed t).ntqPool := by
  unfold Die.zEdge
  repeat' (first | (first | assumption | with_reducible apply Die.pairAct_ok | with_reducible apply foldl_pools | with_reducible apply Die.fold_ok | with_reducible apply Die.modCh_ok | with_reducible apply PoolsOk.map | with_reducible apply PoolsOk.vmap | with_reducible apply Core.fold_ok | (intro) | split) | dsimp only)
theorem Die.sendCapture_ok (d : Die) (c : ChanId) (q : ℕ) (p : ℕ × Tick × Bool) (angle : Word × Bool) (h0 : DieOk d.ntqPool) : DieOk (Die.sendCapture d c q p angle).ntqPool := by
  exact h0
theorem Die.acceptEdge_ok (d : Die) (ch : Chan) (q : ℕ) (elapsed : ℕ) (t : Tick) (rising : Bool) (angle : Option (Word × Bool)) (h0 : DieOk d.ntqPool) : DieOk (Die.acceptEdge d ch q elapsed t rising angle).ntqPool := by
  unfold Die.acceptEdge
  repeat' (first | (first | assumption | with_reducible apply Die.modCh_ok | with_reducible apply Die.zEdge_ok | with_reducible apply Die.pairAct_ok | with_reducible apply Die.capture_ok | with_reducible apply foldl_pools | with_reducible apply Die.fold_ok | with_reducible apply Die.modCh_ok | with_reducible apply PoolsOk.map | with_reducible apply PoolsOk.vmap | with_reducible apply Core.fold_ok | (intro) | split) | dsimp only)
theorem State.trimFeed_pools (s : State) (di : DieId) (c : ChanId) (h0 : PoolsOk s.core s.copy s.mirror.wire s.mirror.rx s.dies) : PoolsOk (State.trimFeed s di c).core (State.trimFeed s di c).copy (State.trimFeed s di c).mirror.wire (State.trimFeed s di c).mirror.rx (State.trimFeed s di c).dies := by
  unfold State.trimFeed
  repeat' (first | (first | assumption | with_reducible apply State.modDie_pools | with_reducible apply Die.modCh_ok | with_reducible apply foldl_pools | with_reducible apply Die.fold_ok | with_reducible apply Die.modCh_ok | with_reducible apply PoolsOk.map | with_reducible apply PoolsOk.vmap | with_reducible apply Core.fold_ok | (intro) | split) | dsimp only)
theorem State.trimPairs_pools (s : State) (ch : Chan) (h0 : PoolsOk s.core s.copy s.mirror.wire s.mirror.rx s.dies) : PoolsOk (State.trimPairs s ch).core (State.trimPairs s ch).copy (State.trimPairs s ch).mirror.wire (State.trimPairs s ch).mirror.rx (State.trimPairs s ch).dies := by
  unfold State.trimPairs
  repeat' (first | (first | assumption | with_reducible apply State.trimFeed_pools | with_reducible apply foldl_pools | with_reducible apply Die.fold_ok | with_reducible apply Die.modCh_ok | with_reducible apply PoolsOk.map | with_reducible apply PoolsOk.vmap | with_reducible apply Core.fold_ok | (intro) | split) | dsimp only)
theorem execComparatorEdge_pools {ch : Chan} {rising : Bool} {s : State} {z} (h : execComparatorEdge ch rising s = .next z) (h0 : PoolsOk s.core s.copy s.mirror.wire s.mirror.rx s.dies) : PoolsOk z.core z.copy z.mirror.wire z.mirror.rx z.dies := by
  cases h; (try dsimp only)
  repeat' (first | assumption | with_reducible apply Die.acceptEdge_ok | with_reducible apply Die.measureEdge_ok | with_reducible apply Die.modCh_ok | with_reducible apply State.modCh_pools | with_reducible apply State.modDie_pools | with_reducible apply State.tickFree_pools | with_reducible apply State.trimPairs_pools | with_reducible apply State.modDie_pools | with_reducible apply State.modCore_pools | with_reducible apply State.modHub_pools | with_reducible apply foldl_pools | with_reducible apply Die.fold_ok | with_reducible apply Core.fold_ok | with_reducible apply Die.modCh_ok | with_reducible apply PoolsOk.map | with_reducible apply PoolsOk.vmap | (intro) | split | dsimp only)
theorem execFilterTick_pools {ch : Chan} {s : State} {z} (h : execFilterTick ch s = .next z) (h0 : PoolsOk s.core s.copy s.mirror.wire s.mirror.rx s.dies) : PoolsOk z.core z.copy z.mirror.wire z.mirror.rx z.dies := by
  cases h; (try unfold execFilterTick)
  (try dsimp only)
  repeat' (first | (first | assumption | with_reducible apply State.trimPairs_pools | with_reducible apply State.modDie_pools | with_reducible apply Die.modCh_ok | with_reducible apply Die.acceptEdge_ok | with_reducible apply foldl_pools | with_reducible apply Die.fold_ok | with_reducible apply Die.modCh_ok | with_reducible apply PoolsOk.map | with_reducible apply PoolsOk.vmap | with_reducible apply Core.fold_ok | (intro) | split) | dsimp only)
theorem execEncoderEpisodeEnd_pools {ch : Chan} {s : State} {z : State} (hz : execEncoderEpisodeEnd ch s = .next z) (h0 : PoolsOk s.core s.copy s.mirror.wire s.mirror.rx s.dies) :
    PoolsOk z.core z.copy z.mirror.wire z.mirror.rx z.dies := by
  cases hz; dsimp only
  repeat' (first | assumption | with_reducible apply State.modCh_pools)
theorem execCountPresetApply_pools {ch : Chan} {s : State} {z} (h : execCountPresetApply ch s = .next z) (h0 : PoolsOk s.core s.copy s.mirror.wire s.mirror.rx s.dies) : PoolsOk z.core z.copy z.mirror.wire z.mirror.rx z.dies := by
  cases h; (try unfold execCountPresetApply)
  (try dsimp only)
  repeat' (first | (first | assumption | with_reducible apply State.trimPairs_pools | with_reducible apply State.modDie_pools | with_reducible apply Die.pairAct_ok | with_reducible apply Die.modCh_ok | with_reducible apply foldl_pools | with_reducible apply Die.fold_ok | with_reducible apply Die.modCh_ok | with_reducible apply PoolsOk.map | with_reducible apply PoolsOk.vmap | with_reducible apply Core.fold_ok | (intro) | split) | dsimp only)
theorem execCaptureHeldTimeout_pools {ch : Chan} {s : State} {z : State} (hz : execCaptureHeldTimeout ch s = .next z) (h0 : PoolsOk s.core s.copy s.mirror.wire s.mirror.rx s.dies) :
    PoolsOk z.core z.copy z.mirror.wire z.mirror.rx z.dies := by
  cases hz; dsimp only
  repeat' (first | assumption | with_reducible apply State.modDie_pools | with_reducible apply State.tickFree_pools | (intro _) | split)
theorem execCaptureRetire_pools {id : ℕ} {s : State} {z : State} (hz : execCaptureRetire id s = .next z) (h0 : PoolsOk s.core s.copy s.mirror.wire s.mirror.rx s.dies) :
    PoolsOk z.core z.copy z.mirror.wire z.mirror.rx z.dies := by
  cases hz; dsimp only
  repeat' (first | assumption | with_reducible apply PoolsOk.map | with_reducible apply Die.finish_ok | (intro _) | split)
theorem Core.modAxis_ok (c : Core) (a : AxisId) (f : Axis → Axis) (h0 : CoreOk c.slots c.store) :
    CoreOk (Core.modAxis c a f).slots (Core.modAxis c a f).store := by
  exact h0
theorem Die.cross_ok (d : Die) (di : DieId) (c : ChanId) (q : ℕ) (elapsed : ℕ) (now : ℕ) (tc : Tick) (n : ℤ) (h0 : DieOk d.ntqPool) :
    DieOk (Die.cross d di c q elapsed now tc n).ntqPool := by
  have e : ∀ (b : Bool) (x : Die) (r : LogRec), DieOk x.ntqPool → DieOk (if b = true then x.raiseHub r else x).ntqPool := fun b x r h => by
    split
    · exact Die.raiseHub_ok _ _ h
    · exact h
  unfold Die.cross
  generalize 8000 * us = n
  refine DieOk.ite (e _ _ _ h0) (DieOk.ite (e _ _ _ h0) h0)
theorem Die.crossStep_ok (di : DieId) (c : ChanId) (q : ℕ) (elapsed : ℕ) (now : ℕ) (ta : Tick) (pa : ℤ) (tb : Tick) (pb : ℤ) (w : ℤ) (d : Die) (n : ℤ) (h0 : DieOk d.ntqPool) :
    DieOk (Die.crossStep di c q elapsed now ta pa tb pb w d n).ntqPool := by
  unfold Die.crossStep; exact Die.cross_ok _ _ _ _ _ _ _ _ h0
theorem Die.crossAll_ok (d : Die) (di : DieId) (c : ChanId) (q : ℕ) (elapsed : ℕ) (now : ℕ) (ta : Tick) (pa : ℤ) (tb : Tick) (pb : ℤ) (h0 : DieOk d.ntqPool) :
    DieOk (Die.crossAll d di c q elapsed now ta pa tb pb).ntqPool := by
  exact DieOk.ite (Die.fold_ok h0 fun y n h => Die.crossStep_ok _ _ _ _ _ _ _ _ _ _ _ _ h) h0
theorem Die.sendHeld_ok (d : Die) (c : ChanId) (q : Tick → ℕ) (angle : Tick → Option (Word × Bool)) (h0 : DieOk d.ntqPool) : DieOk (Die.sendHeld d c q angle).ntqPool := by
  unfold Die.sendHeld
  repeat' (first | (first | assumption | with_reducible apply Die.sendCapture_ok | with_reducible apply foldl_pools | with_reducible apply Die.fold_ok | with_reducible apply Die.modCh_ok | with_reducible apply PoolsOk.map | with_reducible apply PoolsOk.vmap | with_reducible apply Core.fold_ok | (intro) | split) | dsimp only)
theorem Die.axisSampleCh_ok (d : Die) (di : DieId) (c : ChanId) (q : Tick → ℕ) (elapsed : ℕ) (now : ℕ) (angle : Tick → Option (Word × Bool)) (old : Option (Tick × ℤ)) (tb : Tick) (pb : ℤ) (h0 : DieOk d.ntqPool) : DieOk (Die.axisSampleCh d di c q elapsed now angle old tb pb).ntqPool := by
  unfold Die.axisSampleCh
  repeat' (first | (first | assumption | with_reducible apply Die.sendHeld_ok | with_reducible apply Die.crossAll_ok | with_reducible apply foldl_pools | with_reducible apply Die.fold_ok | with_reducible apply Die.modCh_ok | with_reducible apply PoolsOk.map | with_reducible apply PoolsOk.vmap | with_reducible apply Core.fold_ok | (intro) | split) | dsimp only)
theorem Die.axisSample_ok (d : Die) (di : DieId) (a : AxisId) (q : Tick → ℕ) (elapsed : ℕ) (now : ℕ) (angle : Tick → Option (Word × Bool)) (old : Option (Tick × ℤ)) (tb : Tick) (pb : ℤ) (h0 : DieOk d.ntqPool) : DieOk (Die.axisSample d di a q elapsed now angle old tb pb).ntqPool := by
  exact Die.fold_ok h0 fun x c h => DieOk.ite h (Die.axisSampleCh_ok _ _ _ _ _ _ _ _ _ _ h)
theorem State.axisMove_pools (s : State) (a : AxisId) (time : Tick) (p : ℤ) (h0 : PoolsOk s.core s.copy s.mirror.wire s.mirror.rx s.dies) : PoolsOk (State.axisMove s a time p).core (State.axisMove s a time p).copy (State.axisMove s a time p).mirror.wire (State.axisMove s a time p).mirror.rx (State.axisMove s a time p).dies := by
  have r : ∀ (b : Bool) (x : State) e t c st d o, PoolsOk x.core x.copy x.mirror.wire x.mirror.rx x.dies →
      PoolsOk (if b = true then x else x.raiseSrc e t c st d o).core (if b = true then x else x.raiseSrc e t c st d o).copy
        (if b = true then x else x.raiseSrc e t c st d o).mirror.wire (if b = true then x else x.raiseSrc e t c st d o).mirror.rx
        (if b = true then x else x.raiseSrc e t c st d o).dies := fun b x e t c st d o h => by
    split
    · exact h
    · exact State.raiseSrc_pools _ _ _ _ _ _ _ h
  unfold State.axisMove
  extract_lets x s1 s2
  have h1 : PoolsOk s1.core s1.copy s1.mirror.wire s1.mirror.rx s1.dies := State.modCore_pools h0 fun _ h => h
  clear_value s1
  have h2 : PoolsOk s2.core s2.copy s2.mirror.wire s2.mirror.rx s2.dies := r _ _ _ _ _ _ _ _ h1
  clear_value s2
  exact State.overLanes_pools _ _ (fun _ _ h => Die.axisSample_ok _ _ _ _ _ _ _ _ _ _ h) h2
theorem State.axisSample_pools (s : State) (a : AxisId) (time : Tick) (pos : ℤ) (h0 : PoolsOk s.core s.copy s.mirror.wire s.mirror.rx s.dies) : PoolsOk (State.axisSample s a time pos).core (State.axisSample s a time pos).copy (State.axisSample s a time pos).mirror.wire (State.axisSample s a time pos).mirror.rx (State.axisSample s a time pos).dies := by
  unfold State.axisSample
  repeat' (first | (first | assumption | with_reducible apply State.modCore_pools | with_reducible apply Core.modAxis_ok | with_reducible apply State.axisMove_pools | with_reducible apply foldl_pools | with_reducible apply Die.fold_ok | with_reducible apply Die.modCh_ok | with_reducible apply PoolsOk.map | with_reducible apply PoolsOk.vmap | with_reducible apply Core.fold_ok | (intro) | split) | dsimp only)
theorem State.axisSettle_pools (s : State) (a : AxisId) (h0 : PoolsOk s.core s.copy s.mirror.wire s.mirror.rx s.dies) : PoolsOk (State.axisSettle s a).core (State.axisSettle s a).copy (State.axisSettle s a).mirror.wire (State.axisSettle s a).mirror.rx (State.axisSettle s a).dies := by
  unfold State.axisSettle
  repeat' (first | (first | assumption | with_reducible apply State.modDie_pools | with_reducible apply Die.settlePair_ok | with_reducible apply foldl_pools | with_reducible apply Die.fold_ok | with_reducible apply Die.modCh_ok | with_reducible apply PoolsOk.map | with_reducible apply PoolsOk.vmap | with_reducible apply Core.fold_ok | (intro) | split) | dsimp only)
theorem State.axisTake_pools (s : State) (a : AxisId) (ch : Chan) (n : ℕ) (h0 : PoolsOk s.core s.copy s.mirror.wire s.mirror.rx s.dies) : PoolsOk (State.axisTake s a ch n).core (State.axisTake s a ch n).copy (State.axisTake s a ch n).mirror.wire (State.axisTake s a ch n).mirror.rx (State.axisTake s a ch n).dies := by
  unfold State.axisTake
  repeat' (first | (first | assumption | with_reducible apply State.trimFeed_pools | with_reducible apply State.modCore_pools | with_reducible apply Core.modAxis_ok | with_reducible apply foldl_pools | with_reducible apply Die.fold_ok | with_reducible apply Die.modCh_ok | with_reducible apply PoolsOk.map | with_reducible apply PoolsOk.vmap | with_reducible apply Core.fold_ok | (intro) | split) | dsimp only)
theorem State.axisEdge_pools (s : State) (a : AxisId) (h0 : PoolsOk s.core s.copy s.mirror.wire s.mirror.rx s.dies) : PoolsOk (State.axisEdge s a).core (State.axisEdge s a).copy (State.axisEdge s a).mirror.wire (State.axisEdge s a).mirror.rx (State.axisEdge s a).dies := by
  unfold State.axisEdge
  repeat' (first | (first | assumption | with_reducible apply State.axisSettle_pools | with_reducible apply State.axisMove_pools | with_reducible apply State.axisTake_pools | with_reducible apply foldl_pools | with_reducible apply Die.fold_ok | with_reducible apply Die.modCh_ok | with_reducible apply PoolsOk.map | with_reducible apply PoolsOk.vmap | with_reducible apply Core.fold_ok | (intro) | split) | dsimp only)
theorem execAxisSample_pools {a : AxisId} {time : Tick} {pos : ℤ} {s : State} {z} (h : execAxisSample a time pos s = .next z) (h0 : PoolsOk s.core s.copy s.mirror.wire s.mirror.rx s.dies) : PoolsOk z.core z.copy z.mirror.wire z.mirror.rx z.dies := by
  cases h; (try unfold execAxisSample)
  (try dsimp only)
  repeat' (first | (first | assumption | with_reducible apply State.commit_pools | with_reducible apply State.axisEdge_pools | with_reducible apply State.axisSample_pools | with_reducible apply foldl_pools | with_reducible apply Die.fold_ok | with_reducible apply Die.modCh_ok | with_reducible apply PoolsOk.map | with_reducible apply PoolsOk.vmap | with_reducible apply Core.fold_ok | (intro) | split) | dsimp only)
theorem Die.skipSteps_ok (d : Die) (a : AxisId) (p : ℤ) (p' : ℤ) (h0 : DieOk d.ntqPool) :
    DieOk (Die.skipSteps d a p p').ntqPool := by
  exact Die.fold_ok h0 fun x c h => by dsimp only; split <;> (try split) <;> exact h
theorem State.axisZero_pools (s : State) (a : AxisId) (time : Tick) (h0 : PoolsOk s.core s.copy s.mirror.wire s.mirror.rx s.dies) : PoolsOk (State.axisZero s a time).core (State.axisZero s a time).copy (State.axisZero s a time).mirror.wire (State.axisZero s a time).mirror.rx (State.axisZero s a time).dies := by
  have r : ∀ (b : Prop) [Decidable b] (x : State) e t c st d o, PoolsOk x.core x.copy x.mirror.wire x.mirror.rx x.dies →
      PoolsOk (if b then x.raiseSrc e t c st d o else x).core (if b then x.raiseSrc e t c st d o else x).copy
        (if b then x.raiseSrc e t c st d o else x).mirror.wire (if b then x.raiseSrc e t c st d o else x).mirror.rx
        (if b then x.raiseSrc e t c st d o else x).dies := fun b _ x e t c st d o h => by
    split
    · exact State.raiseSrc_pools _ _ _ _ _ _ _ h
    · exact h
  unfold State.axisZero
  extract_lets x dlt p s1 s2
  have h1 : PoolsOk s1.core s1.copy s1.mirror.wire s1.mirror.rx s1.dies := State.modCore_pools h0 fun _ h => h
  clear_value s1
  have h2 : PoolsOk s2.core s2.copy s2.mirror.wire s2.mirror.rx s2.dies := r _ _ _ _ _ _ _ _ h1
  clear_value s2
  split
  · exact State.overLanes_pools _ _ (fun _ _ h => Die.skipSteps_ok _ _ _ _ h) h2
  · exact h2
theorem execAxisZReference_pools {a : AxisId} {time : Tick} {s : State} {z} (h : execAxisZReference a time s = .next z) (h0 : PoolsOk s.core s.copy s.mirror.wire s.mirror.rx s.dies) : PoolsOk z.core z.copy z.mirror.wire z.mirror.rx z.dies := by
  cases h; (try unfold execAxisZReference)
  (try dsimp only)
  repeat' (first | (first | assumption | with_reducible apply State.commit_pools | with_reducible apply State.axisSettle_pools | with_reducible apply State.axisZero_pools | with_reducible apply State.axisTake_pools | with_reducible apply foldl_pools | with_reducible apply Die.fold_ok | with_reducible apply Die.modCh_ok | with_reducible apply PoolsOk.map | with_reducible apply PoolsOk.vmap | with_reducible apply Core.fold_ok | (intro) | split) | dsimp only)
theorem execAxisStill_pools {x1 : AxisId} {s : State} {z : State} (hz : execAxisStill x1 s = .next z) (h0 : PoolsOk s.core s.copy s.mirror.wire s.mirror.rx s.dies) :
    PoolsOk z.core z.copy z.mirror.wire z.mirror.rx z.dies := by
  cases hz; (try unfold execAxisStill)
  (try dsimp only)
  repeat' (first | (first | assumption | with_reducible apply State.modCore_pools | with_reducible apply State.commit_pools | with_reducible apply State.raiseSrc_pools | with_reducible apply Core.modAxis_ok | (intro _) | split) | dsimp only)
theorem execAngleEpisodeEnd_pools {ch : Chan} {overspeed : Bool} {s : State} {z : State} (hz : execAngleEpisodeEnd ch overspeed s = .next z) (h0 : PoolsOk s.core s.copy s.mirror.wire s.mirror.rx s.dies) :
    PoolsOk z.core z.copy z.mirror.wire z.mirror.rx z.dies := by
  cases hz; dsimp only
  repeat' (first | assumption | with_reducible apply State.modCh_pools)
theorem State.mainsMeasure_pools (s : State) (p : ℕ) (inside : Bool) (h0 : PoolsOk s.core s.copy s.mirror.wire s.mirror.rx s.dies) : PoolsOk (State.mainsMeasure s p inside).core (State.mainsMeasure s p inside).copy (State.mainsMeasure s p inside).mirror.wire (State.mainsMeasure s p inside).mirror.rx (State.mainsMeasure s p inside).dies := by
  unfold State.mainsMeasure
  repeat' (first | (first | assumption | with_reducible apply State.modCore_pools | with_reducible apply State.raiseNow_pools | (intro _) | split) | dsimp only)
theorem execMainsZeroCrossing_pools {x : BaseCodes} {s : State} {z} (h : execMainsZeroCrossing x s = .next z) (h0 : PoolsOk s.core s.copy s.mirror.wire s.mirror.rx s.dies) : PoolsOk z.core z.copy z.mirror.wire z.mirror.rx z.dies := by
  cases h; (try unfold execMainsZeroCrossing)
  (try dsimp only)
  repeat' (first | (first | assumption | with_reducible apply State.modCore_pools | with_reducible apply State.commit_pools | with_reducible apply State.mainsMeasure_pools | with_reducible apply foldl_pools | with_reducible apply Die.fold_ok | with_reducible apply Die.modCh_ok | with_reducible apply PoolsOk.map | with_reducible apply PoolsOk.vmap | with_reducible apply Core.fold_ok | (intro) | split) | dsimp only)
theorem execMainsSourceTimeout_pools {s : State} {z : State} (hz : execMainsSourceTimeout s = .next z) (h0 : PoolsOk s.core s.copy s.mirror.wire s.mirror.rx s.dies) :
    PoolsOk z.core z.copy z.mirror.wire z.mirror.rx z.dies := by
  cases hz; dsimp only
  repeat' (first | assumption | with_reducible apply State.modCore_pools | with_reducible apply State.commit_pools | with_reducible apply State.raiseNow_pools | (intro _) | split)
theorem execMainsHoldExpiry_pools {s : State} {z : State} (hz : execMainsHoldExpiry s = .next z) (h0 : PoolsOk s.core s.copy s.mirror.wire s.mirror.rx s.dies) :
    PoolsOk z.core z.copy z.mirror.wire z.mirror.rx z.dies := by
  cases hz; dsimp only
  repeat' (first | assumption | with_reducible apply State.modCore_pools | with_reducible apply State.commit_pools | (intro _) | split)
theorem execMainsBoundarySend_pools {s : State} {z : State} (hz : execMainsBoundarySend s = .next z) (h0 : PoolsOk s.core s.copy s.mirror.wire s.mirror.rx s.dies) :
    PoolsOk z.core z.copy z.mirror.wire z.mirror.rx z.dies := by
  cases hz; (try dsimp only)
  repeat' (first | assumption | with_reducible apply State.commit_pools | with_reducible apply State.modCore_pools | with_reducible apply State.overLanes_pools | with_reducible apply State.modDie_pools | with_reducible apply State.modCore_pools | with_reducible apply State.modHub_pools | with_reducible apply foldl_pools | with_reducible apply Die.fold_ok | with_reducible apply Core.fold_ok | with_reducible apply Die.modCh_ok | with_reducible apply PoolsOk.map | with_reducible apply PoolsOk.vmap | (intro) | split | dsimp only)
theorem execMainsWindowEnd_pools {ch : Chan} {raw : ℤ} {s : State} {z : State} (hz : execMainsWindowEnd ch raw s = .next z) (h0 : PoolsOk s.core s.copy s.mirror.wire s.mirror.rx s.dies) :
    PoolsOk z.core z.copy z.mirror.wire z.mirror.rx z.dies := by
  cases hz; dsimp only
  repeat' (first | assumption | with_reducible apply State.modDie_pools | with_reducible apply Die.deliver_ok | (intro _) | split)
theorem Die.auxResult_ok (d : Die) (src : ℕ) (v : ℤ) (h0 : DieOk d.ntqPool) :
    DieOk (Die.auxResult d src v).ntqPool := by
  unfold Die.auxResult
  repeat' (first | assumption | with_reducible apply Die.rescale_ok | split)
theorem Die.refCheck_ok (d : Die) (h0 : DieOk d.ntqPool) :
    DieOk (Die.refCheck d).ntqPool := by
  unfold Die.refCheck
  repeat' (first | (first | assumption | split) | dsimp only)
theorem Die.installAux_ok (d : Die) (h0 : DieOk d.ntqPool) : DieOk (Die.installAux d).ntqPool := by
  unfold Die.installAux
  repeat' (first | (first | assumption | with_reducible apply foldl_pools | with_reducible apply Die.fold_ok | with_reducible apply Die.modCh_ok | with_reducible apply PoolsOk.map | with_reducible apply PoolsOk.vmap | with_reducible apply Core.fold_ok | (intro) | split) | dsimp only)
theorem execAuxPassStart_pools {d : DieId} {s : State} {z : State} (hz : execAuxPassStart d s = .next z) (h0 : PoolsOk s.core s.copy s.mirror.wire s.mirror.rx s.dies) :
    PoolsOk z.core z.copy z.mirror.wire z.mirror.rx z.dies := by
  cases hz; (try dsimp only)
  repeat' (first | assumption | with_reducible apply Die.installAux_ok | with_reducible apply State.modDie_pools | with_reducible apply State.modDie_pools | with_reducible apply State.modCore_pools | with_reducible apply State.modHub_pools | with_reducible apply foldl_pools | with_reducible apply Die.fold_ok | with_reducible apply Core.fold_ok | with_reducible apply Die.modCh_ok | with_reducible apply PoolsOk.map | with_reducible apply PoolsOk.vmap | (intro) | split | dsimp only)
theorem execAuxEntryEnd_pools {d : DieId} {result : ℤ} {s : State} {z : State} (hz : execAuxEntryEnd d result s = .next z) (h0 : PoolsOk s.core s.copy s.mirror.wire s.mirror.rx s.dies) :
    PoolsOk z.core z.copy z.mirror.wire z.mirror.rx z.dies := by
  cases hz; dsimp only
  repeat' (first | assumption | with_reducible apply State.modDie_pools | with_reducible apply Die.auxResult_ok | with_reducible apply Die.refCheck_ok | (intro _) | split)
theorem Die.endOccurrence_ok (d : Die) (u : Urgent) (h0 : DieOk d.ntqPool) : DieOk (Die.endOccurrence d u).ntqPool := by
  unfold Die.endOccurrence
  repeat' (first | (first | assumption | with_reducible apply Die.finish_ok | with_reducible apply foldl_pools | with_reducible apply Die.fold_ok | with_reducible apply Die.modCh_ok | with_reducible apply PoolsOk.map | with_reducible apply PoolsOk.vmap | with_reducible apply Core.fold_ok | (intro) | split) | dsimp only)
theorem Die.dropUrgent_ok (d : Die) (di : DieId) (q : ℕ) (k : Fin 4) (u : Urgent) (cause : ℕ) (t : Tick) (h0 : DieOk d.ntqPool) :
    DieOk (Die.dropUrgent d di q k u cause t).ntqPool := by
  unfold Die.dropUrgent
  repeat' (first | assumption | with_reducible apply Die.endOccurrence_ok)
theorem execUrgentTrigger_pools {d : DieId} {id : ℕ} {s : State} {z : State} (hz : execUrgentTrigger d id s = .next z) (h0 : PoolsOk s.core s.copy s.mirror.wire s.mirror.rx s.dies) :
    PoolsOk z.core z.copy z.mirror.wire z.mirror.rx z.dies := by
  cases hz; dsimp only
  repeat' (first | assumption | with_reducible apply State.modDie_pools | (intro _) | split)
theorem execUrgentArrival_pools {d : DieId} {k : Fin 4} {s : State} {z : State} (hz : execUrgentArrival d k s = .next z) (h0 : PoolsOk s.core s.copy s.mirror.wire s.mirror.rx s.dies) :
    PoolsOk z.core z.copy z.mirror.wire z.mirror.rx z.dies := by
  cases hz; dsimp only
  repeat' (first | assumption | with_reducible apply State.modDie_pools | with_reducible apply Die.dropUrgent_ok | (intro _) | split)
theorem execPwmEventTimeout_pools {d : DieId} {k : Fin 4} {s : State} {z : State} (hz : execPwmEventTimeout d k s = .next z) (h0 : PoolsOk s.core s.copy s.mirror.wire s.mirror.rx s.dies) :
    PoolsOk z.core z.copy z.mirror.wire z.mirror.rx z.dies := by
  cases hz; dsimp only
  repeat' (first | assumption | with_reducible apply State.modDie_pools | with_reducible apply Die.dropUrgent_ok | (intro _) | split)
theorem execInjectedSequenceEnd_pools {d : DieId} {results : List ℤ} {s : State} {z} (h : execInjectedSequenceEnd d results s = .next z) (h0 : PoolsOk s.core s.copy s.mirror.wire s.mirror.rx s.dies) : PoolsOk z.core z.copy z.mirror.wire z.mirror.rx z.dies := by
  cases h; (try unfold execInjectedSequenceEnd)
  (try dsimp only)
  repeat' (first | (first | assumption | with_reducible apply State.skipFree_pools | with_reducible apply State.modDie_pools | with_reducible apply Die.auxResult_ok | with_reducible apply Die.endOccurrence_ok | with_reducible apply Die.push_ok | with_reducible apply foldl_pools | with_reducible apply Die.fold_ok | with_reducible apply Die.modCh_ok | with_reducible apply PoolsOk.map | with_reducible apply PoolsOk.vmap | with_reducible apply Core.fold_ok | (intro) | split) | dsimp only)
theorem Die.refEvent_ok (d : Die) (di : DieId) (t : ℕ) (q : ℕ) (st : Bool) (sw : Bool) (h0 : DieOk d.ntqPool) :
    DieOk (Die.refEvent d di t q st sw).ntqPool := by
  exact h0
theorem execRefCompare_pools {d : DieId} {diff : ℤ} {s : State} {z : State} (hz : execRefCompare d diff s = .next z) (h0 : PoolsOk s.core s.copy s.mirror.wire s.mirror.rx s.dies) :
    PoolsOk z.core z.copy z.mirror.wire z.mirror.rx z.dies := by
  cases hz; dsimp only
  repeat' (first | assumption | with_reducible apply State.modDie_pools | (intro _) | split)
theorem execRefSwitch_pools {d : DieId} {s : State} {z : State} (hz : execRefSwitch d s = .next z) (h0 : PoolsOk s.core s.copy s.mirror.wire s.mirror.rx s.dies) :
    PoolsOk z.core z.copy z.mirror.wire z.mirror.rx z.dies := by
  cases hz; dsimp only
  repeat' (first | assumption | with_reducible apply State.modDie_pools | (intro _) | split)
theorem Die.modSpare_ok (d : Die) (k : SpareId) (f : Spare → Spare) (h0 : DieOk d.ntqPool) :
    DieOk (Die.modSpare d k f).ntqPool := by
  exact h0
theorem execCarouselSlotStart_pools {d : DieId} {k : SpareId} {s : State} {z : State} (hz : execCarouselSlotStart d k s = .next z) (h0 : PoolsOk s.core s.copy s.mirror.wire s.mirror.rx s.dies) :
    PoolsOk z.core z.copy z.mirror.wire z.mirror.rx z.dies := by
  cases hz; dsimp only
  repeat' (first | assumption | with_reducible apply State.modDie_pools | (intro _) | split)
theorem Die.takeover_ok (x : Die) (d : DieId) (k : SpareId) (q : ℕ) (free : ℕ) (pairs : List (ℤ × ℤ)) (h0 : DieOk x.ntqPool) : DieOk (Die.takeover x d k q free pairs).ntqPool := by
  unfold Die.takeover
  extract_lets p h e
  split
  · repeat' (first | with_reducible assumption | with_reducible apply Die.modSpare_ok | with_reducible apply Die.modCh_ok | with_reducible apply Die.serveUntil_ok | with_reducible apply Die.calSkip_ok | split)
  · exact h0
theorem execCarouselTakeover_pools {d : DieId} {k : SpareId} {own spare : List ℤ} {s : State} {z} (h : execCarouselTakeover d k own spare s = .next z) (h0 : PoolsOk s.core s.copy s.mirror.wire s.mirror.rx s.dies) : PoolsOk z.core z.copy z.mirror.wire z.mirror.rx z.dies := by
  cases h; (try unfold execCarouselTakeover)
  (try dsimp only)
  repeat' (first | (first | assumption | with_reducible apply State.skipFree_pools | with_reducible apply State.modDie_pools | with_reducible apply Die.takeover_ok | with_reducible apply foldl_pools | with_reducible apply Die.fold_ok | with_reducible apply Die.modCh_ok | with_reducible apply PoolsOk.map | with_reducible apply PoolsOk.vmap | with_reducible apply Core.fold_ok | (intro) | split) | dsimp only)
theorem Die.sliceFault_ok (d : Die) (di : DieId) (q : ℕ) (src : ℕ) (h0 : DieOk d.ntqPool) :
    DieOk (Die.sliceFault d di q src).ntqPool := by
  exact h0
theorem Die.cycle16_ok (d : Die) (h0 : DieOk d.ntqPool) :
    DieOk (Die.cycle16 d).ntqPool := by
  exact h0
theorem Die.calReject_ok (d : Die) (q : ℕ) (src : ℕ) (resid : ℤ) (silent : Bool) (h0 : DieOk d.ntqPool) :
    DieOk (Die.calReject d q src resid silent).ntqPool := by
  unfold Die.calReject
  repeat' (first | assumption | split)
theorem Die.pointsEnd_ok (x : Die) (d : DieId) (k : SpareId) (q : ℕ) (free : ℕ) (points : List ℤ) (pairs : List (ℤ × ℤ)) (temp : ℤ) (h0 : DieOk x.ntqPool) : DieOk (Die.pointsEnd x d k q free points pairs temp).ntqPool := by
  unfold Die.pointsEnd
  repeat' (first | (first | assumption | with_reducible apply Die.cycle16_ok | with_reducible apply Die.sliceFault_ok | with_reducible apply Die.modCh_ok | with_reducible apply Die.modSpare_ok | with_reducible apply Die.calReject_ok | with_reducible apply foldl_pools | with_reducible apply Die.fold_ok | with_reducible apply Die.modCh_ok | with_reducible apply PoolsOk.map | with_reducible apply PoolsOk.vmap | with_reducible apply Core.fold_ok | (intro) | split) | dsimp only)
theorem execCarouselPointsEnd_pools {d : DieId} {k : SpareId} {points : List ℤ} {pairs : List (ℤ × ℤ)} {temp : ℤ} {s : State} {z} (h : execCarouselPointsEnd d k points pairs temp s = .next z) (h0 : PoolsOk s.core s.copy s.mirror.wire s.mirror.rx s.dies) : PoolsOk z.core z.copy z.mirror.wire z.mirror.rx z.dies := by
  cases h; (try unfold execCarouselPointsEnd)
  (try dsimp only)
  repeat' (first | (first | assumption | with_reducible apply State.skipFree_pools | with_reducible apply State.modDie_pools | with_reducible apply Die.pointsEnd_ok | with_reducible apply foldl_pools | with_reducible apply Die.fold_ok | with_reducible apply Die.modCh_ok | with_reducible apply PoolsOk.map | with_reducible apply PoolsOk.vmap | with_reducible apply Core.fold_ok | (intro) | split) | dsimp only)
theorem Die.hallmark_ok (d : Die) (di : DieId) (q : ℕ) (time : Tick) (slot : Fin 18) (sliceByte : ℕ) (qty : ℕ) (k : Coeffs) (temp : ℤ) (resid : ℕ) (src : ℕ) (h0 : DieOk d.ntqPool) : DieOk (Die.hallmark d di q time slot sliceByte qty k temp resid src).ntqPool := by
  exact h0
theorem Die.rampAgain_ok (x : Die) (d : DieId) (k : SpareId) (free : ℕ) (r : Tick) (pairs : List (ℤ × ℤ)) (h0 : DieOk x.ntqPool) : DieOk (Die.rampAgain x d k free r pairs).ntqPool := by
  unfold Die.rampAgain
  repeat' (first | (first | assumption | with_reducible apply Die.modSpare_ok | with_reducible apply foldl_pools | with_reducible apply Die.fold_ok | with_reducible apply Die.modCh_ok | with_reducible apply PoolsOk.map | with_reducible apply PoolsOk.vmap | with_reducible apply Core.fold_ok | (intro) | split) | dsimp only)
theorem Die.handOver_ok (x : Die) (d : DieId) (k : SpareId) (q : ℕ) (th : Tick) (h0 : DieOk x.ntqPool) : DieOk (Die.handOver x d k q th).ntqPool := by
  unfold Die.handOver; dsimp only
  have H := Die.serveUntil_ok x d (x.spare k).ch th h0
  split
  · exact Die.hallmark_ok _ _ _ _ _ _ _ _ _ _ _ H
  · exact H
theorem Die.handback_ok (x : Die) (d : DieId) (k : SpareId) (q : ℕ) (free : ℕ) (pairs : List (ℤ × ℤ)) (h0 : DieOk x.ntqPool) : DieOk (Die.handback x d k q free pairs).ntqPool := by
  unfold Die.handback
  repeat' (first | (first | assumption | with_reducible apply Die.handOver_ok | with_reducible apply Die.modSpare_ok | with_reducible apply foldl_pools | with_reducible apply Die.fold_ok | with_reducible apply Die.modCh_ok | with_reducible apply PoolsOk.map | with_reducible apply PoolsOk.vmap | with_reducible apply Core.fold_ok | (intro) | split) | dsimp only)
theorem execCarouselHandback_pools {d : DieId} {k : SpareId} {own spare : List ℤ} {s : State} {z} (h : execCarouselHandback d k own spare s = .next z) (h0 : PoolsOk s.core s.copy s.mirror.wire s.mirror.rx s.dies) : PoolsOk z.core z.copy z.mirror.wire z.mirror.rx z.dies := by
  cases h; (try unfold execCarouselHandback)
  (try dsimp only)
  repeat' (first | (first | assumption | with_reducible apply State.tickFree_pools | with_reducible apply State.modDie_pools | with_reducible apply Die.rampAgain_ok | with_reducible apply Die.handback_ok | with_reducible apply foldl_pools | with_reducible apply Die.fold_ok | with_reducible apply Die.modCh_ok | with_reducible apply PoolsOk.map | with_reducible apply PoolsOk.vmap | with_reducible apply Core.fold_ok | (intro) | split) | dsimp only)
theorem Die.selfCalEnd_ok (x : Die) (d : DieId) (k : SpareId) (q : ℕ) (free : ℕ) (points : List ℤ) (temp : ℤ) (h0 : DieOk x.ntqPool) : DieOk (Die.selfCalEnd x d k q free points temp).ntqPool := by
  unfold Die.selfCalEnd
  repeat' (first | (first | assumption | with_reducible apply Die.cycle16_ok | with_reducible apply Die.sliceFault_ok | with_reducible apply Die.modSpare_ok | with_reducible apply Die.hallmark_ok | with_reducible apply Die.calReject_ok | with_reducible apply foldl_pools | with_reducible apply Die.fold_ok | with_reducible apply Die.modCh_ok | with_reducible apply PoolsOk.map | with_reducible apply PoolsOk.vmap | with_reducible apply Core.fold_ok | (intro) | split) | dsimp only)
theorem execCarouselSelfCalEnd_pools {d : DieId} {k : SpareId} {points : List ℤ} {temp : ℤ} {s : State} {z} (h : execCarouselSelfCalEnd d k points temp s = .next z) (h0 : PoolsOk s.core s.copy s.mirror.wire s.mirror.rx s.dies) : PoolsOk z.core z.copy z.mirror.wire z.mirror.rx z.dies := by
  cases h; (try unfold execCarouselSelfCalEnd)
  (try dsimp only)
  repeat' (first | (first | assumption | with_reducible apply State.skipFree_pools | with_reducible apply State.modDie_pools | with_reducible apply Die.selfCalEnd_ok | with_reducible apply foldl_pools | with_reducible apply Die.fold_ok | with_reducible apply Die.modCh_ok | with_reducible apply PoolsOk.map | with_reducible apply PoolsOk.vmap | with_reducible apply Core.fold_ok | (intro) | split) | dsimp only)
theorem State.putStore_pools (s : State) (f : NvStore → NvStore) (h0 : PoolsOk s.core s.copy s.mirror.wire s.mirror.rx s.dies) :
    PoolsOk (State.putStore s f).core (State.putStore s f).copy (State.putStore s f).mirror.wire (State.putStore s f).mirror.rx (State.putStore s f).dies := by
  unfold State.putStore
  repeat' (first | assumption | split)
theorem State.takeRole_pools {s : State} {key : Bool} {z : State} (hz : State.takeRole s key = some z) (h0 : PoolsOk s.core s.copy s.mirror.wire s.mirror.rx s.dies) :
    PoolsOk z.core z.copy z.mirror.wire z.mirror.rx z.dies := by
  unfold State.takeRole at hz; (try dsimp only at hz); repeat' split at hz
  all_goals (try cases hz)
  all_goals repeat' (first | (first | assumption) | dsimp only)
theorem execWarmStartWrite_pools {s : State} {z} (h : execWarmStartWrite s = .next z) (h0 : PoolsOk s.core s.copy s.mirror.wire s.mirror.rx s.dies) : PoolsOk z.core z.copy z.mirror.wire z.mirror.rx z.dies := by
  cases h; dsimp only
  split
  · split
    · next t e => exact State.commit_pools (State.modCore_pools (State.putStore_pools _ _ (State.tickFree_pools (State.takeRole_pools e h0))) fun _ h => h)
    · exact h0
  · exact h0
theorem Die.endPoint_ok (d : Die) (di : DieId) (c : ChanId) (tp : Tick) (h0 : DieOk d.ntqPool) : DieOk (Die.endPoint d di c tp).ntqPool := by
  unfold Die.endPoint
  repeat' (first | (first | assumption | with_reducible apply Die.serveUntil_ok | with_reducible apply Die.modSpare_ok | with_reducible apply Die.modCh_ok | with_reducible apply foldl_pools | with_reducible apply Die.fold_ok | with_reducible apply Die.modCh_ok | with_reducible apply PoolsOk.map | with_reducible apply PoolsOk.vmap | with_reducible apply Core.fold_ok | (intro) | split) | dsimp only)
theorem execCalPointEnd_pools {ch : Chan} {openSeen : Bool} {subMeans : List ℤ} {s : State} {z} (h : execCalPointEnd ch openSeen subMeans s = .next z) (h0 : PoolsOk s.core s.copy s.mirror.wire s.mirror.rx s.dies) : PoolsOk z.core z.copy z.mirror.wire z.mirror.rx z.dies := by
  cases h; (try unfold execCalPointEnd)
  (try dsimp only)
  repeat' (first | (first | assumption | with_reducible apply State.modCh_pools | with_reducible apply State.modDie_pools | with_reducible apply Die.endPoint_ok | with_reducible apply State.commit_pools | with_reducible apply State.respond_pools | with_reducible apply foldl_pools | with_reducible apply Die.fold_ok | with_reducible apply Die.modCh_ok | with_reducible apply PoolsOk.map | with_reducible apply PoolsOk.vmap | with_reducible apply Core.fold_ok | (intro) | split) | dsimp only)
theorem execSysCorrectionApply_pools {ch : Chan} {s : State} {z} (h : execSysCorrectionApply ch s = .next z) (h0 : PoolsOk s.core s.copy s.mirror.wire s.mirror.rx s.dies) : PoolsOk z.core z.copy z.mirror.wire z.mirror.rx z.dies := by
  cases h; (try unfold execSysCorrectionApply)
  (try dsimp only)
  repeat' (first | (first | assumption | with_reducible apply State.modDie_pools | with_reducible apply Die.modCh_ok | with_reducible apply foldl_pools | with_reducible apply Die.fold_ok | with_reducible apply Die.modCh_ok | with_reducible apply PoolsOk.map | with_reducible apply PoolsOk.vmap | with_reducible apply Core.fold_ok | (intro) | split) | dsimp only)
theorem Die.outSetOne_ok (d : Die) (di : DieId) (q : ℕ) (c : ChanId) (w : Word) (t : Tick) (h0 : DieOk d.ntqPool) : DieOk (Die.outSetOne d di q c w t).ntqPool := by
  unfold Die.outSetOne
  repeat' (first | (first | assumption | with_reducible apply Die.backfeedLeft_ok | with_reducible apply Die.modCh_ok | with_reducible apply foldl_pools | with_reducible apply Die.fold_ok | with_reducible apply Die.modCh_ok | with_reducible apply PoolsOk.map | with_reducible apply PoolsOk.vmap | with_reducible apply Core.fold_ok | (intro) | split) | dsimp only)
theorem Die.outSet_ok (d : Die) (di : DieId) (q : ℕ) (c : ChanId) (w : Word) (t : Tick) (h0 : DieOk d.ntqPool) :
    DieOk (Die.outSet d di q c w t).ntqPool := by
  unfold Die.outSet
  repeat' (first | assumption | with_reducible apply Die.outSetOne_ok | with_reducible apply Die.fold_ok | (intro _))
theorem Die.auxOccurrence_ok (d : Die) (e : Entry) (t : Tick) (h0 : DieOk d.ntqPool) :
    DieOk (Die.auxOccurrence d e t).ntqPool := by
  unfold Die.auxOccurrence
  repeat' (first | assumption | with_reducible apply Die.endOccurrence_ok | split)
theorem Die.timerOccurrence_ok (d : Die) (di : DieId) (q : ℕ) (e : Entry) (t : Tick) (h0 : DieOk d.ntqPool) :
    DieOk (Die.timerOccurrence d di q e t).ntqPool := by
  unfold Die.timerOccurrence
  repeat' (first | assumption | with_reducible apply Die.finish_ok | split)
theorem Die.began_ok (d : Die) (id : ℕ) (more : Bool) (h0 : DieOk d.ntqPool) :
    DieOk (Die.began d id more).ntqPool := by
  unfold Die.began
  repeat' (first | assumption | with_reducible apply Die.finish_ok | split)
theorem State.perform_pools (s : State) (e : Entry) (t : Tick) (h0 : PoolsOk s.core s.copy s.mirror.wire s.mirror.rx s.dies) :
    PoolsOk (State.perform s e t).core (State.perform s e t).copy (State.perform s e t).mirror.wire (State.perform s e t).mirror.rx (State.perform s e t).dies := by
  unfold State.perform
  dsimp only
  split
  · exact State.modDie_pools h0 fun _ h => Die.began_ok _ _ _ h
  · exact State.modDie_pools h0 fun _ h => Die.began_ok _ _ _ h
  · exact State.modDie_pools h0 fun _ h => Die.began_ok _ _ _ (Die.outSet_ok _ _ _ _ _ _ h)
  · exact State.modDie_pools h0 fun _ h => Die.began_ok _ _ _ (Die.modCh_ok h)
  · exact State.settlePools_pools _ _ (State.modDie_pools h0 fun _ h => Die.began_ok _ _ _ (Die.modCh_ok h))
  · exact State.modDie_pools h0 fun _ h => Die.auxOccurrence_ok _ _ _ h
  · exact State.modDie_pools h0 fun _ h => Die.began_ok _ _ _ (Die.modCh_ok h)
  · exact State.applyConfig_pools _ _ _ h0
  · exact State.modDie_pools (State.disableAt_pools _ _ _ _ h0) fun _ h => Die.finish_ok _ _ _ h
  · exact State.modDie_pools h0 fun _ h => Die.timerOccurrence_ok _ _ _ _ _ h
  · exact h0
theorem State.noteExecuted_pools (s : State) (e : Entry) (cs : List ChanId) (h0 : PoolsOk s.core s.copy s.mirror.wire s.mirror.rx s.dies) :
    PoolsOk (State.noteExecuted s e cs).core (State.noteExecuted s e cs).copy (State.noteExecuted s e cs).mirror.wire (State.noteExecuted s e cs).mirror.rx (State.noteExecuted s e cs).dies := by
  unfold State.noteExecuted
  repeat' (first | assumption | with_reducible apply State.modCore_pools | with_reducible apply State.syncShadow_pools | (intro _) | split)
theorem State.unqueuedMiss_pools (s : State) (id : ℕ) (h0 : PoolsOk s.core s.copy s.mirror.wire s.mirror.rx s.dies) :
    PoolsOk (State.unqueuedMiss s id).core (State.unqueuedMiss s id).copy (State.unqueuedMiss s id).mirror.wire (State.unqueuedMiss s id).mirror.rx (State.unqueuedMiss s id).dies := by
  unfold State.unqueuedMiss
  repeat' (first | assumption | with_reducible apply State.commit_pools | with_reducible apply State.outcome_pools | split)
theorem execEntryExecute_pools {id : ℕ} {s : State} {z : State} (hz : execEntryExecute id s = .next z) (h0 : PoolsOk s.core s.copy s.mirror.wire s.mirror.rx s.dies) :
    PoolsOk z.core z.copy z.mirror.wire z.mirror.rx z.dies := by
  cases hz; dsimp only
  repeat' (first | assumption | with_reducible apply State.modDie_pools | with_reducible apply State.commit_pools | with_reducible apply State.perform_pools | with_reducible apply State.noteExecuted_pools | with_reducible apply State.unqueuedMiss_pools | with_reducible apply Die.finish_ok | (intro _) | split)
theorem execEntryRetire_pools {id : ℕ} {s : State} {z : State} (hz : execEntryRetire id s = .next z) (h0 : PoolsOk s.core s.copy s.mirror.wire s.mirror.rx s.dies) :
    PoolsOk z.core z.copy z.mirror.wire z.mirror.rx z.dies := by
  cases hz; (try unfold execEntryRetire)
  (try dsimp only)
  repeat' (first | (first | assumption | with_reducible apply State.modCore_pools | with_reducible apply State.modDie_pools | with_reducible apply State.commit_pools | with_reducible apply State.outcome_pools | with_reducible apply Core.modRecord_ok | (intro _) | split) | dsimp only)
theorem State.cancelEntry_pools (s : State) (e : Entry) (t : Tick) (h0 : PoolsOk s.core s.copy s.mirror.wire s.mirror.rx s.dies) : PoolsOk (State.cancelEntry s e t).core (State.cancelEntry s e t).copy (State.cancelEntry s e t).mirror.wire (State.cancelEntry s e t).mirror.rx (State.cancelEntry s e t).dies := by
  unfold State.cancelEntry
  repeat' (first | (first | assumption | with_reducible apply State.outcome_pools | with_reducible apply State.modDie_pools | with_reducible apply Die.modEntry_ok | with_reducible apply Die.stopFsk_ok | with_reducible apply Die.finish_ok | with_reducible apply foldl_pools | with_reducible apply Die.fold_ok | with_reducible apply Die.modCh_ok | with_reducible apply PoolsOk.map | with_reducible apply PoolsOk.vmap | with_reducible apply Core.fold_ok | (intro) | split) | dsimp only)
theorem execCancelInstant_pools {s : State} {z} (h : execCancelInstant s = .next z) (h0 : PoolsOk s.core s.copy s.mirror.wire s.mirror.rx s.dies) : PoolsOk z.core z.copy z.mirror.wire z.mirror.rx z.dies := by
  cases h; (try unfold execCancelInstant)
  (try dsimp only)
  repeat' (first | (first | assumption | with_reducible apply State.cancelEntry_pools | with_reducible apply State.modCore_pools | with_reducible apply State.commit_pools | with_reducible apply State.respond_pools | with_reducible apply foldl_pools | with_reducible apply Die.fold_ok | with_reducible apply Die.modCh_ok | with_reducible apply PoolsOk.map | with_reducible apply PoolsOk.vmap | with_reducible apply Core.fold_ok | (intro) | split) | dsimp only)
theorem execStaleAgeExpiry_pools {rec : ℕ} {s : State} {z : State} (hz : execStaleAgeExpiry rec s = .next z) (h0 : PoolsOk s.core s.copy s.mirror.wire s.mirror.rx s.dies) :
    PoolsOk z.core z.copy z.mirror.wire z.mirror.rx z.dies := by
  cases hz; dsimp only
  repeat' (first | assumption | with_reducible apply State.modCore_pools | with_reducible apply State.commit_pools | with_reducible apply Core.freeRecord_ok | (intro _) | split)
theorem Die.change_ok (d : Die) (t : Tick) (a : Change) (h0 : DieOk d.ntqPool) :
    DieOk (Die.change d t a).ntqPool := by
  unfold Die.change
  repeat' (first | assumption | with_reducible apply Die.modCh_ok | with_reducible apply Die.putInForce_ok | with_reducible apply State.modCh_pools | with_reducible apply State.modDie_pools | with_reducible apply State.modCore_pools | with_reducible apply State.modHub_pools | with_reducible apply foldl_pools | with_reducible apply Die.fold_ok | with_reducible apply Core.fold_ok | with_reducible apply Die.modCh_ok | with_reducible apply PoolsOk.map | with_reducible apply PoolsOk.vmap | (intro) | split | dsimp only)
theorem State.preempted_pools (s : State) (cls : ℕ) (ids : List ℕ) (h0 : PoolsOk s.core s.copy s.mirror.wire s.mirror.rx s.dies) :
    PoolsOk (State.preempted s cls ids).core (State.preempted s cls ids).copy (State.preempted s cls ids).mirror.wire (State.preempted s cls ids).mirror.rx (State.preempted s cls ids).dies := by
  unfold State.preempted
  repeat' (first | assumption | with_reducible apply State.modCore_pools | with_reducible apply State.outcomes_pools | with_reducible apply State.raiseNow_pools | (intro _))
theorem State.ledgerAdmit_pools {s : State} {items : List PlanItem} {cls : ℕ} {now : Tick} {below : ℕ} {z} (h : State.ledgerAdmit s items cls now below = .ok z) (h0 : PoolsOk s.core s.copy s.mirror.wire s.mirror.rx s.dies) : PoolsOk z.core z.copy z.mirror.wire z.mirror.rx z.dies := by
  unfold State.ledgerAdmit at h; (try dsimp only at h); repeat' split at h
  all_goals (try cases h)
  all_goals repeat' (first | assumption | exact h0 | (first | assumption | with_reducible apply State.modCore_pools | with_reducible apply State.preempted_pools | with_reducible apply foldl_pools | with_reducible apply Die.fold_ok | with_reducible apply Die.modCh_ok | with_reducible apply PoolsOk.map | with_reducible apply PoolsOk.vmap | with_reducible apply Core.fold_ok | (intro) | split) | dsimp only)
theorem State.admitEntry_pools {s : State} {who : Who} {v2 : Bool} {below : ℕ} {unit : List (Chan × SchedEntry × Option ChanImg)} {e : SchedEntry} {octets : List Byte} {z} (h : State.admitEntry s who v2 below unit e octets = .ok z) (h0 : PoolsOk s.core s.copy s.mirror.wire s.mirror.rx s.dies) : PoolsOk z.core z.copy z.mirror.wire z.mirror.rx z.dies := by
  unfold State.admitEntry at h
  split at h
  · injection h
  · try dsimp only at h
    split at h
    · injection h
    · try dsimp only at h
      refine of_check_pools h fun h => of_check_pools h fun h => of_check_pools h fun h => of_check_pools h fun h => of_check_pools h fun h =>
        of_check_pools h fun h => of_check_pools h fun h => of_check_pools h fun h => ?_
      split at h
      · injection h
      · injection h
      · split at h
        · injection h
        · next e =>
          injection h with h
          subst h
          refine State.modCore_pools (State.ledgerAdmit_pools e h0) fun x h => ?_
          exact CoreOk.sreserve (CoreOk.reserve h)
theorem State.admitFrom_pools {s : State} {who : Who} {v2 : Bool} {below : ℕ} {unit : List (Chan × SchedEntry × Option ChanImg)} {x5 : ℕ} {x6 : List (SchedEntry × List Byte)} {z} (h : State.admitFrom s who v2 below unit x5 x6 = .ok z) (h0 : PoolsOk s.core s.copy s.mirror.wire s.mirror.rx s.dies) : PoolsOk z.core z.copy z.mirror.wire z.mirror.rx z.dies := by
  induction x6 generalizing s x5 with
  | nil => cases h; exact h0
  | cons p rest ih =>
    obtain ⟨e, o⟩ := p
    unfold State.admitFrom at h
    split at h
    · cases h
    · next e1 => exact ih h (State.admitEntry_pools e1 h0)
theorem State.admitUnit_pools {s : State} {who : Who} {v2 : Bool} {es : List (SchedEntry × List Byte)} {z} (h : State.admitUnit s who v2 es = .ok z) (h0 : PoolsOk s.core s.copy s.mirror.wire s.mirror.rx s.dies) : PoolsOk z.core z.copy z.mirror.wire z.mirror.rx z.dies := by
  unfold State.admitUnit at h; (try dsimp only at h); repeat' split at h
  all_goals (try cases h)
  all_goals repeat' (first | assumption | exact h0 | (first | assumption | (apply State.admitFrom_pools <;> assumption) | with_reducible apply State.modCore_pools | with_reducible apply State.settlePools_pools | with_reducible apply foldl_pools | with_reducible apply Die.fold_ok | with_reducible apply Die.modCh_ok | with_reducible apply PoolsOk.map | with_reducible apply PoolsOk.vmap | with_reducible apply Core.fold_ok | (intro) | split) | dsimp only)
theorem State.submit_pools (s : State) (who : Who) (v2 : Bool) (es : List (SchedEntry × List Byte)) (h0 : PoolsOk s.core s.copy s.mirror.wire s.mirror.rx s.dies) :
    PoolsOk (State.submit s who v2 es).1.core (State.submit s who v2 es).1.copy (State.submit s who v2 es).1.mirror.wire (State.submit s who v2 es).1.mirror.rx (State.submit s who v2 es).1.dies := by
  unfold State.submit
  dsimp only
  split
  · next e => exact State.modCore_pools (State.admitUnit_pools e h0) fun _ h => h
  · split <;> (try split) <;> exact State.modCore_pools h0 fun _ h => h
theorem State.deferEnd_pools (s : State) (u : DeferUnit) (result : ℕ) (reason : ℕ) (h0 : PoolsOk s.core s.copy s.mirror.wire s.mirror.rx s.dies) :
    PoolsOk (State.deferEnd s u result reason).core (State.deferEnd s u result reason).copy (State.deferEnd s u result reason).mirror.wire (State.deferEnd s u result reason).mirror.rx (State.deferEnd s u result reason).dies := by
  exact h0
theorem State.retryUnit_pools (s : State) (u : DeferUnit) (h0 : PoolsOk s.core s.copy s.mirror.wire s.mirror.rx s.dies) :
    PoolsOk (State.retryUnit s u).core (State.retryUnit s u).copy (State.retryUnit s u).mirror.wire (State.retryUnit s u).mirror.rx (State.retryUnit s u).dies := by
  unfold State.retryUnit
  repeat' (first | (first | assumption | (apply State.admitUnit_pools; assumption) | with_reducible apply State.modCore_pools | with_reducible apply State.deferEnd_pools | (intro _) | split) | dsimp only)
theorem execDeferralRetry_pools {s : State} {z : State} (hz : execDeferralRetry s = .next z) (h0 : PoolsOk s.core s.copy s.mirror.wire s.mirror.rx s.dies) :
    PoolsOk z.core z.copy z.mirror.wire z.mirror.rx z.dies := by
  cases hz; (try unfold execDeferralRetry)
  (try dsimp only)
  repeat' (first | (first | assumption | with_reducible apply State.modCore_pools | with_reducible apply State.commit_pools | with_reducible apply foldl_pools | with_reducible apply State.retryUnit_pools | (intro _) | split) | dsimp only)
theorem Core.prunePlan_ok (c : Core) (d : DieId) (te : Tick) (h0 : CoreOk c.slots c.store) :
    CoreOk (Core.prunePlan c d te).slots (Core.prunePlan c d te).store := by
  exact h0
theorem execLedgerEpoch_pools {d : DieId} {metered : ℕ} {s : State} {z : State} (hz : execLedgerEpoch d metered s = .next z) (h0 : PoolsOk s.core s.copy s.mirror.wire s.mirror.rx s.dies) :
    PoolsOk z.core z.copy z.mirror.wire z.mirror.rx z.dies := by
  cases hz; dsimp only
  repeat' (first | assumption | with_reducible apply State.modCore_pools | with_reducible apply State.modDie_pools | with_reducible apply State.commit_pools | with_reducible apply State.settlePools_pools | with_reducible apply Core.prunePlan_ok | (intro _) | split)
theorem Die.overdraw_ok (d : Die) (source : ℕ) (q : ℕ) (h0 : DieOk d.ntqPool) :
    DieOk (Die.overdraw d source q).ntqPool := by
  exact h0
theorem State.chargeMetered_pools (s : State) (ch : Chan) (heat : ℕ) (h0 : PoolsOk s.core s.copy s.mirror.wire s.mirror.rx s.dies) :
    PoolsOk (State.chargeMetered s ch heat).core (State.chargeMetered s ch heat).copy (State.chargeMetered s ch heat).mirror.wire (State.chargeMetered s ch heat).mirror.rx (State.chargeMetered s ch heat).dies := by
  unfold State.chargeMetered
  repeat' (first | assumption | with_reducible apply State.modDie_pools | with_reducible apply State.preempted_pools | with_reducible apply State.settlePools_pools | with_reducible apply Die.modCh_ok | (intro _) | split)
theorem execHeatMetering_pools {d : DieId} {m : HeatSample} {s : State} {z : State} (hz : execHeatMetering d m s = .next z) (h0 : PoolsOk s.core s.copy s.mirror.wire s.mirror.rx s.dies) :
    PoolsOk z.core z.copy z.mirror.wire z.mirror.rx z.dies := by
  cases hz; dsimp only
  repeat' (first | assumption | with_reducible apply State.modDie_pools | with_reducible apply State.commit_pools | with_reducible apply foldl_pools | with_reducible apply State.chargeMetered_pools | with_reducible apply Die.overdraw_ok | with_reducible apply Die.fold_ok | (intro _) | split)
theorem State.modLedger_pools (s : State) (h : HubId) (f : LedgerRegs → LedgerRegs) (h0 : PoolsOk s.core s.copy s.mirror.wire s.mirror.rx s.dies) :
    PoolsOk (State.modLedger s h f).core (State.modLedger s h f).copy (State.modLedger s h f).mirror.wire (State.modLedger s h f).mirror.rx (State.modLedger s h f).dies := by
  unfold State.modLedger; split <;> exact ⟨h0.core, h0.copy, h0.wire, h0.rx, h0.dies⟩
theorem State.policyEvent_pools (s : State) (h : HubId) (clip : Bool) (h0 : PoolsOk s.core s.copy s.mirror.wire s.mirror.rx s.dies) :
    PoolsOk (State.policyEvent s h clip).core (State.policyEvent s h clip).copy (State.policyEvent s h clip).mirror.wire (State.policyEvent s h clip).mirror.rx (State.policyEvent s h clip).dies := by
  unfold State.policyEvent
  repeat' (first | (first | assumption | with_reducible apply State.raise_pools | with_reducible apply State.modLedger_pools | split) | dsimp only)
theorem execOperatingPointAdjust_pools {h : HubId} {busyPct : ℕ} {s : State} {z : State} (hz : execOperatingPointAdjust h busyPct s = .next z) (h0 : PoolsOk s.core s.copy s.mirror.wire s.mirror.rx s.dies) :
    PoolsOk z.core z.copy z.mirror.wire z.mirror.rx z.dies := by
  cases hz; dsimp only
  repeat' (first | assumption | with_reducible apply State.modHub_pools | with_reducible apply State.commit_pools | with_reducible apply State.policyEvent_pools | with_reducible apply State.settlePackage_pools | split)
theorem execPolicyEpisodeEnd_pools {h : HubId} {clip : Bool} {s : State} {z : State} (hz : execPolicyEpisodeEnd h clip s = .next z) (h0 : PoolsOk s.core s.copy s.mirror.wire s.mirror.rx s.dies) :
    PoolsOk z.core z.copy z.mirror.wire z.mirror.rx z.dies := by
  cases hz; dsimp only
  repeat' (first | assumption | split)
theorem State.confirmPoint_pools (s : State) (h : HubId) (h0 : PoolsOk s.core s.copy s.mirror.wire s.mirror.rx s.dies) :
    PoolsOk (State.confirmPoint s h).core (State.confirmPoint s h).copy (State.confirmPoint s h).mirror.wire (State.confirmPoint s h).mirror.rx (State.confirmPoint s h).dies := by
  unfold State.confirmPoint
  repeat' (first | assumption | with_reducible apply State.settlePackage_pools | split)
theorem execVoltageConfirm_pools {h : HubId} {s : State} {z : State} (hz : execVoltageConfirm h s = .next z) (h0 : PoolsOk s.core s.copy s.mirror.wire s.mirror.rx s.dies) :
    PoolsOk z.core z.copy z.mirror.wire z.mirror.rx z.dies := by
  cases hz; (try unfold execVoltageConfirm)
  (try dsimp only)
  repeat' (first | (first | assumption | with_reducible apply State.commit_pools | with_reducible apply State.confirmPoint_pools | split) | dsimp only)
theorem execVreqAck_pools {h : HubId} {s : State} {z : State} (hz : execVreqAck h s = .next z) (h0 : PoolsOk s.core s.copy s.mirror.wire s.mirror.rx s.dies) :
    PoolsOk z.core z.copy z.mirror.wire z.mirror.rx z.dies := by
  cases hz; (try unfold execVreqAck)
  (try dsimp only)
  repeat' (first | (first | assumption | with_reducible apply State.commit_pools | with_reducible apply State.confirmPoint_pools | split) | dsimp only)
theorem execVreqTimeout_pools {h : HubId} {s : State} {z : State} (hz : execVreqTimeout h s = .next z) (h0 : PoolsOk s.core s.copy s.mirror.wire s.mirror.rx s.dies) :
    PoolsOk z.core z.copy z.mirror.wire z.mirror.rx z.dies := by
  cases hz; dsimp only
  repeat' (first | assumption | with_reducible apply State.commit_pools | with_reducible apply State.raise_pools | with_reducible apply State.settlePackage_pools | split)
theorem State.modCoreOf_pools (s : State) (h : HubId) (f : Core → Core) (hf : ∀ x, CoreOk x.slots x.store → CoreOk (f x).slots (f x).store) (h0 : PoolsOk s.core s.copy s.mirror.wire s.mirror.rx s.dies) :
    PoolsOk (State.modCoreOf s h f).core (State.modCoreOf s h f).copy (State.modCoreOf s h f).mirror.wire (State.modCoreOf s h f).mirror.rx (State.modCoreOf s h f).dies := by
  unfold State.modCoreOf; split
  · exact ⟨hf _ h0.core, h0.copy, h0.wire, h0.rx, h0.dies⟩
  · exact ⟨h0.core, hf _ h0.copy, h0.wire, h0.rx, h0.dies⟩
theorem State.readReg_pools (s : State) (p : PageRef) (off : ℕ) (h0 : PoolsOk s.core s.copy s.mirror.wire s.mirror.rx s.dies) :
    PoolsOk (State.readReg s p off).1.core (State.readReg s p off).1.copy (State.readReg s p off).1.mirror.wire (State.readReg s p off).1.mirror.rx (State.readReg s p off).1.dies := by
  unfold State.readReg
  repeat' (first | (first | assumption | with_reducible apply State.modHdr_pools | split) | dsimp only)
theorem State.unheard_pools (s : State) (p : PageRef) (h0 : PoolsOk s.core s.copy s.mirror.wire s.mirror.rx s.dies) : PoolsOk (State.unheard s p).core (State.unheard s p).copy (State.unheard s p).mirror.wire (State.unheard s p).mirror.rx (State.unheard s p).dies := by
  unfold State.unheard
  repeat' (first | (first | assumption | with_reducible apply State.modDie_pools | with_reducible apply Die.foreign_ok | with_reducible apply foldl_pools | with_reducible apply Die.fold_ok | with_reducible apply Die.modCh_ok | with_reducible apply PoolsOk.map | with_reducible apply PoolsOk.vmap | with_reducible apply Core.fold_ok | (intro) | split) | dsimp only)
theorem State.noteUsable_pools (old : State) (s : State) (h0 : PoolsOk s.core s.copy s.mirror.wire s.mirror.rx s.dies) : PoolsOk (State.noteUsable old s).core (State.noteUsable old s).copy (State.noteUsable old s).mirror.wire (State.noteUsable old s).mirror.rx (State.noteUsable old s).dies := by
  unfold State.noteUsable
  repeat' (first | (first | assumption | with_reducible apply State.noteQuality_pools | with_reducible apply foldl_pools | with_reducible apply Die.fold_ok | with_reducible apply Die.modCh_ok | with_reducible apply PoolsOk.map | with_reducible apply PoolsOk.vmap | with_reducible apply Core.fold_ok | (intro) | split) | dsimp only)
theorem State.enterSync_pools (s : State) (st : SyncState) (ev : Option Ev) (h0 : PoolsOk s.core s.copy s.mirror.wire s.mirror.rx s.dies) :
    PoolsOk (State.enterSync s st ev).core (State.enterSync s st ev).copy (State.enterSync s st ev).mirror.wire (State.enterSync s st ev).mirror.rx (State.enterSync s st ev).dies := by
  unfold State.enterSync
  repeat' (first | assumption | with_reducible apply State.modCore_pools | with_reducible apply State.noteUsable_pools | with_reducible apply State.raiseNow_pools | (intro _) | split)
theorem State.writeAccept_pools (s : State) (b : Bool) (h0 : PoolsOk s.core s.copy s.mirror.wire s.mirror.rx s.dies) :
    PoolsOk (State.writeAccept s b).core (State.writeAccept s b).copy (State.writeAccept s b).mirror.wire (State.writeAccept s b).mirror.rx (State.writeAccept s b).dies := by
  unfold State.writeAccept
  repeat' (first | assumption | with_reducible apply State.modCore_pools | with_reducible apply State.noteUsable_pools | (intro _))
theorem State.modPtp_pools (s : State) (p : PortId) (f : PtpPort → PtpPort) (h0 : PoolsOk s.core s.copy s.mirror.wire s.mirror.rx s.dies) :
    PoolsOk (State.modPtp s p f).core (State.modPtp s p f).copy (State.modPtp s p f).mirror.wire (State.modPtp s p f).mirror.rx (State.modPtp s p f).dies := by
  exact h0
theorem State.bmca_pools (s : State) (h0 : PoolsOk s.core s.copy s.mirror.wire s.mirror.rx s.dies) :
    PoolsOk (State.bmca s).core (State.bmca s).copy (State.bmca s).mirror.wire (State.bmca s).mirror.rx (State.bmca s).dies := by
  unfold State.bmca
  repeat' (first | (first | assumption | with_reducible apply State.enterSync_pools | split) | dsimp only)
theorem State.noteMix_pools (old : State) (s : State) (h0 : PoolsOk s.core s.copy s.mirror.wire s.mirror.rx s.dies) :
    PoolsOk (State.noteMix old s).core (State.noteMix old s).copy (State.noteMix old s).mirror.wire (State.noteMix old s).mirror.rx (State.noteMix old s).dies := by
  unfold State.noteMix
  repeat' (first | assumption | split)
theorem State.ptpRestart_pools (s : State) (p : PortId) (forget : Bool) (h0 : PoolsOk s.core s.copy s.mirror.wire s.mirror.rx s.dies) : PoolsOk (State.ptpRestart s p forget).core (State.ptpRestart s p forget).copy (State.ptpRestart s p forget).mirror.wire (State.ptpRestart s p forget).mirror.rx (State.ptpRestart s p forget).dies := by
  unfold State.ptpRestart
  repeat' (first | (first | assumption | with_reducible apply State.modPtp_pools | with_reducible apply State.bmca_pools | with_reducible apply State.noteMix_pools | with_reducible apply foldl_pools | with_reducible apply Die.fold_ok | with_reducible apply Die.modCh_ok | with_reducible apply PoolsOk.map | with_reducible apply PoolsOk.vmap | with_reducible apply Core.fold_ok | (intro) | split) | dsimp only)
theorem State.loseAnnounce_pools (s : State) (p : PortId) (h0 : PoolsOk s.core s.copy s.mirror.wire s.mirror.rx s.dies) :
    PoolsOk (State.loseAnnounce s p).core (State.loseAnnounce s p).copy (State.loseAnnounce s p).mirror.wire (State.loseAnnounce s p).mirror.rx (State.loseAnnounce s p).dies := by
  unfold State.loseAnnounce
  repeat' (first | assumption | with_reducible apply State.bmca_pools)
theorem State.stopPorts_pools (s : State) (h : HubId) (h0 : PoolsOk s.core s.copy s.mirror.wire s.mirror.rx s.dies) :
    PoolsOk (State.stopPorts s h).core (State.stopPorts s h).copy (State.stopPorts s h).mirror.wire (State.stopPorts s h).mirror.rx (State.stopPorts s h).dies := by
  unfold State.stopPorts
  repeat' (first | assumption | with_reducible apply State.bmca_pools | with_reducible apply State.settlePackage_pools | with_reducible apply State.modDie_pools | with_reducible apply State.modCore_pools | with_reducible apply State.modHub_pools | with_reducible apply foldl_pools | with_reducible apply Die.fold_ok | with_reducible apply Core.fold_ok | with_reducible apply Die.modCh_ok | with_reducible apply PoolsOk.map | with_reducible apply PoolsOk.vmap | (intro) | split | dsimp only)
theorem Core.resetCounters_ok (c b : Core) (r : ℕ) (h0 : CoreOk c.slots c.store) :
    CoreOk (c.resetCounters b r).slots (c.resetCounters b r).store := by
  unfold Core.resetCounters; split <;> exact h0
theorem State.resetHubCounters_pools (s : State) (h : HubId) (r : Fin 12) (h0 : PoolsOk s.core s.copy s.mirror.wire s.mirror.rx s.dies) :
    PoolsOk (State.resetHubCounters s h r).core (State.resetHubCounters s h r).copy (State.resetHubCounters s h r).mirror.wire (State.resetHubCounters s h r).mirror.rx (State.resetHubCounters s h r).dies := by
  unfold State.resetHubCounters
  repeat' (first | assumption | with_reducible apply Core.resetCounters_ok | with_reducible apply PoolsOk.vmap | with_reducible apply PoolsOk.map | with_reducible apply State.modCoreOf_pools | with_reducible apply State.modLedger_pools | (intro _) | split)
theorem Die.resetCounters_ok (d b : Die) (r : Fin 23) (h0 : DieOk d.ntqPool) :
    DieOk (Die.resetCounters d b r).ntqPool := by
  unfold Die.resetCounters
  repeat' (first | assumption | split)
theorem State.blockReset_pools (s : State) (p : PageRef) (h0 : PoolsOk s.core s.copy s.mirror.wire s.mirror.rx s.dies) :
    PoolsOk (State.blockReset s p).core (State.blockReset s p).copy (State.blockReset s p).mirror.wire (State.blockReset s p).mirror.rx (State.blockReset s p).dies := by
  unfold State.blockReset
  repeat' (first | assumption | with_reducible apply State.modDie_pools | with_reducible apply State.resetHubCounters_pools | with_reducible apply State.modHdr_pools | with_reducible apply Die.resetCounters_ok | (intro _) | split)
theorem State.setFreeze_pools (s : State) (p : PageRef) (b : Bool) (h0 : PoolsOk s.core s.copy s.mirror.wire s.mirror.rx s.dies) :
    PoolsOk (State.setFreeze s p b).core (State.setFreeze s p b).copy (State.setFreeze s p b).mirror.wire (State.setFreeze s p b).mirror.rx (State.setFreeze s p b).dies := by
  unfold State.setFreeze
  repeat' (first | assumption | with_reducible apply State.modHdr_pools | split)
theorem State.writeHdr_pools (s : State) (p : PageRef) (off : ℕ) (w : Word) (h0 : PoolsOk s.core s.copy s.mirror.wire s.mirror.rx s.dies) :
    PoolsOk (State.writeHdr s p off w).core (State.writeHdr s p off w).copy (State.writeHdr s p off w).mirror.wire (State.writeHdr s p off w).mirror.rx (State.writeHdr s p off w).dies := by
  unfold State.writeHdr
  repeat' (first | assumption | with_reducible apply State.blockReset_pools | with_reducible apply State.setFreeze_pools | with_reducible apply State.modHdr_pools | split)
theorem State.shiftOut_pools (s : State) (h : HubId) (l : List Word) (h0 : PoolsOk s.core s.copy s.mirror.wire s.mirror.rx s.dies) :
    PoolsOk (State.shiftOut s h l).core (State.shiftOut s h l).copy (State.shiftOut s h l).mirror.wire (State.shiftOut s h l).mirror.rx (State.shiftOut s h l).dies := by
  exact h0
theorem State.release_pools (s : State) (x1 : HeldBack) (h0 : PoolsOk s.core s.copy s.mirror.wire s.mirror.rx s.dies) :
    PoolsOk (State.release s x1).core (State.release s x1).copy (State.release s x1).mirror.wire (State.release s x1).mirror.rx (State.release s x1).dies := by
  unfold State.release
  repeat' (first | assumption | with_reducible apply State.emit_pools | with_reducible apply State.retire_pools | split)
theorem State.releaseTo_pools (s : State) (k : ℕ) (h0 : PoolsOk s.core s.copy s.mirror.wire s.mirror.rx s.dies) :
    PoolsOk (State.releaseTo s k).core (State.releaseTo s k).copy (State.releaseTo s k).mirror.wire (State.releaseTo s k).mirror.rx (State.releaseTo s k).dies := by
  unfold State.releaseTo
  repeat' (first | assumption | with_reducible apply foldl_pools | with_reducible apply State.release_pools)
theorem State.applyUnit_pools (s : State) (u : MUnit) (h0 : PoolsOk s.core s.copy s.mirror.wire s.mirror.rx s.dies) (hu : CoreOk u.core.slots u.core.store) :
    PoolsOk (State.applyUnit s u).core (State.applyUnit s u).copy (State.applyUnit s u).mirror.wire (State.applyUnit s u).mirror.rx (State.applyUnit s u).dies := by
  unfold State.applyUnit
  extract_lets o t
  have h : PoolsOk t.core t.copy t.mirror.wire t.mirror.rx t.dies := foldl_pools h0 fun x w h => by
    split
    · exact State.writeHdr_pools _ _ _ _ h
    · exact h
  clear_value t
  exact ⟨h.core, hu, h.wire, h.rx, h.dies⟩
theorem State.stopMirror_pools (s : State) (h0 : PoolsOk s.core s.copy s.mirror.wire s.mirror.rx s.dies) :
    PoolsOk (State.stopMirror s).core (State.stopMirror s).copy (State.stopMirror s).mirror.wire (State.stopMirror s).mirror.rx (State.stopMirror s).dies := by
  exact State.releaseTo_pools _ _ h0.noWire
theorem State.dropMirror_pools (s : State) (h0 : PoolsOk s.core s.copy s.mirror.wire s.mirror.rx s.dies) : PoolsOk (State.dropMirror s).core (State.dropMirror s).copy (State.dropMirror s).mirror.wire (State.dropMirror s).mirror.rx (State.dropMirror s).dies := by
  exact h0.noWire
theorem State.finishMirror_pools (s : State) (h0 : PoolsOk s.core s.copy s.mirror.wire s.mirror.rx s.dies) :
    PoolsOk (State.finishMirror s).core (State.finishMirror s).copy (State.finishMirror s).mirror.wire (State.finishMirror s).mirror.rx (State.finishMirror s).dies := by
  have go : ∀ (l : List MUnit) (x : State), (∀ u ∈ l, CoreOk u.core.slots u.core.store) →
      PoolsOk x.core x.copy x.mirror.wire x.mirror.rx x.dies →
      PoolsOk (l.foldl State.applyUnit x).core (l.foldl State.applyUnit x).copy (l.foldl State.applyUnit x).mirror.wire
        (l.foldl State.applyUnit x).mirror.rx (l.foldl State.applyUnit x).dies := by
    intro l
    induction l with
    | nil => exact fun _ _ h => h
    | cons u l ih =>
      intro x hl h
      rw [List.foldl_cons]
      exact ih _ (fun v hv => hl v (List.mem_cons_of_mem _ hv)) (State.applyUnit_pools _ _ h (hl u List.mem_cons_self))
  have h := go s.mirror.wire s h0.wire h0
  exact State.releaseTo_pools _ _ h.noWire
theorem State.startSwitchover_pools (s : State) (cause : ℕ) (req : Option Req) (h0 : PoolsOk s.core s.copy s.mirror.wire s.mirror.rx s.dies) :
    PoolsOk (State.startSwitchover s cause req).core (State.startSwitchover s cause req).copy (State.startSwitchover s cause req).mirror.wire (State.startSwitchover s cause req).mirror.rx (State.startSwitchover s cause req).dies := by
  unfold State.startSwitchover; dsimp only
  repeat' (first | (first | assumption | with_reducible apply State.modHub_pools | with_reducible apply State.finishMirror_pools | split) | dsimp only)
theorem State.becomeActive_pools (s : State) (h : HubId) (failed : Bool) (h0 : PoolsOk s.core s.copy s.mirror.wire s.mirror.rx s.dies) :
    PoolsOk (State.becomeActive s h failed).core (State.becomeActive s h failed).copy (State.becomeActive s h failed).mirror.wire (State.becomeActive s h failed).mirror.rx (State.becomeActive s h failed).dies := by
  unfold State.becomeActive
  dsimp only
  split
  · exact State.stopPorts_pools _ _ (State.modHub_pools (State.modHub_pools (h0.swap.setCore fun h => h)))
  · exact State.bmca_pools _ (State.modHub_pools (State.modHub_pools (h0.swap.setCore fun h => h)))
theorem State.retireRecorded_pools (s : State) (h0 : PoolsOk s.core s.copy s.mirror.wire s.mirror.rx s.dies) :
    PoolsOk (State.retireRecorded s).core (State.retireRecorded s).copy (State.retireRecorded s).mirror.wire (State.retireRecorded s).mirror.rx (State.retireRecorded s).dies := by
  unfold State.retireRecorded
  repeat' (first | assumption | with_reducible apply foldl_pools | with_reducible apply State.retire_pools | (intro _) | split)
theorem State.takeOver_pools (s : State) (h : HubId) (h0 : PoolsOk s.core s.copy s.mirror.wire s.mirror.rx s.dies) :
    PoolsOk (State.takeOver s h).core (State.takeOver s h).copy (State.takeOver s h).mirror.wire (State.takeOver s h).mirror.rx (State.takeOver s h).dies := by
  unfold State.takeOver
  repeat' (first | assumption | with_reducible apply State.modHub_pools | with_reducible apply State.raise_pools | with_reducible apply State.retireRecorded_pools | with_reducible apply State.becomeActive_pools | dsimp only)
theorem State.switchOver_pools (s : State) (h : HubId) (ts : Tick) (t0 : ℕ) (req : Option Req) (cause : ℕ) (h0 : PoolsOk s.core s.copy s.mirror.wire s.mirror.rx s.dies) :
    PoolsOk (State.switchOver s h ts t0 req cause).core (State.switchOver s h ts t0 req cause).copy (State.switchOver s h ts t0 req cause).mirror.wire (State.switchOver s h ts t0 req cause).mirror.rx (State.switchOver s h ts t0 req cause).dies := by
  unfold State.switchOver
  repeat' (first | assumption | with_reducible apply State.raise_pools | with_reducible apply State.retireRecorded_pools | with_reducible apply State.becomeActive_pools | with_reducible apply State.finishMirror_pools | with_reducible apply State.respond_pools | split | dsimp only)
theorem State.takeoverComplete_pools (s : State) (h : HubId) (h0 : PoolsOk s.core s.copy s.mirror.wire s.mirror.rx s.dies) :
    PoolsOk (State.takeoverComplete s h).core (State.takeoverComplete s h).copy (State.takeoverComplete s h).mirror.wire (State.takeoverComplete s h).mirror.rx (State.takeoverComplete s h).dies := by
  unfold State.takeoverComplete
  repeat' (first | assumption | with_reducible apply State.takeOver_pools | with_reducible apply State.switchOver_pools | split | dsimp only)
theorem State.raiseFault_pools (s : State) (h : HubId) (source : ℕ) (unit : ℕ) (h0 : PoolsOk s.core s.copy s.mirror.wire s.mirror.rx s.dies) :
    PoolsOk (State.raiseFault s h source unit).core (State.raiseFault s h source unit).copy (State.raiseFault s h source unit).mirror.wire (State.raiseFault s h source unit).mirror.rx (State.raiseFault s h source unit).dies := by
  exact h0
theorem State.hubFault_pools (s : State) (h : HubId) (h0 : PoolsOk s.core s.copy s.mirror.wire s.mirror.rx s.dies) :
    PoolsOk (State.hubFault s h).core (State.hubFault s h).copy (State.hubFault s h).mirror.wire (State.hubFault s h).mirror.rx (State.hubFault s h).dies := by
  unfold State.hubFault
  repeat' (first | assumption | with_reducible apply State.modCore_pools | with_reducible apply State.modHub_pools | with_reducible apply State.startSwitchover_pools | with_reducible apply State.stopMirror_pools | with_reducible apply State.stopPorts_pools | with_reducible apply State.modDie_pools | with_reducible apply State.modCore_pools | with_reducible apply State.modHub_pools | with_reducible apply foldl_pools | with_reducible apply Die.fold_ok | with_reducible apply Core.fold_ok | with_reducible apply Die.modCh_ok | with_reducible apply PoolsOk.map | with_reducible apply PoolsOk.vmap | (intro) | split | dsimp only)
theorem State.box_pools (s : State) (hh : HubId) (t : Tick) (recs : List (ℕ × List Byte)) (h0 : PoolsOk s.core s.copy s.mirror.wire s.mirror.rx s.dies) : PoolsOk (State.box s hh t recs).core (State.box s hh t recs).copy (State.box s hh t recs).mirror.wire (State.box s hh t recs).mirror.rx (State.box s hh t recs).dies := by
  exact h0
theorem State.boxSnapshot_pools (s : State) (hs : List HubId) (ds : List DieId) (t : Tick) (h0 : PoolsOk s.core s.copy s.mirror.wire s.mirror.rx s.dies) : PoolsOk (State.boxSnapshot s hs ds t).core (State.boxSnapshot s hs ds t).copy (State.boxSnapshot s hs ds t).mirror.wire (State.boxSnapshot s hs ds t).mirror.rx (State.boxSnapshot s hs ds t).dies := by
  unfold State.boxSnapshot
  repeat' (first | (first | assumption | with_reducible apply State.box_pools | with_reducible apply foldl_pools | with_reducible apply Die.fold_ok | with_reducible apply Die.modCh_ok | with_reducible apply PoolsOk.map | with_reducible apply PoolsOk.vmap | with_reducible apply Core.fold_ok | (intro) | split) | dsimp only)
theorem State.poolMismatch_pools (s : State) (hs : List HubId) (ds : List DieId) (t : Tick) (b : Bool) (h0 : PoolsOk s.core s.copy s.mirror.wire s.mirror.rx s.dies) : PoolsOk (State.poolMismatch s hs ds t b).core (State.poolMismatch s hs ds t b).copy (State.poolMismatch s hs ds t b).mirror.wire (State.poolMismatch s hs ds t b).mirror.rx (State.poolMismatch s hs ds t b).dies := by
  unfold State.poolMismatch
  repeat' (first | (first | assumption | with_reducible apply State.modCore_pools | with_reducible apply State.modDie_pools | with_reducible apply foldl_pools | with_reducible apply State.raise_pools | with_reducible apply State.boxSnapshot_pools | with_reducible apply State.raiseFault_pools | with_reducible apply State.hubFault_pools | with_reducible apply Die.raise_ok | (intro _) | split) | dsimp only)
theorem State.modLink_pools (s : State) (l : Link) (f : Lane → Lane) (h0 : PoolsOk s.core s.copy s.mirror.wire s.mirror.rx s.dies) :
    PoolsOk (State.modLink s l f).core (State.modLink s l f).copy (State.modLink s l f).mirror.wire (State.modLink s l f).mirror.rx (State.modLink s l f).dies := by
  unfold State.modLink
  repeat' (first | assumption | split)
theorem Die.returned_ok (d : Die) (n : ℕ) (h0 : DieOk d.ntqPool) :
    DieOk (Die.returned d n).ntqPool := by
  exact h0
theorem State.creditDown_pools (s : State) (hh : HubId) (d : DieId) (n : ℕ) (h0 : PoolsOk s.core s.copy s.mirror.wire s.mirror.rx s.dies) : PoolsOk (State.creditDown s hh d n).core (State.creditDown s hh d n).copy (State.creditDown s hh d n).mirror.wire (State.creditDown s hh d n).mirror.rx (State.creditDown s hh d n).dies := by
  unfold State.creditDown
  repeat' (first | (first | assumption | with_reducible apply State.modDie_pools | with_reducible apply Die.returned_ok | with_reducible apply foldl_pools | with_reducible apply Die.fold_ok | with_reducible apply Die.modCh_ok | with_reducible apply PoolsOk.map | with_reducible apply PoolsOk.vmap | with_reducible apply Core.fold_ok | (intro) | split) | dsimp only)
theorem State.frameDown_pools (s : State) (hh : HubId) (d : DieId) (type : ℕ) (payload : Dword) (h0 : PoolsOk s.core s.copy s.mirror.wire s.mirror.rx s.dies) : PoolsOk (State.frameDown s hh d type payload).core (State.frameDown s hh d type payload).copy (State.frameDown s hh d type payload).mirror.wire (State.frameDown s hh d type payload).mirror.rx (State.frameDown s hh d type payload).dies := by
  unfold State.frameDown
  repeat' (first | (first | assumption | with_reducible apply State.creditDown_pools | with_reducible apply State.modLane_pools | with_reducible apply foldl_pools | with_reducible apply Die.fold_ok | with_reducible apply Die.modCh_ok | with_reducible apply PoolsOk.map | with_reducible apply PoolsOk.vmap | with_reducible apply Core.fold_ok | (intro) | split) | dsimp only)
theorem State.bufferedDown_pools (s : State) (h : HubId) (d : DieId) (x : DownItem) (payload : Dword) (h0 : PoolsOk s.core s.copy s.mirror.wire s.mirror.rx s.dies) :
    PoolsOk (State.bufferedDown s h d x payload).core (State.bufferedDown s h d x payload).copy (State.bufferedDown s h d x payload).mirror.wire (State.bufferedDown s h d x payload).mirror.rx (State.bufferedDown s h d x payload).dies := by
  exact State.creditDown_pools _ _ _ _ (State.modLane_pools h0)
theorem State.strayDown_pools (s : State) (h : HubId) (d : DieId) (x : DownItem) (payload : Dword) (h0 : PoolsOk s.core s.copy s.mirror.wire s.mirror.rx s.dies) :
    PoolsOk (State.strayDown s h d x payload).core (State.strayDown s h d x payload).copy (State.strayDown s h d x payload).mirror.wire (State.strayDown s h d x payload).mirror.rx (State.strayDown s h d x payload).dies := by
  exact State.creditDown_pools _ _ _ _ (State.modLane_pools h0)
theorem State.sendDown_pools (s : State) (h : HubId) (d : DieId) (x : DownItem) (payload : Dword) (f : State → State) (h0 : PoolsOk s.core s.copy s.mirror.wire s.mirror.rx s.dies) (fk : ∀ x, PoolsOk x.core x.copy x.mirror.wire x.mirror.rx x.dies → PoolsOk (f x).core (f x).copy (f x).mirror.wire (f x).mirror.rx (f x).dies) :
    PoolsOk (State.sendDown s h d x payload f).core (State.sendDown s h d x payload f).copy (State.sendDown s h d x payload f).mirror.wire (State.sendDown s h d x payload f).mirror.rx (State.sendDown s h d x payload f).dies := by
  unfold State.sendDown
  repeat' (first | assumption | with_reducible apply State.bufferedDown_pools | with_reducible apply State.strayDown_pools | with_reducible apply fk | split)
theorem State.passStr_pools (s : State) (hh : HubId) (type : StrType) (payload : Dword) (h0 : PoolsOk s.core s.copy s.mirror.wire s.mirror.rx s.dies) : PoolsOk (State.passStr s hh type payload).core (State.passStr s hh type payload).copy (State.passStr s hh type payload).mirror.wire (State.passStr s hh type payload).mirror.rx (State.passStr s hh type payload).dies := by
  exact h0
theorem State.countStr_pools (s : State) (h : HubId) (f : LinkErr → LinkErr) (h0 : PoolsOk s.core s.copy s.mirror.wire s.mirror.rx s.dies) :
    PoolsOk (State.countStr s h f).core (State.countStr s h f).copy (State.countStr s h f).mirror.wire (State.countStr s h f).mirror.rx (State.countStr s h f).dies := by
  exact h0
theorem State.strayStr_pools (s : State) (hh : HubId) (type : StrType) (payload : Dword) (h0 : PoolsOk s.core s.copy s.mirror.wire s.mirror.rx s.dies) : PoolsOk (State.strayStr s hh type payload).core (State.strayStr s hh type payload).copy (State.strayStr s hh type payload).mirror.wire (State.strayStr s hh type payload).mirror.rx (State.strayStr s hh type payload).dies := by
  exact h0
theorem State.gotStr_pools (s : State) (hh : HubId) (type : ℕ) (payload : Dword) (h0 : PoolsOk s.core s.copy s.mirror.wire s.mirror.rx s.dies) : PoolsOk (State.gotStr s hh type payload).core (State.gotStr s hh type payload).copy (State.gotStr s hh type payload).mirror.wire (State.gotStr s hh type payload).mirror.rx (State.gotStr s hh type payload).dies := by
  exact h0
theorem State.sendStr_pools (s : State) (hh : HubId) (type : StrType) (payload : Dword) (f : State → State) (h0 : PoolsOk s.core s.copy s.mirror.wire s.mirror.rx s.dies) (fk : ∀ y0, PoolsOk y0.core y0.copy y0.mirror.wire y0.mirror.rx y0.dies → PoolsOk (f y0).core (f y0).copy (f y0).mirror.wire (f y0).mirror.rx (f y0).dies) : PoolsOk (State.sendStr s hh type payload f).core (State.sendStr s hh type payload f).copy (State.sendStr s hh type payload f).mirror.wire (State.sendStr s hh type payload f).mirror.rx (State.sendStr s hh type payload f).dies := by
  unfold State.sendStr
  repeat' (first | (first | assumption | with_reducible apply State.passStr_pools | with_reducible apply State.strayStr_pools | with_reducible apply foldl_pools | with_reducible apply Die.fold_ok | with_reducible apply Die.modCh_ok | with_reducible apply PoolsOk.map | with_reducible apply PoolsOk.vmap | with_reducible apply Core.fold_ok | (with_reducible apply fk) | (intro) | split) | dsimp only)
theorem execOutputStateSend_pools {d : DieId} {s : State} {z : State} (hz : execOutputStateSend d s = .next z) (h0 : PoolsOk s.core s.copy s.mirror.wire s.mirror.rx s.dies) :
    PoolsOk z.core z.copy z.mirror.wire z.mirror.rx z.dies := by
  cases hz; (try unfold execOutputStateSend)
  (try dsimp only)
  repeat' (first | (first | assumption | split) | dsimp only)
theorem execOutputStateReceive_pools {hh : HubId} {d : DieId} {k : Fin 4} {s : State} {z} (h : execOutputStateReceive hh d k s = .next z) (h0 : PoolsOk s.core s.copy s.mirror.wire s.mirror.rx s.dies) : PoolsOk z.core z.copy z.mirror.wire z.mirror.rx z.dies := by
  cases h; (try unfold execOutputStateReceive)
  (try dsimp only)
  repeat' (first | (first | assumption | with_reducible apply State.modDie_pools | with_reducible apply State.frameDown_pools | with_reducible apply Die.applyLevels_ok | with_reducible apply State.commit_pools | with_reducible apply State.syncShadow_pools | with_reducible apply foldl_pools | with_reducible apply Die.fold_ok | with_reducible apply Die.modCh_ok | with_reducible apply PoolsOk.map | with_reducible apply PoolsOk.vmap | with_reducible apply Core.fold_ok | (intro) | split) | dsimp only)
theorem execStatusSend_pools {d : DieId} {s : State} {z : State} (hz : execStatusSend d s = .next z) (h0 : PoolsOk s.core s.copy s.mirror.wire s.mirror.rx s.dies) :
    PoolsOk z.core z.copy z.mirror.wire z.mirror.rx z.dies := by
  cases hz; (try unfold execStatusSend)
  (try dsimp only)
  repeat' (first | (first | assumption | with_reducible apply State.modDie_pools | (intro _) | split) | dsimp only)
theorem State.pushConfig_pools (s : State) (ch : Chan) (h0 : PoolsOk s.core s.copy s.mirror.wire s.mirror.rx s.dies) : PoolsOk (State.pushConfig s ch).core (State.pushConfig s ch).copy (State.pushConfig s ch).mirror.wire (State.pushConfig s ch).mirror.rx (State.pushConfig s ch).dies := by
  unfold State.pushConfig
  repeat' (first | (first | assumption | with_reducible apply State.queueConfig_pools | with_reducible apply foldl_pools | with_reducible apply Die.fold_ok | with_reducible apply Die.modCh_ok | with_reducible apply PoolsOk.map | with_reducible apply PoolsOk.vmap | with_reducible apply Core.fold_ok | (intro) | split) | dsimp only)
theorem State.pushIntent_pools (s : State) (ch : Chan) (h0 : PoolsOk s.core s.copy s.mirror.wire s.mirror.rx s.dies) : PoolsOk (State.pushIntent s ch).core (State.pushIntent s ch).copy (State.pushIntent s ch).mirror.wire (State.pushIntent s ch).mirror.rx (State.pushIntent s ch).dies := by
  unfold State.pushIntent
  repeat' (first | (first | assumption | with_reducible apply State.pushConfig_pools | with_reducible apply State.modDie_pools | with_reducible apply Die.outSet_ok | with_reducible apply Die.modCh_ok | with_reducible apply foldl_pools | with_reducible apply Die.fold_ok | with_reducible apply Die.modCh_ok | with_reducible apply PoolsOk.map | with_reducible apply PoolsOk.vmap | with_reducible apply Core.fold_ok | (intro) | split) | dsimp only)
theorem State.stateSkew_pools (s : State) (ch : Chan) (w : Word) (h0 : PoolsOk s.core s.copy s.mirror.wire s.mirror.rx s.dies) :
    PoolsOk (State.stateSkew s ch w).core (State.stateSkew s ch w).copy (State.stateSkew s ch w).mirror.wire (State.stateSkew s ch w).mirror.rx (State.stateSkew s ch w).dies := by
  unfold State.stateSkew
  repeat' (first | (first | assumption | with_reducible apply State.modDie_pools | with_reducible apply State.modCore_pools | with_reducible apply State.raiseSrc_pools | with_reducible apply State.pushIntent_pools | (intro _) | split) | dsimp only)
theorem State.compareShadow_pools (s : State) (ch : Chan) (w : Word) (h0 : PoolsOk s.core s.copy s.mirror.wire s.mirror.rx s.dies) :
    PoolsOk (State.compareShadow s ch w).core (State.compareShadow s ch w).copy (State.compareShadow s ch w).mirror.wire (State.compareShadow s ch w).mirror.rx (State.compareShadow s ch w).dies := by
  unfold State.compareShadow
  repeat' (first | (first | assumption | with_reducible apply State.modCore_pools | with_reducible apply State.stateSkew_pools | (intro _) | split) | dsimp only)
theorem execStatusReceive_pools {h : HubId} {d : DieId} {k : Fin 8} {s : State} {z : State} (hz : execStatusReceive h d k s = .next z) (h0 : PoolsOk s.core s.copy s.mirror.wire s.mirror.rx s.dies) :
    PoolsOk z.core z.copy z.mirror.wire z.mirror.rx z.dies := by
  cases hz; dsimp only
  repeat' (first | assumption | with_reducible apply State.commit_pools | with_reducible apply State.compareShadow_pools | split)
theorem execTimeFrameSend_pools {l : Link} {s : State} {z} (h : execTimeFrameSend l s = .next z) (h0 : PoolsOk s.core s.copy s.mirror.wire s.mirror.rx s.dies) : PoolsOk z.core z.copy z.mirror.wire z.mirror.rx z.dies := by
  cases h; (try unfold execTimeFrameSend)
  (try dsimp only)
  repeat' (first | (first | assumption | with_reducible apply State.modLane_pools | with_reducible apply foldl_pools | with_reducible apply Die.fold_ok | with_reducible apply Die.modCh_ok | with_reducible apply PoolsOk.map | with_reducible apply PoolsOk.vmap | with_reducible apply Core.fold_ok | (intro) | split) | dsimp only)
theorem Die.takeTime_ok (d : Die) (v : Tick) (elapsed : ℕ) (h0 : DieOk d.ntqPool) : DieOk (Die.takeTime d v elapsed).ntqPool := by
  unfold Die.takeTime
  repeat' (first | (first | assumption | with_reducible apply foldl_pools | with_reducible apply Die.fold_ok | with_reducible apply Die.modCh_ok | with_reducible apply PoolsOk.map | with_reducible apply PoolsOk.vmap | with_reducible apply Core.fold_ok | (intro) | split) | dsimp only)
theorem execTimeFrameReceive_pools {h : HubId} {d : Option DieId} {s : State} {z} (h : execTimeFrameReceive h d s = .next z) (h0 : PoolsOk s.core s.copy s.mirror.wire s.mirror.rx s.dies) : PoolsOk z.core z.copy z.mirror.wire z.mirror.rx z.dies := by
  cases h; (try unfold execTimeFrameReceive)
  (try dsimp only)
  repeat' (first | (first | assumption | with_reducible apply State.modDie_pools | with_reducible apply State.modLane_pools | with_reducible apply State.frameDown_pools | with_reducible apply Die.takeTime_ok | with_reducible apply State.gotStr_pools | with_reducible apply foldl_pools | with_reducible apply Die.fold_ok | with_reducible apply Die.modCh_ok | with_reducible apply PoolsOk.map | with_reducible apply PoolsOk.vmap | with_reducible apply Core.fold_ok | (intro) | split) | dsimp only)
theorem execCoastingStart_pools {d : DieId} {s : State} {z : State} (hz : execCoastingStart d s = .next z) (h0 : PoolsOk s.core s.copy s.mirror.wire s.mirror.rx s.dies) :
    PoolsOk z.core z.copy z.mirror.wire z.mirror.rx z.dies := by
  cases hz; (try unfold execCoastingStart)
  (try dsimp only)
  repeat' (first | (first | assumption | with_reducible apply State.modDie_pools | (intro _) | split) | dsimp only)
theorem execLaneDelayMeasure_pools {h : HubId} {d : Option DieId} {roundTrip : ℕ} {s : State} {z} (h : execLaneDelayMeasure h d roundTrip s = .next z) (h0 : PoolsOk s.core s.copy s.mirror.wire s.mirror.rx s.dies) : PoolsOk z.core z.copy z.mirror.wire z.mirror.rx z.dies := by
  cases h; (try unfold execLaneDelayMeasure)
  (try dsimp only)
  repeat' (first | (first | assumption | with_reducible apply State.modLane_pools | with_reducible apply foldl_pools | with_reducible apply Die.fold_ok | with_reducible apply Die.modCh_ok | with_reducible apply PoolsOk.map | with_reducible apply PoolsOk.vmap | with_reducible apply Core.fold_ok | (intro) | split) | dsimp only)
theorem execPromotionBegin_pools {id : ℕ} {s : State} {z : State} (hz : execPromotionBegin id s = .next z) (h0 : PoolsOk s.core s.copy s.mirror.wire s.mirror.rx s.dies) :
    PoolsOk z.core z.copy z.mirror.wire z.mirror.rx z.dies := by
  cases hz; dsimp only
  repeat' (first | assumption | with_reducible apply State.modCore_pools | with_reducible apply State.modDie_pools | with_reducible apply State.commit_pools | with_reducible apply State.modLane_pools | with_reducible apply State.hold_pools | with_reducible apply DieOk.reserve | with_reducible apply CoreOk.begin | (intro _) | split)
theorem Die.enqueue_ok (d : Die) (e : Option Entry) (h0 : DieOk d.ntqPool) :
    DieOk (Die.enqueue d e).ntqPool := by
  unfold Die.enqueue
  repeat' (first | assumption | with_reducible apply DieOk.begin | with_reducible apply DieOk.cancel | split)
theorem State.takePromo_pools (s : State) (h : HubId) (d : DieId) (id n : ℕ) (h0 : PoolsOk s.core s.copy s.mirror.wire s.mirror.rx s.dies) :
    PoolsOk (State.takePromo s h d id n).core (State.takePromo s h d id n).copy (State.takePromo s h d id n).mirror.wire (State.takePromo s h d id n).mirror.rx (State.takePromo s h d id n).dies := by
  unfold State.takePromo
  repeat' (first | assumption | with_reducible apply Core.modEntry_ok | with_reducible apply Die.enqueue_ok | with_reducible apply Die.foreign_ok | with_reducible apply Die.modEntry_ok | with_reducible apply State.enqueue_pools | with_reducible apply State.modCoreOf_pools | with_reducible apply State.modDie_pools | with_reducible apply State.modDie_pools | with_reducible apply State.modCore_pools | with_reducible apply State.modHub_pools | with_reducible apply foldl_pools | with_reducible apply Die.fold_ok | with_reducible apply Core.fold_ok | with_reducible apply Die.modCh_ok | with_reducible apply PoolsOk.map | with_reducible apply PoolsOk.vmap | (intro) | split | dsimp only)
theorem execPromotionFrameReceive_pools {hh : HubId} {d : DieId} {s : State} {z} (h : execPromotionFrameReceive hh d s = .next z) (h0 : PoolsOk s.core s.copy s.mirror.wire s.mirror.rx s.dies) : PoolsOk z.core z.copy z.mirror.wire z.mirror.rx z.dies := by
  cases h; (try dsimp only)
  repeat' (first | assumption | with_reducible apply State.commit_pools | with_reducible apply State.sendDown_pools | with_reducible apply State.takePromo_pools | with_reducible apply State.modDie_pools | with_reducible apply State.modCore_pools | with_reducible apply State.modHub_pools | with_reducible apply foldl_pools | with_reducible apply Die.fold_ok | with_reducible apply Core.fold_ok | with_reducible apply Die.modCh_ok | with_reducible apply PoolsOk.map | with_reducible apply PoolsOk.vmap | (intro) | split | dsimp only)
theorem Die.takeNew_ok (d : Die) (src : UpSource) (h0 : DieOk d.ntqPool) : DieOk (Die.takeNew d src).ntqPool := by
  exact h0
theorem Die.sentUp_ok (d : Die) (grant : Option (HubId × ℕ)) (due : Bool) (h0 : DieOk d.ntqPool) : DieOk (Die.sentUp d grant due).ntqPool := by
  unfold Die.sentUp
  repeat' (first | assumption | split)
theorem Die.lostUp_ok (d : Die) (lag : ℕ) (grant : Option (HubId × ℕ)) (due : Bool) (h0 : DieOk d.ntqPool) : DieOk (Die.lostUp d lag grant due).ntqPool := by
  unfold Die.lostUp
  repeat' (first | (first | assumption | with_reducible apply Die.takeNew_ok | with_reducible apply foldl_pools | with_reducible apply Die.fold_ok | with_reducible apply Die.modCh_ok | with_reducible apply PoolsOk.map | with_reducible apply PoolsOk.vmap | with_reducible apply Core.fold_ok | (intro) | split) | dsimp only)
theorem State.takeUp_pools (s : State) (hh : HubId) (d : DieId) (x : LaneItem) (h0 : PoolsOk s.core s.copy s.mirror.wire s.mirror.rx s.dies) : PoolsOk (State.takeUp s hh d x).core (State.takeUp s hh d x).copy (State.takeUp s hh d x).mirror.wire (State.takeUp s hh d x).mirror.rx (State.takeUp s hh d x).dies := by
  unfold State.takeUp
  repeat' (first | assumption | with_reducible apply State.modDie_pools | with_reducible apply State.modLane_pools | with_reducible apply State.modCoreOf_pools | with_reducible apply State.hold_pools | with_reducible apply Die.sentUp_ok | (intro _) | split)
theorem State.strayUp_pools (s : State) (hh : HubId) (d : DieId) (x : LaneItem) (h0 : PoolsOk s.core s.copy s.mirror.wire s.mirror.rx s.dies) : PoolsOk (State.strayUp s hh d x).core (State.strayUp s hh d x).copy (State.strayUp s hh d x).mirror.wire (State.strayUp s hh d x).mirror.rx (State.strayUp s hh d x).dies := by
  unfold State.strayUp
  repeat' (first | (first | assumption | with_reducible apply State.modLane_pools | with_reducible apply State.modDie_pools | with_reducible apply Die.lostUp_ok | with_reducible apply foldl_pools | with_reducible apply Die.fold_ok | with_reducible apply Die.modCh_ok | with_reducible apply PoolsOk.map | with_reducible apply PoolsOk.vmap | with_reducible apply Core.fold_ok | (intro) | split) | dsimp only)
theorem State.sendUp_pools (s : State) (hh : HubId) (d : DieId) (x : LaneItem) (f : State → State) (h0 : PoolsOk s.core s.copy s.mirror.wire s.mirror.rx s.dies) (fk : ∀ y0, PoolsOk y0.core y0.copy y0.mirror.wire y0.mirror.rx y0.dies → PoolsOk (f y0).core (f y0).copy (f y0).mirror.wire (f y0).mirror.rx (f y0).dies) : PoolsOk (State.sendUp s hh d x f).core (State.sendUp s hh d x f).copy (State.sendUp s hh d x f).mirror.wire (State.sendUp s hh d x f).mirror.rx (State.sendUp s hh d x f).dies := by
  unfold State.sendUp
  repeat' (first | (first | assumption | with_reducible apply State.commit_pools | with_reducible apply State.takeUp_pools | with_reducible apply State.strayUp_pools | with_reducible apply foldl_pools | with_reducible apply Die.fold_ok | with_reducible apply Die.modCh_ok | with_reducible apply PoolsOk.map | with_reducible apply PoolsOk.vmap | with_reducible apply Core.fold_ok | (with_reducible apply fk) | (intro) | split) | dsimp only)
theorem Core.putResult_ok (c : Core) (id : ℕ) (words : List (ℕ × Word)) (stamp : Tick) (q : ℕ) (n : ℕ) (st : ℕ) (h0 : CoreOk c.slots c.store) :
    CoreOk (Core.putResult c id words stamp q n st).slots (Core.putResult c id words stamp q n st).store := by
  unfold Core.putResult
  repeat' (first | assumption | with_reducible apply Core.writeRecord_ok | split)
theorem execResultFrameReceive_pools {d : DieId} {s : State} {z} (h : execResultFrameReceive d s = .next z) (h0 : PoolsOk s.core s.copy s.mirror.wire s.mirror.rx s.dies) : PoolsOk z.core z.copy z.mirror.wire z.mirror.rx z.dies := by
  cases h; (try unfold execResultFrameReceive)
  (try dsimp only)
  repeat' (first | (first | assumption | with_reducible apply State.sendUp_pools | with_reducible apply State.modCoreOf_pools | with_reducible apply Core.putResult_ok | with_reducible apply foldl_pools | with_reducible apply Die.fold_ok | with_reducible apply Die.modCh_ok | with_reducible apply PoolsOk.map | with_reducible apply PoolsOk.vmap | with_reducible apply Core.fold_ok | (intro) | split) | dsimp only)
theorem Core.putCapture_ok (c : Core) (id : ℕ) (stamp : Tick) (rising : Bool) (q : ℕ) (angle : Bool) (h0 : CoreOk c.slots c.store) :
    CoreOk (Core.putCapture c id stamp rising q angle).slots (Core.putCapture c id stamp rising q angle).store := by
  unfold Core.putCapture
  repeat' (first | assumption | with_reducible apply Core.writeRecord_ok | split)
theorem execCaptureFrameReceive_pools {d : DieId} {s : State} {z} (h : execCaptureFrameReceive d s = .next z) (h0 : PoolsOk s.core s.copy s.mirror.wire s.mirror.rx s.dies) : PoolsOk z.core z.copy z.mirror.wire z.mirror.rx z.dies := by
  cases h; (try unfold execCaptureFrameReceive)
  (try dsimp only)
  repeat' (first | (first | assumption | with_reducible apply State.sendUp_pools | with_reducible apply State.modCoreOf_pools | with_reducible apply Core.putCapture_ok | with_reducible apply foldl_pools | with_reducible apply Die.fold_ok | with_reducible apply Die.modCh_ok | with_reducible apply PoolsOk.map | with_reducible apply PoolsOk.vmap | with_reducible apply Core.fold_ok | (intro) | split) | dsimp only)
theorem Core.putAngle_ok (c : Core) (id : ℕ) (words : List (ℕ × Word)) (stamp : Tick) (q : ℕ) (n : ℕ) (h0 : CoreOk c.slots c.store) :
    CoreOk (Core.putAngle c id words stamp q n).slots (Core.putAngle c id words stamp q n).store := by
  unfold Core.putAngle
  repeat' (first | assumption | with_reducible apply Core.writeRecord_ok | with_reducible apply Core.putResult_ok | split)
theorem execAngleTagFrameReceive_pools {d : DieId} {s : State} {z} (h : execAngleTagFrameReceive d s = .next z) (h0 : PoolsOk s.core s.copy s.mirror.wire s.mirror.rx s.dies) : PoolsOk z.core z.copy z.mirror.wire z.mirror.rx z.dies := by
  cases h; (try unfold execAngleTagFrameReceive)
  (try dsimp only)
  repeat' (first | (first | assumption | with_reducible apply State.sendUp_pools | with_reducible apply State.modCoreOf_pools | with_reducible apply Core.putAngle_ok | with_reducible apply foldl_pools | with_reducible apply Die.fold_ok | with_reducible apply Die.modCh_ok | with_reducible apply PoolsOk.map | with_reducible apply PoolsOk.vmap | with_reducible apply Core.fold_ok | (intro) | split) | dsimp only)
theorem execEventFrameReceive_pools {d : DieId} {s : State} {z} (h : execEventFrameReceive d s = .next z) (h0 : PoolsOk s.core s.copy s.mirror.wire s.mirror.rx s.dies) : PoolsOk z.core z.copy z.mirror.wire z.mirror.rx z.dies := by
  cases h; (try unfold execEventFrameReceive)
  (try dsimp only)
  repeat' (first | (first | assumption | with_reducible apply State.sendUp_pools | with_reducible apply State.modHub_pools | with_reducible apply State.syncShadow_pools | with_reducible apply foldl_pools | with_reducible apply Die.fold_ok | with_reducible apply Die.modCh_ok | with_reducible apply PoolsOk.map | with_reducible apply PoolsOk.vmap | with_reducible apply Core.fold_ok | (intro) | split) | dsimp only)
theorem execFrameConsume_pools {l : Link} {dir : Dir} {s : State} {z : State} (hz : execFrameConsume l dir s = .next z) (h0 : PoolsOk s.core s.copy s.mirror.wire s.mirror.rx s.dies) :
    PoolsOk z.core z.copy z.mirror.wire z.mirror.rx z.dies := by
  cases hz; dsimp only
  repeat' (first | assumption | split)
theorem State.loseUp_pools (s : State) (hh : HubId) (d : DieId) (h0 : PoolsOk s.core s.copy s.mirror.wire s.mirror.rx s.dies) : PoolsOk (State.loseUp s hh d).core (State.loseUp s hh d).copy (State.loseUp s hh d).mirror.wire (State.loseUp s hh d).mirror.rx (State.loseUp s hh d).dies := by
  unfold State.loseUp
  repeat' (first | (first | assumption | with_reducible apply State.modLane_pools | with_reducible apply State.modDie_pools | with_reducible apply Die.lostUp_ok | with_reducible apply foldl_pools | with_reducible apply Die.fold_ok | with_reducible apply Die.modCh_ok | with_reducible apply PoolsOk.map | with_reducible apply PoolsOk.vmap | with_reducible apply Core.fold_ok | (intro) | split) | dsimp only)
theorem State.loseFrame_pools (s : State) (l : Link) (dir : Dir) (h0 : PoolsOk s.core s.copy s.mirror.wire s.mirror.rx s.dies) :
    PoolsOk (State.loseFrame s l dir).core (State.loseFrame s l dir).copy (State.loseFrame s l dir).mirror.wire (State.loseFrame s l dir).mirror.rx (State.loseFrame s l dir).dies := by
  unfold State.loseFrame
  repeat' (first | assumption | with_reducible apply State.loseUp_pools | with_reducible apply State.modLane_pools | with_reducible apply State.modDie_pools | with_reducible apply State.modCore_pools | with_reducible apply State.modHub_pools | with_reducible apply foldl_pools | with_reducible apply Die.fold_ok | with_reducible apply Core.fold_ok | with_reducible apply Die.modCh_ok | with_reducible apply PoolsOk.map | with_reducible apply PoolsOk.vmap | (intro) | split | dsimp only)
theorem State.countFail_pools (s : State) (l : Link) (dir : Dir) (b : Bool) (h0 : PoolsOk s.core s.copy s.mirror.wire s.mirror.rx s.dies) :
    PoolsOk (State.countFail s l dir b).core (State.countFail s l dir b).copy (State.countFail s l dir b).mirror.wire (State.countFail s l dir b).mirror.rx (State.countFail s l dir b).dies := by
  unfold State.countFail
  repeat' (first | assumption | with_reducible apply State.countStr_pools | with_reducible apply State.modLane_pools | with_reducible apply State.modDie_pools | with_reducible apply State.modCore_pools | with_reducible apply State.modHub_pools | with_reducible apply foldl_pools | with_reducible apply Die.fold_ok | with_reducible apply Core.fold_ok | with_reducible apply Die.modCh_ok | with_reducible apply PoolsOk.map | with_reducible apply PoolsOk.vmap | (intro) | split | dsimp only)
theorem execFrameCrcFail_pools {l : Link} {dir : Dir} {buffered : Bool} {s : State} {z} (h : execFrameCrcFail l dir buffered s = .next z) (h0 : PoolsOk s.core s.copy s.mirror.wire s.mirror.rx s.dies) : PoolsOk z.core z.copy z.mirror.wire z.mirror.rx z.dies := by
  cases h; (try dsimp only)
  repeat' (first | assumption | with_reducible apply State.countFail_pools | with_reducible apply State.loseFrame_pools | with_reducible apply State.modLink_pools | with_reducible apply State.modDie_pools | with_reducible apply State.modCore_pools | with_reducible apply State.modHub_pools | with_reducible apply foldl_pools | with_reducible apply Die.fold_ok | with_reducible apply Core.fold_ok | with_reducible apply Die.modCh_ok | with_reducible apply PoolsOk.map | with_reducible apply PoolsOk.vmap | (intro) | split | dsimp only)
theorem State.replayOn_pools (s : State) (l : Link) (dir : Dir) (seq : ℕ) (h0 : PoolsOk s.core s.copy s.mirror.wire s.mirror.rx s.dies) : PoolsOk (State.replayOn s l dir seq).core (State.replayOn s l dir seq).copy (State.replayOn s l dir seq).mirror.wire (State.replayOn s l dir seq).mirror.rx (State.replayOn s l dir seq).dies := by
  unfold State.replayOn
  repeat' (first | (first | assumption | with_reducible apply State.modLink_pools | with_reducible apply State.frameDown_pools | with_reducible apply State.gotStr_pools | with_reducible apply foldl_pools | with_reducible apply Die.fold_ok | with_reducible apply Die.modCh_ok | with_reducible apply PoolsOk.map | with_reducible apply PoolsOk.vmap | with_reducible apply Core.fold_ok | (intro) | split) | dsimp only)
theorem execReplayRequestReceive_pools {l : Link} {dir : Dir} {seq : Fin 16} {s : State} {z} (h : execReplayRequestReceive l dir seq s = .next z) (h0 : PoolsOk s.core s.copy s.mirror.wire s.mirror.rx s.dies) : PoolsOk z.core z.copy z.mirror.wire z.mirror.rx z.dies := by
  cases h; (try unfold execReplayRequestReceive)
  (try dsimp only)
  repeat' (first | (first | assumption | with_reducible apply State.replayOn_pools | with_reducible apply foldl_pools | with_reducible apply Die.fold_ok | with_reducible apply Die.modCh_ok | with_reducible apply PoolsOk.map | with_reducible apply PoolsOk.vmap | with_reducible apply Core.fold_ok | (intro) | split) | dsimp only)
theorem execLaneCrcRun_pools {hh : HubId} {d : Option DieId} {s : State} {z : State} (h : execLaneCrcRun hh d s = .next z) (h0 : PoolsOk s.core s.copy s.mirror.wire s.mirror.rx s.dies) :
    PoolsOk z.core z.copy z.mirror.wire z.mirror.rx z.dies := by
  cases h; (try dsimp only)
  repeat' (first | assumption | with_reducible apply Die.setCauses_ok | with_reducible apply State.countStr_pools | with_reducible apply State.modDie_pools | with_reducible apply State.modLane_pools | with_reducible apply State.modLink_pools | with_reducible apply State.modDie_pools | with_reducible apply State.modCore_pools | with_reducible apply State.modHub_pools | with_reducible apply foldl_pools | with_reducible apply Die.fold_ok | with_reducible apply Core.fold_ok | with_reducible apply Die.modCh_ok | with_reducible apply PoolsOk.map | with_reducible apply PoolsOk.vmap | (intro) | split | dsimp only)
theorem execTrainingComplete_pools {l : Link} {version occDown occUp : ℕ} {s : State} {z} (h : execTrainingComplete l version occDown occUp s = .next z) (h0 : PoolsOk s.core s.copy s.mirror.wire s.mirror.rx s.dies) : PoolsOk z.core z.copy z.mirror.wire z.mirror.rx z.dies := by
  cases h; (try unfold execTrainingComplete)
  (try dsimp only)
  repeat' (first | (first | assumption | with_reducible apply State.modDie_pools | with_reducible apply State.modLane_pools | with_reducible apply State.modLink_pools | with_reducible apply State.modHub_pools | with_reducible apply foldl_pools | with_reducible apply Die.fold_ok | with_reducible apply Die.modCh_ok | with_reducible apply PoolsOk.map | with_reducible apply PoolsOk.vmap | with_reducible apply Core.fold_ok | (intro) | split) | dsimp only)
theorem execLaneFailed_pools {h : HubId} {d : DieId} {s : State} {z : State} (hz : execLaneFailed h d s = .next z) (h0 : PoolsOk s.core s.copy s.mirror.wire s.mirror.rx s.dies) :
    PoolsOk z.core z.copy z.mirror.wire z.mirror.rx z.dies := by
  cases hz; dsimp only
  repeat' (first | assumption | with_reducible apply State.commit_pools | with_reducible apply State.startSwitchover_pools | split)
theorem execLaneTrainingRetry_pools {hh : HubId} {d : Option DieId} {s : State} {z : State} (h : execLaneTrainingRetry hh d s = .next z) (h0 : PoolsOk s.core s.copy s.mirror.wire s.mirror.rx s.dies) :
    PoolsOk z.core z.copy z.mirror.wire z.mirror.rx z.dies := by
  cases h; (try dsimp only)
  repeat' (first | assumption | with_reducible apply State.modLane_pools | with_reducible apply State.modLink_pools | with_reducible apply State.modDie_pools | with_reducible apply State.modCore_pools | with_reducible apply State.modHub_pools | with_reducible apply foldl_pools | with_reducible apply Die.fold_ok | with_reducible apply Core.fold_ok | with_reducible apply Die.modCh_ok | with_reducible apply PoolsOk.map | with_reducible apply PoolsOk.vmap | (intro) | split | dsimp only)
theorem execIdleFrameReceive_pools {hh : HubId} {d : Option DieId} {s : State} {z : State} (h : execIdleFrameReceive hh d s = .next z) (h0 : PoolsOk s.core s.copy s.mirror.wire s.mirror.rx s.dies) :
    PoolsOk z.core z.copy z.mirror.wire z.mirror.rx z.dies := by
  cases h; (try dsimp only)
  repeat' (first | assumption | with_reducible apply State.gotStr_pools | with_reducible apply State.modLane_pools | with_reducible apply State.modDie_pools | with_reducible apply State.modCore_pools | with_reducible apply State.modHub_pools | with_reducible apply foldl_pools | with_reducible apply Die.fold_ok | with_reducible apply Core.fold_ok | with_reducible apply Die.modCh_ok | with_reducible apply PoolsOk.map | with_reducible apply PoolsOk.vmap | (intro) | split | dsimp only)
theorem execRenewSend_pools {h : HubId} {s : State} {z : State} (hz : execRenewSend h s = .next z) (h0 : PoolsOk s.core s.copy s.mirror.wire s.mirror.rx s.dies) :
    PoolsOk z.core z.copy z.mirror.wire z.mirror.rx z.dies := by
  cases hz; (try unfold execRenewSend)
  (try dsimp only)
  repeat' (first | (first | assumption | split) | dsimp only)
theorem State.sendLease_pools (s : State) (hh : HubId) (d : DieId) (m : LeaseMsg) (f : State → State) (h0 : PoolsOk s.core s.copy s.mirror.wire s.mirror.rx s.dies) (fk : ∀ y0, PoolsOk y0.core y0.copy y0.mirror.wire y0.mirror.rx y0.dies → PoolsOk (f y0).core (f y0).copy (f y0).mirror.wire (f y0).mirror.rx (f y0).dies) : PoolsOk (State.sendLease s hh d m f).core (State.sendLease s hh d m f).copy (State.sendLease s hh d m f).mirror.wire (State.sendLease s hh d m f).mirror.rx (State.sendLease s hh d m f).dies := by
  unfold State.sendLease
  repeat' (first | assumption | with_reducible apply State.sendDown_pools | with_reducible apply State.modDie_pools | with_reducible apply State.modCore_pools | with_reducible apply State.modHub_pools | with_reducible apply foldl_pools | with_reducible apply Die.fold_ok | with_reducible apply Core.fold_ok | with_reducible apply Die.modCh_ok | with_reducible apply PoolsOk.map | with_reducible apply PoolsOk.vmap | with_reducible apply fk | (intro) | split | dsimp only)
theorem execRenewReceive_pools {hh : HubId} {d : DieId} {s : State} {z} (h : execRenewReceive hh d s = .next z) (h0 : PoolsOk s.core s.copy s.mirror.wire s.mirror.rx s.dies) : PoolsOk z.core z.copy z.mirror.wire z.mirror.rx z.dies := by
  cases h; (try unfold execRenewReceive)
  (try dsimp only)
  repeat' (first | (first | assumption | with_reducible apply State.sendLease_pools | with_reducible apply State.modDie_pools | with_reducible apply Die.foreign_ok | with_reducible apply foldl_pools | with_reducible apply Die.fold_ok | with_reducible apply Die.modCh_ok | with_reducible apply PoolsOk.map | with_reducible apply PoolsOk.vmap | with_reducible apply Core.fold_ok | (intro) | split) | dsimp only)
theorem execClaimSend_pools {h : HubId} {s : State} {z : State} (hz : execClaimSend h s = .next z) (h0 : PoolsOk s.core s.copy s.mirror.wire s.mirror.rx s.dies) :
    PoolsOk z.core z.copy z.mirror.wire z.mirror.rx z.dies := by
  cases hz; dsimp only
  repeat' (first | assumption | with_reducible apply State.commit_pools | with_reducible apply State.takeoverComplete_pools | split)
theorem Die.grant_ok (d : Die) (h : HubId) (resume : ℕ) (elapsed : ℕ) (h0 : DieOk d.ntqPool) :
    DieOk (Die.grant d h resume elapsed).ntqPool := by
  unfold Die.grant
  repeat' (first | assumption | with_reducible apply DieOk.cancel)
theorem State.takeClaim_pools (s : State) (hh : HubId) (d : DieId) (resume : ℕ) (h0 : PoolsOk s.core s.copy s.mirror.wire s.mirror.rx s.dies) : PoolsOk (State.takeClaim s hh d resume).core (State.takeClaim s hh d resume).copy (State.takeClaim s hh d resume).mirror.wire (State.takeClaim s hh d resume).mirror.rx (State.takeClaim s hh d resume).dies := by
  unfold State.takeClaim
  repeat' (first | (first | assumption | with_reducible apply State.modLane_pools | with_reducible apply State.modDie_pools | with_reducible apply Die.grant_ok | with_reducible apply State.modHub_pools | with_reducible apply Die.foreign_ok | with_reducible apply foldl_pools | with_reducible apply Die.fold_ok | with_reducible apply Die.modCh_ok | with_reducible apply PoolsOk.map | with_reducible apply PoolsOk.vmap | with_reducible apply Core.fold_ok | (intro) | split) | dsimp only)
theorem execClaimReceive_pools {hh : HubId} {d : DieId} {s : State} {z} (h : execClaimReceive hh d s = .next z) (h0 : PoolsOk s.core s.copy s.mirror.wire s.mirror.rx s.dies) : PoolsOk z.core z.copy z.mirror.wire z.mirror.rx z.dies := by
  cases h; (try unfold execClaimReceive)
  (try dsimp only)
  repeat' (first | (first | assumption | with_reducible apply State.sendLease_pools | with_reducible apply State.takeClaim_pools | with_reducible apply foldl_pools | with_reducible apply Die.fold_ok | with_reducible apply Die.modCh_ok | with_reducible apply PoolsOk.map | with_reducible apply PoolsOk.vmap | with_reducible apply Core.fold_ok | (intro) | split) | dsimp only)
theorem execReleaseReceive_pools {hh : HubId} {d : DieId} {s : State} {z} (h : execReleaseReceive hh d s = .next z) (h0 : PoolsOk s.core s.copy s.mirror.wire s.mirror.rx s.dies) : PoolsOk z.core z.copy z.mirror.wire z.mirror.rx z.dies := by
  cases h; (try unfold execReleaseReceive)
  (try dsimp only)
  repeat' (first | (first | assumption | with_reducible apply State.sendLease_pools | with_reducible apply State.modDie_pools | with_reducible apply Die.foreign_ok | with_reducible apply foldl_pools | with_reducible apply Die.fold_ok | with_reducible apply Die.modCh_ok | with_reducible apply PoolsOk.map | with_reducible apply PoolsOk.vmap | with_reducible apply Core.fold_ok | (intro) | split) | dsimp only)
theorem State.resumePromotion_pools (s : State) (h : HubId) (d : DieId) (cnt : ℕ) (h0 : PoolsOk s.core s.copy s.mirror.wire s.mirror.rx s.dies) :
    PoolsOk (State.resumePromotion s h d cnt).core (State.resumePromotion s h d cnt).copy (State.resumePromotion s h d cnt).mirror.wire (State.resumePromotion s h d cnt).mirror.rx (State.resumePromotion s h d cnt).dies := by
  unfold State.resumePromotion
  repeat' (first | assumption | with_reducible apply State.modDie_pools | with_reducible apply State.modLane_pools | with_reducible apply State.modCoreOf_pools | with_reducible apply DieOk.reserve | (intro _))
theorem State.takeGrant_pools (s : State) (hh : HubId) (d : DieId) (cnt : ℕ) (h0 : PoolsOk s.core s.copy s.mirror.wire s.mirror.rx s.dies) : PoolsOk (State.takeGrant s hh d cnt).core (State.takeGrant s hh d cnt).copy (State.takeGrant s hh d cnt).mirror.wire (State.takeGrant s hh d cnt).mirror.rx (State.takeGrant s hh d cnt).dies := by
  unfold State.takeGrant
  repeat' (first | (first | assumption | with_reducible apply State.modLane_pools | with_reducible apply State.takeoverComplete_pools | with_reducible apply State.resumePromotion_pools | with_reducible apply foldl_pools | with_reducible apply Die.fold_ok | with_reducible apply Die.modCh_ok | with_reducible apply PoolsOk.map | with_reducible apply PoolsOk.vmap | with_reducible apply Core.fold_ok | (intro) | split) | dsimp only)
theorem execGrantReceive_pools {hh : HubId} {d : DieId} {s : State} {z} (h : execGrantReceive hh d s = .next z) (h0 : PoolsOk s.core s.copy s.mirror.wire s.mirror.rx s.dies) : PoolsOk z.core z.copy z.mirror.wire z.mirror.rx z.dies := by
  cases h; (try unfold execGrantReceive)
  (try dsimp only)
  repeat' (first | (first | assumption | with_reducible apply State.sendUp_pools | with_reducible apply State.takeGrant_pools | with_reducible apply foldl_pools | with_reducible apply Die.fold_ok | with_reducible apply Die.modCh_ok | with_reducible apply PoolsOk.map | with_reducible apply PoolsOk.vmap | with_reducible apply Core.fold_ok | (intro) | split) | dsimp only)
theorem execLeaseExpiry_pools {d : DieId} {s : State} {z : State} (hz : execLeaseExpiry d s = .next z) (h0 : PoolsOk s.core s.copy s.mirror.wire s.mirror.rx s.dies) :
    PoolsOk z.core z.copy z.mirror.wire z.mirror.rx z.dies := by
  cases hz; (try unfold execLeaseExpiry)
  (try dsimp only)
  repeat' (first | (first | assumption | with_reducible apply State.modDie_pools | (intro _) | split) | dsimp only)
theorem execHeartbeatSend_pools {h : HubId} {s : State} {z : State} (hz : execHeartbeatSend h s = .next z) (h0 : PoolsOk s.core s.copy s.mirror.wire s.mirror.rx s.dies) :
    PoolsOk z.core z.copy z.mirror.wire z.mirror.rx z.dies := by
  cases hz; dsimp only
  repeat' (first | assumption | split)
theorem execHeartbeatReceive_pools {h : HubId} {s : State} {z : State} (hz : execHeartbeatReceive h s = .next z) (h0 : PoolsOk s.core s.copy s.mirror.wire s.mirror.rx s.dies) :
    PoolsOk z.core z.copy z.mirror.wire z.mirror.rx z.dies := by
  cases hz; dsimp only
  repeat' (first | assumption | split)
theorem execHeartbeatMissed_pools {h : HubId} {s : State} {z : State} (hz : execHeartbeatMissed h s = .next z) (h0 : PoolsOk s.core s.copy s.mirror.wire s.mirror.rx s.dies) :
    PoolsOk z.core z.copy z.mirror.wire z.mirror.rx z.dies := by
  cases hz; (try unfold execHeartbeatMissed)
  (try dsimp only)
  repeat' (first | (first | assumption | split) | dsimp only)
theorem execLossOfActiveHub_pools {s : State} {z} (h : execLossOfActiveHub s = .next z) (h0 : PoolsOk s.core s.copy s.mirror.wire s.mirror.rx s.dies) : PoolsOk z.core z.copy z.mirror.wire z.mirror.rx z.dies := by
  cases h; dsimp only
  split
  · have k : PoolsOk s.core s.copy s.mirror.wire none s.dies := ⟨h0.core, h0.copy, h0.wire, fun _ hu => (Option.not_mem_none _ hu).elim, h0.dies⟩
    split <;> split <;> first | exact k | exact State.modHub_pools (State.dropMirror_pools _ h0) | exact State.dropMirror_pools _ h0
  · exact h0
theorem execTakeoverClaimTimeout_pools {s : State} {z : State} (hz : execTakeoverClaimTimeout s = .next z) (h0 : PoolsOk s.core s.copy s.mirror.wire s.mirror.rx s.dies) :
    PoolsOk z.core z.copy z.mirror.wire z.mirror.rx z.dies := by
  cases hz; (try dsimp only)
  repeat' (first | assumption | with_reducible apply Die.raise_ok | with_reducible apply State.modHub_pools | with_reducible apply State.raise_pools | with_reducible apply State.stopMirror_pools | with_reducible apply State.modDie_pools | with_reducible apply State.modCore_pools | with_reducible apply State.modHub_pools | with_reducible apply foldl_pools | with_reducible apply Die.fold_ok | with_reducible apply Core.fold_ok | with_reducible apply Die.modCh_ok | with_reducible apply PoolsOk.map | with_reducible apply PoolsOk.vmap | (intro) | split | dsimp only)
theorem execActiveHubStop_pools {s : State} {z : State} (hz : execActiveHubStop s = .next z) (h0 : PoolsOk s.core s.copy s.mirror.wire s.mirror.rx s.dies) :
    PoolsOk z.core z.copy z.mirror.wire z.mirror.rx z.dies := by
  cases hz; (try dsimp only)
  repeat' (first | assumption | with_reducible apply State.modHub_pools | with_reducible apply State.stopPorts_pools | with_reducible apply State.modDie_pools | with_reducible apply State.modCore_pools | with_reducible apply State.modHub_pools | with_reducible apply foldl_pools | with_reducible apply Die.fold_ok | with_reducible apply Core.fold_ok | with_reducible apply Die.modCh_ok | with_reducible apply PoolsOk.map | with_reducible apply PoolsOk.vmap | (intro) | split | dsimp only)
theorem execMirrorFrameReceive_pools {s : State} {z} (h : execMirrorFrameReceive s = .next z) (h0 : PoolsOk s.core s.copy s.mirror.wire s.mirror.rx s.dies) : PoolsOk z.core z.copy z.mirror.wire z.mirror.rx z.dies := by
  cases h; dsimp only
  split
  · exact h0
  · split
    · next u w e1 e2 =>
      have hu : CoreOk u.core.slots u.core.store := h0.wire u (by rw [e1]; exact List.mem_cons_self)
      apply State.sendStr_pools _ _ _ _ _ h0
      intro y h
      exact ⟨h.core, h.copy, h.wire, fun v hv => by cases hv; exact hu, h.dies⟩
    · exact h0
theorem execMirrorCommitReceive_pools {s : State} {z} (h : execMirrorCommitReceive s = .next z) (h0 : PoolsOk s.core s.copy s.mirror.wire s.mirror.rx s.dies) : PoolsOk z.core z.copy z.mirror.wire z.mirror.rx z.dies := by
  cases h; dsimp only
  split
  · next u e1 =>
    have hu : CoreOk u.core.slots u.core.store := h0.rx u (by rw [e1]; rfl)
    apply State.sendStr_pools _ _ _ _ _ h0
    intro y h
    exact PoolsOk.tail (State.applyUnit_pools _ _ h hu)
  · exact h0
theorem execMirrorCommitAck_pools {s : State} {z : State} (hz : execMirrorCommitAck s = .next z) (h0 : PoolsOk s.core s.copy s.mirror.wire s.mirror.rx s.dies) :
    PoolsOk z.core z.copy z.mirror.wire z.mirror.rx z.dies := by
  cases hz; dsimp only
  repeat' (first | assumption | with_reducible apply State.commit_pools | with_reducible apply State.releaseTo_pools | split)
theorem execRoleLeaseReceive_pools {hh : HubId} {r : Role} {granted : Bool} {s : State} {z} (h : execRoleLeaseReceive hh r granted s = .next z) (h0 : PoolsOk s.core s.copy s.mirror.wire s.mirror.rx s.dies) : PoolsOk z.core z.copy z.mirror.wire z.mirror.rx z.dies := by
  cases h; (try unfold execRoleLeaseReceive)
  (try dsimp only)
  repeat' (first | (first | assumption | with_reducible apply State.sendStr_pools | with_reducible apply State.modHub_pools | with_reducible apply foldl_pools | with_reducible apply Die.fold_ok | with_reducible apply Die.modCh_ok | with_reducible apply PoolsOk.map | with_reducible apply PoolsOk.vmap | with_reducible apply Core.fold_ok | (intro) | split) | dsimp only)
theorem execRoleLeaseExpiry_pools {h : HubId} {r : Role} {s : State} {z : State} (hz : execRoleLeaseExpiry h r s = .next z) (h0 : PoolsOk s.core s.copy s.mirror.wire s.mirror.rx s.dies) :
    PoolsOk z.core z.copy z.mirror.wire z.mirror.rx z.dies := by
  cases hz; (try unfold execRoleLeaseExpiry)
  (try dsimp only)
  repeat' (first | (first | assumption | split) | dsimp only)
theorem execStringFault_pools {s : State} {z : State} (hz : execStringFault s = .next z) (h0 : PoolsOk s.core s.copy s.mirror.wire s.mirror.rx s.dies) :
    PoolsOk z.core z.copy z.mirror.wire z.mirror.rx z.dies := by
  cases hz; dsimp only
  repeat' (first | assumption | with_reducible apply State.commit_pools | with_reducible apply State.raise_pools | with_reducible apply State.stopMirror_pools | split)
theorem Core.boot_ok {c n} : CoreOk (Core.boot c n).slots (Core.boot c n).store := ⟨rfl, rfl⟩
theorem State.lostBanks_pools (s : State) (hh : HubId) (n : NvStore) (h0 : PoolsOk s.core s.copy s.mirror.wire s.mirror.rx s.dies) : PoolsOk (State.lostBanks s hh n).core (State.lostBanks s hh n).copy (State.lostBanks s hh n).mirror.wire (State.lostBanks s hh n).mirror.rx (State.lostBanks s hh n).dies := by
  unfold State.lostBanks
  repeat' (first | (first | assumption | with_reducible apply State.raise_pools | split) | dsimp only)
theorem State.syncAnew_pools (s : State) (h0 : PoolsOk s.core s.copy s.mirror.wire s.mirror.rx s.dies) :
    PoolsOk (State.syncAnew s).core (State.syncAnew s).copy (State.syncAnew s).mirror.wire (State.syncAnew s).mirror.rx (State.syncAnew s).dies := by
  unfold State.syncAnew
  repeat' (first | assumption | with_reducible apply Core.reset_ok | with_reducible apply Die.reset_ok | with_reducible apply State.noteUsable_pools | with_reducible apply State.modDie_pools | with_reducible apply State.modCore_pools | with_reducible apply State.modHub_pools | with_reducible apply foldl_pools | with_reducible apply Die.fold_ok | with_reducible apply Core.fold_ok | with_reducible apply Die.modCh_ok | with_reducible apply PoolsOk.map | with_reducible apply PoolsOk.vmap | (intro) | split | dsimp only)
theorem State.resetString_pools (s : State) (h0 : PoolsOk s.core s.copy s.mirror.wire s.mirror.rx s.dies) :
    PoolsOk (State.resetString s).core (State.resetString s).copy (State.resetString s).mirror.wire (State.resetString s).mirror.rx (State.resetString s).dies := by
  exact h0
theorem State.copyHdr_pools (s : State) (r : Fin 12) (h0 : PoolsOk s.core s.copy s.mirror.wire s.mirror.rx s.dies) :
    PoolsOk (State.copyHdr s r).core (State.copyHdr s r).copy (State.copyHdr s r).mirror.wire (State.copyHdr s r).mirror.rx (State.copyHdr s r).dies :=
  State.setFreeze_pools _ _ _ (State.modHdr_pools _ _ _ h0)
theorem State.copyHdrs_pools (s : State) (h0 : PoolsOk s.core s.copy s.mirror.wire s.mirror.rx s.dies) :
    PoolsOk (State.copyHdrs s).core (State.copyHdrs s).copy (State.copyHdrs s).mirror.wire (State.copyHdrs s).mirror.rx (State.copyHdrs s).dies := by
  unfold State.copyHdrs
  exact foldl_pools h0 fun _ _ h => State.copyHdr_pools _ _ h
theorem State.restartHub_pools (s : State) (h : HubId) (h0 : PoolsOk s.core s.copy s.mirror.wire s.mirror.rx s.dies) :
    PoolsOk (State.restartHub s h).core (State.restartHub s h).copy (State.restartHub s h).mirror.wire (State.restartHub s h).mirror.rx (State.restartHub s h).dies := by
  unfold State.restartHub
  refine State.lostBanks_pools _ _ _ ?_
  have k := State.resetString_pools _ (State.stopPorts_pools (s.modHub h (·.restart s.stoppedState)) h (State.modHub_pools h0))
  split
  · exact State.syncAnew_pools _ ((State.dropMirror_pools _ k).setCore fun _ => Core.boot_ok)
  · exact (State.stopMirror_pools _ k).setCopy Core.reset_ok
theorem execHubSelfCheckFail_pools {h : HubId} {s : State} {z : State} (hz : execHubSelfCheckFail h s = .next z) (h0 : PoolsOk s.core s.copy s.mirror.wire s.mirror.rx s.dies) :
    PoolsOk z.core z.copy z.mirror.wire z.mirror.rx z.dies := by
  cases hz; (try unfold execHubSelfCheckFail)
  (try dsimp only)
  repeat' (first | (first | assumption | with_reducible apply State.commit_pools | with_reducible apply State.hubFault_pools | split) | dsimp only)
theorem execPoolCheck_pools {d : DieId} {s : State} {z} (h : execPoolCheck d s = .next z) (h0 : PoolsOk s.core s.copy s.mirror.wire s.mirror.rx s.dies) : PoolsOk z.core z.copy z.mirror.wire z.mirror.rx z.dies := by
  cases h; (try unfold execPoolCheck)
  (try dsimp only)
  repeat' (first | (first | assumption | with_reducible apply State.commit_pools | with_reducible apply State.poolMismatch_pools | with_reducible apply foldl_pools | with_reducible apply Die.fold_ok | with_reducible apply Die.modCh_ok | with_reducible apply PoolsOk.map | with_reducible apply PoolsOk.vmap | with_reducible apply Core.fold_ok | (intro) | split) | dsimp only)
theorem execPoolAuditSnapshot_pools {s : State} {z} (h : execPoolAuditSnapshot s = .next z) (h0 : PoolsOk s.core s.copy s.mirror.wire s.mirror.rx s.dies) : PoolsOk z.core z.copy z.mirror.wire z.mirror.rx z.dies := by
  cases h; (try unfold execPoolAuditSnapshot)
  (try dsimp only)
  repeat' (first | (first | assumption | with_reducible apply State.modCore_pools | with_reducible apply State.raiseSrc_pools | with_reducible apply State.commit_pools | with_reducible apply State.poolMismatch_pools | with_reducible apply foldl_pools | with_reducible apply Die.fold_ok | with_reducible apply Die.modCh_ok | with_reducible apply PoolsOk.map | with_reducible apply PoolsOk.vmap | with_reducible apply Core.fold_ok | (intro) | split) | dsimp only)
theorem Core.deliverEvent_ok (c : Core) (r : LogRec) (h0 : CoreOk c.slots c.store) :
    CoreOk (Core.deliverEvent c r).slots (Core.deliverEvent c r).store := by
  exact h0
theorem execLogWrite_pools {h : HubId} {s : State} {z : State} (hz : execLogWrite h s = .next z) (h0 : PoolsOk s.core s.copy s.mirror.wire s.mirror.rx s.dies) :
    PoolsOk z.core z.copy z.mirror.wire z.mirror.rx z.dies := by
  cases hz; dsimp only
  repeat' (first | assumption | with_reducible apply State.modCore_pools | with_reducible apply State.commit_pools | with_reducible apply Core.deliverEvent_ok | (intro _) | split)
theorem execBlackBoxCopy_pools {h : HubId} {s : State} {z : State} (hz : execBlackBoxCopy h s = .next z) (h0 : PoolsOk s.core s.copy s.mirror.wire s.mirror.rx s.dies) :
    PoolsOk z.core z.copy z.mirror.wire z.mirror.rx z.dies := by
  cases hz; (try unfold execBlackBoxCopy)
  (try dsimp only)
  repeat' (first | (first | assumption | split) | dsimp only)
theorem State.spiEvents_pools (s : State) (h0 : PoolsOk s.core s.copy s.mirror.wire s.mirror.rx s.dies) :
    PoolsOk (State.spiEvents s).core (State.spiEvents s).copy (State.spiEvents s).mirror.wire (State.spiEvents s).mirror.rx (State.spiEvents s).dies := by
  unfold State.spiEvents
  repeat' (first | (first | assumption | with_reducible apply State.modCore_pools | with_reducible apply State.emit_pools | (intro _) | split) | dsimp only)
theorem execEventDatagramSend_pools {w : Who} {s : State} {z : State} (hz : execEventDatagramSend w s = .next z) (h0 : PoolsOk s.core s.copy s.mirror.wire s.mirror.rx s.dies) :
    PoolsOk z.core z.copy z.mirror.wire z.mirror.rx z.dies := by
  cases hz; dsimp only
  repeat' (first | assumption | with_reducible apply State.modCore_pools | with_reducible apply State.commit_pools | with_reducible apply State.emit_pools | with_reducible apply State.spiEvents_pools | with_reducible apply Core.modSess_ok | (intro _) | split)
theorem State.correct_pools (s : State) (offset : ℤ) (h0 : PoolsOk s.core s.copy s.mirror.wire s.mirror.rx s.dies) :
    PoolsOk (State.correct s offset).core (State.correct s offset).copy (State.correct s offset).mirror.wire (State.correct s offset).mirror.rx (State.correct s offset).dies := by
  unfold State.correct
  repeat' (first | assumption | split)
theorem State.servo_pools (s : State) (offset : ℤ) (h0 : PoolsOk s.core s.copy s.mirror.wire s.mirror.rx s.dies) : PoolsOk (State.servo s offset).core (State.servo s offset).copy (State.servo s offset).mirror.wire (State.servo s offset).mirror.rx (State.servo s offset).dies := by
  exact h0
theorem State.measure_pools (s : State) (offset : ℤ) (h0 : PoolsOk s.core s.copy s.mirror.wire s.mirror.rx s.dies) :
    PoolsOk (State.measure s offset).core (State.measure s offset).copy (State.measure s offset).mirror.wire (State.measure s offset).mirror.rx (State.measure s offset).dies := by
  unfold State.measure
  repeat' (first | (first | assumption | with_reducible apply State.enterSync_pools | with_reducible apply State.correct_pools | split) | dsimp only)
theorem execSyncReceive_pools {p : PortId} {media : PtpMedia} {m : SyncMsg} {s : State} {z} (h : execSyncReceive p media m s = .next z) (h0 : PoolsOk s.core s.copy s.mirror.wire s.mirror.rx s.dies) : PoolsOk z.core z.copy z.mirror.wire z.mirror.rx z.dies := by
  cases h; (try unfold execSyncReceive)
  (try dsimp only)
  repeat' (first | (first | assumption | with_reducible apply State.modPtp_pools | with_reducible apply State.commit_pools | with_reducible apply State.measure_pools | with_reducible apply foldl_pools | with_reducible apply Die.fold_ok | with_reducible apply Die.modCh_ok | with_reducible apply PoolsOk.map | with_reducible apply PoolsOk.vmap | with_reducible apply Core.fold_ok | (intro) | split) | dsimp only)
theorem execAnnounceReceive_pools {p : PortId} {x1 : Announce} {s : State} {z : State} (hz : execAnnounceReceive p x1 s = .next z) (h0 : PoolsOk s.core s.copy s.mirror.wire s.mirror.rx s.dies) :
    PoolsOk z.core z.copy z.mirror.wire z.mirror.rx z.dies := by
  cases hz; dsimp only
  repeat' (first | assumption | with_reducible apply State.commit_pools | with_reducible apply State.modPtp_pools | with_reducible apply State.noteMix_pools | with_reducible apply State.bmca_pools | split)
theorem execSyncReceiptTimeout_pools {p : PortId} {s : State} {z : State} (hz : execSyncReceiptTimeout p s = .next z) (h0 : PoolsOk s.core s.copy s.mirror.wire s.mirror.rx s.dies) :
    PoolsOk z.core z.copy z.mirror.wire z.mirror.rx z.dies := by
  cases hz; (try unfold execSyncReceiptTimeout)
  (try dsimp only)
  repeat' (first | (first | assumption | with_reducible apply State.commit_pools | with_reducible apply State.loseAnnounce_pools | split) | dsimp only)
theorem execAnnounceReceiptTimeout_pools {p : PortId} {s : State} {z : State} (hz : execAnnounceReceiptTimeout p s = .next z) (h0 : PoolsOk s.core s.copy s.mirror.wire s.mirror.rx s.dies) :
    PoolsOk z.core z.copy z.mirror.wire z.mirror.rx z.dies := by
  cases hz; (try unfold execAnnounceReceiptTimeout)
  (try dsimp only)
  repeat' (first | (first | assumption | with_reducible apply State.commit_pools | with_reducible apply State.loseAnnounce_pools | split) | dsimp only)
theorem execHoldoverLimit_pools {s : State} {z : State} (hz : execHoldoverLimit s = .next z) (h0 : PoolsOk s.core s.copy s.mirror.wire s.mirror.rx s.dies) :
    PoolsOk z.core z.copy z.mirror.wire z.mirror.rx z.dies := by
  cases hz; (try unfold execHoldoverLimit)
  (try dsimp only)
  repeat' (first | (first | assumption | with_reducible apply State.commit_pools | with_reducible apply State.enterSync_pools | split) | dsimp only)
theorem execTxTimestampMissing_pools {p : PortId} {s : State} {z : State} (hz : execTxTimestampMissing p s = .next z) (h0 : PoolsOk s.core s.copy s.mirror.wire s.mirror.rx s.dies) :
    PoolsOk z.core z.copy z.mirror.wire z.mirror.rx z.dies := by
  cases hz; (try unfold execTxTimestampMissing)
  (try dsimp only)
  repeat' (first | (first | assumption | with_reducible apply State.commit_pools | with_reducible apply State.bmca_pools | split) | dsimp only)
theorem execFaultyEnd_pools {p : PortId} {s : State} {z} (h : execFaultyEnd p s = .next z) (h0 : PoolsOk s.core s.copy s.mirror.wire s.mirror.rx s.dies) : PoolsOk z.core z.copy z.mirror.wire z.mirror.rx z.dies := by
  cases h; (try unfold execFaultyEnd)
  (try dsimp only)
  repeat' (first | (first | assumption | with_reducible apply State.commit_pools | with_reducible apply State.ptpRestart_pools | with_reducible apply foldl_pools | with_reducible apply Die.fold_ok | with_reducible apply Die.modCh_ok | with_reducible apply PoolsOk.map | with_reducible apply PoolsOk.vmap | with_reducible apply Core.fold_ok | (intro) | split) | dsimp only)
theorem Die.step_ok (d : Die) (ts : Tick) (new : Tick) (delta : ℤ) (h0 : DieOk d.ntqPool) : DieOk (Die.step d ts new delta).ntqPool := by
  unfold Die.step; dsimp only; exact Die.fold_ok (Die.close_ok _ _ _ h0) fun x c h => Die.modCh_ok (Die.restartFrom_ok _ _ _ _ h)
theorem State.stepTime_pools (s : State) (ts : Tick) (delta : ℤ) (h0 : PoolsOk s.core s.copy s.mirror.wire s.mirror.rx s.dies) : PoolsOk (State.stepTime s ts delta).core (State.stepTime s ts delta).copy (State.stepTime s ts delta).mirror.wire (State.stepTime s ts delta).mirror.rx (State.stepTime s ts delta).dies := by
  unfold State.stepTime
  extract_lets now new te late y1 s1 s2 y2 s3 s4 due s5 s6
  have h1 : PoolsOk s1.core s1.copy s1.mirror.wire s1.mirror.rx s1.dies :=
    PoolsOk.map h0 fun x h => DieOk.ite (Die.step_ok x _ _ _ h) h
  clear_value s1
  have h2 : PoolsOk s2.core s2.copy s2.mirror.wire s2.mirror.rx s2.dies := State.raise_pools _ _ _ _ _ _ h1
  clear_value s2
  have h4 : PoolsOk s4.core s4.copy s4.mirror.wire s4.mirror.rx s4.dies :=
    State.modCore_pools (State.outcomes_pools s3 _ _ h2) fun _ h => h
  clear_value s4
  have h5 : PoolsOk s5.core s5.copy s5.mirror.wire s5.mirror.rx s5.dies := State.modCore_pools h4 fun _ h => h
  clear_value s5
  have h6 : PoolsOk s6.core s6.copy s6.mirror.wire s6.mirror.rx s6.dies := foldl_pools h5 fun s d h => State.decimate_pools _ _ _ h
  clear_value s6
  exact foldl_pools h6 fun s d h => State.settlePools_pools _ _ h
theorem execTimeStep_pools {s : State} {z : State} (hz : execTimeStep s = .next z) (h0 : PoolsOk s.core s.copy s.mirror.wire s.mirror.rx s.dies) :
    PoolsOk z.core z.copy z.mirror.wire z.mirror.rx z.dies := by
  cases hz; split
  · split
    · exact State.commit_pools (State.stepTime_pools _ _ _ h0)
    · exact h0
  · exact h0
theorem State.addReset_pools (s : State) (tr : Tick) (src : ℕ) (h0 : PoolsOk s.core s.copy s.mirror.wire s.mirror.rx s.dies) :
    PoolsOk (State.addReset s tr src).core (State.addReset s tr src).copy (State.addReset s tr src).mirror.wire (State.addReset s tr src).mirror.rx (State.addReset s tr src).dies := by
  unfold State.addReset
  repeat' (first | assumption | with_reducible apply State.modCore_pools | (intro _) | split)
theorem execSyncInEdge_pools {lowFor : ℕ} {highFor : ℕ} {s : State} {z : State} (hz : execSyncInEdge lowFor highFor s = .next z) (h0 : PoolsOk s.core s.copy s.mirror.wire s.mirror.rx s.dies) :
    PoolsOk z.core z.copy z.mirror.wire z.mirror.rx z.dies := by
  cases hz; dsimp only
  repeat' (first | assumption | with_reducible apply State.commit_pools | with_reducible apply State.addReset_pools | split)
theorem execTimeStatusRead_pools {r : Req} {s : State} {z : State} (hz : execTimeStatusRead r s = .next z) (h0 : PoolsOk s.core s.copy s.mirror.wire s.mirror.rx s.dies) :
    PoolsOk z.core z.copy z.mirror.wire z.mirror.rx z.dies := by
  cases hz; (try unfold execTimeStatusRead)
  (try dsimp only)
  repeat' (first | (first | assumption | with_reducible apply State.command_pools | (intro _)) | dsimp only)
theorem execTimeStatusLoad_pools {r : Req} {t : Dword} {s : State} {z : State} (hz : execTimeStatusLoad r t s = .next z) (h0 : PoolsOk s.core s.copy s.mirror.wire s.mirror.rx s.dies) :
    PoolsOk z.core z.copy z.mirror.wire z.mirror.rx z.dies := by
  cases hz; dsimp only
  repeat' (first | assumption | with_reducible apply State.command_pools | (intro _) | split)
theorem execTimeStatusWriteAccept_pools {r : Req} {v : Byte} {s : State} {z : State} (hz : execTimeStatusWriteAccept r v s = .next z) (h0 : PoolsOk s.core s.copy s.mirror.wire s.mirror.rx s.dies) :
    PoolsOk z.core z.copy z.mirror.wire z.mirror.rx z.dies := by
  cases hz; dsimp only
  repeat' (first | assumption | with_reducible apply State.command_pools | with_reducible apply State.writeAccept_pools | (intro _) | split)
theorem State.offWrite_pools (s : State) (h0 : PoolsOk s.core s.copy s.mirror.wire s.mirror.rx s.dies) :
    PoolsOk (State.offWrite s).core (State.offWrite s).copy (State.offWrite s).mirror.wire (State.offWrite s).mirror.rx (State.offWrite s).dies := by
  exact h0
theorem State.access_pools (s : State) (p : Path) (pg : PageRef) (off : ℕ) (f : State → State) (h0 : PoolsOk s.core s.copy s.mirror.wire s.mirror.rx s.dies) (fk : ∀ y0, PoolsOk y0.core y0.copy y0.mirror.wire y0.mirror.rx y0.dies → PoolsOk (f y0).core (f y0).copy (f y0).mirror.wire (f y0).mirror.rx (f y0).dies) : PoolsOk (State.access s p pg off f).core (State.access s p pg off f).copy (State.access s p pg off f).mirror.wire (State.access s p pg off f).mirror.rx (State.access s p pg off f).dies := by
  unfold State.access
  repeat' (first | (first | assumption | with_reducible apply State.offWrite_pools | with_reducible apply State.rejectAt_pools | with_reducible apply State.unheard_pools | with_reducible apply foldl_pools | with_reducible apply Die.fold_ok | with_reducible apply Die.modCh_ok | with_reducible apply PoolsOk.map | with_reducible apply PoolsOk.vmap | with_reducible apply Core.fold_ok | (with_reducible apply fk) | (intro) | split) | dsimp only)
theorem State.accessed_pools (s : State) (p : Path) (pg : PageRef) (off : ℕ) (f : State → State) (hf : ∀ x, PoolsOk x.core x.copy x.mirror.wire x.mirror.rx x.dies → PoolsOk (f x).core (f x).copy (f x).mirror.wire (f x).mirror.rx (f x).dies) (h0 : PoolsOk s.core s.copy s.mirror.wire s.mirror.rx s.dies) :
    PoolsOk (State.accessed s p pg off f).core (State.accessed s p pg off f).copy (State.accessed s p pg off f).mirror.wire (State.accessed s p pg off f).mirror.rx (State.accessed s p pg off f).dies := by
  unfold State.accessed
  repeat' (first | assumption | with_reducible apply State.access_pools | with_reducible apply State.commit_pools | with_reducible apply State.shadowUnit_pools | with_reducible apply State.modDie_pools | with_reducible apply State.modCore_pools | with_reducible apply State.modHub_pools | with_reducible apply foldl_pools | with_reducible apply Die.fold_ok | with_reducible apply Core.fold_ok | with_reducible apply Die.modCh_ok | with_reducible apply PoolsOk.map | with_reducible apply PoolsOk.vmap | with_reducible apply hf | (intro) | split | dsimp only)
theorem State.hdrWrite_pools (s : State) (pg : PageRef) (off : ℕ) (w : Word) (h0 : PoolsOk s.core s.copy s.mirror.wire s.mirror.rx s.dies) :
    PoolsOk (State.hdrWrite s pg off w).core (State.hdrWrite s pg off w).copy (State.hdrWrite s pg off w).mirror.wire (State.hdrWrite s pg off w).mirror.rx (State.hdrWrite s pg off w).dies := by
  unfold State.hdrWrite
  repeat' (first | assumption | with_reducible apply State.writeHdr_pools | split)
theorem State.fieldSafe_pools (s : State) (h0 : PoolsOk s.core s.copy s.mirror.wire s.mirror.rx s.dies) :
    PoolsOk (State.fieldSafe s).core (State.fieldSafe s).copy (State.fieldSafe s).mirror.wire (State.fieldSafe s).mirror.rx (State.fieldSafe s).dies := by
  unfold State.fieldSafe
  repeat' (first | assumption | with_reducible apply State.modCore_pools | (intro _))
theorem State.wdAction_pools (s : State) (code : ℕ) (h0 : PoolsOk s.core s.copy s.mirror.wire s.mirror.rx s.dies) :
    PoolsOk (State.wdAction s code).core (State.wdAction s code).copy (State.wdAction s code).mirror.wire (State.wdAction s code).mirror.rx (State.wdAction s code).dies := by
  unfold State.wdAction
  repeat' (first | assumption | with_reducible apply State.fieldSafe_pools | with_reducible apply State.startSwitchover_pools | with_reducible apply State.restartHub_pools | split)
theorem State.wdViolate_pools (s : State) (v : Violation) (start : ℕ) (h0 : PoolsOk s.core s.copy s.mirror.wire s.mirror.rx s.dies) :
    PoolsOk (State.wdViolate s v start).core (State.wdViolate s v start).copy (State.wdViolate s v start).mirror.wire (State.wdViolate s v start).mirror.rx (State.wdViolate s v start).dies := by
  unfold State.wdViolate
  repeat' (first | assumption | with_reducible apply State.modCore_pools | with_reducible apply State.wdAction_pools | with_reducible apply State.raiseNow_pools | (intro _))
theorem State.wdCatchUp_pools (s : State) (a : ℕ) (h0 : PoolsOk s.core s.copy s.mirror.wire s.mirror.rx s.dies) :
    PoolsOk (State.wdCatchUp s a).core (State.wdCatchUp s a).copy (State.wdCatchUp s a).mirror.wire (State.wdCatchUp s a).mirror.rx (State.wdCatchUp s a).dies := by
  unfold State.wdCatchUp
  repeat' (first | assumption | with_reducible apply State.wdViolate_pools | with_reducible apply State.modDie_pools | with_reducible apply State.modCore_pools | with_reducible apply State.modHub_pools | with_reducible apply foldl_pools | with_reducible apply Die.fold_ok | with_reducible apply Core.fold_ok | with_reducible apply Die.modCh_ok | with_reducible apply PoolsOk.map | with_reducible apply PoolsOk.vmap | (intro) | split | dsimp only)
theorem execWatchdogLate_pools {s : State} {z : State} (hz : execWatchdogLate s = .next z) (h0 : PoolsOk s.core s.copy s.mirror.wire s.mirror.rx s.dies) :
    PoolsOk z.core z.copy z.mirror.wire z.mirror.rx z.dies := by
  cases hz; (try dsimp only)
  repeat' (first | assumption | with_reducible apply State.commit_pools | with_reducible apply State.wdCatchUp_pools | with_reducible apply State.modDie_pools | with_reducible apply State.modCore_pools | with_reducible apply State.modHub_pools | with_reducible apply foldl_pools | with_reducible apply Die.fold_ok | with_reducible apply Core.fold_ok | with_reducible apply Die.modCh_ok | with_reducible apply PoolsOk.map | with_reducible apply PoolsOk.vmap | (intro) | split | dsimp only)
theorem State.serveNow_pools (s : State) (v : Word) (a : ℕ) (h0 : PoolsOk s.core s.copy s.mirror.wire s.mirror.rx s.dies) :
    PoolsOk ((State.serveNow s v a).1).core ((State.serveNow s v a).1).copy ((State.serveNow s v a).1).mirror.wire ((State.serveNow s v a).1).mirror.rx ((State.serveNow s v a).1).dies := by
  unfold State.serveNow
  repeat' (first | assumption | with_reducible apply State.wdViolate_pools | with_reducible apply State.modCore_pools | (intro) | split | dsimp only)
theorem State.serveAt_pools (s : State) (v : Word) (a : ℕ) (h0 : PoolsOk s.core s.copy s.mirror.wire s.mirror.rx s.dies) :
    PoolsOk ((State.serveAt s v a).1).core ((State.serveAt s v a).1).copy ((State.serveAt s v a).1).mirror.wire ((State.serveAt s v a).1).mirror.rx ((State.serveAt s v a).1).dies := by
  unfold State.serveAt
  repeat' (first | assumption | with_reducible apply State.wdCatchUp_pools | with_reducible apply State.serveNow_pools | split | dsimp only)
theorem State.serve_pools (s : State) (v : Word) (h0 : PoolsOk s.core s.copy s.mirror.wire s.mirror.rx s.dies) :
    PoolsOk ((State.serve s v).1).core ((State.serve s v).1).copy ((State.serve s v).1).mirror.wire ((State.serve s v).1).mirror.rx ((State.serve s v).1).dies := State.serveAt_pools s v _ h0
theorem execServeKeyA_pools {p : Path} {h : HubId} {s : State} {z : State} (hz : execServeKeyA p h s = .next z) (h0 : PoolsOk s.core s.copy s.mirror.wire s.mirror.rx s.dies) :
    PoolsOk z.core z.copy z.mirror.wire z.mirror.rx z.dies := by
  cases hz; (try unfold execServeKeyA)
  (try dsimp only)
  repeat' (first | (first | assumption | with_reducible apply State.accessed_pools | with_reducible apply State.serve_pools | (intro _)) | dsimp only)
theorem execServeKeyB_pools {p : Path} {h : HubId} {s : State} {z : State} (hz : execServeKeyB p h s = .next z) (h0 : PoolsOk s.core s.copy s.mirror.wire s.mirror.rx s.dies) :
    PoolsOk z.core z.copy z.mirror.wire z.mirror.rx z.dies := by
  cases hz; (try unfold execServeKeyB)
  (try dsimp only)
  repeat' (first | (first | assumption | with_reducible apply State.accessed_pools | with_reducible apply State.serve_pools | (intro _)) | dsimp only)
theorem execServeOtherValue_pools {p : Path} {h : HubId} {v : Word} {s : State} {z : State} (hz : execServeOtherValue p h v s = .next z) (h0 : PoolsOk s.core s.copy s.mirror.wire s.mirror.rx s.dies) :
    PoolsOk z.core z.copy z.mirror.wire z.mirror.rx z.dies := by
  cases hz; (try unfold execServeOtherValue)
  (try dsimp only)
  repeat' (first | (first | assumption | with_reducible apply State.accessed_pools | with_reducible apply State.serve_pools | (intro _)) | dsimp only)
theorem State.wdReject_pools (s : State) (h0 : PoolsOk s.core s.copy s.mirror.wire s.mirror.rx s.dies) :
    PoolsOk (State.wdReject s).core (State.wdReject s).copy (State.wdReject s).mirror.wire (State.wdReject s).mirror.rx (State.wdReject s).dies := by
  unfold State.wdReject
  repeat' (first | assumption | with_reducible apply State.modCore_pools | with_reducible apply State.raiseNow_pools | (intro _))
theorem State.tsoldCtrl_pools (s : State) (w : Word) (h0 : PoolsOk s.core s.copy s.mirror.wire s.mirror.rx s.dies) :
    PoolsOk (State.tsoldCtrl s w).1.core (State.tsoldCtrl s w).1.copy (State.tsoldCtrl s w).1.mirror.wire (State.tsoldCtrl s w).1.mirror.rx (State.tsoldCtrl s w).1.dies := by
  unfold State.tsoldCtrl
  repeat' (first | assumption | with_reducible apply State.modCore_pools | with_reducible apply State.wdCatchUp_pools | with_reducible apply State.wdReject_pools | with_reducible apply State.modDie_pools | with_reducible apply State.modCore_pools | with_reducible apply State.modHub_pools | with_reducible apply foldl_pools | with_reducible apply Die.fold_ok | with_reducible apply Core.fold_ok | with_reducible apply Die.modCh_ok | with_reducible apply PoolsOk.map | with_reducible apply PoolsOk.vmap | (intro) | split | dsimp only)
theorem State.tsoldPeriod_pools (s : State) (w : Word) (h0 : PoolsOk s.core s.copy s.mirror.wire s.mirror.rx s.dies) :
    PoolsOk (State.tsoldPeriod s w).1.core (State.tsoldPeriod s w).1.copy (State.tsoldPeriod s w).1.mirror.wire (State.tsoldPeriod s w).1.mirror.rx (State.tsoldPeriod s w).1.dies := by
  unfold State.tsoldPeriod
  repeat' (first | assumption | with_reducible apply Die.close_ok | with_reducible apply State.modCore_pools | with_reducible apply State.wdCatchUp_pools | with_reducible apply State.wdReject_pools | with_reducible apply State.modDie_pools | with_reducible apply State.modCore_pools | with_reducible apply State.modHub_pools | with_reducible apply foldl_pools | with_reducible apply Die.fold_ok | with_reducible apply Core.fold_ok | with_reducible apply Die.modCh_ok | with_reducible apply PoolsOk.map | with_reducible apply PoolsOk.vmap | (intro) | split | dsimp only)
theorem State.tsoldCtrlWrite_pools (s : State) (p : Path) (w : Word) (h0 : PoolsOk s.core s.copy s.mirror.wire s.mirror.rx s.dies) :
    PoolsOk (State.tsoldCtrlWrite s p w).core (State.tsoldCtrlWrite s p w).copy (State.tsoldCtrlWrite s p w).mirror.wire (State.tsoldCtrlWrite s p w).mirror.rx (State.tsoldCtrlWrite s p w).dies := by
  unfold State.tsoldCtrlWrite
  repeat' (first | assumption | with_reducible apply State.tsoldCtrl_pools | with_reducible apply State.rejectAt_pools | split)
theorem State.tsoldPeriodWrite_pools (s : State) (p : Path) (w : Word) (h0 : PoolsOk s.core s.copy s.mirror.wire s.mirror.rx s.dies) :
    PoolsOk (State.tsoldPeriodWrite s p w).core (State.tsoldPeriodWrite s p w).copy (State.tsoldPeriodWrite s p w).mirror.wire (State.tsoldPeriodWrite s p w).mirror.rx (State.tsoldPeriodWrite s p w).dies := by
  unfold State.tsoldPeriodWrite
  repeat' (first | assumption | with_reducible apply State.tsoldPeriod_pools | split)
theorem execTsoldEnSet_pools {p : Path} {h : HubId} {w : Word} {s : State} {z : State} (hz : execTsoldEnSet p h w s = .next z) (h0 : PoolsOk s.core s.copy s.mirror.wire s.mirror.rx s.dies) :
    PoolsOk z.core z.copy z.mirror.wire z.mirror.rx z.dies := by
  cases hz; (try unfold execTsoldEnSet)
  (try dsimp only)
  repeat' (first | (first | assumption | with_reducible apply State.accessed_pools | with_reducible apply State.tsoldCtrlWrite_pools | (intro _)) | dsimp only)
theorem execTsoldActionWrite_pools {p : Path} {h : HubId} {w : Word} {s : State} {z : State} (hz : execTsoldActionWrite p h w s = .next z) (h0 : PoolsOk s.core s.copy s.mirror.wire s.mirror.rx s.dies) :
    PoolsOk z.core z.copy z.mirror.wire z.mirror.rx z.dies := by
  cases hz; (try unfold execTsoldActionWrite)
  (try dsimp only)
  repeat' (first | (first | assumption | with_reducible apply State.accessed_pools | with_reducible apply State.tsoldCtrlWrite_pools | (intro _)) | dsimp only)
theorem execTsoldPeriodWrite_pools {p : Path} {h : HubId} {w : Word} {s : State} {z : State} (hz : execTsoldPeriodWrite p h w s = .next z) (h0 : PoolsOk s.core s.copy s.mirror.wire s.mirror.rx s.dies) :
    PoolsOk z.core z.copy z.mirror.wire z.mirror.rx z.dies := by
  cases hz; (try unfold execTsoldPeriodWrite)
  (try dsimp only)
  repeat' (first | (first | assumption | with_reducible apply State.accessed_pools | with_reducible apply State.tsoldPeriodWrite_pools | (intro _)) | dsimp only)
theorem State.ifServing_pools (s : State) (x : Response) (h0 : PoolsOk s.core s.copy s.mirror.wire s.mirror.rx s.dies) :
    PoolsOk (State.ifServing s x).1.core (State.ifServing s x).1.copy (State.ifServing s x).1.mirror.wire (State.ifServing s x).1.mirror.rx (State.ifServing s x).1.dies := by
  exact h0
theorem execWatchdogConfigure_pools {r : Req} {period : Word} {ctrl : Word} {which : Byte} {s : State} {z : State} (hz : execWatchdogConfigure r period ctrl which s = .next z) (h0 : PoolsOk s.core s.copy s.mirror.wire s.mirror.rx s.dies) :
    PoolsOk z.core z.copy z.mirror.wire z.mirror.rx z.dies := by
  cases hz; dsimp only
  repeat' (first | assumption | with_reducible apply State.commandLater_pools | with_reducible apply State.tsoldPeriod_pools | with_reducible apply State.tsoldCtrl_pools | with_reducible apply State.ifServing_pools | (intro _) | split)
theorem execWatchdogServe_pools {r : Req} {s : State} {z : State} (hz : execWatchdogServe r s = .next z) (h0 : PoolsOk s.core s.copy s.mirror.wire s.mirror.rx s.dies) :
    PoolsOk z.core z.copy z.mirror.wire z.mirror.rx z.dies := by
  cases hz; (try dsimp only)
  repeat' (first | assumption | with_reducible apply State.commandLater_pools | with_reducible apply State.ifServing_pools | with_reducible apply State.serveAt_pools | with_reducible apply State.serve_pools | with_reducible apply State.modDie_pools | with_reducible apply State.modCore_pools | with_reducible apply State.modHub_pools | with_reducible apply foldl_pools | with_reducible apply Die.fold_ok | with_reducible apply Core.fold_ok | with_reducible apply Die.modCh_ok | with_reducible apply PoolsOk.map | with_reducible apply PoolsOk.vmap | (intro) | split | dsimp only)
theorem execIdleEntry_pools {h : HubId} {s : State} {z : State} (hz : execIdleEntry h s = .next z) (h0 : PoolsOk s.core s.copy s.mirror.wire s.mirror.rx s.dies) :
    PoolsOk z.core z.copy z.mirror.wire z.mirror.rx z.dies := by
  cases hz; (try unfold execIdleEntry)
  (try dsimp only)
  repeat' (first | (first | assumption | split) | dsimp only)
theorem execIdleExit_pools {h : HubId} {s : State} {z : State} (hz : execIdleExit h s = .next z) (h0 : PoolsOk s.core s.copy s.mirror.wire s.mirror.rx s.dies) :
    PoolsOk z.core z.copy z.mirror.wire z.mirror.rx z.dies := by
  cases hz; exact h0
theorem State.answerPower_pools (s : State) (r : Option Req) (x : Response) (h0 : PoolsOk s.core s.copy s.mirror.wire s.mirror.rx s.dies) :
    PoolsOk (State.answerPower s r x).core (State.answerPower s r x).copy (State.answerPower s r x).mirror.wire (State.answerPower s r x).mirror.rx (State.answerPower s r x).dies := by
  unfold State.answerPower
  repeat' (first | assumption | with_reducible apply State.respond_pools | split)
theorem State.clearReq_pools (s : State) (h0 : PoolsOk s.core s.copy s.mirror.wire s.mirror.rx s.dies) :
    PoolsOk (State.clearReq s).core (State.clearReq s).copy (State.clearReq s).mirror.wire (State.clearReq s).mirror.rx (State.clearReq s).dies := by
  unfold State.clearReq
  repeat' (first | assumption | with_reducible apply PoolsOk.map | (intro _))
theorem State.refusePower_pools (s : State) (r : PwrReq) (b : PwrBlock) (reason : ℕ) (h0 : PoolsOk s.core s.copy s.mirror.wire s.mirror.rx s.dies) :
    PoolsOk (State.refusePower s r b reason).core (State.refusePower s r b reason).copy (State.refusePower s r b reason).mirror.wire (State.refusePower s r b reason).mirror.rx (State.refusePower s r b reason).dies := by
  unfold State.refusePower
  repeat' (first | assumption | with_reducible apply State.modHdr_pools | with_reducible apply State.clearReq_pools | with_reducible apply State.answerPower_pools)
theorem State.abortPower_pools (s : State) (r : PwrReq) (src : ℕ) (h0 : PoolsOk s.core s.copy s.mirror.wire s.mirror.rx s.dies) :
    PoolsOk (State.abortPower s r src).core (State.abortPower s r src).copy (State.abortPower s r src).mirror.wire (State.abortPower s r src).mirror.rx (State.abortPower s r src).dies := by
  unfold State.abortPower
  repeat' (first | assumption | with_reducible apply State.raiseNow_pools | with_reducible apply State.clearReq_pools | with_reducible apply State.answerPower_pools | split)
theorem State.noteDown_pools (s : State) (step : ℕ) (cause : ℕ) (h0 : PoolsOk s.core s.copy s.mirror.wire s.mirror.rx s.dies) :
    PoolsOk (State.noteDown s step cause).core (State.noteDown s step cause).copy (State.noteDown s step cause).mirror.wire (State.noteDown s step cause).mirror.rx (State.noteDown s step cause).dies := by
  exact h0
theorem State.beginDown_pools (s : State) (cause : ℕ) (h0 : PoolsOk s.core s.copy s.mirror.wire s.mirror.rx s.dies) :
    PoolsOk (State.beginDown s cause).core (State.beginDown s cause).copy (State.beginDown s cause).mirror.wire (State.beginDown s cause).mirror.rx (State.beginDown s cause).dies := by
  unfold State.beginDown
  repeat' (first | assumption | with_reducible apply State.modCore_pools | with_reducible apply State.noteDown_pools | (intro _))
theorem State.grantPower_pools (s : State) (r : PwrReq) (h0 : PoolsOk s.core s.copy s.mirror.wire s.mirror.rx s.dies) :
    PoolsOk (State.grantPower s r).core (State.grantPower s r).copy (State.grantPower s r).mirror.wire (State.grantPower s r).mirror.rx (State.grantPower s r).dies := by
  unfold State.grantPower
  repeat' (first | assumption | with_reducible apply Die.endVisits_ok | with_reducible apply Die.setCauses_ok | with_reducible apply State.answerPower_pools | with_reducible apply State.beginDown_pools | with_reducible apply State.clearReq_pools | with_reducible apply State.modDie_pools | with_reducible apply State.modDie_pools | with_reducible apply State.modCore_pools | with_reducible apply State.modHub_pools | with_reducible apply foldl_pools | with_reducible apply Die.fold_ok | with_reducible apply Core.fold_ok | with_reducible apply Die.modCh_ok | with_reducible apply PoolsOk.map | with_reducible apply PoolsOk.vmap | (intro) | split | dsimp only)
theorem State.askPower_pools (s : State) (q : Option Req) (target : ℕ) (scope : ℕ) (die : ℕ) (h0 : PoolsOk s.core s.copy s.mirror.wire s.mirror.rx s.dies) :
    PoolsOk (State.askPower s q target scope die).core (State.askPower s q target scope die).copy (State.askPower s q target scope die).mirror.wire (State.askPower s q target scope die).mirror.rx (State.askPower s q target scope die).dies := by
  unfold State.askPower
  repeat' (first | (first | assumption | with_reducible apply State.modDie_pools | with_reducible apply State.answerPower_pools | with_reducible apply State.abortPower_pools | (intro _) | split) | dsimp only)
theorem execPowerStateRequest_pools {r : Req} {target : Byte} {scope : Byte} {die : Byte} {s : State} {z : State} (hz : execPowerStateRequest r target scope die s = .next z) (h0 : PoolsOk s.core s.copy s.mirror.wire s.mirror.rx s.dies) :
    PoolsOk z.core z.copy z.mirror.wire z.mirror.rx z.dies := by
  cases hz; (try unfold execPowerStateRequest)
  (try dsimp only)
  repeat' (first | (first | assumption | with_reducible apply State.commandLater_pools | with_reducible apply State.askPower_pools | (intro _)) | dsimp only)
theorem State.pwrRequest_pools (s : State) (w : Word) (h0 : PoolsOk s.core s.copy s.mirror.wire s.mirror.rx s.dies) :
    PoolsOk (State.pwrRequest s w).core (State.pwrRequest s w).copy (State.pwrRequest s w).mirror.wire (State.pwrRequest s w).mirror.rx (State.pwrRequest s w).dies := by
  unfold State.pwrRequest
  repeat' (first | assumption | with_reducible apply State.askPower_pools)
theorem execPwrRequestWrite_pools {p : Path} {h : HubId} {w : Word} {s : State} {z : State} (hz : execPwrRequestWrite p h w s = .next z) (h0 : PoolsOk s.core s.copy s.mirror.wire s.mirror.rx s.dies) :
    PoolsOk z.core z.copy z.mirror.wire z.mirror.rx z.dies := by
  cases hz; (try unfold execPwrRequestWrite)
  (try dsimp only)
  repeat' (first | (first | assumption | with_reducible apply State.accessed_pools | with_reducible apply State.pwrRequest_pools | (intro _)) | dsimp only)
theorem execPowerHandshakeAnswer_pools {b : PwrBlock} {x1 : PwrAnswer} {s : State} {z : State} (hz : execPowerHandshakeAnswer b x1 s = .next z) (h0 : PoolsOk s.core s.copy s.mirror.wire s.mirror.rx s.dies) :
    PoolsOk z.core z.copy z.mirror.wire z.mirror.rx z.dies := by
  cases hz; dsimp only
  repeat' (first | assumption | with_reducible apply State.commit_pools | with_reducible apply State.refusePower_pools | with_reducible apply State.grantPower_pools | split)
theorem execPowerHandshakeTimeout_pools {s : State} {z : State} (hz : execPowerHandshakeTimeout s = .next z) (h0 : PoolsOk s.core s.copy s.mirror.wire s.mirror.rx s.dies) :
    PoolsOk z.core z.copy z.mirror.wire z.mirror.rx z.dies := by
  cases hz; (try unfold execPowerHandshakeTimeout)
  (try dsimp only)
  repeat' (first | (first | assumption | with_reducible apply State.commit_pools | with_reducible apply State.refusePower_pools | split) | dsimp only)
theorem State.loseAnswer_pools (s : State) (r : PwrReq) (h0 : PoolsOk s.core s.copy s.mirror.wire s.mirror.rx s.dies) :
    PoolsOk (State.loseAnswer s r).core (State.loseAnswer s r).copy (State.loseAnswer s r).mirror.wire (State.loseAnswer s r).mirror.rx (State.loseAnswer s r).dies := by
  unfold State.loseAnswer; split
  · exact h0.setCore fun h => h
  · exact h0
theorem execCommitStart_pools {s : State} {z : State} (hz : execCommitStart s = .next z) (h0 : PoolsOk s.core s.copy s.mirror.wire s.mirror.rx s.dies) :
    PoolsOk z.core z.copy z.mirror.wire z.mirror.rx z.dies := by
  cases hz; repeat' split
  · refine State.commit_pools ?_
    exact State.loseAnswer_pools _ _ h0
  all_goals exact h0
theorem Die.sleepNow_ok (k : Die) (d : DieId) (q : ℕ) (target : PwrState) (elapsed : ℕ) (h0 : DieOk k.ntqPool) :
    DieOk (Die.sleepNow k d q target elapsed).ntqPool := by
  unfold Die.sleepNow
  repeat' (first | assumption | with_reducible apply Die.endVisits_ok | with_reducible apply Die.modCh_ok | with_reducible apply Die.fold_ok | (intro _))
theorem State.dropLanes_pools (s : State) (d : DieId) (h0 : PoolsOk s.core s.copy s.mirror.wire s.mirror.rx s.dies) :
    PoolsOk (State.dropLanes s d).core (State.dropLanes s d).copy (State.dropLanes s d).mirror.wire (State.dropLanes s d).mirror.rx (State.dropLanes s d).dies := by
  exact h0
theorem State.sleepDie_pools (s : State) (target : PwrState) (d : DieId) (h0 : PoolsOk s.core s.copy s.mirror.wire s.mirror.rx s.dies) :
    PoolsOk (State.sleepDie s target d).core (State.sleepDie s target d).copy (State.sleepDie s target d).mirror.wire (State.sleepDie s target d).mirror.rx (State.sleepDie s target d).dies := by
  unfold State.sleepDie
  repeat' (first | assumption | with_reducible apply Die.sleepNow_ok | with_reducible apply State.dropLanes_pools | with_reducible apply State.modDie_pools | with_reducible apply State.modDie_pools | with_reducible apply State.modCore_pools | with_reducible apply State.modHub_pools | with_reducible apply foldl_pools | with_reducible apply Die.fold_ok | with_reducible apply Core.fold_ok | with_reducible apply Die.modCh_ok | with_reducible apply PoolsOk.map | with_reducible apply PoolsOk.vmap | (intro) | split | dsimp only)
theorem State.sleepPorts_pools (s : State) (target : PwrState) (h0 : PoolsOk s.core s.copy s.mirror.wire s.mirror.rx s.dies) :
    PoolsOk (State.sleepPorts s target).core (State.sleepPorts s target).copy (State.sleepPorts s target).mirror.wire (State.sleepPorts s target).mirror.rx (State.sleepPorts s target).dies := by
  unfold State.sleepPorts
  repeat' (first | assumption | with_reducible apply State.bmca_pools | split)
theorem State.sleepPackage_pools (s : State) (target : PwrState) (te : Tick) (h0 : PoolsOk s.core s.copy s.mirror.wire s.mirror.rx s.dies) :
    PoolsOk (State.sleepPackage s target te).core (State.sleepPackage s target te).copy (State.sleepPackage s target te).mirror.wire (State.sleepPackage s target te).mirror.rx (State.sleepPackage s target te).dies := by
  unfold State.sleepPackage
  extract_lets t1 t2 t3 t4
  have h3 : PoolsOk t3.core t3.copy t3.mirror.wire t3.mirror.rx t3.dies :=
    State.sleepPorts_pools _ _ (State.modCore_pools (foldl_pools h0 fun _ _ h => State.sleepDie_pools _ _ _ h) fun _ h => h)
  exact (PoolsOk.ite (State.resetString_pools _ h3) h3 : PoolsOk t4.core t4.copy t4.mirror.wire t4.mirror.rx t4.dies)
theorem State.completeEntry_pools (s : State) (r : PwrReq) (te : Tick) (h0 : PoolsOk s.core s.copy s.mirror.wire s.mirror.rx s.dies) : PoolsOk (State.completeEntry s r te).core (State.completeEntry s r te).copy (State.completeEntry s r te).mirror.wire (State.completeEntry s r te).mirror.rx (State.completeEntry s r te).dies := by
  unfold State.completeEntry
  repeat' (first | assumption | with_reducible apply Die.raise_ok | with_reducible apply State.clearReq_pools | with_reducible apply State.commit_pools | with_reducible apply State.modDie_pools | with_reducible apply State.raiseSrc_pools | with_reducible apply State.raise_pools | with_reducible apply State.settlePackage_pools | with_reducible apply State.settlePools_pools | with_reducible apply State.sleepDie_pools | with_reducible apply State.sleepPackage_pools | with_reducible apply State.modDie_pools | with_reducible apply State.modCore_pools | with_reducible apply State.modHub_pools | with_reducible apply foldl_pools | with_reducible apply Die.fold_ok | with_reducible apply Core.fold_ok | with_reducible apply Die.modCh_ok | with_reducible apply PoolsOk.map | with_reducible apply PoolsOk.vmap | (intro) | split | dsimp only)
theorem execEntryComplete_pools {s : State} {z} (h : execEntryComplete s = .next z) (h0 : PoolsOk s.core s.copy s.mirror.wire s.mirror.rx s.dies) : PoolsOk z.core z.copy z.mirror.wire z.mirror.rx z.dies := by
  cases h; (try unfold execEntryComplete)
  (try dsimp only)
  repeat' (first | (first | assumption | with_reducible apply State.completeEntry_pools | with_reducible apply foldl_pools | with_reducible apply Die.fold_ok | with_reducible apply Die.modCh_ok | with_reducible apply PoolsOk.map | with_reducible apply PoolsOk.vmap | with_reducible apply Core.fold_ok | (intro) | split) | dsimp only)
theorem State.startWake_pools (s : State) (src : ℕ) (h0 : PoolsOk s.core s.copy s.mirror.wire s.mirror.rx s.dies) : PoolsOk (State.startWake s src).core (State.startWake s src).copy (State.startWake s src).mirror.wire (State.startWake s src).mirror.rx (State.startWake s src).dies := by
  unfold State.startWake
  repeat' (first | (first | assumption | with_reducible apply foldl_pools | with_reducible apply Die.fold_ok | with_reducible apply Die.modCh_ok | with_reducible apply PoolsOk.map | with_reducible apply PoolsOk.vmap | with_reducible apply Core.fold_ok | (intro) | split) | dsimp only)
theorem State.wakeEvent_pools (s : State) (src : ℕ) (level : Bool) (h0 : PoolsOk s.core s.copy s.mirror.wire s.mirror.rx s.dies) : PoolsOk (State.wakeEvent s src level).core (State.wakeEvent s src level).copy (State.wakeEvent s src level).mirror.wire (State.wakeEvent s src level).mirror.rx (State.wakeEvent s src level).dies := by
  unfold State.wakeEvent
  repeat' (first | (first | assumption | with_reducible apply State.commit_pools | with_reducible apply State.abortPower_pools | with_reducible apply State.startWake_pools | with_reducible apply State.completeEntry_pools | with_reducible apply foldl_pools | with_reducible apply Die.fold_ok | with_reducible apply Die.modCh_ok | with_reducible apply PoolsOk.map | with_reducible apply PoolsOk.vmap | with_reducible apply Core.fold_ok | (intro) | split) | dsimp only)
theorem execAlarmWake_pools {s : State} {z : State} (hz : execAlarmWake s = .next z) (h0 : PoolsOk s.core s.copy s.mirror.wire s.mirror.rx s.dies) :
    PoolsOk z.core z.copy z.mirror.wire z.mirror.rx z.dies := by
  cases hz; (try unfold execAlarmWake)
  (try dsimp only)
  repeat' (first | (first | assumption | with_reducible apply State.wakeEvent_pools | split) | dsimp only)
theorem execLinkEnergyWake_pools {p : PortId} {energy : Bool} {s : State} {z : State} (hz : execLinkEnergyWake p energy s = .next z) (h0 : PoolsOk s.core s.copy s.mirror.wire s.mirror.rx s.dies) :
    PoolsOk z.core z.copy z.mirror.wire z.mirror.rx z.dies := by
  cases hz; dsimp only
  repeat' (first | assumption | with_reducible apply State.wakeEvent_pools | split)
theorem execWakePattern_pools {p : PortId} {addressed : Bool} {payload : List Byte} {s : State} {z : State} (hz : execWakePattern p addressed payload s = .next z) (h0 : PoolsOk s.core s.copy s.mirror.wire s.mirror.rx s.dies) :
    PoolsOk z.core z.copy z.mirror.wire z.mirror.rx z.dies := by
  cases hz; (try unfold execWakePattern)
  (try dsimp only)
  repeat' (first | (first | assumption | with_reducible apply State.wakeEvent_pools | split) | dsimp only)
theorem Die.wakeCh_ok (d : Die) (c : ChanId) (now : Tick) (free : ℕ) (h0 : DieOk d.ntqPool) : DieOk (Die.wakeCh d c now free).ntqPool := by
  unfold Die.wakeCh
  repeat' (first | assumption | with_reducible apply Die.modCh_ok | with_reducible apply Die.restartFrom_ok | with_reducible apply Die.syncLevel_ok | with_reducible apply State.modCh_pools | with_reducible apply State.modDie_pools | with_reducible apply State.modCore_pools | with_reducible apply State.modHub_pools | with_reducible apply foldl_pools | with_reducible apply Die.fold_ok | with_reducible apply Core.fold_ok | with_reducible apply Die.modCh_ok | with_reducible apply PoolsOk.map | with_reducible apply PoolsOk.vmap | (intro) | split | dsimp only)
theorem Die.wakeNow_ok (k : Die) (now : Tick) (elapsed free : ℕ) (h0 : DieOk k.ntqPool) : DieOk (Die.wakeNow k now elapsed free).ntqPool := by
  unfold Die.wakeNow; dsimp only; exact Die.fold_ok (Die.close_ok _ _ _ h0) fun x c h => Die.wakeCh_ok _ _ _ _ h
theorem State.wakeEntries_pools (s : State) (ds : List DieId) (h0 : PoolsOk s.core s.copy s.mirror.wire s.mirror.rx s.dies) :
    PoolsOk (State.wakeEntries s ds).core (State.wakeEntries s ds).copy (State.wakeEntries s ds).mirror.wire (State.wakeEntries s ds).mirror.rx (State.wakeEntries s ds).dies := by
  unfold State.wakeEntries
  repeat' (first | assumption | with_reducible apply State.outcomes_pools)
theorem State.wakeDies_pools (s : State) (ds : List DieId) (h0 : PoolsOk s.core s.copy s.mirror.wire s.mirror.rx s.dies) :
    PoolsOk (State.wakeDies s ds).core (State.wakeDies s ds).copy (State.wakeDies s ds).mirror.wire (State.wakeDies s ds).mirror.rx (State.wakeDies s ds).dies := by
  refine foldl_pools (State.wakeEntries_pools _ _ (foldl_pools h0 fun x d h => ?_)) fun x d h => State.settlePools_pools _ _ h
  exact State.skipFree_pools _ _ (State.modDie_pools h fun _ h => Die.wakeNow_ok _ _ _ _ h)
theorem State.logHeld_pools (s : State) (h0 : PoolsOk s.core s.copy s.mirror.wire s.mirror.rx s.dies) :
    PoolsOk (State.logHeld s).core (State.logHeld s).copy (State.logHeld s).mirror.wire (State.logHeld s).mirror.rx (State.logHeld s).dies := by
  unfold State.logHeld
  repeat' (first | assumption | with_reducible apply foldl_pools | with_reducible apply State.raise_pools | (intro _))
theorem State.resumeClock_pools (s : State) (h0 : PoolsOk s.core s.copy s.mirror.wire s.mirror.rx s.dies) :
    PoolsOk (State.resumeClock s).core (State.resumeClock s).copy (State.resumeClock s).mirror.wire (State.resumeClock s).mirror.rx (State.resumeClock s).dies := by
  unfold State.resumeClock
  repeat' (first | assumption | with_reducible apply State.enterSync_pools)
theorem State.wakePackage_pools (s : State) (src : ℕ) (yoyo : Bool) (h0 : PoolsOk s.core s.copy s.mirror.wire s.mirror.rx s.dies) : PoolsOk (State.wakePackage s src yoyo).core (State.wakePackage s src yoyo).copy (State.wakePackage s src yoyo).mirror.wire (State.wakePackage s src yoyo).mirror.rx (State.wakePackage s src yoyo).dies := by
  unfold State.wakePackage
  extract_lets deep t0 low y1 t1 t2 t3 t4 t5 y2 t6
  have h1 : PoolsOk t0.core t0.copy t0.mirror.wire t0.mirror.rx t0.dies := by
    unfold t0; split
    · exact State.resumeClock_pools _ h0
    · exact h0
  clear_value t0
  have h2 : PoolsOk t1.core t1.copy t1.mirror.wire t1.mirror.rx t1.dies := h1
  clear_value t1
  have h3 : PoolsOk t2.core t2.copy t2.mirror.wire t2.mirror.rx t2.dies := foldl_pools h2 fun s d h => State.modDie_pools h fun _ h => h
  clear_value t2
  have h4 : PoolsOk t3.core t3.copy t3.mirror.wire t3.mirror.rx t3.dies := State.wakeDies_pools _ _ h3
  clear_value t3
  have h5 : PoolsOk t4.core t4.copy t4.mirror.wire t4.mirror.rx t4.dies := State.modCore_pools h4 fun _ h => h
  clear_value t4
  have h6 : PoolsOk t5.core t5.copy t5.mirror.wire t5.mirror.rx t5.dies := State.stopMirror_pools _ h5
  clear_value t5
  exact State.settlePackage_pools _ (State.logHeld_pools t6 h6)
theorem State.wakeReady_pools (s : State) (h0 : PoolsOk s.core s.copy s.mirror.wire s.mirror.rx s.dies) : PoolsOk (State.wakeReady s).core (State.wakeReady s).copy (State.wakeReady s).mirror.wire (State.wakeReady s).mirror.rx (State.wakeReady s).dies := by
  unfold State.wakeReady
  repeat' (first | (first | assumption | with_reducible apply State.wakeDies_pools | with_reducible apply foldl_pools | with_reducible apply Die.fold_ok | with_reducible apply Die.modCh_ok | with_reducible apply PoolsOk.map | with_reducible apply PoolsOk.vmap | with_reducible apply Core.fold_ok | (intro) | split) | dsimp only)
theorem execWakeComplete_pools {s : State} {z} (h : execWakeComplete s = .next z) (h0 : PoolsOk s.core s.copy s.mirror.wire s.mirror.rx s.dies) : PoolsOk z.core z.copy z.mirror.wire z.mirror.rx z.dies := by
  cases h; dsimp only
  split
  · split
    · exact State.commit_pools (State.wakeDies_pools _ _ h0)
    · exact h0
  · refine State.commit_pools ?_
    split
    · exact State.wakePackage_pools _ _ _ h0
    · exact State.wakeReady_pools _ h0
  · exact h0
theorem Die.boot_ok {d b l w} : DieOk (Die.boot d b l w).ntqPool := ⟨rfl⟩
theorem State.startUp_pools (s : State) (st : Straps) (kept : Bool) (h0 : PoolsOk s.core s.copy s.mirror.wire s.mirror.rx s.dies) : PoolsOk (State.startUp s st kept).core (State.startUp s st kept).copy (State.startUp s st kept).mirror.wire (State.startUp s st kept).mirror.rx (State.startUp s st kept).dies := by
  unfold State.startUp
  dsimp only
  have F : ∀ (i : DieId) (b l w), DieOk ((vmap s.dies fun d k => Die.boot d k.present b w)[i.val]).ntqPool := fun i b l w => by
    simp only [Sys2Proof.vmap, Vector.getElem_ofFn]; exact Die.boot_ok
  split
  · refine State.lostBanks_pools _ _ _ (State.lostBanks_pools _ _ _ ?_)
    exact PoolsOk.fresh ⟨rfl, rfl⟩ fun i => F i _ _ _
  · refine State.lostBanks_pools _ _ _ ?_
    exact PoolsOk.fresh ⟨rfl, rfl⟩ fun i => F i _ _ _
theorem State.holdInReset_pools (s : State) (st : Straps) :
    PoolsOk (State.holdInReset s st).core (State.holdInReset s st).copy (State.holdInReset s st).mirror.wire (State.holdInReset s st).mirror.rx (State.holdInReset s st).dies := by
  refine ⟨⟨rfl, rfl⟩, ⟨rfl, rfl⟩, fun u h => ?_, fun u h => ?_, fun i => ?_⟩
  · exact absurd h List.not_mem_nil
  · exact nomatch h
  · simp only [State.holdInReset, State.resetOf, Variant.diesOf, Vector.getElem_ofFn]
    exact ⟨rfl⟩
theorem execPowerUp_pools {st : Straps} {s : State} {z : State} (hz : execPowerUp st s = .next z) (h0 : PoolsOk s.core s.copy s.mirror.wire s.mirror.rx s.dies) :
    PoolsOk z.core z.copy z.mirror.wire z.mirror.rx z.dies := by
  cases hz; repeat' split
  · exact State.holdInReset_pools _ _
  · exact State.startUp_pools _ _ _ h0
  · exact h0
theorem execPowerUpComplete_pools {s : State} {z : State} (hz : execPowerUpComplete s = .next z) (h0 : PoolsOk s.core s.copy s.mirror.wire s.mirror.rx s.dies) :
    PoolsOk z.core z.copy z.mirror.wire z.mirror.rx z.dies := by
  cases hz; dsimp only
  repeat' (first | assumption | with_reducible apply foldl_pools | with_reducible apply State.logHeld_pools | with_reducible apply State.settlePools_pools | with_reducible apply State.settlePackage_pools | split)
theorem execWakeNEvent_pools {low : Bool} {s : State} {z : State} (hz : execWakeNEvent low s = .next z) (h0 : PoolsOk s.core s.copy s.mirror.wire s.mirror.rx s.dies) :
    PoolsOk z.core z.copy z.mirror.wire z.mirror.rx z.dies := by
  unfold execWakeNEvent at hz; (try dsimp only at hz); repeat' split at hz
  all_goals (try cases hz)
  all_goals repeat' (first | (first | assumption | with_reducible apply State.startUp_pools | with_reducible apply State.wakeEvent_pools) | dsimp only)
theorem execPowerFailure_pools {s : State} {z : State} (hz : execPowerFailure s = .next z) (h0 : PoolsOk s.core s.copy s.mirror.wire s.mirror.rx s.dies) :
    PoolsOk z.core z.copy z.mirror.wire z.mirror.rx z.dies := by
  cases hz; dsimp only
  repeat' (first | assumption | with_reducible apply State.beginDown_pools | split)
theorem Die.unpower_ok (k : Die) (h0 : DieOk k.ntqPool) :
    DieOk (Die.unpower k).ntqPool := by
  unfold Die.unpower; dsimp only; exact Die.fold_ok h0 fun x c h => h
theorem State.railsDown_pools (s : State) (h0 : PoolsOk s.core s.copy s.mirror.wire s.mirror.rx s.dies) :
    PoolsOk (State.railsDown s).core (State.railsDown s).copy (State.railsDown s).mirror.wire (State.railsDown s).mirror.rx (State.railsDown s).dies := by
  unfold State.railsDown; dsimp only
  repeat' (first | (first | assumption | with_reducible apply State.startUp_pools | split) | dsimp only)
theorem execPowerDownStep_pools {s : State} {z : State} (hz : execPowerDownStep s = .next z) (h0 : PoolsOk s.core s.copy s.mirror.wire s.mirror.rx s.dies) :
    PoolsOk z.core z.copy z.mirror.wire z.mirror.rx z.dies := by
  cases hz; dsimp only
  repeat' (first | assumption | with_reducible apply State.modDie_pools | with_reducible apply foldl_pools | with_reducible apply PoolsOk.map | with_reducible apply State.railsDown_pools | with_reducible apply Die.unpower_ok | with_reducible apply Die.setCauses_ok | (intro _) | split)
theorem execHubRestart_pools {hh : HubId} {s : State} {z} (h : execHubRestart hh s = .next z) (h0 : PoolsOk s.core s.copy s.mirror.wire s.mirror.rx s.dies) : PoolsOk z.core z.copy z.mirror.wire z.mirror.rx z.dies := by
  cases h; (try unfold execHubRestart)
  (try dsimp only)
  repeat' (first | (first | assumption | with_reducible apply State.lostBanks_pools | with_reducible apply State.restartHub_pools | with_reducible apply foldl_pools | with_reducible apply Die.fold_ok | with_reducible apply Die.modCh_ok | with_reducible apply PoolsOk.map | with_reducible apply PoolsOk.vmap | with_reducible apply Core.fold_ok | (intro) | split) | dsimp only)
theorem State.restartPorts_pools (s : State) (hh : HubId) (h0 : PoolsOk s.core s.copy s.mirror.wire s.mirror.rx s.dies) : PoolsOk (State.restartPorts s hh).core (State.restartPorts s hh).copy (State.restartPorts s hh).mirror.wire (State.restartPorts s hh).mirror.rx (State.restartPorts s hh).dies := by
  unfold State.restartPorts
  repeat' (first | (first | assumption | with_reducible apply State.ptpRestart_pools | with_reducible apply foldl_pools | with_reducible apply Die.fold_ok | with_reducible apply Die.modCh_ok | with_reducible apply PoolsOk.map | with_reducible apply PoolsOk.vmap | with_reducible apply Core.fold_ok | (intro) | split) | dsimp only)
theorem execHubRestartComplete_pools {i : HubId} {s : State} {z : State} (hz : execHubRestartComplete i s = .next z) (h0 : PoolsOk s.core s.copy s.mirror.wire s.mirror.rx s.dies) :
    PoolsOk z.core z.copy z.mirror.wire z.mirror.rx z.dies := by
  cases hz; dsimp only
  split
  · split
    · refine State.commit_pools (State.settlePackage_pools _ (State.restartPorts_pools _ _ ?_))
      split
      · exact State.takeOver_pools _ _ (State.modHub_pools h0)
      · exact State.modHub_pools h0
    · have k : PoolsOk (if i = s.active then s else s.syncAnew).core (if i = s.active then s else s.syncAnew).copy
          (if i = s.active then s else s.syncAnew).mirror.wire (if i = s.active then s else s.syncAnew).mirror.rx
          (if i = s.active then s else s.syncAnew).dies := PoolsOk.ite h0 (State.syncAnew_pools _ h0)
      refine State.settlePackage_pools _ (State.restartPorts_pools _ _ ⟨?_, k.copy, k.wire, k.rx, (PoolsOk.map (f := fun (d : Die) => { d with missed := [] }) k fun _ h => h).dies⟩)
      dsimp only
      split
      · exact h0.core
      · exact Core.boot_ok
  · exact h0
theorem State.setHold_pools (s : State) (mask : ℕ) (h0 : PoolsOk s.core s.copy s.mirror.wire s.mirror.rx s.dies) :
    PoolsOk (State.setHold s mask).core (State.setHold s mask).copy (State.setHold s mask).mirror.wire (State.setHold s mask).mirror.rx (State.setHold s mask).dies := by
  unfold State.setHold
  repeat' (first | assumption | with_reducible apply State.modCore_pools | (intro _))
theorem State.clearHold_pools (s : State) (mask : ℕ) (h0 : PoolsOk s.core s.copy s.mirror.wire s.mirror.rx s.dies) :
    PoolsOk (State.clearHold s mask).core (State.clearHold s mask).copy (State.clearHold s mask).mirror.wire (State.clearHold s mask).mirror.rx (State.clearHold s mask).dies := by
  unfold State.clearHold
  repeat' (first | assumption | with_reducible apply State.modCore_pools | (intro _))
theorem State.declareLoss_pools (s : State) (i : Fin 8) (h0 : PoolsOk s.core s.copy s.mirror.wire s.mirror.rx s.dies) :
    PoolsOk (State.declareLoss s i).core (State.declareLoss s i).copy (State.declareLoss s i).mirror.wire (State.declareLoss s i).mirror.rx (State.declareLoss s i).dies := by
  unfold State.declareLoss
  repeat' (first | assumption | with_reducible apply State.modCore_pools | with_reducible apply State.setHold_pools | with_reducible apply Core.modSess_ok | (intro _) | split)
theorem execLinkLossDeclare_pools {slot : Fin 8} {s : State} {z : State} (hz : execLinkLossDeclare slot s = .next z) (h0 : PoolsOk s.core s.copy s.mirror.wire s.mirror.rx s.dies) :
    PoolsOk z.core z.copy z.mirror.wire z.mirror.rx z.dies := by
  cases hz; (try unfold execLinkLossDeclare)
  (try dsimp only)
  repeat' (first | (first | assumption | with_reducible apply State.commit_pools | with_reducible apply State.declareLoss_pools | split) | dsimp only)
theorem Core.closeStreams_ok (c : Core) (p : Stream → Bool) (h0 : CoreOk c.slots c.store) :
    CoreOk (Core.closeStreams c p).slots (Core.closeStreams c p).store := by
  exact h0
theorem Die.endHolds_ok (d : Die) (di : DieId) (q : ℕ) (h0 : DieOk d.ntqPool) :
    DieOk (Die.endHolds d di q).ntqPool := by
  unfold Die.endHolds
  repeat' (first | assumption | with_reducible apply Die.setCauses_ok)
theorem execKeyGraceExpiry_pools {s : State} {z : State} (hz : execKeyGraceExpiry s = .next z) (h0 : PoolsOk s.core s.copy s.mirror.wire s.mirror.rx s.dies) :
    PoolsOk z.core z.copy z.mirror.wire z.mirror.rx z.dies := by
  cases hz; dsimp only
  repeat' (first | assumption | with_reducible apply State.modCore_pools | with_reducible apply State.commit_pools | with_reducible apply State.putStore_pools | with_reducible apply State.raiseSrc_pools | (apply State.takeRole_pools <;> assumption) | (intro _) | split)
theorem execGateCycleStart_pools {p : PortId} {s : State} {z : State} (hz : execGateCycleStart p s = .next z) (h0 : PoolsOk s.core s.copy s.mirror.wire s.mirror.rx s.dies) :
    PoolsOk z.core z.copy z.mirror.wire z.mirror.rx z.dies := by
  cases hz; dsimp only
  repeat' (first | assumption | split)
theorem State.suspendOn_pools (s : State) (p : PortId) (h0 : PoolsOk s.core s.copy s.mirror.wire s.mirror.rx s.dies) :
    PoolsOk (State.suspendOn s p).core (State.suspendOn s p).copy (State.suspendOn s p).mirror.wire (State.suspendOn s p).mirror.rx (State.suspendOn s p).dies := by
  unfold State.suspendOn
  repeat' (first | assumption | with_reducible apply State.modCore_pools | with_reducible apply foldl_pools | with_reducible apply State.raiseNow_pools | (intro _) | split)
theorem State.resumeOn_pools (s : State) (h0 : PoolsOk s.core s.copy s.mirror.wire s.mirror.rx s.dies) :
    PoolsOk (State.resumeOn s).core (State.resumeOn s).copy (State.resumeOn s).mirror.wire (State.resumeOn s).mirror.rx (State.resumeOn s).dies := by
  unfold State.resumeOn
  repeat' (first | (first | assumption | with_reducible apply State.modCore_pools | with_reducible apply foldl_pools | (intro _) | split) | dsimp only)
theorem State.settleStreams_pools (s : State) (p : PortId) (h0 : PoolsOk s.core s.copy s.mirror.wire s.mirror.rx s.dies) :
    PoolsOk (State.settleStreams s p).core (State.settleStreams s p).copy (State.settleStreams s p).mirror.wire (State.settleStreams s p).mirror.rx (State.settleStreams s p).dies := by
  unfold State.settleStreams
  repeat' (first | assumption | with_reducible apply State.resumeOn_pools | with_reducible apply State.suspendOn_pools)
theorem State.endSession_pools (s : State) (i : Fin 8) (lost : Bool) (h0 : PoolsOk s.core s.copy s.mirror.wire s.mirror.rx s.dies) :
    PoolsOk (State.endSession s i lost).core (State.endSession s i lost).copy (State.endSession s i lost).mirror.wire (State.endSession s i lost).mirror.rx (State.endSession s i lost).dies := by
  unfold State.endSession
  repeat' (first | assumption | with_reducible apply Core.closeStreams_ok | with_reducible apply Die.endHolds_ok | with_reducible apply State.clearHold_pools | with_reducible apply State.modCore_pools | with_reducible apply State.raiseNow_pools | with_reducible apply State.resumeOn_pools | with_reducible apply State.sendTo_pools | with_reducible apply State.modDie_pools | with_reducible apply State.modCore_pools | with_reducible apply State.modHub_pools | with_reducible apply foldl_pools | with_reducible apply Die.fold_ok | with_reducible apply Core.fold_ok | with_reducible apply Die.modCh_ok | with_reducible apply PoolsOk.map | with_reducible apply PoolsOk.vmap | (intro) | split | dsimp only)
theorem State.dropSessions_pools (s : State) (h0 : PoolsOk s.core s.copy s.mirror.wire s.mirror.rx s.dies) :
    PoolsOk (State.dropSessions s).core (State.dropSessions s).copy (State.dropSessions s).mirror.wire (State.dropSessions s).mirror.rx (State.dropSessions s).dies := by
  refine State.modCore_pools ?_ fun _ h => h
  exact foldl_pools h0 fun _ _ h => State.endSession_pools _ _ _ h
theorem State.completeCopy_pools (s : State) (boot : ℕ) (keys : List (ℕ × List Byte)) (h0 : PoolsOk s.core s.copy s.mirror.wire s.mirror.rx s.dies) :
    PoolsOk (State.completeCopy s boot keys).core (State.completeCopy s boot keys).copy (State.completeCopy s boot keys).mirror.wire (State.completeCopy s boot keys).mirror.rx (State.completeCopy s boot keys).dies := by
  unfold State.completeCopy
  extract_lets t1 t2
  have h1 : PoolsOk t1.core t1.copy t1.mirror.wire t1.mirror.rx t1.dies :=
    PoolsOk.ite (State.finishMirror_pools s h0) (State.dropSessions_pools _ (State.finishMirror_pools s h0))
  exact State.copyHdrs_pools _ ⟨h1.core, h1.core, h1.wire, h1.rx, h1.dies⟩
theorem execMirrorReady_pools {s : State} {z : State} (hz : execMirrorReady s = .next z) (h0 : PoolsOk s.core s.copy s.mirror.wire s.mirror.rx s.dies) :
    PoolsOk z.core z.copy z.mirror.wire z.mirror.rx z.dies := by
  cases hz; split
  · exact State.raise_pools _ _ _ _ _ _ (State.modHub_pools (State.modHub_pools (State.modHub_pools (State.completeCopy_pools _ _ _ h0))))
  · exact h0
theorem execSessionTimeout_pools {slot : Fin 8} {s : State} {z : State} (hz : execSessionTimeout slot s = .next z) (h0 : PoolsOk s.core s.copy s.mirror.wire s.mirror.rx s.dies) :
    PoolsOk z.core z.copy z.mirror.wire z.mirror.rx z.dies := by
  cases hz; (try unfold execSessionTimeout)
  (try dsimp only)
  repeat' (first | (first | assumption | with_reducible apply State.commit_pools | with_reducible apply State.endSession_pools | split) | dsimp only)
theorem Core.paced_ok (c : Core) (n : ℕ) (octets : ℕ) (elapsed : ℕ) (h0 : CoreOk c.slots c.store) : CoreOk (Core.paced c n octets elapsed).slots (Core.paced c n octets elapsed).store := by
  exact h0
theorem execStreamBlockSend_pools {stream : Fin 64} {s : State} {z} (h : execStreamBlockSend stream s = .next z) (h0 : PoolsOk s.core s.copy s.mirror.wire s.mirror.rx s.dies) : PoolsOk z.core z.copy z.mirror.wire z.mirror.rx z.dies := by
  cases h; (try unfold execStreamBlockSend)
  (try dsimp only)
  repeat' (first | (first | assumption | with_reducible apply State.modCore_pools | with_reducible apply Core.modSess_ok | with_reducible apply Core.paced_ok | with_reducible apply Core.delivered_ok | with_reducible apply State.commit_pools | with_reducible apply State.emit_pools | with_reducible apply foldl_pools | with_reducible apply Die.fold_ok | with_reducible apply Die.modCh_ok | with_reducible apply PoolsOk.map | with_reducible apply PoolsOk.vmap | with_reducible apply Core.fold_ok | (intro) | split) | dsimp only)
theorem State.modPort_pools (s : State) (p : PortId) (f : NetPort → NetPort) (h0 : PoolsOk s.core s.copy s.mirror.wire s.mirror.rx s.dies) :
    PoolsOk (State.modPort s p f).core (State.modPort s p f).copy (State.modPort s p f).mirror.wire (State.modPort s p f).mirror.rx (State.modPort s p f).dies := by
  exact h0
theorem State.portEvent_pools (s : State) (p : PortId) (e : Ev) (v : Speed) (h0 : PoolsOk s.core s.copy s.mirror.wire s.mirror.rx s.dies) :
    PoolsOk (State.portEvent s p e v).core (State.portEvent s p e v).copy (State.portEvent s p e v).mirror.wire (State.portEvent s p e v).mirror.rx (State.portEvent s p e v).dies := by
  exact h0
theorem State.declareAll_pools (s : State) (h0 : PoolsOk s.core s.copy s.mirror.wire s.mirror.rx s.dies) :
    PoolsOk (State.declareAll s).core (State.declareAll s).copy (State.declareAll s).mirror.wire (State.declareAll s).mirror.rx (State.declareAll s).dies := by
  unfold State.declareAll
  exact foldl_pools h0 fun _ _ h => State.declareLoss_pools _ _ h
theorem execLinkDown_pools {p : PortId} {s : State} {z} (h : execLinkDown p s = .next z) (h0 : PoolsOk s.core s.copy s.mirror.wire s.mirror.rx s.dies) : PoolsOk z.core z.copy z.mirror.wire z.mirror.rx z.dies := by
  cases h; dsimp only
  split
  · have a := State.settlePackage_pools _ (State.ptpRestart_pools _ p true (State.portEvent_pools (s.modPort p fun y => { y with link := false }) p .linkDown (s.net.ports[p.val]).speed h0))
    refine State.commit_pools ?_
    split
    · exact State.declareAll_pools _ a
    · exact a
  · exact h0
theorem execLinkUp_pools {p : PortId} {v : Speed} {s : State} {z} (h : execLinkUp p v s = .next z) (h0 : PoolsOk s.core s.copy s.mirror.wire s.mirror.rx s.dies) : PoolsOk z.core z.copy z.mirror.wire z.mirror.rx z.dies := by
  cases h; (try unfold execLinkUp)
  (try dsimp only)
  repeat' (first | (first | assumption | with_reducible apply State.portEvent_pools | with_reducible apply State.modPort_pools | with_reducible apply State.settlePackage_pools | with_reducible apply State.ptpRestart_pools | with_reducible apply State.commit_pools | with_reducible apply State.settleStreams_pools | with_reducible apply foldl_pools | with_reducible apply Die.fold_ok | with_reducible apply Die.modCh_ok | with_reducible apply PoolsOk.map | with_reducible apply PoolsOk.vmap | with_reducible apply Core.fold_ok | (intro) | split) | dsimp only)
theorem execSpeedRenegotiate_pools {p : PortId} {v : Speed} {s : State} {z : State} (hz : execSpeedRenegotiate p v s = .next z) (h0 : PoolsOk s.core s.copy s.mirror.wire s.mirror.rx s.dies) :
    PoolsOk z.core z.copy z.mirror.wire z.mirror.rx z.dies := by
  cases hz; dsimp only
  repeat' (first | assumption | with_reducible apply State.commit_pools | with_reducible apply State.settlePackage_pools | with_reducible apply State.settleStreams_pools | split)
theorem execSupervisionFrameSend_pools {s : State} {z : State} (hz : execSupervisionFrameSend s = .next z) (h0 : PoolsOk s.core s.copy s.mirror.wire s.mirror.rx s.dies) :
    PoolsOk z.core z.copy z.mirror.wire z.mirror.rx z.dies := by
  cases hz; dsimp only
  repeat' (first | assumption | split)
theorem execDuplicateEntryExpiry_pools {s : State} {z : State} (hz : execDuplicateEntryExpiry s = .next z) (h0 : PoolsOk s.core s.copy s.mirror.wire s.mirror.rx s.dies) :
    PoolsOk z.core z.copy z.mirror.wire z.mirror.rx z.dies := by
  cases hz; exact h0
theorem State.configure_pools {s : State} {ch : Chan} {i : ChanImg} {set : ℕ} {z : State × Tick} (hz : State.configure s ch i set = .ok z) (h0 : PoolsOk s.core s.copy s.mirror.wire s.mirror.rx s.dies) :
    PoolsOk z.1.core z.1.copy z.1.mirror.wire z.1.mirror.rx z.1.dies := by
  unfold State.configure at hz; (try dsimp only at hz); repeat' split at hz
  all_goals (try cases hz)
  all_goals repeat' (first | (first | assumption | (apply State.ledgerAdmit_pools; assumption) | with_reducible apply State.settlePools_pools | with_reducible apply State.queueConfig_pools) | dsimp only)
theorem State.configWrite_pools (s : State) (p : Path) (ch : Chan) (off : ℕ) (i : ChanImg) (set : ℕ) (h0 : PoolsOk s.core s.copy s.mirror.wire s.mirror.rx s.dies) :
    PoolsOk (State.configWrite s p ch off i set).core (State.configWrite s p ch off i set).copy (State.configWrite s p ch off i set).mirror.wire (State.configWrite s p ch off i set).mirror.rx (State.configWrite s p ch off i set).dies := by
  unfold State.configWrite
  repeat' (first | assumption | (apply State.configure_pools; assumption) | with_reducible apply State.rejectAt_pools | split)
theorem State.putNow_pools (s : State) (ch : Chan) (f : ChanImg → ChanImg) (h0 : PoolsOk s.core s.copy s.mirror.wire s.mirror.rx s.dies) :
    PoolsOk (State.putNow s ch f).core (State.putNow s ch f).copy (State.putNow s ch f).mirror.wire (State.putNow s ch f).mirror.rx (State.putNow s ch f).dies := by
  unfold State.putNow
  repeat' (first | assumption | with_reducible apply State.modCh_pools)
theorem State.putLater_pools (s : State) (ch : Chan) (l : List (ℕ × Word)) (h0 : PoolsOk s.core s.copy s.mirror.wire s.mirror.rx s.dies) :
    PoolsOk (State.putLater s ch l).core (State.putLater s ch l).copy (State.putLater s ch l).mirror.wire (State.putLater s ch l).mirror.rx (State.putLater s ch l).dies := by
  unfold State.putLater
  repeat' (first | assumption | with_reducible apply State.modCh_pools)
theorem State.filterPut_pools (s : State) (p : Path) (ch : Chan) (off : ℕ) (w : Word) (new : ChanImg) (h0 : PoolsOk s.core s.copy s.mirror.wire s.mirror.rx s.dies) :
    PoolsOk (State.filterPut s p ch off w new).core (State.filterPut s p ch off w new).copy (State.filterPut s p ch off w new).mirror.wire (State.filterPut s p ch off w new).mirror.rx (State.filterPut s p ch off w new).dies := by
  unfold State.filterPut
  repeat' (first | assumption | with_reducible apply State.rejectAt_pools | with_reducible apply State.putLater_pools | split)
theorem State.filterWrite_pools (s : State) (p : Path) (ch : Chan) (off : ℕ) (w : Word) (h0 : PoolsOk s.core s.copy s.mirror.wire s.mirror.rx s.dies) :
    PoolsOk (State.filterWrite s p ch off w).core (State.filterWrite s p ch off w).copy (State.filterWrite s p ch off w).mirror.wire (State.filterWrite s p ch off w).mirror.rx (State.filterWrite s p ch off w).dies := by
  unfold State.filterWrite
  repeat' (first | (first | assumption | with_reducible apply State.modCh_pools | with_reducible apply State.configWrite_pools | with_reducible apply State.filterPut_pools | with_reducible apply State.putNow_pools | split) | dsimp only)
theorem State.admitWrite_pools (s : State) (p : Path) (pg : PageRef) (off : ℕ) (items : List PlanItem) (cls : ℕ) (d : DieId) (f : State → State) (hf : ∀ x, PoolsOk x.core x.copy x.mirror.wire x.mirror.rx x.dies → PoolsOk (f x).core (f x).copy (f x).mirror.wire (f x).mirror.rx (f x).dies) (h0 : PoolsOk s.core s.copy s.mirror.wire s.mirror.rx s.dies) :
    PoolsOk (State.admitWrite s p pg off items cls d f).core (State.admitWrite s p pg off items cls d f).copy (State.admitWrite s p pg off items cls d f).mirror.wire (State.admitWrite s p pg off items cls d f).mirror.rx (State.admitWrite s p pg off items cls d f).dies := by
  unfold State.admitWrite
  split
  · next e => exact State.settlePools_pools _ _ (hf _ (State.ledgerAdmit_pools e h0))
  · exact State.rejectAt_pools _ _ _ _ _ h0
theorem State.outCfgWrite_pools (s : State) (p : Path) (ch : Chan) (w : Word) (h0 : PoolsOk s.core s.copy s.mirror.wire s.mirror.rx s.dies) :
    PoolsOk (State.outCfgWrite s p ch w).core (State.outCfgWrite s p ch w).copy (State.outCfgWrite s p ch w).mirror.wire (State.outCfgWrite s p ch w).mirror.rx (State.outCfgWrite s p ch w).dies := by
  unfold State.outCfgWrite
  repeat' (first | (first | assumption | with_reducible apply State.configWrite_pools | with_reducible apply State.admitWrite_pools | with_reducible apply State.putLater_pools | (intro _) | split) | dsimp only)
theorem State.declWriteCh_pools (s : State) (p : Path) (d : DieId) (c : ChanId) (w : Word) (h0 : PoolsOk s.core s.copy s.mirror.wire s.mirror.rx s.dies) :
    PoolsOk (State.declWriteCh s p d c w).core (State.declWriteCh s p d c w).copy (State.declWriteCh s p d c w).mirror.wire (State.declWriteCh s p d c w).mirror.rx (State.declWriteCh s p d c w).dies := by
  unfold State.declWriteCh
  repeat' (first | assumption | with_reducible apply State.admitWrite_pools | with_reducible apply State.putLater_pools | (intro _))
theorem State.lpDeclWrite_pools (s : State) (p : Path) (d : DieId) (w : Word) (h0 : PoolsOk s.core s.copy s.mirror.wire s.mirror.rx s.dies) :
    PoolsOk (State.lpDeclWrite s p d w).core (State.lpDeclWrite s p d w).copy (State.lpDeclWrite s p d w).mirror.wire (State.lpDeclWrite s p d w).mirror.rx (State.lpDeclWrite s p d w).dies := by
  refine PoolsOk.ite ?_ h0
  refine PoolsOk.ite ?_ (State.rejectAt_pools _ _ _ _ _ h0)
  exact State.admitWrite_pools _ _ _ _ _ _ _ _ (fun x h => State.modDie_pools h fun _ h => h) h0
theorem State.chanOp_pools (s : State) (p : Path) (ch : Chan) (off : ℕ) (w : Word) (h0 : PoolsOk s.core s.copy s.mirror.wire s.mirror.rx s.dies) :
    PoolsOk (State.chanOp s p ch off w).core (State.chanOp s p ch off w).copy (State.chanOp s p ch off w).mirror.wire (State.chanOp s p ch off w).mirror.rx (State.chanOp s p ch off w).dies := by
  unfold State.chanOp
  repeat' (first | assumption | with_reducible apply Die.modCh_ok | with_reducible apply Die.reSafe_ok | with_reducible apply State.configWrite_pools | with_reducible apply State.filterWrite_pools | with_reducible apply State.modCh_pools | with_reducible apply State.modCore_pools | with_reducible apply State.modDie_pools | with_reducible apply State.outCfgWrite_pools | with_reducible apply State.putLater_pools | with_reducible apply State.putNow_pools | with_reducible apply State.modDie_pools | with_reducible apply State.modCore_pools | with_reducible apply State.modHub_pools | with_reducible apply foldl_pools | with_reducible apply Die.fold_ok | with_reducible apply Core.fold_ok | with_reducible apply Die.modCh_ok | with_reducible apply PoolsOk.map | with_reducible apply PoolsOk.vmap | (intro) | split | dsimp only)
theorem State.policyPut_pools (s : State) (x1 : PolicyScope) (x2 : Fin 3) (x3 : Policy) (h0 : PoolsOk s.core s.copy s.mirror.wire s.mirror.rx s.dies) :
    PoolsOk (State.policyPut s x1 x2 x3).2.core (State.policyPut s x1 x2 x3).2.copy (State.policyPut s x1 x2 x3).2.mirror.wire (State.policyPut s x1 x2 x3).2.mirror.rx (State.policyPut s x1 x2 x3).2.dies := by
  unfold State.policyPut
  repeat' (first | (first | assumption | with_reducible apply State.modCore_pools | with_reducible apply State.modDie_pools | (intro _) | split) | dsimp only)
theorem State.policyRegWrite_pools (s : State) (p : Path) (pg : PageRef) (off : ℕ) (sc : PolicyScope) (k : Fin 3) (w : Word) (h0 : PoolsOk s.core s.copy s.mirror.wire s.mirror.rx s.dies) :
    PoolsOk (State.policyRegWrite s p pg off sc k w).core (State.policyRegWrite s p pg off sc k w).copy (State.policyRegWrite s p pg off sc k w).mirror.wire (State.policyRegWrite s p pg off sc k w).mirror.rx (State.policyRegWrite s p pg off sc k w).dies := by
  unfold State.policyRegWrite
  repeat' (first | (first | assumption | with_reducible apply State.policyPut_pools | with_reducible apply State.rejectAt_pools | split) | dsimp only)
theorem State.modAux_pools (s : State) (d : DieId) (f : Aux → Aux) (h0 : PoolsOk s.core s.copy s.mirror.wire s.mirror.rx s.dies) :
    PoolsOk (State.modAux s d f).core (State.modAux s d f).copy (State.modAux s d f).mirror.wire (State.modAux s d f).mirror.rx (State.modAux s d f).dies := by
  unfold State.modAux
  repeat' (first | assumption | with_reducible apply State.modDie_pools | (intro _))
theorem State.auxOp_pools (s : State) (d : DieId) (off : ℕ) (w : Word) (h0 : PoolsOk s.core s.copy s.mirror.wire s.mirror.rx s.dies) :
    PoolsOk (State.auxOp s d off w).core (State.auxOp s d off w).copy (State.auxOp s d off w).mirror.wire (State.auxOp s d off w).mirror.rx (State.auxOp s d off w).dies := by
  unfold State.auxOp
  repeat' (first | (first | assumption | with_reducible apply State.modAux_pools | split) | dsimp only)
theorem State.dieOp_pools (s : State) (p : Path) (d : DieId) (r : Fin 23) (off : ℕ) (w : Word) (h0 : PoolsOk s.core s.copy s.mirror.wire s.mirror.rx s.dies) :
    PoolsOk (State.dieOp s p d r off w).core (State.dieOp s p d r off w).copy (State.dieOp s p d r off w).mirror.wire (State.dieOp s p d r off w).mirror.rx (State.dieOp s p d r off w).dies := by
  unfold State.dieOp
  repeat' (first | assumption | with_reducible apply State.auxOp_pools | with_reducible apply State.declWriteCh_pools | with_reducible apply State.lpDeclWrite_pools | with_reducible apply State.modDie_pools | with_reducible apply State.policyRegWrite_pools | with_reducible apply State.rejectAt_pools | with_reducible apply State.modDie_pools | with_reducible apply State.modCore_pools | with_reducible apply State.modHub_pools | with_reducible apply foldl_pools | with_reducible apply Die.fold_ok | with_reducible apply Core.fold_ok | with_reducible apply Die.modCh_ok | with_reducible apply PoolsOk.map | with_reducible apply PoolsOk.vmap | (intro) | split | dsimp only)
theorem State.restartPtp_pools (s : State) (h0 : PoolsOk s.core s.copy s.mirror.wire s.mirror.rx s.dies) : PoolsOk (State.restartPtp s).core (State.restartPtp s).copy (State.restartPtp s).mirror.wire (State.restartPtp s).mirror.rx (State.restartPtp s).dies := by
  unfold State.restartPtp
  repeat' (first | assumption | with_reducible apply State.ptpRestart_pools)
theorem State.timeCtrl_pools (s : State) (w : Word) (h0 : PoolsOk s.core s.copy s.mirror.wire s.mirror.rx s.dies) :
    PoolsOk (State.timeCtrl s w).core (State.timeCtrl s w).copy (State.timeCtrl s w).mirror.wire (State.timeCtrl s w).mirror.rx (State.timeCtrl s w).dies := by
  unfold State.timeCtrl
  repeat' (first | (first | assumption | with_reducible apply State.modCore_pools | with_reducible apply State.writeAccept_pools | with_reducible apply State.noteMix_pools | with_reducible apply State.restartPtp_pools | (intro _) | split) | dsimp only)
theorem State.ptpCfg_pools (s : State) (port : PortId) (w : Word) (h0 : PoolsOk s.core s.copy s.mirror.wire s.mirror.rx s.dies) : PoolsOk (State.ptpCfg s port w).core (State.ptpCfg s port w).copy (State.ptpCfg s port w).mirror.wire (State.ptpCfg s port w).mirror.rx (State.ptpCfg s port w).dies := by
  unfold State.ptpCfg
  repeat' (first | (first | assumption | with_reducible apply State.modCore_pools | with_reducible apply State.ptpRestart_pools | (intro _) | split) | dsimp only)
theorem State.timeOp_pools (s : State) (off : ℕ) (w : Word) (h0 : PoolsOk s.core s.copy s.mirror.wire s.mirror.rx s.dies) :
    PoolsOk (State.timeOp s off w).core (State.timeOp s off w).copy (State.timeOp s off w).mirror.wire (State.timeOp s off w).mirror.rx (State.timeOp s off w).dies := by
  unfold State.timeOp
  repeat' (first | (first | assumption | with_reducible apply State.modCore_pools | with_reducible apply State.timeCtrl_pools | with_reducible apply State.ptpCfg_pools | (intro _) | split) | dsimp only)
theorem State.schedOp_pools (s : State) (off : ℕ) (w : Word) (h0 : PoolsOk s.core s.copy s.mirror.wire s.mirror.rx s.dies) :
    PoolsOk (State.schedOp s off w).core (State.schedOp s off w).copy (State.schedOp s off w).mirror.wire (State.schedOp s off w).mirror.rx (State.schedOp s off w).dies := by
  unfold State.schedOp
  repeat' (first | (first | assumption | with_reducible apply State.modCore_pools | (intro _) | split) | dsimp only)
theorem State.ledgerOp_pools (s : State) (p : Path) (h : HubId) (off : ℕ) (w : Word) (h0 : PoolsOk s.core s.copy s.mirror.wire s.mirror.rx s.dies) :
    PoolsOk (State.ledgerOp s p h off w).core (State.ledgerOp s p h off w).copy (State.ledgerOp s p h off w).mirror.wire (State.ledgerOp s p h off w).mirror.rx (State.ledgerOp s p h off w).dies := by
  unfold State.ledgerOp
  repeat' (first | assumption | with_reducible apply State.modCore_pools | with_reducible apply State.policyRegWrite_pools | (intro _) | split)
theorem State.pwrOp_pools (s : State) (off : ℕ) (w : Word) (h0 : PoolsOk s.core s.copy s.mirror.wire s.mirror.rx s.dies) :
    PoolsOk (State.pwrOp s off w).core (State.pwrOp s off w).copy (State.pwrOp s off w).mirror.wire (State.pwrOp s off w).mirror.rx (State.pwrOp s off w).dies := by
  unfold State.pwrOp
  dsimp only
  split
  · exact State.pwrRequest_pools s w h0
  all_goals first | exact h0 | exact State.modCore_pools h0 fun _ h => h
theorem State.netFreq_pools (s : State) (w : Word) (h0 : PoolsOk s.core s.copy s.mirror.wire s.mirror.rx s.dies) : PoolsOk (State.netFreq s w).core (State.netFreq s w).copy (State.netFreq s w).mirror.wire (State.netFreq s w).mirror.rx (State.netFreq s w).dies := by
  unfold State.netFreq
  repeat' (first | (first | assumption | with_reducible apply State.modCore_pools | with_reducible apply State.mainsMeasure_pools | (intro _) | split) | dsimp only)
theorem State.mainsOp_pools (s : State) (off : ℕ) (w : Word) (h0 : PoolsOk s.core s.copy s.mirror.wire s.mirror.rx s.dies) :
    PoolsOk (State.mainsOp s off w).core (State.mainsOp s off w).copy (State.mainsOp s off w).mirror.wire (State.mainsOp s off w).mirror.rx (State.mainsOp s off w).dies := by
  unfold State.mainsOp
  repeat' (first | assumption | with_reducible apply State.modCore_pools | with_reducible apply State.netFreq_pools | (intro _) | split)
theorem State.clearHigh_pools (s : State) (x1 : AxisId) (h0 : PoolsOk s.core s.copy s.mirror.wire s.mirror.rx s.dies) :
    PoolsOk (State.clearHigh s x1).core (State.clearHigh s x1).copy (State.clearHigh s x1).mirror.wire (State.clearHigh s x1).mirror.rx (State.clearHigh s x1).dies := by
  exact State.overLanes_pools _ _ (fun _ _ h => h) h0
theorem State.axisWrite_pools (s : State) (a : AxisId) (r : AxisReg) (w : Word) (h0 : PoolsOk s.core s.copy s.mirror.wire s.mirror.rx s.dies) : PoolsOk (State.axisWrite s a r w).core (State.axisWrite s a r w).copy (State.axisWrite s a r w).mirror.wire (State.axisWrite s a r w).mirror.rx (State.axisWrite s a r w).dies := by
  unfold State.axisWrite
  repeat' (first | (first | assumption | with_reducible apply State.clearHigh_pools | with_reducible apply State.modCore_pools | with_reducible apply Core.modAxis_ok | with_reducible apply foldl_pools | with_reducible apply Die.fold_ok | with_reducible apply Die.modCh_ok | with_reducible apply PoolsOk.map | with_reducible apply PoolsOk.vmap | with_reducible apply Core.fold_ok | (intro) | split) | dsimp only)
theorem State.axisOp_pools (s : State) (off : ℕ) (w : Word) (h0 : PoolsOk s.core s.copy s.mirror.wire s.mirror.rx s.dies) :
    PoolsOk (State.axisOp s off w).core (State.axisOp s off w).copy (State.axisOp s off w).mirror.wire (State.axisOp s off w).mirror.rx (State.axisOp s off w).dies := by
  unfold State.axisOp
  repeat' (first | assumption | with_reducible apply State.modCore_pools | with_reducible apply State.axisWrite_pools | with_reducible apply Core.modAxis_ok | (intro _) | split)
theorem State.modPortRegs_pools (s : State) (port : PortId) (f : PortRegs → PortRegs) (h0 : PoolsOk s.core s.copy s.mirror.wire s.mirror.rx s.dies) :
    PoolsOk (State.modPortRegs s port f).core (State.modPortRegs s port f).copy (State.modPortRegs s port f).mirror.wire (State.modPortRegs s port f).mirror.rx (State.modPortRegs s port f).dies := by
  unfold State.modPortRegs
  repeat' (first | assumption | with_reducible apply State.modCore_pools | (intro _))
theorem State.portCtrl_pools (s : State) (port : PortId) (w : Word) (h0 : PoolsOk s.core s.copy s.mirror.wire s.mirror.rx s.dies) : PoolsOk (State.portCtrl s port w).core (State.portCtrl s port w).copy (State.portCtrl s port w).mirror.wire (State.portCtrl s port w).mirror.rx (State.portCtrl s port w).dies := by
  unfold State.portCtrl
  repeat' (first | assumption | with_reducible apply State.modPortRegs_pools | with_reducible apply State.ptpRestart_pools | split)
theorem State.keyCommit_pools (s : State) (p : Path) (w : Word) (h0 : PoolsOk s.core s.copy s.mirror.wire s.mirror.rx s.dies) :
    PoolsOk (State.keyCommit s p w).core (State.keyCommit s p w).copy (State.keyCommit s p w).mirror.wire (State.keyCommit s p w).mirror.rx (State.keyCommit s p w).dies := by
  unfold State.keyCommit
  repeat' (first | (first | assumption | (apply State.takeRole_pools; assumption) | with_reducible apply State.modCore_pools | with_reducible apply State.putStore_pools | (intro _) | split) | dsimp only)
theorem State.netOp_pools (s : State) (p : Path) (off : ℕ) (w : Word) (h0 : PoolsOk s.core s.copy s.mirror.wire s.mirror.rx s.dies) :
    PoolsOk (State.netOp s p off w).core (State.netOp s p off w).copy (State.netOp s p off w).mirror.wire (State.netOp s p off w).mirror.rx (State.netOp s p off w).dies := by
  unfold State.netOp
  repeat' (first | assumption | with_reducible apply State.modCore_pools | with_reducible apply State.portCtrl_pools | with_reducible apply State.keyCommit_pools | with_reducible apply State.modPortRegs_pools | (intro _) | split)
theorem State.hubOp_pools (s : State) (p : Path) (h : HubId) (r : Fin 12) (off : ℕ) (w : Word) (h0 : PoolsOk s.core s.copy s.mirror.wire s.mirror.rx s.dies) :
    PoolsOk (State.hubOp s p h r off w).core (State.hubOp s p h r off w).copy (State.hubOp s p h r off w).mirror.wire (State.hubOp s p h r off w).mirror.rx (State.hubOp s p h r off w).dies := by
  unfold State.hubOp
  repeat' (first | assumption | with_reducible apply State.modCore_pools | with_reducible apply State.timeOp_pools | with_reducible apply State.schedOp_pools | with_reducible apply State.ledgerOp_pools | with_reducible apply State.pwrOp_pools | with_reducible apply State.tsoldCtrlWrite_pools | with_reducible apply State.tsoldPeriodWrite_pools | with_reducible apply State.serve_pools | with_reducible apply State.mainsOp_pools | with_reducible apply State.axisOp_pools | with_reducible apply State.netOp_pools | (intro _) | split)
theorem State.regPut_pools (s : State) (p : Path) (pg : PageRef) (off : ℕ) (w : Word) (h0 : PoolsOk s.core s.copy s.mirror.wire s.mirror.rx s.dies) :
    PoolsOk (State.regPut s p pg off w).core (State.regPut s p pg off w).copy (State.regPut s p pg off w).mirror.wire (State.regPut s p pg off w).mirror.rx (State.regPut s p pg off w).dies := by
  unfold State.regPut
  repeat' (first | with_reducible apply State.shadowUnit_pools | assumption | with_reducible apply State.hdrWrite_pools | with_reducible apply State.hubOp_pools | with_reducible apply State.chanOp_pools | with_reducible apply State.dieOp_pools | split)
theorem State.regOp_pools (s : State) (p : Path) (pg : PageRef) (off : ℕ) (w : Word) (h0 : PoolsOk s.core s.copy s.mirror.wire s.mirror.rx s.dies) :
    PoolsOk (State.regOp s p pg off w).core (State.regOp s p pg off w).copy (State.regOp s p pg off w).mirror.wire (State.regOp s p pg off w).mirror.rx (State.regOp s p pg off w).dies := by
  unfold State.regOp
  repeat' (first | assumption | with_reducible apply State.shadowUnit_pools | with_reducible apply State.regPut_pools | split)
theorem State.writeReg_pools (s : State) (p : Path) (pg : PageRef) (off : ℕ) (w : Word) (h0 : PoolsOk s.core s.copy s.mirror.wire s.mirror.rx s.dies) :
    PoolsOk (State.writeReg s p pg off w).core (State.writeReg s p pg off w).copy (State.writeReg s p pg off w).mirror.wire (State.writeReg s p pg off w).mirror.rx (State.writeReg s p pg off w).dies := by
  unfold State.writeReg
  repeat' (first | assumption | with_reducible apply State.accessed_pools | with_reducible apply State.regOp_pools | (intro _))
theorem State.writeAddr_pools (s : State) (p : Path) (addr : ℕ) (w : Word) (h0 : PoolsOk s.core s.copy s.mirror.wire s.mirror.rx s.dies) :
    PoolsOk (State.writeAddr s p addr w).core (State.writeAddr s p addr w).copy (State.writeAddr s p addr w).mirror.wire (State.writeAddr s p addr w).mirror.rx (State.writeAddr s p addr w).dies := by
  unfold State.writeAddr
  repeat' (first | (first | assumption | with_reducible apply State.writeReg_pools | split) | dsimp only)
theorem State.writePage_pools (s : State) (p : Path) (page : ℕ) (off : ℕ) (w : Word) (h0 : PoolsOk s.core s.copy s.mirror.wire s.mirror.rx s.dies) :
    PoolsOk (State.writePage s p page off w).core (State.writePage s p page off w).copy (State.writePage s p page off w).mirror.wire (State.writePage s p page off w).mirror.rx (State.writePage s p page off w).dies := by
  unfold State.writePage
  repeat' (first | assumption | with_reducible apply State.writeAddr_pools)
theorem execRegisterWrite_pools {p : Path} {addr : Word} {w : Word} {s : State} {z : State} (hz : execRegisterWrite p addr w s = .next z) (h0 : PoolsOk s.core s.copy s.mirror.wire s.mirror.rx s.dies) :
    PoolsOk z.core z.copy z.mirror.wire z.mirror.rx z.dies := by
  cases hz; (try unfold execRegisterWrite)
  (try dsimp only)
  repeat' (first | (first | assumption | with_reducible apply State.writeAddr_pools) | dsimp only)
theorem execChCfgWrite_pools {p : Path} {ch : Chan} {w : Word} {s : State} {z : State} (hz : execChCfgWrite p ch w s = .next z) (h0 : PoolsOk s.core s.copy s.mirror.wire s.mirror.rx s.dies) :
    PoolsOk z.core z.copy z.mirror.wire z.mirror.rx z.dies := by
  cases hz; (try unfold execChCfgWrite)
  (try dsimp only)
  repeat' (first | (first | assumption | with_reducible apply State.writeReg_pools) | dsimp only)
theorem execConvCfgWrite_pools {p : Path} {ch : Chan} {w : Word} {s : State} {z : State} (hz : execConvCfgWrite p ch w s = .next z) (h0 : PoolsOk s.core s.copy s.mirror.wire s.mirror.rx s.dies) :
    PoolsOk z.core z.copy z.mirror.wire z.mirror.rx z.dies := by
  cases hz; (try unfold execConvCfgWrite)
  (try dsimp only)
  repeat' (first | (first | assumption | with_reducible apply State.writeReg_pools) | dsimp only)
theorem execSafeReq_pools {p : Path} {ch : Chan} {w : Word} {s : State} {z : State} (hz : execSafeReq p ch w s = .next z) (h0 : PoolsOk s.core s.copy s.mirror.wire s.mirror.rx s.dies) :
    PoolsOk z.core z.copy z.mirror.wire z.mirror.rx z.dies := by
  cases hz; (try unfold execSafeReq)
  (try dsimp only)
  repeat' (first | (first | assumption | with_reducible apply State.writeReg_pools) | dsimp only)
theorem execPageLock_pools {p : Path} {page : ℕ} {s : State} {z : State} (hz : execPageLock p page s = .next z) (h0 : PoolsOk s.core s.copy s.mirror.wire s.mirror.rx s.dies) :
    PoolsOk z.core z.copy z.mirror.wire z.mirror.rx z.dies := by
  cases hz; (try unfold execPageLock)
  (try dsimp only)
  repeat' (first | (first | assumption | with_reducible apply State.writePage_pools) | dsimp only)
theorem execPageUnlock_pools {p : Path} {page : ℕ} {s : State} {z : State} (hz : execPageUnlock p page s = .next z) (h0 : PoolsOk s.core s.copy s.mirror.wire s.mirror.rx s.dies) :
    PoolsOk z.core z.copy z.mirror.wire z.mirror.rx z.dies := by
  cases hz; (try unfold execPageUnlock)
  (try dsimp only)
  repeat' (first | (first | assumption | with_reducible apply State.writePage_pools) | dsimp only)
theorem execEvClearWrite_pools {p : Path} {page : ℕ} {w : Word} {s : State} {z : State} (hz : execEvClearWrite p page w s = .next z) (h0 : PoolsOk s.core s.copy s.mirror.wire s.mirror.rx s.dies) :
    PoolsOk z.core z.copy z.mirror.wire z.mirror.rx z.dies := by
  cases hz; (try unfold execEvClearWrite)
  (try dsimp only)
  repeat' (first | (first | assumption | with_reducible apply State.writePage_pools) | dsimp only)
theorem execBlockReset_pools {p : Path} {page : ℕ} {w : Word} {s : State} {z : State} (hz : execBlockReset p page w s = .next z) (h0 : PoolsOk s.core s.copy s.mirror.wire s.mirror.rx s.dies) :
    PoolsOk z.core z.copy z.mirror.wire z.mirror.rx z.dies := by
  cases hz; (try unfold execBlockReset)
  (try dsimp only)
  repeat' (first | (first | assumption | with_reducible apply State.writePage_pools) | dsimp only)
theorem execFreezeWrite_pools {p : Path} {page : ℕ} {w : Word} {s : State} {z : State} (hz : execFreezeWrite p page w s = .next z) (h0 : PoolsOk s.core s.copy s.mirror.wire s.mirror.rx s.dies) :
    PoolsOk z.core z.copy z.mirror.wire z.mirror.rx z.dies := by
  cases hz; (try unfold execFreezeWrite)
  (try dsimp only)
  repeat' (first | (first | assumption | with_reducible apply State.writePage_pools) | dsimp only)
theorem execCntPresetWrite_pools {p : Path} {ch : Chan} {w : Word} {s : State} {z : State} (hz : execCntPresetWrite p ch w s = .next z) (h0 : PoolsOk s.core s.copy s.mirror.wire s.mirror.rx s.dies) :
    PoolsOk z.core z.copy z.mirror.wire z.mirror.rx z.dies := by
  cases hz; (try unfold execCntPresetWrite)
  (try dsimp only)
  repeat' (first | (first | assumption | with_reducible apply State.writeReg_pools) | dsimp only)
theorem execKeyCommitWrite_pools {p : Path} {h : HubId} {w : Word} {s : State} {z : State} (hz : execKeyCommitWrite p h w s = .next z) (h0 : PoolsOk s.core s.copy s.mirror.wire s.mirror.rx s.dies) :
    PoolsOk z.core z.copy z.mirror.wire z.mirror.rx z.dies := by
  cases hz; (try unfold execKeyCommitWrite)
  (try dsimp only)
  repeat' (first | (first | assumption | with_reducible apply State.writeReg_pools) | dsimp only)
theorem execNetFreqWrite_pools {p : Path} {h : HubId} {w : Word} {s : State} {z : State} (hz : execNetFreqWrite p h w s = .next z) (h0 : PoolsOk s.core s.copy s.mirror.wire s.mirror.rx s.dies) :
    PoolsOk z.core z.copy z.mirror.wire z.mirror.rx z.dies := by
  cases hz; (try unfold execNetFreqWrite)
  (try dsimp only)
  repeat' (first | (first | assumption | with_reducible apply State.writeReg_pools) | dsimp only)
theorem execMainsCtrlWrite_pools {p : Path} {h : HubId} {w : Word} {s : State} {z : State} (hz : execMainsCtrlWrite p h w s = .next z) (h0 : PoolsOk s.core s.copy s.mirror.wire s.mirror.rx s.dies) :
    PoolsOk z.core z.copy z.mirror.wire z.mirror.rx z.dies := by
  cases hz; (try unfold execMainsCtrlWrite)
  (try dsimp only)
  repeat' (first | (first | assumption | with_reducible apply State.writeReg_pools) | dsimp only)
theorem execFilterRegisterWrite_pools {p : Path} {ch : Chan} {r : FiltReg} {w : Word} {s : State} {z : State} (hz : execFilterRegisterWrite p ch r w s = .next z) (h0 : PoolsOk s.core s.copy s.mirror.wire s.mirror.rx s.dies) :
    PoolsOk z.core z.copy z.mirror.wire z.mirror.rx z.dies := by
  cases hz; (try unfold execFilterRegisterWrite)
  (try dsimp only)
  repeat' (first | (first | assumption | with_reducible apply State.writeReg_pools) | dsimp only)
theorem execDinCfgWrite_pools {p : Path} {ch : Chan} {w : Word} {s : State} {z : State} (hz : execDinCfgWrite p ch w s = .next z) (h0 : PoolsOk s.core s.copy s.mirror.wire s.mirror.rx s.dies) :
    PoolsOk z.core z.copy z.mirror.wire z.mirror.rx z.dies := by
  cases hz; (try unfold execDinCfgWrite)
  (try dsimp only)
  repeat' (first | (first | assumption | with_reducible apply State.writeReg_pools) | dsimp only)
theorem execOutCfgWrite_pools {p : Path} {ch : Chan} {w : Word} {s : State} {z : State} (hz : execOutCfgWrite p ch w s = .next z) (h0 : PoolsOk s.core s.copy s.mirror.wire s.mirror.rx s.dies) :
    PoolsOk z.core z.copy z.mirror.wire z.mirror.rx z.dies := by
  cases hz; (try unfold execOutCfgWrite)
  (try dsimp only)
  repeat' (first | (first | assumption | with_reducible apply State.writeReg_pools) | dsimp only)
theorem execParWrite_pools {p : Path} {ch : Chan} {w : Word} {s : State} {z : State} (hz : execParWrite p ch w s = .next z) (h0 : PoolsOk s.core s.copy s.mirror.wire s.mirror.rx s.dies) :
    PoolsOk z.core z.copy z.mirror.wire z.mirror.rx z.dies := by
  cases hz; (try unfold execParWrite)
  (try dsimp only)
  repeat' (first | (first | assumption | with_reducible apply State.writeReg_pools) | dsimp only)
theorem execAuxShadowWrite_pools {p : Path} {d : DieId} {r : AuxReg} {w : Word} {s : State} {z : State} (hz : execAuxShadowWrite p d r w s = .next z) (h0 : PoolsOk s.core s.copy s.mirror.wire s.mirror.rx s.dies) :
    PoolsOk z.core z.copy z.mirror.wire z.mirror.rx z.dies := by
  cases hz; (try unfold execAuxShadowWrite)
  (try dsimp only)
  repeat' (first | (first | assumption | with_reducible apply State.writeReg_pools) | dsimp only)
theorem execRefSelWrite_pools {p : Path} {d : DieId} {w : Word} {s : State} {z : State} (hz : execRefSelWrite p d w s = .next z) (h0 : PoolsOk s.core s.copy s.mirror.wire s.mirror.rx s.dies) :
    PoolsOk z.core z.copy z.mirror.wire z.mirror.rx z.dies := by
  cases hz; (try unfold execRefSelWrite)
  (try dsimp only)
  repeat' (first | (first | assumption | with_reducible apply State.writeReg_pools) | dsimp only)
theorem execAxisCfgWrite_pools {p : Path} {h : HubId} {x1 : AxisId} {r : AxisReg} {w : Word} {s : State} {z : State} (hz : execAxisCfgWrite p h x1 r w s = .next z) (h0 : PoolsOk s.core s.copy s.mirror.wire s.mirror.rx s.dies) :
    PoolsOk z.core z.copy z.mirror.wire z.mirror.rx z.dies := by
  cases hz; (try unfold execAxisCfgWrite)
  (try dsimp only)
  repeat' (first | (first | assumption | with_reducible apply State.writeReg_pools) | dsimp only)
theorem execLedgerPtWrite_pools {p : Path} {h : HubId} {w : Word} {s : State} {z : State} (hz : execLedgerPtWrite p h w s = .next z) (h0 : PoolsOk s.core s.copy s.mirror.wire s.mirror.rx s.dies) :
    PoolsOk z.core z.copy z.mirror.wire z.mirror.rx z.dies := by
  cases hz; (try unfold execLedgerPtWrite)
  (try dsimp only)
  repeat' (first | (first | assumption | with_reducible apply State.writeReg_pools) | dsimp only)
theorem execPolicyWrite_pools {p : Path} {sc : PolicyScope} {k : Fin 3} {w : Word} {s : State} {z : State} (hz : execPolicyWrite p sc k w s = .next z) (h0 : PoolsOk s.core s.copy s.mirror.wire s.mirror.rx s.dies) :
    PoolsOk z.core z.copy z.mirror.wire z.mirror.rx z.dies := by
  cases hz; (try unfold execPolicyWrite)
  (try dsimp only)
  repeat' (first | (first | assumption | with_reducible apply State.writeReg_pools) | dsimp only)
theorem execDeclWrite_pools {p : Path} {d : DieId} {r : DeclReg} {w : Word} {s : State} {z : State} (hz : execDeclWrite p d r w s = .next z) (h0 : PoolsOk s.core s.copy s.mirror.wire s.mirror.rx s.dies) :
    PoolsOk z.core z.copy z.mirror.wire z.mirror.rx z.dies := by
  cases hz; (try unfold execDeclWrite)
  (try dsimp only)
  repeat' (first | (first | assumption | with_reducible apply State.writeReg_pools) | dsimp only)
theorem execRoleWrite_pools {p : Path} {h : HubId} {w : Word} {s : State} {z : State} (hz : execRoleWrite p h w s = .next z) (h0 : PoolsOk s.core s.copy s.mirror.wire s.mirror.rx s.dies) :
    PoolsOk z.core z.copy z.mirror.wire z.mirror.rx z.dies := by
  cases hz; (try unfold execRoleWrite)
  (try dsimp only)
  repeat' (first | (first | assumption | with_reducible apply State.writeReg_pools) | dsimp only)
theorem execPortCfgWrite_pools {p : Path} {h : HubId} {port : PortId} {w : Word} {s : State} {z : State} (hz : execPortCfgWrite p h port w s = .next z) (h0 : PoolsOk s.core s.copy s.mirror.wire s.mirror.rx s.dies) :
    PoolsOk z.core z.copy z.mirror.wire z.mirror.rx z.dies := by
  cases hz; (try unfold execPortCfgWrite)
  (try dsimp only)
  repeat' (first | (first | assumption | with_reducible apply State.writeReg_pools) | dsimp only)
theorem execAcceptWrite_pools {p : Path} {h : HubId} {w : Word} {s : State} {z : State} (hz : execAcceptWrite p h w s = .next z) (h0 : PoolsOk s.core s.copy s.mirror.wire s.mirror.rx s.dies) :
    PoolsOk z.core z.copy z.mirror.wire z.mirror.rx z.dies := by
  cases hz; (try unfold execAcceptWrite)
  (try dsimp only)
  repeat' (first | (first | assumption | with_reducible apply State.writeReg_pools) | dsimp only)
theorem execAdmitWrite_pools {p : Path} {h : HubId} {w : Word} {s : State} {z : State} (hz : execAdmitWrite p h w s = .next z) (h0 : PoolsOk s.core s.copy s.mirror.wire s.mirror.rx s.dies) :
    PoolsOk z.core z.copy z.mirror.wire z.mirror.rx z.dies := by
  cases hz; (try unfold execAdmitWrite)
  (try dsimp only)
  repeat' (first | (first | assumption | with_reducible apply State.writeReg_pools) | dsimp only)
theorem execAlarmWrite_pools {p : Path} {h : HubId} {w : Word} {s : State} {z : State} (hz : execAlarmWrite p h w s = .next z) (h0 : PoolsOk s.core s.copy s.mirror.wire s.mirror.rx s.dies) :
    PoolsOk z.core z.copy z.mirror.wire z.mirror.rx z.dies := by
  cases hz; (try unfold execAlarmWrite)
  (try dsimp only)
  repeat' (first | (first | assumption | with_reducible apply State.writeReg_pools) | dsimp only)
theorem execWakeCfgWrite_pools {p : Path} {h : HubId} {w : Word} {s : State} {z : State} (hz : execWakeCfgWrite p h w s = .next z) (h0 : PoolsOk s.core s.copy s.mirror.wire s.mirror.rx s.dies) :
    PoolsOk z.core z.copy z.mirror.wire z.mirror.rx z.dies := by
  cases hz; (try unfold execWakeCfgWrite)
  (try dsimp only)
  repeat' (first | (first | assumption | with_reducible apply State.writeReg_pools) | dsimp only)
theorem execHublossTWrite_pools {p : Path} {d : DieId} {w : Word} {s : State} {z : State} (hz : execHublossTWrite p d w s = .next z) (h0 : PoolsOk s.core s.copy s.mirror.wire s.mirror.rx s.dies) :
    PoolsOk z.core z.copy z.mirror.wire z.mirror.rx z.dies := by
  cases hz; (try unfold execHublossTWrite)
  (try dsimp only)
  repeat' (first | (first | assumption | with_reducible apply State.writeReg_pools) | dsimp only)
theorem State.dieWrite_pools (s : State) (pg : PageRef) (off : ℕ) (w : Word) (h0 : PoolsOk s.core s.copy s.mirror.wire s.mirror.rx s.dies) :
    PoolsOk (State.dieWrite s pg off w).core (State.dieWrite s pg off w).copy (State.dieWrite s pg off w).mirror.wire (State.dieWrite s pg off w).mirror.rx (State.dieWrite s pg off w).dies := by
  unfold State.dieWrite
  repeat' (first | assumption | with_reducible apply State.rejectAt_pools | with_reducible apply State.regPut_pools | split)
theorem State.dieRead_pools (s : State) (pg : PageRef) (off : ℕ) (h0 : PoolsOk s.core s.copy s.mirror.wire s.mirror.rx s.dies) :
    PoolsOk (State.dieRead s pg off).1.core (State.dieRead s pg off).1.copy (State.dieRead s pg off).1.mirror.wire (State.dieRead s pg off).1.mirror.rx (State.dieRead s pg off).1.dies := by
  unfold State.dieRead
  repeat' (first | assumption | with_reducible apply State.readReg_pools | split)
theorem Die.answer_ok (d : Die) (page : ℕ) (off : ℕ) (write : Bool) (w : Word) (h0 : DieOk d.ntqPool) :
    DieOk (Die.answer d page off write w).ntqPool := by
  exact h0
theorem State.dieAccess_pools (s : State) (d : DieId) (m : MgmtReq) (h0 : PoolsOk s.core s.copy s.mirror.wire s.mirror.rx s.dies) :
    PoolsOk (State.dieAccess s d m).core (State.dieAccess s d m).copy (State.dieAccess s d m).mirror.wire (State.dieAccess s d m).mirror.rx (State.dieAccess s d m).dies := by
  unfold State.dieAccess
  repeat' (first | assumption | with_reducible apply State.modDie_pools | with_reducible apply State.dieWrite_pools | with_reducible apply State.dieRead_pools | with_reducible apply Die.answer_ok | (intro _) | split)
theorem State.takeAccess_pools (s : State) (hh : HubId) (d : DieId) (m : MgmtReq) (h0 : PoolsOk s.core s.copy s.mirror.wire s.mirror.rx s.dies) : PoolsOk (State.takeAccess s hh d m).core (State.takeAccess s hh d m).copy (State.takeAccess s hh d m).mirror.wire (State.takeAccess s hh d m).mirror.rx (State.takeAccess s hh d m).dies := by
  unfold State.takeAccess
  repeat' (first | (first | assumption | with_reducible apply State.modDie_pools | with_reducible apply Die.foreign_ok | with_reducible apply State.dieAccess_pools | with_reducible apply foldl_pools | with_reducible apply Die.fold_ok | with_reducible apply Die.modCh_ok | with_reducible apply PoolsOk.map | with_reducible apply PoolsOk.vmap | with_reducible apply Core.fold_ok | (intro) | split) | dsimp only)
theorem execManagementRequestReceive_pools {hh : HubId} {d : DieId} {m : MgmtReq} {s : State} {z} (h : execManagementRequestReceive hh d m s = .next z) (h0 : PoolsOk s.core s.copy s.mirror.wire s.mirror.rx s.dies) : PoolsOk z.core z.copy z.mirror.wire z.mirror.rx z.dies := by
  cases h
  exact State.commit_pools (State.sendDown_pools _ _ _ _ _ _ h0 fun _ h => State.takeAccess_pools _ _ _ _ h)
theorem execManagementResponseReceive_pools {hh : HubId} {d : DieId} {s : State} {z} (h : execManagementResponseReceive hh d s = .next z) (h0 : PoolsOk s.core s.copy s.mirror.wire s.mirror.rx s.dies) : PoolsOk z.core z.copy z.mirror.wire z.mirror.rx z.dies := by
  cases h; (try unfold execManagementResponseReceive)
  (try dsimp only)
  repeat' (first | (first | assumption | with_reducible apply State.sendUp_pools | with_reducible apply State.syncShadow_pools | with_reducible apply foldl_pools | with_reducible apply Die.fold_ok | with_reducible apply Die.modCh_ok | with_reducible apply PoolsOk.map | with_reducible apply PoolsOk.vmap | with_reducible apply Core.fold_ok | (intro) | split) | dsimp only)
theorem State.bareReply_pools (s : State) (seq : ℕ) (keyId : ℕ) (x : Response) (dst : BitVec 128 × ℕ) (p : PortId) (h0 : PoolsOk s.core s.copy s.mirror.wire s.mirror.rx s.dies) :
    PoolsOk (State.bareReply s seq keyId x dst p).core (State.bareReply s seq keyId x dst p).copy (State.bareReply s seq keyId x dst p).mirror.wire (State.bareReply s seq keyId x dst p).mirror.rx (State.bareReply s seq keyId x dst p).dies := by
  exact h0
theorem State.openSpi_pools (s : State) (r : Req) (p : SessionOpenP) (h0 : PoolsOk s.core s.copy s.mirror.wire s.mirror.rx s.dies) :
    PoolsOk (State.openSpi s r p).core (State.openSpi s r p).copy (State.openSpi s r p).mirror.wire (State.openSpi s r p).mirror.rx (State.openSpi s r p).dies := by
  unfold State.openSpi
  repeat' (first | assumption | with_reducible apply State.modCore_pools | with_reducible apply State.respond_pools | (intro _) | split)
theorem State.openUdp_pools (s : State) (r : Req) (p : SessionOpenP) (h0 : PoolsOk s.core s.copy s.mirror.wire s.mirror.rx s.dies) :
    PoolsOk (State.openUdp s r p).core (State.openUdp s r p).copy (State.openUdp s r p).mirror.wire (State.openUdp s r p).mirror.rx (State.openUdp s r p).dies := by
  unfold State.openUdp
  repeat' (first | assumption | with_reducible apply State.modCore_pools | with_reducible apply State.respond_pools | (intro _) | split)
theorem execSessionOpen_pools {r : Req} {p : SessionOpenP} {s : State} {z : State} (hz : execSessionOpen r p s = .next z) (h0 : PoolsOk s.core s.copy s.mirror.wire s.mirror.rx s.dies) :
    PoolsOk z.core z.copy z.mirror.wire z.mirror.rx z.dies := by
  cases hz; (try unfold execSessionOpen)
  (try dsimp only)
  repeat' (first | (first | assumption | with_reducible apply State.commit_pools | with_reducible apply State.respond_pools | with_reducible apply State.openSpi_pools | with_reducible apply State.openUdp_pools | split) | dsimp only)
theorem State.closeSession_pools (s : State) (r : Req) (h0 : PoolsOk s.core s.copy s.mirror.wire s.mirror.rx s.dies) :
    PoolsOk (State.closeSession s r).core (State.closeSession s r).copy (State.closeSession s r).mirror.wire (State.closeSession s r).mirror.rx (State.closeSession s r).dies := by
  unfold State.closeSession
  repeat' (first | (first | assumption | with_reducible apply State.respond_pools | with_reducible apply State.endSession_pools | with_reducible apply State.hold_pools | with_reducible apply State.emit_pools | split) | dsimp only)
theorem execSessionClose_pools {r : Req} {s : State} {z : State} (hz : execSessionClose r s = .next z) (h0 : PoolsOk s.core s.copy s.mirror.wire s.mirror.rx s.dies) :
    PoolsOk z.core z.copy z.mirror.wire z.mirror.rx z.dies := by
  cases hz; (try unfold execSessionClose)
  (try dsimp only)
  repeat' (first | (first | assumption | with_reducible apply State.commit_pools | with_reducible apply State.respond_pools | with_reducible apply State.closeSession_pools | split) | dsimp only)
theorem execIdentify_pools {r : Req} {s : State} {z : State} (hz : execIdentify r s = .next z) (h0 : PoolsOk s.core s.copy s.mirror.wire s.mirror.rx s.dies) :
    PoolsOk z.core z.copy z.mirror.wire z.mirror.rx z.dies := by
  cases hz; (try unfold execIdentify)
  (try dsimp only)
  repeat' (first | (first | assumption | with_reducible apply State.command_pools | (intro _)) | dsimp only)
theorem State.readAddr_pools (s : State) (addr : ℕ) (h0 : PoolsOk s.core s.copy s.mirror.wire s.mirror.rx s.dies) : PoolsOk (State.readAddr s addr).1.core (State.readAddr s addr).1.copy (State.readAddr s addr).1.mirror.wire (State.readAddr s addr).1.mirror.rx (State.readAddr s addr).1.dies := by
  unfold State.readAddr
  repeat' (first | (first | assumption | with_reducible apply State.readReg_pools | with_reducible apply State.tickFree_pools | with_reducible apply State.unheard_pools | with_reducible apply foldl_pools | with_reducible apply Die.fold_ok | with_reducible apply Die.modCh_ok | with_reducible apply PoolsOk.map | with_reducible apply PoolsOk.vmap | with_reducible apply Core.fold_ok | (intro) | split) | dsimp only)
theorem State.readRun_pools (s : State) (x1 : List ℕ) (h0 : PoolsOk s.core s.copy s.mirror.wire s.mirror.rx s.dies) :
    PoolsOk (State.readRun s x1).1.core (State.readRun s x1).1.copy (State.readRun s x1).1.mirror.wire (State.readRun s x1).1.mirror.rx (State.readRun s x1).1.dies := by
  induction x1 generalizing s with
  | nil => exact h0
  | cons a l ih => unfold State.readRun; exact ih _ (State.readAddr_pools _ _ h0)
theorem execRegRead_pools {r : Req} {addr : Word} {n : BitVec 16} {s : State} {z : State} (hz : execRegRead r addr n s = .next z) (h0 : PoolsOk s.core s.copy s.mirror.wire s.mirror.rx s.dies) :
    PoolsOk z.core z.copy z.mirror.wire z.mirror.rx z.dies := by
  cases hz; dsimp only
  repeat' (first | assumption | with_reducible apply State.command_pools | with_reducible apply State.readRun_pools | (intro _) | split)
theorem State.writeOne_pools (s : State) (p : Path) (addr : ℕ) (w : Word) (h0 : PoolsOk s.core s.copy s.mirror.wire s.mirror.rx s.dies) :
    PoolsOk (State.writeOne s p addr w).core (State.writeOne s p addr w).copy (State.writeOne s p addr w).mirror.wire (State.writeOne s p addr w).mirror.rx (State.writeOne s p addr w).dies := by
  unfold State.writeOne
  repeat' (first | assumption | with_reducible apply State.access_pools | with_reducible apply State.regOp_pools | with_reducible apply State.shadowUnit_pools | (intro _) | split)
theorem State.writeRun_pools (s : State) (p : Path) (l : List (ℕ × Word)) (h0 : PoolsOk s.core s.copy s.mirror.wire s.mirror.rx s.dies) :
    PoolsOk (State.writeRun s p l).core (State.writeRun s p l).copy (State.writeRun s p l).mirror.wire (State.writeRun s p l).mirror.rx (State.writeRun s p l).dies := by
  unfold State.writeRun
  repeat' (first | assumption | with_reducible apply foldl_pools | with_reducible apply State.writeOne_pools | (intro _))
theorem execRegWrite_pools {r : Req} {addr : Word} {words : List Word} {s : State} {z : State} (hz : execRegWrite r addr words s = .next z) (h0 : PoolsOk s.core s.copy s.mirror.wire s.mirror.rx s.dies) :
    PoolsOk z.core z.copy z.mirror.wire z.mirror.rx z.dies := by
  cases hz; dsimp only
  repeat' (first | assumption | with_reducible apply State.commandLater_pools | with_reducible apply State.writeRun_pools | with_reducible apply State.ifServing_pools | (intro _) | split)
theorem Core.storeSet_ok (c : Core) (n : ℕ) (ch : BitVec 16) (a : ImageArg) (h0 : CoreOk c.slots c.store) :
    CoreOk (Core.storeSet c n ch a).slots (Core.storeSet c n ch a).store := by
  unfold Core.storeSet
  repeat' (first | assumption | split)
theorem State.dropHeldBy_pools (s : State) (c : Chan) (a : ImageArg) (i : ChanImg) (h0 : PoolsOk s.core s.copy s.mirror.wire s.mirror.rx s.dies) :
    PoolsOk (State.dropHeldBy s c a i).core (State.dropHeldBy s c a i).copy (State.dropHeldBy s c a i).mirror.wire (State.dropHeldBy s c a i).mirror.rx (State.dropHeldBy s c a i).dies := by
  unfold State.dropHeldBy
  refine State.modDie_pools h0 fun x h => ?_
  split
  · exact Die.dropHeld_ok _ _ _ h
  · exact h
theorem State.configureCmd_pools (s : State) (w : Who) (c : Chan) (ch : BitVec 16) (n : ℕ) (apply : Bool) (x1 : ImageArg) (h0 : PoolsOk s.core s.copy s.mirror.wire s.mirror.rx s.dies) :
    PoolsOk (State.configureCmd s w c ch n apply x1).1.core (State.configureCmd s w c ch n apply x1).1.copy (State.configureCmd s w c ch n apply x1).1.mirror.wire (State.configureCmd s w c ch n apply x1).1.mirror.rx (State.configureCmd s w c ch n apply x1).1.dies := by
  unfold State.configureCmd
  repeat' (first | assumption | (apply State.configure_pools; assumption) | with_reducible apply State.modCore_pools | with_reducible apply Core.storeSet_ok | with_reducible apply State.dropHeldBy_pools | (intro _) | split)
theorem execChannelConfigure_pools {r : Req} {ch : BitVec 16} {set : BitVec 16} {flags : Byte} {img : ImageArg} {s : State} {z : State} (hz : execChannelConfigure r ch set flags img s = .next z) (h0 : PoolsOk s.core s.copy s.mirror.wire s.mirror.rx s.dies) :
    PoolsOk z.core z.copy z.mirror.wire z.mirror.rx z.dies := by
  cases hz; (try unfold execChannelConfigure)
  (try dsimp only)
  repeat' (first | (first | assumption | with_reducible apply State.command_pools | with_reducible apply State.configureCmd_pools | (intro _) | split) | dsimp only)
theorem execChannelEnable_pools {r : Req} {ch : BitVec 16} {set : BitVec 16} {s : State} {z : State} (hz : execChannelEnable r ch set s = .next z) (h0 : PoolsOk s.core s.copy s.mirror.wire s.mirror.rx s.dies) :
    PoolsOk z.core z.copy z.mirror.wire z.mirror.rx z.dies := by
  cases hz; dsimp only
  repeat' (first | assumption | (apply State.configure_pools; assumption) | with_reducible apply State.command_pools | (intro _) | with_reducible apply State.dropHeldBy_pools | split | dsimp only)
theorem State.planDisable_pools (s : State) (ch : Chan) (td : Tick) (h0 : PoolsOk s.core s.copy s.mirror.wire s.mirror.rx s.dies) :
    PoolsOk (State.planDisable s ch td).core (State.planDisable s ch td).copy (State.planDisable s ch td).mirror.wire (State.planDisable s ch td).mirror.rx (State.planDisable s ch td).dies := by
  unfold State.planDisable
  repeat' (first | assumption | with_reducible apply State.modCore_pools | with_reducible apply State.settlePools_pools | (intro _))
theorem execChannelDisable_pools {r : Req} {ch : BitVec 16} {s : State} {z : State} (hz : execChannelDisable r ch s = .next z) (h0 : PoolsOk s.core s.copy s.mirror.wire s.mirror.rx s.dies) :
    PoolsOk z.core z.copy z.mirror.wire z.mirror.rx z.dies := by
  cases hz; dsimp only
  repeat' (first | assumption | with_reducible apply State.command_pools | with_reducible apply State.planDisable_pools | (intro _) | split)
theorem State.lowerLevels_pools (s : State) (ch : Chan) (h0 : PoolsOk s.core s.copy s.mirror.wire s.mirror.rx s.dies) :
    PoolsOk (State.lowerLevels s ch).core (State.lowerLevels s ch).copy (State.lowerLevels s ch).mirror.wire (State.lowerLevels s ch).mirror.rx (State.lowerLevels s ch).dies := by
  unfold State.lowerLevels
  repeat' (first | assumption | with_reducible apply State.modCore_pools | (intro _))
theorem State.clearOne_pools (s : State) (resume : Bool) (ch : Chan) (h0 : PoolsOk s.core s.copy s.mirror.wire s.mirror.rx s.dies) : PoolsOk (State.clearOne s resume ch).core (State.clearOne s resume ch).copy (State.clearOne s resume ch).mirror.wire (State.clearOne s resume ch).mirror.rx (State.clearOne s resume ch).dies := by
  unfold State.clearOne
  repeat' (first | assumption | with_reducible apply State.modDie_pools | with_reducible apply State.lowerLevels_pools | with_reducible apply State.syncShadow_pools | with_reducible apply Die.faultClear_ok | (intro _) | split)
theorem execFaultClear_pools {r : Req} {sc : Scope} {resume : Byte} {s : State} {z : State} (hz : execFaultClear r sc resume s = .next z) (h0 : PoolsOk s.core s.copy s.mirror.wire s.mirror.rx s.dies) :
    PoolsOk z.core z.copy z.mirror.wire z.mirror.rx z.dies := by
  cases hz; dsimp only
  repeat' (first | assumption | with_reducible apply foldl_pools | with_reducible apply State.command_pools | with_reducible apply State.clearOne_pools | (intro _) | split)
theorem execScheduleSubmit_pools {r : Req} {entries : List SchedEntry} {octets : List Byte} {s : State} {z : State} (hz : execScheduleSubmit r entries octets s = .next z) (h0 : PoolsOk s.core s.copy s.mirror.wire s.mirror.rx s.dies) :
    PoolsOk z.core z.copy z.mirror.wire z.mirror.rx z.dies := by
  cases hz; (try unfold execScheduleSubmit)
  (try dsimp only)
  repeat' (first | (first | assumption | with_reducible apply State.command_pools | with_reducible apply State.submit_pools | (intro _) | split) | dsimp only)
theorem State.queueCancel_pools (s : State) (r : Req) (es : List Entry) (unknown : ℕ) (h0 : PoolsOk s.core s.copy s.mirror.wire s.mirror.rx s.dies) :
    PoolsOk (State.queueCancel s r es unknown).core (State.queueCancel s r es unknown).copy (State.queueCancel s r es unknown).mirror.wire (State.queueCancel s r es unknown).mirror.rx (State.queueCancel s r es unknown).dies := by
  unfold State.queueCancel
  repeat' (first | assumption | with_reducible apply State.modCore_pools | (intro _))
theorem execScheduleCancelByTag_pools {r : Req} {tags : List Word} {s : State} {z : State} (hz : execScheduleCancelByTag r tags s = .next z) (h0 : PoolsOk s.core s.copy s.mirror.wire s.mirror.rx s.dies) :
    PoolsOk z.core z.copy z.mirror.wire z.mirror.rx z.dies := by
  cases hz; dsimp only
  repeat' (first | assumption | with_reducible apply State.commandLater_pools | with_reducible apply State.queueCancel_pools | (intro _) | split)
theorem execScheduleCancelByRange_pools {r : Req} {ch : BitVec 16} {lo : Dword} {hi : Dword} {s : State} {z : State} (hz : execScheduleCancelByRange r ch lo hi s = .next z) (h0 : PoolsOk s.core s.copy s.mirror.wire s.mirror.rx s.dies) :
    PoolsOk z.core z.copy z.mirror.wire z.mirror.rx z.dies := by
  cases hz; (try unfold execScheduleCancelByRange)
  (try dsimp only)
  repeat' (first | (first | assumption | with_reducible apply State.commandLater_pools | with_reducible apply State.queueCancel_pools | (intro _) | split) | dsimp only)
theorem execResultFetch_pools {r : Req} {w : Word} {s : State} {z : State} (hz : execResultFetch r w s = .next z) (h0 : PoolsOk s.core s.copy s.mirror.wire s.mirror.rx s.dies) :
    PoolsOk z.core z.copy z.mirror.wire z.mirror.rx z.dies := by
  cases hz; dsimp only
  repeat' (first | assumption | with_reducible apply State.modCore_pools | with_reducible apply State.command_pools | with_reducible apply Core.delivered_ok | (intro _) | split)
theorem execStreamOpen_pools {r : Req} {p : StreamOpenP} {s : State} {z : State} (hz : execStreamOpen r p s = .next z) (h0 : PoolsOk s.core s.copy s.mirror.wire s.mirror.rx s.dies) :
    PoolsOk z.core z.copy z.mirror.wire z.mirror.rx z.dies := by
  cases hz; dsimp only
  repeat' (first | assumption | with_reducible apply State.modCore_pools | with_reducible apply State.command_pools | (intro _) | split)
theorem execStreamClose_pools {r : Req} {n : Byte} {s : State} {z : State} (hz : execStreamClose r n s = .next z) (h0 : PoolsOk s.core s.copy s.mirror.wire s.mirror.rx s.dies) :
    PoolsOk z.core z.copy z.mirror.wire z.mirror.rx z.dies := by
  cases hz; (try unfold execStreamClose)
  (try dsimp only)
  repeat' (first | (first | assumption | with_reducible apply State.modCore_pools | with_reducible apply State.command_pools | with_reducible apply State.resumeOn_pools | with_reducible apply Core.closeStreams_ok | (intro _) | split) | dsimp only)
theorem execFilterSync_pools {r : Req} {tr : Dword} {s : State} {z : State} (hz : execFilterSync r tr s = .next z) (h0 : PoolsOk s.core s.copy s.mirror.wire s.mirror.rx s.dies) :
    PoolsOk z.core z.copy z.mirror.wire z.mirror.rx z.dies := by
  cases hz; dsimp only
  repeat' (first | assumption | with_reducible apply State.command_pools | with_reducible apply State.addReset_pools | (intro _) | split)
theorem State.startPoint_pools (s : State) (r : Req) (span : Bool) (p : CalP) (h0 : PoolsOk s.core s.copy s.mirror.wire s.mirror.rx s.dies) :
    PoolsOk (State.startPoint s r span p).1.core (State.startPoint s r span p).1.copy (State.startPoint s r span p).1.mirror.wire (State.startPoint s r span p).1.mirror.rx (State.startPoint s r span p).1.dies := by
  unfold State.startPoint
  repeat' (first | (first | assumption | with_reducible apply State.modCh_pools | split) | dsimp only)
theorem execCalibrateSystemZero_pools {r : Req} {p : CalP} {s : State} {z : State} (hz : execCalibrateSystemZero r p s = .next z) (h0 : PoolsOk s.core s.copy s.mirror.wire s.mirror.rx s.dies) :
    PoolsOk z.core z.copy z.mirror.wire z.mirror.rx z.dies := by
  cases hz; (try unfold execCalibrateSystemZero)
  (try dsimp only)
  repeat' (first | (first | assumption | with_reducible apply State.commandLater_pools | with_reducible apply State.startPoint_pools | (intro _)) | dsimp only)
theorem execCalibrateSystemSpan_pools {r : Req} {p : CalP} {s : State} {z : State} (hz : execCalibrateSystemSpan r p s = .next z) (h0 : PoolsOk s.core s.copy s.mirror.wire s.mirror.rx s.dies) :
    PoolsOk z.core z.copy z.mirror.wire z.mirror.rx z.dies := by
  cases hz; (try unfold execCalibrateSystemSpan)
  (try dsimp only)
  repeat' (first | (first | assumption | with_reducible apply State.commandLater_pools | with_reducible apply State.startPoint_pools | (intro _)) | dsimp only)
theorem State.storeSet_pools {s : State} {set : List (ℕ × ℤ × ℤ)} {readBack : Bool} {z : State} (hz : State.storeSet s set readBack = some z) (h0 : PoolsOk s.core s.copy s.mirror.wire s.mirror.rx s.dies) :
    PoolsOk z.core z.copy z.mirror.wire z.mirror.rx z.dies := by
  unfold State.storeSet at hz; (try dsimp only at hz); repeat' split at hz
  all_goals (try cases hz)
  all_goals repeat' (first | (first | assumption | (apply State.takeRole_pools; assumption) | with_reducible apply State.modHub_pools | with_reducible apply State.putStore_pools) | dsimp only)
theorem State.modCals_pools (s : State) (cs : List Chan) (f : Chan → Cal → Cal) (h0 : PoolsOk s.core s.copy s.mirror.wire s.mirror.rx s.dies) :
    PoolsOk (State.modCals s cs f).core (State.modCals s cs f).copy (State.modCals s cs f).mirror.wire (State.modCals s cs f).mirror.rx (State.modCals s cs f).dies := by
  unfold State.modCals
  repeat' (first | assumption | with_reducible apply State.modCh_pools | with_reducible apply foldl_pools | (intro _))
theorem State.commitStored_pools (s : State) (sc : Scope) (readBack : Bool) (f : Chan → ℤ × ℤ) (g : Chan → Cal → Cal) (h0 : PoolsOk s.core s.copy s.mirror.wire s.mirror.rx s.dies) :
    PoolsOk (State.commitStored s sc readBack f g).1.core (State.commitStored s sc readBack f g).1.copy (State.commitStored s sc readBack f g).1.mirror.wire (State.commitStored s sc readBack f g).1.mirror.rx (State.commitStored s sc readBack f g).1.dies := by
  unfold State.commitStored
  repeat' (first | assumption | (apply State.storeSet_pools; assumption) | with_reducible apply State.modCals_pools | split)
theorem execCalibrationCommitStore_pools {r : Req} {sc : Scope} {readBack : Bool} {s : State} {z : State} (hz : execCalibrationCommitStore r sc readBack s = .next z) (h0 : PoolsOk s.core s.copy s.mirror.wire s.mirror.rx s.dies) :
    PoolsOk z.core z.copy z.mirror.wire z.mirror.rx z.dies := by
  cases hz; (try unfold execCalibrationCommitStore)
  (try dsimp only)
  repeat' (first | (first | assumption | with_reducible apply State.command_pools | with_reducible apply State.commitStored_pools | (intro _)) | dsimp only)
theorem execCalibrationCommitIdentity_pools {r : Req} {sc : Scope} {readBack : Bool} {s : State} {z : State} (hz : execCalibrationCommitIdentity r sc readBack s = .next z) (h0 : PoolsOk s.core s.copy s.mirror.wire s.mirror.rx s.dies) :
    PoolsOk z.core z.copy z.mirror.wire z.mirror.rx z.dies := by
  cases hz; (try unfold execCalibrationCommitIdentity)
  (try dsimp only)
  repeat' (first | (first | assumption | with_reducible apply State.command_pools | with_reducible apply State.commitStored_pools | (intro _)) | dsimp only)
theorem execCalibrationCommitRevert_pools {r : Req} {sc : Scope} {s : State} {z : State} (hz : execCalibrationCommitRevert r sc s = .next z) (h0 : PoolsOk s.core s.copy s.mirror.wire s.mirror.rx s.dies) :
    PoolsOk z.core z.copy z.mirror.wire z.mirror.rx z.dies := by
  cases hz; dsimp only
  repeat' (first | assumption | with_reducible apply State.command_pools | with_reducible apply State.modCals_pools | (intro _) | split)
theorem execLedgerQuery_pools {r : Req} {scope : Byte} {die : Byte} {s : State} {z : State} (hz : execLedgerQuery r scope die s = .next z) (h0 : PoolsOk s.core s.copy s.mirror.wire s.mirror.rx s.dies) :
    PoolsOk z.core z.copy z.mirror.wire z.mirror.rx z.dies := by
  cases hz; (try unfold execLedgerQuery)
  (try dsimp only)
  repeat' (first | (first | assumption | with_reducible apply State.command_pools | (intro _) | split) | dsimp only)
theorem execLedgerPolicySet_pools {r : Req} {p : PolicyP} {s : State} {z : State} (hz : execLedgerPolicySet r p s = .next z) (h0 : PoolsOk s.core s.copy s.mirror.wire s.mirror.rx s.dies) :
    PoolsOk z.core z.copy z.mirror.wire z.mirror.rx z.dies := by
  cases hz; dsimp only
  repeat' (first | assumption | with_reducible apply State.command_pools | with_reducible apply State.policyPut_pools | (intro _) | split)
theorem execEventLogRead_pools {r : Req} {src : Byte} {hub : Byte} {n : Byte} {seq : Word} {s : State} {z : State} (hz : execEventLogRead r src hub n seq s = .next z) (h0 : PoolsOk s.core s.copy s.mirror.wire s.mirror.rx s.dies) :
    PoolsOk z.core z.copy z.mirror.wire z.mirror.rx z.dies := by
  cases hz; dsimp only
  repeat' (first | assumption | with_reducible apply State.command_pools | (intro _) | split)
theorem execReturnPrepare_pools {r : Req} {conf : BitVec 16} {s : State} {z : State} (hz : execReturnPrepare r conf s = .next z) (h0 : PoolsOk s.core s.copy s.mirror.wire s.mirror.rx s.dies) :
    PoolsOk z.core z.copy z.mirror.wire z.mirror.rx z.dies := by
  cases hz; dsimp only
  repeat' (first | assumption | with_reducible apply State.command_pools | (intro _) | split)
theorem execHubSwitchover_pools {r : Req} {s : State} {z : State} (hz : execHubSwitchover r s = .next z) (h0 : PoolsOk s.core s.copy s.mirror.wire s.mirror.rx s.dies) :
    PoolsOk z.core z.copy z.mirror.wire z.mirror.rx z.dies := by
  cases hz; (try unfold execHubSwitchover)
  (try dsimp only)
  repeat' (first | (first | assumption | with_reducible apply State.commandLater_pools | with_reducible apply State.startSwitchover_pools | (intro _) | split) | dsimp only)
theorem execPoolAudit_pools {r : Req} {s : State} {z : State} (hz : execPoolAudit r s = .next z) (h0 : PoolsOk s.core s.copy s.mirror.wire s.mirror.rx s.dies) :
    PoolsOk z.core z.copy z.mirror.wire z.mirror.rx z.dies := by
  cases hz; dsimp only
  repeat' (first | assumption | with_reducible apply State.modCore_pools | with_reducible apply State.command_pools | (intro _) | split)
theorem execKeyRotate_pools {r : Req} {keyId : Byte} {grace : BitVec 16} {nonce : List Byte} {stored : Bool} {s : State} {z : State} (hz : execKeyRotate r keyId grace nonce stored s = .next z) (h0 : PoolsOk s.core s.copy s.mirror.wire s.mirror.rx s.dies) :
    PoolsOk z.core z.copy z.mirror.wire z.mirror.rx z.dies := by
  cases hz; dsimp only
  repeat' (first | assumption | (apply State.takeRole_pools; assumption) | with_reducible apply State.modCore_pools | with_reducible apply State.tickFree_pools | with_reducible apply State.command_pools | with_reducible apply State.putStore_pools | (intro _) | split)
theorem execAuxSequenceLoadTable_pools {r : Req} {d : Byte} {entries : List Word} {s : State} {z : State} (hz : execAuxSequenceLoadTable r d entries s = .next z) (h0 : PoolsOk s.core s.copy s.mirror.wire s.mirror.rx s.dies) :
    PoolsOk z.core z.copy z.mirror.wire z.mirror.rx z.dies := by
  cases hz; dsimp only
  repeat' (first | assumption | with_reducible apply State.command_pools | with_reducible apply State.modAux_pools | (intro _) | split)
theorem execAuxSequenceLoadSlot_pools {r : Req} {d : Byte} {k : Byte} {priv : Word} {entries : List Word} {s : State} {z : State} (hz : execAuxSequenceLoadSlot r d k priv entries s = .next z) (h0 : PoolsOk s.core s.copy s.mirror.wire s.mirror.rx s.dies) :
    PoolsOk z.core z.copy z.mirror.wire z.mirror.rx z.dies := by
  cases hz; dsimp only
  repeat' (first | assumption | with_reducible apply State.command_pools | with_reducible apply State.modAux_pools | (intro _) | split)
theorem State.enqueue_pools (s : State) (r : Req) (body : List Byte) (h0 : PoolsOk s.core s.copy s.mirror.wire s.mirror.rx s.dies) :
    PoolsOk (State.enqueue s r body).core (State.enqueue s r body).copy (State.enqueue s r body).mirror.wire (State.enqueue s r body).mirror.rx (State.enqueue s r body).dies := by
  unfold State.enqueue
  repeat' (first | assumption | with_reducible apply Core.asked_ok | with_reducible apply State.modCore_pools | with_reducible apply State.respond_pools | with_reducible apply Core.modSess_ok | (intro _) | split)
theorem runCmd_pools {r : Req} {s : State} {x1 : ZcsCmd} {z : State} (hz : runCmd r s x1 = .next z) (h0 : PoolsOk s.core s.copy s.mirror.wire s.mirror.rx s.dies) :
    PoolsOk z.core z.copy z.mirror.wire z.mirror.rx z.dies := by
  cases x1 <;> unfold runCmd at hz
  · exact execSessionOpen_pools hz h0
  · exact execSessionClose_pools hz h0
  · exact execIdentify_pools hz h0
  · exact execRegRead_pools hz h0
  · exact execRegWrite_pools hz h0
  · exact execChannelConfigure_pools hz h0
  · exact execChannelEnable_pools hz h0
  · exact execChannelDisable_pools hz h0
  · exact execScheduleSubmit_pools hz h0
  · exact execScheduleCancelByTag_pools hz h0
  · exact execScheduleCancelByRange_pools hz h0
  · exact execResultFetch_pools hz h0
  · exact execStreamOpen_pools hz h0
  · exact execStreamClose_pools hz h0
  · exact execFilterSync_pools hz h0
  · exact execCalibrateSystemZero_pools hz h0
  · exact execCalibrateSystemSpan_pools hz h0
  · exact execCalibrationCommitStore_pools hz h0
  · exact execCalibrationCommitRevert_pools hz h0
  · exact execCalibrationCommitIdentity_pools hz h0
  · exact execLedgerQuery_pools hz h0
  · exact execLedgerPolicySet_pools hz h0
  · exact execPowerStateRequest_pools hz h0
  · exact execWatchdogConfigure_pools hz h0
  · exact execWatchdogServe_pools hz h0
  · exact execEventLogRead_pools hz h0
  · exact execFaultClear_pools hz h0
  · exact execHubSwitchover_pools hz h0
  · exact execKeyRotate_pools hz h0
  · exact execPoolAudit_pools hz h0
  · exact execReturnPrepare_pools hz h0
  · exact execTimeStatusRead_pools hz h0
  · exact execTimeStatusLoad_pools hz h0
  · exact execTimeStatusWriteAccept_pools hz h0
  · exact execAuxSequenceLoadTable_pools hz h0
  · exact execAuxSequenceLoadSlot_pools hz h0
theorem State.refuseBody_pools (s : State) (r : Req) (code : ℕ) (h0 : PoolsOk s.core s.copy s.mirror.wire s.mirror.rx s.dies) :
    PoolsOk (State.refuseBody s r code).core (State.refuseBody s r code).copy (State.refuseBody s r code).mirror.wire (State.refuseBody s r code).mirror.rx (State.refuseBody s r code).dies := by
  unfold State.refuseBody
  repeat' (first | assumption | with_reducible apply State.respond_pools)
theorem execCommandAccept_pools {s : State} {z : State} (hz : execCommandAccept s = .next z) (h0 : PoolsOk s.core s.copy s.mirror.wire s.mirror.rx s.dies) :
    PoolsOk z.core z.copy z.mirror.wire z.mirror.rx z.dies := by
  unfold execCommandAccept at hz; (try dsimp only at hz); repeat' split at hz
  all_goals (try cases hz)
  all_goals repeat' (first | (first | assumption | (apply runCmd_pools; assumption) | with_reducible apply State.modCore_pools | with_reducible apply State.commit_pools | with_reducible apply State.refuseBody_pools | (intro _)) | dsimp only)
theorem State.authFails_pools (s : State) (h0 : PoolsOk s.core s.copy s.mirror.wire s.mirror.rx s.dies) :
    PoolsOk (State.authFails s).core (State.authFails s).copy (State.authFails s).mirror.wire (State.authFails s).mirror.rx (State.authFails s).dies := by
  unfold State.authFails
  repeat' (first | assumption | with_reducible apply State.modCore_pools | with_reducible apply State.raiseNow_pools | (intro _) | split)
theorem State.openRequest_pools (s : State) (p : PortId) (g : Datagram) (h0 : PoolsOk s.core s.copy s.mirror.wire s.mirror.rx s.dies) :
    PoolsOk (State.openRequest s p g).core (State.openRequest s p g).copy (State.openRequest s p g).mirror.wire (State.openRequest s p g).mirror.rx (State.openRequest s p g).dies := by
  unfold State.openRequest
  repeat' (first | assumption | with_reducible apply State.modCore_pools | (intro _) | split)
theorem State.heard_pools (s : State) (i : Fin 8) (h0 : PoolsOk s.core s.copy s.mirror.wire s.mirror.rx s.dies) :
    PoolsOk (State.heard s i).core (State.heard s i).copy (State.heard s i).mirror.wire (State.heard s i).mirror.rx (State.heard s i).dies := by
  unfold State.heard
  repeat' (first | assumption | with_reducible apply State.modCore_pools | with_reducible apply State.clearHold_pools | with_reducible apply Core.modSess_ok | (intro _) | split)
theorem State.dropSeq_pools (s : State) (h0 : PoolsOk s.core s.copy s.mirror.wire s.mirror.rx s.dies) :
    PoolsOk (State.dropSeq s).core (State.dropSeq s).copy (State.dropSeq s).mirror.wire (State.dropSeq s).mirror.rx (State.dropSeq s).dies := by
  exact State.modCore_pools h0 fun _ h => h
theorem State.acceptReq_pools (s : State) (i : Fin 8) (x : Session) (g : Datagram) (h0 : PoolsOk s.core s.copy s.mirror.wire s.mirror.rx s.dies) :
    PoolsOk (State.acceptReq s i x g).core (State.acceptReq s i x g).copy (State.acceptReq s i x g).mirror.wire (State.acceptReq s i x g).mirror.rx (State.acceptReq s i x g).dies := by
  unfold State.acceptReq
  repeat' (first | assumption | with_reducible apply State.modCore_pools | with_reducible apply State.enqueue_pools | with_reducible apply Core.modSess_ok | (intro _))
theorem State.followHeld_pools (i : Fin 8) (x1 : ℕ) (x2 : State) (h0 : PoolsOk x2.core x2.copy x2.mirror.wire x2.mirror.rx x2.dies) :
    PoolsOk (State.followHeld i x1 x2).core (State.followHeld i x1 x2).copy (State.followHeld i x1 x2).mirror.wire (State.followHeld i x1 x2).mirror.rx (State.followHeld i x1 x2).dies := by
  induction x1 generalizing x2 with
  | zero => exact h0
  | succ n ih =>
    unfold State.followHeld
    repeat' split
    all_goals first | exact h0 | (apply ih; exact State.acceptReq_pools _ _ _ _ (State.modCore_pools h0 fun _ h => h))
theorem State.duplicate_pools (s : State) (w : Who) (c : List (ℕ × Response)) (seq keyId : ℕ) (h0 : PoolsOk s.core s.copy s.mirror.wire s.mirror.rx s.dies) :
    PoolsOk (State.duplicate s w c seq keyId).core (State.duplicate s w c seq keyId).copy (State.duplicate s w c seq keyId).mirror.wire (State.duplicate s w c seq keyId).mirror.rx (State.duplicate s w c seq keyId).dies := by
  unfold State.duplicate
  repeat' (first | assumption | with_reducible apply State.emit_pools | split)
theorem State.takeRequest_pools (s : State) (i : Fin 8) (x : Session) (g : Datagram) (h0 : PoolsOk s.core s.copy s.mirror.wire s.mirror.rx s.dies) :
    PoolsOk (State.takeRequest s i x g).core (State.takeRequest s i x g).copy (State.takeRequest s i x g).mirror.wire (State.takeRequest s i x g).mirror.rx (State.takeRequest s i x g).dies := by
  exact PoolsOk.ite (State.followHeld_pools _ _ _ (State.acceptReq_pools _ _ _ _ h0)) (PoolsOk.ite (PoolsOk.ite h0 (State.modCore_pools h0 fun _ h => h)) (PoolsOk.ite (State.duplicate_pools _ _ _ _ _ h0) (State.modCore_pools h0 fun _ h => h)))
theorem State.takeAxis_pools (s : State) (g : Datagram) (h0 : PoolsOk s.core s.copy s.mirror.wire s.mirror.rx s.dies) :
    PoolsOk (State.takeAxis s g).core (State.takeAxis s g).copy (State.takeAxis s g).mirror.wire (State.takeAxis s g).mirror.rx (State.takeAxis s g).dies := by
  unfold State.takeAxis
  repeat' (first | (first | assumption | with_reducible apply foldl_pools | with_reducible apply State.axisSample_pools | (intro _) | split) | dsimp only)
theorem State.datagram_pools (s : State) (p : PortId) (g : Datagram) (h0 : PoolsOk s.core s.copy s.mirror.wire s.mirror.rx s.dies) :
    PoolsOk (State.datagram s p g).core (State.datagram s p g).copy (State.datagram s p g).mirror.wire (State.datagram s p g).mirror.rx (State.datagram s p g).dies := by
  unfold State.datagram
  repeat' (first | (first | assumption | with_reducible apply State.authFails_pools | with_reducible apply State.openRequest_pools | with_reducible apply State.heard_pools | with_reducible apply State.takeRequest_pools | with_reducible apply State.takeAxis_pools | split) | dsimp only)
theorem State.reached_pools (s : State) (p : PortId) (g : Datagram) (h0 : PoolsOk s.core s.copy s.mirror.wire s.mirror.rx s.dies) :
    PoolsOk (State.reached s p g).core (State.reached s p g).copy (State.reached s p g).mirror.wire (State.reached s p g).mirror.rx (State.reached s p g).dies := by
  unfold State.reached
  repeat' (first | assumption | with_reducible apply State.modCore_pools | with_reducible apply State.datagram_pools | (intro _) | split | dsimp only)
theorem State.relayIn_pools (s : State) (h0 : PoolsOk s.core s.copy s.mirror.wire s.mirror.rx s.dies) :
    PoolsOk (State.relayIn s).core (State.relayIn s).copy (State.relayIn s).mirror.wire (State.relayIn s).mirror.rx (State.relayIn s).dies := by
  unfold State.relayIn
  repeat' (first | assumption | with_reducible apply State.reached_pools | split)
theorem execPortRelayReceive_pools {p : PortId} {egress : Bool} {frame : List Byte} {s : State} {z} (h : execPortRelayReceive p egress frame s = .next z) (h0 : PoolsOk s.core s.copy s.mirror.wire s.mirror.rx s.dies) : PoolsOk z.core z.copy z.mirror.wire z.mirror.rx z.dies := by
  cases h; (try unfold execPortRelayReceive)
  (try dsimp only)
  repeat' (first | (first | assumption | with_reducible apply State.relayIn_pools | with_reducible apply State.sendStr_pools | with_reducible apply State.commit_pools | with_reducible apply State.modCore_pools | with_reducible apply foldl_pools | with_reducible apply Die.fold_ok | with_reducible apply Die.modCh_ok | with_reducible apply PoolsOk.map | with_reducible apply PoolsOk.vmap | with_reducible apply Core.fold_ok | (intro) | split) | dsimp only)
theorem State.arrive_pools (s : State) (p : PortId) (g : Datagram) (h0 : PoolsOk s.core s.copy s.mirror.wire s.mirror.rx s.dies) :
    PoolsOk (State.arrive s p g).core (State.arrive s p g).copy (State.arrive s p g).mirror.wire (State.arrive s p g).mirror.rx (State.arrive s p g).dies := by
  unfold State.arrive
  repeat' (first | assumption | with_reducible apply State.reached_pools | with_reducible apply State.modCore_pools | with_reducible apply State.commit_pools | with_reducible apply State.datagram_pools | (intro _) | split)
theorem execDatagramReceive_pools {p : PortId} {dg : Datagram} {s : State} {z : State} (hz : execDatagramReceive p dg s = .next z) (h0 : PoolsOk s.core s.copy s.mirror.wire s.mirror.rx s.dies) :
    PoolsOk z.core z.copy z.mirror.wire z.mirror.rx z.dies := by
  cases hz; (try unfold execDatagramReceive)
  (try dsimp only)
  repeat' (first | (first | assumption | with_reducible apply State.arrive_pools) | dsimp only)
theorem execAxisSamplesDatagram_pools {p : PortId} {dg : Datagram} {s : State} {z : State} (hz : execAxisSamplesDatagram p dg s = .next z) (h0 : PoolsOk s.core s.copy s.mirror.wire s.mirror.rx s.dies) :
    PoolsOk z.core z.copy z.mirror.wire z.mirror.rx z.dies := by
  cases hz; (try unfold execAxisSamplesDatagram)
  (try dsimp only)
  repeat' (first | (first | assumption | with_reducible apply State.arrive_pools) | dsimp only)
theorem execHeldRequestTimeout_pools {w : Who} {seq : Word} {s : State} {z : State} (hz : execHeldRequestTimeout w seq s = .next z) (h0 : PoolsOk s.core s.copy s.mirror.wire s.mirror.rx s.dies) :
    PoolsOk z.core z.copy z.mirror.wire z.mirror.rx z.dies := by
  cases hz; dsimp only
  repeat' (first | assumption | with_reducible apply State.dropSeq_pools | with_reducible apply State.modCore_pools | with_reducible apply State.commit_pools | with_reducible apply Core.modSess_ok | (intro _) | split)
theorem State.ownRead_pools (s : State) (hh : HubId) (addr : ℕ) (h0 : PoolsOk s.core s.copy s.mirror.wire s.mirror.rx s.dies) : PoolsOk (State.ownRead s hh addr).1.core (State.ownRead s hh addr).1.copy (State.ownRead s hh addr).1.mirror.wire (State.ownRead s hh addr).1.mirror.rx (State.ownRead s hh addr).1.dies := by
  unfold State.ownRead
  repeat' (first | (first | assumption | with_reducible apply State.tickFree_pools | with_reducible apply State.readReg_pools | with_reducible apply foldl_pools | with_reducible apply Die.fold_ok | with_reducible apply Die.modCh_ok | with_reducible apply PoolsOk.map | with_reducible apply PoolsOk.vmap | with_reducible apply Core.fold_ok | (intro) | split) | dsimp only)
theorem State.ownRun_pools (s : State) (h : HubId) (x1 : List ℕ) (h0 : PoolsOk s.core s.copy s.mirror.wire s.mirror.rx s.dies) :
    PoolsOk (State.ownRun s h x1).1.core (State.ownRun s h x1).1.copy (State.ownRun s h x1).1.mirror.wire (State.ownRun s h x1).1.mirror.rx (State.ownRun s h x1).1.dies := by
  induction x1 generalizing s with
  | nil => exact h0
  | cons a l ih => unfold State.ownRun; exact ih _ (State.ownRead_pools _ _ _ h0)
theorem execSpiRegisterRead_pools {h : HubId} {_quad : Bool} {addr : BitVec 24} {n : ℕ} {s : State} {z : State} (hz : execSpiRegisterRead h _quad addr n s = .next z) (h0 : PoolsOk s.core s.copy s.mirror.wire s.mirror.rx s.dies) :
    PoolsOk z.core z.copy z.mirror.wire z.mirror.rx z.dies := by
  cases hz; dsimp only
  repeat' (first | assumption | with_reducible apply State.shiftOut_pools | with_reducible apply State.readRun_pools | with_reducible apply State.ownRun_pools | split)
theorem execSpiRegisterWrite_pools {h : HubId} {_quad : Bool} {addr : BitVec 24} {words : List Word} {s : State} {z : State} (hz : execSpiRegisterWrite h _quad addr words s = .next z) (h0 : PoolsOk s.core s.copy s.mirror.wire s.mirror.rx s.dies) :
    PoolsOk z.core z.copy z.mirror.wire z.mirror.rx z.dies := by
  cases hz; dsimp only
  repeat' (first | assumption | with_reducible apply State.commit_pools | with_reducible apply State.shiftOut_pools | with_reducible apply State.writeRun_pools | with_reducible apply State.hold_pools | split)
theorem State.acceptTunnel_pools (s : State) (m : TunnelMsg) (h0 : PoolsOk s.core s.copy s.mirror.wire s.mirror.rx s.dies) :
    PoolsOk (State.acceptTunnel s m).core (State.acceptTunnel s m).copy (State.acceptTunnel s m).mirror.wire (State.acceptTunnel s m).mirror.rx (State.acceptTunnel s m).dies := by
  unfold State.acceptTunnel
  repeat' (first | assumption | with_reducible apply State.modCore_pools | with_reducible apply State.enqueue_pools | with_reducible apply State.refuseBody_pools | (intro _) | split | dsimp only)
theorem State.followTunnel_pools (n : ℕ) (s : State) (h0 : PoolsOk s.core s.copy s.mirror.wire s.mirror.rx s.dies) :
    PoolsOk (State.followTunnel n s).core (State.followTunnel n s).copy (State.followTunnel n s).mirror.wire (State.followTunnel n s).mirror.rx (State.followTunnel n s).dies := by
  induction n generalizing s with
  | zero => exact h0
  | succ n ih =>
    unfold State.followTunnel
    split
    · exact ih _ (State.acceptTunnel_pools _ _ (State.modCore_pools h0 fun _ h => h))
    · exact h0
theorem State.takeTunnel_pools (s : State) (m : TunnelMsg) (h0 : PoolsOk s.core s.copy s.mirror.wire s.mirror.rx s.dies) :
    PoolsOk (State.takeTunnel s m).core (State.takeTunnel s m).copy (State.takeTunnel s m).mirror.wire (State.takeTunnel s m).mirror.rx (State.takeTunnel s m).dies := by
  unfold State.takeTunnel
  repeat' (first | assumption | with_reducible apply State.modCore_pools | with_reducible apply State.followTunnel_pools | with_reducible apply State.acceptTunnel_pools | with_reducible apply State.duplicate_pools | with_reducible apply State.dropSeq_pools | (intro _) | split | dsimp only)
theorem State.tunnelRequest_pools (s : State) (m : TunnelMsg) (h0 : PoolsOk s.core s.copy s.mirror.wire s.mirror.rx s.dies) :
    PoolsOk (State.tunnelRequest s m).core (State.tunnelRequest s m).copy (State.tunnelRequest s m).mirror.wire (State.tunnelRequest s m).mirror.rx (State.tunnelRequest s m).dies := by
  unfold State.tunnelRequest
  repeat' (first | assumption | with_reducible apply State.enqueue_pools | with_reducible apply State.emit_pools | with_reducible apply State.takeTunnel_pools | split)
theorem execSpiTunnelWrite_pools {h : HubId} {m : TunnelMsg} {s : State} {z : State} (hz : execSpiTunnelWrite h m s = .next z) (h0 : PoolsOk s.core s.copy s.mirror.wire s.mirror.rx s.dies) :
    PoolsOk z.core z.copy z.mirror.wire z.mirror.rx z.dies := by
  cases hz; dsimp only
  repeat' (first | assumption | with_reducible apply State.tunnelRequest_pools | with_reducible apply State.commit_pools | with_reducible apply State.shiftOut_pools | with_reducible apply State.enqueue_pools | with_reducible apply State.refuseBody_pools | split)
theorem execSpiTunnelRead_pools {h : HubId} {s : State} {z : State} (hz : execSpiTunnelRead h s = .next z) (h0 : PoolsOk s.core s.copy s.mirror.wire s.mirror.rx s.dies) :
    PoolsOk z.core z.copy z.mirror.wire z.mirror.rx z.dies := by
  cases hz; dsimp only
  repeat' (first | assumption | with_reducible apply State.modCore_pools | with_reducible apply State.commit_pools | with_reducible apply State.shiftOut_pools | with_reducible apply State.spiEvents_pools | (intro _) | split)

end Sys2Proof.Machine
end

