-- ==== Sys2Proof/WellFormed.lean ====
section
/-! DEFINITION. Which commands are well formed: the operands that the spec bounds by their very coding, and that the
types of `Instr` do not already bound. A command that is not well formed is still executed: what the spec does with a
bad field (ZS_BAD_ARG, a discard, a clamp) is the meaning's business. -/

namespace Sys2Proof

/-- An entry of R58 is 32 octets; nothing beyond its fields' widths is asked. CLASS is 0 to 3 and CHANNEL below 96. -/
def SchedEntry.wf (e : SchedEntry) : Bool := decide (e.cls.toNat ≤ 3) && decide (e.channel.toNat < 96)

/-- A signed 32-bit quantity. -/
def isI32 (v : Int) : Bool := decide (-(2 : Int) ^ 31 ≤ v) && decide (v < 2 ^ 31)

/-- A `CalibrateSystem` point's fields (R196, R390): v is signed 32-bit, W and S are 32-bit. -/
def CalP.wf (p : CalP) : Bool := isI32 p.v && decide (p.w < 2 ^ 32) && decide (p.s < 2 ^ 32)

/-- A datagram is at most 1,472 octets: 40 of header and a body of at most 1,432 (R354, R377). -/
def Datagram.wf (d : Datagram) : Bool := decide (d.body.length ≤ 1432)

/-- A tunnel message's body is at most 4,096 octets (R377). -/
def TunnelMsg.wf (m : TunnelMsg) : Bool := decide (m.body.length ≤ 4096)

/-- The command is well formed. -/
def Instr.wf : Instr → Bool
  | .scheduleSubmit _ es _ => decide (1 ≤ es.length ∧ es.length ≤ 64) && es.all SchedEntry.wf
  | .scheduleCancelByTag _ ts => decide (1 ≤ ts.length ∧ ts.length ≤ 64)
  | .regWrite _ _ ws => decide (1 ≤ ws.length ∧ ws.length ≤ 256)
  | .regRead _ _ n => decide (1 ≤ n.toNat ∧ n.toNat ≤ 256)
  | .calibrateSystemZero _ p => p.wf
  | .calibrateSystemSpan _ p => p.wf
  | .auxSequenceLoadTable _ _ es => decide (1 ≤ es.length ∧ es.length ≤ 64)
  | .auxSequenceLoadSlot _ _ _ _ es => decide (1 ≤ es.length ∧ es.length ≤ 8)
  | .keyRotate _ _ _ n _ => decide (n.length = 16)
  | .datagramReceive _ d => d.wf
  | .axisSamplesDatagram _ d => d.wf
  | .spiTunnelWrite _ m => m.wf
  | .spiRegisterRead _ _ _ n => decide (1 ≤ n)
  | .spiRegisterWrite _ _ _ ws => decide (1 ≤ ws.length)
  | .managementRequestReceive _ _ m => decide (m.page < 64 ∧ m.offset < 4096)
  | .heatMetering _ m => decide (m.points.length = 16)
  | .fskOctetReceive .. => true
  | .carouselPointsEnd _ _ ps _ _ => decide (ps.length = 4)
  | .carouselSelfCalEnd _ _ ps _ => decide (ps.length = 4)
  | .injectedSequenceEnd _ rs => decide (rs.length ≤ 8)
  | _ => true

end Sys2Proof
end

