-- ==== Sys2Proof/Tests/Slice0.lean ====
section
/-! SUPPORT. Own tests: the smoke of WellFormed, a few one-step tests with results from the spec's words, and for each
statement of Obligations.lean a witness: states and operands that meet its hypotheses, clause by clause. -/

namespace Sys2Proof.Tests
open Sys2Proof Machine
set_option Elab.async false

/-! ### States -/

/-- The next state of an outcome. -/
def nextOf : Host.Outcome State Fault Refusal → State
  | .next t => t
  | _ => State.reset
/-- A package of two hubs in Run after its power-up. -/
def on : State := nextOf (exec .powerUpComplete (nextOf (exec (.powerUp ⟨false, true, false⟩) State.reset)))
/-- Every lane and the String trained, hub 0 holding every die. -/
def trained : State := { on with
  hubs := on.hubs.map fun h => { h with lanes := h.lanes.map fun l => l.trainedAt 2 }
  dies := on.dies.map fun d => { d with holder := some 0 }
  mirror := { on.mirror with str := on.mirror.str.trainedAt 2 } }
/-- The same with a READY standby. -/
def ready : State := trained.modHub 1 fun h => { h with hstate := .ready }
/-- The same in a package of one hub. -/
def single : State := nextOf (exec .powerUpComplete (nextOf (exec (.powerUp ⟨false, false, false⟩) State.reset)))
/-- Device time, elapsed time and every replica at t. -/
def clockAt (s : State) (t : Nat) : State := { s with clk := { s.clk with now := t, elapsed := t, peer := t }, dies := s.dies.map fun d => { d with replica := t } }
/-- Channel 0 of die 0. -/
def c0 : Chan := ⟨0, 0⟩
/-- Channel 0 of die 0 changed. -/
def withCh (s : State) (f : Channel → Channel) : State := s.modCh c0 f
/-- Channel 0 of die 0 in mode m. -/
def inMode (s : State) (m : Nat) : State :=
  withCh s fun k => { k with img := Img.withMode k.img m, want := Img.withMode k.want m, trans := none }
/-- A request over SPI, and one of session 0. -/
def viaSpi : Req := ⟨.spi, 1#32, 1#8⟩
def viaUdp : Req := ⟨.udp 0 1, 1#32, 1#8⟩
/-- A session of version 3.2 that controls die 0. -/
def sess0 : Session := ⟨1, 1, 0x32, 3, 100, 1, 0xFF, 0, 0, 1, [], [], [], [], 0, false, 0#128, 0⟩
def withSession (s : State) (x : Session) : State := { s with core := { s.core with sess := s.core.sess.set 0 (some x) } }
/-- An OUT_SET entry of channel 0 of die 0. -/
def outSet0 : SchedEntry := ⟨1000000#64, 3#8, 0#8, 0#16, 1#32, 0#32, 0#16, 1#16, 0#32, 7#32⟩
def entry0 : Entry := ⟨5, outSet0, [], c0, .spi, false, .admitted, 0, none, none, 0, 0, none, ⟨0, 0, 0, 0, 0⟩⟩
def withEntry (s : State) (e : Entry) : State := { s with core := { s.core with entries := [e] } }
def withQueued (s : State) (e : Entry) : State := s.modDie 0 fun d => { d with ntq := [e] }
/-- A retired record of no words. -/
def record0 : Record := ⟨5, 0, 7#32, 0, 0, 1, 0, 0, 0, 0, [], 0, some 0, 0, false, false⟩
def withRecord (s : State) (r : Record) : State := { s with core := { s.core with records := [r] } }
def okOf {α β : Type} : Except α β → Bool
  | .ok _ => true
  | .error _ => false


/-! ### Witnesses: commands -/

def openP : SessionOpenP := ⟨0x32#8, 0#8, 0#16, 1#8, 0xFF#8, 0, 0#128, 0#16⟩
def full : State := { on with core := { on.core with sess := Vector.replicate 8 (some { sess0 with control := 0 }) } }
theorem witness_Sessions :
    (on.serving = true ∧ on.switching = false ∧ on.openRefused openP = none ∧ on.core.freeSlot = some 0) ∧
    (on.openRefused { openP with retry := 61#8 } = some .badArg ∧ on.openRefused { openP with retry := 60#8 } = none) ∧
    (on.openRefused { openP with version := 0x1F#8 } = some .version) ∧
    (full.serving = true ∧ full.switching = false ∧ full.openRefused openP = none ∧ full.core.freeSlot = none) ∧
    ((withSession on sess0).serving = true ∧ (withSession on sess0).core.session 0 = some sess0) := by decide +kernel
theorem witness_HeaderWrites :
    (on.locate (5 * 4096 + 0x28) = .page (.hub 0 5) 0x28 ∧ Reaches on .zcs (.hub 0 5) 0x28) ∧
    (on.locate (5 * 4096 + 0x18) = .page (.hub 0 5) 0x18 ∧ Reaches on .zcs (.hub 0 5) 0x18) ∧
    (on.locate (5 * 4096 + 0x08) = .page (.hub 0 5) 0x08 ∧ Reaches on .zcs (.hub 0 5) 0x08 ∧ bit 2#32 2 = false) := by decide +kernel
def asleep : State := trained.modDie 0 fun d => { d with pwr := .deepSleep }
/-- Hub 1 holds the lease of die 0. -/
def leased1 : State := trained.modDie 0 fun d => { d with holder := some 1 }
def locked5 : State := on.modHdr (.hub 0 5) fun h => { h with locked := true }
theorem witness_RegisterWriteByAddress :
    (on.locate (0x5042 / 4 * 4) = .page (.hub 0 5) 0x40 ∧ Reaches on (.spi 0) (.hub 0 5) 0x40) ∧
    (0x5042 % 4 ≠ 0 ∧ (match on.locate 0xC040 with | .page _ _ => false | _ => true) = true) ∧
    (State.reset.locate 0x5040 = .page (.hub 0 5) 0x40 ∧ State.reset.answers = false) ∧
    (on.pathOpen (.spi 1) = false ∧ on.answers = true ∧ on.pathOpen .zcs = true ∧ on.pageThere (.hub 0 5) = true) ∧
    (asleep.locate 0x100040 = .page (.die 0 0) 0x40 ∧ asleep.answers = true ∧ asleep.pageThere (.die 0 0) = true ∧
      asleep.locOn (.die 0 0) 0x40 = false) ∧
    (leased1.locOn (.die 0 0) 0x40 = true ∧ leased1.regAt (.die 0 0) 0x40 = true ∧ leased1.standbyPage (.die 0 0) = false ∧
      leased1.pageHeard (.die 0 0) 0x40 = false) ∧
    (on.locOn (.hub 0 5) 0x40 = true ∧ on.locate 0x5FFC = .page (.hub 0 5) 0xFFC ∧ on.regAt (.hub 0 5) 0xFFC = false) ∧
    (trained.locate 0x85040 = .page (.hub 1 5) 0x40 ∧ trained.locOn (.hub 1 5) 0x40 = true ∧ trained.regAt (.hub 1 5) 0x40 = true ∧
      trained.standbyPage (.hub 1 5) = true) ∧
    (locked5.answers = true ∧ locked5.locOn (.hub 0 5) 0x40 = true ∧ locked5.regAt (.hub 0 5) 0x40 = true ∧
      locked5.standbyPage (.hub 0 5) = false ∧ locked5.pageHeard (.hub 0 5) 0x40 = true ∧ locked5.lockedAt (.hub 0 5) 0x40 = true) := by decide +kernel
theorem witness_ChannelRegisterWrites :
    (Reaches trained .zcs (chanPage c0) 0x5C ∧ Reaches trained .zcs (chanPage c0) 0x210 ∧ Reaches trained .zcs (chanPage c0) 0x200 ∧
      Reaches trained .zcs (chanPage c0) 0x108 ∧ ∀ r ∈ [FiltReg.filtCfg, .perInt, .perFrac, .maLen, .dcbCfg, .angCfg],
        Reaches trained .zcs (chanPage c0) (filtOff r)) ∧
    (imgFieldsOk { (trained.chan c0).want with angCfg := 0x1000#32 } = true ∧
      trained.filterBad c0 (tenAfterTwenty trained.clk.now) { (trained.chan c0).want with angCfg := 0x1000#32 } = false) ∧
    imgFieldsOk (noPreset { (trained.chan c0).want with maLen := 0#32 } 0x10C) = false ∧
    imgFieldsOk (noPreset { (trained.chan c0).want with maLen := 4096#32 } 0x10C) = true := by decide +kernel
def lockedCh : State := trained.modHdr (chanPage c0) fun h => { h with locked := true }
theorem witness_ConfigurationWrites :
    (Reaches trained .zcs (chanPage c0) 0x40 ∧ Reaches trained .zcs (chanPage c0) 0x80 ∧ Reaches trained .zcs (chanPage c0) 0x300) ∧
    (trained.unitLocked c0 { (trained.chan c0).want with cfg := 1#32 } = false ∧
      okOf (trained.configure c0 { (trained.chan c0).want with cfg := 1#32 } 0) = true) ∧
    (okOf (trained.configure c0 { (trained.chan c0).want with cfg := 15#32 } 0) = false) ∧
    (lockedCh.unitLocked c0 (lockedCh.chan c0).want = true) ∧
    (fld 0x10110#32 16 2 ≠ fld (trained.chan c0).want.outCfg 16 2 ∧ fld 0x330#32 16 2 = fld (trained.chan c0).want.outCfg 16 2) ∧
    okOf (trained.ledgerAdmit ((trained.dieAt 0 [] (tenAfterTwenty trained.clk.now)).declCosts 0 [0] 32 (fun i => i) (tenAfterTwenty trained.clk.now))
      1 trained.clk.now) = true := by decide +kernel
theorem witness_HubRegisterWrites :
    (Reaches on .zcs (.hub 0 7) 0x40 ∧ Reaches on .zcs (.hub 0 7) 0x4C ∧ (∀ a r, r ∈ [AxisReg.cfg, .cpr, .zero] →
        Reaches on .zcs (.hub 0 8) (axisOff a r)) ∧ Reaches on .zcs (.hub 0 3) 0x50 ∧ Reaches on .zcs (.hub 0 2) 0x40 ∧
      Reaches on .zcs (.hub 0 4) 0x54 ∧ Reaches on .zcs (.hub 0 4) 0x48 ∧ Reaches on .zcs (.hub 0 4) 0x40 ∧
      Reaches on .zcs (.hub 0 1) 0x40 ∧ (∀ q : PortId, Reaches on .zcs (.hub 0 1) (0x60 + 4 * q.val)) ∧
      Reaches on (.spi 0) (.hub 0 10) 0x88) ∧
    (45000 ≤ (45000#32).toNat ∧ (65000#32).toNat ≤ 65000 ∧ on.core.mains.src ≠ 2) ∧
    (({ on with core := { on.core with mains := { on.core.mains with src := 2 } } } : State).core.mains.src = 2) ∧
    ((44999#32).toNat < 45000 ∧ 65000 < (65001#32).toNat) ∧
    (fld 6#32 1 2 = 3 ∧ fld 2#32 1 2 ≠ 3 ∧ fld 2#32 1 2 ≠ on.core.time.role ∧ fld 1#32 1 2 = on.core.time.role) ∧
    ((on.core.keys.filter (·.1 != 1)).length < 4 ∧ (on.takeRole true).isSome = true ∧ fld 1#32 0 8 ≠ 0) ∧
    (({ on with core := { on.core with keys := [(1, []), (2, []), (3, []), (4, [])] } } : State).core.keys.filter (·.1 != 5)).length = 4 := by
  and_intros <;> decide +kernel
theorem witness_DieRegisterWrites :
    (∀ i : Fin 64, Reaches trained .zcs (.die 0 20) (0x100 + 4 * i.val)) ∧ Reaches trained .zcs (.die 0 20) 0x40 ∧
    (∀ i : Fin 4, Reaches trained .zcs (.die 0 20) (0x50 + 4 * i.val)) ∧
    (∀ (i : Fin 4) (j : Fin 8), Reaches trained .zcs (.die 0 20) (0x300 + 0x20 * i.val + 4 * j.val)) ∧
    Reaches trained .zcs (.die 0 20) 0x60 ∧ Reaches trained .zcs (.die 0 0) 0x40 ∧ Reaches trained .zcs (.die 0 21) 0x74 ∧
    (∀ c : ChanId, Reaches trained .zcs (.die 0 21) (0x100 + 4 * c.val)) ∧
    (∀ k, Reaches trained .zcs (policyAt (.package 0) k).1 (policyAt (.package 0) k).2 ∧
      Reaches trained .zcs (policyAt (.die 5) k).1 (policyAt (.die 5) k).2) ∧
    ((trained.policyPut (.package 0) 0 ⟨1, 0⟩).1 = some 4 ∧ (trained.policyPut (.die 0) 2 ⟨3510, 0xFFFF⟩).1 = none ∧
      (trained.policyPut (.die 0) 2 ⟨3511, 0xFFFF⟩).1 = some 6) ∧
    okOf (trained.ledgerAdmit ((trained.dieAt 0 [] (tenAfterTwenty trained.clk.now)).declCosts 0 [0] 32 (fun i => i) (tenAfterTwenty trained.clk.now))
      1 trained.clk.now) = true := by and_intros <;> decide +kernel
/-- The watchdog running with a period that began at 0. -/
def dog (armed : Bool) (n : Nat) : State :=
  { on with clk := { on.clk with now := n * us, elapsed := n * us }, core := { on.core with wd := { on.core.wd with en := true, start := 0, armed := armed } } }
/-- A late violation fell in this register cycle. -/
def lateNow (t : Nat) : State := { dog true t with core := { (dog true t).core with wd := { (dog true t).core.wd with lateAt := some (t * us) } } }
theorem witness_WatchdogService :
    (Reaches on .zcs (.hub 0 5) 0x48 ∧ on.wdIsLate on.clk.elapsed = false ∧ on.core.wd.running = false) ∧
    (Reaches (dog false 0) .zcs (.hub 0 5) 0x48 ∧ (dog false 0).wdIsLate (dog false 0).clk.elapsed = false ∧ (dog false 0).core.wd.running = true ∧
      (dog false 0).core.wd.armed = false) ∧
    ((dog true 49999).wdIsLate (dog true 49999).clk.elapsed = false ∧ (dog true 49999).core.wd.n (dog true 49999).clk.elapsed < (dog true 49999).core.wd.c) ∧
    ((dog true 50000).wdIsLate (dog true 50000).clk.elapsed = false ∧ (dog true 50000).core.wd.c ≤ (dog true 50000).core.wd.n (dog true 50000).clk.elapsed) ∧
    ((0#32 : Word) ≠ keyA ∧ (0#32 : Word) ≠ keyB) ∧
    (Reaches (lateNow 7) .zcs (.hub 0 5) 0x48 ∧ (lateNow 7).core.wd.lateAt = some (lateNow 7).clk.elapsed ∧
      (lateNow 7).core.wd.running = true ∧ (lateNow 7).wdIsLate (lateNow 7).clk.elapsed = false ∧
      (dog true 0).core.wd.lateAt ≠ some (dog true 0).clk.elapsed) ∧
    (Runs (dog false 50000) viaSpi 0x0062 ∧ (dog false 50000).wdIsLate ((dog false 50000).clk.elapsed + 1) = false ∧
      (dog false 50000).core.wd.lateAt ≠ some ((dog false 50000).clk.elapsed + 1) ∧ (dog false 50000).core.wd.running = true ∧
      (dog false 50000).core.wd.armed = false ∧ (dog false 50000).core.wd.c ≤ (dog false 50000).core.wd.n ((dog false 50000).clk.elapsed + 1)) ∧
    ((dog false 50000).pageLocked (.hub 0 5) = false ∧ (dog false 50000).wdIsLate (dog false 50000).clk.elapsed = false ∧
      (dog false 50000).core.wd.c ≤ (dog false 50000).core.wd.n (dog false 50000).clk.elapsed) ∧
    ((dog false 100000).wdIsLate (dog false 100000).clk.elapsed = true ∧ (dog false 100000).core.wd.actLate = 0) ∧
    (({ dog false 100000 with core := { (dog false 100000).core with wd := { (dog false 100000).core.wd with actLate := 1 } } }
      : State).wdIsLate (dog false 100000).clk.elapsed = true) := by decide +kernel
theorem witness_WatchdogConfiguration :
    (Reaches on .zcs (.hub 0 5) 0x40 ∧ on.wdIsLate on.clk.elapsed = false ∧ on.wdCode2 1#32 = false ∧ on.core.wd.en = false ∧ bit 1#32 0 = true) ∧
    ((dog false 50000).core.wd.en = true ∧ (dog false 50000).wdAccepts = true ∧ (dog false 49999).wdAccepts = false ∧
      (dog false 49999).wdIsLate (dog false 49999).clk.elapsed = false ∧ Reaches (dog false 49999) .zcs (.hub 0 5) 0x40) ∧
    (Reaches on .zcs (.hub 0 5) 0x44 ∧ wdPeriodOk 0xE1000000#32 = false ∧ wdPeriodOk 1000#32 = true ∧ wdPeriodOk 999#32 = false) ∧
    (Runs on viaSpi 0x0061 ∧ on.pageLocked (.hub 0 5) = false ∧ (1#8 : Byte).getLsbD 0 = true ∧ (1#8 : Byte).getLsbD 1 = false) ∧
    (Runs (dog false 49999) viaSpi 0x0061 ∧ (2#8 : Byte).getLsbD 0 = false ∧ (2#8 : Byte).getLsbD 1 = true ∧
      (dog false 49999).wdCode2 0#32 = false) := by decide +kernel
def switchingOver : State := on.modHub 1 fun h => { h with claiming := some (0, 0, none, 0) }
def version21 : State := withSession on { sess0 with version := 0x21 }
theorem witness_CommandsTurnedAway :
    (commandOf (.identify viaUdp) = some (viaUdp, 0x0003) ∧ State.reset.serving = false) ∧
    (switchingOver.serving = true ∧ switchingOver.switching = true) ∧
    (version21.serving = true ∧ version21.switching = false ∧ version21.isV2 viaUdp.who = true ∧ v2Allows 0x0050 = false ∧
        commandOf (.ledgerQuery viaUdp 2#8 0#8) = some (viaUdp, 0x0050)) := by decide +kernel
theorem witness_IdentityAndRegisterCommands :
    (Runs on viaSpi 0x0003 ∧ Runs on viaSpi 0x0010 ∧ Runs on viaSpi 0x0011) ∧
    (on.runOk 0x5040 1 = true ∧ on.runOk 0x5000 256 = true ∧ on.runOk 0x5000 257 = false ∧ on.runOk 0x5041 1 = false) ∧
    (locked5.runLocked ((runOf 0x5040 1).zip [0#32]) [] = true ∧ on.runLocked ((runOf 0x5040 1).zip [0#32]) [] = false) ∧
    (((runOf 0x5040 1).zip [0#32]).foldl (fun u x => u.writeOne .tunnel x.1 x.2) on).serving = true := by decide +kernel
def calImage : ImageArg := .full { ChanImg.reset with cfg := 1#32 }
def withSet7 : State := { trained with core := trained.core.storeSet 7 0#16 calImage }
/-- Die 0 enters Deep Sleep under a request. -/
def dieEnters : State := { trained with power := { trained.power with req := some ⟨.deepSleep, some 0, some viaSpi, 0, [], some 0, none, none⟩ } }
theorem witness_ChannelCommands :
    (Runs on viaSpi 0x0020 ∧ on.chanOf 96 = none ∧ on.chanOf 0 = some c0 ∧ on.chanOf 95 = some ⟨5, 15⟩) ∧
    (on.imageOk .spi c0 calImage = true ∧ on.imageOk .spi c0 (.full { ChanImg.reset with cfg := 15#32 }) = false ∧
      on.core.sets.length < 1024 ∧ trained.imageLocked c0 calImage = false ∧
      trained.imageOk .spi c0 calImage = true ∧ okOf (trained.configure c0 (trained.imageFor c0 calImage) 4095) = true ∧
      okOf (on.configure c0 (on.imageFor c0 calImage) 4095) = false ∧
      lockedCh.imageLocked c0 calImage = true) ∧
    (Runs withSet7 viaSpi 0x0021 ∧ withSet7.core.sets.find? (fun x => x.1 == 7 && x.1 != 0) = some (7, 0#16, calImage) ∧
        withSet7.core.sets.find? (fun x => x.1 == 8 && x.1 != 0) = none ∧ okOf (withSet7.configure c0 (withSet7.imageFor c0 calImage) 7) = true) ∧
    (Runs trained viaSpi 0x0022 ∧ trained.unitLockedNow c0 = false ∧ trained.barred 0 = none ∧ trained.entering 0 = false ∧
      lockedCh.unitLockedNow c0 = true ∧ on.barred 0 = some .blockOff ∧ leased1.barred 0 = some .busy ∧ dieEnters.entering 0 = true) ∧
    (Runs on viaSpi 0x0071 ∧ on.named (.die 6#8) = none ∧ (on.named (.die 5#8)).isSome = true) := by decide +kernel
def unit0 : List SchedEntry := [outSet0]
def noAdmission : State := { on with core := { on.core with sched := { on.core.sched with admits := false } } }
/-- Channel 0 of die 0 an output, and free-running time accepted. -/
def outReady : State := { inMode trained 8 with core := { trained.core with time := { trained.core.time with accept := true } } }
def queuedPlan : LanePlan := (outReady.dieAt 0 [] 1000000).lanePlan 0 outSet0 outReady.core.mains.period outReady.clk.now (outReady.pwmAhead c0 1000000)
def queuedItems : List PlanItem := (outReady.dieAt 0 [] 1000000).entryCosts 0 0 outSet0 none outReady.core.nextId
theorem witness_ScheduleCommands :
    (Runs outReady viaSpi 0x0030 ∧ outReady.core.sched.admits = true ∧ SchedEntry.octetCount outSet0 = ([] : List Byte).length ∧
      outReady.chanOf outSet0.channel.toNat = some c0 ∧ outReady.setOf c0 outSet0 = some none ∧ fieldsOk outSet0 = true ∧
      outReady.core.destOk outSet0 = true ∧ outReady.modeOk c0 outSet0 none [(c0, outSet0, none)] = true ∧
      outReady.clk.now + outReady.core.sched.minLead * us ≤ outSet0.time.toNat ∧
      versionOk (outReady.isV2 .spi) (outReady.lane outReady.active 0).version false outSet0 = true ∧ (outReady.die 0).on = true ∧
      outReady.entering 0 = false ∧ outReady.usable = true ∧ outReady.core.slots.free ≠ 0 ∧ outReady.isV2 .spi = false ∧
      recordWords outSet0 ((outReady.dieAt 0 [] 1000000).chan 0).img ≤ outReady.core.store.free ∧
      planFails ((outReady.core.entries.filter fun x => x.live && decide (x.ch.die = 0)).map (·.plan)) queuedPlan = none ∧
      (queuedItems = [] ∨ outReady.policyOk outReady.core.plan queuedItems outSet0.cls.toNat outReady.clk.now = true ∧
        outReady.creditShort outReady.core.plan queuedItems outSet0.cls.toNat outReady.clk.now = none)) ∧
    (Runs on viaSpi 0x0030 ∧ (1 ≤ unit0.length ∧ unit0.length ≤ 64 ∧ (unit0.map SchedEntry.octetCount).sum = 0)) ∧
    (okOf (outReady.admitUnit .spi false (dealOctets unit0 [])) = true) ∧
    (okOf (noAdmission.admitUnit .spi false (dealOctets unit0 [])) = false) ∧
    (okOf (on.admitUnit .spi false (dealOctets unit0 [])) = false) := by decide +kernel
theorem witness_CancelCommands :
    (Runs on viaSpi 0x0031 ∧ on.chanOf 96 = none ∧ on.chanOf 95 = some ⟨5, 15⟩ ∧ (List.replicate 64 (0#32 : Word)).length = 64) := by
  decide +kernel
def retiredRecord : State := withRecord on { record0 with retired := some 0, len := 7 }
def streamP : StreamOpenP := ⟨63#8, 0#8, 0#8, 0#32, 60000#32, 0#16⟩
def oneSession : State := withSession on sess0
def oneStream : State := { oneSession with core := { oneSession.core with streams := [streamOf streamP viaUdp.who] } }
theorem witness_ResultAndStreamCommands :
    (Runs on viaSpi 0x0032 ∧ on.core.fetchNext = none ∧ (355#32).toNat = 355 ∧ ¬(356#32).toNat ≤ 355) ∧
    (retiredRecord.core.fetchNext.isSome = true ∧ Runs retiredRecord viaSpi 0x0032) ∧
    (Runs oneSession viaUdp 0x0033 ∧ oneSession.streamOk viaUdp.who streamP = true ∧
      oneSession.streamOk viaUdp.who { streamP with stream := 64#8 } = false ∧
      (oneSession.core.streams.any fun y => y.n == 63 && y.isOpen) = false ∧
      Runs oneStream viaUdp 0x0034 ∧ (oneStream.core.streams.any fun y => y.n == 63 && y.isOpen) = true) := by decide +kernel
def calOn : State := inMode trained 1
/-- The String has failed, the lanes run. -/
def strFailed : State := { trained with mirror := { trained.mirror with str := { trained.mirror.str with st := .failed } } }
def calP : CalP := ⟨0#16, 0, 100, 100⟩
def pointPasses : State := withCh (clockAt on (100 * ms)) fun k => { k with
  cal := { k.cal with point := some ⟨viaSpi, false, 0, 100, 100, 0⟩, next := some (100 * ms, 1, 2 ^ 30, true) } }
theorem witness_CalibrationCommands :
    (Runs on viaSpi 0x0040 ∧ tenAfterTwenty on.clk.now % 125 = 0 ∧ on.clk.now + 20 * us ≤ tenAfterTwenty on.clk.now ∧
      ¬ 126 % 125 = 0) ∧
    (Runs calOn viaSpi 0x0041 ∧ calOn.chanOf 0 = some c0 ∧ calOn.barred 0 = none ∧ (calOn.chan c0).calible = true ∧
      (calOn.chan c0).cal.point = none ∧ (calOn.die 0).aux.suspect = false ∧ (on.chan c0).calible = false ∧
      asleep.barred 0 = some .blockOff) ∧
    (Runs on viaSpi 0x0042 ∧ on.named (.chan 0#16) = some [c0] ∧ trained.allBarred [c0] = none ∧ asleep.allBarred [c0] = some .blockOff ∧
      on.named (.chan 96#16) = none ∧
      (trained.storeSet (trained.calSet [c0] fun c => ((trained.chan c).cal.sysOff, (trained.chan c).cal.sysGain)) true).isSome = true ∧
      (trained.storeSet (trained.calSet [c0] fun _ => (0, 2 ^ 30)) true).isSome = true ∧ single.bothStores = true ∧
      trained.bothStores = true ∧ strFailed.bothStores = false ∧ strFailed.allBarred [c0] = none) ∧
    ((pointPasses.chan c0).cal.point = some ⟨viaSpi, false, 0, 100, 100, 0⟩ ∧ (pointPasses.die 0).past (100 * ms) = true ∧
        (pointPasses.die 0).past (1 + 100 * ms) = false) := by decide +kernel
def polP : PolicyP := ⟨2#8, 0#8, 1#8, 0#16, 0xFFFF#16⟩
theorem witness_LedgerCommands :
    (Runs on viaSpi 0x0050 ∧ trained.dieOf 5 = some 5 ∧ trained.barred 5 = none ∧ asleep.dieOf 0 = some 0 ∧ asleep.barred 0 = some .blockOff) ∧
    (Runs on viaSpi 0x0051 ∧ on.policyScope { polP with scope := 3#8 } = none ∧
      on.policyScope polP = some (.package 0, .hub 0 3) ∧ polP.cls.toNat = (0 : Fin 3).val + 1 ∧
      on.pageLocked (.hub 0 3) = false ∧ on.locOn (.hub 0 3) 0x40 = true ∧ (on.policyPut (.package 0) 0 ⟨0, 0xFFFF⟩).1 = none ∧
      (on.policyPut (.package 0) 0 ⟨1, 0⟩).1 ≠ none ∧
      (on.modHdr (.hub 0 3) fun h => { h with locked := true }).pageLocked (.hub 0 3) = true) := by decide +kernel
def keyed : State := { on with core := { on.core with keys := [(1, [0#8])] } }
theorem witness_LogRedundancyAndKeyCommands :
    (Runs on viaSpi 0x0070 ∧ (on.hub 0).present = true ∧ (on.hub 0).up = true ∧ on.variant.dual = true ∧
      on.active = 0 ∧ trained.strung = true ∧ on.strung = false ∧ ((on.modHub 1 fun h => { h with up := false }).hub 1).up = false) ∧
    (Runs on viaSpi 0x0082 ∧ (0#16 : BitVec 16) ≠ 0x52D7#16) ∧
    (Runs single viaSpi 0x0072 ∧ single.variant.dual = false ∧ on.standbyReady = false ∧ Runs ready viaSpi 0x0072 ∧
      ready.standbyReady = true) ∧
    Runs on viaSpi 0x0081 ∧
    (Runs keyed viaSpi 0x0080 ∧ assoc keyed.core.keys viaSpi.keyId.toNat = some [0#8] ∧ assoc keyed.core.keys (255#8).toNat = none ∧
      (1#16).toNat ≤ 3600 ∧ (3600#16).toNat ≤ 3600 ∧ 3600 < (3601#16).toNat ∧ (List.replicate 16 (0#8 : Byte)).length = 16 ∧
      keyed.core.grace = none ∧ keyed.core.keys.length < 4 ∧ (keyed.takeRole true).isSome = true) ∧
    ({ keyed with core := { keyed.core with keys := [(1, []), (2, []), (3, []), (4, [])] } } : State).core.keys.length = 4 := by
  decide +kernel
def version20 : State := withSession on { sess0 with version := 0x20 }
def tableLoadable : State := trained.modDie 5 fun k => { k with aux := { k.aux with auto := false } }
theorem witness_TimeAndAuxCommands :
    (Runs on viaSpi 0x0090 ∧ on.isV2 .spi = false ∧ on.sync.st = .unlocked ∧ on.sync.step = none ∧
      (on.hdr (.hub 0 1)).locked = false ∧ ((on.modHdr (.hub 0 1) fun h => { h with locked := true }).hdr (.hub 0 1)).locked = true) ∧
    (Runs version20 viaUdp 0x0090 ∧ version20.isV2 (.udp 0 1) = true) ∧
    (Runs on viaSpi 0x0091 ∧ [0xFF#32].all entryOk = true ∧ okOf (trained.auxTarget 5#8) = true ∧ okOf (on.auxTarget 6#8) = false ∧
      okOf (asleep.auxTarget 0#8) = false ∧ (on.die 5).aux.auto = true) ∧
    ((tableLoadable.die 5).aux.auto = false ∧ okOf (tableLoadable.auxTarget 5#8) = true ∧ Runs tableLoadable viaSpi 0x0091) ∧
    (fld 1#32 10 2 ≠ 3 ∧ (1#32 : Word) = 1#32 &&& 0xFCFF#32 ∧ slotClash (on.die 0).aux.privSh 3 0x8000#32 = false ∧
      slotClash ((on.die 0).aux.privSh.set 0 0x8000#32) 3 0x8000#32 = true) := by decide +kernel
def wakingNow : State := { on with power := { on.power with waking := some (6, none, false) } }
def wakeAsserted : State := { on with power := { on.power with wakeN := true }, core := { on.core with pwr := { on.core.pwr with wakeCfg := 0xFF } } }
theorem witness_PowerRequests :
    (Runs on viaSpi 0x0060 ∧ on.power.busy = false) ∧
    (Runs wakingNow viaSpi 0x0060 ∧ wakingNow.power.busy = true) ∧
    (on.assertedNow .sleep = none ∧ on.dieOf 5 = some 5 ∧ (on.die 5).pwr = .run) ∧
    (wakeAsserted.assertedNow .off = some 0) ∧
    (asleep.dieOf 0 = some 0 ∧ asleep.power.busy = false ∧ (asleep.die 0).pwr = .deepSleep ∧ Runs asleep viaSpi 0x0060) := by
  decide +kernel
def queued2 : State := { on with core := { on.core with cmdq := [⟨viaSpi, [3#8, 0#8, 0#8, 0#8], none⟩, ⟨viaSpi, [0x30#8, 0#8], none⟩] } }
/-- A `SessionOpen` of port 0 that waits in the queue. -/
def openBytes : List Byte := [1#8, 0#8, 0#8, 0#8, 0x32#8, 3#8, 100#8, 0#8, 1#8, 0#8, 0xFF#8, 0#8]
def queuedOpen : QueuedCmd := ⟨⟨.udp 0 0, 1#32, 1#8⟩, openBytes, some (0, 0#128, 7#16)⟩
theorem witness_CommandQueue :
    on.core.cmdq = [] ∧ State.reset.serving = false ∧
    (queued2.serving = true ∧ queued2.core.cmdq = [⟨viaSpi, [3#8, 0#8, 0#8, 0#8], none⟩, ⟨viaSpi, [0x30#8, 0#8], none⟩]) ∧
    ((⟨viaSpi, [3#8, 0#8, 0#8, 0#8], none⟩ : QueuedCmd).read (on.isV2 .spi) = (3, some .identify) ∧
      (⟨viaSpi, [0x30#8, 0#8], none⟩ : QueuedCmd).read (on.isV2 .spi) = (0x30, none)) ∧
    (queuedOpen.origin = some (0, 0#128, 7#16) ∧
      parseBody false queuedOpen.body = (1, some (.sessionOpen ⟨0x32#8, 3#8, 100#16, 1#8, 0xFF#8, 0, 0#128, 0#16⟩))) := by decide +kernel
/-- The link-local address of a port, and the ZCS port of the reset state. -/
def here : BitVec 128 := 0xFE80#16 ++ 1#112
def dgram : Datagram :=
  ⟨0x5A4C#16, 0x32#8, 1#8, 0#32, 0#32, 0#32, 1#32, 2#16, 1#8, 0#8, 0#128, [3#8, 0#8], 0#128, 0#16, here, 47000#16⟩
/-- The same with the TAG that key 1 gives it. -/
def signed : Datagram := { dgram with tag := tagOf [0#8] (dgHeader dgram) dgram.body }
theorem witness_authentic : keyed.core.authentic signed = true := by
  have e : dgHeader signed = dgHeader dgram := by simp only [dgHeader, signed]
  have f : assoc keyed.core.keys signed.keyId.toNat = some [0#8] := by decide +kernel
  unfold Core.authentic
  rw [f, e]
  simp only [signed, dgram]
  simp
def linked1 : State := { keyed with net := { keyed.net with ports := keyed.net.ports.map fun p => { p with link := true } } }
def duplicateSeen : State := { linked1 with net := { linked1.net with mode := 1, dup := [(1, 0)] } }
def linkedSession : State := withSession linked1 sess0
/-- The relay queue holds n octets; 32 commands wait; a tunnel request has waited for 100 ms. -/
def relayFull (n : Nat) : State := { linked1 with net := { linked1.net with relay := [(1, dgram, n)] } }
def queueFull : State := { linked1 with core := { linked1.core with cmdq := List.replicate 32 ⟨viaSpi, [3#8, 0#8, 0#8, 0#8], none⟩ } }
def tunnelMsg : TunnelMsg := ⟨0x5A4C#16, 0x32#8, 1#8, 0#32, 0#32, 0#32, 2#32, 2#16, 0#8, 0#8, [3#8, 0#8]⟩
def heldTunnel : State := { clockAt on (100 * ms) with core := { on.core with spi := { on.core.spi with held := [(2, 0, tunnelMsg)] } } }
def heldRequest : State := withSession (clockAt on (100 * ms)) { sess0 with held := [(2, 0, dgram)] }
theorem witness_DatagramsReceived :
    (on.hears 0 dgram = false ∧ linked1.hears 0 dgram = true ∧ linked1.hears 0 { dgram with dstPort := 47001#16 } = false ∧
      linked1.hears 0 { dgram with dst := 0#128 } = false ∧ linked1.portOwner 0 = linked1.active ∧ linked1.serving = true ∧ (linked1.net.discard dgram.tag.toNat 0 linked1.clk.elapsed).2 = false ∧
      linked1.core.authentic { dgram with magic := 0#16 } = false) ∧
    (linked1.hears 1 dgram = true ∧ linked1.portOwner 1 ≠ linked1.active ∧
      linked1.net.relayOctets + wireOctets dgram.body.length (linked1.net.mode == 1) ≤ 65536 ∧
      65536 < (relayFull 65500).net.relayOctets + wireOctets dgram.body.length ((relayFull 65500).net.mode == 1) ∧
      (relayFull 65500).hears 1 dgram = true ∧ linked1.portSends 0 = true) ∧
    (duplicateSeen.hears 0 dgram = true ∧ (duplicateSeen.net.discard dgram.tag.toNat 0 duplicateSeen.clk.elapsed).2 = true) ∧
    (dgram.session = 0#32 ∧ dgram.epoch = 0#32 ∧ dgram.boot = 0#32 ∧ linked1.core.cmdq.length < 32 ∧ 32 ≤ queueFull.core.cmdq.length ∧
      parseBody false openBytes = (1, some (.sessionOpen ⟨0x32#8, 3#8, 100#16, 1#8, 0xFF#8, 0, 0#128, 0#16⟩)) ∧
      linked1.sessionFor { dgram with session := 1#32 } = none) ∧
    (linkedSession.sessionFor { dgram with session := 1#32, epoch := 1#32, boot := BitVec.ofNat 32 linkedSession.act.nv.boot } = some 0 ∧
        (linkedSession.heard 0).core.session 0 = some sess0) ∧
    (heldRequest.serving = true ∧ (sess0.held.any fun h => h.1 == 2) = false ∧
        ([(2, 0, dgram)].any fun (h : Nat × Nat × Datagram) => h.1 == 2 && decide (h.2.1 + 100 * ms ≤ heldRequest.clk.elapsed)) = true) ∧
    (heldTunnel.serving = true ∧
      (heldTunnel.core.spi.held.any fun h => h.1 == 2 && decide (h.2.1 + 100 * ms ≤ heldTunnel.clk.elapsed)) = true) ∧
    (assoc ([] : List (Nat × Response)) 1 = none ∧ assoc [(1, resp 3 .ok [])] 1 = some (resp 3 .ok []) ∧
      on.responseHeld .spi 1 = false) := by
  decide +kernel
theorem witness_DatagramsReceived_seq :
    ((2 + 2 ^ 32 - sess0.next) % 2 ^ 32 = 1 ∧ (1 + 2 ^ 32 - sess0.next) % 2 ^ 32 = 0 ∧
      (2 ^ 32 - 15 + 2 ^ 32 - sess0.next) % 2 ^ 32 = 2 ^ 32 - 16 ∧ (9 + 2 ^ 32 - sess0.next) % 2 ^ 32 = 8) := by decide
def tunnelWaits : State := on.respond viaSpi (resp 3 .ok [])
theorem witness_HostSpi :
    State.reset.spiAlive 0 = false ∧ (on.spiAlive 0 = true ∧ on.active = 0 ∧ on.serving = true ∧ on.core.spi.tunnel = [] ∧
      on.core.spi.evq = []) ∧ (on.spiAlive 1 = true ∧ (1 : HubId) ≠ on.active) ∧
    (tunnelWaits.core.spi.tunnel.length = 1 ∧ tunnelWaits.spiAlive 0 = true) := by decide +kernel

/-! ### Witnesses: lanes, hubs, time and links -/

/-- Lane 0 of hub 0 changed. -/
def withLane (s : State) (f : Lane → Lane) : State := s.modLane 0 0 f
def withDie (s : State) (f : Die → Die) : State := s.modDie 0 f
def laneFrame : State := withLane trained fun l => { l with timeFrame := some 77 }
def coastAt16 := clockAt trained (16 * us)
def coastingFrame : State := withDie laneFrame fun d => { d with coasting := true }
def stringTime : State := { trained with mirror := { trained.mirror with str := { trained.mirror.str with timeFrame := some 77 } } }
/-- The down flow of lane 0 of hub 0 has lost a frame. -/
def lostDown (s : State) : State := withLane s fun l => { l with down := l.down.lose }
theorem witness_LaneFrames :
    (trained.serving = true ∧ trained.linked trained.active 5 = true ∧ on.linked on.active 0 = false ∧
      (trained.die 0).laneOn = true ∧ (State.reset.die 0).laneOn = false ∧ trained.linked 1 0 = true ∧ (1 : HubId) ≠ trained.active) ∧
    ((withDie trained fun d => { d with holder := none, lossFrom := some 0 }).timeMaster = none ∧ trained.timeMaster = some 0 ∧ trained.linked 0 0 = true ∧ on.linked 0 0 = false) ∧
    ((laneFrame.lane 0 0).timeFrame = some 77 ∧ laneFrame.linked 0 0 = true ∧ (trained.lane 0 0).timeFrame = none) ∧
    ((coastAt16.die 0).laneOn = true ∧ (coastAt16.die 0).coasting = false ∧
      (coastAt16.die 0).lastTime + 16 * us ≤ coastAt16.clk.elapsed) ∧
    ((coastingFrame.die 0).coasting = true ∧ (coastingFrame.lane 0 0).timeFrame = some 77 ∧ coastingFrame.linked 0 0 = true) ∧
    (stringTime.variant.dual = true ∧ stringTime.mirror.str.st = .trained ∧ stringTime.timeMaster = some stringTime.active ∧
      stringTime.mirror.str.timeFrame = some 77 ∧ (stringTime.hub (other stringTime.active)).up = true) := by
  decide +kernel
def skewed (run : Nat) (skews : List Nat) : State := { on with core := { on.core with
  shadow := vmod on.core.shadow 0 fun v => vmod v 0 fun _ => ⟨5#32, run, skews, none⟩ } }
theorem witness_StateShadow :
    (skewed 3 [0, 0, 0]).core.shadow[0][0] = ⟨5#32, 3, [0, 0, 0], none⟩ ∧ (skewed 4 [0, 0]).core.shadow[0][0] = ⟨5#32, 4, [0, 0], none⟩ ∧
    (6#32 : Word) ≠ 5#32 ∧
    (([0, 0, 0] : List Nat).filter fun t => decide ((skewed 4 [0, 0, 0]).clk.elapsed < t + sec)).length = 3 ∧
    (([0, 0] : List Nat).filter fun t => decide ((skewed 4 [0, 0]).clk.elapsed < t + sec)).length = 2 ∧
    trained.linked trained.active 5 = true := by decide +kernel
def admitted : State := { withEntry (trained.modHub 1 fun h => { h with hstate := .detached }) entry0 with clk := { trained.clk with now := 1000000 } }
def mirrored : State := { withEntry ready entry0 with clk := { trained.clk with now := 1000000 } }
def promoting (n : Nat) : State := withLane (withEntry trained { entry0 with phase := .promoting, promo := some 0 }) fun l =>
  { l with promo := [(5, n)] }
def outSetBefore := { outSet0 with time := 999999#64 }
def entryBefore := { entry0 with e := outSetBefore, id := 4 }
theorem witness_Promotion :
    (admitted.core.entry 5 = some entry0 ∧ admitted.promoDue entry0 = true ∧
      (∀ x ∈ admitted.core.entries, x.ch.die = entry0.ch.die → admitted.promoDue x = true → x.goesBefore entry0 = false) ∧
      admitted.mirroring = false ∧ (∀ p ∈ (admitted.lane admitted.active 0).promo, p.2 < 4)) ∧
    (mirrored.core.entry 5 = some entry0 ∧ mirrored.promoDue entry0 = true ∧ mirrored.mirroring = true ∧
      (∀ p ∈ (mirrored.lane mirrored.active 0).promo, p.2 < 4)) ∧
    ((withEntry on entry0).core.entry 5 = some entry0 ∧ (withEntry on entry0).promoDue entry0 = false ∧ on.core.entry 5 = none) ∧
    (entryBefore.goesBefore entry0 = true) ∧
    ((promoting 1).linked 0 0 = true ∧ ((promoting 1).lane 0 0).down.canSend = true ∧ ((promoting 1).lane 0 0).down.inSeq = true ∧
      ((lostDown (promoting 1)).lane 0 0).down.canSend = true ∧ ((lostDown (promoting 1)).lane 0 0).down.inSeq = false ∧
      ((promoting 1).die 0).holder = some 0 ∧ ((promoting 1).lane 0 0).promo = [(5, 1)] ∧
      ((promoting 1).coreOf 0).entry 5 = some { entry0 with phase := .promoting, promo := some 0 } ∧
      ((promoting 4).lane 0 0).promo = [(5, 4)] ∧
      ((withDie (promoting 4) fun d => { d with holder := some 1 }).die 0).holder ≠ some 0) := by decide +kernel
def someRec : LogRec := ⟨0, 0x0301, 0, 0, 0, [], none⟩
/-- A frame of die 0 was lost before the one that leaves next. -/
def numberedUp (s : State) : State := withDie (withLane s fun l => { l with up := l.up.lose }) fun d => { d with resend := [(9, .event someRec)] }
def answering (p : Nat) (wr : Bool) : State := withDie trained fun d => { d with mgmt := [(p, 0x40, wr, 7#32)] }
theorem witness_ManagementFrames :
    (trained.linked 0 0 = true ∧ (trained.lane 0 0).down.canSend = true ∧ (trained.lane 0 0).down.inSeq = true ∧
      (trained.lane 0 0).mgmtSlot trained.clk.elapsed = true ∧ ((lostDown trained).lane 0 0).down.canSend = true ∧
      ((lostDown trained).lane 0 0).down.inSeq = false ∧ ((lostDown trained).lane 0 0).mgmtSlot trained.clk.elapsed = true ∧
      (trained.die 0).holder = some 0 ∧ (leased1.die 0).holder ≠ some 0 ∧ on.linked 0 0 = false ∧
      ((promoting 4).lane 0 0).mgmtSlot 0 = false) ∧
    ((answering 1 true).upNext 0 = some (0, .mgmt 1 0x40 true 7#32) ∧ ((answering 1 true).lane 0 0).up.inSeq = true ∧
      (answering 1 false).upNext 0 = some (0, .mgmt 1 0x40 false 7#32) ∧ trained.upNext 0 = none) ∧
    ((numberedUp (answering 1 true)).upNext 0 = some (0, .mgmt 1 0x40 true 7#32) ∧
      ((numberedUp (answering 1 true)).lane 0 0).up.inSeq = false) := by decide +kernel
def sending (x : LaneItem) : State := withRecord (withDie trained fun d => { d with fifo := [x] }) { record0 with len := 6 }
def eventWaits := withDie trained fun d => { d with evq := [.event someRec] }
theorem witness_FramesOfADie :
    (trained.upNext 0 = none ∧ on.upNext 0 = none ∧ trained.active = 0) ∧
    ((sending (.result 5 [] 0 0 1 0)).upNext 0 = some (0, .result 5 [] 0 0 1 0) ∧
      ((sending (.result 5 [] 0 0 1 0)).lane 0 0).up.inSeq = true ∧
      (numberedUp (sending (.result 5 [] 0 0 1 0))).upNext 0 = some (0, .result 5 [] 0 0 1 0) ∧
      ((numberedUp (sending (.result 5 [] 0 0 1 0))).lane 0 0).up.inSeq = false) ∧
    ((sending (.capture 5 0 0 true 0 true)).upNext 0 = some (0, .capture 5 0 0 true 0 true) ∧
      (((sending (.capture 5 0 0 true 0 true)).takeUp 0 0 (.capture 5 0 0 true 0 true)).core.record 5).isSome = true) ∧
    ((sending (.angle 5 [] 0 0 1)).upNext 0 = some (0, .angle 5 [] 0 0 1)) ∧
    (eventWaits.upNext 0 = some (0, .event someRec)) := by
  decide +kernel
def badRun : State := withLane trained fun l => { l with down := { l.down with crcRun := 16 } }
def retraining (n : Nat) : State := withLane trained fun l => { l with st := .training, failRun := n }
def failedLane : State := withLane (clockAt trained (10 * ms)) fun l => { l with st := .failed }
def failedNow : State := withLane trained fun l => { l with st := .failed }
/-- A Replay request of lane 0 is due. -/
def asked (dir : Dir) : State := nextOf (exec (.frameCrcFail (.lane 0 0) dir true) (answering 1 true))
def placeTaken := withLane trained fun l => { l with up := { l.up with places := 1 } }
theorem witness_LaneCreditsAndTraining :
    ((trained.link (.lane 0 0)).st = .trained ∧ (on.link (.lane 0 0)).st ≠ .trained ∧
      (trained.mirror.held.countP (·.2 == .consume 0)) = 0 ∧ (trained.lane 0 0).up.places ≤ 0 ∧
      (0 < (placeTaken.lane 0 0).up.places)) ∧
    (trained.hasFrame (.lane 0 0) .up = false ∧ trained.hasFrame (.lane 0 0) .down = true ∧
      (answering 1 true).hasFrame (.lane 0 0) .up = true ∧ trained.hasFrame .string .down = true ∧
      ((asked .down).link (.lane 0 0)).down.replay = some (0 : Fin 16).val ∧ ((asked .up).link (.lane 0 0)).up.replay = some (0 : Fin 16).val ∧
      ((asked .up).link (.lane 0 0)).st = .trained ∧ (trained.lane 0 0).down.replay ≠ some 0 ∧ (trained.lane 0 0).up.replay ≠ some 0) ∧
    ((badRun.lane 0 0).st = .trained ∧ 16 ≤ (badRun.lane 0 0).down.crcRun ∧ (trained.lane 0 0).down.crcRun < 16 ∧
      (trained.lane 0 0).up.crcRun < 16) ∧
    ((on.lane 0 0).st ≠ .trained ∧ (on.hub 0).present = true ∧ (on.hub 0).up = true ∧ (on.die 0).laneOn = true) ∧
    (((retraining 3).lane 0 0).st = .training ∧ 3 ≤ ((retraining 3).lane 0 0).failRun ∧ ((retraining 2).lane 0 0).failRun < 3 ∧
      ((retraining 2).hub 0).up = true ∧ ((retraining 2).die 0).present = true ∧ ((retraining 2).die 0).holder = some 0 ∧
      (retraining 2).core.redun.laneSwitch = true ∧ ((retraining 2).lane (other 0) 0).st = .trained) ∧
    ((failedLane.lane 0 0).st = .failed ∧ (failedLane.hub 0).up = true ∧ (failedLane.lane 0 0).failAt + 10 * ms ≤ failedLane.clk.elapsed ∧
      (failedNow.lane 0 0).st = .failed ∧ failedNow.clk.elapsed < (failedNow.lane 0 0).failAt + 10 * ms ∧ trained.linked 0 0 = true ∧ on.linked 0 0 = false) := by
  decide +kernel
def leaseSt (m : LeaseMsg) (h : Option HubId) : State := withDie (withLane trained fun l => { l with lease := some m }) fun d =>
  { d with holder := h }
/-- A kept GRANT to hub g goes out again on lane 0 of hub 0. -/
def numberedGrant (g : HubId) : State := withDie trained fun d => { d with resend := [(9, .grant g 0)] }
def upNextIs (s : State) : Option (HubId × LaneItem) := s.upNext 0
def granting : State := withLane trained fun l => { l with grant := some 0 }
def leaseAt200 := withDie (clockAt trained (200 * us)) fun d => { d with renewAt := 0 }
theorem witness_FieldLeases :
    (trained.renews 0 = true ∧ State.reset.renews 0 = false ∧
      ((trained.modHub 1 fun h => { h with claiming := some (0, 0, none, 0) }).claims 1 = true) ∧ trained.claims 1 = false) ∧
    (((leaseSt .renew (some 0)).lane 0 0).lease = some .renew ∧ (leaseSt .renew (some 0)).linked 0 0 = true ∧
      ((leaseSt .renew (some 0)).lane 0 0).down.canSend = true ∧ ((leaseSt .renew (some 0)).lane 0 0).down.inSeq = true ∧
      ((leaseSt .renew (some 0)).lane 0 0).mgmtSlot 0 = true ∧ ((lostDown (leaseSt .renew (some 0))).lane 0 0).down.canSend = true ∧
      ((lostDown (leaseSt .renew (some 0))).lane 0 0).down.inSeq = false ∧ ((lostDown (leaseSt .renew (some 0))).lane 0 0).mgmtSlot 0 = true ∧ ((leaseSt .renew (some 0)).die 0).holder = some 0 ∧
      ((leaseSt .renew (some 1)).die 0).holder ≠ some 0) ∧
    (((leaseSt (.release 0) (some 0)).lane 0 0).lease = some (.release 0) ∧
      ((leaseSt (.claim 65535) none).lane 0 0).lease = some (.claim 65535) ∧ ((leaseSt (.claim 65535) none).die 0).holder = none ∧
      ((leaseSt (.claim 0) (some 1)).die 0).holder = some (other 0) ∧ (trained.lane 0 0).lease = none) ∧
    ((leaseAt200.die 0).holder ≠ none ∧ (leaseAt200.die 0).pwr ≠ .deepSleep ∧ (leaseAt200.die 0).renewAt + 200 * us ≤ leaseAt200.clk.elapsed) ∧
    (granting.upNext 0 = some (0, .grant 0 0) ∧ (granting.lane 0 0).up.inSeq = true ∧ (numberedUp granting).upNext 0 = some (0, .grant 0 0) ∧
      ((numberedUp granting).lane 0 0).up.inSeq = false ∧ (upNextIs (numberedGrant 1)) = some (0, .grant 1 0) ∧ trained.upNext 0 = none) := by
  decide +kernel
def beat : State := trained.modHub 1 fun h => { h with hbSent := some (0, 1, 0) }
def lostHub (ato : Bool) : State := { (ready.modHub 1 fun h => { h with hbMiss := 8 }) with
  copy := { ready.copy with redun := { ready.copy.redun with autoTakeover := ato } } }
def stoppedHub (ato : Bool) : State := (lostHub ato).modHub 0 fun h => { h with up := false, hstate := .failed }
def claimingAt (t : Nat) : State := (clockAt ready t).modHub 1 fun h => { h with
  tdet := some 0, lanes := h.lanes.map fun l => { l with report := BitVec.ofNat 64 (leaseReport (ready.die 0) 0) } }
def beatDue := clockAt trained (11 * us)
def claimLate := (clockAt trained (200 * us)).modHub 1 fun h => { h with tdet := some 0 }
theorem witness_HeartbeatsAndTakeover :
    (beat.strung = true ∧ (beat.hub (other 0)).hbSent = some (0, 1, 0) ∧ on.strung = false ∧ (trained.hub (other 0)).hbSent = none) ∧
    (beatDue.variant.dual = true ∧ (beatDue.hub 1).present = true ∧ (beatDue.hub 1).up = true ∧
      (beatDue.hub 1).hbAt - (beatDue.hub 1).hbTime % (10 * us) + ((beatDue.hub 1).hbMiss + 1) * (10 * us) + us ≤ beatDue.clk.elapsed) ∧
    ((lostHub true).standbyReady = true ∧ 8 ≤ ((lostHub true).hub 1).hbMiss ∧ ((lostHub true).hub 1).tdet = none ∧
      (lostHub true).switching = false ∧ (lostHub true).serving = true ∧ (stoppedHub true).serving = false ∧
      (stoppedHub true).standbyReady = true ∧ (stoppedHub true).switching = false ∧ (lostHub true).copy.redun.autoTakeover = true ∧
      (lostHub false).copy.redun.autoTakeover = false ∧ (1 : HubId) = other (lostHub true).active) ∧
    (((claimingAt (200 * us)).hub 1).tdet = some 0 ∧ 0 + 200 * us ≤ (claimingAt (200 * us)).clk.elapsed ∧
      (∃ d ∈ (claimingAt (200 * us)).presentDies, reportHolder ((claimingAt (200 * us)).lane 1 d) = (claimingAt (200 * us)).active.val ∧
        reportAge ((claimingAt (200 * us)).lane 1 d) < 200) ∧ (claimingAt (200 * us - 1)).clk.elapsed < 0 + 200 * us) ∧
    (∀ d ∈ claimLate.presentDies, reportHolder (claimLate.lane 1 d) = claimLate.active.val → 200 ≤ reportAge (claimLate.lane 1 d)) := by decide +kernel
def unit9 : MUnit := ⟨9, Core.reset, []⟩
def wired : State := { trained with mirror := { trained.mirror with wire := [unit9] } }
def received : State := { wired with mirror := { wired.mirror with rx := some unit9 } }
/-- A frame of either direction of the String was lost. -/
def strLost (s : State) : State := { s with mirror := { s.mirror with str := { s.mirror.str with
  down := s.mirror.str.down.lose, up := s.mirror.str.up.lose } } }
def applied : State := { trained with mirror := { trained.mirror with applied := 1 } }
def syncing : State := trained.modHub 1 fun h => { h with hstate := .syncing }
theorem witness_Mirroring :
    (wired.mirror.wire = [unit9] ∧ wired.strung = true ∧ wired.mirror.rx = none ∧ (wired.strFlow wired.active).canSend = true ∧
      (wired.strFlow wired.active).inSeq = true ∧ ((strLost wired).strFlow 0).canSend = true ∧ ((strLost wired).strFlow 0).inSeq = false ∧
      (strLost wired).strung = true) ∧
    (received.mirror.rx = some unit9 ∧ received.strung = true ∧ (received.strFlow received.active).canSend = true ∧
      (received.strFlow received.active).inSeq = true ∧ ((strLost received).strFlow 0).canSend = true ∧ ((strLost received).strFlow 0).inSeq = false) ∧
    (applied.strung = true ∧ applied.mirror.acked < applied.mirror.applied ∧ trained.mirror.applied ≤ trained.mirror.acked) ∧
    (syncing.strung = true ∧ (syncing.hub 1).hstate = .syncing ∧ ∀ d ∈ syncing.presentDies, (syncing.lane 1 d).st = .trained ∨ (syncing.die d).pwr ≠ .run) ∧
    (trained.variant.dual = true ∧ trained.mirror.str.st ≠ .failed ∧ trained.serving = true ∧ single.variant.dual = false) ∧
    (on.mirror.str.st ≠ .trained ∧ (on.hub 0).up = true ∧ (on.hub 1).up = true ∧ on.power.st ≠ .deepSleep ∧ on.power.st ≠ .off) := by
  decide +kernel
def hubFailed : State := trained.modHub 1 fun h => { h with up := false, hstate := .failed }
def bothFailed : State := (hubFailed.modHub 0 fun h => { h with up := false, hstate := .failed })
def roleAt (t : Nat) : State := (clockAt trained t).modHub 0 fun h => { h with nvLock := some 100, keyRole := some 100 }
theorem witness_HubRolesAndRestarts :
    (trained.strung = true ∧ (trained.strFlow (other 0)).canSend = true ∧ (trained.strFlow (other 1)).canSend = true ∧
      (trained.strFlow (other 0)).inSeq = true ∧ (trained.strFlow (other 1)).inSeq = true ∧ ((strLost trained).strFlow 1).inSeq = false ∧
      ((strLost trained).strFlow 1).canSend = true ∧ other 0 ≠ trained.active ∧ trained.mirror.wire = [] ∧ on.strung = false) ∧
    (((roleAt 100).hub 0).nvLock = some 100 ∧ ((roleAt 100).hub 0).keyRole = some 100 ∧ 100 ≤ (roleAt 100).clk.elapsed ∧
      (roleAt 99).clk.elapsed < 100 ∧ (trained.hub 1).nvLock = none ∧ (trained.hub 1).keyRole = none) ∧
    ((hubFailed.hub 1).present = true ∧ hubFailed.power.boot = .complete ∧ (hubFailed.hub 1).up = false ∧
      (hubFailed.hub 1).hstate = .failed ∧ (hubFailed.hub (other 1)).up = true ∧ (hubFailed.hub (other 1)).hstate = .active) ∧
    ((bothFailed.hub 0).present = true ∧ (bothFailed.hub 0).hstate = .failed ∧ (bothFailed.hub (other 0)).up = false) ∧
    ((trained.hub 0).present = true ∧ (trained.hub 0).up = true ∧ ({ trained with core := { trained.core with redun := ⟨true, true, false⟩ } } : State).core.redun.faultSwitch = false ∧
      (trained.hub 1).up = true ∧ trained.awake = true ∧ (trained.coreOf 0).cmdq = [] ∧ ({ trained with power := { trained.power with st := .sleep } } : State).awake = false) := by
  decide +kernel
def audited : State := { trained with core := { trained.core with audit := [(viaSpi, 0)] } }
def auditLater := { trained with core := { trained.core with audit := [(viaSpi, 1)] } }
theorem witness_PoolChecks :
    (trained.poolsHeld = true ∧ trained.clk.now % iv = 0 ∧ trained.checkDie = 0 ∧ (5 : DieId) ≠ trained.checkDie ∧
      (trained.die 0).on = true ∧ (trained.die 5).on = true ∧ (asleep.die 0).on = false ∧ State.reset.poolsHeld = false) ∧
    (trained.dieFails 0 = 0 ∧ (withDie trained fun d => { d with ntqPool := ⟨255, 0, 0⟩ }).dieFails 0 ≠ 0 ∧
      trained.hubFailsOf 0 = 0 ∧ trained.hubFailsOf 1 = 0 ∧ (trained.hub 1).present = true ∧ (trained.hub 1).up = true) ∧
    (audited.core.audit = [(viaSpi, 0)] ∧ audited.serving = true ∧ 0 ≤ audited.clk.now ∧ trained.core.audit = []) ∧
    (auditLater.core.audit = [(viaSpi, 1)] ∧
      auditLater.clk.now < 1) := by decide +kernel
/-- An Announce of profile 802.1AS; one of IEEE 1588. -/
def ptpAnn : Announce := ⟨1#4, 0#8, 0, 0#64, 0, .ethernet⟩
def ptpAnn2 : Announce := ⟨0#4, 3#8, 0, 0#64, 0, .udp4⟩
/-- Port 0 speaks a profile, in state st. -/
def ptpIn (st : PortState) (t : Nat) : State := { clockAt trained t with
  core := { trained.core with net := { trained.core.net with ports := trained.core.net.ports.map fun p => { p with en := true } } }
  net := { trained.net with ports := trained.net.ports.map fun p => { p with link := true } }
  sync := { trained.sync with ports := vmod trained.sync.ports 0 fun p => { p with
    st := st, act := 1, interval := 100, syncFrom := 0, ann := some ptpAnn, annInterval := 100, annFrom := 0, faultyAt := 0 } } }
def syncIs (x : SyncState) (good bad : Nat) : State := { trained with sync := { trained.sync with st := x, good := good, bad := bad } }
def stepping (t : Nat) : State := { clockAt trained t with sync := { trained.sync with step := some (100, 5) } }
def synced (t : Nat) : State := { clockAt trained t with sync := { trained.sync with syncLast := some 0 } }
def held : State := { clockAt trained (trained.core.time.holdMax * sec) with sync := { trained.sync with st := .holdover, since := 0 } }
theorem witness_TimeTransfer :
    (State.reset.ptpLive 0 = false) ∧
    (syncIs .acquiring 15 0).sync.st = .acquiring ∧ (60 : Int).natAbs ≤ 60 ∧ 15 ≤ (syncIs .acquiring 15 0).sync.good ∧
    (syncIs .acquiring 15 0).sync.step = none ∧ (syncIs .acquiring 14 0).sync.good < 15 ∧ 60 < (61 : Int).natAbs ∧
    (60 : Int).natAbs ≤ (syncIs .acquiring 14 0).core.time.stepThr ∧
    (syncIs .acquiring 14 0).core.time.stepThr < ((syncIs .acquiring 14 0).core.time.stepThr + 1 : Int).natAbs ∧
    ((syncIs .locked 0 2).sync.st = .locked ∧ (syncIs .locked 0 2).sync.bad < 3 ∧ 3 ≤ (syncIs .locked 0 3).sync.bad ∧
      (3000 : Int).natAbs ≤ 3000 ∧ 3000 < (-3001 : Int).natAbs ∧ (syncIs .locked 0 3).sync.step = none) ∧
    ((syncIs .unlocked 0 0).sync.st = .unlocked ∧ (stepping 100).sync.step ≠ none) ∧
    (held.sync.st = .holdover ∧ held.sync.since + held.core.time.holdMax * sec ≤ held.clk.elapsed ∧ held.serving = true) ∧
    ((stepping 100).sync.step = some (100, 5) ∧ 100 ≤ (stepping 100).clk.now ∧ (stepping 99).clk.now < 100) ∧
    ((synced (us - 1)).sync.syncLast = some 0 ∧ (synced (us - 1)).clk.elapsed < 0 + us ∧ 0 + us ≤ (synced us).clk.elapsed ∧
      trained.sync.syncLast = none) := by decide +kernel
def faultyFor1s := ptpIn .faulty sec
theorem witness_TimeTransfer_ports :
    ((ptpIn .slave 300).ptpLive 0 = true ∧ intervalOk 1 (-3) = true ∧ ((ptpIn .slave 300).sync.ports[0]).act = 1 ∧
      ((ptpIn .slave 300).sync.ports[0]).st = .slave ∧ (ptpIn .slave 300).serving = true ∧
      ((ptpIn .slave 300).sync.ports[0]).syncFrom + 3 * ((ptpIn .slave 300).sync.ports[0]).interval ≤ (ptpIn .slave 300).clk.elapsed ∧
      ((ptpIn .slave 300).sync.ports[0]).ann ≠ none ∧ (ptpIn .slave 300).mediaOk 0 1 .ethernet = true ∧
      (ptpIn .slave 300).mediaOk 0 1 .udp4 = false ∧ (ptpIn .master 300).ptpLive 0 = true ∧
      (((ptpIn .slave 300).sync.ports[0]).learn ptpAnn).hears ptpAnn.majorSdoId ptpAnn.domain = true ∧
      (((ptpIn .slave 300).sync.ports[0]).learn ptpAnn2).hears ptpAnn2.majorSdoId ptpAnn2.domain = false ∧
      ((ptpIn .slave 300).sync.ports[0]).hears 1#4 0#8 = true ∧ ((ptpIn .slave 300).sync.ports[0]).hears 1#4 3#8 = false ∧
      ((ptpIn .slave 300).sync.ports[0]).annFrom + 3 * ((ptpIn .slave 300).sync.ports[0]).annInterval ≤ (ptpIn .slave 300).clk.elapsed) ∧
    ((faultyFor1s.sync.ports[0]).st = .faulty ∧ (faultyFor1s.sync.ports[0]).faultyAt + sec ≤ faultyFor1s.clk.elapsed) := by
  decide +kernel
def silent (t : Nat) : State := withSession (clockAt on t) { sess0 with ka := 100, retry := 3 }
def graced (t : Nat) : State := { clockAt keyed t with core := { keyed.core with grace := some (1, 2, 100, .spi) } }
def linkedUp : State := { trained with net := { trained.net with ports := trained.net.ports.map fun p => { p with link := true } } }
def supers (m t : Nat) : State := { clockAt trained t with net := { trained.net with mode := m, superAt := 0 } }
/-- A received frame, and one that is to leave by port 1, have n octets for Port relay frames to carry. -/
def relaying (n : Nat) : State := { trained with net := { trained.net with
  relay := [(1, dgram, n)]
  egress := trained.net.egress.set 1 [(n, .supervision 1)] } }
theorem witness_LinksAndSessions :
    ((silent (300 * ms)).core.session 0 = some { sess0 with ka := 100, retry := 3 } ∧ (silent (300 * ms)).serving = true ∧
      (silent (300 * ms)).lossDue { sess0 with ka := 100, retry := 3 } = true ∧
      (silent (300 * ms)).clk.elapsed < sess0.lastRx + 3 * sec ∧ sess0.lastRx + 3 * sec ≤ (silent (3 * sec)).clk.elapsed ∧
      State.reset.serving = false ∧ on.core.session 0 = none) ∧
    ((graced 100).core.grace = some (1, 2, 100, .spi) ∧ (graced 100).serving = true ∧ 100 ≤ (graced 100).clk.elapsed ∧
      (graced 99).clk.elapsed < 100 ∧ on.core.grace = none) ∧
    ((linkedUp.net.ports[0]).link = true ∧ (linkedUp.hub (linkedUp.portOwner 0)).up = true ∧ linkedUp.serving = true ∧
      (trained.net.ports[0]).link = false) ∧
    (trained.clk.now % ((trained.core.net.ports[0]).cycle * us) = 0) ∧
    ((supers 2 (2 * sec)).serving = true ∧ (supers 2 (2 * sec)).net.mode ≠ 0 ∧
      (supers 2 (2 * sec)).net.superAt + 2 * sec ≤ (supers 2 (2 * sec)).clk.elapsed) ∧
    (trained.variant.dual = true ∧ trained.portOwner 1 ≠ trained.active ∧ (trained.hub (trained.portOwner 1)).up = true ∧
      trained.act.up = true ∧ trained.strung = true ∧ (trained.strFlow trained.active).canSend = true ∧
      (trained.strFlow trained.active).inSeq = true ∧ trained.mirror.wire = [] ∧ ((strLost trained).strFlow 0).inSeq = false ∧
      ((strLost trained).strFlow 0).canSend = true ∧
      (relaying 9).relayWaits 1 true = true ∧ trained.relayWaits 1 true = false ∧ trained.relayWaits 1 false = false ∧
      (relaying 9).net.relay = [(1, dgram, 9)] ∧ 8 < 9 ∧ 8 ≤ 8 ∧ (relaying 9).strung = true ∧ (relaying 9).mirror.wire = [] ∧
      ((relaying 9).strFlow (relaying 9).active).canSend = true ∧ ((relaying 9).strFlow (relaying 9).active).inSeq = true ∧
      on.strung = false ∧ (trained.strFlow (trained.portOwner 1)).canSend = true ∧ (trained.strFlow (trained.portOwner 1)).inSeq = true ∧
      ((strLost trained).strFlow (trained.portOwner 1)).canSend = true ∧
      ((strLost trained).strFlow (trained.portOwner 1)).inSeq = false) := by decide +kernel
def enabledPorts : State := { trained with core := { trained.core with net := { trained.core.net with
  ports := trained.core.net.ports.map fun p => { p with en := true } } } }
def linkedEnabled : State := { enabledPorts with net := linkedUp.net }
theorem witness_LinksAndSessions_ports :
    enabledPorts.portRuns 0 = true ∧ (enabledPorts.net.ports[0]).link = false ∧ linkedEnabled.portRuns 0 = true ∧
      (linkedEnabled.net.ports[0]).link = true ∧
      (enabledPorts.core.net.ports[0]).speedMax ≤ Speed.toNat .g1 := by decide +kernel

/-- An open stream to session 0, with a record that it carries; a session with an event waiting; ports 0 and 1 linked. -/
def streaming : State := { linkedSession with core := { linkedSession.core with
  streams := [streamOf { streamP with stream := 1#8, bandwidth := 1000#32 } (.udp 0 1)]
  records := [{ record0 with dest := 1, retired := some 0, len := 7 }] } }
def eventsWait : State := withSession { linked1 with core := { linked1.core with spi := { linked1.core.spi with evq := [someRec] } } } { sess0 with evq := [someRec] }
def logging (f : Log → Log) (t : Nat) : State := (clockAt trained t).modHub 0 fun h => { h with log := f h.log }
def stagedLog (rest : List LogRec) : State := logging (fun l => { l with staged := someRec :: rest }) 0
def copying (last : Option Nat) (t : Nat) : State := logging (fun l => { l with bbWait := [someRec], bbLast := last }) t
theorem witness_BlocksAndEvents :
    ((streaming.core.streams.find? fun z => z.n == 1 && z.isOpen && !z.suspended) = some (streamOf { streamP with stream := 1#8, bandwidth := 1000#32 } (.udp 0 1)) ∧
      streaming.core.session 0 = some sess0 ∧ (streaming.core.nextBlock (streamOf { streamP with stream := 1#8, bandwidth := 1000#32 } (.udp 0 1))).isSome = true ∧
      streaming.serving = true ∧ streaming.streamLeaves (streamOf { streamP with stream := 1#8, bandwidth := 1000#32 } (.udp 0 1))
        ((streaming.core.nextBlock (streamOf { streamP with stream := 1#8, bandwidth := 1000#32 } (.udp 0 1))).elim 0 fun b => b.2.wire false) = true ∧
      streaming.net.mode ≠ 1 ∧ linkedSession.core.nextBlock (streamOf { streamP with stream := 1#8, bandwidth := 1000#32 } (.udp 0 1)) = none ∧
      linkedSession.core.streams = []) ∧
    (eventsWait.serving = true ∧ eventsWait.core.session 0 = some { sess0 with evq := [someRec] } ∧ eventsWait.core.spi.evq ≠ [] ∧
      eventsWait.classLeaves 5 0 (wireOctets (([someRec].take 44).flatMap LogRec.bytes).length false) = true ∧ eventsWait.net.mode ≠ 1) ∧
    (((stagedLog []).hub 0).log.staged = [someRec] ∧ ((stagedLog [someRec]).hub 0).log.staged = [someRec, someRec] ∧
      ((stagedLog []).hub 0).present = true ∧ ((stagedLog []).hub 0).up = true ∧ (State.reset.hub 1).log.staged = [] ∧
      (0 : HubId) = (stagedLog []).active) ∧
    (((copying none 0).hub 0).log.bbFrozen = false ∧ ((copying none 0).hub 0).log.bbWait = [someRec] ∧ ((copying none 0).hub 0).log.bbLast = none ∧
      ((copying (some 0) 0).hub 0).log.bbLast = some 0 ∧ (copying (some 0) 0).clk.elapsed < 0 + 100 * us ∧
      0 + 100 * us ≤ (copying (some 0) (100 * us)).clk.elapsed) := by and_intros <;> decide +kernel

/-! ### Witnesses: dies and channels -/

/-- The channel's configuration changed. -/
def withImg (s : State) (f : ChanImg → ChanImg) : State := withCh s fun k => { k with img := f k.img }
def withOut (s : State) (f : Output → Output) : State := withCh s fun k => { k with out := f k.out }
def queued0 (op ph : Nat) : Entry := { entry0 with
  e := { outSet0 with opcode := BitVec.ofNat 8 op }, phase := if ph = 0 then .queued else if ph = 1 then .active else .finished .executed }
/-- An output without compensation. -/
def plainOut : State := withCh (inMode trained 8) fun k => { k with img := { k.img with outCfg := 0x10#32 } }
def ripeAt (t : Nat) : State := withQueued (clockAt plainOut t) (queued0 3 0)
def doneEntry : State := withEntry (withQueued trained (queued0 3 2)) entry0
def cancelling (t : Nat) : State := { clockAt trained t with core := { trained.core with cancels := [(viaSpi, 100, [], 0)] } }
def stale (t : Nat) : State := withRecord (clockAt trained t) { record0 with dest := 1, retired := some 0 }
def misses : State := withQueued (clockAt (withCh plainOut fun k => { k with hold := some 0 }) 1000000) (queued0 3 0)
def notQueued : State := clockAt (withEntry trained entry0) 1000000
def quietDie : Die := (inMode on 8).die 0
theorem witness_EntryExecution :
    ((ripeAt 1000000).queued 5 = some (queued0 3 0) ∧ ((ripeAt 1000000).die 0).ripe (queued0 3 0) = true ∧
      (ripeAt 1000000).missedAt (queued0 3 0) (queued0 3 0).nextAt = false ∧ ((ripeAt 0).die 0).ripe (queued0 3 0) = false) ∧
    (misses.missedAt (queued0 3 0) (queued0 3 0).nextAt = true ∧ (misses.die 0).ripe (queued0 3 0) = true) ∧
    (notQueued.queued 5 = none ∧ notQueued.core.entry 5 = some entry0 ∧ notQueued.variant.dual = true ∧ notQueued.serving = true ∧ entry0.unqueued = true ∧
        entry0.e.time.toNat ≤ notQueued.clk.now ∧ notQueued.isHeld (.retire 5) = false) ∧
    ((quietDie.chan 0).group = none ∧ (quietDie.chan 0).diag.backfeed = false) ∧
    (doneEntry.queued 5 = some (queued0 3 2) ∧ doneEntry.serving = true ∧ (doneEntry.die 0).holder = some doneEntry.active ∧
      doneEntry.laneUp doneEntry.active 0 = true ∧ (doneEntry.die 0).drained (queued0 3 2) = true ∧
      doneEntry.isHeld (.retire 5) = false ∧ doneEntry.core.entry 5 ≠ none ∧ doneEntry.mirroring = true ∧ on.mirroring = false) ∧
    (trained.serving = true ∧ trained.clk.now % iv = 0) ∧
    (((cancelling 100).core.cancels.find? fun p => decide (p.2.1 ≤ (cancelling 100).clk.now)) = some (viaSpi, 100, [], 0) ∧
      ∀ p ∈ (cancelling 99).core.cancels, (cancelling 99).clk.now < p.2.1) ∧
    ((stale (10000 * ms)).core.record 5 = some { record0 with dest := 1, retired := some 0 } ∧
      0 + (stale (10000 * ms)).core.staleAge 1 * ms ≤ (stale (10000 * ms)).clk.elapsed ∧
      (stale (10000 * ms - 1)).clk.elapsed < 0 + (stale 0).core.staleAge 1 * ms) := by and_intros <;> decide +kernel
def waitingCfg : PendCfg := ⟨100, ChanImg.reset, 0, none⟩
def changingAt (t : Nat) : State := withCh (clockAt trained t) fun k => { k with pend := [waitingCfg] }
def transAt (t : Nat) : State := withCh (clockAt (inMode trained 8) t) fun k => { k with trans := some 100 }
/-- Channel 0 of die 0 converts, with 60 base-rate samples kept and output n next, at time t. -/
def chainAt (i : ChanImg → ChanImg) (n : Int) (t : Nat) : State := withCh (clockAt (withImg (inMode trained 1) i) t) fun k => { k with
  chain := { k.chain with next := 60, hist := List.replicate 60 0, nextK := n } }
def resetDue : State := { clockAt (inMode trained 2) 100 with core := { trained.core with resets := [(100, 0)] } }
def disableDue : State := { clockAt trained 100 with core := { trained.core with disables := [(c0, 100)] } }
def vdDue : State := withDie trained fun d => { d with led := { d.led with vdAt := [(0, 24)] } }
/-- Time-locked at P = 12,000 with MA_LEN 1; windows of one block; angle lock with one crossing; a count. -/
def timeLocked : State := chainAt (fun i => { i with filtCfg := 0#32, perInt := 12000#32, perFrac := 0#32, maLen := 1#32 }) 30 (10 * ms)
def windowed : State := chainAt (fun i => { i with filtCfg := 0x200001#32 }) 0 (10 * ms)
def angled : State := withCh (chainAt (fun i => { i with filtCfg := 0x100000#32, maLen := 1#32 }) 0 (10 * ms)) fun k => { k with
  chain := { k.chain with cross := [(7, 30 * 12000)] } }
def counted : State := withCh (clockAt (inMode trained 7) (10 * ms)) fun k => { k with chain := { k.chain with nextK := 0 } }
def lockedCh0 : Channel := (timeLocked.die 0).chan 0
def stamp0 : Tick := lockedCh0.outAt lockedCh0.chain.nextK
def refCutsThere : Die := { timeLocked.die 0 with aux := { (timeLocked.die 0).aux with cutAt := some stamp0 } }
theorem witness_ModeChangesAndResults :
    (((((changingAt 100).die 0).chan 0).pend.find? fun p => ((changingAt 100).die 0).past p.tm) = some waitingCfg ∧
      ∀ p ∈ (((changingAt 99).die 0).chan 0).pend, ((changingAt 99).die 0).past p.tm = false) ∧
    ((((transAt (100 + 50 * us)).die 0).chan 0).trans = some 100 ∧ ((transAt (100 + 50 * us)).die 0).past (100 + 50 * us) = true ∧
      ((transAt (99 + 50 * us)).die 0).past (100 + 50 * us) = false) ∧
    ((disableDue.core.disables.find? fun p => decide (p.1 = c0) && (disableDue.die 0).past p.2) = some (c0, 100) ∧ (disableDue.die 0).unit 0 = [0]) ∧
    (((vdDue.die 0).led.vdAt.filter fun p => (vdDue.die 0).past p.1).getLast? = some (0, 24) ∧ (trained.die 0).led.vdAt = []) ∧
    ((timeLocked.die 0).on = true ∧ hasChain lockedCh0.mode = true ∧ lockedCh0.trans = none ∧ Img.mcEn lockedCh0.img = false ∧
      Img.lock lockedCh0.img = 0 ∧ lockedCh0.counts = false ∧ (timeLocked.die 0).past (stamp0 + lockedCh0.span) = true ∧
      (lockedCh0.resampled stamp0).isSome = true ∧
      lockedCh0.chain.origin + lockedCh0.chain.next * 12000 + 20 * us ≤ ((timeLocked.die 0).replica : Int) ∧
      (timeLocked.die 0).refCuts ((stamp0 : Int) - lockedCh0.span) (stamp0 + lockedCh0.span) = false ∧
      refCutsThere.refCuts ((stamp0 : Int) - lockedCh0.span) (stamp0 + lockedCh0.span) = true ∧ lockedCh0.diag.shunt = false ∧
      (codeSpan lockedCh0.img lockedCh0.odd).1 ≤ (codeSpan lockedCh0.img lockedCh0.odd).2) ∧
    (Img.lock ((windowed.die 0).chan 0).img = 2 ∧ ((windowed.die 0).nextResult 0 0 (some 5)).isSome = true) ∧
    (Img.lock ((angled.die 0).chan 0).img = 1 ∧ ((angled.die 0).chan 0).chain.cross = [(7, 30 * 12000)] ∧
      (((angled.die 0).chan 0).resampled (30 * 12000)).isSome = true ∧
      (angled.die 0).past (30 * 12000 + ((angled.die 0).chan 0).span) = true) ∧
    (((counted.die 0).chan 0).counts = true ∧ Img.lock ((counted.die 0).chan 0).img ≠ 1 ∧
      (counted.die 0).past (((counted.die 0).chan 0).outAt 0 + ((counted.die 0).chan 0).span) = true) ∧
    (hasChain ((trained.die 0).chan 0).mode = false) ∧
    (resetDue.core.dueReset resetDue.clk.now = some (100, 0) ∧ trained.core.dueReset trained.clk.now = none ∧
      (resetDue.die 0).present = true ∧ hasChain ((resetDue.die 0).chan 0).mode = true ∧
      Img.exempt ((resetDue.die 0).chan 0).img = false ∧ ((resetDue.die 0).chan 0).trans = none) := by decide +kernel
def presetAt (t : Nat) : State := withCh (clockAt (inMode trained 7) t) fun k => { k with din := { k.din with
  preset := [(9#32, 100)], encEp := some 0, capWait := [(5, 0, true)] } }
/-- Axis 0 has a sample at 0. -/
def heldEdge : State := { presetAt (8000 * us) with core := { trained.core with axes := vmod trained.core.axes 0 fun x => { x with past := [(0, 7, 0)] } } }
def capturing (op cut : Bool) (t : Nat) : State := withQueued (clockAt (inMode trained 6) t) { queued0 2 1 with
  e := { outSet0 with opcode := if op then 2#8 else 3#8, time := 0#64 }, cut := if cut then some (0, .cancelled) else none }
def unfiltered (m : Nat) : State := withImg (inMode trained m) fun i => { i with dinCfg := 0x1E0FA0#32 }
def levelKnown : State := withCh (inMode trained 6) fun k => { k with din := { k.din with known := true } }
/-- A multiple of TICK has come that the filter has not stepped at. -/
def tickDue : State := clockAt (inMode trained 6) (10 * ms)
/-- A Z input of pair 0, on channel 2 of die 0; a pair with edges of A and B 100 ticks apart. -/
def zChannel : Die := ((inMode trained 7).modCh ⟨0, 2⟩ fun k => { k with
  img := { Img.withMode k.img 7 with encCfg := 0x100#32 } }).die 0
def nearEnc : EncSt := { ((trained.die 0).chan 0).din.enc with la := some 0, lb := some 0 }
theorem witness_InputsAndCounts :
    ((inMode trained 6).die 0).watches 0 = true ∧ (((inMode trained 6).die 0).chan 0).din.known = false ∧
    ((levelKnown.die 0).chan 0).din.known = true ∧ ((levelKnown.die 0).chan 0).din.raw = false ∧
    (((inMode trained 6).die 0).chan 0).filtered = true ∧ (((unfiltered 6).die 0).chan 0).filtered = false ∧
    isOutMode (((unfiltered 6).die 0).chan 0).mode = false ∧
    ((unfiltered 8).die 0).watches 0 = true ∧ isOutMode (((unfiltered 8).die 0).chan 0).mode = true ∧
    ((inMode trained 1).die 0).watches 0 = false ∧
    (((inMode trained 6).die 0).replica / (Img.tick (((inMode trained 6).die 0).chan 0).img * 300) * (Img.tick (((inMode trained 6).die 0).chan 0).img * 300) ≤
        (((inMode trained 6).die 0).chan 0).din.filtAt ∧
      ((((tickDue).die 0).chan 0).din.filtAt < ((tickDue).die 0).replica / (Img.tick (((tickDue).die 0).chan 0).img * 300) *
        (Img.tick (((tickDue).die 0).chan 0).img * 300)) ∧ ((tickDue).die 0).watches 0 = true ∧ (((tickDue).die 0).chan 0).filtered = true) ∧
    (((((presetAt 100).die 0).chan 0).din.preset.find? fun p => ((presetAt 100).die 0).past p.2) = some (9#32, 100) ∧
      (∀ p ∈ (((presetAt 99).die 0).chan 0).din.preset, ((presetAt 99).die 0).past p.2 = false) ∧
      (((presetAt 100).die 0).chan 0).din.encEp = some 0 ∧
      0 + 10 * ms ≤ (presetAt (10 * ms)).clk.elapsed ∧ (presetAt (10 * ms - 1)).clk.elapsed < 0 + 10 * ms) ∧
    ((((heldEdge.die 0).chan 0).din.capWait.find? fun p => (heldEdge.die 0).past (p.2.1 + 8000 * us)) = some (5, 0, true) ∧
      (heldEdge.core.axes[Img.axis ((heldEdge.die 0).chan 0).img]?.bind (·.heldAt 0)) = some 7#32 ∧
      (∀ p ∈ (((presetAt (8000 * us - 1)).die 0).chan 0).din.capWait, ((presetAt (8000 * us - 1)).die 0).past (p.2.1 + 8000 * us) = false)) ∧
    ((((capturing true false ms).die 0).queued 5).isSome = true ∧ ((capturing true false ms).die 0).past
        (((capturing true false ms).die 0).chan 0).filterDelay = false ∧
      ((capturing true false (10 * ms)).die 0).past (((capturing true false (10 * ms)).die 0).chan 0).filterDelay = true ∧
      (((capturing true true (10 * ms)).die 0).queued 5).isSome = true ∧ (((capturing false false (10 * ms)).die 0).queued 5).isSome = true) ∧
    (isDinMode (((inMode trained 8).die 0).chan 0).mode = false ∧ (((inMode trained 8).die 0).chan 0).mode ≠ 7) ∧
    (nearEnc.lb = some 0 ∧ nearEnc.dec ≤ 2 ∧ (⟨400, .b true⟩ : PairEv).act.input = some (!true) ∧ (400 : Nat) < 300 + 300 ∧ 299 < 0 + 300 ∧ (0 : Nat) + 300 ≤ 300 ∧ (((trained.die 0).chan 0).din.enc).lb = none) ∧
    ((0 : ChanId).val = 2 * Img.zOf (zChannel.chan 2).img ∧ (zChannel.chan 0).counts = true ∧ ((trained.die 0).chan 0).counts = false) := by
  and_intros <;> decide +kernel
def driving (m : Nat) : State := withOut (inMode trained m) fun o => { o with drive := true, value := 1, onAt := some 0 }
def monitored : State := withImg trained fun i => { i with diag := 0x20000#32 }
def backfed : State := withCh (inMode trained 8) fun k => { k with diag := { k.diag with backfeed := true } }
/-- Over range since 0, or within; a confirmed backfeed on an output in a mode. -/
def overAt (b : Bool) (t : Nat) : State := withCh (clockAt (inMode trained 2) t) fun k => { k with
  diag := { k.diag with overr := !b, shunt := true, shuntAt := some 0, fold := true, foldAt := some 0 }
  chain := { k.chain with overSince := some 0, inSince := some 0 } }
def clearing (m : Nat) (latch alone : Bool) : Die := (withCh (driving m) fun k => { k with
  diag := { k.diag with backfeed := true, bfCond := true, bfLatch := latch, bfAlone := alone } }).die 0
/-- Another output went on at 0. -/
def otherOn : Die := ((inMode trained 8).modCh ⟨0, 1⟩ fun k => { k with
  img := Img.withMode k.img 8, trans := none, out := { k.out with drive := true, onAt := some 0, offAt := some 0, value := 1 } }).die 0
theorem witness_Diagnostics :
    (hasChain (((inMode trained 2).die 0).chan 0).mode = true ∧ hasOpenTest (((inMode trained 2).die 0).chan 0).img false = true ∧
      hasOpenTest (((inMode trained 7).die 0).chan 0).img false = false ∧ ((monitored.die 0).chan 0).mode = 0 ∧
      Img.termMon ((monitored.die 0).chan 0).img = true ∧ (((inMode trained 3).die 0).chan 0).mode = 3 ∧
      (((inMode trained 3).die 0).chan 0).trans = none) ∧
    ((((overAt true (10 * ms)).die 0).chan 0).trans = none ∧ (((overAt true (10 * ms)).die 0).chan 0).diag.overr ≠ true ∧
      (((overAt false (10 * ms)).die 0).chan 0).diag.overr ≠ false ∧ (((overAt true (10 * ms)).die 0).chan 0).chain.overSince = some 0 ∧
      ((overAt true (10 * ms)).die 0).past (0 + 10 * ms) = true ∧ ((overAt true (10 * ms - 1)).die 0).past (0 + 10 * ms) = false ∧
      (((overAt true 0).die 0).chan 0).diag.shuntAt = some 0 ∧ 0 + 100 * ms ≤ (overAt true (100 * ms)).clk.elapsed ∧
      (overAt true 0).clk.elapsed < 0 + 100 * ms ∧ (((overAt true 0).die 0).chan 0).diag.shunt = true ∧
      (((inMode trained 2).die 0).chan 0).diag.shunt = false ∧ (((inMode trained 3).die 0).chan 0).diag.fold = false) ∧
    ((((driving 10).die 0).chan 0).watched = true ∧ (((driving 10).die 0).chan 0).mode ≤ 10 ∧ (((driving 10).die 0).chan 0).out.drive = true ∧
      10 < (((driving 11).die 0).chan 0).mode ∧ (((driving 12).die 0).chan 0).mode ≠ 11 ∧ (((driving 8).die 0).chan 0).group = none ∧
      (((inMode trained 2).die 0).chan 0).watched = false) ∧
    ((((inMode trained 8).die 0).chan 0).watched = true ∧ (((inMode trained 8).die 0).chan 0).out.drive = false ∧
      (((inMode trained 8).die 0).chan 0).diag.backfeed = false ∧ ((backfed.die 0).chan 0).diag.backfeed = true ∧
      ((backfed.die 0).chan 0).diag.bfLatch = false ∧ ((backfed.die 0).chan 0).diag.bfAlone = false) ∧
    ((otherOn.chan 0).watched = true ∧ (otherOn.chan 0).out.drive = false ∧ otherOn.outputsBut 0 = [1] ∧
      ((otherOn.outputsBut 0).filter fun b => (otherOn.chan b).out.high && inWindow (otherOn.chan b).out.onAt
        (Img.bfFilt (otherOn.govern 0)) (Img.bfFilt (otherOn.govern 0))) = [1] ∧
      ((otherOn.outputsBut 0).filter fun b => inWindow (otherOn.chan b).out.offAt (Img.bfFilt (otherOn.govern 0))
        (Img.bfFilt (otherOn.govern 0))) = [1] ∧
      inWindow none 0 1 = false) ∧
    (((clearing 8 false true).chan 0).diag.bfCond = true ∧ ((clearing 8 false true).chan 0).diag.bfAlone = true ∧
      ((clearing 8 false false).chan 0).diag.bfAlone = false ∧ ((clearing 11 true false).chan 0).diag.bfLatch = true ∧
      ((trained.die 0).chan 0).diag.bfCond = false) ∧
    ((trained.die 0).uvEp = false ∧ (allC.filter fun c => (((driving 8).die 0).chan c).watched) = [0]) := by
  decide +kernel
/-- The driver goes on at 5, its gate command having come before. -/
def driven5 : State := withOut (driving 8) fun o => { o with onAt := some 5 }
def shared : State := trained.modDie 0 fun d => [0, 1].foldl (fun (x : Die) m => x.modCh m fun k => { k with
  img := Img.withMode k.img 8, want := Img.withMode k.want 8, trans := none, group := some 0
  out := { k.out with drive := true, value := 1, onAt := some 0 } }) d
def pulsing : State := withImg (driving 8) fun i => { i with diag := 0x11434#32 }
def inPulse (t : Nat) : State := withOut (clockAt (driving 8) t) fun o => { o with pulse := some 0 }
def ramping (safe : Bool) : State := withCh (inMode trained 11) fun k => { k with
  out := { k.out with ramp := some 0 }, cause := if safe then 1#11 else 0#11, img := { k.img with safe := 0xC0000000#32 } }
def holding (t : Nat) : State := withCh (clockAt trained t) fun k => { k with hold := some 0 }
def hubGone (t : Nat) : State := withDie (clockAt trained t) fun d => { d with lossFrom := some 0 }
theorem witness_DieSafety :
    (((pulsing.die 0).chan 0).pulseable ((pulsing.die 0).govern 0) (pulsing.die 0).replica = true ∧ (pulsing.die 0).on = true ∧
      (pulsing.die 0).named 0 = 0 ∧ ((pulsing.die 0).chan 0).out.pulse = none ∧ ((pulsing.die 0).chan 0).out.ahead 0 = false ∧
      ((driven5.die 0).chan 0).out.ahead 4 = true ∧ (shared.die 0).named 1 = 0 ∧
      (pulsing.die 0).replica % (Img.optPeriod ((pulsing.die 0).govern 0) * ms) =
        ((0 : ChanId).val * 250 * us) % (Img.optPeriod ((pulsing.die 0).govern 0) * ms) ∧
      (((driving 8).die 0).chan 0).pulseable (((driving 8).die 0).govern 0) 0 = false) ∧
    ((((inPulse (200 * us)).die 0).chan 0).out.pulse = some 0 ∧ ((inPulse (200 * us)).die 0).past (0 + 200 * us) = true ∧
      ((inPulse (200 * us - 1)).die 0).past (0 + 200 * us) = false ∧ (5000 : Nat) ≤ 5000 ∧ 5000 < 5001) ∧
    ((((ramping true).die 0).chan 0).out.ramp = some 0 ∧ ((ramping true).die 0).past 0 = true ∧
      (((ramping true).die 0).chan 0).isSafe = true ∧ (((ramping false).die 0).chan 0).isSafe = false ∧
      Img.kind (((ramping true).die 0).govern 0) = 3 ∧ Img.kind ((trained.die 0).govern 0) ≠ 3) ∧
    ((((holding (1000 * ms)).die 0).chan 0).hold = some 0 ∧
      0 + Img.holdMs (((holding (1000 * ms)).die 0).chan 0).img * ms ≤ (holding (1000 * ms)).clk.elapsed ∧
      (holding (1000 * ms - 1)).clk.elapsed < 0 + Img.holdMs (((holding 0).die 0).chan 0).img * ms) ∧
    (((hubGone 0).die 0).lossFrom = some 0 ∧ ((hubGone 0).die 0).pwr ≠ .deepSleep ∧ 0 + ((hubGone 0).die 0).hublossT * us ≤ (hubGone (((hubGone 0).die 0).hublossT * us)).clk.elapsed ∧
      (hubGone (((hubGone 0).die 0).hublossT * us - 1)).clk.elapsed < 0 + ((hubGone 0).die 0).hublossT * us) ∧
    (ready.variant.dual = true ∧ (ready.hub 1).hstate = .ready ∧ single.variant.dual = false) := by decide +kernel
def auxDie (f : Aux → Aux) (t : Nat) : State := withDie (clockAt trained t) fun d => { d with aux := f d.aux }
def entryRuns (w : Word) (t : Nat) : State := auxDie (fun a => { a with table := a.table.set 0 w, entry := some (0, 0) }) t
def slot0 : Urgent := ⟨5, 0, 100, none, 1000⟩
def urgent (ta : Option Tick) (t : Nat) : State := withDie (auxDie (fun a => { a with
  priv := a.priv.set 0 0x8000#32, waiting := a.waiting.set 0 [{ slot0 with ta := ta }] }) t) fun d =>
  { d with ntq := [{ entry0 with e := { outSet0 with opcode := 6#8 }, phase := .active }] }
/-- The same triggered by a PWM period start. -/
def timed (t : Nat) : State := withDie (urgent none t) fun d => { d with aux := { d.aux with priv := d.aux.priv.set 0 0x8400#32 } }
def injected (t : Nat) : State := withDie (auxDie (fun a => { a with injRun := some (0, 5, 0, 0, [0x00#32]) }) t) fun d =>
  { d with ntq := [{ entry0 with e := { outSet0 with opcode := 6#8 }, phase := .active }] }
/-- A test current flows: entry 0 of die 0 measures IO of channel 0 with TEST t. -/
def testing (t : Nat) : Die := (entryRuns (BitVec.ofNat 32 (t * 2 ^ 22 + 2 ^ 16)) 0).die 0
def testWord (t : Nat) : Word := BitVec.ofNat 32 (t * 2 ^ 22 + 2 ^ 16)
def cutThere : Die := { (entryRuns 0#32 ms).die 0 with aux := { ((entryRuns 0#32 ms).die 0).aux with cutAt := some (60 * us) } }
theorem witness_AuxiliaryConverter :
    ((auxDie id (100 * ms)).die 0).replica % (((auxDie id (100 * ms)).die 0).aux.passMs * ms) = 0 ∧
    ((auxDie id (100 * ms - 1)).die 0).replica % (((auxDie id 0).die 0).aux.passMs * ms) ≠ 0 ∧
    ((auxDie id (100 * ms)).die 0).aux.entry = none ∧ ((auxDie id (100 * ms)).die 0).installAux.aux.run = true ∧
    ((auxDie (fun a => { a with run := false }) 0).die 0).installAux.aux.run = false ∧ (trained.die 0).on = true ∧ (asleep.die 0).on = false ∧
    (trained.die 0).aux.auto = true ∧ ((auxDie (fun a => { a with auto := false }) 0).die 0).aux.auto = false ∧
    (((entryRuns 0#32 ms).die 0).aux.entry = some (0, 0) ∧ ((entryRuns 0#32 ms).die 0).aux.injRun = none ∧
      ((entryRuns 0#32 ms).die 0).past (0 + AuxEntry.length 0#32) = true ∧ ((entryRuns 0#32 0).die 0).past (0 + AuxEntry.length 0#32) = false ∧
      (∀ t ∈ [0, 1, 2, 3], AuxEntry.test (testWord t) = t ∧ AuxEntry.measured (testWord t) = some 0 ∧
        (testing t).replica < 0 + AuxEntry.length (testWord t) ∧
        (testing t).replica < 0 + max (AuxEntry.settle (testWord t)) (40 * us) + AuxEntry.window (testWord t)) ∧
      (AuxEntry.windows 0x10000#32 0).getLast?.any (fun v => !((entryRuns 0#32 ms).die 0).refCuts v.1 v.2) = true ∧
      (AuxEntry.windows 0x10000#32 0).getLast?.any (fun v => !cutThere.refCuts v.1 v.2) = false ∧
      AuxEntry.source 0#32 ≠ 0xFF ∧ AuxEntry.source 0xFF#32 = 0xFF ∧ AuxEntry.source 0x35#32 = 0x35) ∧
    ((((urgent none 100).die 0).queued 5).isSome = true ∧ ((urgent none 100).die 0).aux.slotOf 0 = some 0 ∧
      (((urgent none 100).die 0).aux.waiting[0].find? fun u => u.id == 5 && u.ta.isNone) = some slot0 ∧
      ((urgent none 100).die 0).triggerAt (((urgent none 100).die 0).aux.priv[0]) slot0 = some 100 ∧
      ((urgent none 99).die 0).triggerAt (((urgent none 99).die 0).aux.priv[0]) slot0 = none) ∧
    ((((urgent (some 100) 100).die 0).aux.waiting[0].find? fun u => u.ta.any ((urgent (some 100) 100).die 0).past) = some { slot0 with ta := some 100 } ∧
      ((urgent (some 100) 100).die 0).aux.dropCause 0 { slot0 with ta := some 100 } 100 = none ∧
      (((urgent (some 100) 99).die 0).aux.waiting[0].find? fun u => u.ta.any ((urgent (some 100) 99).die 0).past) = none) ∧
    (privTrig (((urgent none 100).die 0).aux.priv[0]) = 0 ∧ privTrig (((timed 1000).die 0).aux.priv[0]) ≠ 0 ∧
      (((timed 1000).die 0).aux.waiting[0].find? fun u => u.ta.isNone && ((timed 1000).die 0).past u.limit &&
        privTrig (((timed 1000).die 0).aux.priv[0]) != 0) = some slot0) ∧
    (((injected ms).die 0).aux.injRun = some (0, 5, 0, 0, [0x00#32]) ∧ ((injected ms).die 0).past (injEnd [0x00#32] 0) = true ∧
      ((injected 0).die 0).past (injEnd [0x00#32] 0) = false ∧ (injWindows [0x00#32] 0 true).length = 1) := by
  and_intros <;> decide +kernel
def compared (sus : Bool) (good : Option Nat) (v : Int) (t : Nat) : State :=
  auxDie (fun a => { a with suspect := sus, goodSince := good, diffs := List.replicate 15 (t, v), cmpAt := some 0 }) t
def switchAt (t : Nat) : State := auxDie (fun a => { a with refNext := some (100, true, true) }) t
theorem witness_References :
    ((((ms, 21474837) :: ((compared false none 21474837 ms).die 0).aux.diffs).take 16).length = 16 ∧
      20 * 16 * 2 ^ 30 < ((((ms, (21474837 : Int)) :: ((compared false none 21474837 ms).die 0).aux.diffs).take 16).map fun (p : Tick × Int) => p.2).sum.natAbs * 1000 ∧
      (((ms, 21474837) :: ((compared false none 21474837 ms).die 0).aux.diffs).take 16).getLast? = some (ms, 21474837) ∧
      ((compared false none 21474837 ms).die 0).aux.suspect = false ∧ ((compared false none 0 ms).die 0).on = true ∧
      ((compared false none 0 ms).die 0).aux.cmpAt = some 0 ∧ 0 + ms ≤ (compared false none 0 ms).clk.elapsed ∧
      (compared false none 0 (ms - 1)).clk.elapsed < 0 + ms) ∧
    (((compared true (some 0) 0 sec).die 0).aux.suspect = true ∧ 0 + sec ≤ (compared true (some 0) 0 sec).clk.elapsed ∧
      (compared true (some 0) 0 (sec - 1)).clk.elapsed < 0 + sec ∧
      ((((sec, 0) :: ((compared true (some 0) 0 sec).die 0).aux.diffs).take 16).map fun (p : Tick × Int) => p.2).sum.natAbs * 1000 ≤ 15 * 16 * 2 ^ 30) ∧
    (((switchAt 100).die 0).aux.refNext = some (100, true, true) ∧ ((switchAt 100).die 0).past 100 = true ∧
      ((switchAt 99).die 0).past 100 = false ∧ (trained.die 0).aux.refNext = none) := by decide +kernel
def mainsSt (f : Mains → Mains) (t : Nat) : State := { clockAt (inMode trained 1) t with
  core := { trained.core with mains := f trained.core.mains } }
def axisSt (f : Axis → Axis) (t : Nat) : State := { clockAt (inMode trained 7) t with
  core := { trained.core with axes := trained.core.axes.map f } }
def window (t : Nat) (a : Option Tick) : State := withCh (withImg (withDie (mainsSt id t) fun d => { d with bounds := [(0, 100)] })
  fun i => { i with convCfg := 1#32 }) fun k => { k with chain := { k.chain with mcStart := a } }
def crossSource (last : Option Tick) : State := withCh (mainsSt (fun m => { m with src := 1, ch := 0, lastCross := last }) (60 * us)) fun k =>
  { k with cal := { k.cal with slice := (List.range 64).map fun q => (q, ⟨0, 2 ^ 30, 0⟩) } }
/-- The codes run from −3 % to +3 % of full scale; the slice's coefficients are the identity. -/
def crossingCodes : List Int := [-32212254, 32212254]
def mainsSilent : State := mainsSt (fun m => { m with st := .locked, lastMeas := 0 }) (100 * ms)
def holdOver : State := mainsSt (fun m => { m with st := .hold, holdSince := 0 }) (10 * sec)
def windowEnds : State := window 100 (some 50)
def cutWindow : Die := { windowEnds.die 0 with aux := { (windowEnds.die 0).aux with cutAt := some 60 } }
def netAxis : State := axisSt (fun x => { x with src := 2, posAt := some 50, moving := true }) 0
def encAxis : State := axisSt (fun x => { x with src := 1, zref := true, posAt := some 50, encDie := 0, encPair := 0, pos := 5, zero := 9 }) 0
/-- The axis's pair has one settled edge that it has not taken: a count, or a rising Z edge. -/
def fed (v : Option Int) : State := withCh encAxis fun k => { k with din := { k.din with feed := [(1, 0, v)], feedN := 1 } }
def stillAxis : State := axisSt (fun x => { x with moving := true, lastRx := 0 }) (10 * ms)
theorem witness_MainsAndAxes :
    ((crossSource none).core.mains.src = 1 ∧ (crossSource none).chanOf (crossSource none).core.mains.ch = some c0 ∧
      ((crossSource none).chan c0).mode = 1 ∧ ((crossSource none).chan c0).trans = none ∧ (crossSource none).barred 0 = none ∧
      (crossSource none).core.mains.lastCross = none ∧ (crossSource (some 5)).core.mains.lastCross = some 5 ∧
      (crossingCodes.zipIdx.map fun p => ((crossSource none).die 0).corrected 0 0 p.1 (0 + p.2 * 12000)) = crossingCodes ∧
      swings crossingCodes = true ∧ crossingOf 0 crossingCodes = some 6000 ∧ 5 < (6000 : Int).toNat ∧
      crossingOf 0 [32212254, 32212254] = none ∧ swings [0] = false ∧
      ((crossSource none).chan c0).chain.origin + (0 : Int) * 12000 + (crossingCodes.length - 1 : Nat) * 12000 + 20 * us ≤
        (((crossSource none).die 0).replica : Int)) ∧
    (trained.serving = true ∧ trained.core.mains.last.2 ≤ trained.clk.now) ∧
    (trained.linked trained.active 0 = true ∧ (trained.die 0).holder = some trained.active ∧ on.linked on.active 0 = false ∧
      leased1.linked leased1.active 0 = true ∧ (leased1.die 0).holder ≠ some leased1.active) ∧
    (mainsSilent.core.mains.st = .locked ∧ mainsSilent.core.mains.lastMeas + 100 * ms ≤ mainsSilent.clk.elapsed) ∧
    (holdOver.core.mains.st = .hold ∧ holdOver.core.mains.holdSince + holdOver.core.mains.holdS * sec ≤ holdOver.clk.elapsed ∧ holdOver.serving = true) ∧
    (inMains 60000000 = true ∧ inMains 1 = false ∧ inMains (3000000000 / 45) = true ∧ inMains (3000000000 / 45 + 1) = false) ∧
    (Img.mcEn (windowEnds.chan c0).img = true ∧ 1 ≤ (windowEnds.chan c0).mode ∧ (windowEnds.chan c0).mode ≤ 5 ∧ (windowEnds.chan c0).trans = none ∧
        (windowEnds.die 0).meets (windowEnds.chan c0) = some 100 ∧ (windowEnds.die 0).on = true ∧
        (windowEnds.chan c0).chain.mcStart = some 50 ∧ (windowEnds.die 0).refCuts 50 100 = false ∧ cutWindow.refCuts 50 100 = true) ∧
    (((window 99 none).die 0).meets ((window 99 none).chan c0) = none ∧
      ((window 100 none).die 0).meets ((window 100 none).chan c0) = some 100 ∧
      ((window 100 none).chan c0).chain.mcStart = none) ∧
    ((netAxis.core.axis 3).src = 2 ∧ (netAxis.core.axis 3).posAt = some 50 ∧ (netAxis.core.axis 3).moving = true) ∧
    ((encAxis.core.axis 0).src = 1 ∧ (encAxis.core.axis 0).zref = true ∧ (encAxis.core.axis 0).posAt ≠ none ∧
        (fed none).axisPair 0 = some c0 ∧ (fed none).axisNext 0 = some (c0, 1, 0, none) ∧ ((fed none).axisSettle 0).axisNext 0 = some (c0, 1, 0, none) ∧
        ((fed (some 9)).axisSettle 0).axisNext 0 = some (c0, 1, 0, some 9) ∧ (encAxis.axisSettle 0).axisNext 0 = none ∧
        (encAxis.core.axis 0).cpr * (encAxis.core.axis 0).zCorrection.natAbs ≤ 2 ^ 32 ∧ 0 < (encAxis.core.axis 0).zCorrection) ∧
    ((stillAxis.core.axis 0).moving = true ∧ (stillAxis.core.axis 0).lastRx + (stillAxis.core.axis 0).still * ms ≤ stillAxis.clk.elapsed) := by
  and_intros <;> decide +kernel
def spareIn (ph : SparePhase) (t : Nat) : State := withDie (clockAt (inMode trained 2) t) fun d =>
  { d with car := { d.car with spares := d.car.spares.set 0 { d.car.spares[0] with phase := ph, ch := 0, slot := 0 } } }
def slotStart : State := spareIn .idle 0
/-- The accumulation that ends at t has one pair: it was restarted 12,000 ticks before. -/
def onePair (t : Nat) (s : State) : State := withDie s fun d => { d with car := { d.car with cut := t - 12000 } }
def takeoverDue : State := onePair (100 * ms) (spareIn .shadowIn (100 * ms))
def handbackDue : State := onePair (700 * ms) (spareIn .shadowOut (700 * ms))
def retrying (t : Nat) : State := onePair (750 * ms) (withDie (spareIn .shadowOut t) fun d => d.modSpare 0 fun p => { p with retry := some (700 * ms) })
def pointsDue : State := onePair (650 * ms) (spareIn .serve (650 * ms))
def selfCalDue : State := spareIn .selfCal sec
def visited (s : State) : Channel := (s.die 0).chan ((s.die 0).spare 0).ch
/-- The peer holds NV_LOCK. -/
def peerHolds : State := trained.modHub 1 fun h => { h with nvLock := some 100 }
theorem witness_Carousel :
    ((slotStart.die 0).on = true ∧ (slotStart.die 0).replica % sec = (0 : SpareId).val * (500 * ms) ∧ ((slotStart.die 0).spare 0).fault = false ∧
        ((slotStart.die 0).spare 0).phase ≠ .parked ∧ ((slotStart.die 0).spare 0).retry = none ∧ (slotStart.die 0).car.run = true ∧
        ((slotStart.die 0).spare 0).visiting = false ∧ ((takeoverDue.die 0).spare 0).visiting = true ∧ (((retrying 0).die 0).spare 0).retry ≠ none) ∧
    (((slotStart.die 0).chan ((slotStart.die 0).car.visit 0 (slotStart.die 0).replica)).visitable = true ∧ (trained.die 0).car.cycle16 = none ∧
        ((trained.die 0).chan 1).visitable = false) ∧
    (((takeoverDue.die 0).spare 0).phase = .shadowIn ∧
        (takeoverDue.die 0).switchAt 0 ((takeoverDue.die 0).phaseEnd 0 (0 + 100 * ms)) = some (100 * ms) ∧
        (takeoverDue.die 0).past (100 * ms) = true ∧
        (visited takeoverDue).pairsOk (max ((takeoverDue.die 0).phaseEnd 0 (0 + 20 * ms)) (takeoverDue.die 0).car.cut)
          ((takeoverDue.die 0).phaseEnd 0 (0 + 100 * ms)) [((0 : Int), (0 : Int))].length = true ∧
        (8192 : Int).natAbs ≤ 8192 ∧ 8192 < (8193 : Int).natAbs) ∧
    (((handbackDue.die 0).spare 0).phase = .shadowOut ∧ ((handbackDue.die 0).spare 0).mustRamp = none ∧
        (handbackDue.die 0).handAt ((handbackDue.die 0).spare 0) = some (700 * ms) ∧ (handbackDue.die 0).past (700 * ms) = true ∧
        Img.lock (visited handbackDue).img ≠ 2 ∧
        (visited handbackDue).pairsOk (max (700 * ms - 10 * ms) (handbackDue.die 0).car.cut) (700 * ms) [((0 : Int), (0 : Int))].length = true) ∧
    ((((retrying (750 * ms)).die 0).spare 0).mustRamp = some (700 * ms) ∧ ((retrying 0).die 0).phaseEnd 0 (700 * ms + 50 * ms) = 750 * ms ∧
        ((retrying (750 * ms)).die 0).past (750 * ms) = true ∧
        (visited (retrying 0)).pairsOk (max (700 * ms) ((retrying 0).die 0).car.cut) (750 * ms) [((0 : Int), (0 : Int))].length = true) ∧
    (((pointsDue.die 0).spare 0).phase = .serve ∧ (pointsDue.die 0).past ((pointsDue.die 0).phaseEnd 0 (0 + 650 * ms)) = true ∧
        (visited pointsDue).pairsOk (max ((pointsDue.die 0).phaseEnd 0 (0 + 600 * ms)) (pointsDue.die 0).car.cut)
          ((pointsDue.die 0).phaseEnd 0 (0 + 650 * ms)) [((0 : Int), (0 : Int))].length = true ∧
        (pointsDue.die 0).aux.quiet (150 * ms) (550 * ms) = true ∧ (trained.die 0).aux.suspect = false) ∧
    (((selfCalDue.die 0).spare 0).phase = .selfCal ∧ (selfCalDue.die 0).past (((selfCalDue.die 0).spare 0).slot + sec) = true ∧
        (selfCalDue.die 0).aux.quiet (750 * ms) sec = true) ∧
    (faulty ⟨2 ^ 24, 2 ^ 30, 0⟩ = false ∧ faulty ⟨2 ^ 24 + 1, 2 ^ 30, 0⟩ = true) ∧
    (trained.serving = true ∧ ((roleAt 0).takeRole false).isSome = true ∧ (roleAt 0).serving = true ∧
      ((roleAt 0).presentDies.any fun d => ((roleAt 0).die d).car.persist) = true ∧
      (roleAt 0).clk.now ≤ (roleAt 0).clk.now / (3600 * sec) * (3600 * sec) + sec ∧
      (roleAt 0).core.warmAt ≠ some ((roleAt 0).clk.now / (3600 * sec) * (3600 * sec)) ∧
      (peerHolds.takeRole false).isNone = true ∧ peerHolds.serving = true) := by
  and_intros <;> decide +kernel
def pwmAt (t : Nat) : State := withOut (clockAt (withImg (inMode trained 10) fun i => { i with outCfg := 0x10#32 }) t) fun o => { o with
  nextPk := some 100, run := true, value := 1, hEnd := 50, pk := 0, period := 100 }
def modem (tx rx carrier : Bool) (t : Nat) : State := withQueued (withCh (withImg (clockAt (inMode trained 11) t) fun i =>
    { i with cfg := i.cfg ||| 0x20#32 }) fun k => { k with fsk := { k.fsk with
  run := some ⟨5, 0, 100, false, [], false, false, none, none, carrier, 0⟩, tx := tx, rx := rx } }) (queued0 7 1)
def shareDue (t : Nat) : State := clockAt (withOut shared fun o => { o with shareAt := some 0 }) t
def pwmCh : Channel := ((pwmAt 100).die 0).chan 0
def sharedCh : Channel := (shared.die 0).chan 0
def fskSends : State := modem true false false 100
def fskListens : State := modem false true false (100 + 7 * bitTime)
theorem witness_PwmAndFsk :
    (pwmCh.out.nextPk = some 100 ∧ (100 : Int) - ((pwmAt 100).die 0).periodLead 0 0 ≤ ((pwmAt 100).die 0).replica ∧ pwmCh.mode = 10 ∧
        pwmCh.out.run = true ∧ pwmCh.trans = none ∧ ((pwmAt 100).die 0).outWaits 0 100 = false ∧
        pwmCh.out.value = 1 ∧ pwmCh.out.hEnd < pwmCh.out.pk + pwmCh.out.period ∧
        (pwmCh.out.hEnd : Int) - ((pwmAt 100).die 0).comp 0 0 false ≤ ((pwmAt 100).die 0).replica ∧
        ¬ (100 : Int) - ((pwmAt 99).die 0).periodLead 0 0 ≤ ((pwmAt 99).die 0).replica) ∧
    (sharedCh.group = some 0 ∧ sharedCh.out.high = true ∧ sharedCh.out.shareAt = none ∧
        (shareDue 0).clk.elapsed < 0 + ms ∧ 0 + ms ≤ (shareDue ms).clk.elapsed ∧ (((shareDue 0).die 0).chan 0).out.shareAt = some 0 ∧ 100000 * ((shared.die 0).unit 0).length ≤ 1600000) ∧
    ((((fskSends.die 0).chan 0).fsk.run).isSome = true ∧ (fskSends.die 0).past 100 = true ∧ ((fskSends.die 0).chan 0).fsk.tx = true ∧
        ((fskSends.die 0).chan 0).mode = 11 ∧ Img.fskOn ((fskSends.die 0).chan 0).img = true ∧ ((fskSends.die 0).queued 5).isSome = true) ∧
    (((fskListens.die 0).chan 0).fsk.rx = true ∧ (fskListens.die 0).past (100 + (queued0 7 1).e.tmo * bitTime) = true) ∧
    (((((modem false true true 100).die 0).chan 0).fsk.run.any fun r => ((modem false true true 100).die 0).fskOver r true) = true ∧
      ((((modem false true true 100).die 0).chan 0).fsk.run.any fun r => r.carrier) = true) ∧
    ((((modem false true true 100).die 0).chan 0).fsk.rx = true ∧ ((trained.die 0).chan 0).fsk.run = none) := by
  decide +kernel
def epochAt (t : Nat) : State := clockAt trained t
def metered : State := withDie (withCh (inMode trained 8) fun k => { k with overMs := 9 }) fun d => { d with led := { d.led with lpMs := 9 } }
def meteredAt (t : Nat) : State := withDie (clockAt trained t) fun d => { d with led := { d.led with meterAt := some 0 } }
def adjusted (t : Nat) : State := (clockAt trained t).modHub 0 fun h => { h with adjAt := some 0 }
def changing (t : Nat) : State := (clockAt trained t).modHub 0 fun h => { h with change := some (1, 0, false), clipEp := some 0 }
theorem witness_LedgerEpochsAndPoints :
    (((epochAt iv).die 0).present = true ∧ ((epochAt iv).die 0).isoPower = true ∧
      ((epochAt iv).die 0).led.epoch * iv ≤ ((epochAt iv).die 0).replica ∧
      ((epochAt (iv - 1)).die 0).replica < ((epochAt (iv - 1)).die 0).led.epoch * iv ∧ ((epochAt iv).die 0).led.level ≤ 60000) ∧
    ((metered.die 0).on = true ∧ ((metered.die 0).chan 0).overMs = 9 ∧ (metered.die 0).led.lpMs = 9 ∧ (State.reset.die 0).on = false ∧
      (trained.die 0).led.meterAt = none ∧ ((meteredAt 0).die 0).led.meterAt = some 0 ∧ 0 + ms ≤ (meteredAt ms).clk.elapsed ∧
      (meteredAt 0).clk.elapsed < 0 + ms) ∧
    ((trained.hub 0).present = true ∧ (trained.hub 0).up = true ∧ (trained.hub 0).idle = false ∧ trained.power.boot = .complete ∧
      (trained.hub 0).change = none ∧ (trained.hub 0).changeHold ≤ trained.clk.elapsed ∧ (trained.hub 0).adjAt = none ∧
      ((adjusted 0).hub 0).adjAt = some 0 ∧ 0 + ms ≤ (adjusted ms).clk.elapsed ∧ (adjusted 0).clk.elapsed < 0 + ms ∧
      (trained.ledgerOf 0).ptMax ≤ (trained.ledgerOf 0).ptMin) ∧
    (wantPoint 0 24 1250 = some 1 ∧ wantPoint 0 25 1250 = none ∧ wantPoint 1 76 1250 = some 0 ∧ wantPoint 1 75 1250 = none ∧
      wantPoint 0 76 1249 = some 1) ∧
    (((changing ms).hub 0).change = some (1, 0, false) ∧ (changing ms).power.straps.psel = false ∧ 0 + ms ≤ (changing ms).clk.elapsed ∧
      (changing (ms - 1)).clk.elapsed < 0 + ms ∧ ((changing (100 * ms)).hub 0).clipEp = some 0 ∧
      0 + 100 * ms ≤ (changing (100 * ms)).clk.elapsed) := by decide +kernel
def request (f : PwrReq → PwrReq) (t : Nat) : State := { clockAt ready t with power := { ready.power with
  req := some (f ⟨.sleep, none, some viaSpi, 0, [], none, none, none⟩) } }
def allGranted : List PwrBlock := (request id 0).pwrBlocks ⟨.sleep, none, some viaSpi, 0, [], none, none, none⟩
def asleepPkg (src : Option Nat) : State := { trained with power := { trained.power with
  st := .sleep, sleepFrom := some 0, waking := src.map fun x => (x, none, false) } }
def handshakeLate : State := request (fun r => { r with granted := r.granted }) (10 * ms)
def portsOpen : State := request (fun r => { r with granted := allGranted.erase .ports }) 0
def committing : State := request (fun r => { r with granted := allGranted, tc := some 100 }) 100
def entering1 : State := request (fun r => { r with granted := allGranted, tc := some 100, te := some 100, yoyo := some 1 }) 100
def energyBack : State := { asleepPkg none with clk := { trained.clk with now := 10 * ms, elapsed := 10 * ms }, net := { trained.net with ports := trained.net.ports.map fun p =>
        { p with linkAtTq := true, energyOff := some 0 } } }
/-- Die 0, or the package, wakes from Deep Sleep with the lane of die 0 in state st. -/
def lowDie (st : LaneState) : State := withLane (withDie trained fun d => { d with pwr := .deepSleep, pwrBusy := true }) fun l => { l with st := st }
def dieWakes (st : LaneState) : State := { lowDie st with power := { trained.power with waking := some (6, some 0, false) } }
def packageWakes (st : LaneState) : State := { lowDie st with power := { trained.power with waking := some (6, none, false) } }
/-- The device is Off, with its rails down. -/
def railsOff : State := { trained with power := { trained.power with boot := .down, st := .off } }
def alarmed : State := { trained with core := { trained.core with pwr := { trained.core.pwr with alarm := 0, wakeCfg := 15 } } }
theorem witness_PowerHandshakeAndWake :
    (handshakeLate.power.req.isSome = true ∧ (handshakeLate.power.req.map (·.tc)) = some none ∧ 0 + 10 * ms ≤ handshakeLate.clk.elapsed ∧
        (allGranted.find? fun b => !(([] : List PwrBlock).contains b)) = some .rom) ∧
    ((portsOpen.power.req.any fun r => decide (.ports ∈ portsOpen.pwrBlocks r) && !r.granted.contains .ports && (portsOpen.mustRefuse r .ports).isNone) = true ∧
        portsOpen.mustDelay .ports = false) ∧
    ((committing.power.req.any fun r => r.tc == some 100 && r.te.isNone && decide (100 ≤ committing.clk.now)) = true) ∧
    ((entering1.power.req.any fun r => r.te == some 100 && decide (100 ≤ entering1.clk.now) && r.die.isNone && r.yoyo == some 1) = true) ∧
    (trained.sourceOn 0 = true ∧ trained.sourceLevel 0 = true ∧ trained.power.boot ≠ .down ∧
      sourceActs 0 (asleepPkg none).power.target = true) ∧
    ((asleepPkg (some 1)).power.waking = some (1, none, false) ∧ (asleepPkg none).power.req = none ∧
      (asleepPkg none).power.step = 0 ∧ (asleepPkg none).power.st = .sleep ∧ (asleepPkg none).power.waking = none) ∧
    ((energyBack.net.ports[0]).linkAtTq = true ∧ energyBack.power.sleepFrom ≠ none ∧ energyBack.power.req = none ∧ (energyBack.net.ports[0]).energyOff = some 0 ∧
        0 + 10 * ms ≤ energyBack.clk.elapsed) ∧
    ((dieWakes .trained).power.waking = some (6, some 0, false) ∧ (dieWakes .trained).dieReady 0 = true ∧
      (dieWakes .training).dieReady 0 = false ∧ (dieWakes .trained).power.st ≠ .sleep ∧ (dieWakes .trained).power.st ≠ .deepSleep) ∧
    ((packageWakes .trained).power.waking = some (6, none, false) ∧ (packageWakes .trained).power.st = .run ∧
      (packageWakes .trained).stillLow = [0] ∧ ((packageWakes .trained).wakeDies ((packageWakes .trained).stillLow.filter (packageWakes .trained).dieReady)).stillLow = [] ∧
      ((packageWakes .training).wakeDies ((packageWakes .training).stillLow.filter (packageWakes .training).dieReady)).stillLow = [0]) ∧
    (railsOff.power.boot = .down ∧ railsOff.sourceOn 0 = true ∧ (railsOff.sourceLevel 0 = true ∨ railsOff.power.wakeN = false)) ∧
    (alarmed.alarmSeen = true ∧ trained.alarmSeen = false ∧ trained.power.st ≠ .deepSleep) ∧
    (committing.power.step = 0 ∧ (committing.power.req.any fun r => r.die.isNone && r.tc == some 100) = true ∧ 100 ≤ committing.clk.now ∧
      committing.clk.now < 100 + 4 * us ∧ sourceActs 0 committing.power.target = true ∧ committing.sourceOn 0 = true) := by
  and_intros <;> decide +kernel
def goingDown (n : Nat) (f : Bool) : State := { clockAt on ms with power := { on.power with step := n, failure := f } }
theorem witness_PowerUpAndDown :
    (State.reset.power.boot = .unpowered ∧ on.power.boot = .complete ∧ on.power.step = 0 ∧
      (nextOf (exec (.powerUp ⟨false, true, false⟩) State.reset)).power.boot = .starting ∧
      (nextOf (exec (.powerUp ⟨false, true, true⟩) State.reset)).power.boot = .heldInReset) ∧
    ((goingDown 2 false).power.step = 2 ∧ (goingDown 2 false).power.stepAt + ms ≤ (goingDown 2 false).clk.elapsed ∧
      (goingDown 2 false).clk.elapsed - 1 < (goingDown 2 false).power.stepAt + ms ∧ (goingDown 2 false).power.failure = false) ∧
    ((goingDown 1 false).power.step = 1 ∧ (goingDown 1 true).power.failure = true ∧ (goingDown 5 false).power.step = 5 ∧
      (goingDown 1 false).power.downEvent / 16 % 4 = 0 ∧ bit (BitVec.ofNat 32 (goingDown 4 false).power.downEvent) 6 = false) := by
  decide +kernel
theorem witness_RegisterAddresses :
    on.locate 0x150FFC = .page (.die 1 16) 0xFFC := by decide +kernel
theorem witness_RegisterAddresses_commands : Runs on viaSpi 0x0010 ∧ Runs on viaSpi 0x0011 ∧ 0x5041 % 4 ≠ 0 := by decide +kernel
theorem witness_WatchdogKeys :
    Reaches (dog false 0) .zcs (.hub 0 5) 0x48 ∧ (dog false 0).wdIsLate (dog false 0).clk.elapsed = false ∧ (dog false 0).core.wd.running = true ∧
      (dog false 0).core.wd.armed = false ∧ ((dog false 0).hdr (.hub 0 5)).frozen = none ∧
    Reaches (dog true 50000) .zcs (.hub 0 5) 0x48 ∧ (dog true 50000).wdIsLate (dog true 50000).clk.elapsed = false ∧
      (dog true 50000).core.wd.lateAt ≠ some (dog true 50000).clk.elapsed ∧
      (dog true 50000).core.wd.c ≤ (dog true 50000).core.wd.n (dog true 50000).clk.elapsed ∧
      (dog true 49999).core.wd.n (dog true 49999).clk.elapsed < (dog true 49999).core.wd.c ∧
      (dog true 50000).core.wd = { (dog false 0).core.wd with armed := true } := by decide +kernel
theorem witness_PolicyBounds :
    ((⟨1, 0⟩ : Policy).ceil < (⟨1, 0⟩ : Policy).floor) ∧
    (Reaches on .zcs (policyAt (.package 0) 0).1 (policyAt (.package 0) 0).2 ∧ (⟨1, 0⟩ : Policy) = ⟨fld 1#32 0 16, fld 1#32 16 16⟩) ∧
    (4000 - 490 < ((((trained.die 0).led.policy.set 2 ⟨3511, 0xFFFF⟩).toList).map (·.floor)).sum) ∧
    (Reaches trained .zcs (policyAt (.die 0) 2).1 (policyAt (.die 0) 2).2) ∧
    (Runs on viaSpi 0x0051 ∧ on.policyScope { polP with floor := 1#16, ceil := 0#16 } = some (.package 0, .hub 0 3) ∧
      on.pageLocked (.hub 0 3) = false ∧ on.locOn (.hub 0 3) 0x40 = true) := by decide +kernel
theorem witness_IdleStepIsATick : on.pending = [] ∧ on.power.boot ≠ .unpowered ∧ State.reset.power.boot = .unpowered ∧
    (on.die 0).coasting = false ∧ (on.die 0).realign = 0 ∧ (coastingFrame.die 0).coasting = true ∧
    (coastingFrame.die 0).frac + (coastingFrame.die 0).coastFreq = 0 := by
  decide +kernel
theorem witness_StepTakesTheFrontCommand : ∃ t, step { on with pending := [.deferralRetry] } = .next t ∧ t.pending = [] := by
  refine ⟨_, rfl, ?_⟩
  decide +kernel
theorem witness_EventsKept : EventsWhole trained ∧ isNext (step { trained with pending := [.deferralRetry] }) = true := by
  unfold EventsWhole
  decide +kernel
theorem witness_PoolsKept : PoolsWhole trained ∧ isNext (step { trained with pending := [.deferralRetry] }) = true := by
  unfold PoolsWhole
  decide +kernel

/-! ### Witnesses: further clauses -/

/-- The package sleeps, with its hubs at keep-alive. -/
def sleeping : State := { trained with power := { trained.power with st := .sleep, sleepFrom := some 0 } }
theorem witness_AxisWrites : axisIgnores .cpr 0#32 = true ∧ axisIgnores .cpr 3#32 = true ∧ axisIgnores .cpr 4#32 = false ∧ axisIgnores .cfg 0#32 = false := by
  decide +kernel
theorem witness_PowerRequests_more :
    (Reaches sleeping (.spi 0) (.hub 0 4) 0x40 ∧ sleeping.awake = false) ∧
    (Runs wakeAsserted viaSpi 0x0060 ∧ wakeAsserted.dieOf 0 = some 0 ∧ wakeAsserted.power.busy = false ∧ (wakeAsserted.die 0).pwr = .run ∧
      wakeAsserted.assertedNow .sleep = some 0 ∧ on.assertedNow .deepSleep = none) := by decide +kernel
theorem witness_HostSpi_more :
    (on.mirroring = false ∧ ready.mirroring = true ∧ ready.spiAlive 0 = true ∧ ready.active = 0) ∧
    (sleeping.spiAlive 0 = true ∧ sleeping.awake = false ∧ sleeping.active = 0 ∧ on.awake = true ∧ tunnelWaits.awake = true) ∧
    ((ready.writeRun (.spi 0) ((spiRun 0x5040#24 1).zip [0#32])).mirroring = true ∧
      (on.writeRun (.spi 0) ((spiRun 0x5040#24 1).zip [0#32])).mirroring = false) := by decide +kernel
/-- A RENEW waits on lane 0 past 31 slots; a kept frame waits to go again. -/
def leaseWaits : State := withLane (clockAt admitted ms) fun l => { l with lease := some .renew, mgmtDownAt := 0 }
def keptAgain : State := withLane trained fun l => { l with again := [.access none] }
theorem witness_Promotion_more :
    ((admitted.lane admitted.active 0).leaseDue admitted.clk.elapsed = false ∧ (mirrored.lane mirrored.active 0).leaseDue mirrored.clk.elapsed = false ∧
      (leaseWaits.lane leaseWaits.active 0).leaseDue leaseWaits.clk.elapsed = true) ∧
    (((promoting 1).lane 0 0).nextPromo = some (5, 1) ∧ (promoting 1).carries 0 0 (.promo 5 1) = true ∧
      ((promoting 1).lane 0 0).mayGo (promoting 1).clk.elapsed (.promo 5 1) = true ∧
      ((promoting 1).lane 0 0).down.resend = [] ∧ ((promoting 1).lane 0 0).again = [] ∧
      ((lostDown (promoting 1)).lane 0 0).nextPromo = some (5, 1) ∧ (lostDown (promoting 1)).carries 0 0 (.promo 5 1) = true ∧
      ((lostDown (promoting 1)).lane 0 0).mayGo 0 (.promo 5 1) = true ∧ (trained.lane 0 0).nextPromo = none ∧
      ((withLane (promoting 1) fun l => { l with again := [.access none] }).lane 0 0).nextPromo = none) := by decide +kernel
theorem witness_ManagementFrames_more :
    (trained.carries 0 0 (.access none) = true ∧ (trained.lane 0 0).mayGo 0 (.access none) = true ∧
      (lostDown trained).carries 0 0 (.access none) = true ∧ ((lostDown trained).lane 0 0).mayGo 0 (.access none) = true ∧
      (keptAgain.lane 0 0).mayGo 0 (.access none) = true ∧ on.carries 0 0 (.access none) = false ∧
      ((promoting 1).lane 0 0).mayGo 0 (.access none) = false) := by decide +kernel
/-- The String is in state st, with n failed trainings and r bad frames in a row. -/
def strIn (st : LaneState) (n r : Nat) (t : Nat) : State := { clockAt trained t with mirror := { trained.mirror with str := { trained.mirror.str with
  st := st, failRun := n, failAt := 0, down := { trained.mirror.str.down with crcRun := r } } } }
theorem witness_LaneCreditsAndTraining_string :
    ((strIn .trained 0 16 0).mirror.str.st = .trained ∧ 16 ≤ (strIn .trained 0 16 0).mirror.str.down.crcRun ∧
      trained.mirror.str.down.crcRun < 16 ∧ trained.mirror.str.up.crcRun < 16) ∧
    ((strIn .failed 3 0 (10 * ms)).variant.dual = true ∧ ((strIn .failed 3 0 (10 * ms)).hub 0).up = true ∧
      (strIn .failed 3 0 (10 * ms)).mirror.str.st = .failed ∧
      (strIn .failed 3 0 (10 * ms)).mirror.str.failAt + 10 * ms ≤ (strIn .failed 3 0 (10 * ms)).clk.elapsed ∧
      (strIn .failed 3 0 0).clk.elapsed < (strIn .failed 3 0 0).mirror.str.failAt + 10 * ms) ∧
    (trained.strung = true ∧ on.strung = false) ∧
    ((trained.lane 0 0).nextDown 0 = .access none) := by decide +kernel
def wiredReady : State := { ready with mirror := { ready.mirror with wire := [unit9] } }
theorem witness_Mirroring_more :
    ((strIn .training 3 0 0).variant.dual = true ∧ (strIn .training 3 0 0).mirror.str.st = .training ∧
      3 ≤ (strIn .training 3 0 0).mirror.str.failRun ∧ (strIn .training 2 0 0).mirror.str.failRun < 3 ∧
      (strIn .training 2 0 0).serving = true ∧ ({ stoppedHub true with mirror := (strIn .training 2 0 0).mirror } : State).serving = false) ∧
    (wiredReady.applying = true ∧ wiredReady.mirror.wire = [unit9] ∧ wiredReady.strung = true ∧ wiredReady.mirror.rx = none ∧
      (wiredReady.strFlow wiredReady.active).canSend = true ∧ (wiredReady.strFlow wiredReady.active).inSeq = true ∧
      (strLost wiredReady).applying = true ∧ ((strLost wiredReady).strFlow 0).inSeq = false ∧ (lostHub true).applying = false) := by decide +kernel
theorem witness_FieldLeases_more :
    (trained.renews 0 = true ∧ (trained.hub 0).renewMult ≠ some (trained.multiple 0) ∧
      ((trained.modHub 0 fun h => { h with renewMult := some 0 }).hub 0).renewMult = some ((clockAt trained 0).multiple 0)) ∧
    (((trained.modHub 1 fun h => { h with claiming := some (0, 0, none, 0) }).hub 1).claimMult ≠
      some ((trained.modHub 1 fun h => { h with claiming := some (0, 0, none, 0) }).multiple 1)) ∧
    (∀ m ∈ [LeaseMsg.renew, .claim 0, .release 0], ((leaseSt m (some 0)).lane 0 0).nextLease = some m ∧
      (leaseSt m (some 0)).carries 0 0 (.lease m) = true ∧ ((leaseSt m (some 0)).lane 0 0).mayGo 0 (.lease m) = true ∧
      ((leaseSt m (some 0)).lane 0 0).down.canSend = true ∧ ((leaseSt m (some 0)).lane 0 0).down.inSeq = true ∧
      ((leaseSt m (some 0)).lane 0 0).down.resend = [] ∧ ((leaseSt m (some 0)).lane 0 0).again = [] ∧
      (lostDown (leaseSt m (some 0))).carries 0 0 (.lease m) = true ∧ ((lostDown (leaseSt m (some 0))).lane 0 0).mayGo 0 (.lease m) = true ∧
      ((lostDown (leaseSt m (some 0))).lane 0 0).nextLease = some m) ∧ (trained.lane 0 0).nextLease = none ∧
    (withDie (leaseSt (.claim 0) (some 0)) fun d => { d with pwr := .sleep }).carries 0 0 (.lease (.claim 0)) = false := by decide +kernel
/-- Hub 1 is DETACHED and no die's lease names anyone; hub 1 restarts. -/
def orphan : State := (trained.modHub 1 fun h => { h with hstate := .detached })
def orphaned : State := { orphan with dies := orphan.dies.map fun d => { d with holder := none } }
def rebooting (peer : Bool) : State := (trained.modHub 1 fun h => { h with up := false, booting := true, hstate := .failed }).modHub 0 fun h =>
  { h with up := peer, hstate := if peer then .active else .failed }
theorem witness_HubRolesAndRestarts_more :
    ((hubFailed.hub 1).booting = false ∧ (orphaned.hub 1).present = true ∧ orphaned.power.boot = .complete ∧ (orphaned.hub 1).up = true ∧
      (orphaned.hub 1).hstate = .detached ∧ (∀ d ∈ orphaned.presentDies, (orphaned.die d).holder = none) ∧ orphaned.mirror.held = [] ∧
      ¬(∀ d ∈ orphan.presentDies, (orphan.die d).holder = none)) ∧
    (((rebooting true).hub 1).present = true ∧ ((rebooting true).hub 1).up = false ∧ ((rebooting true).hub 1).booting = true ∧
      (rebooting true).power.boot = .complete ∧ ((rebooting true).hub (other 1)).present = true ∧ ((rebooting true).hub (other 1)).up = true ∧
      ((rebooting true).hub (other 1)).hstate = .active ∧ ((rebooting false).hub (other 1)).up = false ∧ ((rebooting false).hub 1).booting = true) ∧
    ((trained.raiseFault trained.active 1 (srcHub 0)).standbyReady = false ∧ (ready.raiseFault ready.active 1 (srcHub 0)).standbyReady = true ∧
      ready.core.redun.faultSwitch = true) ∧
    (trained.quiet 0 = true ∧ queued2.quiet 0 = false ∧ queued2.awake = true ∧ (queued2.hub 0).up = true) := by decide +kernel
theorem witness_LinksAndSessions_roles :
    ((trained.power.step = 0 ∧ trained.variant.dual = true ∧ trained.mirror.str.st = .trained ∧ single.variant.dual = false ∧
      on.mirror.str.st ≠ .trained ∧ (trained.hub (other trained.active)).keyRole = none) ∧
    ((trained.modHub 1 fun h => { h with keyRole := some 100 }).hub (other 0)).keyRole = some 100 ∧ trained.clk.elapsed < 100) ∧
    ({ on with power := { on.power with step := 1 } } : State).power.step ≠ 0 ∧
    (((graced 100).takeRole true).isSome = true ∧
      (({ graced 100 with power := { (graced 100).power with step := 1 } } : State).takeRole true).isNone = true) := by decide +kernel
/-- An OUT_SET whose gate command would go at 999,000 ticks, before a step that comes at 1,000,000. -/
def stepFirst : State := { ripeAt 999999 with sync := { trained.sync with step := some (1000000, 5) } }
/-- An off-pulse that began at t. -/
def pulsedAt (t : Nat) : Die := (withOut (driving 8) fun o => { o with pulse := some t }).die 0
theorem witness_EntryExecution_more :
    ((ripeAt 1000000).waitsForT (queued0 3 0) = false ∧ misses.waitsForT (queued0 3 0) = false ∧ stepFirst.waitsForT (queued0 3 0) = true ∧
      stepFirst.queued 5 = some (queued0 3 0)) ∧
    (((pulsedAt 0).chan 0).group = none ∧ ((pulsedAt 0).chan 0).diag.backfeed = false ∧
      (((pulsedAt 0).chan 0).out.pulse.any fun p => decide (p + 200 * us ≤ 200 * us)) = true ∧
      (((pulsedAt 1).chan 0).out.pulse.any fun p => decide (p + 200 * us ≤ 200 * us)) = false) ∧
    (trained.switching = false ∧ switchingOver.switching = true) := by decide +kernel
/-- A crossing before the restart's span; reach of a reset's dies. -/
def crossedEarly : State := withCh angled fun k => { k with chain := { k.chain with cross := [(7, 0)], tq := 0 } }
theorem witness_ModeChangesAndResults_more :
    (((crossedEarly.die 0).chan 0).chain.cross = [(7, 0)] ∧ (crossedEarly.die 0).past (0 + ((crossedEarly.die 0).chan 0).span) = true ∧
      (0 : Nat) < ((crossedEarly.die 0).chan 0).chain.tq + ((crossedEarly.die 0).chan 0).span ∧
      ((angled.die 0).chan 0).chain.tq + ((angled.die 0).chan 0).span ≤ 30 * 12000) ∧
    (resetDue.linked resetDue.active 0 = true ∧ (resetDue.die 0).holder = some resetDue.active ∧
      (withDie resetDue fun d => { d with holder := some 1 }).linked 0 0 = true ∧ on.linked on.active 0 = false) := by decide +kernel
theorem witness_InputsAndCounts_pairs :
    ((0 : Nat) ≤ 2 ∧ nearEnc.la = some 0 ∧ (100 : Nat) < 0 + 300 ∧ nearEnc.zMode = 0) ∧
    (({ nearEnc with dec := 3 } : EncSt).dec > 2 ∧ ({ nearEnc with zMode := 1 } : EncSt).zMode = 1 ∧ ({ nearEnc with zMode := 2 } : EncSt).zMode = 2) := by
  decide +kernel
theorem witness_Diagnostics_groups :
    (((shared.die 0).chan 1).group = some 0 ∧ (shared.die 0).unit 1 = [0, 1] ∧ ((driving 8).die 0).on = true) ∧
    ((inMode trained 2).die 0).on = true ∧ (asleep.die 0).on = false ∧ (((inMode trained 2).die 0).chan 0).trans = none ∧
    ((((inMode trained 2).die 0).modDiag 0 fun g => g.openResult (Img.owFilt (((inMode trained 2).die 0).govern 0)) false).chan 0).diag.openW =
      (((inMode trained 2).die 0).chan 0).diag.openW := by decide +kernel
theorem witness_DieSafety_deepSleep : ((asleep.die 0).pwr = .deepSleep) := by decide +kernel
theorem witness_AuxiliaryConverter_more :
    (((auxDie id (100 * ms)).die 0).past (nextMultiple (((auxDie id 0).die 0).aux.passMs * ms) ((auxDie id 0).die 0).aux.passFrom) = true ∧
      ((auxDie id 0).die 0).on = true) ∧
    (((entryRuns 0#32 (100 * ms)).die 0).aux.entry ≠ none ∧
      ((entryRuns 0#32 (100 * ms)).die 0).past (nextMultiple (((auxDie id 0).die 0).aux.passMs * ms) ((auxDie id 0).die 0).aux.passFrom) = true) ∧
    ((trained.die 0).aux.cutAt = none ∧ (trained.die 0).aux.injRun = none ∧ (trained.die 0).aux.entry = none) ∧
    (((injected 0).die 0).aux.injRun = some (0, 5, 0, 0, [0x00#32]) ∧
      (((injWindows [testWord 1] 0 true).zip [testWord 1]).find? fun v => decide (((injected 0).die 0).replica < v.1.2)).isSome = true) := by
  decide +kernel
/-- An encoder axis that is at the reference already. -/
def x0 (p : Nat) : Axis := { encAxis.core.axis 0 with pos := p, zero := p }
theorem witness_MainsAndAxes_more :
    ((windowEnds.die 0).on = true ∧ (asleep.die 0).on = false) ∧
    ((x0 5).zCorrection ≤ 0 ∧ 0 < (encAxis.core.axis 0).zCorrection ∧ (encAxis.core.axis 0).moving = false ∧ (netAxis.core.axis 3).moving = true) := by
  decide +kernel
/-- A power request of die 0 has been granted. -/
def enteringDie : State := { trained with power := { trained.power with req := some ⟨.sleep, some 0, some viaSpi, 0, [], some 0, none, none⟩ } }
/-- Both banks of the warm-start set are written, either one the newer. -/
def warmBanks (a b : Nat) : NvStore := { (trained.hub 0).nv with warmA := some (a, []), warmB := some (b, []) }
theorem witness_Carousel_more :
    (slotStart.enteringSleep 0 = false ∧ enteringDie.enteringSleep 0 = true) ∧
    ((warmBanks 1 2).warmA = some (1, []) ∧ (warmBanks 1 2).warmB = some (2, []) ∧ (1 : Nat) < 2 ∧ (warmBanks 2 2).warmA = some (2, [])) ∧
    (single.power.step = 0 ∧ ({ on with power := { on.power with step := 1 } } : State).power.step ≠ 0) := by decide +kernel
def sharedCh0 : Channel := (shared.die 0).chan 0
/-- A PWM period at 100 whose low phase would be cut by an OUT_SET at 60. -/
def pwmCut : State := withQueued (pwmAt 55) { queued0 3 0 with e := { outSet0 with opcode := 3#8, time := 60#64, param := 0#32 } }
/-- A period of 100,000 ticks; one whose high phase is cut by an OUT_SET at 40. -/
def pwmLong : State := withOut (pwmAt 55) fun o => { o with period := 100000 }
def pwmCutHigh : State := withQueued pwmLong { queued0 3 0 with e := { outSet0 with opcode := 3#8, time := 40#64, param := 0#32 } }
theorem witness_PwmAndFsk_more :
    (minPhase (Img.slew ((pwmLong.die 0).govern 0)) ≤ (pwmLong.die 0).lowLen 0 ∧ 0 < (pwmLong.die 0).lowLen 0 ∧
      0 < (pwmCut.die 0).lowLen 0 ∧ (pwmCut.die 0).lowLen 0 < minPhase (Img.slew ((pwmCut.die 0).govern 0)) ∧
      (pwmCutHigh.die 0).lowLen 0 = 0 ∧ (pwmLong.die 0).cutAfter 0 0 = none ∧ (pwmCut.die 0).cutAfter 0 0 = some 60 ∧
      ((pwmAt 100).die 0).on = true ∧ ((pwmCut.die 0).chan 0).out.hEnd = 50 ∧
      ((50 : Nat) : Int) - (pwmCut.die 0).comp 0 0 false ≤ (pwmCut.die 0).replica) ∧
    ((sharedCh0.out.imbal = false) ∧ ((modem false true true 100).die 0).queued 5 = some (queued0 7 1)) := by decide +kernel
/-- Die 0 enters Sleep, its entry complete at 100. -/
def dieEntry (y : Option Nat) : State := request (fun r => { r with die := some 0, granted := allGranted, tc := some 99, te := some 100, yoyo := y }) 100
theorem witness_PowerHandshakeAndWake_dies :
    ((dieEntry none).power.req.any fun r => r.die == some 0 && r.te == some 100 && r.yoyo.isNone) = true ∧
    ((dieEntry (some 1)).power.req.any fun r => r.die == some 0 && r.te == some 100 && r.yoyo == some 1) = true ∧ 100 ≤ (dieEntry none).clk.now ∧
    ((request id 0).power.req.map (·.tc) = some none ∧ (request id 0).sourceOn 0 = true ∧ sourceActs 0 (request id 0).power.target = true) ∧
    ((committing.clk.now < 100 + 4 * us) ∧ (request (fun r => { r with tc := some 100 }) 99).clk.now < 100 ∧
      100 + 4 * us ≤ (request (fun r => { r with tc := some 100 }) (100 + 4 * us)).clk.now) ∧
    ((goingDown 2 false).power.req = none ∧ (goingDown 2 false).power.step ≠ 0 ∧ (goingDown 2 true).power.failure = true ∧
      (goingDown 2 false).sourceOn 0 = true ∧ sourceActs 0 (goingDown 2 false).power.target = true) := by decide +kernel
theorem witness_PolicyBounds_more : on.policyBar (.package 0) = none ∧ trained.policyBar (.die 0) = none ∧ on.policyBar (.die 0) = some .blockOff := by
  decide +kernel
theorem witness_WatchdogConfiguration_more : on.serving = true ∧ (dog false 49999).serving = true := by decide +kernel

/-- The watchdog changed, at t ticks. -/
def dogTick (t : Nat) (f : Wdog → Wdog) : State := { clockAt ready t with core := { ready.core with wd := f { ready.core.wd with en := true, start := 0 } } }
/-- The watchdog is late at 100,000 µs with ACT_LATE a, in a package like s. -/
def lateBy (a : Nat) (s : State) : State := { dogTick (100000 * us) (fun w => { w with actLate := a }) with hubs := s.hubs }
def afterEarly (a : Nat) : State := (dogTick us fun w => { w with actEarly := a, armed := true }).wdViolate .early (us + 1)
def afterSeq (a : Nat) : State := (dogTick us fun w => { w with actSeq := a, armed := true }).wdViolate .seq us
/-- 1,024 stored configurations; a stored one beside a locked page. -/
def lockedSet7 : State := { withSet7 with dies := lockedCh.dies }
def fullSets : State := { trained with core := { trained.core with sets := (List.range 1024).map fun i => (i + 1, 0#16, calImage) } }
/-- A frame waits at port 0 in a gate cycle whose gates are open. -/
def sends : State := { linkedEnabled with net := { linkedEnabled.net with egress := linkedEnabled.net.egress.set 0 [(0, .supervision 1)] } }
def spiOpened (n : Option Nat) : State := { on with core := { on.core with spi := { on.core.spi with epoch := 7, next := n } } }
/-- A tunnel request of the SPI session of `spiOpened`, with a SEQ. -/
def tunnelled (seq : Nat) : TunnelMsg :=
  { tunnelMsg with boot := BitVec.ofNat 32 on.act.nv.boot, epoch := 7#32, seq := BitVec.ofNat 32 seq, length := 4#16, body := [3#8, 0#8, 0#8, 0#8] }
def tunnelledOpen : TunnelMsg := { tunnelMsg with length := 12#16, body := openBytes }
def strayHub : State := syncing.modHub 1 fun h => { h with nv := { h.nv with boot := 9 } }
/-- Hub 0, restarting, is still the active one, and hub 1 is READY. -/
def restarting0 : State := (ready.modHub 0 fun h => { h with up := false, booting := true, hstate := .failed })
def stagedFault : State := trained.modHub 1 fun h => { h with log := { h.log with staged := [{ someRec with code := Ev.code .yoyoWake }], seq := 0 } }
def pairAxis : State := withDie encAxis fun d => { d with holder := none }
/-- A package Sleep entry whose response waits in the tunnel. -/
def answerWaits : State := { committing with core := { committing.core with spi := { committing.core.spi with
  tunnel := [committing.message .spi 2 1 1 false (respBody (resp 0x0060 .ok []))] } } }
/-- H1 absent: HUBMODE is low in a D part. -/
def lowHubmode : State := { on with variant := { on.variant with dPart := true, dual := false } }
def passedSlot : State := withDie (clockAt (inMode trained 2) (sec + 5)) fun d => d.modSpare 0 fun p => { p with slotFrom := 1, phase := .idle }
def transOut : State := withCh (ripeAt 1000000) fun k => { k with trans := some 800000 }
def uvKept : State := withDie (inMode trained 8) fun d => { d with uvLow := true }
/-- A result whose span holds a restart at tq; a late-known crossing before it. -/
def cutAt (tq : Nat) : State := withCh timeLocked fun k => { k with chain := { k.chain with tq := tq } }
def crossCut (tq : Nat) : State := withCh angled fun k => { k with chain := { k.chain with tq := tq } }

theorem witness_ReadsAndSteps :
    ((nextOf (exec (.powerUp ⟨false, true, true⟩) State.reset)).power.boot = .heldInReset ∧ sends.pending = [] ∧
      sends.portSends 0 = true ∧ on.portSends 0 = false ∧ State.reset.pending = []) ∧
    (on.locate 0xC000 = .reserved ∧ single.locate 0x80000 = .absent ∧ Runs single viaSpi 0x0010 ∧ Runs on viaSpi 0x0010) ∧
    (asleep.locate 0x100040 = .page (.die 0 0) 0x40 ∧ asleep.locOn (.die 0 0) 0x40 = false ∧ Runs asleep viaSpi 0x0010) ∧
    (trained.locate 0x1048 = .page (.hub 0 1) 0x48 ∧ trained.locOn (.hub 0 1) 0x48 = true ∧ trained.pageHeard (.hub 0 1) 0x48 = true) ∧
    ((latchOf (.hub 0 1) 0x48).1 = [0x4C] ∧ (latchOf (.hub 0 1) 0x40).1 = [] ∧ assoc (trained.hdr (.hub 0 1)).latch 0x4C = none ∧
      assoc ((trained.readReg (.hub 0 1) 0x48).1.hdr (.hub 0 1)).latch 0x4C = some (hi32 trained.clk.now)) ∧
    ((trained.hdr (chanPage c0)).frozen = none ∧ (trained.chan c0).heldFrac = none ∧
      assoc (((trained.setFreeze (chanPage c0) true).hdr (chanPage c0)).frozen.getD []) 0x44 = some (trained.chan c0).word ∧
      ∀ x ∈ trained.pageRegs (.hub 0 5), x.off ≠ 0x3C) ∧
    (∀ r ∈ [1, 3, 4, 5, 10], (trained.hdr (.hub 0 r)).frozen = none) := by and_intros <;> decide +kernel
theorem witness_Sessions_more : on.serving = true ∧ on.switching = false ∧ on.core.session 0 = none := by decide +kernel
theorem witness_WatchdogService_more :
    (Runs locked5 viaSpi 0x0062 ∧ locked5.pageLocked (.hub locked5.active 5) = true) ∧
    (Runs on viaSpi 0x0062 ∧ on.pageLocked (.hub on.active 5) = false ∧ on.core.wd.running = false) ∧
    ((dog false 49000).core.wd.n ((dog false 49000).clk.elapsed + 1) < (dog false 49000).core.wd.c ∧
      (dog false 49000).wdIsLate ((dog false 49000).clk.elapsed + 1) = false) ∧
    ((dogTick (100000 * us - 1) id).wdIsLate (100000 * us - 1) = false ∧ (dogTick (100000 * us - 1) id).wdIsLate (100000 * us) = true ∧
      (dogTick (100000 * us - 1) id).core.wd.lateAt ≠ some (100000 * us) ∧ (dogTick (100000 * us - 1) id).core.wd.running = true ∧
      (dogTick (100000 * us - 1) id).core.wd.armed = false ∧ Runs (dogTick us id) viaSpi 0x0062) ∧
    ((afterSeq 0).serving = true ∧ (afterSeq 0).core.wd.running = true ∧ (afterSeq 0).wdIsLate (us + 1) = false ∧
      (afterSeq 0).core.wd.lateAt ≠ some (us + 1) ∧ (afterSeq 0).core.wd.armed = false ∧ (afterSeq 3).serving = false ∧
      (afterEarly 3).serving = false ∧ (afterEarly 0).serving = true) ∧
    ((lateBy 2 ready).wdIsLate (100000 * us) = true ∧ (lateBy 2 ready).standbyReady = true ∧ (lateBy 2 on).standbyReady = false ∧
      (lateBy 2 on).wdIsLate (100000 * us) = true ∧ (lateBy 3 on).wdIsLate (100000 * us) = true) := by and_intros <;> decide +kernel
theorem witness_WatchdogConfiguration_all :
    ((dog false 50000).wdAccepts = true ∧ wdPeriodOk 1000#32 = true ∧ (dog false 49999).wdAccepts = false ∧
      Reaches (dog false 49999) .zcs (.hub 0 5) 0x44 ∧ (dog false 49999).core.wd.en = true) ∧
    (Runs (dog false 50000) viaSpi 0x0061 ∧ (dog false 50000).pageLocked (.hub 0 5) = false ∧
      (dog false 50000).wdIsLate (dog false 50000).clk.elapsed = false ∧ (3#8 : Byte).getLsbD 0 = true ∧ (3#8 : Byte).getLsbD 1 = true ∧
      (0#8 : Byte).getLsbD 0 = false ∧ (dog false 50000).wdCode2 1#32 = false) ∧
    (single.wdCode2 0x08#32 = true ∧ Runs single viaSpi 0x0061 ∧ single.pageLocked (.hub 0 5) = false) := by decide +kernel
theorem witness_ChannelCommands_sets :
    (fullSets.core.sets.length = 1024 ∧ (fullSets.core.sets.any fun x => x.1 == 1024) = true ∧
      (fullSets.core.sets.any fun x => x.1 == 1025) = false ∧ Runs fullSets viaSpi 0x0020 ∧ fullSets.imageOk .spi c0 calImage = true) ∧
    (lockedSet7.imageLocked c0 calImage = true ∧ lockedSet7.core.sets.find? (fun x => x.1 == 7 && x.1 != 0) = some (7, 0#16, calImage) ∧
      Runs lockedSet7 viaSpi 0x0021) := by decide +kernel
theorem witness_HostSpi_tunnel :
    ((∀ m ∈ [tunnelledOpen, tunnelled 5], TunnelMsg.sound m = true) ∧ (spiOpened none).serving = true ∧ (spiOpened none).awake = true ∧
      TunnelMsg.sound { tunnelMsg with kind := 2#8 } = false) ∧
    (TunnelMsg.opens tunnelledOpen = true ∧ TunnelMsg.opens (tunnelled 5) = false ∧ (spiOpened none).tunnelLive (tunnelled 5) = true ∧
      (spiOpened none).tunnelLive tunnelMsg = false) ∧
    ((spiOpened none).core.spi.ahead 5 = 0 ∧ (spiOpened (some 5)).core.spi.ahead 6 = 1 ∧ (spiOpened (some 5)).core.spi.ahead 12 = 7 ∧
      (spiOpened (some 16)).core.spi.ahead 0 = 2 ^ 32 - 16 ∧ (spiOpened (some 5)).core.spi.ahead 13 = 8) := by decide +kernel
theorem witness_Lanes_more :
    (trained.ticking = true ∧ sleeping.ticking = true ∧ State.reset.ticking = false ∧ held.ticking = true) ∧
    (admitted.mayPromote 0 = true ∧ mirrored.mayPromote 0 = true ∧ (promoting 1).mayPromote 0 = false ∧ leaseWaits.mayPromote 0 = false) ∧
    (trained.asksAgain (.lane 0 0) = true ∧ trained.asksAgain .string = true ∧
      (withDie trained fun d => { d with pwr := .sleep }).asksAgain (.lane 0 0) = false) := by decide +kernel
theorem witness_Hubs_more :
    (strayHub.strung = true ∧ (strayHub.hub 1).hstate = .syncing ∧ strayHub.act.nv.boot ≠ max (strayHub.hub 0).nv.boot (strayHub.hub 1).nv.boot) ∧
    (restarting0.active = 0 ∧ (restarting0.hub 0).up = false ∧ (restarting0.hub 0).booting = true ∧ restarting0.power.boot = .complete ∧
      (restarting0.hub 0).present = true ∧ (restarting0.hub (other 0)).present = true ∧
      (restarting0.hub (other 0)).hstate = .ready ∧ (restarting0.hub (other 0)).up = true) ∧
    (alwaysCopied.contains (Ev.code .yoyoWake) = true ∧ (stagedFault.hub 1).log.bbFrozen = false ∧
      (stagedFault.hub 1).log.bbWait.length + (stagedFault.hub 1).log.staged.length ≤ 64 ∧ (State.reset.hub 0).log.staged = []) ∧
    ((0 : HubId) = (stagedLog []).active ∧ (stagedLog []).strung = true ∧ stagedFault.strung = true ∧ (1 : HubId) ≠ stagedFault.active ∧
      ({ stagedFault with mirror := on.mirror } : State).strung = false) ∧
    (on.core.sessOf (.udp 0 1) = none ∧ oneSession.core.sessOf (.udp 0 2) = none ∧ oneSession.core.sessOf (.udp 0 1) = some sess0) := by
  decide +kernel
theorem witness_Transition_more :
    (transOut.chan c0).trans = some 800000 ∧ (queued0 3 0).e.isTransOut = true ∧ 800000 + 50 * us ≤ (queued0 3 0).nextAt ∧
      transOut.queued 5 = some (queued0 3 0) := by decide +kernel
theorem witness_Restarts_more :
    (lockedCh0.chain.tq + lockedCh0.span ≤ stamp0) ∧
    (((cutAt stamp0).die 0).refCuts ((stamp0 : Int) - lockedCh0.span) (stamp0 + lockedCh0.span) = false ∧
      stamp0 < ((cutAt stamp0).chan c0).chain.tq + lockedCh0.span ∧ ((cutAt stamp0).chan c0).chain.tq < stamp0 + lockedCh0.span) ∧
    (((crossCut (30 * 12000)).chan c0).chain.tq < 30 * 12000 + ((crossCut 0).chan c0).span ∧
      30 * 12000 < ((crossCut (30 * 12000)).chan c0).chain.tq + ((crossCut 0).chan c0).span) ∧
    (30 * 12000 + ((crossCut 0).chan c0).span ≤ ((crossCut 900000).chan c0).chain.tq ∧
      ((crossCut 900000).die 0).refCuts ((30 * 12000 : Int) - ((crossCut 0).chan c0).span) (30 * 12000 + ((crossCut 0).chan c0).span) = false) := by
  decide +kernel
theorem witness_Diagnostics_more :
    ((uvKept.die 0).uvLow = true ∧ (uvKept.die 0).isoPower = true ∧ ((uvKept.die 0).chan 0).watched = true ∧
      ((uvKept.die 0).chan 0).latched = false ∧ (trained.die 0).uvLow = false ∧ ((trained.die 0).chan 0).watched = false) ∧
    ((asleep.die 0).on = false ∧ (monitored.die 0).on = true) := by decide +kernel
theorem witness_Axes_reach :
    encAxis.axisPair 0 = some c0 ∧ encAxis.reaches 0 = true ∧ pairAxis.axisPair 0 = some c0 ∧ pairAxis.reaches 0 = false := by decide +kernel
theorem witness_Carousel_passed :
    (((passedSlot.die 0).spare 0).nextSlot 0 = sec ∧ (passedSlot.die 0).past sec = true ∧ (passedSlot.die 0).past (2 * sec) = false ∧
      ((trained.die 0).spare 1).slotFrom = 0 ∧ (0 : SpareId).val * (500 * ms) ≤ ((passedSlot.die 0).spare 0).slotFrom) ∧
    ((passedSlot.die 0).on = true ∧ (passedSlot.die 0).car.run = true ∧ passedSlot.enteringSleep 0 = false ∧
      ((passedSlot.die 0).spare 0).fault = false ∧ ((passedSlot.die 0).spare 0).phase ≠ .parked ∧
      ((passedSlot.die 0).spare 0).retry = none ∧ ((passedSlot.die 0).spare 0).visiting = false) := by decide +kernel
theorem witness_Pwm_phases : pwmHigh 100 32768 = 50 ∧ 0 < min (0 + pwmHigh 100 32768) (min 60 (0 + 100)) - 0 := by decide
theorem witness_Power_more :
    (lowHubmode.portThere 1 = false ∧ lowHubmode.portThere 0 = true ∧ on.portThere 1 = true ∧ energyBack.portThere 0 = true) ∧
    ((answerWaits.power.req.any fun r => r.die.isNone && r.req == some viaSpi) = true ∧
      (answerWaits.core.spi.tunnel.all fun m => m.answersPower viaSpi) = true) ∧
    ((linkedUp.net.ports[0]).link = true ∧ linkedUp.portThere 0 = true ∧ holdsToken (List.replicate 8 0#8) (List.replicate 32 0#8) = true ∧ holdsToken (List.replicate 8 0#8) [] = false) := by decide +kernel

/-! ### The smoke of WellFormed: one ill-formed command for each check, refused -/

theorem smoke_schedule_empty : Instr.wf (.scheduleSubmit viaSpi [] []) = false := by decide
theorem smoke_schedule_class : Instr.wf (.scheduleSubmit viaSpi [{ outSet0 with cls := 4#8 }] []) = false := by decide
theorem smoke_schedule_channel : Instr.wf (.scheduleSubmit viaSpi [{ outSet0 with channel := 96#16 }] []) = false := by decide
theorem smoke_cancel_tags : Instr.wf (.scheduleCancelByTag viaSpi []) = false := by decide
theorem smoke_reg_write : Instr.wf (.regWrite viaSpi 0#32 []) = false := by decide
theorem smoke_reg_read : Instr.wf (.regRead viaSpi 0#32 257#16) = false := by decide
theorem smoke_cal_zero : Instr.wf (.calibrateSystemZero viaSpi ⟨0#16, 2 ^ 31, 0, 0⟩) = false := by decide
theorem smoke_cal_span : Instr.wf (.calibrateSystemSpan viaSpi ⟨0#16, 0, 2 ^ 32, 0⟩) = false := by decide
theorem smoke_aux_table : Instr.wf (.auxSequenceLoadTable viaSpi 0#8 []) = false := by decide
theorem smoke_aux_slot : Instr.wf (.auxSequenceLoadSlot viaSpi 0#8 0#8 0#32 (List.replicate 9 0#32)) = false := by decide
theorem smoke_key_rotate : Instr.wf (.keyRotate viaSpi 2#8 1#16 [0#8] true) = false := by decide
theorem smoke_datagram : Instr.wf (.datagramReceive 0 { dgram with body := List.replicate 1433 0#8 }) = false := by decide +kernel
theorem smoke_axis_datagram : Instr.wf (.axisSamplesDatagram 0 { dgram with body := List.replicate 1433 0#8 }) = false := by decide +kernel
theorem smoke_tunnel : Instr.wf (.spiTunnelWrite 0 { tunnelMsg with body := List.replicate 4097 0#8 }) = false := by decide +kernel
theorem smoke_spi_read : Instr.wf (.spiRegisterRead 0 false 0#24 0) = false := by decide
theorem smoke_spi_write : Instr.wf (.spiRegisterWrite 0 false 0#24 []) = false := by decide
theorem smoke_management : Instr.wf (.managementRequestReceive 0 0 ⟨true, 64, 0, 0#32⟩) = false := by decide
theorem smoke_heat : Instr.wf (.heatMetering 0 ⟨[], 24000⟩) = false := by decide
theorem smoke_points : Instr.wf (.carouselPointsEnd 0 0 [1, 2, 3] [] 0) = false := by decide
theorem smoke_self_cal : Instr.wf (.carouselSelfCalEnd 0 0 [1, 2, 3] 0) = false := by decide
theorem smoke_injected : Instr.wf (.injectedSequenceEnd 0 (List.replicate 9 0)) = false := by decide
theorem smoke_identify : Instr.wf (.identify viaSpi) = true := by decide

/-! ### Results written in the spec, by its worked examples and tables -/

/-- What the SPI port of hub 0 shifts out for a read of one register, after its status word. -/
def spiReads (s : State) (addr : BitVec 24) : List Word := ((nextOf (exec (.spiRegisterRead 0 false addr 1) s)).spiOut[0]).drop 1
/-- The worked example of the register pages: PAGE_ID of ch 57 at 0x1C_A000 reads 0x0201_3901. -/
theorem test_page_id : spiReads trained 0x1CA000#24 = [0x02013901#32] := by decide +kernel
/-- The same: the two low bits of the address are ignored over SPI (R393). -/
theorem test_page_id_low_bits : spiReads trained 0x1CA003#24 = [0x02013901#32] := by decide +kernel
/-- The same: OUT_CFG of a locked page; ERR_CAPTURE at 0x1C_A02C reads 0x2001_0300. -/
theorem test_locked_write :
    spiReads (nextOf (exec (.spiRegisterWrite 0 false 0x1CA300#24 [0x120#32])
      (trained.modHdr (.die 3 10) fun h => { h with locked := true }))) 0x1CA02C#24 = [0x20010300#32] := by decide +kernel
/-- LOCK is set by 0x4C4F_434B (R406), which PAGE_STATUS bit 2 then shows to a page's reader as a locked page. -/
theorem test_lock : ((nextOf (exec (.spiRegisterWrite 0 false 0x1CA028#24 [0x4C4F434B#32]) trained)).hdr (.die 3 10)).locked = true := by
  decide +kernel
/-- The worked example of the watchdog: PERIOD 0x8000_2710 is P = 10,000 µs with C = 5,000 µs. -/
theorem test_wdog_period :
    (nextOf (exec (.tsoldPeriodWrite .zcs 0 0x80002710#32) on)).core.wd.p = 10000 ∧
      (nextOf (exec (.tsoldPeriodWrite .zcs 0 0x80002710#32) on)).core.wd.c = 5000 := by decide +kernel
/-- The same: CTRL 0x0000_00D5 is ACT_EARLY 1, ACT_LATE 1, ACT_SEQ 3 and EN 1. -/
theorem test_wdog_ctrl : (fun w : Wdog => (w.en, w.actEarly, w.actLate, w.actSeq, w.waived))
    (nextOf (exec (.tsoldEnSet .zcs 0 0xD5#32) on)).core.wd = (true, 1, 1, 3, true) := by decide +kernel
/-- The worked example of capture: the edge 9,000 ticks into 27,000 between the two counts is 0x400F_4AAF. -/
theorem test_capture_angle :
    captureAngle 0 27000 (divZero (2502 * 2 ^ 32) 10000) (divZero (2503 * 2 ^ 32) 10000) 9000 = 0x400F4AAF#32 := by decide +kernel
/-- The worked example of the ledger: a 0.5 A high-side output is charged 43 mW beside its slice, a type 1 input at 28 V
82 mW, a current output of 24 mA into 250 Ω at 24 V 432 mW, and with the reset declarations at 32 V 783 mW in all. -/
theorem test_charges :
    (chargeOf { ChanImg.reset with cfg := 8#32 } false 28 3000000).1 = 43 + 15 ∧
      (chargeOf { ChanImg.reset with cfg := 11#32 } false 32 3000000).1 = 783 := by decide +kernel
/-- The same example's device charges: both hubs at 800 MHz and both ports at 2.5GBASE-T give 7,400 mW. -/
theorem test_device_charge : ({ on with
    hubs := on.hubs.map fun h => { h with held := 0 }
    net := { on.net with ports := on.net.ports.map fun p => { p with link := true, speed := .g2_5 } } } : State).deviceCharge = 7400 := by
  decide +kernel
/-- Quadrature decoding on every edge of A and B (R212): A rising while B is low counts up. -/
theorem test_encoder_step : encDelta 0 true true false = 1 ∧ encDelta 0 true true true = -1 := by decide
/-- The five octets that name a response in the worked example of the command set begin 30 00 05: command 0x0030, ZS_BAD_ARG. -/
theorem test_response_prefix : (respBody (resp 0x0030 .badArg [])).take 3 = [0x30#8, 0x00#8, 0x05#8] := by decide
/-- No row of the table gives a word any bits. -/
theorem test_no_word : decodeTableWord 32 0 = none := rfl

end Sys2Proof.Tests
end

section
/-! The bounds of the policies (R271): where a POLICYc register lies, when its value is turned away, what a rejected write
leaves alone, and what `LedgerPolicySet` answers. -/

namespace Sys2Proof
open Machine

/-! ### Values beyond the bounds -/

/-- The three policies of a scope (R275). -/
def policiesOf (s : State) : PolicyScope → Vector Policy 3
  | .package _ => s.core.ledger.policy
  | .die d => (s.die d).led.policy
/-- What the floors of a scope may add up to (R271). -/
def policyRoom (s : State) : PolicyScope → Nat
  | .package _ => 25000 - s.deviceCharge
  | .die _ => 4000 - 490
/-- x as policy k of a scope has FLOOR above CEIL, or makes the floors exceed the scope's room (R271). -/
def PolicyBeyond (s : State) (sc : PolicyScope) (k : Fin 3) (x : Policy) : Prop :=
  x.ceil < x.floor ∨ policyRoom s sc < ((((policiesOf s sc).set k.val x k.isLt).toList).map (·.floor)).sum

/-- A policy is turned away exactly when FLOOR lies above CEIL or the floors exceed the room. -/
theorem policyFits_eq_some_iff (v : Vector Policy 3) (k : Fin 3) (x : Policy) (room : Nat) :
    (∃ c, policyFits v k x room = some c) ↔ x.ceil < x.floor ∨ room < (((v.set k.val x k.isLt).toList).map (·.floor)).sum := by
  unfold policyFits
  split
  · next hfloor => simp [hfloor]
  · next hfloor =>
    split
    · next hsum => simp [hsum]
    · next hsum => simp [hfloor, hsum]

/-- The verdict on a policy is that of its scope's policies and room. -/
theorem policyPut_verdict (s : State) (sc : PolicyScope) (k : Fin 3) (x : Policy) :
    (s.policyPut sc k x).1 = policyFits (policiesOf s sc) k x (policyRoom s sc) := by
  cases sc <;> rfl

/-- Both scopes turn away a policy beyond the bounds, with a cause. -/
theorem policyPut_of_beyond {s : State} {sc : PolicyScope} {k : Fin 3} {x : Policy} (h : PolicyBeyond s sc k x) :
    ∃ c, (s.policyPut sc k x).1 = some c := by
  rw [policyPut_verdict]
  exact (policyFits_eq_some_iff ..).2 h

/-! ### The register write -/

/-- The element k of a register array is found at its offset. -/
theorem arrayIdx_element (lo : Nat) {n : Nat} (k : Fin n) (h : lo % 4 = 0) : arrayIdx (lo + 4 * k.val) lo n = some k := by
  have hk : lo ≤ lo + 4 * k.val ∧ (lo + 4 * k.val - lo) / 4 < n ∧ (lo + 4 * k.val) % 4 = 0 := by omega
  simp [arrayIdx, hk]

/-- The register at a policy's place is that policy's, on a hub's page and on a die's (R274, R277). -/
theorem regOp_policyAt (s : State) (p : Path) (sc : PolicyScope) (k : Fin 3) (w : Word) :
    s.regOp p (policyAt sc k).1 (policyAt sc k).2 w = s.policyRegWrite p (policyAt sc k).1 (policyAt sc k).2 sc k w := by
  cases sc with
  | package h =>
    have hoff : ¬ 0x54 + 4 * k.val < 0x40 ∧ 0x54 + 4 * k.val ≠ 0x50 := by omega
    simp [State.regOp, State.regPut, State.hubOp, State.ledgerOp, policyAt, hoff, arrayIdx_element 0x54 k rfl]
  | die d =>
    have hoff : ¬ 0x78 + 4 * k.val < 0x40 ∧ 0x78 + 4 * k.val ≠ 0x74 := by omega
    simp [State.regOp, State.regPut, State.dieOp, policyAt, hoff, arrayIdx_element 0x78 k rfl]

/-- A write of a policy that is turned away with a cause is recorded, and that is all. -/
theorem exec_policyWrite_of_rejected {s : State} {p : Path} {sc : PolicyScope} {k : Fin 3} {w : Word} {c : Nat}
    (hreach : Reaches s p (policyAt sc k).1 (policyAt sc k).2)
    (hc : (s.policyPut sc k ⟨fld w 0 16, fld w 16 16⟩).1 = some c) :
    exec (.policyWrite p sc k w) s =
      .next (State.commit s (s.rejectAt (policyAt sc k).1 c p (policyAt sc k).2)) := by
  have hput : s.policyRegWrite p (policyAt sc k).1 (policyAt sc k).2 sc k w =
      s.rejectAt (policyAt sc k).1 c p (policyAt sc k).2 := by
    simp only [State.policyRegWrite, hc]
  calc exec (.policyWrite p sc k w) s
      = .next (s.writeReg p (policyAt sc k).1 (policyAt sc k).2 w) := rfl
    _ = .next (State.commit s (s.rejectAt (policyAt sc k).1 c p (policyAt sc k).2)) := by
      rw [writeReg_of_reaches hreach, regOp_policyAt, hput]

/-! ### What a recorded rejection leaves alone -/

@[simp] theorem rejectAt_core (s : State) (pg : PageRef) (c : Nat) (p : Path) (off : Nat) :
    (s.rejectAt pg c p off).core = s.core := by
  cases pg <;> rfl

/-- ERR_CAPTURE lies in a page's header, apart from every die's ledger. -/
@[simp] theorem rejectAt_die_led (s : State) (pg : PageRef) (c : Nat) (p : Path) (off : Nat) (d : DieId) :
    ((s.rejectAt pg c p off).die d).led = (s.die d).led := by
  cases pg with
  | hub h r => rfl
  | die e r =>
    by_cases hed : e = d
    · subst hed
      simp [State.rejectAt, State.modHdr, Die.modHdr]
    · simp [State.rejectAt, State.modHdr, State.die_modDie_ne _ _ _ _ hed]

/-! ### The command -/

/-- `LedgerPolicySet` of a policy that its scope turns away answers ZS_BAD_ARG and changes nothing else (R271, R391). -/
theorem exec_ledgerPolicySet_of_rejected {s : State} {r : Req} {g : PolicyP} {sc : PolicyScope} {pg : PageRef} {k : Fin 3}
    {c : Nat} (hruns : Runs s r 0x0051) (hscope : s.policyScope g = some (sc, pg)) (hcls : g.cls.toNat = k.val + 1)
    (hlock : s.pageLocked pg = false) (hbar : s.policyBar sc = none)
    (hc : (s.policyPut sc k ⟨g.floor.toNat, g.ceil.toNat⟩).1 = some c) :
    exec (.ledgerPolicySet r g) s = .next (replied s s r (resp 0x0051 .badArg [])) := by
  have hexec : exec (.ledgerPolicySet r g) s = execLedgerPolicySet r g s := rfl
  have hclass : 1 ≤ g.cls.toNat ∧ g.cls.toNat ≤ 3 := by omega
  have hk : (⟨g.cls.toNat - 1, by omega⟩ : Fin 3) = k := Fin.ext (by simp [hcls])
  rw [hexec, execLedgerPolicySet, command_of_runs hruns]
  simp only [hscope, hclass, hlock, hbar, hk, hc, and_self, dite_true, Bool.false_eq_true, if_false]

/-! ### R271 -/

/-- Settles O56: in either scope a policy beyond the bounds is turned away with a cause, which the register write records and
the command answers with ZS_BAD_ARG. -/
theorem policyBounds : Obligations.PolicyBounds := by
  unfold Obligations.PolicyBounds
  intro s k x sc hbad
  have hbeyond : PolicyBeyond s sc k x := by cases sc <;> exact hbad
  obtain ⟨c, hc⟩ := policyPut_of_beyond hbeyond
  constructor
  · rintro p w hreach rfl
    exact ⟨c, _, rfl, exec_policyWrite_of_rejected hreach hc, by simp, by simp⟩
  · rintro r g pg hruns hscope hcls rfl hlock hbar
    exact exec_ledgerPolicySet_of_rejected hruns hscope hcls hlock hbar hc

end Sys2Proof
end

section
/-! A service of the watchdog (R312): how a write to TSOLD.SERVE is judged when no late violation is due, what KEY_A and KEY_B
do to a running watchdog, and where STATUS shows ARMED. -/

namespace Sys2Proof
open Machine

/-! ### A write that reaches its register -/

/-- An access that reaches its register does its work on the state, and is mirrored. -/
theorem accessed_of_reaches {s : State} {p : Path} {pg : PageRef} {off : Nat} (h : Reaches s p pg off) (f : State → State) :
    s.accessed p pg off f = State.commit s (f s) := by
  obtain ⟨hans, hopen, hthere, hon, hreg, hstandby, hheard, hlock⟩ := h
  simp [State.accessed, State.access, hans, hopen, hthere, hon, hreg, hstandby, hheard, hlock]

/-! ### The judgement of a write to SERVE (R313, R314) -/

/-- Where no late violation is due there is none to make up for. -/
theorem wdCatchUp_of_not_late {s : State} {i : Nat} (h : s.wdIsLate i = false) : s.wdCatchUp i = s := by
  simp [State.wdCatchUp, h]

/-- Where no late violation is due, any write but a KEY_B in the register cycle of the last one is judged as it lands. -/
theorem serve_of_not_late {s : State} {v : Word} (hlate : s.wdIsLate s.clk.elapsed = false)
    (hcycle : v = keyB → s.core.wd.lateAt ≠ some s.clk.elapsed) : s.serve v = s.serveNow v s.clk.elapsed := by
  have hjudged : ¬ (v = keyB ∧ s.core.wd.lateAt = some s.clk.elapsed) := fun ⟨hv, ht⟩ => hcycle hv ht
  simp only [State.serve, State.serveAt, wdCatchUp_of_not_late hlate, hlate, Bool.false_eq_true, false_and, or_false, hjudged,
    if_false]

/-- KEY_A arms a running watchdog that is not armed. -/
theorem serveNow_keyA_of_disarmed {s : State} (i : Nat) (hrun : s.core.wd.running = true) (harmed : s.core.wd.armed = false) :
    s.serveNow keyA i = (s.modCore fun c => { c with wd := { c.wd with armed := true } }, 0) := by
  simp [State.serveNow, hrun, harmed]

/-- KEY_B of an armed watchdog below the close point is an early violation. -/
theorem serveNow_keyB_of_lt {s : State} {i : Nat} (hrun : s.core.wd.running = true) (harmed : s.core.wd.armed = true)
    (hn : s.core.wd.n i < s.core.wd.c) : s.serveNow keyB i = (s.wdViolate .early i, 1) := by
  simp [State.serveNow, hrun, harmed, hn]

/-- KEY_B of an armed watchdog from the close point on is a service, and a period starts. -/
theorem serveNow_keyB_of_le {s : State} {i : Nat} (hrun : s.core.wd.running = true) (harmed : s.core.wd.armed = true)
    (hn : s.core.wd.c ≤ s.core.wd.n i) :
    s.serveNow keyB i = (s.modCore fun c => { c with wd := c.wd.restart i false }, 0) := by
  simp [State.serveNow, hrun, harmed, Nat.not_lt.2 hn]

/-! ### The rows of the two keys -/

/-- KEY_A that reaches SERVE with no late violation due is judged as it lands, and mirrored. -/
theorem exec_serveKeyA_of_reaches {s : State} {p : Path} {h : HubId} (hreach : Reaches s p (.hub h 5) 0x48)
    (hlate : s.wdIsLate s.clk.elapsed = false) :
    exec (.serveKeyA p h) s = .next (State.commit s (s.serveNow keyA s.clk.elapsed).1) := by
  have hkeys : keyA = keyB → s.core.wd.lateAt ≠ some s.clk.elapsed := fun h => absurd h (by decide)
  calc exec (.serveKeyA p h) s
      = .next (s.accessed p (.hub h 5) 0x48 fun s => (s.serve keyA).1) := rfl
    _ = .next (State.commit s (s.serveNow keyA s.clk.elapsed).1) := by
      rw [accessed_of_reaches hreach, serve_of_not_late hlate hkeys]

/-- KEY_B that reaches SERVE outside the register cycle of a late violation is judged as it lands, and mirrored. -/
theorem exec_serveKeyB_of_reaches {s : State} {p : Path} {h : HubId} (hreach : Reaches s p (.hub h 5) 0x48)
    (hlate : s.wdIsLate s.clk.elapsed = false) (hcycle : s.core.wd.lateAt ≠ some s.clk.elapsed) :
    exec (.serveKeyB p h) s = .next (State.commit s (s.serveNow keyB s.clk.elapsed).1) := by
  calc exec (.serveKeyB p h) s
      = .next (s.accessed p (.hub h 5) 0x48 fun s => (s.serve keyB).1) := rfl
    _ = .next (State.commit s (s.serveNow keyB s.clk.elapsed).1) := by
      rw [accessed_of_reaches hreach, serve_of_not_late hlate fun _ => hcycle]

/-! ### STATUS.ARMED (R322) -/

/-- The word of TSOLD.STATUS with its seven flags (R322). -/
def tsoldStatusWord (held paused pend waived inWindow armed run : Bool) : Word :=
  BitVec.ofNat 32 (putBit held 6 + putBit paused 5 + putBit pend 4 + putBit waived 3 + putBit inWindow 2 + putBit armed 1 +
    putBit run 0)

/-- Bit 1 of STATUS is ARMED, whatever the other flags are. -/
theorem bit_one_tsoldStatusWord : ∀ held paused pend waived inWindow armed run : Bool,
    bit (tsoldStatusWord held paused pend waived inWindow armed run) 1 = armed := by
  decide

/-- A TSOLD page that is not frozen shows in STATUS whether its hub's watchdog is armed. -/
theorem tsoldStatus_armed {s : State} {h : HubId} (hfrozen : (s.hdr (.hub h 5)).frozen = none) :
    bit (s.current (.hub h 5) 0x4C) 1 = (s.coreOf h).wd.armed := by
  have hword : ∃ held paused pend waived inWindow run, s.current (.hub h 5) 0x4C =
      tsoldStatusWord held paused pend waived inWindow (s.coreOf h).wd.armed run := by
    simp only [State.current, hfrozen]
    exact ⟨_, _, _, _, _, _, rfl⟩
  obtain ⟨held, paused, pend, waived, inWindow, run, hword⟩ := hword
  rw [hword, bit_one_tsoldStatusWord]

/-- The active hub's page shows the controller's own watchdog. -/
@[simp] theorem coreOf_active (s : State) : s.coreOf s.active = s.core := by
  simp [State.coreOf]

/-- The state after a KEY_A that armed the watchdog. -/
def armedFrom (s : State) : State := State.commit s (s.modCore fun c => { c with wd := { c.wd with armed := true } })

/-- Arming leaves the pages' headers as they are, so STATUS of a page that was not frozen shows ARMED. -/
theorem armedFrom_status {s : State} (hfrozen : (s.hdr (.hub s.active 5)).frozen = none) :
    bit ((armedFrom s).current (.hub s.active 5) 0x4C) 1 = true := by
  have hown : (armedFrom s).coreOf s.active = (armedFrom s).core := coreOf_active (armedFrom s)
  have hsame : ((armedFrom s).hdr (.hub s.active 5)).frozen = none := hfrozen
  rw [tsoldStatus_armed hsame, hown]
  rfl

/-! ### R312 -/

/-- Settles O55: KEY_A arms, and the armed watchdog that a later KEY_B finds judges it by n against C when it lands. -/
theorem watchdogKeys : Obligations.WatchdogKeys := by
  unfold Obligations.WatchdogKeys
  refine ⟨rfl, rfl, fun s p h hreach hlate hrun harmed => ⟨armedFrom s, ?_, rfl, armedFrom_status, ?_⟩⟩
  · rw [exec_serveKeyA_of_reaches hreach hlate, serveNow_keyA_of_disarmed _ hrun harmed, armedFrom]
  · intro u p' h' hreach' hlate' hwd hcycle
    have harmed' : u.core.wd.armed = true := by rw [hwd]; rfl
    have hrun' : u.core.wd.running = true := by rw [hwd]; exact hrun
    rw [exec_serveKeyB_of_reaches hreach' hlate' hcycle]
    constructor
    · intro hn
      rw [serveNow_keyB_of_le hrun' harmed' hn]
      rfl
    · intro hn
      rw [serveNow_keyB_of_lt hrun' harmed' hn]

end Sys2Proof
end

section
/-! Register addresses (R393): the page and the offset that an address names, what `RegRead` and `RegWrite` answer to a
misaligned address, the two low bits on host SPI, and how many words a read gives. -/

namespace Sys2Proof
open Machine

/-! ### What an address names -/

/-- A located relative page of a hub is that page, at the offset given. -/
theorem hubLoc_eq_page {h : HubId} {r off off' : Nat} {pg : PageRef} (hloc : hubLoc h r off = .page pg off') :
    off' = off ∧ pageIndex pg = 0x80 * h.val + r := by
  unfold hubLoc at hloc
  split at hloc
  · cases hloc
    exact ⟨rfl, rfl⟩
  · cases hloc

/-- A located relative page of a die is that page, at the offset given. -/
theorem dieLoc_eq_page {d : DieId} {r off off' : Nat} {pg : PageRef} (hloc : dieLoc d r off = .page pg off') :
    off' = off ∧ pageIndex pg = 0x100 + 0x40 * d.val + r := by
  unfold dieLoc at hloc
  split at hloc
  · cases hloc
    exact ⟨rfl, rfl⟩
  · cases hloc

/-- The 64 page indices of a die lie one behind another, so the die and the relative page give the index back (R394). -/
theorem pageIndex_of_dieLoc {page off off' : Nat} {pg : PageRef} (hdies : 0x100 ≤ page) (hd : (page - 0x100) / 0x40 < 6)
    (hloc : dieLoc ⟨(page - 0x100) / 0x40, hd⟩ ((page - 0x100) % 0x40) off = .page pg off') :
    off' = off ∧ page = pageIndex pg := by
  obtain ⟨hoff, hindex⟩ := dieLoc_eq_page hloc
  refine ⟨hoff, ?_⟩
  calc page
      = 0x100 + (0x40 * ((page - 0x100) / 0x40) + (page - 0x100) % 0x40) := by omega
    _ = pageIndex pg := by rw [hindex, Nat.add_assoc]

/-- A located address holds its page's index in [31:12] and its offset in [11:0]. -/
theorem locate_eq_page {s : State} {addr off : Nat} {pg : PageRef} (hloc : s.locate addr = .page pg off) :
    off = addr % 4096 ∧ addr / 4096 = pageIndex pg := by
  unfold State.locate at hloc
  dsimp only at hloc
  split at hloc
  case isTrue hH0 =>
    obtain ⟨hoff, hindex⟩ := hubLoc_eq_page hloc
    exact ⟨hoff, by rw [hindex]; simp⟩
  case isFalse hH0 =>
    split at hloc
    case isTrue hH1 =>
      split at hloc
      · obtain ⟨hoff, hindex⟩ := hubLoc_eq_page hloc
        refine ⟨hoff, ?_⟩
        rw [hindex, Fin.val_one]
        omega
      · cases hloc
    case isFalse hH1 =>
      split at hloc
      · split at hloc
        next hd =>
          split at hloc
          · exact pageIndex_of_dieLoc (Nat.not_lt.1 hH1) hd hloc
          · cases hloc
        · cases hloc
      · cases hloc

/-! ### Misaligned commands -/

/-- No run of registers starts at a misaligned address. -/
theorem runOk_of_misaligned (s : State) {addr : Nat} (n : Nat) (h : addr % 4 ≠ 0) : s.runOk addr n = false := by
  simp [State.runOk, h]

/-- `RegRead` of a misaligned address is refused, and only the answer is given. -/
theorem exec_regRead_of_misaligned {s : State} {r : Req} {addr : Word} (n : BitVec 16) (hruns : Runs s r 0x0010)
    (haddr : addr.toNat % 4 ≠ 0) : exec (.regRead r addr n) s = .next (replied s s r (resp 0x0010 .badArg [])) := by
  have hexec : exec (.regRead r addr n) s = execRegRead r addr n s := rfl
  rw [hexec, execRegRead, command_of_runs hruns]
  simp only [runOk_of_misaligned s _ haddr, Bool.false_eq_true, if_false]

/-- `RegWrite` to a misaligned address is refused, and only the answer is given. -/
theorem exec_regWrite_of_misaligned {s : State} {r : Req} {addr : Word} (ws : List Word) (hruns : Runs s r 0x0011)
    (haddr : addr.toNat % 4 ≠ 0) : exec (.regWrite r addr ws) s = .next (replied s s r (resp 0x0011 .badArg [])) := by
  have hexec : exec (.regWrite r addr ws) s = execRegWrite r addr ws s := rfl
  rw [hexec, execRegWrite, commandLater_of_runs hruns]
  simp only [runOk_of_misaligned s _ haddr, Bool.not_false, if_true]

/-! ### Host SPI -/

/-- Clearing the two low bits of an SPI address leaves the word that it names. -/
theorem spiAddress_clearLow_div (a : BitVec 24) : (a &&& 0xFFFFFC#24).toNat / 4 = a.toNat / 4 := by
  have hword : a.toNat / 2 ^ 2 < 2 ^ 22 := by omega
  calc (a &&& 0xFFFFFC#24).toNat / 2 ^ 2
      = a.toNat / 2 ^ 2 &&& (2 ^ 22 - 1) := by
        rw [BitVec.toNat_and, ← Nat.shiftRight_eq_div_pow, ← Nat.shiftRight_eq_div_pow, Nat.shiftRight_and_distrib]
        rfl
    _ = a.toNat / 2 ^ 2 := by rw [Nat.and_two_pow_sub_one_eq_mod, Nat.mod_eq_of_lt hword]

/-- A transfer on host SPI runs over the same registers whatever the two low bits of its address are. -/
theorem spiRun_clearLow (a : BitVec 24) (n : Nat) : spiRun (a &&& 0xFFFFFC#24) n = spiRun a n := by
  rw [spiRun, spiRun, spiAddress_clearLow_div]

/-- A read on host SPI depends on its address only through the run of its registers. -/
theorem exec_spiRegisterRead_congr {a b : BitVec 24} {n : Nat} (hrun : spiRun a n = spiRun b n) (h : HubId) (q : Bool)
    (s : State) : exec (.spiRegisterRead h q a n) s = exec (.spiRegisterRead h q b n) s := by
  change execSpiRegisterRead h q a n s = execSpiRegisterRead h q b n s
  simp only [execSpiRegisterRead, hrun]

/-- A write on host SPI depends on its address only through the run of its registers. -/
theorem exec_spiRegisterWrite_congr {a b : BitVec 24} {ws : List Word} (hrun : spiRun a ws.length = spiRun b ws.length)
    (h : HubId) (q : Bool) (s : State) : exec (.spiRegisterWrite h q a ws) s = exec (.spiRegisterWrite h q b ws) s := by
  change execSpiRegisterWrite h q a ws s = execSpiRegisterWrite h q b ws s
  simp only [execSpiRegisterWrite, hrun]

/-! ### Words of a read -/

/-- A read gives one word for each address of its run. -/
theorem readRun_length (s : State) (l : List Nat) : (s.readRun l).2.length = l.length := by
  induction l generalizing s with
  | nil => rfl
  | cons a rest ih => simp only [State.readRun, List.length_cons, ih]

/-! ### R393 -/

/-- Settles O54: by where `locate` puts each range of page indices, the alignment check of a run, the run of a transfer on
host SPI, and induction on the addresses of a read. -/
theorem registerAddresses : Obligations.RegisterAddresses := by
  unfold Obligations.RegisterAddresses
  refine ⟨fun s addr pg off hloc => ?_, fun s r addr haddr => ⟨?_, ?_⟩, fun s h q a => ⟨?_, ?_⟩, readRun_length⟩
  · obtain ⟨hoff, hpage⟩ := locate_eq_page hloc
    refine ⟨hoff, hpage.trans ?_⟩
    cases pg <;> rfl
  · exact fun hruns n => exec_regRead_of_misaligned n hruns haddr
  · exact fun hruns ws => exec_regWrite_of_misaligned ws hruns haddr
  · exact fun n => exec_spiRegisterRead_congr (spiRun_clearLow a n).symm h q s
  · exact fun ws => exec_spiRegisterWrite_congr (spiRun_clearLow a ws.length).symm h q s

end Sys2Proof
end

section
/-! Every step: each command answers a next state, which keeps what no command touches, the event counts of both logs and the pools'
sizes; on an empty queue a tick does the same, and moves the clocks. -/

namespace Sys2Proof
open Machine

/-! ### What every command keeps -/

/-- Each command keeps what no command touches, the counts of both logs (R300) and the sizes of the pools (R27). -/
theorem exec_keeps {i : Instr} {s z : State} (h : exec i s = .next z) :
    z.fixed = s.fixed ∧ (LogsOk s.hubs → LogsOk z.hubs) ∧
      (PoolsOk s.core s.copy s.mirror.wire s.mirror.rx s.dies → PoolsOk z.core z.copy z.mirror.wire z.mirror.rx z.dies) :=
  match i with
  | .sessionOpen .. => ⟨execSessionOpen_fixed h, execSessionOpen_logs h, execSessionOpen_pools h⟩
  | .sessionClose .. => ⟨execSessionClose_fixed h, execSessionClose_logs h, execSessionClose_pools h⟩
  | .identify .. => ⟨execIdentify_fixed h, execIdentify_logs h, execIdentify_pools h⟩
  | .regRead .. => ⟨execRegRead_fixed h, execRegRead_logs h, execRegRead_pools h⟩
  | .regWrite .. => ⟨execRegWrite_fixed h, execRegWrite_logs h, execRegWrite_pools h⟩
  | .channelConfigure .. => ⟨execChannelConfigure_fixed h, execChannelConfigure_logs h, execChannelConfigure_pools h⟩
  | .channelEnable .. => ⟨execChannelEnable_fixed h, execChannelEnable_logs h, execChannelEnable_pools h⟩
  | .channelDisable .. => ⟨execChannelDisable_fixed h, execChannelDisable_logs h, execChannelDisable_pools h⟩
  | .scheduleSubmit .. => ⟨execScheduleSubmit_fixed h, execScheduleSubmit_logs h, execScheduleSubmit_pools h⟩
  | .scheduleCancelByTag .. => ⟨execScheduleCancelByTag_fixed h, execScheduleCancelByTag_logs h, execScheduleCancelByTag_pools h⟩
  | .scheduleCancelByRange .. => ⟨execScheduleCancelByRange_fixed h, execScheduleCancelByRange_logs h, execScheduleCancelByRange_pools h⟩
  | .resultFetch .. => ⟨execResultFetch_fixed h, execResultFetch_logs h, execResultFetch_pools h⟩
  | .streamOpen .. => ⟨execStreamOpen_fixed h, execStreamOpen_logs h, execStreamOpen_pools h⟩
  | .streamClose .. => ⟨execStreamClose_fixed h, execStreamClose_logs h, execStreamClose_pools h⟩
  | .filterSync .. => ⟨execFilterSync_fixed h, execFilterSync_logs h, execFilterSync_pools h⟩
  | .calibrateSystemZero .. => ⟨execCalibrateSystemZero_fixed h, execCalibrateSystemZero_logs h, execCalibrateSystemZero_pools h⟩
  | .calibrateSystemSpan .. => ⟨execCalibrateSystemSpan_fixed h, execCalibrateSystemSpan_logs h, execCalibrateSystemSpan_pools h⟩
  | .calPointEnd .. => ⟨execCalPointEnd_fixed h, execCalPointEnd_logs h, execCalPointEnd_pools h⟩
  | .sysCorrectionApply .. => ⟨execSysCorrectionApply_fixed h, execSysCorrectionApply_logs h, execSysCorrectionApply_pools h⟩
  | .calibrationCommitStore .. => ⟨execCalibrationCommitStore_fixed h, execCalibrationCommitStore_logs h, execCalibrationCommitStore_pools h⟩
  | .calibrationCommitRevert .. => ⟨execCalibrationCommitRevert_fixed h, execCalibrationCommitRevert_logs h, execCalibrationCommitRevert_pools h⟩
  | .calibrationCommitIdentity .. => ⟨execCalibrationCommitIdentity_fixed h, execCalibrationCommitIdentity_logs h, execCalibrationCommitIdentity_pools h⟩
  | .ledgerQuery .. => ⟨execLedgerQuery_fixed h, execLedgerQuery_logs h, execLedgerQuery_pools h⟩
  | .ledgerPolicySet .. => ⟨execLedgerPolicySet_fixed h, execLedgerPolicySet_logs h, execLedgerPolicySet_pools h⟩
  | .powerStateRequest .. => ⟨execPowerStateRequest_fixed h, execPowerStateRequest_logs h, execPowerStateRequest_pools h⟩
  | .watchdogConfigure .. => ⟨execWatchdogConfigure_fixed h, execWatchdogConfigure_logs h, execWatchdogConfigure_pools h⟩
  | .watchdogServe .. => ⟨execWatchdogServe_fixed h, execWatchdogServe_logs h, execWatchdogServe_pools h⟩
  | .eventLogRead .. => ⟨execEventLogRead_fixed h, execEventLogRead_logs h, execEventLogRead_pools h⟩
  | .faultClear .. => ⟨execFaultClear_fixed h, execFaultClear_logs h, execFaultClear_pools h⟩
  | .hubSwitchover .. => ⟨execHubSwitchover_fixed h, execHubSwitchover_logs h, execHubSwitchover_pools h⟩
  | .keyRotate .. => ⟨execKeyRotate_fixed h, execKeyRotate_logs h, execKeyRotate_pools h⟩
  | .poolAudit .. => ⟨execPoolAudit_fixed h, execPoolAudit_logs h, execPoolAudit_pools h⟩
  | .returnPrepare .. => ⟨execReturnPrepare_fixed h, execReturnPrepare_logs h, execReturnPrepare_pools h⟩
  | .timeStatusRead .. => ⟨execTimeStatusRead_fixed h, execTimeStatusRead_logs h, execTimeStatusRead_pools h⟩
  | .timeStatusLoad .. => ⟨execTimeStatusLoad_fixed h, execTimeStatusLoad_logs h, execTimeStatusLoad_pools h⟩
  | .timeStatusWriteAccept .. => ⟨execTimeStatusWriteAccept_fixed h, execTimeStatusWriteAccept_logs h, execTimeStatusWriteAccept_pools h⟩
  | .auxSequenceLoadTable .. => ⟨execAuxSequenceLoadTable_fixed h, execAuxSequenceLoadTable_logs h, execAuxSequenceLoadTable_pools h⟩
  | .auxSequenceLoadSlot .. => ⟨execAuxSequenceLoadSlot_fixed h, execAuxSequenceLoadSlot_logs h, execAuxSequenceLoadSlot_pools h⟩
  | .datagramReceive .. => ⟨execDatagramReceive_fixed h, execDatagramReceive_logs h, execDatagramReceive_pools h⟩
  | .heldRequestTimeout .. => ⟨execHeldRequestTimeout_fixed h, execHeldRequestTimeout_logs h, execHeldRequestTimeout_pools h⟩
  | .commandAccept .. => ⟨execCommandAccept_fixed h, execCommandAccept_logs h, execCommandAccept_pools h⟩
  | .axisSamplesDatagram .. => ⟨execAxisSamplesDatagram_fixed h, execAxisSamplesDatagram_logs h, execAxisSamplesDatagram_pools h⟩
  | .spiRegisterRead .. => ⟨execSpiRegisterRead_fixed (_quad := false) h, execSpiRegisterRead_logs (_quad := false) h, execSpiRegisterRead_pools (_quad := false) h⟩
  | .spiRegisterWrite .. => ⟨execSpiRegisterWrite_fixed (_quad := false) h, execSpiRegisterWrite_logs (_quad := false) h, execSpiRegisterWrite_pools (_quad := false) h⟩
  | .spiTunnelWrite .. => ⟨execSpiTunnelWrite_fixed h, execSpiTunnelWrite_logs h, execSpiTunnelWrite_pools h⟩
  | .spiTunnelRead .. => ⟨execSpiTunnelRead_fixed h, execSpiTunnelRead_logs h, execSpiTunnelRead_pools h⟩
  | .registerWrite .. => ⟨execRegisterWrite_fixed h, execRegisterWrite_logs h, execRegisterWrite_pools h⟩
  | .chCfgWrite .. => ⟨execChCfgWrite_fixed h, execChCfgWrite_logs h, execChCfgWrite_pools h⟩
  | .convCfgWrite .. => ⟨execConvCfgWrite_fixed h, execConvCfgWrite_logs h, execConvCfgWrite_pools h⟩
  | .safeReq .. => ⟨execSafeReq_fixed h, execSafeReq_logs h, execSafeReq_pools h⟩
  | .serveKeyA .. => ⟨execServeKeyA_fixed h, execServeKeyA_logs h, execServeKeyA_pools h⟩
  | .serveKeyB .. => ⟨execServeKeyB_fixed h, execServeKeyB_logs h, execServeKeyB_pools h⟩
  | .serveOtherValue .. => ⟨execServeOtherValue_fixed h, execServeOtherValue_logs h, execServeOtherValue_pools h⟩
  | .tsoldEnSet .. => ⟨execTsoldEnSet_fixed h, execTsoldEnSet_logs h, execTsoldEnSet_pools h⟩
  | .tsoldPeriodWrite .. => ⟨execTsoldPeriodWrite_fixed h, execTsoldPeriodWrite_logs h, execTsoldPeriodWrite_pools h⟩
  | .tsoldActionWrite .. => ⟨execTsoldActionWrite_fixed h, execTsoldActionWrite_logs h, execTsoldActionWrite_pools h⟩
  | .watchdogLate .. => ⟨execWatchdogLate_fixed h, execWatchdogLate_logs h, execWatchdogLate_pools h⟩
  | .pwrRequestWrite .. => ⟨execPwrRequestWrite_fixed h, execPwrRequestWrite_logs h, execPwrRequestWrite_pools h⟩
  | .pageLock .. => ⟨execPageLock_fixed h, execPageLock_logs h, execPageLock_pools h⟩
  | .pageUnlock .. => ⟨execPageUnlock_fixed h, execPageUnlock_logs h, execPageUnlock_pools h⟩
  | .evClearWrite .. => ⟨execEvClearWrite_fixed h, execEvClearWrite_logs h, execEvClearWrite_pools h⟩
  | .blockReset .. => ⟨execBlockReset_fixed h, execBlockReset_logs h, execBlockReset_pools h⟩
  | .freezeWrite .. => ⟨execFreezeWrite_fixed h, execFreezeWrite_logs h, execFreezeWrite_pools h⟩
  | .cntPresetWrite .. => ⟨execCntPresetWrite_fixed h, execCntPresetWrite_logs h, execCntPresetWrite_pools h⟩
  | .countPresetApply .. => ⟨execCountPresetApply_fixed h, execCountPresetApply_logs h, execCountPresetApply_pools h⟩
  | .keyCommitWrite .. => ⟨execKeyCommitWrite_fixed h, execKeyCommitWrite_logs h, execKeyCommitWrite_pools h⟩
  | .netFreqWrite .. => ⟨execNetFreqWrite_fixed h, execNetFreqWrite_logs h, execNetFreqWrite_pools h⟩
  | .mainsCtrlWrite .. => ⟨execMainsCtrlWrite_fixed h, execMainsCtrlWrite_logs h, execMainsCtrlWrite_pools h⟩
  | .filterRegisterWrite .. => ⟨execFilterRegisterWrite_fixed h, execFilterRegisterWrite_logs h, execFilterRegisterWrite_pools h⟩
  | .dinCfgWrite .. => ⟨execDinCfgWrite_fixed h, execDinCfgWrite_logs h, execDinCfgWrite_pools h⟩
  | .outCfgWrite .. => ⟨execOutCfgWrite_fixed h, execOutCfgWrite_logs h, execOutCfgWrite_pools h⟩
  | .parWrite .. => ⟨execParWrite_fixed h, execParWrite_logs h, execParWrite_pools h⟩
  | .auxShadowWrite .. => ⟨execAuxShadowWrite_fixed h, execAuxShadowWrite_logs h, execAuxShadowWrite_pools h⟩
  | .refSelWrite .. => ⟨execRefSelWrite_fixed h, execRefSelWrite_logs h, execRefSelWrite_pools h⟩
  | .axisCfgWrite .. => ⟨execAxisCfgWrite_fixed h, execAxisCfgWrite_logs h, execAxisCfgWrite_pools h⟩
  | .ledgerPtWrite .. => ⟨execLedgerPtWrite_fixed h, execLedgerPtWrite_logs h, execLedgerPtWrite_pools h⟩
  | .policyWrite .. => ⟨execPolicyWrite_fixed h, execPolicyWrite_logs h, execPolicyWrite_pools h⟩
  | .declWrite .. => ⟨execDeclWrite_fixed h, execDeclWrite_logs h, execDeclWrite_pools h⟩
  | .roleWrite .. => ⟨execRoleWrite_fixed h, execRoleWrite_logs h, execRoleWrite_pools h⟩
  | .portCfgWrite .. => ⟨execPortCfgWrite_fixed h, execPortCfgWrite_logs h, execPortCfgWrite_pools h⟩
  | .acceptWrite .. => ⟨execAcceptWrite_fixed h, execAcceptWrite_logs h, execAcceptWrite_pools h⟩
  | .admitWrite .. => ⟨execAdmitWrite_fixed h, execAdmitWrite_logs h, execAdmitWrite_pools h⟩
  | .alarmWrite .. => ⟨execAlarmWrite_fixed h, execAlarmWrite_logs h, execAlarmWrite_pools h⟩
  | .wakeCfgWrite .. => ⟨execWakeCfgWrite_fixed h, execWakeCfgWrite_logs h, execWakeCfgWrite_pools h⟩
  | .hublossTWrite .. => ⟨execHublossTWrite_fixed h, execHublossTWrite_logs h, execHublossTWrite_pools h⟩
  | .outputStateSend .. => ⟨execOutputStateSend_fixed h, execOutputStateSend_logs h, execOutputStateSend_pools h⟩
  | .outputStateReceive .. => ⟨execOutputStateReceive_fixed h, execOutputStateReceive_logs h, execOutputStateReceive_pools h⟩
  | .statusSend .. => ⟨execStatusSend_fixed h, execStatusSend_logs h, execStatusSend_pools h⟩
  | .statusReceive .. => ⟨execStatusReceive_fixed h, execStatusReceive_logs h, execStatusReceive_pools h⟩
  | .timeFrameSend .. => ⟨execTimeFrameSend_fixed h, execTimeFrameSend_logs h, execTimeFrameSend_pools h⟩
  | .timeFrameReceive .. => ⟨execTimeFrameReceive_fixed h, execTimeFrameReceive_logs h, execTimeFrameReceive_pools h⟩
  | .coastingStart .. => ⟨execCoastingStart_fixed h, execCoastingStart_logs h, execCoastingStart_pools h⟩
  | .laneDelayMeasure .. => ⟨execLaneDelayMeasure_fixed h, execLaneDelayMeasure_logs h, execLaneDelayMeasure_pools h⟩
  | .promotionBegin .. => ⟨execPromotionBegin_fixed h, execPromotionBegin_logs h, execPromotionBegin_pools h⟩
  | .promotionFrameReceive .. => ⟨execPromotionFrameReceive_fixed h, execPromotionFrameReceive_logs h, execPromotionFrameReceive_pools h⟩
  | .managementRequestReceive .. => ⟨execManagementRequestReceive_fixed h, execManagementRequestReceive_logs h, execManagementRequestReceive_pools h⟩
  | .managementResponseReceive .. => ⟨execManagementResponseReceive_fixed h, execManagementResponseReceive_logs h, execManagementResponseReceive_pools h⟩
  | .resultFrameReceive .. => ⟨execResultFrameReceive_fixed h, execResultFrameReceive_logs h, execResultFrameReceive_pools h⟩
  | .captureFrameReceive .. => ⟨execCaptureFrameReceive_fixed h, execCaptureFrameReceive_logs h, execCaptureFrameReceive_pools h⟩
  | .angleTagFrameReceive .. => ⟨execAngleTagFrameReceive_fixed h, execAngleTagFrameReceive_logs h, execAngleTagFrameReceive_pools h⟩
  | .eventFrameReceive .. => ⟨execEventFrameReceive_fixed h, execEventFrameReceive_logs h, execEventFrameReceive_pools h⟩
  | .frameConsume .. => ⟨execFrameConsume_fixed h, execFrameConsume_logs h, execFrameConsume_pools h⟩
  | .frameCrcFail .. => ⟨execFrameCrcFail_fixed h, execFrameCrcFail_logs h, execFrameCrcFail_pools h⟩
  | .replayRequestReceive .. => ⟨execReplayRequestReceive_fixed h, execReplayRequestReceive_logs h, execReplayRequestReceive_pools h⟩
  | .laneCrcRun .. => ⟨execLaneCrcRun_fixed h, execLaneCrcRun_logs h, execLaneCrcRun_pools h⟩
  | .trainingComplete .. => ⟨execTrainingComplete_fixed h, execTrainingComplete_logs h, execTrainingComplete_pools h⟩
  | .laneFailed .. => ⟨execLaneFailed_fixed h, execLaneFailed_logs h, execLaneFailed_pools h⟩
  | .laneTrainingRetry .. => ⟨execLaneTrainingRetry_fixed h, execLaneTrainingRetry_logs h, execLaneTrainingRetry_pools h⟩
  | .idleFrameReceive .. => ⟨execIdleFrameReceive_fixed h, execIdleFrameReceive_logs h, execIdleFrameReceive_pools h⟩
  | .renewSend .. => ⟨execRenewSend_fixed h, execRenewSend_logs h, execRenewSend_pools h⟩
  | .renewReceive .. => ⟨execRenewReceive_fixed h, execRenewReceive_logs h, execRenewReceive_pools h⟩
  | .claimSend .. => ⟨execClaimSend_fixed h, execClaimSend_logs h, execClaimSend_pools h⟩
  | .claimReceive .. => ⟨execClaimReceive_fixed h, execClaimReceive_logs h, execClaimReceive_pools h⟩
  | .releaseReceive .. => ⟨execReleaseReceive_fixed h, execReleaseReceive_logs h, execReleaseReceive_pools h⟩
  | .grantReceive .. => ⟨execGrantReceive_fixed h, execGrantReceive_logs h, execGrantReceive_pools h⟩
  | .leaseExpiry .. => ⟨execLeaseExpiry_fixed h, execLeaseExpiry_logs h, execLeaseExpiry_pools h⟩
  | .hubLossExpiry .. => ⟨execHubLossExpiry_fixed h, execHubLossExpiry_logs h, execHubLossExpiry_pools h⟩
  | .heartbeatSend .. => ⟨execHeartbeatSend_fixed h, execHeartbeatSend_logs h, execHeartbeatSend_pools h⟩
  | .heartbeatReceive .. => ⟨execHeartbeatReceive_fixed h, execHeartbeatReceive_logs h, execHeartbeatReceive_pools h⟩
  | .heartbeatMissed .. => ⟨execHeartbeatMissed_fixed h, execHeartbeatMissed_logs h, execHeartbeatMissed_pools h⟩
  | .lossOfActiveHub .. => ⟨execLossOfActiveHub_fixed h, execLossOfActiveHub_logs h, execLossOfActiveHub_pools h⟩
  | .takeoverClaimTimeout .. => ⟨execTakeoverClaimTimeout_fixed h, execTakeoverClaimTimeout_logs h, execTakeoverClaimTimeout_pools h⟩
  | .mirrorFrameReceive .. => ⟨execMirrorFrameReceive_fixed h, execMirrorFrameReceive_logs h, execMirrorFrameReceive_pools h⟩
  | .mirrorCommitReceive .. => ⟨execMirrorCommitReceive_fixed h, execMirrorCommitReceive_logs h, execMirrorCommitReceive_pools h⟩
  | .mirrorReady .. => ⟨execMirrorReady_fixed h, execMirrorReady_logs h, execMirrorReady_pools h⟩
  | .roleLeaseExpiry .. => ⟨execRoleLeaseExpiry_fixed h, execRoleLeaseExpiry_logs h, execRoleLeaseExpiry_pools h⟩
  | .portRelayReceive .. => ⟨execPortRelayReceive_fixed h, execPortRelayReceive_logs h, execPortRelayReceive_pools h⟩
  | .stringFault .. => ⟨execStringFault_fixed h, execStringFault_logs h, execStringFault_pools h⟩
  | .hubRestart .. => ⟨execHubRestart_fixed h, execHubRestart_logs h, execHubRestart_pools h⟩
  | .hubRestartComplete .. => ⟨execHubRestartComplete_fixed h, execHubRestartComplete_logs h, execHubRestartComplete_pools h⟩
  | .hubSelfCheckFail .. => ⟨execHubSelfCheckFail_fixed h, execHubSelfCheckFail_logs h, execHubSelfCheckFail_pools h⟩
  | .poolCheck .. => ⟨execPoolCheck_fixed h, execPoolCheck_logs h, execPoolCheck_pools h⟩
  | .poolAuditSnapshot .. => ⟨execPoolAuditSnapshot_fixed h, execPoolAuditSnapshot_logs h, execPoolAuditSnapshot_pools h⟩
  | .idleEntry .. => ⟨execIdleEntry_fixed h, execIdleEntry_logs h, execIdleEntry_pools h⟩
  | .idleExit .. => ⟨execIdleExit_fixed h, execIdleExit_logs h, execIdleExit_pools h⟩
  | .syncReceive .. => ⟨execSyncReceive_fixed h, execSyncReceive_logs h, execSyncReceive_pools h⟩
  | .announceReceive .. => ⟨execAnnounceReceive_fixed h, execAnnounceReceive_logs h, execAnnounceReceive_pools h⟩
  | .syncReceiptTimeout .. => ⟨execSyncReceiptTimeout_fixed h, execSyncReceiptTimeout_logs h, execSyncReceiptTimeout_pools h⟩
  | .announceReceiptTimeout .. => ⟨execAnnounceReceiptTimeout_fixed h, execAnnounceReceiptTimeout_logs h, execAnnounceReceiptTimeout_pools h⟩
  | .holdoverLimit .. => ⟨execHoldoverLimit_fixed h, execHoldoverLimit_logs h, execHoldoverLimit_pools h⟩
  | .timeStep .. => ⟨execTimeStep_fixed h, execTimeStep_logs h, execTimeStep_pools h⟩
  | .txTimestampMissing .. => ⟨execTxTimestampMissing_fixed h, execTxTimestampMissing_logs h, execTxTimestampMissing_pools h⟩
  | .faultyEnd .. => ⟨execFaultyEnd_fixed h, execFaultyEnd_logs h, execFaultyEnd_pools h⟩
  | .syncInEdge .. => ⟨execSyncInEdge_fixed h, execSyncInEdge_logs h, execSyncInEdge_pools h⟩
  | .deferralRetry .. => ⟨execDeferralRetry_fixed h, execDeferralRetry_logs h, execDeferralRetry_pools h⟩
  | .entryExecute .. => ⟨execEntryExecute_fixed h, execEntryExecute_logs h, execEntryExecute_pools h⟩
  | .entryRetire .. => ⟨execEntryRetire_fixed h, execEntryRetire_logs h, execEntryRetire_pools h⟩
  | .staleAgeExpiry .. => ⟨execStaleAgeExpiry_fixed h, execStaleAgeExpiry_logs h, execStaleAgeExpiry_pools h⟩
  | .modeChangeStart .. => ⟨execModeChangeStart_fixed h, execModeChangeStart_logs h, execModeChangeStart_pools h⟩
  | .transitionEnd .. => ⟨execTransitionEnd_fixed h, execTransitionEnd_logs h, execTransitionEnd_pools h⟩
  | .channelDisableInstant .. => ⟨execChannelDisableInstant_fixed h, execChannelDisableInstant_logs h, execChannelDisableInstant_pools h⟩
  | .cancelInstant .. => ⟨execCancelInstant_fixed h, execCancelInstant_logs h, execCancelInstant_pools h⟩
  | .filterChange .. => ⟨execFilterChange_fixed h, execFilterChange_logs h, execFilterChange_pools h⟩
  | .overrangeConfirm .. => ⟨execOverrangeConfirm_fixed h, execOverrangeConfirm_logs h, execOverrangeConfirm_pools h⟩
  | .openWireResult .. => ⟨execOpenWireResult_fixed h, execOpenWireResult_logs h, execOpenWireResult_pools h⟩
  | .terminalMonitorResult .. => ⟨execTerminalMonitorResult_fixed h, execTerminalMonitorResult_logs h, execTerminalMonitorResult_pools h⟩
  | .overloadConfirm .. => ⟨execOverloadConfirm_fixed h, execOverloadConfirm_logs h, execOverloadConfirm_pools h⟩
  | .shortFgConfirm .. => ⟨execShortFgConfirm_fixed h, execShortFgConfirm_logs h, execShortFgConfirm_pools h⟩
  | .backfeedConfirm .. => ⟨execBackfeedConfirm_fixed h, execBackfeedConfirm_logs h, execBackfeedConfirm_pools h⟩
  | .backfeedClear .. => ⟨execBackfeedClear_fixed h, execBackfeedClear_logs h, execBackfeedClear_pools h⟩
  | .thermalConfirm .. => ⟨execThermalConfirm_fixed h, execThermalConfirm_logs h, execThermalConfirm_pools h⟩
  | .lpUndervoltConfirm .. => ⟨execLpUndervoltConfirm_fixed h, execLpUndervoltConfirm_logs h, execLpUndervoltConfirm_pools h⟩
  | .lpUndervoltEpisodeEnd .. => ⟨execLpUndervoltEpisodeEnd_fixed h, execLpUndervoltEpisodeEnd_logs h, execLpUndervoltEpisodeEnd_pools h⟩
  | .offPulseStart .. => ⟨execOffPulseStart_fixed h, execOffPulseStart_logs h, execOffPulseStart_pools h⟩
  | .offPulseEnd .. => ⟨execOffPulseEnd_fixed h, execOffPulseEnd_logs h, execOffPulseEnd_pools h⟩
  | .rampStep .. => ⟨execRampStep_fixed h, execRampStep_logs h, execRampStep_pools h⟩
  | .holdMsExpiry .. => ⟨execHoldMsExpiry_fixed h, execHoldMsExpiry_logs h, execHoldMsExpiry_pools h⟩
  | .shuntOpen .. => ⟨execShuntOpen_fixed h, execShuntOpen_logs h, execShuntOpen_pools h⟩
  | .shuntRecloseTrial .. => ⟨execShuntRecloseTrial_fixed h, execShuntRecloseTrial_logs h, execShuntRecloseTrial_pools h⟩
  | .currentLimitFoldback .. => ⟨execCurrentLimitFoldback_fixed h, execCurrentLimitFoldback_logs h, execCurrentLimitFoldback_pools h⟩
  | .foldbackRetry .. => ⟨execFoldbackRetry_fixed h, execFoldbackRetry_logs h, execFoldbackRetry_pools h⟩
  | .auxPassStart .. => ⟨execAuxPassStart_fixed h, execAuxPassStart_logs h, execAuxPassStart_pools h⟩
  | .auxEntryEnd .. => ⟨execAuxEntryEnd_fixed h, execAuxEntryEnd_logs h, execAuxEntryEnd_pools h⟩
  | .urgentTrigger .. => ⟨execUrgentTrigger_fixed h, execUrgentTrigger_logs h, execUrgentTrigger_pools h⟩
  | .urgentArrival .. => ⟨execUrgentArrival_fixed h, execUrgentArrival_logs h, execUrgentArrival_pools h⟩
  | .pwmEventTimeout .. => ⟨execPwmEventTimeout_fixed h, execPwmEventTimeout_logs h, execPwmEventTimeout_pools h⟩
  | .injectedSequenceEnd .. => ⟨execInjectedSequenceEnd_fixed h, execInjectedSequenceEnd_logs h, execInjectedSequenceEnd_pools h⟩
  | .refCompare .. => ⟨execRefCompare_fixed h, execRefCompare_logs h, execRefCompare_pools h⟩
  | .refSwitch .. => ⟨execRefSwitch_fixed h, execRefSwitch_logs h, execRefSwitch_pools h⟩
  | .mainsZeroCrossing .. => ⟨execMainsZeroCrossing_fixed h, execMainsZeroCrossing_logs h, execMainsZeroCrossing_pools h⟩
  | .mainsSourceTimeout .. => ⟨execMainsSourceTimeout_fixed h, execMainsSourceTimeout_logs h, execMainsSourceTimeout_pools h⟩
  | .mainsHoldExpiry .. => ⟨execMainsHoldExpiry_fixed h, execMainsHoldExpiry_logs h, execMainsHoldExpiry_pools h⟩
  | .mainsBoundarySend .. => ⟨execMainsBoundarySend_fixed h, execMainsBoundarySend_logs h, execMainsBoundarySend_pools h⟩
  | .mainsWindowEnd .. => ⟨execMainsWindowEnd_fixed h, execMainsWindowEnd_logs h, execMainsWindowEnd_pools h⟩
  | .chainOutput .. => ⟨execChainOutput_fixed h, execChainOutput_logs h, execChainOutput_pools h⟩
  | .decimatorReset .. => ⟨execDecimatorReset_fixed h, execDecimatorReset_logs h, execDecimatorReset_pools h⟩
  | .axisSample .. => ⟨execAxisSample_fixed h, execAxisSample_logs h, execAxisSample_pools h⟩
  | .angleEpisodeEnd .. => ⟨execAngleEpisodeEnd_fixed h, execAngleEpisodeEnd_logs h, execAngleEpisodeEnd_pools h⟩
  | .axisZReference .. => ⟨execAxisZReference_fixed h, execAxisZReference_logs h, execAxisZReference_pools h⟩
  | .axisStill .. => ⟨execAxisStill_fixed h, execAxisStill_logs h, execAxisStill_pools h⟩
  | .carouselSlotStart .. => ⟨execCarouselSlotStart_fixed h, execCarouselSlotStart_logs h, execCarouselSlotStart_pools h⟩
  | .carouselTakeover .. => ⟨execCarouselTakeover_fixed h, execCarouselTakeover_logs h, execCarouselTakeover_pools h⟩
  | .carouselPointsEnd .. => ⟨execCarouselPointsEnd_fixed h, execCarouselPointsEnd_logs h, execCarouselPointsEnd_pools h⟩
  | .carouselHandback .. => ⟨execCarouselHandback_fixed h, execCarouselHandback_logs h, execCarouselHandback_pools h⟩
  | .carouselSelfCalEnd .. => ⟨execCarouselSelfCalEnd_fixed h, execCarouselSelfCalEnd_logs h, execCarouselSelfCalEnd_pools h⟩
  | .warmStartWrite .. => ⟨execWarmStartWrite_fixed h, execWarmStartWrite_logs h, execWarmStartWrite_pools h⟩
  | .comparatorEdge .. => ⟨execComparatorEdge_fixed h, execComparatorEdge_logs h, execComparatorEdge_pools h⟩
  | .filterTick .. => ⟨execFilterTick_fixed h, execFilterTick_logs h, execFilterTick_pools h⟩
  | .encoderEpisodeEnd .. => ⟨execEncoderEpisodeEnd_fixed h, execEncoderEpisodeEnd_logs h, execEncoderEpisodeEnd_pools h⟩
  | .captureHeldTimeout .. => ⟨execCaptureHeldTimeout_fixed h, execCaptureHeldTimeout_logs h, execCaptureHeldTimeout_pools h⟩
  | .captureRetire .. => ⟨execCaptureRetire_fixed h, execCaptureRetire_logs h, execCaptureRetire_pools h⟩
  | .pwmPeriodStart .. => ⟨execPwmPeriodStart_fixed h, execPwmPeriodStart_logs h, execPwmPeriodStart_pools h⟩
  | .pwmDutyEnd .. => ⟨execPwmDutyEnd_fixed h, execPwmDutyEnd_logs h, execPwmDutyEnd_pools h⟩
  | .shareCompare .. => ⟨execShareCompare_fixed h, execShareCompare_logs h, execShareCompare_pools h⟩
  | .fskCarrierDetect .. => ⟨execFskCarrierDetect_fixed h, execFskCarrierDetect_logs h, execFskCarrierDetect_pools h⟩
  | .fskOctetReceive .. => ⟨execFskOctetReceive_fixed h, execFskOctetReceive_logs h, execFskOctetReceive_pools h⟩
  | .fskTimeout .. => ⟨execFskTimeout_fixed h, execFskTimeout_logs h, execFskTimeout_pools h⟩
  | .fskReceptionEnd .. => ⟨execFskReceptionEnd_fixed h, execFskReceptionEnd_logs h, execFskReceptionEnd_pools h⟩
  | .ledgerEpoch .. => ⟨execLedgerEpoch_fixed h, execLedgerEpoch_logs h, execLedgerEpoch_pools h⟩
  | .heatMetering .. => ⟨execHeatMetering_fixed h, execHeatMetering_logs h, execHeatMetering_pools h⟩
  | .operatingPointAdjust .. => ⟨execOperatingPointAdjust_fixed h, execOperatingPointAdjust_logs h, execOperatingPointAdjust_pools h⟩
  | .policyEpisodeEnd .. => ⟨execPolicyEpisodeEnd_fixed h, execPolicyEpisodeEnd_logs h, execPolicyEpisodeEnd_pools h⟩
  | .voltageConfirm .. => ⟨execVoltageConfirm_fixed h, execVoltageConfirm_logs h, execVoltageConfirm_pools h⟩
  | .vreqAck .. => ⟨execVreqAck_fixed h, execVreqAck_logs h, execVreqAck_pools h⟩
  | .vreqTimeout .. => ⟨execVreqTimeout_fixed h, execVreqTimeout_logs h, execVreqTimeout_pools h⟩
  | .powerHandshakeAnswer .. => ⟨execPowerHandshakeAnswer_fixed h, execPowerHandshakeAnswer_logs h, execPowerHandshakeAnswer_pools h⟩
  | .powerHandshakeTimeout .. => ⟨execPowerHandshakeTimeout_fixed h, execPowerHandshakeTimeout_logs h, execPowerHandshakeTimeout_pools h⟩
  | .commitStart .. => ⟨execCommitStart_fixed h, execCommitStart_logs h, execCommitStart_pools h⟩
  | .entryComplete .. => ⟨execEntryComplete_fixed h, execEntryComplete_logs h, execEntryComplete_pools h⟩
  | .wakeNEvent .. => ⟨execWakeNEvent_fixed h, execWakeNEvent_logs h, execWakeNEvent_pools h⟩
  | .alarmWake .. => ⟨execAlarmWake_fixed h, execAlarmWake_logs h, execAlarmWake_pools h⟩
  | .linkEnergyWake .. => ⟨execLinkEnergyWake_fixed h, execLinkEnergyWake_logs h, execLinkEnergyWake_pools h⟩
  | .wakePattern .. => ⟨execWakePattern_fixed h, execWakePattern_logs h, execWakePattern_pools h⟩
  | .wakeComplete .. => ⟨execWakeComplete_fixed h, execWakeComplete_logs h, execWakeComplete_pools h⟩
  | .powerUp .. => ⟨execPowerUp_fixed h, execPowerUp_logs h, execPowerUp_pools h⟩
  | .powerUpComplete .. => ⟨execPowerUpComplete_fixed h, execPowerUpComplete_logs h, execPowerUpComplete_pools h⟩
  | .powerFailure .. => ⟨execPowerFailure_fixed h, execPowerFailure_logs h, execPowerFailure_pools h⟩
  | .powerDownStep .. => ⟨execPowerDownStep_fixed h, execPowerDownStep_logs h, execPowerDownStep_pools h⟩
  | .linkDown .. => ⟨execLinkDown_fixed h, execLinkDown_logs h, execLinkDown_pools h⟩
  | .linkUp .. => ⟨execLinkUp_fixed h, execLinkUp_logs h, execLinkUp_pools h⟩
  | .linkLossDeclare .. => ⟨execLinkLossDeclare_fixed h, execLinkLossDeclare_logs h, execLinkLossDeclare_pools h⟩
  | .sessionTimeout .. => ⟨execSessionTimeout_fixed h, execSessionTimeout_logs h, execSessionTimeout_pools h⟩
  | .keyGraceExpiry .. => ⟨execKeyGraceExpiry_fixed h, execKeyGraceExpiry_logs h, execKeyGraceExpiry_pools h⟩
  | .speedRenegotiate .. => ⟨execSpeedRenegotiate_fixed h, execSpeedRenegotiate_logs h, execSpeedRenegotiate_pools h⟩
  | .streamBlockSend .. => ⟨execStreamBlockSend_fixed h, execStreamBlockSend_logs h, execStreamBlockSend_pools h⟩
  | .gateCycleStart .. => ⟨execGateCycleStart_fixed h, execGateCycleStart_logs h, execGateCycleStart_pools h⟩
  | .supervisionFrameSend .. => ⟨execSupervisionFrameSend_fixed h, execSupervisionFrameSend_logs h, execSupervisionFrameSend_pools h⟩
  | .duplicateEntryExpiry .. => ⟨execDuplicateEntryExpiry_fixed h, execDuplicateEntryExpiry_logs h, execDuplicateEntryExpiry_pools h⟩
  | .logWrite .. => ⟨execLogWrite_fixed h, execLogWrite_logs h, execLogWrite_pools h⟩
  | .blackBoxCopy .. => ⟨execBlackBoxCopy_fixed h, execBlackBoxCopy_logs h, execBlackBoxCopy_pools h⟩
  | .eventDatagramSend .. => ⟨execEventDatagramSend_fixed h, execEventDatagramSend_logs h, execEventDatagramSend_pools h⟩
  | .isolatedPowerLost .. => ⟨execIsolatedPowerLost_fixed h, execIsolatedPowerLost_logs h, execIsolatedPowerLost_pools h⟩
  | .activeHubStop .. => ⟨execActiveHubStop_fixed h, execActiveHubStop_logs h, execActiveHubStop_pools h⟩
  | .fskTransmitEnd .. => ⟨execFskTransmitEnd_fixed h, execFskTransmitEnd_logs h, execFskTransmitEnd_pools h⟩
  | .roleLeaseReceive .. => ⟨execRoleLeaseReceive_fixed h, execRoleLeaseReceive_logs h, execRoleLeaseReceive_pools h⟩
  | .mirrorCommitAck .. => ⟨execMirrorCommitAck_fixed h, execMirrorCommitAck_logs h, execMirrorCommitAck_pools h⟩

/-- Each command that the queue can hold answers a next state. -/
theorem runCmd_next (r : Req) (s : State) (c : ZcsCmd) : ∃ t, runCmd r s c = .next t := by
  cases c <;> exact ⟨_, rfl⟩

/-- The controller's next command answers a next state, whether one waits or not and whether its body is read or refused. -/
theorem execCommandAccept_next (s : State) : ∃ t, execCommandAccept s = .next t := by
  unfold execCommandAccept
  split
  · exact ⟨_, rfl⟩
  · split
    · split
      · exact runCmd_next ..
      · exact ⟨_, rfl⟩
    · exact ⟨_, rfl⟩

/-- Every command answers a next state: the meaning of each is one, but for the queue's, which is that of the command it takes. -/
theorem exec_next (i : Instr) (s : State) : ∃ t, exec i s = .next t := by
  cases i
  case commandAccept => exact execCommandAccept_next s
  all_goals exact ⟨_, rfl⟩

/-- Settles O57: each command answers a next state, and what no command touches is as before. -/
theorem everyCommandCompletes : Obligations.EveryCommandCompletes := by
  unfold Obligations.EveryCommandCompletes
  intro c s
  obtain ⟨t, ht⟩ := exec_next c s
  obtain ⟨hfixed, -, -⟩ := exec_keeps ht
  simp only [State.fixed, Prod.mk.injEq] at hfixed
  obtain ⟨hpending, hdies, hpart, hident⟩ := hfixed
  exact ⟨t, ht, hpending, hdies, hpart, hident⟩

/-! ### What a step on an empty queue keeps -/

/-- What the ports send leaves the hubs, and so their logs, as they are. -/
theorem pass_logs {s : State} (h : LogsOk s.hubs) : LogsOk s.pass.hubs :=
  s.tick_logs h

/-- What the ports send leaves every pool as it is. -/
theorem pass_pools {s : State} (h : PoolsOk s.core s.copy s.mirror.wire s.mirror.rx s.dies) :
    PoolsOk s.pass.core s.pass.copy s.pass.mirror.wire s.pass.mirror.rx s.pass.dies :=
  s.tick_pools h

/-- A step is a tick, or the front command on the state with the queue's rest. -/
theorem step_cases {s t : State} (h : step s = .next t) :
    t = s.pass ∨ ∃ c rest, s.pending = c :: rest ∧ exec c { s with pending := rest } = .next t := by
  unfold step at h
  split at h
  next => exact .inl (Host.Outcome.next.inj h).symm
  next c rest hp => exact .inr ⟨c, rest, hp, h⟩

/-- Settles O2: by the definition of a step. -/
theorem stepTakesTheFrontCommand : Obligations.StepTakesTheFrontCommand := by
  unfold Obligations.StepTakesTheFrontCommand
  intro c rest s
  rfl

/-! ### The two invariants -/

theorem eventsWhole_iff_logsOk (s : State) : EventsWhole s ↔ LogsOk s.hubs :=
  ⟨fun h => ⟨h⟩, fun h => h.ok⟩

/-- The copies of the active hub's state are its own, the standby's, and those on their way. -/
theorem mem_cores {s : State} {c : Core} :
    c ∈ cores s ↔ c = s.core ∨ c = s.copy ∨ (∃ u ∈ s.mirror.wire, u.core = c) ∨ ∃ u ∈ s.mirror.rx, u.core = c := by
  simp [cores]

theorem poolsWhole_iff_poolsOk (s : State) :
    PoolsWhole s ↔ PoolsOk s.core s.copy s.mirror.wire s.mirror.rx s.dies := by
  constructor
  · rintro ⟨hcores, hdies⟩
    have hof {c : Core} (hc : c ∈ cores s) : CoreOk c.slots c.store := ⟨(hcores c hc).1, (hcores c hc).2⟩
    exact ⟨hof (mem_cores.2 (.inl rfl)), hof (mem_cores.2 (.inr (.inl rfl))),
      fun u hu => hof (mem_cores.2 (.inr (.inr (.inl ⟨u, hu, rfl⟩)))),
      fun u hu => hof (mem_cores.2 (.inr (.inr (.inr ⟨u, hu, rfl⟩)))), fun i => ⟨hdies i⟩⟩
  · intro h
    refine ⟨fun c hc => ?_, fun d => (h.dies d).ntq⟩
    suffices hok : CoreOk c.slots c.store from ⟨hok.slots, hok.store⟩
    obtain rfl | rfl | ⟨u, hu, rfl⟩ | ⟨u, hu, rfl⟩ := mem_cores.1 hc
    · exact h.core
    · exact h.copy
    · exact h.wire u hu
    · exact h.rx u hu

/-- Settles O59: a tick keeps both logs' counts, and so does every command. -/
theorem eventsKept : Obligations.EventsKept := by
  unfold Obligations.EventsKept
  intro s t hs hstep
  rw [eventsWhole_iff_logsOk] at hs ⊢
  obtain rfl | ⟨c, rest, -, hexec⟩ := step_cases hstep
  · exact pass_logs hs
  · obtain ⟨-, hlogs, -⟩ := exec_keeps hexec
    exact hlogs hs

/-- Settles O60: a tick keeps the pools' sizes, and so does every command. -/
theorem poolsKept : Obligations.PoolsKept := by
  unfold Obligations.PoolsKept
  intro s t hs hstep
  rw [poolsWhole_iff_poolsOk] at hs ⊢
  obtain rfl | ⟨c, rest, -, hexec⟩ := step_cases hstep
  · exact pass_pools hs
  · obtain ⟨-, -, hpools⟩ := exec_keeps hexec
    exact hpools hs

/-! ### The clocks in a tick -/

theorem slewNow_cases (s : State) :
    s.slewNow = 0 ∨ (s.slewNow = 1 ∧ 0 < s.sync.slew) ∨ (s.slewNow = -1 ∧ s.sync.slew < 0) := by
  unfold State.slewNow
  split_ifs <;> simp [*]

theorem wholeTick_cases (acc : Int) : wholeTick acc = 0 ∨ wholeTick acc = 1 ∨ wholeTick acc = -1 := by
  unfold wholeTick
  split_ifs <;> simp

/-- The slew and the frequency correction give or take at most one tick together. -/
theorem slewNow_add_freqNow_bounds (s : State) : -1 ≤ s.slewNow + s.freqNow ∧ s.slewNow + s.freqNow ≤ 1 := by
  unfold State.freqNow
  have hslew := slewNow_cases s
  have hfreq := wholeTick_cases (s.clk.frac + s.sync.freq)
  split_ifs <;> omega

/-- The ports do nothing while the device has not completed its power-up. -/
theorem portSends_of_boot_ne {s : State} (h : s.power.boot ≠ .complete) (p : PortId) : s.portSends p = false := by
  simp [State.portSends, State.portRuns, h]

/-- Whether a port sends does not depend on what a tick changes. -/
theorem portSends_tick (s : State) (p : PortId) : s.tick.portSends p = s.portSends p := by
  unfold State.tick
  split
  · rfl
  · simp [State.portSends, State.portRuns, State.hub, Hub.nextCycle, State.portOwner, State.awake, State.portThere]

theorem vmap_at {α : Type} {n : Nat} (v : Vector α n) (f : Fin n → α → α) (i : Fin n) : (vmap v f)[i.val] = f i v[i.val] := by
  simp [vmap]

/-- Once power is applied and the device is not held in reset, a tick is counted. -/
theorem tick_of_counting {s : State} (hpower : s.power.boot ≠ .unpowered) (hreset : s.power.boot ≠ .heldInReset) :
    s.tick =
      { s with
        clk :=
          { now := ((s.clk.now : Int) + (1 + s.slewNow + s.freqNow)).toNat
            elapsed := s.clk.elapsed + 1
            frac := s.clk.frac + s.sync.freq - s.freqNow * 1000000000
            peer := ((s.clk.peer : Int) + (1 + s.slewNow + s.freqNow)).toNat }
        sync := { s.sync with slew := s.sync.slew - s.slewNow }
        hubs := s.hubs.map Hub.nextCycle
        dies := s.dies.map fun d => (d.tick (1 + s.slewNow + s.freqNow) s.clk.elapsed).nextCycle
        base := s.counters } := by
  simp [State.tick, hpower, hreset]

theorem tick_of_not_counting {s : State} (h : s.power.boot = .unpowered ∨ s.power.boot = .heldInReset) : s.tick = s := by
  simp [State.tick, h]

/-- No port sends before the power-up is complete, so such a state passes a moment unchanged. -/
theorem pass_of_not_counting {s : State} (h : s.power.boot = .unpowered ∨ s.power.boot = .heldInReset) : s.pass = s := by
  have hboot : s.power.boot ≠ .complete := by rcases h with h | h <;> simp [h]
  have hsame {α : Type} (v : Vector α 2) : vmap v (fun _ x => x) = v := by ext; simp [vmap]
  simp [State.pass, tick_of_not_counting h, State.portsSend, portSends_of_boot_ne hboot, hsame]

/-- What a tick leaves alone in a die: all but the replica and what it gathers. -/
theorem die_tick_eq (d : Die) (n : Int) (e : Nat) :
    d.tick n e = { d with replica := (d.tick n e).replica, frac := (d.tick n e).frac, realign := (d.tick n e).realign } := by
  unfold Die.tick
  split_ifs <;> rfl

/-- A replica that neither coasts nor realigns moves with the counter. -/
theorem die_tick_replica {d : Die} {n : Int} (e : Nat) (hn : 0 ≤ n) (hcoast : d.coasting = false) (halign : d.realign = 0) :
    ((d.tick n e).replica : Int) = d.replica + n := by
  have hnow : d.realignNow e = 0 := by simp [Die.realignNow, halign]
  unfold Die.tick
  simp only [hcoast, Bool.false_eq_true, if_false, hnow]
  split_ifs <;> simp only <;> omega

/-- A coasting replica whose frequency is the nominal one moves by a tick. -/
theorem die_tick_coasting {d : Die} (n : Int) (e : Nat) (hcoast : d.coasting = true) (hfreq : d.frac + d.coastFreq = 0) :
    (d.tick n e).replica = d.replica + 1 := by
  simp only [Die.tick, hcoast, if_true, hfreq, wholeTick]
  norm_num

/-- Each port's frames leave where its gates let them, in their order, and only where it sends. -/
theorem pass_port (s : State) (p : PortId) :
    (s.portSends p = false → s.pass.net.egress[p.val] = s.net.egress[p.val] ∧ s.pass.net.wire[p.val] = s.net.wire[p.val]) ∧
    (s.portSends p = true → s.pass.net.egress[p.val] = (s.net.egress[p.val]).filter (fun x => !s.pass.canLeave p x) ∧
      s.pass.net.wire[p.val] =
        s.net.wire[p.val] ++ ((s.net.egress[p.val]).filter fun x => s.pass.canLeave p x).map fun x => (x.2.cls, x.2)) := by
  have hnet : s.tick.net = s.net := by unfold State.tick; split <;> rfl
  have hleave : s.pass.canLeave p = s.tick.canLeave p := rfl
  rw [hleave]
  simp only [State.pass, State.portsSend, vmap_at, portSends_tick, hnet]
  constructor <;> (intro h; simp [h])

/-- Settles O3: before power nothing changes; else the clock counts one tick with its corrections, each replica after it, and
each port sends what may leave. -/
theorem idleStepIsATick : Obligations.IdleStepIsATick := by
  unfold Obligations.IdleStepIsATick
  intro s hidle
  have hstep : step s = .next s.pass := by simp only [step, hidle]
  refine ⟨fun h => hstep.trans (congrArg _ (pass_of_not_counting h)), fun hpower hreset => ⟨s.pass, hstep, ?_⟩⟩
  have htick := tick_of_counting hpower hreset
  have hbounds := slewNow_add_freqNow_bounds s
  have hslew := slewNow_cases s
  have hclk : s.pass.clk = s.tick.clk := rfl
  have hsync : s.pass.sync = s.tick.sync := rfl
  have hdie (d : DieId) : s.pass.die d = ((s.die d).tick (1 + s.slewNow + s.freqNow) s.clk.elapsed).nextCycle := by
    change s.tick.die d = _
    simp [htick, State.die]
  refine ⟨?_, ?_, ?_, ?_, ?_, ?_, ?_, ?_, pass_port s, ?_⟩
  · simp only [hclk, htick]
  · exact Int.ofNat_le.1 (by simp only [hclk, htick]; omega)
  · exact Int.ofNat_le.1 (by simp only [hclk, htick]; omega)
  · simp only [hsync, htick]; omega
  · simp only [hclk, hsync, htick]; omega
  · intro d hcoast halign
    have hmove := die_tick_replica s.clk.elapsed (show 0 ≤ 1 + s.slewNow + s.freqNow by omega) hcoast halign
    simp only [hdie, hclk, htick, Die.nextCycle]
    omega
  · intro d hcoast hfreq
    rw [hdie]
    exact die_tick_coasting _ _ hcoast hfreq
  · simp only [State.pass, State.portsSend, htick]
  · intro d
    rw [hdie]
    exact congrArg Die.nextCycle (die_tick_eq ..)

end Sys2Proof
end

section
/-! Reset (R14, R146): every die and every channel is as its own reset leaves it. -/

namespace Sys2Proof
open Machine

theorem reset_die (d : DieId) : ∃ b, State.reset.die d = Die.reset b := by
  fin_cases d <;> exact ⟨_, rfl⟩

theorem reset_hub (h : HubId) : ∃ b x, State.reset.hub h = Hub.reset b x := by
  fin_cases h <;> exact ⟨_, _, rfl⟩

/-- Every channel of a die is reset, whether the die is there or not. -/
theorem dieReset_chan (b : Bool) (c : ChanId) : (Die.reset b).chan c = Channel.reset := by
  simp [Die.reset, Die.chan]

theorem reset_chan (ch : Chan) : State.reset.chan ch = Channel.reset := by
  obtain ⟨b, hd⟩ := reset_die ch.die
  rw [← State.chan_eq, hd, dieReset_chan]

theorem reset_poolsWhole : PoolsWhole State.reset := by
  refine ⟨fun c hc => ?_, fun d => ?_⟩
  · obtain rfl | rfl | ⟨u, hu, -⟩ | ⟨u, hu, -⟩ := mem_cores.1 hc
    · exact ⟨rfl, rfl⟩
    · exact ⟨rfl, rfl⟩
    · exact (List.not_mem_nil hu).elim
    · exact (Option.not_mem_none _ hu).elim
  · obtain ⟨b, hd⟩ := reset_die d
    rw [hd]
    rfl

theorem reset_eventsWhole : EventsWhole State.reset := by
  intro h
  obtain ⟨b, x, hh⟩ := reset_hub h
  rw [hh]
  exact Log.reset_ok

/-- Settles O1: by the definition of reset, whose dies and channels are alike. -/
theorem resetValues : Obligations.ResetValues := by
  unfold Obligations.ResetValues
  refine ⟨rfl, rfl, rfl, rfl, ⟨rfl, rfl⟩, ⟨rfl, rfl, rfl, rfl, rfl⟩, ⟨rfl, rfl, rfl, rfl, rfl, rfl, rfl⟩, ⟨rfl, rfl, rfl, rfl⟩,
    rfl, rfl, rfl, rfl, ⟨reset_poolsWhole, reset_eventsWhole⟩, fun d => ?_, fun ch => ?_⟩
  · obtain ⟨b, hd⟩ := reset_die d
    rw [hd]
    exact ⟨rfl, rfl, rfl, rfl, rfl, rfl, rfl, rfl, rfl, rfl, rfl, rfl⟩
  · rw [reset_chan]
    exact ⟨rfl, rfl, rfl, rfl, rfl⟩

end Sys2Proof
end

section
/-! Register writes (R10, R393): what a write by address and the rows of single registers do, where a write is turned away, the page
headers, and the registers of a channel's page. -/

namespace Sys2Proof
open Machine

/-! ### A write by address -/

/-- A write whose path takes its address acts at the register that the address names. -/
theorem writeAddr_of_located {s : State} {p : Path} {addr off : Nat} {pg : PageRef} (hpath : (∃ h, p = .spi h) ∨ addr % 4 = 0)
    (hloc : s.locate (addr / 4 * 4) = .page pg off) (w : Word) : s.writeAddr p addr w = s.writeReg p pg off w := by
  simp only [State.writeAddr, hloc]
  rcases hpath with ⟨h, rfl⟩ | haddr
  · simp
  · simp [haddr]

theorem writeAddr_of_misaligned {s : State} {p : Path} {addr : Nat} (hpath : ∀ h, p ≠ .spi h) (haddr : addr % 4 ≠ 0) (w : Word) :
    s.writeAddr p addr w = s := by
  cases p with
  | spi h => exact absurd rfl (hpath h)
  | zcs => simp [State.writeAddr, haddr]
  | tunnel => simp [State.writeAddr, haddr]

theorem writeAddr_of_not_located {s : State} {p : Path} {addr : Nat} (hloc : ∀ pg off, s.locate (addr / 4 * 4) ≠ .page pg off)
    (w : Word) : s.writeAddr p addr w = s := by
  cases hl : s.locate (addr / 4 * 4) with
  | page pg off => exact absurd hl (hloc pg off)
  | absent => simp [State.writeAddr, hl]
  | reserved => simp [State.writeAddr, hl]

/-- A write of a page's header register goes to that register. -/
theorem writePage_of_located {s : State} {p : Path} {page off : Nat} {pg : PageRef} (hoff : off % 4 = 0)
    (hloc : s.locate (page * 4096 + off) = .page pg off) (w : Word) : s.writePage p page off w = s.writeReg p pg off w := by
  have haddr : (page * 4096 + off) % 4 = 0 := by omega
  have hword : (page * 4096 + off) / 4 * 4 = page * 4096 + off := by omega
  exact writeAddr_of_located (.inr haddr) (hword.symm ▸ hloc) w

/-- Settles O6: by the order of the checks on the way to a register. -/
theorem registerWriteByAddress : Obligations.RegisterWriteByAddress := by
  unfold Obligations.RegisterWriteByAddress
  have hexec (s : State) (p : Path) (addr w : Word) : exec (.registerWrite p addr w) s = .next (s.writeAddr p addr.toNat w) := rfl
  refine ⟨fun s p addr w => ⟨fun pg off hpath hloc hreach => ?_, fun hpath haddr => ?_, fun hloc => ?_⟩,
    fun s p addr w pg off hpath hloc => ?_⟩
  · rw [hexec, writeAddr_of_located hpath hloc, writeReg_of_reaches hreach]
  · rw [hexec, writeAddr_of_misaligned hpath haddr]
  · rw [hexec, writeAddr_of_not_located hloc]
  · simp only [hexec, writeAddr_of_located hpath hloc, State.writeReg, State.accessed, State.access]
    refine ⟨fun hno => ?_, fun hans hopen hthere => ⟨fun hoff => ?_, fun hon => ⟨fun hreg => ?_, fun hreg => ⟨fun hstandby => ?_,
      fun hstandby hheard => ?_, fun hstandby hheard hlock => ?_⟩⟩⟩⟩
    · rcases hno with h | h | h <;> simp [h]
    · simp [hans, hopen, hthere, hoff, State.offWrite]
    · simp [hans, hopen, hthere, hon, hreg]
    · simp [hans, hopen, hthere, hon, hreg, hstandby]
    · simp [hans, hopen, hthere, hon, hreg, hstandby, hheard]
    · simp [hans, hopen, hthere, hon, hreg, hstandby, hheard, hlock]

/-! ### Page headers -/

/-- A header write does its work and is noted for the standby's copy of the page (R398). -/
theorem regOp_header (s : State) (p : Path) (pg : PageRef) {off : Nat} (w : Word) (hoff : off < 0x40) :
    s.regOp p pg off w = noted s pg off w (s.writeHdr pg off w) := by
  have hchan : ¬ 0x40 ≤ off := by omega
  cases pg <;> simp [State.regOp, State.regPut, State.hdrWrite, noted, hoff, hchan]

/-- A row that writes a header register of the page with an index does it where the write reaches its register. -/
theorem writePage_of_reaches {s : State} {p : Path} {page off : Nat} {pg : PageRef} (hoff : off % 4 = 0) (hhdr : off < 0x40)
    (hloc : s.locate (page * 4096 + off) = .page pg off) (hreach : Reaches s p pg off) (w : Word) :
    s.writePage p page off w = State.commit s (noted s pg off w (s.writeHdr pg off w)) := by
  rw [writePage_of_located hoff hloc, writeReg_of_reaches hreach, regOp_header s p pg w hhdr]

/-- The bit that makes a write of PAGE_CTRL a reset of the block is set in the word that BLOCK_RESET writes, and FREEZE stays. -/
theorem bits_of_blockReset (w : Word) : bit (w ||| 4#32) 2 = true ∧ bit (w ||| 4#32) 1 = bit w 1 := by
  simp [bit]

/-- Settles O5: each of the rows writes one header register, of which the write does what R402, R404 and R406 say. -/
theorem headerWrites : Obligations.HeaderWrites := by
  unfold Obligations.HeaderWrites
  intro s p page pg
  refine ⟨fun hloc hreach => ⟨?_, ?_⟩, fun w hloc hreach => ?_, fun w hloc hreach => ⟨?_, fun hbit => ?_⟩⟩
  · exact congrArg _ (writePage_of_reaches rfl (by decide) hloc hreach _)
  · exact congrArg _ (writePage_of_reaches rfl (by decide) hloc hreach _)
  · exact congrArg _ (writePage_of_reaches rfl (by decide) hloc hreach w)
  · obtain ⟨hreset, hfreeze⟩ := bits_of_blockReset w
    refine (congrArg _ (writePage_of_reaches rfl (by decide) hloc hreach _)).trans ?_
    simp only [State.writeHdr, hreset, hfreeze, if_true]
  · refine (congrArg _ (writePage_of_reaches rfl (by decide) hloc hreach w)).trans ?_
    simp only [State.writeHdr, hbit, Bool.false_eq_true, if_false]

/-! ### Channel registers (R112, R154, R225) -/

/-- A row that writes a channel's register does what the register says, and the shadow of the channel's unit follows. -/
theorem writeReg_chan {s : State} {p : Path} {ch : Chan} {off : Nat} (hreach : Reaches s p (chanPage ch) off) (hoff : 0x40 ≤ off)
    (w : Word) : s.writeReg p (chanPage ch) off w = State.commit s ((s.chanOp p ch off w).shadowUnit ch) := by
  rw [writeReg_of_reaches hreach, regOp_chan s p ch off w hoff]

theorem filtOff_ge (r : FiltReg) : 0x40 ≤ filtOff r := by
  cases r <;> decide

/-- The filter registers of a channel's page go to the filter's own rules. -/
theorem chanOp_filtOff (s : State) (p : Path) (ch : Chan) (r : FiltReg) (w : Word) :
    s.chanOp p ch (filtOff r) w = s.filterWrite p ch (filtOff r) w := by
  cases r <;> rfl

/-- CNT_PRESET is a register of the even channel of a pair, and of no Z input (R225). -/
theorem evenOfPair_iff (k : Channel) (c : ChanId) : k.evenOfPair c = true ↔ c.val % 2 = 0 ∧ Img.zIn k.img = false := by
  simp [Channel.evenOfPair]

/-- What becomes of a filter write whose new image holds the word v at its offset (R154). -/
theorem filterPut_cases {s : State} {p : Path} {ch : Chan} {off : Nat} {w v : Word} {new : ChanImg}
    (hv : State.filterPut.imgGet new off w = v) :
    (imgFieldsOk new = false → s.filterPut p ch off w new = s.rejectAt (chanPage ch) 1 p off) ∧
    (imgFieldsOk new = true → s.filterBad ch (tenAfterTwenty s.clk.now) new = true →
      s.filterPut p ch off w new = s.rejectAt (chanPage ch) 4 p off) ∧
    (imgFieldsOk new = true → s.filterBad ch (tenAfterTwenty s.clk.now) new = false →
      s.filterPut p ch off w new = s.putLater ch ((off, v) :: filtDiff (imgSet (s.chan ch).want off v) new)) := by
  subst hv
  refine ⟨fun hok => ?_, fun hok hbad => ?_, fun hok hbad => ?_⟩
  · simp only [State.filterPut, hok, chanPage, Bool.not_false, if_true]
  · simp only [State.filterPut, hok, hbad, chanPage, Bool.not_true, Bool.false_eq_true, if_true, if_false]
  · simp only [State.filterPut, hok, hbad, Bool.not_true, Bool.false_eq_true, if_false]

theorem noPreset_maLen (i : ChanImg) (off : Nat) : (noPreset i off).maLen = i.maLen := by
  unfold noPreset
  split <;> rfl

/-- Settles O7: each row writes one register of the channel's page, of which the write does what its rule says. -/
theorem channelRegisterWrites : Obligations.ChannelRegisterWrites := by
  unfold Obligations.ChannelRegisterWrites
  intro s p ch w
  refine ⟨fun hreach => ?_, fun hreach => ?_, ?_, fun hreach => ?_, fun r hreach => ?_, fun r v new hreach hnew => ?_⟩
  · exact congrArg _ (writeReg_chan hreach (by decide) w)
  · refine congrArg _ ((writeReg_chan hreach (by decide) w).trans ?_)
    simp only [← evenOfPair_iff]
    rfl
  · rintro o v1 v2 hreach rfl rfl rfl
    exact congrArg _ (writeReg_chan hreach (by decide) w)
  · exact congrArg _ (writeReg_chan hreach (by decide) w)
  · refine congrArg _ ((writeReg_chan hreach (filtOff_ge r) w).trans ?_)
    rw [chanOp_filtOff]
  · have hexec : exec (.filterRegisterWrite p ch r w) s =
        .next (State.commit s ((s.filterPut p ch (filtOff r) w new).shadowUnit ch)) := by
      refine congrArg _ ((writeReg_chan hreach (filtOff_ge r) w).trans ?_)
      rcases hnew with ⟨rfl, rfl, rfl⟩ | ⟨rfl, rfl, rfl⟩ <;> rfl
    have hv : State.filterPut.imgGet new (filtOff r) w = v := by
      rcases hnew with ⟨rfl, rfl, rfl⟩ | ⟨rfl, rfl, rfl⟩
      · exact noPreset_maLen ..
      · rfl
    obtain ⟨hfields, hbad, hok⟩ := filterPut_cases (s := s) (p := p) (ch := ch) hv
    rw [hexec]
    exact ⟨fun h => by rw [hfields h], fun h h' => by rw [hbad h h'], fun h h' => by rw [hok h h']⟩

/-! ### Retirement and admission leave the dies at work (R72, R270) -/

/-- Entries may have retired or been planned: of each die at most the near-term queue's list differs, and outside the hubs, the active
hub's state and the mirroring nothing does. -/
structure OnlyRetires (s t : State) : Prop where
  rest : t = { s with core := t.core, hubs := t.hubs, dies := t.dies, mirror := t.mirror }
  dies : ∀ d, t.die d = { s.die d with ntq := (t.die d).ntq }

theorem OnlyRetires.refl (s : State) : OnlyRetires s s := ⟨rfl, fun _ => rfl⟩

theorem OnlyRetires.trans {s t u : State} (h : OnlyRetires s t) (g : OnlyRetires t u) : OnlyRetires s u := by
  refine ⟨?_, fun d => ?_⟩
  · rw [g.rest, h.rest]
  · rw [g.dies d, h.dies d]

theorem onlyRetires_modCore (s : State) (f : Core → Core) : OnlyRetires s (s.modCore f) := ⟨rfl, fun _ => rfl⟩

theorem onlyRetires_modHub (s : State) (h : HubId) (f : Hub → Hub) : OnlyRetires s (s.modHub h f) := ⟨rfl, fun _ => rfl⟩

theorem onlyRetires_hold (s : State) (a : HeldBack) : OnlyRetires s (s.hold a) := by
  unfold State.hold
  split
  · exact ⟨rfl, fun _ => rfl⟩
  · exact .refl s

/-- A die's list of queued entries may change alone. -/
theorem onlyRetires_modNtq (s : State) (d : DieId) (f : List Entry → List Entry) :
    OnlyRetires s (s.modDie d fun k => { k with ntq := f k.ntq }) := by
  refine ⟨rfl, fun e => ?_⟩
  by_cases hed : d = e
  · subst hed
    simp
  · rw [State.die_modDie_ne _ _ _ _ hed]

theorem onlyRetires_retire (s : State) (id : Nat) (o : EntryOutcome) : OnlyRetires s (s.retire id o) := by
  unfold State.retire
  split
  · exact .refl s
  · next e _ =>
    have hdone := (onlyRetires_modCore s (·.retire e o s.clk.elapsed)).trans
      (onlyRetires_modNtq _ e.ch.die fun l => l.filter (·.id != id))
    dsimp only
    split
    · exact hdone.trans (onlyRetires_modHub ..)
    · exact hdone

theorem onlyRetires_outcome (s : State) (id : Nat) (o : EntryOutcome) : OnlyRetires s (s.outcome id o) := by
  unfold State.outcome
  split
  · exact (onlyRetires_modCore s _).trans (onlyRetires_hold ..)
  · exact onlyRetires_retire s id o

theorem onlyRetires_outcomes (s : State) (ids : List Nat) (o : EntryOutcome) : OnlyRetires s (s.outcomes ids o) := by
  unfold State.outcomes
  induction ids generalizing s with
  | nil => exact .refl s
  | cons id ids ih => exact (onlyRetires_outcome s id o).trans (ih _)

theorem onlyRetires_preempted (s : State) (cls : Nat) (ids : List Nat) : OnlyRetires s (s.preempted cls ids) :=
  ((onlyRetires_outcomes s ids .cancelled).trans (onlyRetires_modCore ..)).trans (onlyRetires_modHub ..)

/-- Costs that the ledger admits are planned, and entries may have been pre-empted for them (R266, R270). -/
theorem onlyRetires_of_ledgerAdmit {s t : State} {items : List PlanItem} {cls now : Nat} {below : Nat}
    (h : s.ledgerAdmit items cls now below = .ok t) : OnlyRetires s t := by
  unfold State.ledgerAdmit at h
  dsimp only at h
  split at h
  · exact Except.ok.inj h ▸ .refl s
  · split at h
    · exact absurd h (by simp)
    · split at h
      · exact Except.ok.inj h ▸ onlyRetires_modCore ..
      · split at h
        · split at h
          · exact Except.ok.inj h ▸ (onlyRetires_preempted ..).trans (onlyRetires_modCore ..)
          · exact absurd h (by simp)
        · exact absurd h (by simp)

/-! ### One channel of the package changed -/

theorem State.chan_modCh_self (s : State) (ch : Chan) (f : Channel → Channel) :
    (s.modCh ch f).chan ch = (s.chan ch).settle ((f (s.chan ch)).held (s.die ch.die).allOff) (s.die ch.die).replica := by
  rw [← State.chan_eq, State.modCh, State.die_modDie, Die.chan_modCh, State.chan_eq]

theorem State.chan_modCh_ne (s : State) {ch c : Chan} (f : Channel → Channel) (h : ch ≠ c) :
    (s.modCh ch f).chan c = s.chan c := by
  rw [← State.chan_eq, ← State.chan_eq, State.modCh]
  by_cases hd : ch.die = c.die
  · have hc : ch.c ≠ c.c := fun hc => h (by cases ch; cases c; simp_all)
    rw [← hd, State.die_modDie, Die.chan_modCh_ne _ _ _ _ hc]
  · rw [State.die_modDie_ne _ _ _ _ hd]

/-- What a change of some channel leaves of each one's waiting configurations and image. -/
theorem chan_modCh_pend_img (s : State) (c ch : Chan) {f : Channel → Channel}
    (hpend : ∀ k, (f k).pend = k.pend) (himg : ∀ k, (f k).img = k.img) :
    ((s.modCh c f).chan ch).pend = (s.chan ch).pend ∧ ((s.modCh c f).chan ch).img = (s.chan ch).img := by
  by_cases h : c = ch
  · subst h
    simp [State.chan_modCh_self, hpend, himg]
  · rw [State.chan_modCh_ne _ _ h]
    exact ⟨rfl, rfl⟩

theorem OnlyDie.refl (d : DieId) (s : State) : OnlyDie d s s := ⟨rfl, fun _ _ => rfl⟩

theorem OnlyDie.trans {d : DieId} {s t u : State} (h : OnlyDie d s t) (g : OnlyDie d t u) : OnlyDie d s u := by
  obtain ⟨hrest, hdies⟩ := h
  obtain ⟨grest, gdies⟩ := g
  refine ⟨?_, fun e he => (gdies e he).trans (hdies e he)⟩
  rw [grest, hrest]

theorem onlyDie_modDie (s : State) (d : DieId) (f : Die → Die) : OnlyDie d s (s.modDie d f) :=
  ⟨rfl, fun e he => State.die_modDie_ne s d e f (Ne.symm he)⟩

/-! ### Configurations (R93) -/

/-- A configuration waits on its channel, whose image stays; of other dies it changes nothing. -/
theorem queueConfig_spec (s : State) (ch : Chan) (i : ChanImg) (set : Nat) (tm : Tick) :
    OnlyDie ch.die s (s.queueConfig ch i set tm) ∧
      ((s.queueConfig ch i set tm).chan ch).pend = (s.chan ch).pend ++ [⟨tm, i, set, none⟩] ∧
      ((s.queueConfig ch i set tm).chan ch).img = (s.chan ch).img := by
  unfold State.queueConfig
  dsimp only
  have hstart : OnlyDie ch.die s (s.modCh ch fun k => { k with pend := k.pend ++ [⟨tm, i, set, none⟩] }) ∧
      ((s.modCh ch fun k => { k with pend := k.pend ++ [⟨tm, i, set, none⟩] }).chan ch).pend =
        (s.chan ch).pend ++ [⟨tm, i, set, none⟩] ∧
      ((s.modCh ch fun k => { k with pend := k.pend ++ [⟨tm, i, set, none⟩] }).chan ch).img = (s.chan ch).img :=
    ⟨onlyDie_modDie .., by simp [State.chan_modCh_self]⟩
  generalize s.modCh ch (fun k => { k with pend := k.pend ++ [⟨tm, i, set, none⟩] }) = t at hstart
  generalize bindOf ch.c i = cs
  induction cs generalizing t with
  | nil => exact hstart
  | cons c cs ih =>
    obtain ⟨hdie, hpend, himg⟩ := hstart
    rw [List.foldl_cons]
    refine ih _ ⟨hdie.trans (onlyDie_modDie ..), ?_⟩
    rw [← hpend, ← himg]
    exact chan_modCh_pend_img _ _ _ (fun _ => rfl) fun _ => rfl

/-- Carrying the charges into the pools changes ledgers alone. -/
theorem settlePools_spec (s : State) (d : DieId) :
    s.settlePools d = { s with core := (s.settlePools d).core, dies := (s.settlePools d).dies } ∧
      ∀ e, (s.settlePools d).die e = { s.die e with led := ((s.settlePools d).die e).led } := by
  refine ⟨rfl, fun e => ?_⟩
  have hled : (s.settlePools d).die e = (s.modDie d fun k => { k with led := { k.led with
      pool := k.poolNow d s.core.plan s.clk.now
      eRes := k.reservedNow d s.core.plan s.clk.now } }).die e := rfl
  rw [hled]
  by_cases hed : d = e
  · subst hed
    simp
  · rw [State.die_modDie_ne _ _ _ _ hed]

/-- An accepted configuration is admitted, waits for tm, and its charges are carried into the pools. -/
theorem configure_ok {s t : State} {ch : Chan} {i : ChanImg} {n : Nat} {tm : Tick} (h : s.configure ch i n = .ok (t, tm)) :
    tm = tenAfterTwenty s.clk.now ∧ ∃ u, OnlyRetires s u ∧ t = (u.queueConfig ch i n tm).settlePools ch.die := by
  unfold State.configure at h
  dsimp only at h
  split at h
  · exact absurd h (by simp)
  · split at h
    · exact absurd h (by simp)
    · split at h
      · exact absurd h (by simp)
      · split at h
        · exact absurd h (by simp)
        · next u hadmit =>
          obtain ⟨rfl, rfl⟩ := Prod.mk.inj (Except.ok.inj h)
          exact ⟨rfl, u, onlyRetires_of_ledgerAdmit hadmit, rfl⟩

/-- A configuration by register is turned away with its cause, or put in place. -/
theorem configWrite_cases (s : State) (p : Path) (ch : Chan) (off : Nat) (i : ChanImg) (n : Nat) :
    (s.unitLocked ch i = true → s.configWrite p ch off i n = s.rejectAt (chanPage ch) 2 p off) ∧
    (s.unitLocked ch i = false → s.cutsFsk ch i = true → s.configWrite p ch off i n = s.rejectAt (chanPage ch) 4 p off) ∧
    (s.unitLocked ch i = false → s.cutsFsk ch i = false → ∀ e, s.configure ch i n = .error e →
      s.configWrite p ch off i n = s.rejectAt (chanPage ch) e.2 p off) ∧
    (s.unitLocked ch i = false → s.cutsFsk ch i = false → ∀ t, s.configure ch i n = .ok t → s.configWrite p ch off i n = t.1) := by
  refine ⟨fun h => ?_, fun h h' => ?_, fun h h' e he => ?_, fun h h' t ht => ?_⟩
  · simp [State.configWrite, h, chanPage]
  · simp [State.configWrite, h, h', chanPage]
  · simp [State.configWrite, h, h', he, chanPage]
  · simp [State.configWrite, h, h', ht]

/-- A write that the ledger judges takes effect where its costs are admitted, and is recorded where they are not. -/
theorem admitWrite_of_ok {s t : State} {p : Path} {pg : PageRef} {off : Nat} {items : List PlanItem} {cls : Nat} {d : DieId}
    {f : State → State} (h : s.ledgerAdmit items cls s.clk.now = .ok t) :
    s.admitWrite p pg off items cls d f = (f t).settlePools d := by
  simp only [State.admitWrite, h]

theorem admitWrite_of_error {s : State} {p : Path} {pg : PageRef} {off : Nat} {items : List PlanItem} {cls : Nat} {d : DieId}
    {f : State → State} {e : ZS × Nat × Nat} (h : s.ledgerAdmit items cls s.clk.now = .error e) :
    s.admitWrite p pg off items cls d f = s.rejectAt pg 6 p off := by
  simp only [State.admitWrite, h]

/-- OUT_CFG's word: fields out of range keep the old ones (R253). -/
def outCfgWord (old w : Word) : Word :=
  let v := keepFld old (cut w 0xFF030330) 24 8 (decide (fld (cut w 0xFF030330) 24 8 ≤ 200))
  let v := keepFld old v 16 2 (fld v 16 2 != 3)
  let v := keepFld old v 8 2 (fld v 8 2 != 3)
  keepFld old v 4 2 (fld v 4 2 != 3)

/-- The charges of channel ch under an OUT_CFG of v. -/
def outCfgItems (s : State) (ch : Chan) (v : Word) : List PlanItem :=
  let tf := tenAfterTwenty s.clk.now
  let x := s.dieAt ch.die [] (tf + 1)
  x.declCosts ch.die [ch.c] x.led.vd (fun i => { i with outCfg := v }) tf

/-- OUT_CFG acts as a configuration where PAR changes, and waits for tf otherwise. -/
theorem outCfgWrite_eq (s : State) (p : Path) (ch : Chan) {w v : Word} (hv : outCfgWord (s.chan ch).want.outCfg w = v) :
    s.outCfgWrite p ch w =
      if fld v 16 2 ≠ fld (s.chan ch).want.outCfg 16 2 then
        s.configWrite p ch 0x300 { (s.chan ch).want with outCfg := v } (s.chan ch).cfgSet
      else s.admitWrite p (chanPage ch) 0x300 (outCfgItems s ch v) (Img.sclass (s.chan ch).want) ch.die fun t =>
        t.putLater ch [(0x300, v)] := by
  subst hv
  rfl

/-- Settles O8: CFG, CONV_CFG and OUT_CFG act as their rules say, and an accepted configuration is a queued one. -/
theorem configurationWrites : Obligations.ConfigurationWrites := by
  unfold Obligations.ConfigurationWrites
  refine ⟨fun s p ch w => ⟨fun c off i n hreach hc => ?_, ?_⟩, fun s ch i n t tm h => ?_⟩
  · have hexec : exec c s = .next (State.commit s ((s.configWrite p ch off i n).shadowUnit ch)) := by
      rcases hc with ⟨rfl, rfl, rfl, rfl⟩ | ⟨rfl, rfl, rfl, rfl⟩
      · exact congrArg _ (writeReg_chan hreach (by decide) w)
      · exact congrArg _ (writeReg_chan hreach (by decide) w)
    obtain ⟨hlock, hcut, herr, hok⟩ := configWrite_cases s p ch off i n
    rw [hexec]
    exact ⟨fun h => by rw [hlock h], fun h h' => by rw [hcut h h'], fun h h' e he => by rw [herr h h' e he],
      fun h h' t ht => by rw [hok h h' t ht]⟩
  · rintro c o v0 v1 v2 v3 v hc hreach rfl rfl rfl rfl rfl hv
    have hexec : exec c s = .next (State.commit s ((s.outCfgWrite p ch w).shadowUnit ch)) := by
      rcases hc with rfl | rfl
      · exact congrArg _ (writeReg_chan hreach (by decide) w)
      · exact congrArg _ (writeReg_chan hreach (by decide) w)
    rw [hexec, outCfgWrite_eq s p ch hv.symm]
    refine ⟨fun hpar => by rw [if_pos hpar], ?_⟩
    rintro hpar tf x items rfl rfl rfl
    rw [if_neg (not_not_intro hpar)]
    exact ⟨fun t ht => by rw [admitWrite_of_ok (items := outCfgItems s ch v) ht],
      fun e he => by rw [admitWrite_of_error (items := outCfgItems s ch v) he]⟩
  · obtain ⟨rfl, u, hu, rfl⟩ := configure_ok h
    obtain ⟨hmul, hlo, hhi⟩ := tenAfterTwenty_bounds s.clk.now
    obtain ⟨⟨hrest, hdies⟩, hpend, himg⟩ := queueConfig_spec u ch i n (tenAfterTwenty s.clk.now)
    obtain ⟨hrest', hled⟩ := settlePools_spec (u.queueConfig ch i n (tenAfterTwenty s.clk.now)) ch.die
    have hch (d : DieId) : (u.die d).chans = (s.die d).chans := by rw [hu.dies d]
    have hchan : u.chan ch = s.chan ch := congrArg (·[ch.c.val]) (hch ch.die)
    refine ⟨hmul, hlo, hhi, ?_, ?_, fun d hd => ?_, ?_⟩
    · rw [← State.chan_eq, hled]
      exact hpend.trans (by rw [hchan])
    · rw [← State.chan_eq, hled]
      exact himg.trans (by rw [hchan])
    · rw [hled, hdies d hd]
      exact hch d
    · rw [hrest', hrest, hu.rest]
      exact ⟨rfl, rfl, rfl, rfl⟩

end Sys2Proof
end

section
/-! Register writes of the hub pages and of the die pages (R83, R126, R137, R181, R271, R276, R335, R345, R408). -/

namespace Sys2Proof
open Machine

/-- A row that writes a register of a hub's page does what the page's rules say. -/
theorem writeReg_hub {s : State} {p : Path} {h : HubId} {r : Fin 12} {off : Nat} (hreach : Reaches s p (.hub h r) off)
    (hoff : 0x40 ≤ off) (w : Word) : s.writeReg p (.hub h r) off w = State.commit s (s.hubOp p h r off w) := by
  rw [writeReg_of_reaches hreach]
  simp only [State.regOp, State.regPut, Nat.not_lt.2 hoff, if_false]

/-- A row that writes a register of a die's own page does what the page's rules say. -/
theorem writeReg_die {s : State} {p : Path} {d : DieId} {r : Fin 23} {off : Nat} (hreach : Reaches s p (.die d r) off)
    (hoff : 0x40 ≤ off) (hown : r.val = 0 ∨ 17 ≤ r.val) (w : Word) :
    s.writeReg p (.die d r) off w = State.commit s (s.dieOp p d r off w) := by
  have hchan : ¬ (1 ≤ r.val ∧ r.val ≤ 16) := by omega
  rw [writeReg_of_reaches hreach]
  simp only [State.regOp, State.regPut, Nat.not_lt.2 hoff, if_false, hchan, and_false, dite_false]

/-! ### AXIS (R180, R181) -/

theorem axisOff_ge (a : AxisId) (r : AxisReg) : 0x40 ≤ axisOff a r := by
  cases r <;> simp only [axisOff] <;> omega

/-- The registers of an axis lie at its own place on the page. -/
theorem axisOp_axisOff (s : State) (a : AxisId) (r : AxisReg) (w : Word) : s.axisOp (axisOff a r) w = s.axisWrite a r w := by
  fin_cases a <;> cases r <;> rfl

/-- What a write that reconfigures an axis does (R181). -/
theorem axisWrite_cases (s : State) (a : AxisId) (r : AxisReg) (w : Word) {t : State}
    (ht : t = (s.modCore (·.modAxis a (·.write r w))).clearHigh a) :
    (axisIgnores r w = true → s.axisWrite a r w = s) ∧
    (axisIgnores r w = false → r ≠ .cfg ∨ t.axisPair a = none → s.axisWrite a r w = t) ∧
    (∀ ch, r = .cfg → t.axisPair a = some ch →
      s.axisWrite a r w = t.modCore (·.modAxis a fun x => { x with took := (t.chan ch).din.feedN })) := by
  subst ht
  refine ⟨fun hign => if_pos hign, fun hign hplain => ?_, ?_⟩
  · simp only [State.axisWrite, hign, Bool.false_eq_true, if_false]
    rcases hplain with hr | hpair
    · cases r
      · exact absurd rfl hr
      · rfl
      · rfl
    · simp only [hpair]
  · rintro ch rfl hpair
    have hign : axisIgnores .cfg w = false := rfl
    simp only [State.axisWrite, hign, Bool.false_eq_true, if_false, hpair]

/-! ### TIME (R40, R43, R47, R57) -/

/-- TIME.CTRL with ROLE 3 or the ROLE in force writes ACCEPT alone; another ROLE restarts the ports. -/
theorem timeCtrl_cases (s : State) (w : Word) :
    (fld w 1 2 = 3 ∨ fld w 1 2 = s.core.time.role → s.timeCtrl w = s.writeAccept (bit w 0)) ∧
    (fld w 1 2 ≠ 3 ∧ fld w 1 2 ≠ s.core.time.role → s.timeCtrl w =
      State.noteMix s (((s.writeAccept (bit w 0)).modCore fun c =>
        { c with time := { c.time with role := fld w 1 2 } }).restartPtp)) := by
  constructor
  · intro hsame
    have hrole : (if fld w 1 2 = 3 then s.core.time.role else fld w 1 2) = s.core.time.role := by
      split <;> simp_all
    simp only [State.timeCtrl, hrole, if_true]
  · rintro ⟨hthree, hrole⟩
    simp only [State.timeCtrl, hthree, hrole, if_false]

/-- The two ports' registers lie one behind the other. -/
theorem timeOp_portCfg (s : State) (port : PortId) (w : Word) : s.timeOp (0x60 + 4 * port.val) w = s.ptpCfg port w := by
  fin_cases port <;> rfl

/-! ### KEY_COMMIT (R291, R363) -/

theorem keyCommit_of_no_effect {s : State} {p : Path} {w : Word}
    (h : p = .zcs ∨ fld w 0 8 = 0 ∨ 4 ≤ (s.core.keys.filter (·.1 != fld w 0 8)).length ∨ s.takeRole true = none) :
    s.keyCommit p w = s := by
  unfold State.keyCommit
  dsimp only
  split
  · rfl
  · next hno =>
    have hrole : s.takeRole true = none := by tauto
    simp only [hrole]

theorem keyCommit_of_role {s t : State} {p : Path} {w : Word} (hpath : p ≠ .zcs) (hid : fld w 0 8 ≠ 0)
    (hroom : (s.core.keys.filter (·.1 != fld w 0 8)).length < 4) (hrole : s.takeRole true = some t) :
    let keys := (fld w 0 8, s.core.net.keyLoad.toList.flatMap fun x => leBytes 4 x.toNat) :: s.core.keys.filter (·.1 != fld w 0 8)
    s.keyCommit p w = (t.modCore fun c => { c with keys := keys }).putStore (·.storeKeys keys) := by
  have hno : ¬ (p = .zcs ∨ fld w 0 8 = 0 ∨ 4 ≤ (s.core.keys.filter (·.1 != fld w 0 8)).length) := by
    rintro (h | h | h)
    · exact hpath h
    · exact hid h
    · omega
  simp only [State.keyCommit, hno, if_false, hrole]

/-- Settles O9: each row writes one register of a hub's page, of which the write does what its rule says. -/
theorem hubRegisterWrites : Obligations.HubRegisterWrites := by
  unfold Obligations.HubRegisterWrites
  refine ⟨fun s p h w => ⟨fun hreach => ?_, fun hreach => ⟨fun hin hsrc => ?_, fun hin hsrc => ?_, fun hout => ?_⟩,
    fun a r t hreach ht => ?_, fun hreach => ?_, fun hreach => ?_, fun hreach => ?_, fun hreach => ?_, fun hreach => ?_⟩,
    fun s p h w => ⟨fun c hreach hc => ?_, fun port hreach pr dom tr hpr hdom htr => ?_, ?_⟩⟩
  · exact congrArg _ (writeReg_hub hreach (by decide) w)
  · refine congrArg _ ((writeReg_hub hreach (by decide) w).trans (congrArg _ ?_))
    exact (if_pos hin).trans (if_neg hsrc)
  · refine congrArg _ ((writeReg_hub hreach (by decide) w).trans (congrArg _ ?_))
    exact (if_pos hin).trans (if_pos hsrc)
  · refine congrArg _ ((writeReg_hub hreach (by decide) w).trans (congrArg _ ?_))
    exact if_neg (by omega)
  · have hexec : exec (.axisCfgWrite p h a r w) s = .next (State.commit s (s.axisWrite a r w)) :=
      congrArg _ ((writeReg_hub hreach (axisOff_ge a r) w).trans (congrArg _ (axisOp_axisOff s a r w)))
    obtain ⟨hign, hplain, hpair⟩ := axisWrite_cases s a r w ht
    rw [hexec]
    exact ⟨fun h => by rw [hign h], fun h h' => by rw [hplain h h'], fun ch h h' => by rw [hpair ch h h']⟩
  · exact congrArg _ (writeReg_hub hreach (by decide) w)
  · exact congrArg _ (writeReg_hub hreach (by decide) w)
  · exact congrArg _ (writeReg_hub hreach (by decide) w)
  · exact congrArg _ (writeReg_hub hreach (by decide) w)
  · exact congrArg _ (accessed_of_reaches hreach fun s => s.pwrRequest w)
  · have hexec : exec c s = .next (State.commit s (s.timeCtrl w)) := by
      rcases hc with rfl | rfl
      · exact congrArg _ (writeReg_hub hreach (by decide) w)
      · exact congrArg _ (writeReg_hub hreach (by decide) w)
    obtain ⟨hsame, hnew⟩ := timeCtrl_cases s w
    rw [hexec]
    exact ⟨fun h => by rw [hsame h]; rfl, fun h => by rw [hnew h]⟩
  · have hexec : exec (.portCfgWrite p h port w) s = .next (State.commit s (s.ptpCfg port w)) :=
      congrArg _ ((writeReg_hub hreach (by omega) w).trans (congrArg _ (timeOp_portCfg s port w)))
    subst hpr hdom htr
    rw [hexec]
    exact ⟨fun hsame => congrArg _ (congrArg _ (if_pos hsame)), fun hnew => congrArg _ (congrArg _ (if_neg hnew))⟩
  · rintro hreach id rest rfl rfl
    have hexec : exec (.keyCommitWrite p h w) s = .next (State.commit s (s.keyCommit p w)) :=
      congrArg _ (writeReg_hub hreach (by decide) w)
    rw [hexec]
    refine ⟨fun hno => by rw [keyCommit_of_no_effect hno], ?_⟩
    rintro t hpath hid hroom hrole keys rfl
    rw [keyCommit_of_role hpath hid hroom hrole]

/-! ### AUX (R136 to R138, R148 to R150) -/

/-- No element of a register array lies outside it. -/
theorem arrayIdx_of_outside {off lo n : Nat} (h : off < lo ∨ lo + 4 * n ≤ off) : arrayIdx off lo n = none := by
  have hno : ¬ (lo ≤ off ∧ (off - lo) / 4 < n ∧ off % 4 = 0) := by omega
  simp [arrayIdx, hno]

/-- Past CTRL and REF_CTRL the page AUX holds three arrays. -/
theorem auxOp_array (s : State) (d : DieId) {off : Nat} (w : Word) (hctrl : off ≠ 0x40) (href : off ≠ 0x60) :
    s.auxOp d off w =
      match arrayIdx off 0x50 4, arrayIdx off 0x100 64, arrayIdx off 0x300 32 with
      | some k, _, _ =>
        let v := keepFld ((s.die d).aux.privSh[k.val]) (cut w 0xFCFF) 10 2 (fld w 10 2 != 3)
        if slotClash (s.die d).aux.privSh k v then s
        else s.modAux d fun a => { a with privSh := a.privSh.set k.val v k.isLt }
      | none, some k, _ =>
        if (s.die d).aux.auto then s
        else s.modAux d fun a => { a with tableSh := a.tableSh.set k.val (cut w 0xFFFFFF) k.isLt }
      | none, none, some k => s.modAux d fun a => { a with injSh := a.injSh.set k.val (cut w 0xFFFFFF) k.isLt }
      | none, none, none => s := by
  unfold State.auxOp
  split
  · exact absurd rfl hctrl
  · exact absurd rfl href
  · rfl

theorem auxOp_table (s : State) (d : DieId) (i : Fin 64) (w : Word) :
    s.auxOp d (0x100 + 4 * i.val) w = if (s.die d).aux.auto then s else
      s.modDie d fun k => { k with aux := { k.aux with tableSh := k.aux.tableSh.set i.val (w &&& 0xFFFFFF#32) i.isLt } } := by
  rw [auxOp_array s d w (by omega) (by omega), arrayIdx_of_outside (by omega), arrayIdx_element 0x100 i rfl]
  rfl

theorem auxOp_priv (s : State) (d : DieId) (i : Fin 4) {w v : Word}
    (hv : v = keepFld ((s.die d).aux.privSh[i.val]) (w &&& 0xFCFF#32) 10 2 (fld w 10 2 != 3)) :
    s.auxOp d (0x50 + 4 * i.val) w = if slotClash (s.die d).aux.privSh i v then s else
      s.modDie d fun k => { k with aux := { k.aux with privSh := k.aux.privSh.set i.val v i.isLt } } := by
  subst hv
  rw [auxOp_array s d w (by omega) (by omega), arrayIdx_element 0x50 i rfl]
  rfl

theorem auxOp_inj (s : State) (d : DieId) (i : Fin 32) (w : Word) :
    s.auxOp d (0x300 + 4 * i.val) w =
      s.modDie d fun k => { k with aux := { k.aux with injSh := k.aux.injSh.set i.val (w &&& 0xFFFFFF#32) i.isLt } } := by
  rw [auxOp_array s d w (by omega) (by omega), arrayIdx_of_outside (by omega), arrayIdx_of_outside (by omega),
    arrayIdx_element 0x300 i rfl]
  rfl

/-! ### LEDGER of a die, and POLICY (R261, R271, R277) -/

/-- DECL[c] lies past the policies of the page. -/
theorem dieOp_decl (s : State) (p : Path) (d : DieId) (c : ChanId) (w : Word) :
    s.dieOp p d 21 (0x100 + 4 * c.val) w = s.declWriteCh p d c w := by
  have hoff : ¬ 0x100 + 4 * c.val = 0x74 := by omega
  change (if 0x100 + 4 * c.val = 0x74 then _ else _) = _
  rw [if_neg hoff, arrayIdx_of_outside (by omega), arrayIdx_element 0x100 c rfl]

/-- A declaration is admitted with the charges of its channel, or recorded with cause 6 (R261, R266). -/
theorem declWriteCh_eq (s : State) (p : Path) (d : DieId) (c : ChanId) (w : Word) :
    s.declWriteCh p d c w = s.admitWrite p (.die d 21) (0x100 + 4 * c.val)
      ((s.dieAt d [] (tenAfterTwenty s.clk.now + 1)).declCosts d [c] (s.dieAt d [] (tenAfterTwenty s.clk.now + 1)).led.vd
        (fun i => { i with decl := w &&& 0xCFFF1FFF#32 }) (tenAfterTwenty s.clk.now))
      (fld (w &&& 0xCFFF1FFF#32) 30 2) d (fun t => t.putLater ⟨d, c⟩ [(0xDEC, w &&& 0xCFFF1FFF#32)]) := rfl

/-- A policy that its scope takes is put in force. -/
theorem policyPut_of_fits (s : State) (sc : PolicyScope) (k : Fin 3) (x : Policy) :
    (s.policyPut sc k x).1 = none → (s.policyPut sc k x).2 = match sc with
      | .package _ => { s with core := { s.core with ledger := { s.core.ledger with
          policy := s.core.ledger.policy.set k.val x k.isLt } } }
      | .die e => s.modDie e fun y => { y with led := { y.led with policy := y.led.policy.set k.val x k.isLt } } := by
  intro h
  cases sc with
  | package hb =>
    simp only [State.policyPut] at h ⊢
    simp only [h, Option.isNone_none, if_true]
    rfl
  | die e =>
    simp only [State.policyPut] at h ⊢
    simp only [h, Option.isNone_none, if_true]

/-- The policies of a scope lie on the ledger's page of the hub or of the die. -/
theorem exec_policyWrite_of_fits {s : State} {p : Path} {sc : PolicyScope} {k : Fin 3} {w : Word}
    (hreach : Reaches s p (policyAt sc k).1 (policyAt sc k).2) (h : (s.policyPut sc k ⟨fld w 0 16, fld w 16 16⟩).1 = none) :
    exec (.policyWrite p sc k w) s = .next (State.commit s (s.policyPut sc k ⟨fld w 0 16, fld w 16 16⟩).2) := by
  have hput : s.policyRegWrite p (policyAt sc k).1 (policyAt sc k).2 sc k w = (s.policyPut sc k ⟨fld w 0 16, fld w 16 16⟩).2 := by
    simp only [State.policyRegWrite, h]
  refine congrArg _ ((writeReg_of_reaches hreach w).trans ?_)
  rw [regOp_policyAt, hput]

/-- Settles O10: each row writes one register of a die's page or a policy, of which the write does what its rule says. -/
theorem dieRegisterWrites : Obligations.DieRegisterWrites := by
  unfold Obligations.DieRegisterWrites
  intro s p d w
  refine ⟨fun i hreach => ?_, fun hreach => ?_, fun i v hreach hv => ?_, fun i j hreach => ?_, fun hreach => ?_, ?_,
    fun hreach => ?_, ?_, ?_⟩
  · exact congrArg _ ((writeReg_die hreach (by omega) (.inr (by decide)) w).trans (congrArg _ (auxOp_table s d i w)))
  · exact congrArg _ (writeReg_die hreach (by decide) (.inr (by decide)) w)
  · exact congrArg _ ((writeReg_die hreach (by omega) (.inr (by decide)) w).trans (congrArg _ (auxOp_priv s d i hv)))
  · have hplace : 0x300 + 0x20 * i.val + 4 * j.val = 0x300 + 4 * (8 * i.val + j.val) := by omega
    refine congrArg _ ((writeReg_die hreach (by omega) (.inr (by decide)) w).trans (congrArg _ ?_))
    exact (congrArg (s.auxOp d · w) hplace).trans (auxOp_inj s d ⟨8 * i.val + j.val, by omega⟩ w)
  · exact congrArg _ (writeReg_die hreach (by decide) (.inr (by decide)) w)
  · rintro hreach v rfl
    exact congrArg _ (writeReg_die hreach (by decide) (.inl rfl) w)
  · exact congrArg _ (writeReg_die hreach (by decide) (.inr (by decide)) w)
  · rintro c tf items hreach rfl rfl
    have hexec : exec (.declWrite p d (.decl c) w) s = .next (State.commit s (s.declWriteCh p d c w)) :=
      congrArg _ ((writeReg_die hreach (by omega) (.inr (by decide)) w).trans (congrArg _ (dieOp_decl s p d c w)))
    rw [hexec, declWriteCh_eq]
    exact ⟨fun t ht => by rw [admitWrite_of_ok ht], fun e he => by rw [admitWrite_of_error he]⟩
  · rintro sc k x hreach rfl
    exact ⟨fun c hc => exec_policyWrite_of_rejected hreach hc,
      fun hfits => (exec_policyWrite_of_fits hreach hfits).trans
        (congrArg (fun t => Host.Outcome.next (State.commit s t)) (policyPut_of_fits s sc k _ hfits))⟩

end Sys2Proof
end

section
/-! What raising an event leaves alone (R300, R404): of the hubs it changes page headers and a log, and of the rest nothing. -/

namespace Sys2Proof
open Machine

/-- A record that arrives at a hub's log changes the page headers and the log alone. -/
theorem hub_take_frame (x : Hub) (at_ : Option (Fin 12 × Nat)) (r : LogRec) :
    x.take at_ r = { x with hdr := (x.take at_ r).hdr, log := (x.take at_ r).log } := by
  unfold Hub.take
  split <;> rfl

/-- A hub that takes a record, and the other, keep all but their page headers and logs. -/
theorem hub_modHub_take (s : State) (h k : HubId) (at_ : Option (Fin 12 × Nat)) (r : LogRec) :
    (s.modHub h (·.take at_ r)).hub k =
      { s.hub k with hdr := ((s.modHub h (·.take at_ r)).hub k).hdr, log := ((s.modHub h (·.take at_ r)).hub k).log } := by
  by_cases hk : h = k
  · subst hk
    rw [State.hub_modHub]
    exact hub_take_frame ..
  · rw [State.hub_modHub_ne _ _ _ _ hk]

section
variable (s : State) (h k : HubId) (e : Ev) (time source : Nat) (st : Bool) (data : List Byte) (owner : Option Who)

theorem raiseNow_eq : s.raiseNow e data = s.raise s.active e s.clk.now false data := rfl

@[simp] theorem raise_variant : (s.raise h e time st data).variant = s.variant := rfl
@[simp] theorem raise_clk : (s.raise h e time st data).clk = s.clk := rfl
@[simp] theorem raise_active : (s.raise h e time st data).active = s.active := rfl
@[simp] theorem raise_core : (s.raise h e time st data).core = s.core := rfl
@[simp] theorem raise_copy : (s.raise h e time st data).copy = s.copy := rfl
@[simp] theorem raise_dies : (s.raise h e time st data).dies = s.dies := rfl
@[simp] theorem raise_sync : (s.raise h e time st data).sync = s.sync := rfl
@[simp] theorem raise_net : (s.raise h e time st data).net = s.net := rfl
@[simp] theorem raise_power : (s.raise h e time st data).power = s.power := rfl
@[simp] theorem raise_mirror : (s.raise h e time st data).mirror = s.mirror := rfl
@[simp] theorem raise_free : (s.raise h e time st data).free = s.free := rfl
@[simp] theorem raise_die (d : DieId) : (s.raise h e time st data).die d = s.die d := rfl

@[simp] theorem raiseSrc_variant : (s.raiseSrc e time source st data owner).variant = s.variant := rfl
@[simp] theorem raiseSrc_clk : (s.raiseSrc e time source st data owner).clk = s.clk := rfl
@[simp] theorem raiseSrc_active : (s.raiseSrc e time source st data owner).active = s.active := rfl
@[simp] theorem raiseSrc_core : (s.raiseSrc e time source st data owner).core = s.core := rfl
@[simp] theorem raiseSrc_copy : (s.raiseSrc e time source st data owner).copy = s.copy := rfl
@[simp] theorem raiseSrc_dies : (s.raiseSrc e time source st data owner).dies = s.dies := rfl
@[simp] theorem raiseSrc_sync : (s.raiseSrc e time source st data owner).sync = s.sync := rfl
@[simp] theorem raiseSrc_net : (s.raiseSrc e time source st data owner).net = s.net := rfl
@[simp] theorem raiseSrc_power : (s.raiseSrc e time source st data owner).power = s.power := rfl
@[simp] theorem raiseSrc_mirror : (s.raiseSrc e time source st data owner).mirror = s.mirror := rfl
@[simp] theorem raiseSrc_free : (s.raiseSrc e time source st data owner).free = s.free := rfl
@[simp] theorem raiseSrc_die (d : DieId) : (s.raiseSrc e time source st data owner).die d = s.die d := rfl

/-- Raising an event changes the page headers and the log of a hub, and nothing else of either. -/
theorem hub_raise :
    (s.raise h e time st data).hub k =
      { s.hub k with hdr := ((s.raise h e time st data).hub k).hdr, log := ((s.raise h e time st data).hub k).log } :=
  hub_modHub_take ..

theorem hub_raiseSrc :
    (s.raiseSrc e time source st data owner).hub k =
      { s.hub k with
        hdr := ((s.raiseSrc e time source st data owner).hub k).hdr
        log := ((s.raiseSrc e time source st data owner).hub k).log } :=
  hub_modHub_take ..

@[simp] theorem raise_hub_present : ((s.raise h e time st data).hub k).present = (s.hub k).present := by rw [hub_raise]
@[simp] theorem raise_hub_up : ((s.raise h e time st data).hub k).up = (s.hub k).up := by rw [hub_raise]
@[simp] theorem raise_hub_hstate : ((s.raise h e time st data).hub k).hstate = (s.hub k).hstate := by rw [hub_raise]
@[simp] theorem raise_hub_claiming : ((s.raise h e time st data).hub k).claiming = (s.hub k).claiming := by rw [hub_raise]
@[simp] theorem raise_hub_lanes : ((s.raise h e time st data).hub k).lanes = (s.hub k).lanes := by rw [hub_raise]
@[simp] theorem raise_hub_nv : ((s.raise h e time st data).hub k).nv = (s.hub k).nv := by rw [hub_raise]

@[simp] theorem raiseSrc_hub_present : ((s.raiseSrc e time source st data owner).hub k).present = (s.hub k).present := by
  rw [hub_raiseSrc]
@[simp] theorem raiseSrc_hub_up : ((s.raiseSrc e time source st data owner).hub k).up = (s.hub k).up := by rw [hub_raiseSrc]
@[simp] theorem raiseSrc_hub_hstate : ((s.raiseSrc e time source st data owner).hub k).hstate = (s.hub k).hstate := by
  rw [hub_raiseSrc]
@[simp] theorem raiseSrc_hub_claiming : ((s.raiseSrc e time source st data owner).hub k).claiming = (s.hub k).claiming := by
  rw [hub_raiseSrc]
@[simp] theorem raiseSrc_hub_lanes : ((s.raiseSrc e time source st data owner).hub k).lanes = (s.hub k).lanes := by
  rw [hub_raiseSrc]
@[simp] theorem raiseSrc_hub_nv : ((s.raiseSrc e time source st data owner).hub k).nv = (s.hub k).nv := by rw [hub_raiseSrc]

/-- The active hub, as a hub. -/
theorem act_eq_hub : s.act = s.hub s.active := rfl

@[simp] theorem raise_serving : (s.raise h e time st data).serving = s.serving := by
  simp [State.serving, State.awake, act_eq_hub]
@[simp] theorem raise_standbyReady : (s.raise h e time st data).standbyReady = s.standbyReady := by
  simp [State.standbyReady]
@[simp] theorem raise_mirroring : (s.raise h e time st data).mirroring = s.mirroring := by
  simp [State.mirroring, act_eq_hub]
@[simp] theorem raise_switching : (s.raise h e time st data).switching = s.switching := by
  simp [State.switching]
@[simp] theorem raiseSrc_serving : (s.raiseSrc e time source st data owner).serving = s.serving := by
  simp [State.serving, State.awake, act_eq_hub]
@[simp] theorem raiseSrc_mirroring : (s.raiseSrc e time source st data owner).mirroring = s.mirroring := by
  simp [State.mirroring, act_eq_hub]
@[simp] theorem raiseSrc_switching : (s.raiseSrc e time source st data owner).switching = s.switching := by
  simp [State.switching]

end

end Sys2Proof
end

section
/-! The watchdog (R310 to R322): every outcome of a write to SERVE and of `WatchdogServe`, the late violation and its actions, and the
configuration by register and by `WatchdogConfigure`. -/

namespace Sys2Proof
open Machine

/-! ### A write to SERVE (R312 to R314) -/

/-- A watchdog that does not run takes nothing. -/
theorem serveNow_of_stopped {s : State} (v : Word) (i : Nat) (h : s.core.wd.running = false) : s.serveNow v i = (s, 4) := by
  simp [State.serveNow, h]

/-- A disarmed watchdog takes every value but KEY_A as a sequence violation. -/
theorem serveNow_of_disarmed {s : State} {v : Word} (i : Nat) (hrun : s.core.wd.running = true) (harmed : s.core.wd.armed = false)
    (hv : v ≠ keyA) : s.serveNow v i = (s.wdViolate .seq i, 2) := by
  simp [State.serveNow, hrun, harmed, hv]

/-- An armed watchdog takes every value but KEY_B as a sequence violation. -/
theorem serveNow_of_armed {s : State} {v : Word} (i : Nat) (hrun : s.core.wd.running = true) (harmed : s.core.wd.armed = true)
    (hv : v ≠ keyB) : s.serveNow v i = (s.wdViolate .seq i, 2) := by
  simp [State.serveNow, hrun, harmed, hv]

/-- A value that is no key is a sequence violation, armed or not. -/
theorem serveNow_of_no_key {s : State} {v : Word} (i : Nat) (hrun : s.core.wd.running = true) (ha : v ≠ keyA) (hb : v ≠ keyB) :
    s.serveNow v i = (s.wdViolate .seq i, 2) := by
  cases harmed : s.core.wd.armed with
  | true => exact serveNow_of_armed i hrun harmed hb
  | false => exact serveNow_of_disarmed i hrun harmed ha

theorem keyA_ne_keyB : keyA ≠ keyB := by decide
theorem keyB_ne_keyA : keyB ≠ keyA := by decide

/-- In a register cycle without a late violation, due or made, any value is judged as it lands. -/
theorem serveAt_of_not_late {s : State} {v : Word} {i : Nat} (hlate : s.wdIsLate i = false)
    (hcycle : v = keyB → s.core.wd.lateAt ≠ some i) : s.serveAt v i = s.serveNow v i := by
  have hjudged : ¬ (v = keyB ∧ s.core.wd.lateAt = some i) := fun ⟨hv, ht⟩ => hcycle hv ht
  simp only [State.serveAt, wdCatchUp_of_not_late hlate, hlate, Bool.false_eq_true, false_and, or_false, hjudged, if_false]

/-- KEY_B in the register cycle of a late violation is part of it. -/
theorem serveAt_keyB_of_lateAt {s : State} {i : Nat} (hlate : s.wdIsLate i = false) (hcycle : s.core.wd.lateAt = some i) :
    s.serveAt keyB i = (s, 3) := by
  simp [State.serveAt, wdCatchUp_of_not_late hlate, hcycle]

/-- KEY_B that meets n = P in its own register cycle is part of the late violation. -/
theorem serveAt_keyB_of_due {s : State} {i : Nat} (hlate : s.wdIsLate i = true) (hdue : s.core.wd.start + s.core.wd.p * us = i) :
    s.serveAt keyB i = (s.wdViolate .late (s.core.wd.start + s.core.wd.p * us), 3) := by
  simp [State.serveAt, State.wdCatchUp, hlate, hdue]

theorem not_wdIsLate_of_stopped {s : State} (i : Nat) (h : s.core.wd.running = false) : s.wdIsLate i = false := by
  simp [State.wdIsLate, h]

/-- A stopped watchdog takes KEY_B without effect in every register cycle. -/
theorem serveAt_keyB_of_stopped {s : State} (i : Nat) (h : s.core.wd.running = false) : (s.serveAt keyB i).1 = s := by
  by_cases hcycle : s.core.wd.lateAt = some i
  · rw [serveAt_keyB_of_lateAt (not_wdIsLate_of_stopped i h) hcycle]
  · rw [serveAt_of_not_late (not_wdIsLate_of_stopped i h) fun _ => hcycle, serveNow_of_stopped _ _ h]

/-- A write to SERVE that reaches it is judged at once, and mirrored. -/
theorem exec_serve_of_reaches {s : State} {p : Path} {h : HubId} {v : Word} (hreach : Reaches s p (.hub h 5) 0x48)
    (hlate : s.wdIsLate s.clk.elapsed = false) (hcycle : v = keyB → s.core.wd.lateAt ≠ some s.clk.elapsed) :
    exec (.serveOtherValue p h v) s = .next (State.commit s (s.serveNow v s.clk.elapsed).1) := by
  have hexec : exec (.serveOtherValue p h v) s = .next (s.accessed p (.hub h 5) 0x48 fun s => (s.serve v).1) := rfl
  rw [hexec, accessed_of_reaches hreach, serve_of_not_late hlate hcycle]

/-! ### `WatchdogServe` (R391) -/

/-- A running watchdog that was not late in the cycle before is late in this one only by reaching P in it. -/
theorem due_of_late_next {s : State} {i : Nat} (hrun : s.core.wd.running = true) (hnow : s.wdIsLate i = false)
    (hnext : s.wdIsLate (i + 1) = true) : s.core.wd.start + s.core.wd.p * us = i + 1 := by
  simp only [State.wdIsLate, hrun, Bool.and_true, Bool.and_eq_true, decide_eq_true_eq] at hnext
  obtain ⟨hserve, hle⟩ := hnext
  simp only [State.wdIsLate, hrun, hserve, Bool.and_true, Bool.true_and, decide_eq_false_iff_not, not_le] at hnow
  simp only [Wdog.n, us] at hle hnow ⊢
  omega

/-- The two writes of `WatchdogServe`, and the outcome that it answers. -/
def serveTwice (s : State) : State × Nat :=
  let a := s.serve keyA
  let b := if a.1.serving then a.1.serveAt keyB (s.clk.elapsed + 1) else a
  (b.1, if a.2 = 0 then b.2 else a.2)

/-- `WatchdogServe` writes the keys and answers while the hub still serves; a locked page turns it away. -/
theorem exec_watchdogServe_of_runs {s : State} {r : Req} (hruns : Runs s r 0x0062) :
    (s.pageLocked (.hub s.active 5) = true → exec (.watchdogServe r) s = .next (replied s s r (resp 0x0062 .busy []))) ∧
    (s.pageLocked (.hub s.active 5) = false → ∀ t n, serveTwice s = (t, n) →
      (t.serving = true → exec (.watchdogServe r) s = .next (replied s t r (resp 0x0062 .ok (leBytes 1 n)))) ∧
      (t.serving = false → exec (.watchdogServe r) s = .next (State.commit s t))) := by
  have hexec : exec (.watchdogServe r) s = execWatchdogServe r s := rfl
  rw [hexec, execWatchdogServe, commandLater_of_runs hruns]
  refine ⟨fun hlock => ?_, fun hlock t n htwice => ?_⟩
  · simp only [tsoldPage, hlock, if_true]
  · obtain ⟨rfl, rfl⟩ := Prod.mk.inj htwice
    simp only [tsoldPage, hlock, Bool.false_eq_true, if_false, State.ifServing]
    exact ⟨fun hs => by simp only [hs, if_true], fun hs => by simp only [hs, Bool.false_eq_true, if_false]⟩

/-- KEY_A arms a running watchdog that is not late, and leaves everything else for KEY_B. -/
theorem serveTwice_of_disarmed {s u : State} (hlate : s.wdIsLate s.clk.elapsed = false) (hrun : s.core.wd.running = true)
    (harmed : s.core.wd.armed = false) (hserve : s.serving = true)
    (hu : u = { s with core := { s.core with wd := { s.core.wd with armed := true } } }) :
    serveTwice s = u.serveAt keyB (s.clk.elapsed + 1) := by
  have hkey : s.serve keyA = (s.modCore fun c => { c with wd := { c.wd with armed := true } }, 0) := by
    rw [serve_of_not_late hlate fun h => absurd h keyA_ne_keyB, serveNow_keyA_of_disarmed _ hrun harmed]
  have hserve' : (s.modCore fun c => { c with wd := { c.wd with armed := true } }).serving = true := hserve
  simp only [serveTwice, hkey, hserve', if_true, hu]
  rfl

/-- A stopped watchdog ignores both keys. -/
theorem serveTwice_of_stopped {s : State} (h : s.core.wd.running = false) : serveTwice s = (s, 4) := by
  have hkey : s.serve keyA = (s, 4) := by
    rw [serve_of_not_late (not_wdIsLate_of_stopped _ h) fun h => absurd h keyA_ne_keyB, serveNow_of_stopped _ _ h]
  simp only [serveTwice, hkey]
  split
  · simp [serveAt_keyB_of_stopped _ h]
  · rfl

/-- KEY_A of an armed watchdog is a violation, after which KEY_B is judged while the hub still serves. -/
theorem serveTwice_of_armed {s a : State} (hlate : s.wdIsLate s.clk.elapsed = false) (hrun : s.core.wd.running = true)
    (harmed : s.core.wd.armed = true) (ha : a = s.wdViolate .seq s.clk.elapsed) :
    serveTwice s = (if a.serving then (a.serveAt keyB (s.clk.elapsed + 1)).1 else a, 2) := by
  have hkey : s.serve keyA = (a, 2) := by
    rw [ha, serve_of_not_late hlate fun h => absurd h keyA_ne_keyB, serveNow_of_armed _ hrun harmed keyA_ne_keyB]
  simp only [serveTwice, hkey]
  split <;> rfl

/-! ### The late violation (R311, R314, R315) -/

/-- A violation is counted and noted with its instant, and starts a waived period, disarmed; the other counts stay. -/
theorem violate_late_spec (w : Wdog) (i : Nat) :
    (w.violate .late i).lateCnt = satInc w.lateCnt ∧ (w.violate .late i).lateAt = some i ∧ (w.violate .late i).waived = true ∧
      (w.violate .late i).armed = false ∧ (w.violate .late i).start = i ∧ (w.violate .late i).earlyCnt = w.earlyCnt ∧
      (w.violate .late i).seqCnt = w.seqCnt ∧ (w.violate .late i).en = w.en := by
  refine ⟨rfl, rfl, rfl, rfl, rfl, ?_⟩
  simp only [Wdog.violate, Wdog.restart]
  split <;> exact ⟨rfl, rfl, rfl⟩

/-- Where the late violation is due, it is made, with the action set for it. -/
theorem exec_watchdogLate_of_late {s : State} (h : s.wdIsLate s.clk.elapsed = true) :
    exec .watchdogLate s = .next (State.commit s
      ((({ s with core := { s.core with wd := s.core.wd.violate .late (s.core.wd.start + s.core.wd.p * us) } } : State).raiseNow
        .wdogLate []).wdAction s.core.wd.actLate)) := by
  have hexec : exec .watchdogLate s = execWatchdogLate s := rfl
  rw [hexec, execWatchdogLate, if_pos h, State.wdCatchUp, if_pos h]
  rfl

/-- The WATCHDOG request level is set for every channel of a present die, and HOST's stays. -/
theorem fieldSafe_levels (s : State) {d : DieId} (hd : (s.die d).present = true) (c : ChanId) :
    ((s.fieldSafe.core.levels[d.val])[c.val]).wdog = true ∧
      ((s.fieldSafe.core.levels[d.val])[c.val]).host = ((s.core.levels[d.val])[c.val]).host := by
  have hlevels : s.fieldSafe.core.levels[d.val] = (s.core.levels[d.val]).map fun (x : Levels) => { x with wdog := true } := by
    simp [State.fieldSafe, vmap_at, hd]
  rw [hlevels]
  simp

/-- Settles O11: each write to SERVE and each command by the state of the watchdog that it finds, and the late violation by its
action. -/
theorem watchdogService : Obligations.WatchdogService := by
  unfold Obligations.WatchdogService
  refine ⟨⟨fun s p h hreach hlate => ⟨fun hrun => ?_, fun hrun => ⟨fun harmed => ?_, fun harmed => ?_, fun hcycle => ?_,
    fun hcycle => ⟨fun harmed => ?_, fun harmed hn => ?_, fun harmed hn => ?_⟩, fun v ha hb => ?_⟩⟩, fun s r hruns => ?_⟩,
    fun s hlate w hw => ?_⟩
  · have hany (v : Word) : exec (.serveOtherValue p h v) s = .next (State.commit s s) := by
      have hexec : exec (.serveOtherValue p h v) s = .next (s.accessed p (.hub h 5) 0x48 fun s => (s.serve v).1) := rfl
      rw [hexec, accessed_of_reaches hreach]
      by_cases hv : v = keyB
      · rw [hv, State.serve, serveAt_keyB_of_stopped _ hrun]
      · rw [serve_of_not_late hlate fun h => absurd h hv, serveNow_of_stopped _ _ hrun]
    exact fun v => ⟨hany v, hany keyA, hany keyB⟩
  · rw [exec_serveKeyA_of_reaches hreach hlate, serveNow_keyA_of_disarmed _ hrun harmed]
    rfl
  · rw [exec_serveKeyA_of_reaches hreach hlate, serveNow_of_armed _ hrun harmed keyA_ne_keyB]
  · have hexec : exec (.serveKeyB p h) s = .next (s.accessed p (.hub h 5) 0x48 fun s => (s.serve keyB).1) := rfl
    rw [hexec, accessed_of_reaches hreach, State.serve, serveAt_keyB_of_lateAt hlate hcycle]
  · rw [exec_serveKeyB_of_reaches hreach hlate hcycle, serveNow_of_disarmed _ hrun harmed keyB_ne_keyA]
  · rw [exec_serveKeyB_of_reaches hreach hlate hcycle, serveNow_keyB_of_lt hrun harmed hn]
  · rw [exec_serveKeyB_of_reaches hreach hlate hcycle, serveNow_keyB_of_le hrun harmed hn]
    rfl
  · rw [exec_serve_of_reaches hreach hlate fun h => absurd h hb, serveNow_of_no_key _ hrun ha hb]
  · obtain ⟨hbusy, hdone⟩ := exec_watchdogServe_of_runs hruns
    obtain ⟨hserve, -⟩ := hruns
    refine ⟨hbusy, fun hlock hrun => (hdone hlock s 4 (serveTwice_of_stopped hrun)).1 hserve, ?_⟩
    rintro hlock hlate hcycle hrun e u rfl hu
    have hlate' (b : Bool) (h : s.wdIsLate (s.clk.elapsed + 1) = b) : u.wdIsLate (s.clk.elapsed + 1) = b := by rw [hu]; exact h
    have hcycle' : u.core.wd.lateAt ≠ some (s.clk.elapsed + 1) := by rw [hu]; exact hcycle
    have hrun' : u.core.wd.running = true := by rw [hu]; exact hrun
    have harmed' : u.core.wd.armed = true := by rw [hu]
    refine ⟨fun harmed hnext hn => ?_, fun t x hcase => ?_⟩
    · have hn' : u.core.wd.c ≤ u.core.wd.n (s.clk.elapsed + 1) := by rw [hu]; exact hn
      refine (hdone hlock _ 0 ?_).1 hserve
      rw [serveTwice_of_disarmed hlate hrun harmed hserve hu, serveAt_of_not_late (hlate' _ hnext) fun _ => hcycle',
        serveNow_keyB_of_le hrun' harmed' hn', hu]
      rfl
    · suffices htwice : ∃ n, serveTwice s = (t, n) ∧ leBytes 1 n = [x] by
        obtain ⟨n, htwice, hn⟩ := htwice
        exact hn ▸ hdone hlock t n htwice
      rcases hcase with ⟨harmed, hnext, hn, rfl, rfl⟩ | ⟨harmed, hnext, rfl, rfl⟩ | ⟨harmed, rfl, a, ha, hafter⟩
      · have hn' : u.core.wd.n (s.clk.elapsed + 1) < u.core.wd.c := by rw [hu]; exact hn
        refine ⟨1, ?_, rfl⟩
        rw [serveTwice_of_disarmed hlate hrun harmed hserve hu, serveAt_of_not_late (hlate' _ hnext) fun _ => hcycle',
          serveNow_keyB_of_lt hrun' harmed' hn']
      · have hdue := due_of_late_next hrun hlate hnext
        refine ⟨3, ?_, rfl⟩
        rw [serveTwice_of_disarmed hlate hrun harmed hserve hu, serveAt_keyB_of_due (hlate' _ hnext) (by rw [hu]; exact hdue), hu]
      · refine ⟨2, ?_, rfl⟩
        rw [serveTwice_of_armed hlate hrun harmed ha]
        rcases hafter with ⟨hstop, rfl⟩ | ⟨hgo, hrun', hlate', hcycle', harmed', rfl⟩
        · simp only [hstop, Bool.false_eq_true, if_false]
        · rw [if_pos hgo, serveAt_of_not_late hlate' fun _ => hcycle', serveNow_of_disarmed _ hrun' harmed' keyB_ne_keyA]
  · subst hw
    obtain ⟨hcnt, hat, hwaived, harmed, hstart, hearly, hseq, hen⟩ :=
      violate_late_spec s.core.wd (s.core.wd.start + s.core.wd.p * us)
    have hexec := exec_watchdogLate_of_late hlate
    refine ⟨hcnt, hat, hwaived, harmed, hstart, hearly, hseq, hen, fun hact => ?_, fun hact => ?_, ?_⟩
    · rw [hexec, hact]
      rfl
    · rw [hact] at hexec
      exact ⟨_, hexec, rfl, rfl, rfl, fun d hd c => fieldSafe_levels _ hd c⟩
    · rintro t rfl
      have hready (w : Wdog) : (({ s with core := { s.core with wd := w } } : State).raiseNow .wdogLate []).standbyReady =
          s.standbyReady := raise_standbyReady ..
      refine ⟨fun hact h => ?_, fun hact h => ?_, fun hact => ?_⟩
      · simp only [hexec, hact, State.wdAction, hready, h, if_true]
      · simp only [hexec, hact, State.wdAction, hready, h, Bool.false_eq_true, if_false]
      · rw [hexec, hact]
        rfl

/-! ### Configuration (R316, R320, R321) -/

/-- Without a code 2 in an S part every action field takes what was written (R315). -/
theorem setActions_of_code2_false {s : State} {w : Word} (h : s.wdCode2 w = false) (x : Wdog) :
    x.setActions s.variant.dual w = { x with actEarly := fld w 2 2, actLate := fld w 4 2, actSeq := fld w 6 2 } := by
  have hno : s.variant.dual = true ∨ fld w 2 2 ≠ 2 ∧ fld w 4 2 ≠ 2 ∧ fld w 6 2 ≠ 2 := by
    cases hdual : s.variant.dual <;> simp_all [State.wdCode2]
  rcases hno with hdual | ⟨hearly, hlate, hseq⟩
  · simp [Wdog.setActions, hdual]
  · simp [Wdog.setActions, hearly, hlate, hseq]

/-- The watchdog with the action fields of w, and with EN, which starts a waived period, where w sets it (R311, R320). -/
def ctrlWritten (x : Wdog) (w : Word) (now : Nat) : Wdog :=
  let y : Wdog := { x with actEarly := fld w 2 2, actLate := fld w 4 2, actSeq := fld w 6 2 }
  if x.en = false ∧ bit w 0 = true then { y.restart now true with en := true } else y

/-- The watchdog with the PERIOD of w, at once while EN is 0 and at the next period otherwise (R316). -/
def periodWritten (x : Wdog) (w : Word) : Wdog :=
  if x.en = true then { x with pend := some (fld w 0 24, fld w 24 8) } else { x with p := fld w 0 24, close := fld w 24 8 }

/-- A CTRL write in time, without a code 2 in an S part, takes effect where configuration is accepted. -/
theorem tsoldCtrl_of_accepts {s : State} {w : Word} (hserve : s.serving = true) (hlate : s.wdIsLate s.clk.elapsed = false)
    (hcode : s.wdCode2 w = false) (hacc : s.wdAccepts = true) :
    s.tsoldCtrl w = ({ s with core := { s.core with wd := ctrlWritten s.core.wd w s.clk.elapsed } }, true) := by
  simp only [State.tsoldCtrl, wdCatchUp_of_not_late hlate, hserve, Bool.not_true, Bool.false_eq_true, if_false, hacc, if_true,
    setActions_of_code2_false hcode, Bool.and_eq_true, Bool.not_eq_true', ctrlWritten]
  rfl

/-- A write of CTRL or PERIOD in time is rejected where configuration is not accepted. -/
theorem tsoldCtrl_of_rejects {s : State} (w : Word) (hserve : s.serving = true) (hlate : s.wdIsLate s.clk.elapsed = false)
    (hacc : s.wdAccepts = false) : s.tsoldCtrl w = (s.wdReject, false) := by
  simp only [State.tsoldCtrl, wdCatchUp_of_not_late hlate, hserve, Bool.not_true, Bool.false_eq_true, if_false, hacc]

theorem tsoldPeriod_of_accepts {s : State} (w : Word) (hserve : s.serving = true) (hlate : s.wdIsLate s.clk.elapsed = false)
    (hacc : s.wdAccepts = true) :
    s.tsoldPeriod w = ({ s with core := { s.core with wd := periodWritten s.core.wd w } }, true) := by
  simp only [State.tsoldPeriod, wdCatchUp_of_not_late hlate, hserve, Bool.not_true, Bool.false_eq_true, if_false, hacc, if_true,
    Bool.not_eq_true', periodWritten]
  by_cases hen : s.core.wd.en = true
  · rw [if_neg (by simp [hen]), if_pos hen]
    rfl
  · rw [if_pos (by simpa using hen), if_neg hen]
    rfl

/-- Configuration is accepted while EN is 0. -/
theorem en_of_rejects {s : State} (hacc : s.wdAccepts = false) : s.core.wd.en = true := by
  cases hen : s.core.wd.en <;> simp_all [State.wdAccepts]

theorem tsoldPeriod_of_rejects {s : State} (w : Word) (hserve : s.serving = true) (hlate : s.wdIsLate s.clk.elapsed = false)
    (hacc : s.wdAccepts = false) : s.tsoldPeriod w = (s.wdReject, false) := by
  simp only [State.tsoldPeriod, wdCatchUp_of_not_late hlate, hserve, Bool.not_true, Bool.false_eq_true, if_false, hacc,
    en_of_rejects hacc]

/-- CTRL written by register, without a code 2 in an S part. -/
theorem tsoldCtrlWrite_of_code2_false {s : State} {p : Path} {w : Word} (hcode : s.wdCode2 w = false) :
    s.tsoldCtrlWrite p w = (s.tsoldCtrl w).1 := by
  simp [State.tsoldCtrlWrite, hcode]

/-- The rows of CTRL and PERIOD do what their registers' rules say, and are mirrored. -/
theorem exec_tsoldCtrl_of_reaches {s : State} {p : Path} {h : HubId} {w : Word} {c : Instr}
    (hc : c = .tsoldEnSet p h w ∨ c = .tsoldActionWrite p h w) (hreach : Reaches s p (.hub h 5) 0x40)
    (hcode : s.wdCode2 w = false) : exec c s = .next (State.commit s (s.tsoldCtrl w).1) := by
  rw [← tsoldCtrlWrite_of_code2_false (p := p) hcode]
  rcases hc with rfl | rfl
  · exact congrArg _ (accessed_of_reaches hreach fun s => s.tsoldCtrlWrite p w)
  · exact congrArg _ (accessed_of_reaches hreach fun s => s.tsoldCtrlWrite p w)

theorem exec_tsoldPeriod_of_reaches {s : State} {p : Path} {h : HubId} (w : Word) (hreach : Reaches s p (.hub h 5) 0x44) :
    exec (.tsoldPeriodWrite p h w) s = .next (State.commit s (s.tsoldPeriodWrite p w)) :=
  congrArg _ (accessed_of_reaches hreach fun s => s.tsoldPeriodWrite p w)

/-- After a write of PERIOD the watchdog is late, and takes configuration, just as before. -/
theorem periodWritten_keeps {s u : State} {w : Word} (hu : u = { s with core := { s.core with wd := periodWritten s.core.wd w } })
    (hlate : s.wdIsLate s.clk.elapsed = false) (hacc : s.wdAccepts = true) :
    u.wdIsLate u.clk.elapsed = false ∧ u.wdAccepts = true := by
  subst hu
  cases hen : s.core.wd.en with
  | false => simp [State.wdIsLate, State.wdAccepts, Wdog.running, periodWritten, hen]
  | true =>
    have hsame : periodWritten s.core.wd w = { s.core.wd with pend := some (fld w 0 24, fld w 24 8) } := if_pos hen
    rw [hsame]
    exact ⟨hlate, hacc⟩

/-- After a rejected write the watchdog stands as before, and the hub serves. -/
theorem wdReject_keeps (s : State) :
    s.wdReject.serving = s.serving ∧ s.wdReject.wdIsLate s.wdReject.clk.elapsed = s.wdIsLate s.clk.elapsed ∧
      s.wdReject.wdAccepts = s.wdAccepts := by
  have hserve : s.wdReject.serving = s.serving := by simp only [State.wdReject, raiseNow_eq, raise_serving]; rfl
  refine ⟨hserve, ?_, rfl⟩
  simp only [State.wdIsLate, hserve]
  rfl

/-- What `WatchdogConfigure` writes of PERIOD, then of CTRL, each with whether it was taken. -/
def configured (s : State) (wp wc : Bool) (period ctrl : Word) : State × Bool × Bool :=
  let a := if wp then s.tsoldPeriod period else (s, true)
  let b := if wc then a.1.tsoldCtrl ctrl else (a.1, true)
  (b.1, a.2, b.2)

/-- `WatchdogConfigure` answers a bad value unread, and else which of the two it wrote. -/
theorem exec_watchdogConfigure_of_runs {s : State} {r : Req} {period ctrl : Word} {which : Byte} (hruns : Runs s r 0x0061)
    (hlock : s.pageLocked (.hub s.active 5) = false) :
    ((which.getLsbD 0 = true ∧ wdPeriodOk period = false) ∨ (which.getLsbD 1 = true ∧ s.wdCode2 ctrl = true) →
      exec (.watchdogConfigure r period ctrl which) s = .next (replied s s r (resp 0x0061 .badArg []))) ∧
    ((which.getLsbD 0 = true → wdPeriodOk period = true) → (which.getLsbD 1 = true → s.wdCode2 ctrl = false) →
      ∀ t a b, configured s (which.getLsbD 0) (which.getLsbD 1) period ctrl = (t, a, b) → t.serving = true →
      exec (.watchdogConfigure r period ctrl which) s = .next (replied s t r (resp 0x0061 (if a && b then .ok else .busy)
        (leBytes 1 (putBit (which.getLsbD 0 && a) 0 + putBit (which.getLsbD 1 && b) 1))))) := by
  have hexec : exec (.watchdogConfigure r period ctrl which) s = execWatchdogConfigure r period ctrl which s := rfl
  rw [hexec, execWatchdogConfigure, commandLater_of_runs hruns]
  simp only [tsoldPage, hlock, Bool.false_eq_true, if_false]
  refine ⟨fun hbad => ?_, fun hper hctrl t a b hconf hserve => ?_⟩
  · have hbad' : ((which.getLsbD 0 && !wdPeriodOk period) || (which.getLsbD 1 && s.wdCode2 ctrl)) = true := by
      rcases hbad with ⟨h, h'⟩ | ⟨h, h'⟩ <;> simp [h, h']
    simp only [hbad', if_true]
  · have hok : ((which.getLsbD 0 && !wdPeriodOk period) || (which.getLsbD 1 && s.wdCode2 ctrl)) = false := by
      rw [Bool.or_eq_false_iff]
      constructor
      · cases h : which.getLsbD 0 <;> simp_all
      · cases h : which.getLsbD 1 <;> simp_all
    obtain ⟨rfl, hab⟩ := Prod.mk.inj hconf
    obtain ⟨rfl, rfl⟩ := Prod.mk.inj hab
    simp only [hok, Bool.false_eq_true, if_false, State.ifServing]
    exact congrArg Host.Outcome.next (congrArg (State.commit s) (by
      have hs : ((if which.getLsbD 1 then (if which.getLsbD 0 then s.tsoldPeriod period else (s, true)).1.tsoldCtrl ctrl
          else ((if which.getLsbD 0 then s.tsoldPeriod period else (s, true)).1, true)).1).serving = true := hserve
      simp only [hs, if_true]))

theorem periodWritten_en (x : Wdog) (w : Word) : (periodWritten x w).en = x.en := by
  unfold periodWritten
  split <;> rfl

/-- What the two writes come to where configuration is accepted. -/
theorem configured_of_accepts {s : State} {period ctrl : Word} (hserve : s.serving = true)
    (hlate : s.wdIsLate s.clk.elapsed = false) (hacc : s.wdAccepts = true) :
    configured s true false period ctrl =
      ({ s with core := { s.core with wd := periodWritten s.core.wd period } }, true, true) ∧
    (s.wdCode2 ctrl = false →
      configured s false true period ctrl =
        ({ s with core := { s.core with wd := ctrlWritten s.core.wd ctrl s.clk.elapsed } }, true, true) ∧
      configured s true true period ctrl =
        ({ s with core := { s.core with wd := ctrlWritten (periodWritten s.core.wd period) ctrl s.clk.elapsed } }, true, true)) := by
  have hper := tsoldPeriod_of_accepts period hserve hlate hacc
  obtain ⟨hlate', hacc'⟩ := periodWritten_keeps (w := period) rfl hlate hacc
  refine ⟨by simp [configured, hper], fun hcode => ⟨?_, ?_⟩⟩
  · simp [configured, tsoldCtrl_of_accepts hserve hlate hcode hacc]
  · have hctrl := tsoldCtrl_of_accepts (s := { s with core := { s.core with wd := periodWritten s.core.wd period } }) hserve hlate'
      hcode hacc'
    simp [configured, hper, hctrl]

/-- A command that answers x answers what x is. -/
theorem exec_replied_congr {c : Instr} {s t : State} {r : Req} {x y : Response} (h : exec c s = .next (replied s t r x))
    (hxy : x = y) : exec c s = .next (replied s t r y) := hxy ▸ h

/-- What the two writes come to where configuration is not accepted. -/
theorem configured_of_rejects {s : State} {period ctrl : Word} (hserve : s.serving = true)
    (hlate : s.wdIsLate s.clk.elapsed = false) (hacc : s.wdAccepts = false) :
    configured s true false period ctrl = (s.wdReject, false, true) ∧
      configured s false true period ctrl = (s.wdReject, true, false) ∧
      configured s true true period ctrl = (s.wdReject.wdReject, false, false) := by
  obtain ⟨hserve', hlate', hacc'⟩ := wdReject_keeps s
  have hagain := tsoldCtrl_of_rejects ctrl (hserve'.trans hserve) (hlate'.trans hlate) (hacc'.trans hacc)
  refine ⟨?_, ?_, ?_⟩
  · simp [configured, tsoldPeriod_of_rejects period hserve hlate hacc]
  · simp [configured, tsoldCtrl_of_rejects ctrl hserve hlate hacc]
  · simp [configured, tsoldPeriod_of_rejects period hserve hlate hacc, hagain]

/-- Settles O12: by where a write of CTRL and of PERIOD is accepted, and by which of the two the command wrote. -/
theorem watchdogConfiguration : Obligations.WatchdogConfiguration := by
  unfold Obligations.WatchdogConfiguration
  refine ⟨fun s p h w hserve hlate => ⟨?_, fun hreach => ⟨fun hbad => ?_, fun hok hen => ?_, fun hok hen hacc => ?_,
    fun hok hen hacc => ?_⟩⟩, ?_⟩
  · rintro hreach hcode c hc x rfl
    rw [exec_tsoldCtrl_of_reaches hc hreach hcode]
    refine ⟨fun hen hbit => ?_, fun hen hbit => ?_, fun hen hacc => ?_, fun hacc => ?_⟩
    · rw [tsoldCtrl_of_accepts hserve hlate hcode (by simp [State.wdAccepts, hen]), ctrlWritten, if_neg (by simp [hbit])]
    · rw [tsoldCtrl_of_accepts hserve hlate hcode (by simp [State.wdAccepts, hen]), ctrlWritten, if_pos ⟨hen, hbit⟩]
    · rw [tsoldCtrl_of_accepts hserve hlate hcode hacc, ctrlWritten, if_neg (by simp [hen])]
    · rw [tsoldCtrl_of_rejects w hserve hlate hacc]
      rfl
  · rw [exec_tsoldPeriod_of_reaches w hreach, State.tsoldPeriodWrite, if_neg (by simpa using hbad)]
    rfl
  · rw [exec_tsoldPeriod_of_reaches w hreach, State.tsoldPeriodWrite, if_pos hok,
      tsoldPeriod_of_accepts w hserve hlate (by simp [State.wdAccepts, hen]), periodWritten, if_neg (by simp [hen])]
  · rw [exec_tsoldPeriod_of_reaches w hreach, State.tsoldPeriodWrite, if_pos hok, tsoldPeriod_of_accepts w hserve hlate hacc,
      periodWritten, if_pos hen]
  · rw [exec_tsoldPeriod_of_reaches w hreach, State.tsoldPeriodWrite, if_pos hok, tsoldPeriod_of_rejects w hserve hlate hacc]
    rfl
  · rintro s r period ctrl which hruns hlock hlate wp wc rfl rfl cmd rfl
    obtain ⟨hbad, hdone⟩ := exec_watchdogConfigure_of_runs (period := period) (ctrl := ctrl) (which := which) hruns hlock
    obtain ⟨hserve, -⟩ := hruns
    refine ⟨hbad, fun hper hctrl per act rej hperIs hactIs hrejIs => ?_⟩
    have hgo := hdone hper hctrl
    have hrej : rej s = s.wdReject := hrejIs s
    have hperS : per s = { s with core := { s.core with wd := periodWritten s.core.wd period } } := hperIs s
    have hact (u : State) (hen : u.core.wd.en = s.core.wd.en) :
        act u = { u with core := { u.core with wd := ctrlWritten u.core.wd ctrl s.clk.elapsed } } := by
      rw [hactIs u _ rfl, ctrlWritten, ← hen]
    refine ⟨fun hwp hwc => ?_, fun hacc => ⟨fun hwp hwc => ?_, fun hwp hwc => ?_, fun hwp hwc => ?_⟩, fun hacc => ?_⟩
    · rw [hwp, hwc] at hgo
      exact exec_replied_congr (hgo s true true rfl hserve) rfl
    · obtain ⟨hconf, -⟩ := configured_of_accepts (period := period) (ctrl := ctrl) hserve hlate hacc
      rw [hwp, hwc] at hgo
      rw [hperS]
      exact exec_replied_congr (hgo _ _ _ hconf hserve) rfl
    · obtain ⟨-, hconf⟩ := configured_of_accepts (period := period) (ctrl := ctrl) hserve hlate hacc
      rw [hwp, hwc] at hgo
      rw [hact s rfl]
      exact exec_replied_congr (hgo _ _ _ (hconf (hctrl hwc)).1 hserve) rfl
    · obtain ⟨-, hconf⟩ := configured_of_accepts (period := period) (ctrl := ctrl) hserve hlate hacc
      rw [hwp, hwc] at hgo
      rw [hact (per s) (by rw [hperS]; exact periodWritten_en ..), hperS]
      exact exec_replied_congr (hgo _ _ _ (hconf (hctrl hwc)).2 hserve) rfl
    · obtain ⟨hperOnly, hctrlOnly, hboth⟩ := configured_of_rejects (period := period) (ctrl := ctrl) hserve hlate hacc
      obtain ⟨hserve', -, -⟩ := wdReject_keeps s
      obtain ⟨hserve'', -, -⟩ := wdReject_keeps s.wdReject
      refine ⟨fun hne => ?_, fun hwp hwc => ?_⟩
      · rw [hrej]
        cases hwp : which.getLsbD 0 <;> cases hwc : which.getLsbD 1
        case false.false => exact absurd (hwp.trans hwc.symm) hne
        case false.true =>
          rw [hwp, hwc] at hgo
          exact exec_replied_congr (hgo _ _ _ hctrlOnly (hserve'.trans hserve)) rfl
        case true.false =>
          rw [hwp, hwc] at hgo
          exact exec_replied_congr (hgo _ _ _ hperOnly (hserve'.trans hserve)) rfl
        case true.true => exact absurd (hwp.trans hwc.symm) hne
      · rw [hwp, hwc] at hgo
        rw [hrejIs (rej s), hrej]
        exact exec_replied_congr (hgo _ _ _ hboth (hserve''.trans (hserve'.trans hserve))) rfl

end Sys2Proof
end

section
/-! Commands of sessions: how each is turned away, `Identify`, registers, and channels (R14, R295, R382 to R384, R392). -/

namespace Sys2Proof
open Machine

/-! ### Turned away (R14, R295, R392) -/

/-- Each command of a session runs as one whose response leaves at once, or may come later. -/
theorem exec_of_commandOf {c : Instr} {r : Req} {cmd : Nat} (h : commandOf c = some (r, cmd)) (s : State) :
    (∃ f, exec c s = .next (s.command r cmd f)) ∨ ∃ f, exec c s = .next (s.commandLater r cmd f) := by
  cases c <;> cases h
  case regWrite | scheduleCancelByTag | scheduleCancelByRange | calibrateSystemZero | calibrateSystemSpan | powerStateRequest |
      watchdogConfigure | watchdogServe | hubSwitchover => exact .inr ⟨_, rfl⟩
  all_goals exact .inl ⟨_, rfl⟩

/-- While no hub serves a command does nothing; turned away, it is answered with the status, and that is all. -/
theorem command_of_turnedAway {s : State} {r : Req} {cmd : Nat} (f : State → State × Response) :
    (s.serving = false → s.command r cmd f = s) ∧
    ∀ z, s.serving = true → s.turnedAway r cmd = some z → s.command r cmd f = replied s s r (s.turnAway cmd z) :=
  ⟨fun h => by simp [State.command, h], fun z h h' => by simp [State.command, h, h']⟩

theorem commandLater_of_turnedAway {s : State} {r : Req} {cmd : Nat} (f : State → State × Option Response) :
    (s.serving = false → s.commandLater r cmd f = s) ∧
    ∀ z, s.serving = true → s.turnedAway r cmd = some z → s.commandLater r cmd f = replied s s r (s.turnAway cmd z) :=
  ⟨fun h => by simp [State.commandLater, h], fun z h h' => by simp [State.commandLater, h, h']⟩

theorem exec_of_turnedAway {c : Instr} {s : State} {r : Req} {cmd : Nat} (h : commandOf c = some (r, cmd)) :
    (s.serving = false → exec c s = .next s) ∧
    ∀ z, s.serving = true → s.turnedAway r cmd = some z → exec c s = .next (replied s s r (s.turnAway cmd z)) := by
  obtain ⟨f, hexec⟩ | ⟨f, hexec⟩ := exec_of_commandOf h s
  · obtain ⟨hno, haway⟩ := command_of_turnedAway (s := s) (r := r) (cmd := cmd) f
    exact ⟨fun hs => by rw [hexec, hno hs], fun z hs hz => by rw [hexec, haway z hs hz]⟩
  · obtain ⟨hno, haway⟩ := commandLater_of_turnedAway (s := s) (r := r) (cmd := cmd) f
    exact ⟨fun hs => by rw [hexec, hno hs], fun z hs hz => by rw [hexec, haway z hs hz]⟩

/-- Settles O13: every command of a session goes through one of two gates, which turn it away alike. -/
theorem commandsTurnedAway : Obligations.CommandsTurnedAway := by
  unfold Obligations.CommandsTurnedAway
  intro c s r cmd hc
  obtain ⟨hno, haway⟩ := exec_of_turnedAway (s := s) hc
  refine ⟨hno, fun hs hsw => haway _ hs ?_, fun hs hsw hv2 hallow => haway _ hs ?_, fun z => ?_⟩
  · simp [State.turnedAway, hsw]
  · simp [State.turnedAway, hsw, hv2, hallow]
  · unfold State.turnAway
    split <;> rfl

/-! ### Reads leave all but headers and counts alone (R25, R30) -/

/-- At most page headers, the dies' counts of foreign requests and the free counter differ. -/
structure OnlyReads (s t : State) : Prop where
  rest : t = { s with hubs := t.hubs, dies := t.dies, free := t.free }
  hubs : ∀ h, t.hub h = { s.hub h with hdr := (t.hub h).hdr }
  dies : ∀ d, t.die d = { s.die d with hdr := (t.die d).hdr, foreignDisc := (t.die d).foreignDisc }

theorem OnlyReads.refl (s : State) : OnlyReads s s := ⟨rfl, fun _ => rfl, fun _ => rfl⟩

theorem OnlyReads.trans {s t u : State} (h : OnlyReads s t) (g : OnlyReads t u) : OnlyReads s u := by
  refine ⟨?_, fun x => ?_, fun d => ?_⟩
  · rw [g.rest, h.rest]
  · rw [g.hubs x, h.hubs x]
  · rw [g.dies d, h.dies d]

theorem onlyReads_modHdr (s : State) (pg : PageRef) (f : PageHdr → PageHdr) : OnlyReads s (s.modHdr pg f) := by
  cases pg with
  | hub h r =>
    refine ⟨rfl, fun k => ?_, fun _ => rfl⟩
    by_cases hk : h = k
    · subst hk
      simp [State.modHdr, Hub.modHdr]
    · simp [State.modHdr, State.hub_modHub_ne _ _ _ _ hk]
  | die d r =>
    refine ⟨rfl, fun _ => rfl, fun e => ?_⟩
    by_cases he : d = e
    · subst he
      simp [State.modHdr, Die.modHdr]
    · simp [State.modHdr, State.die_modDie_ne _ _ _ _ he]

theorem onlyReads_readReg (s : State) (pg : PageRef) (off : Nat) : OnlyReads s (s.readReg pg off).1 := by
  unfold State.readReg
  dsimp only
  split
  · exact .refl s
  · exact onlyReads_modHdr ..

theorem onlyReads_unheard (s : State) (pg : PageRef) : OnlyReads s (s.unheard pg) := by
  unfold State.unheard
  split
  · exact .refl s
  · next d r =>
    split
    · refine ⟨rfl, fun _ => rfl, fun e => ?_⟩
      by_cases he : d = e
      · subst he
        simp [Die.foreign]
      · simp [State.die_modDie_ne _ _ _ _ he]
    · exact .refl s

theorem onlyReads_readAddr (s : State) (addr : Nat) : OnlyReads s (s.readAddr addr).1 := by
  unfold State.readAddr
  split
  · split
    · exact .refl s
    · split
      · exact onlyReads_readReg ..
      · exact (onlyReads_unheard ..).trans ⟨rfl, fun _ => rfl, fun _ => rfl⟩
  · exact .refl s

theorem onlyReads_readRun (s : State) (l : List Nat) : OnlyReads s (s.readRun l).1 := by
  induction l generalizing s with
  | nil => exact .refl s
  | cons a l ih => exact (onlyReads_readAddr s a).trans (ih _)

/-! ### `Identify` and registers (R382, R383) -/

theorem orderCode_length (s : State) : s.orderCode.length = 12 := rfl

theorem leBytes_length (n v : Nat) : (leBytes n v).length = n := by
  induction n generalizing v with
  | zero => rfl
  | succ n ih => simp [leBytes, ih]

theorem flatMap_leBytes_length {α : Type} (n : Nat) (f : α → Nat) (l : List α) :
    (l.flatMap fun x => leBytes n (f x)).length = n * l.length := by
  simp [List.length_flatMap, leBytes_length, Nat.mul_comm]

/-- What `Identify` says, behind the order code: its octets 12 to 14 come one by one (R382). -/
theorem identityBody_spec (s : State) :
    s.identityBody.length = 44 ∧ s.identityBody.take 12 = s.orderCode ∧
      s.identityBody[14]? = some (BitVec.ofNat 8 s.active.val) := by
  refine ⟨?_, ?_, ?_⟩
  · simp only [State.identityBody, List.length_append, orderCode_length, leBytes_length, flatMap_leBytes_length,
      List.length_finRange, State.revOctets]
    rw [show (leBytes 1) = fun x => leBytes 1 x from rfl, flatMap_leBytes_length 1 fun x => x]
    simp
  · simp [State.identityBody, List.take_append, orderCode_length]
  · simp [State.identityBody, State.orderCode, leBytes]

theorem runOf_length (addr n : Nat) : (runOf addr n).length = n := by
  simp [runOf]

/-- The path of a session's writes, as a match on the session. -/
theorem pathOf_eq (w : Who) : pathOf w = match w with | .udp .. => .zcs | .spi => .tunnel := by
  cases w <;> rfl

/-- Settles O14: by what each command does once it runs; a read changes headers and counts alone. -/
theorem identityAndRegisterCommands : Obligations.IdentityAndRegisterCommands := by
  unfold Obligations.IdentityAndRegisterCommands
  refine ⟨fun s r hruns => ⟨congrArg _ (command_of_runs hruns _), identityBody_spec s⟩, fun s r addr n hruns => ?_,
    fun s r addr ws hruns => ?_⟩
  · have hexec : exec (.regRead r addr n) s = execRegRead r addr n s := rfl
    rw [hexec, execRegRead, command_of_runs hruns]
    refine ⟨fun hbad => by simp only [hbad, Bool.false_eq_true, if_false], fun hok x hx => ?_⟩
    obtain ⟨hrest, hhubs, hdies⟩ := onlyReads_readRun s (runOf addr.toNat n.toNat)
    subst hx
    refine ⟨by simp only [hok, if_true], ?_, ?_, ?_, ?_, ?_, fun d => ?_, fun h => ?_⟩
    · rw [readRun_length, runOf_length]
    · rw [hrest]
    · rw [hrest]
    · rw [hrest]
    · rw [hrest]
    · rw [hdies d]
      exact ⟨rfl, rfl, rfl⟩
    · rw [hhubs h]
  · have hexec : exec (.regWrite r addr ws) s = execRegWrite r addr ws s := rfl
    rw [hexec, execRegWrite, commandLater_of_runs hruns]
    refine ⟨fun hbad => ?_, fun hok hlock => ?_, ?_⟩
    · simp only [hbad, Bool.not_false, if_true]
    · simp only [hok, hlock, Bool.not_true, Bool.false_eq_true, if_false, if_true]
    · rintro hok hlock l t off rfl ht rfl
      have hrun : s.writeRun (pathOf r.who) ((runOf addr.toNat ws.length).zip ws) = t := by rw [ht, pathOf_eq]; rfl
      simp only [hok, hlock, Bool.not_true, Bool.false_eq_true, if_false, hrun, State.ifServing]
      exact ⟨fun h => by simp only [h, if_true], fun h => by simp only [h, Bool.false_eq_true, if_false]⟩

end Sys2Proof
end

section
namespace Sys2Proof
open Machine

/-! ### Channels (R74, R93, R109, R384) -/

/-- Settles O15: each refusal in the order in which the command checks it, then what an accepted one does. -/
theorem channelCommands : Obligations.ChannelCommands := by
  unfold Obligations.ChannelCommands
  refine ⟨fun s r ch set flags a hruns => ?_, fun s r ch set hruns => ?_, fun s r ch hruns => ?_, fun s r sc resume hruns => ?_⟩
  · have hexec : exec (.channelConfigure r ch set flags a) s = execChannelConfigure r ch set flags a s := rfl
    rw [hexec, execChannelConfigure, command_of_runs hruns]
    refine ⟨?_, fun c hc hflags => ?_⟩
    · rintro (hch | hflags)
      · rw [hch]
      · have hno : ¬flags.toNat ≤ 1 := by omega
        cases s.chanOf ch.toNat <;> simp only [hno, if_false]
    · simp only [hc, hflags, if_true, State.configureCmd]
      refine ⟨fun hbad => ?_, fun him h1 h2 hnew hfull => ?_, fun him h1 h2 happly hroom => ?_, fun him h2 happly hroom => ?_⟩
      · rw [if_pos hbad]
      · have hok : ¬(s.imageOk r.who c a = false ∨ 4095 < set.toNat ∨ set.toNat = 0 ∧ flags.getLsbD 0 = false) := by
          rw [him]; simp; omega
        rw [if_neg hok, if_pos ⟨by omega, hnew, hfull⟩]
      · have hok : ¬(s.imageOk r.who c a = false ∨ 4095 < set.toNat ∨ set.toNat = 0 ∧ flags.getLsbD 0 = false) := by
          rw [him]; simp; omega
        have hfits : ¬(set.toNat ≠ 0 ∧ (s.core.sets.any fun x => x.1 == set.toNat) = false ∧ 1024 ≤ s.core.sets.length) := by
          rintro ⟨-, hnew, hfull⟩
          rcases hroom with hold | hroom
          · rw [hnew] at hold; cases hold
          · omega
        have hset : set.toNat ≠ 0 := by omega
        rw [if_neg hok, if_neg hfits]
        simp only [happly, Bool.false_eq_true, if_false, State.modCore, Core.storeSet, hset]
      · have hok : ¬(s.imageOk r.who c a = false ∨ 4095 < set.toNat ∨ set.toNat = 0 ∧ flags.getLsbD 0 = false) := by
          rw [him, happly]; simp; omega
        have hfits : ¬(set.toNat ≠ 0 ∧ (s.core.sets.any fun x => x.1 == set.toNat) = false ∧ 1024 ≤ s.core.sets.length) := by
          rintro ⟨hset, hnew, hfull⟩
          rcases hroom with h0 | hold | hroom
          · exact hset h0
          · rw [hnew] at hold; cases hold
          · omega
        rw [if_neg hok, if_neg hfits]
        simp only [happly, if_true]
        refine ⟨fun hlock => ?_, fun hlock e he => ?_, fun hlock t tm ht => ?_⟩
        · simp only [hlock, if_true]
        · simp only [hlock, he, Bool.false_eq_true, if_false]
        · simp only [hlock, ht, Bool.false_eq_true, if_false]
  · have hexec : exec (.channelEnable r ch set) s = execChannelEnable r ch set s := rfl
    rw [hexec, execChannelEnable, command_of_runs hruns]
    refine ⟨?_, fun c x hc hx hlock => ?_, fun c x hc hx hlock => ⟨fun e he => ?_, fun t tm ht => ?_⟩⟩
    · rintro (hch | hset)
      · rw [hch]
      · rw [hset]
        cases s.chanOf ch.toNat <;> rfl
    · simp only [hc, hx, hlock, if_true]
    · simp only [hc, hx, hlock, he, Bool.false_eq_true, if_false]
    · simp only [hc, hx, hlock, ht, Bool.false_eq_true, if_false]
  · have hexec : exec (.channelDisable r ch) s = execChannelDisable r ch s := rfl
    rw [hexec, execChannelDisable, command_of_runs hruns]
    refine ⟨fun hch => by rw [hch], fun c hc hlock => ?_, fun c hc hlock hent => ?_, fun c z hc hlock hent hbar => ?_,
      fun c hc hlock hent hbar td htd => ?_⟩
    · simp only [hc, hlock, if_true]
    · simp only [hc, hlock, hent, if_true, Bool.false_eq_true, if_false]
    · simp only [hc, hlock, hent, hbar, Bool.false_eq_true, if_false]
    · subst htd
      refine ⟨s.planDisable c (tenAfterTwenty s.clk.now), ?_, rfl, ?_, rfl, rfl, rfl⟩
      · simp only [hc, hlock, hent, hbar, Bool.false_eq_true, if_false]
      · obtain ⟨-, hled⟩ := settlePools_spec (s.modCore fun k => { k with
          disables := k.disables ++ [(c, tenAfterTwenty s.clk.now)]
          plan := k.plan ++ ((s.die c.die).unit c.c).map fun x =>
            ⟨c.die, Img.sclass ((s.die c.die).chan x).img, none, .standing (tenAfterTwenty s.clk.now) x 0 0⟩ }) c.die
        rw [State.planDisable, ← State.chan_eq, hled]
        rfl
  · have hexec : exec (.faultClear r sc resume) s = execFaultClear r sc resume s := rfl
    rw [hexec, execFaultClear, command_of_runs hruns]
    refine ⟨?_, ?_⟩
    · rintro (hsc | hres)
      · rw [hsc]
      · cases s.named sc <;> simp only [hres, if_true]
    · rintro cs hcs hres t rfl
      have hno : ¬1 < resume.toNat := by omega
      simp only [hcs, hno, if_false]

/-! ### Cancellations (R75, R385) -/

/-- Settles O17: a cancellation only joins those that wait. -/
theorem cancelCommands : Obligations.CancelCommands := by
  unfold Obligations.CancelCommands
  refine ⟨fun s r tags hruns => ?_, fun s r ch lo hi hruns => ?_⟩
  · have hexec : exec (.scheduleCancelByTag r tags) s = execScheduleCancelByTag r tags s := rfl
    rw [hexec, execScheduleCancelByTag, commandLater_of_runs hruns]
    refine ⟨fun hno => ?_, ?_⟩
    · simp only [hno, if_false]
    · rintro hlen es rfl
      simp only [hlen, and_self, if_true]
      rfl
  · have hexec : exec (.scheduleCancelByRange r ch lo hi) s = execScheduleCancelByRange r ch lo hi s := rfl
    rw [hexec, execScheduleCancelByRange, commandLater_of_runs hruns]
    exact ⟨fun hch => by rw [hch], fun c hc => by rw [hc]; rfl⟩

/-! ### Results and streams (R80, R360, R366, R385) -/

/-- Settles O18: the response and the delivery of the words fetched; the places and the bandwidth of a stream. -/
theorem resultAndStreamCommands : Obligations.ResultAndStreamCommands := by
  unfold Obligations.ResultAndStreamCommands
  refine ⟨fun s r w hruns => ?_, fun s r p hruns => ?_, fun s r n hruns => ?_⟩
  · have hexec : exec (.resultFetch r w) s = execResultFetch r w s := rfl
    rw [hexec, execResultFetch, command_of_runs hruns]
    refine ⟨fun hno => ?_, fun hw hnone => ?_, ?_⟩
    · simp only [hno, if_false]
    · simp only [hw, and_self, if_true, hnone]
    · rintro hw x hx m rfl last rfl c rfl
      simp only [hw, and_self, if_true, hx]
      rfl
  · have hexec : exec (.streamOpen r p) s = execStreamOpen r p s := rfl
    rw [hexec, execStreamOpen, command_of_runs hruns]
    refine ⟨fun hno => ?_, ?_⟩
    · simp only [hno, Bool.false_eq_true, if_false]
    · rintro hok x l rfl rfl
      simp only [hok, if_true]
      refine ⟨fun hbusy => ?_, fun hfree hfits => ?_⟩
      · rw [if_pos]
        rcases hbusy with h | ⟨q, hon, hbw⟩
        · rw [h, Bool.true_or]
        · rw [Bool.or_eq_true, Bool.not_eq_true', List.all_eq_false]
          exact .inr ⟨q, List.mem_finRange q, by rw [hon, hbw]; simp⟩
      · rw [if_neg]
        · rfl
        · rw [hfree, Bool.false_or, Bool.not_eq_true', Bool.not_eq_false, List.all_eq_true]
          intro q _
          cases hon : (streamOf p r.who).onPort q with
          | false => rfl
          | true => rw [hfits q hon]; rfl
  · have hexec : exec (.streamClose r n) s = execStreamClose r n s := rfl
    rw [hexec, execStreamClose, command_of_runs hruns]
    refine ⟨fun hno => ?_, fun hopen => ?_⟩
    · simp only [hno, Bool.false_eq_true, if_false]
    · simp only [hopen, if_true]
      rfl

end Sys2Proof
end

section
namespace Sys2Proof
open Machine

/-! ### The ledger (R271, R391) -/

/-- A package in Run whose lanes have trained, with die 0 leased to hub 1, which is not the active hub. -/
def dieOfOtherHub : State :=
  let s := State.reset.startUp ⟨false, true, false⟩ false
  let t : State := { s with
    power := { s.power with boot := .complete, st := .run }
    hubs := s.hubs.map fun h => { h with lanes := h.lanes.map (·.trainedAt 2) } }
  t.modDie 0 fun d => { d with holder := some 1 }
/-- A request of the SPI session. -/
def spiRequest : Req := ⟨.spi, 1#32, 1#8⟩
/-- No floor and the largest ceiling for class 1 of die 0. -/
def openPolicy : PolicyP := ⟨1#8, 0#8, 1#8, 0#16, 0xFFFF#16⟩

/-- The ledger page of die 0 is powered and unlocked, and the policy is within its bounds; but the die is leased to the other hub. -/
theorem dieOfOtherHub_facts :
    Runs dieOfOtherHub spiRequest 0x0051 ∧ dieOfOtherHub.policyScope openPolicy = some (.die 0, .die 0 21) ∧
      dieOfOtherHub.pageLocked (.die 0 21) = false ∧ dieOfOtherHub.locOn (.die 0 21) 0x40 = true ∧
      (dieOfOtherHub.policyPut (.die 0) 0 ⟨0, 0xFFFF⟩).1 = none ∧ dieOfOtherHub.barred 0 = some .busy := by
  decide +kernel

/-- `LedgerPolicySet` for a die that the active hub does not command answers with what bars it (R13, R21). -/
theorem exec_ledgerPolicySet_of_barred {s : State} {r : Req} {g : PolicyP} {sc : PolicyScope} {pg : PageRef} {z : ZS}
    (hruns : Runs s r 0x0051) (hscope : s.policyScope g = some (sc, pg)) (hcls : 1 ≤ g.cls.toNat ∧ g.cls.toNat ≤ 3)
    (hlock : s.pageLocked pg = false) (hbar : s.policyBar sc = some z) :
    exec (.ledgerPolicySet r g) s = .next (replied s s r (resp 0x0051 z [])) := by
  have hexec : exec (.ledgerPolicySet r g) s = execLedgerPolicySet r g s := rfl
  rw [hexec, execLedgerPolicySet, command_of_runs hruns]
  simp only [hscope, hcls, hlock, hbar, and_self, dite_true, Bool.false_eq_true, if_false]

/-- An answer over SPI leaves by the tunnel at once where the hub mirrors nothing. -/
theorem replied_spi_tunnel (s u : State) {r : Req} (x : Response) (hwho : r.who = .spi) (hu : u.mirroring = false) :
    (replied s u r x).core.spi.tunnel.getLast?.map OutMsg.body = some (respBody x) := by
  obtain ⟨who, seq, key⟩ := r
  obtain rfl : who = .spi := hwho
  have hm : (u.modCore (·.answered .spi seq.toNat x)).mirroring = false := hu
  simp only [replied, State.respond, hm, Bool.false_eq_true, if_false]
  have hlast := emit_last s (u.modCore (·.answered .spi seq.toNat x)) (u.message .spi 2 seq.toNat key.toNat false (respBody x))
  exact congrArg (Option.map OutMsg.body) hlast

/-- Refutes O20: a powered location does not say that the active hub holds the die's lease. `LedgerPolicySet` for a die leased to the
other hub answers ZS_BUSY, where the statement asks for ZS_OK. -/
theorem not_ledgerCommands : ¬ Obligations.LedgerCommands := by
  unfold Obligations.LedgerCommands
  intro h
  obtain ⟨hruns, hscope, hlock, hon, hput, hbar⟩ := dieOfOtherHub_facts
  obtain ⟨-, hset⟩ := h dieOfOtherHub spiRequest
  obtain ⟨-, hpolicy⟩ := hset hruns openPolicy
  obtain ⟨-, hput'⟩ := hpolicy _ 0 hscope rfl
  obtain ⟨hok, -⟩ := hput' hlock hon _ rfl
  have hbusy := exec_ledgerPolicySet_of_barred hruns hscope (by decide) hlock hbar
  rw [hok hput] at hbusy
  have hsame := congrArg (·.core.spi.tunnel.getLast?.map OutMsg.body) (Host.Outcome.next.inj hbusy)
  have hbody : some (respBody (resp 0x0051 .ok [])) = some (respBody (resp 0x0051 .busy [])) := by
    rw [← replied_spi_tunnel dieOfOtherHub (dieOfOtherHub.policyPut (.die 0) 0 ⟨0, 0xFFFF⟩).2 _ (r := spiRequest) rfl (by decide +kernel),
      ← replied_spi_tunnel dieOfOtherHub dieOfOtherHub _ (r := spiRequest) rfl (by decide +kernel)]
    exact hsame
  exact absurd hbody (by decide)

/-! ### The log, redundancy, audits and keys (R31, R295, R304, R364) -/

/-- Settles O21: the refusals of each command in its order of checks, then its answer with what it leaves behind. -/
theorem logRedundancyAndKeyCommands : Obligations.LogRedundancyAndKeyCommands := by
  unfold Obligations.LogRedundancyAndKeyCommands
  refine ⟨fun s r src hub n seq hruns => ?_, fun s r conf hruns => ?_, fun s r hruns => ?_, fun s r hruns => ?_,
    fun s r id g nonce stored hruns cmd hcmd => ?_⟩
  · have hexec : exec (.eventLogRead r src hub n seq) s = execEventLogRead r src hub n seq s := rfl
    rw [hexec, execEventLogRead, command_of_runs hruns]
    refine ⟨fun hno => by simp only [hno, dite_false], fun h hh hsrc h1 h44 hdual => ?_⟩
    have hin : hub.toNat < 2 ∧ src.toNat < 2 ∧ 1 ≤ n.toNat ∧ n.toNat ≤ 44 := ⟨by omega, hsrc, h1, h44⟩
    have hid : (⟨hub.toNat, hin.1⟩ : HubId) = h := Fin.ext hh
    have hpart : ¬(1 ≤ hub.toNat ∧ s.variant.dual = false) := by
      rintro ⟨hge, hs⟩
      rcases hdual with h0 | hd
      · rw [h0] at hh
        simp at hh
        omega
      · rw [hs] at hd; cases hd
    simp only [hin, dite_true, hpart, if_false, hid, and_self]
    refine ⟨fun hp hup hreach => ?_, fun hout => ?_⟩
    · rw [if_neg]
      · rfl
      · rcases hreach with ha | hst
        · simp [← ha, hp, hup]
        · simp [hp, hup, hst]
    · rw [if_pos]
      rcases hout with hp | hup | ⟨ha, hst⟩
      · simp [hp]
      · simp [hup]
      · simp [ha, hst]
  · have hexec (conf : BitVec 16) : exec (.returnPrepare r conf) s = execReturnPrepare r conf s := rfl
    simp only [hexec, execReturnPrepare, command_of_runs hruns]
    exact ⟨fun hno => by simp only [hno, if_false], rfl⟩
  · have hexec : exec (.hubSwitchover r) s = execHubSwitchover r s := rfl
    rw [hexec, execHubSwitchover, commandLater_of_runs hruns]
    refine ⟨fun hs => by simp only [hs, if_true], fun hd hn => by simp only [hd, hn, Bool.true_eq_false, Bool.false_eq_true, if_false], ?_⟩
    intro hready
    have hdual : s.variant.dual = true := by
      simp only [State.standbyReady, Bool.and_eq_true] at hready
      exact hready.1.1.1
    have hidle : s.switching = false := by
      obtain ⟨-, haway⟩ := hruns
      by_contra hsw
      simp only [State.turnedAway, Bool.eq_true_of_not_eq_false hsw, if_true, reduceCtorEq] at haway
    refine ⟨by simp only [hdual, hready, Bool.true_eq_false, if_false, if_true], ?_⟩
    simp only [State.startSwitchover, hready, hidle, Bool.not_false, Bool.and_self, if_true, State.hub_modHub]
  · exact congrArg _ (command_of_runs hruns _)
  · subst hcmd
    have hexec : exec (.keyRotate r id g nonce stored) s = execKeyRotate r id g nonce stored s := rfl
    rw [hexec, execKeyRotate, command_of_runs hruns]
    refine ⟨fun hbad => ?_, fun k hk hid hnew hg hg' hlen => ⟨fun hbusy => ?_, fun t hgr hroom hrole => ⟨fun hst => ?_, ?_⟩⟩⟩
    · rcases hbad with hno | hbad
      · rw [hno]
      · cases assoc s.core.keys r.keyId.toNat <;> simp only [hbad, if_true]
    all_goals
      have hgood : ¬(id = 0#8 ∨ (assoc s.core.keys id.toNat).isSome = true ∨ g = 0#16 ∨ 3600 < g.toNat ∨ nonce.length ≠ 16) := by
        rw [hnew]
        simp [hid, hg, hg', hlen]
      simp only [hk, hgood, if_false]
    · by_cases hfull : s.core.grace.isSome = true ∨ 4 ≤ s.core.keys.length
      · rw [if_pos hfull]
      · have hrole : s.takeRole true = none := by tauto
        rw [if_neg hfull, hrole]
    all_goals
      have hfree : ¬(s.core.grace.isSome = true ∨ 4 ≤ s.core.keys.length) := by
        rw [hgr]
        simpa using hroom
      rw [if_neg hfree, hrole]
    · simp only [hst, Bool.false_eq_true, if_false]
    · rintro hst keys rfl
      simp only [hst, if_true]

/-! ### Time and the auxiliary sequencer (R40, R46, R137, R138, R390) -/

/-- Settles O22: TimeStatus by its operation and the session's version, and the two loads by their checks. -/
theorem timeAndAuxCommands : Obligations.TimeAndAuxCommands := by
  unfold Obligations.TimeAndAuxCommands
  refine ⟨fun s r hruns => ?_, fun s r d es hruns => ?_, fun s r d k priv es hruns => ?_⟩
  · have hload (t : Dword) : exec (.timeStatusLoad r t) s = execTimeStatusLoad r t s := rfl
    have hacc (v : Byte) : exec (.timeStatusWriteAccept r v) s = execTimeStatusWriteAccept r v s := rfl
    simp only [hload, hacc, execTimeStatusLoad, execTimeStatusWriteAccept, command_of_runs hruns]
    refine ⟨congrArg _ (command_of_runs hruns _), fun h2 => ?_, fun h3 => ?_⟩
    · simp only [h2, if_true, implies_true, and_self]
    · simp only [h3, Bool.false_eq_true, if_false]
      refine ⟨?_, fun t hno => ?_, fun v hlock => ?_, fun v hlock hv => ?_, ?_⟩
      · rintro t hst hstep u rfl
        rw [if_pos ⟨hst, hstep⟩]
      · have hcan : ¬(s.sync.st = .unlocked ∧ s.sync.step = none) := fun ⟨h1, h2⟩ => hno.elim (· h1) (· h2)
        rw [if_neg hcan]
      · simp only [hlock, if_true]
      · have hno : ¬v.toNat ≤ 1 := by omega
        simp only [hlock, hno, Bool.false_eq_true, if_false]
      · rintro v hlock hv u rfl
        simp only [hlock, hv, Bool.false_eq_true, if_false, if_true]
        rfl
  · have hexec : exec (.auxSequenceLoadTable r d es) s = execAuxSequenceLoadTable r d es s := rfl
    rw [hexec, execAuxSequenceLoadTable, command_of_runs hruns]
    refine ⟨fun hbad => by rw [if_pos hbad], fun h1 h64 hall => ?_⟩
    have hgood : ¬(es.length = 0 ∨ 64 < es.length ∨ es.all entryOk = false) := by
      rintro (h | h | h)
      · omega
      · omega
      · rw [hall] at h; cases h
    rw [if_neg hgood]
    refine ⟨fun z hz => by rw [hz], fun k hk hauto => ?_, fun k hk hauto => ?_⟩
    · simp only [hk, hauto, if_true]
    · simp only [hk, hauto, Bool.false_eq_true, if_false]
      rfl
  · have hexec : exec (.auxSequenceLoadSlot r d k priv es) s = execAuxSequenceLoadSlot r d k priv es s := rfl
    rw [hexec, execAuxSequenceLoadSlot, command_of_runs hruns]
    refine ⟨?_, fun i hi h1 h8 hall htrig hpriv => ?_⟩
    · rintro (hk | hbad)
      · have hno : ¬k.toNat < 4 := by omega
        simp only [hno, dite_false]
      · by_cases hk : k.toNat < 4
        · simp only [hk, dite_true]
          have hbad' : es.length = 0 ∨ 8 < es.length ∨ es.all entryOk = false ∨ fld priv 10 2 = 3 ∨ priv ≠ cut priv 0xFCFF := hbad
          rw [if_pos hbad']
        · simp only [hk, dite_false]
    · have hk : k.toNat < 4 := by omega
      have hid : (⟨k.toNat, hk⟩ : Fin 4) = i := Fin.ext hi
      have hgood : ¬(es.length = 0 ∨ 8 < es.length ∨ es.all entryOk = false ∨ fld priv 10 2 = 3 ∨ priv ≠ cut priv 0xFCFF) := by
        rintro (h | h | h | h | h)
        · omega
        · omega
        · rw [hall] at h; cases h
        · exact htrig h
        · exact h hpriv
      simp only [hk, dite_true]
      rw [if_neg hgood]
      refine ⟨fun z hz => by rw [hz], fun x hx hclash => ?_, fun x hx hclash => ?_⟩
      · simp only [hx, hid, hclash, if_true]
      · simp only [hx, hclash, Bool.false_eq_true, if_false, hi]
        rfl

end Sys2Proof
end

section
namespace Sys2Proof
open Machine

/-! ### Admission of an entry that stands alone (R63, R66) -/

/-- Costs that no policy turns away and for which every credit is there are planned, with no pre-emption (R266). -/
theorem ledgerAdmit_of_fits {s : State} {items : List PlanItem} {cls now : Nat} (below : Nat)
    (h : items = [] ∨ s.policyOk s.core.plan items cls now = true ∧ s.creditShort s.core.plan items cls now = none) :
    s.ledgerAdmit items cls now below = .ok (s.modCore fun c => { c with plan := c.plan ++ items }) := by
  unfold State.ledgerAdmit
  rcases h with rfl | ⟨hpol, hcred⟩
  · simp [State.modCore]
  · by_cases hi : items = []
    · subst hi
      simp [State.modCore]
    · simp [hi, hpol, hcred]

/-- An entry alone in its unit takes all the octets of the command. -/
theorem dealOctets_single {e : SchedEntry} {oct : List Byte} (h : SchedEntry.octetCount e = oct.length) :
    dealOctets [e] oct = [(e, oct)] := by
  simp [dealOctets, h]

/-- A unit of one entry that passes its checks is admitted, counted in flight, and its die's pools take up its costs. -/
theorem admitUnit_single {s s1 : State} {who : Who} {v2 : Bool} {e : SchedEntry} {oct : List Byte} {ch : Chan}
    (hadmits : s.core.sched.admits = true)
    (hentry : s.admitEntry who v2 s.core.nextId (s.unitOf [(e, oct)]) e oct = .ok s1) (hch : s1.chanOf e.channel.toNat = some ch) :
    s.admitUnit who v2 [(e, oct)] = .ok
      ((s1.modCore fun c => { c with sched := { c.sched with inFlight := c.sched.inFlight + 1 } }).settlePools ch.die) := by
  have hunit : (s1.unitOf [(e, oct)]).map (·.1.die) = [ch.die] := by
    simp [State.unitOf, hch]
  simp only [State.admitUnit, State.admitFrom, hadmits, hentry, Bool.not_true, Bool.false_eq_true, if_false]
  rw [hunit]
  rfl

/-- Settles O16: an entry passes the twelve checks one by one; a unit is judged as a whole by `admitUnit`. -/
theorem scheduleCommands : Obligations.ScheduleCommands := by
  unfold Obligations.ScheduleCommands
  refine ⟨?_, fun s r es oct hruns => ?_⟩
  · rintro s r e oct ch img hruns hadmits hoct hch hset hfields hdest hmode hlead d lock words p items rfl rfl rfl rfl rfl
      hver hon hent htime hslots hv2 hwords hplan hcosts t rfl
    have hexec : exec (.scheduleSubmit r [e] oct) s = execScheduleSubmit r [e] oct s := rfl
    have hunit : s.unitOf [(e, oct)] = [(ch, e, img)] := by
      simp [State.unitOf, hch, hset]
    have hrest : ([(ch, e, img)] : List (Chan × SchedEntry × Option ChanImg)).filter (fun x => x.2.1 != e) = [] := by simp
    have hlate : ¬e.time.toNat < s.clk.now + s.core.sched.minLead * us := Nat.not_lt.2 hlead
    have hbusy : ¬(s.core.slots.free = 0 ∨ (s.isV2 r.who = true ∧ 4096 ≤ s.core.entries.countP fun x => x.ver2 && decide (x.owner = r.who))) := by
      rintro (h | ⟨h, hmany⟩)
      · exact hslots h
      · have := hv2 h
        omega
    have htime' : (!s.usable && !SchedEntry.freeRun e) = false := by
      rcases htime with h | h <;> simp [h]
    have hadmit := ledgerAdmit_of_fits s.core.nextId hcosts
    have hentry : s.admitEntry r.who (s.isV2 r.who) s.core.nextId (s.unitOf [(e, oct)]) e oct = .ok (s.modCore fun c => { c with
        plan := c.plan ++ (s.dieAt ch.die [] e.time.toNat).entryCosts ch.die ch.c e img s.core.nextId
        slots := c.slots.reserve 1
        store := c.store.reserve (recordWords e ((s.dieAt ch.die [] e.time.toNat).chan ch.c).img)
        entries := c.entries ++ [⟨s.core.nextId, e, oct, ch, r.who, s.isV2 r.who, .admitted, 0, none, none,
          recordWords e ((s.dieAt ch.die [] e.time.toNat).chan ch.c).img, 0, img,
          (s.dieAt ch.die [] e.time.toNat).lanePlan ch.c e s.core.mains.period s.clk.now (s.pwmAhead ch e.time.toNat)⟩]
        records := (if recordWords e ((s.dieAt ch.die [] e.time.toNat).chan ch.c).img = 0 then c.records else
          c.records ++ [newRecord s.core.nextId e ((s.dieAt ch.die [] e.time.toNat).chan ch.c).img
            (recordWords e ((s.dieAt ch.die [] e.time.toNat).chan ch.c).img)])
        nextId := s.core.nextId + 1 }) := by
      rw [hunit]
      simp only [State.admitEntry, hch, hset, hrest, hfields, hdest, hmode, hlate, hver, hon, hent, htime', hbusy, Nat.not_lt.2 hwords,
        hplan, hadmit, Bool.not_true, Bool.or_self, Bool.false_eq_true, if_false]
      rfl
    have hlen : 1 ≤ ([e] : List SchedEntry).length ∧ ([e] : List SchedEntry).length ≤ 64 ∧
        (([e] : List SchedEntry).map SchedEntry.octetCount).sum = oct.length := ⟨by simp, by simp, by simpa using hoct⟩
    rw [hexec, execScheduleSubmit, command_of_runs hruns, if_pos hlen, dealOctets_single hoct, State.submit,
      admitUnit_single hadmits hentry hch]
    rfl
  · have hexec : exec (.scheduleSubmit r es oct) s = execScheduleSubmit r es oct s := rfl
    rw [hexec, execScheduleSubmit, command_of_runs hruns]
    refine ⟨fun hbad => by rw [if_neg hbad], fun hlen => ?_⟩
    rw [if_pos hlen]
    refine ⟨fun s1 hs1 => ?_, ?_⟩
    · simp only [State.submit, hs1]
      rfl
    · rintro i st reason check herr u n tag rfl rfl rfl
      simp only [State.submit, herr]
      refine ⟨fun h7 hany hroom => ?_, fun h7 hany hroom => ?_, fun hno => ?_⟩
      · simp only [h7, hany, hroom, decide_true, Bool.and_self, if_true]
        rfl
      · have hfull : ¬s.core.sched.deferred + (dealOctets es oct).length ≤ 1024 := by omega
        simp only [h7, hany, hfull, decide_true, Bool.and_self, if_true, if_false]
        rfl
      · have hcant : ¬(decide (7 ≤ check) && (dealOctets es oct).any fun p => SchedEntry.deferOk p.1) = true := by
          rcases hno with h | h
          · have hlt : ¬7 ≤ check := by omega
            simp [hlt]
          · simp [h]
        rw [if_neg hcant]
        rfl

end Sys2Proof
end

section
namespace Sys2Proof
open Machine

/-! ### Two changes of a die or a channel that agree where they are made -/

theorem vmod_congr {α : Type} {n : Nat} (v : Vector α n) (i : Fin n) {f g : α → α} (h : f v[i.val] = g v[i.val]) :
    vmod v i f = vmod v i g := by
  refine Vector.ext fun j hj => ?_
  rw [vmod_at, vmod_at]
  split
  · next hij =>
    subst hij
    exact h
  · rfl

theorem modDie_congr (s : State) (d : DieId) {f g : Die → Die} (h : f (s.die d) = g (s.die d)) : s.modDie d f = s.modDie d g :=
  congrArg (fun v => { s with dies := v }) (vmod_congr s.dies d h)

theorem Die.modCh_congr (d : Die) (c : ChanId) {f g : Channel → Channel} (h : f (d.chan c) = g (d.chan c)) :
    d.modCh c f = d.modCh c g := by
  have hv : vmod d.chans c (fun k => k.settle ((f k).held d.allOff) d.replica) =
      vmod d.chans c fun k => k.settle ((g k).held d.allOff) d.replica :=
    vmod_congr _ _ (congrArg (fun k : Channel => (d.chan c).settle (k.held d.allOff) d.replica) h)
  simp only [Die.modCh, hv]

theorem modCh_congr (s : State) (ch : Chan) {f g : Channel → Channel} (h : f (s.chan ch) = g (s.chan ch)) :
    s.modCh ch f = s.modCh ch g :=
  modDie_congr s ch.die (Die.modCh_congr (s.die ch.die) ch.c h)

/-! ### The end of a calibration point (R197, R198) -/

/-- The window of a point that ends leaves the corrections to come as they are. -/
theorem chan_endPoint_next (d : Die) (di : DieId) (c : ChanId) (tp : Tick) :
    ((d.endPoint di c tp).chan c).cal.next = (d.chan c).cal.next := by
  have hserve (l : List ChanId) (x : Die) (hx : (x.chan c).cal.next = (d.chan c).cal.next) :
      ((l.foldl (fun x m => if (d.chan m).cal.server = 0 then x else x.serveUntil di m (tp + 100 * ms)) x).chan c).cal.next =
        (d.chan c).cal.next := by
    induction l generalizing x with
    | nil => exact hx
    | cons m l ih =>
      refine ih _ ?_
      dsimp only
      split
      · exact hx
      · by_cases hm : m = c
        · subst hm
          simpa [Die.serveUntil] using hx
        · rw [Die.serveUntil, Die.chan_modCh_ne _ _ _ _ hm]
          exact hx
  simp only [Die.endPoint, Die.chan_modCh, Channel.settle_cal, Channel.held_cal]
  exact hserve _ d rfl

/-- A decimator reset to come, of which a second one at its instant makes none (R172). -/
theorem addReset_eq (s : State) (n src : Nat) :
    s.addReset n src = { s with core := { s.core with
      resets := if (s.core.resets.any fun x => x.1 == n) = true then s.core.resets else s.core.resets ++ [(n, src)] } } := by
  simp only [State.addReset, State.modCore]
  split <;> rfl

/-- Settles O19: the refusals and the effect of each command, and what the end of a point and the instant of a correction change. -/
theorem calibrationCommands : Obligations.CalibrationCommands := by
  unfold Obligations.CalibrationCommands
  refine ⟨⟨?_, ?_, fun s r sc rb hruns => ?_⟩, fun s ch => ⟨?_, ?_, ?_⟩⟩
  · rintro s r tr hruns n rfl
    have hexec : exec (.filterSync r tr) s = execFilterSync r tr s := rfl
    rw [hexec, execFilterSync, command_of_runs hruns]
    refine ⟨?_, fun hbad => by rw [if_neg hbad]⟩
    rintro hok l rfl
    rw [if_pos hok]
    exact congrArg (fun t => Host.Outcome.next (replied s t r _)) (addReset_eq s _ 1)
  · rintro s r p span hruns cmd rfl
    have hexec : exec (if span then .calibrateSystemSpan r p else .calibrateSystemZero r p) s =
        .next (s.commandLater r 0x0041 fun s => s.startPoint r span p) := by
      cases span <;> rfl
    rw [hexec, commandLater_of_runs hruns]
    refine ⟨fun hch => ?_, fun c hc => ⟨fun z hz => ?_, fun hbar hcal => ?_, fun hbar hcal hbusy => ?_, fun hbar hcal hpt hsus => ?_⟩⟩
    · simp only [State.startPoint, hch]
    · simp only [State.startPoint, hc, hz]
    · simp only [State.startPoint, hc, hbar, hcal, Bool.not_false, if_true]
    · have hbusy' : ((s.chan c).cal.point.isSome || (s.die c.die).aux.suspect) = true := by
        rw [Bool.or_eq_true]
        exact hbusy
      simp only [State.startPoint, hc, hbar, hcal, hbusy', Bool.not_true, Bool.false_eq_true, if_false, if_true]
    · simp only [State.startPoint, hc, hbar, hcal, hpt, hsus, Option.isSome_none, Bool.or_self, Bool.not_true, Bool.false_eq_true,
        if_false]
  · have hstore : exec (.calibrationCommitStore r sc rb) s = execCalibrationCommitStore r sc rb s := rfl
    have hident : exec (.calibrationCommitIdentity r sc rb) s = execCalibrationCommitIdentity r sc rb s := rfl
    have hback : exec (.calibrationCommitRevert r sc) s = execCalibrationCommitRevert r sc s := rfl
    rw [hstore, hident, hback, execCalibrationCommitStore, execCalibrationCommitIdentity, execCalibrationCommitRevert,
      command_of_runs hruns, command_of_runs hruns, command_of_runs hruns]
    simp only [State.commitStored]
    refine ⟨fun hsc => ?_, fun cs hcs => ⟨fun z hz => ?_, fun hbar => ⟨fun t ht => ⟨fun hrb hboth => ?_, fun hfail => ?_⟩,
      fun t ht => ⟨fun hrb hboth => ?_, fun hfail => ?_⟩, ?_⟩⟩⟩
    · simp only [hsc, and_self]
    · simp only [hcs, hz, and_self]
    · subst hrb
      simp only [hcs, hbar, ht, hboth, Bool.and_self, if_true]
    · have hno : (rb && s.bothStores) = false := by rcases hfail with h | h <;> simp [h]
      simp only [hcs, hbar, ht, hno, Bool.false_eq_true, if_false]
    · subst hrb
      simp only [hcs, hbar, ht, hboth, Bool.and_self, if_true]
    · have hno : (rb && s.bothStores) = false := by rcases hfail with h | h <;> simp [h]
      simp only [hcs, hbar, ht, hno, Bool.false_eq_true, if_false]
    · simp only [hcs, hbar]
  · rintro open' l p hp hpast m j n rfl rfl rfl
    have hexec : exec (.calPointEnd ch open' l) s = execCalPointEnd ch open' l s := rfl
    rw [hexec, execCalPointEnd, hp]
    simp only [hpast, if_true]
    refine congrArg (fun t => Host.Outcome.next (replied s t p.req _)) (modCh_congr _ ch ?_)
    have hnext : ((s.modDie ch.die (·.endPoint ch.die ch.c p.tp)).chan ch).cal.next = (s.chan ch).cal.next := by
      rw [← State.chan_eq, State.die_modDie, chan_endPoint_next]
      rfl
    simp only [hnext]
  · intro open' l p hp hpast
    have hexec : exec (.calPointEnd ch open' l) s = execCalPointEnd ch open' l s := rfl
    rw [hexec, execCalPointEnd, hp]
    simp only [hpast, Bool.false_eq_true, if_false]
  · intro t o g u hnext hpast
    refine congrArg Host.Outcome.next (modDie_congr s ch.die ?_)
    have hnext' : ((s.die ch.die).chan ch.c).cal.next = some (t, o, g, u) := hnext
    simp only [hnext', hpast, if_true]
    rfl

end Sys2Proof
end

section
namespace Sys2Proof
open Machine

/-! ### Power requests (R328, R329, R337, R391) -/

/-- A package that a serving hub commands is in Run. -/
theorem awake_of_serving {s : State} (h : s.serving = true) : s.awake = true := by
  simp only [State.serving, Bool.and_eq_true] at h
  exact h.1.2

/-- Settles O23: the request by its target and scope, in the order of its checks. -/
theorem powerRequests : Obligations.PowerRequests := by
  unfold Obligations.PowerRequests
  refine ⟨fun s p h w hreach hout => ?_, fun s r hruns => ?_⟩
  · have hexec : exec (.pwrRequestWrite p h w) s = .next (s.accessed p (.hub h 4) 0x40 fun s => s.pwrRequest w) := rfl
    rw [hexec, accessed_of_reaches hreach]
    simp only [State.pwrRequest, State.askPower, hout, Bool.not_false, if_true, State.answerPower]
  · have hawake := awake_of_serving hruns.1
    have hexec (t sc b : Byte) : exec (.powerStateRequest r t sc b) s =
        .next (State.commit s (s.askPower (some r) t.toNat sc.toNat b.toNat)) := by
      have hrow : exec (.powerStateRequest r t sc b) s = execPowerStateRequest r t sc b s := rfl
      rw [hrow, execPowerStateRequest, commandLater_of_runs hruns]
    simp only [hexec, State.askPower, hawake, Bool.not_true, Bool.false_eq_true, if_false]
    refine ⟨fun t ht hbusy => ?_, ?_, fun t ht => ?_, fun b d hd hfree hlow => ?_, ?_⟩
    · rcases ht with rfl | rfl | rfl <;> simp [PwrState.ofCode, hbusy, State.answerPower]
    · rintro t p ht hfree q u rfl rfl
      have hcode : PwrState.ofCode t.toNat = some p ∧ ¬(p ≠ .sleep ∧ p ≠ .deepSleep ∧ p ≠ .off) := by
        rcases ht with ⟨rfl, rfl⟩ | ⟨rfl, rfl⟩ | ⟨rfl, rfl⟩ <;> decide
      obtain ⟨hcode, hlow⟩ := hcode
      simp only [BitVec.toNat_ofNat, Nat.zero_mod, hcode, hlow, hfree, ne_eq, not_true_eq_false, or_self, if_true, Bool.false_eq_true,
        if_false]
      exact ⟨fun hno => by rw [hno]; rfl, fun src hsrc => by rw [hsrc]; rfl⟩
    · have hcode : PwrState.ofCode t.toNat = some .run ∨ PwrState.ofCode t.toNat = some .idle ∨ PwrState.ofCode t.toNat = none := by
        rcases ht with rfl | rfl | h5
        · exact .inl rfl
        · exact .inr (.inl rfl)
        · obtain ⟨n, hn⟩ := Nat.exists_eq_add_of_le' h5
          exact .inr (.inr (by rw [hn]; rfl))
      rcases hcode with h | h | h <;> simp [h, State.answerPower]
    · have hrun : PwrState.ofCode (0#8).toNat = some .run := rfl
      have hscope : (1#8).toNat = 1 := rfl
      refine ⟨{ (s.respond r (resp 0x0060 .ok [])).modDie d (fun k => { k with pwrBusy := true }) with
        power := { s.power with waking := some (6, some d, false) } }, ?_, rfl, ?_, fun e he => ?_, ?_⟩
      · simp only [hscope, one_ne_zero, hd, hrun, hfree, hlow, State.answerPower, respond_power, ne_eq, not_true_eq_false, false_and,
          Bool.false_eq_true, if_true, if_false]
      · exact congrArg Die.pwrBusy (State.die_modDie (s.respond r (resp 0x0060 .ok [])) d _)
      · exact (State.die_modDie_ne (s.respond r (resp 0x0060 .ok [])) d e _ (Ne.symm he)).trans (by simp [State.die])
      · exact respond_hubs ..
    · rintro b d hd hfree hon t p ht q u rfl rfl
      have hcode : PwrState.ofCode t.toNat = some p ∧ ¬(p ≠ .run ∧ p ≠ .sleep ∧ p ≠ .deepSleep) ∧ p ≠ .run := by
        rcases ht with ⟨rfl, rfl⟩ | ⟨rfl, rfl⟩ <;> decide
      obtain ⟨hcode, hlow, hrun⟩ := hcode
      have hscope : (1#8).toNat = 1 := rfl
      simp only [hscope, one_ne_zero, hd, hcode, hlow, hrun, hfree, hon, if_true, Bool.false_eq_true, if_false]
      exact ⟨fun hno => by rw [hno]; rfl, fun src hsrc => by rw [hsrc]; rfl⟩

end Sys2Proof
end

section
namespace Sys2Proof
open Machine

/-! ### The command queue (R35, R378, R392) -/

/-- A queued command is executed as its row. -/
theorem runCmd_eq_exec (r : Req) (s : State) (c : ZcsCmd) :
    runCmd r s c = exec (rowOf r (Config.storeOk s.free) c) (if readsBack c then { s with free := s.free + 1 } else s) := by
  cases c <;> rfl

/-- Settles O24: the oldest command is read under its session's version, and its row does what is left. -/
theorem commandQueue : Obligations.CommandQueue := by
  unfold Obligations.CommandQueue
  intro s
  have hexec : exec .commandAccept s = execCommandAccept s := rfl
  rw [hexec, execCommandAccept]
  refine ⟨fun hq => by rw [hq], fun hno => ?_, ?_⟩
  · cases s.core.cmdq with
    | nil => rfl
    | cons q rest => simp only [hno, Bool.false_eq_true, if_false]
  · rintro hserv q rest t hq rfl
    rw [hq]
    simp only [hserv, if_true]
    refine ⟨fun k c hread => ?_, fun k hread => ?_, fun b => ⟨fun ho => ?_, fun o p k ho hbody => ?_⟩⟩
    · simp only [hread]
      obtain ⟨u, hu⟩ := exec_next (rowOf q.req (Config.storeOk s.free) c)
        (if readsBack c then { { s with core := { s.core with cmdq := rest } } with free := s.free + 1 }
          else { s with core := { s.core with cmdq := rest } })
      exact ⟨u, (runCmd_eq_exec q.req _ c).trans hu, hu⟩
    · simp only [hread]
      rfl
    · unfold QueuedCmd.read
      rw [ho]
      rcases parseBody b q.body with ⟨k, _ | c⟩
      · rfl
      · cases c <;> rfl
    · simp only [QueuedCmd.read, ho, hbody]

/-! ### The sessions (R356 to R360, R381) -/

/-- The streams that close are those of their session. -/
theorem not_open_of_mem_closeStreams {c : Core} {w : Who} {z : Stream} (hz : z ∈ (c.closeStreams fun y => y.who == w).streams)
    (hwho : z.who = w) : z.isOpen = false := by
  obtain ⟨y, -, rfl⟩ := List.mem_map.1 hz
  by_cases hy : y.who = w <;> simp_all

/-- What the end of a live session leaves: its place is free, its streams are closed, its holds are gone, and that is all. -/
theorem endSession_spec {s : State} {i : Fin 8} {x : Session} (hx : s.core.session i = some x) :
    ∃ l v, s.endSession i false =
        (s.modCore fun c => { c with streams := l, levels := v, sess := vmod c.sess i fun _ => none }) ∧
      ∀ y ∈ l, y.who = .udp i x.epoch → y.isOpen = false := by
  have hend : s.endSession i false = ((s.modCore fun c => { (c.closeStreams fun y => y.who == .udp i x.epoch) with
      sess := vmod c.sess i fun _ => none }).clearHold x.control).resumeOn := by
    simp only [State.endSession, hx, Bool.false_eq_true, if_false]
  obtain ⟨l, hl, hmem⟩ := resumeOn_streams ((s.modCore fun c => { (c.closeStreams fun y => y.who == .udp i x.epoch) with
    sess := vmod c.sess i fun _ => none }).clearHold x.control)
  refine ⟨l, (s.clearHold x.control).core.levels, ?_, fun y hy hwho => ?_⟩
  · rw [hend, hl]
    simp only [State.modCore, State.clearHold, Core.closeStreams]
  · obtain ⟨z, hz, hyz⟩ := hmem y hy
    have hclosed : z.who = .udp i x.epoch → z.isOpen = false := not_open_of_mem_closeStreams hz
    rcases hyz with hyz | hyz <;> subst hyz <;> exact hclosed hwho

/-- A message leaves, or waits for the unit of its step (R282). -/
def sentOrHeld (t : State) (m : OutMsg) : State := if t.mirroring then t.hold (.response m m.who) else t.emit m

/-- A message to a UDP session changes nothing that the hub mirrors, and neither dies, hubs nor power. -/
theorem leave_udp (t : State) (m : OutMsg) {i : Fin 8} {e : Nat} (hwho : m.who = .udp i e) :
    (sentOrHeld t m).core = t.core ∧ (sentOrHeld t m).dies = t.dies ∧ (sentOrHeld t m).hubs = t.hubs ∧ (sentOrHeld t m).power = t.power := by
  unfold sentOrHeld
  split
  · next hm =>
    rw [hold_of_mirroring _ _ hm]
    exact ⟨rfl, rfl, rfl, rfl⟩
  · simp only [State.emit, hwho, and_self]

/-- A message of kind response that leaves, or waits, is the answer. -/
theorem answered_leave (s t : State) (m : OutMsg) {r : Req} {x : Response} (hwho : m.who = r.who) (hkind : m.kind = 2)
    (hseq : m.seq = r.seq.toNat) (hbody : m.body = respBody x) : Answered (State.commit s (sentOrHeld t m)) r x := by
  refine ⟨m, hwho, hkind, hseq, hbody, ?_⟩
  unfold sentOrHeld
  split
  · next hm =>
    obtain ⟨n, hn⟩ := held_last s t (.response m m.who) hm
    exact .inl ⟨n, by rw [← hwho]; exact hn⟩
  · right
    have hlast := emit_last s t m
    rw [hwho] at hlast
    exact hlast

/-- A session takes a slot, under the next EPOCH. -/
def withOpened (s : State) (i : Fin 8) (x : Session) : State :=
  (s.tickFree).modCore fun c => { c with epoch := c.epoch + 1, sess := vmod c.sess i fun _ => some x }

/-- A session that opens stands in its slot with its response in its books; the other sessions stay. -/
theorem opened_respond (s : State) (i : Fin 8) (x : Session) (seq : Word) (key : Byte) (a : Response) (hx : x.epoch = s.core.epoch + 1) :
    ((withOpened s i x).respond ⟨.udp i (s.core.epoch + 1), seq, key⟩ a).core = { s.core with
        epoch := s.core.epoch + 1
        sess := ((withOpened s i x).respond ⟨.udp i (s.core.epoch + 1), seq, key⟩ a).core.sess
        spi := ((withOpened s i x).respond ⟨.udp i (s.core.epoch + 1), seq, key⟩ a).core.spi } ∧
      ((withOpened s i x).respond ⟨.udp i (s.core.epoch + 1), seq, key⟩ a).core.session i = some (x.answered seq.toNat a) ∧
      ∀ j, j ≠ i → ((withOpened s i x).respond ⟨.udp i (s.core.epoch + 1), seq, key⟩ a).core.session j = s.core.session j := by
  refine ⟨congrArg State.core (respond_only (withOpened s i x) _ a), ?_, fun j hj => ?_⟩
  · rw [respond_session]
    simp [withOpened, State.modCore, Core.session, hx]
  · rw [respond_session]
    have hij : i.val ≠ j.val := fun h => hj (Fin.ext h).symm
    simp [withOpened, State.modCore, Core.session, hj.symm, vmod_ne, hij]

/-- Settles O4: a session that opens takes its slot, one that is refused is answered without a session, and one that closes frees
its slot with its streams. -/
theorem sessions : Obligations.Sessions := by
  unfold Obligations.Sessions
  have hspi (s : State) (r : Req) (p : SessionOpenP) (hserv : s.serving = true) (hsw : s.switching = false) (hwho : r.who = .spi) :
      exec (.sessionOpen r p) s = .next (State.commit s (s.openSpi r p)) := by
    have hrow : exec (.sessionOpen r p) s = execSessionOpen r p s := rfl
    rw [hrow, execSessionOpen]
    simp only [hserv, hsw, hwho, if_true, Bool.false_eq_true, if_false]
  have hudp (s : State) (r : Req) (p : SessionOpenP) (k : Fin 8) (e : Nat) (hserv : s.serving = true) (hsw : s.switching = false)
      (hwho : r.who = .udp k e) : exec (.sessionOpen r p) s = .next (State.commit s (s.openUdp r p)) := by
    have hrow : exec (.sessionOpen r p) s = execSessionOpen r p s := rfl
    rw [hrow, execSessionOpen]
    simp only [hserv, hsw, hwho, if_true, Bool.false_eq_true, if_false]
  have hclose (s : State) (r : Req) (hserv : s.serving = true) (hsw : s.switching = false) :
      exec (.sessionClose r) s = .next (State.commit s (s.closeSession r)) := by
    have hrow : exec (.sessionClose r) s = execSessionClose r s := rfl
    rw [hrow, execSessionClose]
    simp only [hserv, hsw, if_true, Bool.false_eq_true, if_false]
  refine ⟨⟨?_, ?_⟩, ?_, ?_, ?_, ?_⟩
  · rintro s r k i p hserv hsw ⟨e, hwho⟩ hok hfree
    have hnew : s.openUdp r p = (withOpened s i (s.newSession p r.seq)).respond ⟨.udp i (s.core.epoch + 1), r.seq, r.keyId⟩
        (resp 0x0001 .ok (openBody (s.newSession p r.seq).version s.act.nv.boot (s.newSession p r.seq).id (s.core.epoch + 1))) := by
      simp only [State.openUdp, hok, hfree]
      rfl
    rw [hudp s r p k e hserv hsw hwho, hnew]
    obtain ⟨hcore, hsess, hother⟩ := opened_respond s i (s.newSession p r.seq) r.seq r.keyId
      (resp 0x0001 .ok (openBody (s.newSession p r.seq).version s.act.nv.boot (s.newSession p r.seq).id (s.core.epoch + 1))) rfl
    refine ⟨_, _, rfl, hsess, hcore, rfl, rfl, rfl, rfl, rfl, rfl, rfl, hother, respond_dies .., respond_hubs .., respond_power ..,
      answered_respond ..⟩
  · intro s r p hserv hsw hwho hok
    rw [hspi s r p hserv hsw hwho]
    simp only [State.openSpi, hok]
    rfl
  · rintro s r k p hserv hsw ⟨e, hwho⟩ z hz
    have hbare : s.openUdp r p = s.bareReply r.seq.toNat r.keyId.toNat (resp 0x0001 z []) (p.src, p.srcPort.toNat) p.port := by
      rcases hz with hz | ⟨hok, hfull, rfl⟩
      · simp only [State.openUdp, hz]
      · simp only [State.openUdp, hok, hfull]
    rw [hudp s r p k e hserv hsw hwho, hbare]
    refine ⟨_, _, rfl, rfl, rfl, rfl, rfl, rfl, rfl, ?_, rfl, rfl, rfl, rfl, rfl⟩
    by_cases hm : s.net.mode = 0
    · simp [hm]
    · simp [hm]
  · intro s r i x hserv hsw hwho hx
    have hlive : s.core.sessOf r.who = some x := by simp [Core.sessOf, hwho, hx]
    obtain ⟨l, v, hend, hclosed⟩ := endSession_spec hx
    have hcl : s.closeSession r = sentOrHeld (s.endSession i false)
        (s.message r.who 2 r.seq.toNat r.keyId.toNat false (respBody (resp 0x0002 .ok []))) := by
      unfold State.closeSession
      rw [hwho] at hlive ⊢
      simp only [hlive, Option.isNone_some, Bool.false_eq_true, if_false]
      rfl
    rw [hclose s r hserv hsw, hcl]
    obtain ⟨hcore, hdies, hhubs, hpower⟩ := leave_udp (s.endSession i false)
      (s.message r.who 2 r.seq.toNat r.keyId.toNat false (respBody (resp 0x0002 .ok []))) hwho
    refine ⟨_, rfl, ?_, fun j hj => ?_, fun y hy => ?_, hdies.trans ?_, hhubs.trans ?_, hpower.trans ?_, ?_, ?_,
      answered_leave s _ _ rfl rfl rfl rfl⟩
    · refine (congrArg (·.session i) hcore).trans ?_
      simp [hend, State.modCore, Core.session]
    · refine (congrArg (·.session j) hcore).trans ?_
      have hij : i.val ≠ j.val := fun h => hj (Fin.ext h).symm
      simp [hend, State.modCore, Core.session, vmod_ne, hij]
    · refine hclosed y ?_
      have hmem : y ∈ (s.endSession i false).core.streams := (congrArg (y ∈ ·.streams) hcore).mp hy
      rw [hend] at hmem
      exact hmem
    · rw [hend]; rfl
    · rw [hend]; rfl
    · rw [hend]; rfl
    · refine (congrArg Core.entries hcore).trans ?_
      rw [hend]; rfl
    · refine (congrArg Core.records hcore).trans ?_
      rw [hend]; rfl
  · intro s r i e hserv hsw hwho hno
    have hgone : s.core.sessOf r.who = none := by
      rw [hwho]
      simpa [Core.sessOf, Option.filter_eq_none_iff] using hno
    have hsame : s.closeSession r = s := by
      unfold State.closeSession
      rw [hwho] at hgone ⊢
      simp only [hgone, Option.isNone_none, if_true]
    rw [hclose s r hserv hsw, hsame]
  · intro s r hserv hsw hwho
    rw [hclose s r hserv hsw, State.closeSession, hwho]

end Sys2Proof
end

section
namespace Sys2Proof
open Machine

/-! ### Datagrams (R351 to R359, R362) -/

/-- The active hub serves wherever a port of its own sends. -/
theorem serving_of_hears {s : State} {p : PortId} {g : Datagram} (h : s.hears p g = true) (howner : s.portOwner p = s.active) :
    s.serving = true := by
  simp only [State.hears, State.portSends, State.portRuns, Bool.and_eq_true, howner] at h
  obtain ⟨⟨⟨⟨⟨⟨⟨⟨hpresent, hup⟩, hawake⟩, hboot⟩, -⟩, -⟩, -⟩, -⟩, -⟩ := h
  have hact : s.act = s.hub s.active := rfl
  simp only [State.serving, hact, hpresent, hup, hawake, hboot, Bool.and_self]

theorem datagram_of_unauthentic {s : State} {p : PortId} {g : Datagram} (h : s.core.authentic g = false) :
    s.datagram p g = s.authFails := by
  simp only [State.datagram, h, Bool.not_false, if_true]

theorem datagram_of_open {s : State} {p : PortId} {g : Datagram} (h : s.core.authentic g = true) (hkind : g.kind = 1#8)
    (hsess : g.session = 0#32) (hepoch : g.epoch = 0#32) (hboot : g.boot = 0#32) : s.datagram p g = s.openRequest p g := by
  simp only [State.datagram, h, hkind, hsess, hepoch, hboot, Bool.not_true, Bool.false_eq_true, if_false, and_self, if_true]

theorem datagram_of_stray {s : State} {p : PortId} {g : Datagram} (h : s.core.authentic g = true) (hsess : g.session ≠ 0#32)
    (hnone : s.sessionFor g = none) :
    s.datagram p g =
      if g.kind = 1#8 then s.bareReply g.seq.toNat g.keyId.toNat (s.turnAway (cmdOf g) .auth) (replyTo g) p else s := by
  have hno : ¬(g.kind = 1#8 ∧ g.session = 0#32 ∧ g.epoch = 0#32 ∧ g.boot = 0#32) := fun ⟨_, h0, _⟩ => hsess h0
  simp only [State.datagram, h, hno, hnone, Bool.not_true, Bool.false_eq_true, if_false]

theorem datagram_of_session {s : State} {p : PortId} {g : Datagram} {i : Fin 8} {x : Session} (h : s.core.authentic g = true)
    (hsess : g.session ≠ 0#32) (hsome : s.sessionFor g = some i) (hx : (s.heard i).core.session i = some x) :
    s.datagram p g = if g.kind = 1#8 then (s.heard i).takeRequest i x g else (s.heard i).takeAxis g := by
  have hno : ¬(g.kind = 1#8 ∧ g.session = 0#32 ∧ g.epoch = 0#32 ∧ g.boot = 0#32) := fun ⟨_, h0, _⟩ => hsess h0
  simp only [State.datagram, h, hno, hsome, hx, Bool.not_true, Bool.false_eq_true, if_false]

/-- A request by how far its SEQ lies ahead of the one that the session expects (R356). -/
theorem takeRequest_cases (s : State) (i : Fin 8) (x : Session) (g : Datagram) :
    (seqAhead g.seq.toNat x.next = 0 → s.takeRequest i x g = State.followHeld i 7 (s.acceptReq i x g)) ∧
      (1 ≤ seqAhead g.seq.toNat x.next → seqAhead g.seq.toNat x.next ≤ 7 → s.takeRequest i x g =
        if x.held.any (·.1 == g.seq.toNat) then s
        else s.modCore (·.modSess i fun y => { y with held := y.held ++ [(g.seq.toNat, s.clk.elapsed, g)] })) ∧
      (2 ^ 32 - 16 ≤ seqAhead g.seq.toNat x.next →
        s.takeRequest i x g = s.duplicate (.udp i x.epoch) x.cache g.seq.toNat g.keyId.toNat) ∧
      (8 ≤ seqAhead g.seq.toNat x.next → seqAhead g.seq.toNat x.next < 2 ^ 32 - 16 → s.takeRequest i x g = s.dropSeq) := by
  unfold State.takeRequest
  dsimp only
  generalize seqAhead g.seq.toNat x.next = n
  refine ⟨fun h => if_pos h, fun h1 h7 => ?_, fun h => ?_, fun h8 hlt => ?_⟩
  · rw [if_neg (by omega), if_pos h7]
  · rw [if_neg (by omega), if_neg (by omega), if_pos h]
  · rw [if_neg (by omega), if_neg (by omega), if_neg (by omega)]

/-- Settles O25: what a port makes of a datagram, then what the session makes of a request by its SEQ. -/
theorem datagramsReceived : Obligations.DatagramsReceived := by
  unfold Obligations.DatagramsReceived
  refine ⟨fun s p g c hc => ?_, fun s i x g ahead hahead => ?_, fun s r b => ?_, fun s w cache seq keyId => ?_,
    fun s i seq x hx hserv hdue => ?_, fun s seq hserv hdue => ?_⟩
  · have hexec : exec c s = .next (s.arrive p g) := by
      rcases hc with rfl | rfl <;> rfl
    rw [hexec, State.arrive]
    refine ⟨?_, ?_, fun hno => ?_, ?_, ?_⟩
    · simp only [State.hears, Bool.and_eq_true, decide_eq_true_eq, and_assoc]
    · simp only [State.portSends, Bool.and_eq_true]
    · simp only [hno, Bool.not_false, if_true]
    · rintro hyes howner n rfl
      simp only [hyes, howner, Bool.not_true, Bool.false_eq_true, if_false]
      refine ⟨fun hfull => ?_, fun hroom => ?_⟩
      · simp only [hfull, if_true]
        rfl
      · simp only [Nat.not_lt.2 hroom, if_false]
    · intro hyes howner n d u hnd hu
      have hserv := serving_of_hears hyes howner
      have hcore : u.core = s.core := by rw [hu]
      simp only [hyes, howner, Bool.not_true, Bool.false_eq_true, if_false, if_true, State.reached, hserv, ← hnd, ← hu]
      rw [← hcore]
      refine ⟨fun hd => ?_, fun hd => ?_⟩
      · simp only [hd, if_true]
        rfl
      · simp only [hd, Bool.false_eq_true, if_false]
        refine ⟨fun hbad => by rw [datagram_of_unauthentic hbad], fun hok hkind hsess hepoch hboot q hq => ?_,
          fun hok hsess hnone => by rw [datagram_of_stray hok hsess hnone]; rfl,
          fun i x hok hsess hsome hx => by rw [datagram_of_session hok hsess hsome hx]⟩
        rw [datagram_of_open hok hkind hsess hepoch hboot]
        simp only [State.openRequest, hq]
        refine ⟨fun hroom => ?_, fun hfull => ?_⟩
        · rw [if_pos hroom]
          rfl
        · rw [if_neg (Nat.not_lt.2 hfull)]
          rfl
  · subst hahead
    obtain ⟨hnext, hheld, hdup, hdrop⟩ := takeRequest_cases s i x g
    refine ⟨hnext, fun h1 h7 hnew => (hheld h1 h7).trans (if_neg (by rw [hnew]; exact Bool.false_ne_true)),
      fun h1 h7 hold => (hheld h1 h7).trans (if_pos hold), hdup, hdrop⟩
  · refine ⟨fun hroom => ?_, fun hfull => ?_⟩
    · rw [State.enqueue, if_pos hroom]
      rfl
    · rw [State.enqueue, if_neg (Nat.not_lt.2 hfull)]
  · refine ⟨fun hnone => ?_, fun x hx hheld => ?_⟩
    · rw [State.duplicate, hnone]
    · rw [State.duplicate, hx]
      simp only [hheld, Bool.false_eq_true, if_false]
  · have hexec : exec (.heldRequestTimeout (.udp i x.epoch) seq) s = execHeldRequestTimeout (.udp i x.epoch) seq s := rfl
    have hlive : s.core.sessOf (.udp i x.epoch) = some x := by simp [Core.sessOf, hx]
    have hdue' : heldDue x.held seq.toNat s.clk.elapsed = true := hdue
    rw [hexec]
    simp only [execHeldRequestTimeout, hlive, hserv, hdue', Bool.and_self, if_true]
    rfl
  · have hexec : exec (.heldRequestTimeout .spi seq) s = execHeldRequestTimeout .spi seq s := rfl
    have hdue' : heldDue s.core.spi.held seq.toNat s.clk.elapsed = true := hdue
    rw [hexec, execHeldRequestTimeout]
    simp only [hserv, hdue', Bool.and_self, if_true]
    rfl

end Sys2Proof
end

section
namespace Sys2Proof
open Machine

/-! ### Host SPI (R370 to R372) -/

/-- A tunnel request of the SPI session by how far its SEQ lies ahead of the one that is expected (R356, R370). -/
theorem takeTunnel_cases (s : State) (m : TunnelMsg) :
    (s.core.spi.ahead m.seq.toNat = 0 → s.takeTunnel m = State.followTunnel 7 (s.acceptTunnel m)) ∧
      (1 ≤ s.core.spi.ahead m.seq.toNat → s.core.spi.ahead m.seq.toNat ≤ 7 → s.takeTunnel m =
        if s.core.spi.held.any (·.1 == m.seq.toNat) then s
        else s.modCore fun c => { c with spi := { c.spi with held := c.spi.held ++ [(m.seq.toNat, s.clk.elapsed, m)] } }) ∧
      (2 ^ 32 - 16 ≤ s.core.spi.ahead m.seq.toNat → s.takeTunnel m = s.duplicate .spi s.core.spi.cache m.seq.toNat 0) ∧
      (8 ≤ s.core.spi.ahead m.seq.toNat → s.core.spi.ahead m.seq.toNat < 2 ^ 32 - 16 → s.takeTunnel m = s.dropSeq) := by
  unfold State.takeTunnel
  dsimp only
  generalize s.core.spi.ahead m.seq.toNat = n
  refine ⟨fun h => if_pos h, fun h1 h7 => ?_, fun h => ?_, fun h8 hlt => ?_⟩
  · rw [if_neg (by omega), if_pos h7]
  · rw [if_neg (by omega), if_neg (by omega), if_pos h]
  · rw [if_neg (by omega), if_neg (by omega), if_neg (by omega)]

theorem exec_spiTunnelWrite (s : State) (h : HubId) (m : TunnelMsg) :
    exec (.spiTunnelWrite h m) s = .next (if !s.spiAlive h then s.shiftOut h []
      else if !s.awake then s.shiftOut h [s.spiStatus h true false]
      else if h = s.active ∧ s.serving = true ∧ TunnelMsg.sound m = true then
        (State.commit s (s.tunnelRequest m)).shiftOut h [(State.commit s (s.tunnelRequest m)).spiStatus h false (s.tunnelFull m)]
      else s.shiftOut h [s.spiStatus h false false]) := rfl

theorem exec_spiRegisterRead (s : State) (h : HubId) (q : Bool) (a : BitVec 24) (n : Nat) :
    exec (.spiRegisterRead h q a n) s = .next (if !s.spiAlive h then s.shiftOut h []
      else if h = s.active then
        (s.readRun (spiRun a n)).1.shiftOut h (s.spiStatus h ((spiRun a n).any s.unpowered) false :: (s.readRun (spiRun a n)).2)
      else (s.ownRun h (spiRun a n)).1.shiftOut h
        (s.spiStatus h ((spiRun a n).any (s.ownOff h)) false :: (s.ownRun h (spiRun a n)).2)) := rfl

theorem exec_spiRegisterWrite (s : State) (h : HubId) (q : Bool) (a : BitVec 24) (ws : List Word) :
    exec (.spiRegisterWrite h q a ws) s = execSpiRegisterWrite h q a ws s := rfl

theorem exec_spiTunnelRead (s : State) (h : HubId) : exec (.spiTunnelRead h) s = execSpiTunnelRead h s := rfl

/-- Settles O26: the port by its hub's state and role, and a tunnel request by its header and SEQ. -/
theorem hostSpi : Obligations.HostSpi := by
  unfold Obligations.HostSpi
  intro s h
  simp only [exec_spiTunnelWrite, exec_spiRegisterRead, exec_spiRegisterWrite, exec_spiTunnelRead, execSpiRegisterWrite,
    execSpiTunnelRead]
  refine ⟨fun hdead q a n ws m => ?_, fun halive hact => ?_, fun halive hstand q a n ws m => ?_⟩
  · simp only [hdead, Bool.not_false, if_true]
    exact ⟨rfl, rfl, rfl, rfl⟩
  · subst hact
    simp only [halive, Bool.not_true, Bool.false_eq_true, if_false, if_true, true_and]
    refine ⟨?_, ?_, fun hsleep m => ?_, ?_, ?_, ?_, fun hawake hempty hnone => ?_⟩
    · rintro q a n x rfl
      rfl
    · rintro q a ws t err rfl rfl
      exact ⟨fun hm => by rw [hm]; rfl, fun hm => by rw [hm]; rfl⟩
    · simp only [hsleep, Bool.not_false, if_true, and_self]
    · rintro m t ok rfl rfl
      have hsound : TunnelMsg.sound m = (m.magic == 0x5A4C#16 && m.kind == 1#8 && decide (m.length.toNat = m.body.length)) := rfl
      rw [← hsound]
      refine ⟨fun hserv hok => ?_, fun hawake hno => ?_⟩
      · simp only [awake_of_serving hserv, hserv, hok, Bool.not_true, Bool.false_eq_true, if_false, and_self, if_true]
      · have hcant : ¬(s.serving = true ∧ TunnelMsg.sound m = true) := by
          rintro ⟨hserv, hok⟩
          rcases hno with h | h <;> simp_all
        simp only [hawake, hcant, Bool.not_true, Bool.false_eq_true, if_false]
    · intro m opens live r n hopens hlive hr hn
      have hopens' : TunnelMsg.opens m = opens := hopens ▸ rfl
      have hlive' : s.tunnelLive m = live := hlive ▸ rfl
      have hahead : s.core.spi.ahead m.seq.toNat = n := by rw [hn]; rfl
      simp only [State.tunnelFull, State.tunnelRequest, hopens', hlive', hahead]
      obtain ⟨hnext, hheld, hdup, hdrop⟩ := takeTunnel_cases s m
      rw [hahead] at hnext hheld hdup hdrop
      refine ⟨rfl, fun ho => ?_, fun ho hl => ?_, fun ho hl => ⟨?_, fun h1 h7 hnew => ?_, fun h1 h7 hold => ?_, fun hlast => ?_,
        fun h8 hlt => ?_⟩⟩
      · rw [if_pos ho, hr]
      · simp only [ho, hl, Bool.not_false, Bool.false_eq_true, if_false, if_true]
        rfl
      all_goals simp only [ho, hl, Bool.not_true, Bool.false_eq_true, if_false]
      · rintro h0 t rfl
        rw [hnext h0, hr]
        rfl
      · rw [hheld h1 h7, hnew]
        rfl
      · rw [hheld h1 h7, if_pos hold]
      · rw [hdup hlast]
      · rw [hdrop h8 hlt]
        rfl
    · rintro m rest u hawake htun rfl
      simp only [hawake, htun, List.isEmpty_cons, Bool.not_true, Bool.false_eq_true, if_false]
      rfl
    · have hev : s.spiEvents = s := by simp only [State.spiEvents, hnone, List.isEmpty_nil, if_true]
      simp only [hawake, hempty, hev, List.isEmpty_nil, Bool.not_true, Bool.false_eq_true, if_false, if_true]
  · simp only [halive, hstand, Bool.not_true, Bool.false_eq_true, if_false, false_and, true_and]
    cases s.awake <;> simp

end Sys2Proof
end

section
namespace Sys2Proof
open Machine

/-! ### One lane of a hub changed -/

@[simp] theorem lane_modLane (s : State) (h : HubId) (d : DieId) (f : Lane → Lane) : (s.modLane h d f).lane h d = f (s.lane h d) := by
  simp [State.modLane, State.lane, Hub.modLane]

theorem modLane_modLane (s : State) (h : HubId) (d : DieId) (f g : Lane → Lane) :
    (s.modLane h d f).modLane h d g = s.modLane h d fun l => g (f l) := by
  simp [State.modLane, State.modHub, Hub.modLane, vmod]

@[simp] theorem lane_modDie (s : State) (h : HubId) (d e : DieId) (f : Die → Die) : (s.modDie d f).lane h e = s.lane h e := rfl
@[simp] theorem die_modLane (s : State) (h : HubId) (d e : DieId) (f : Lane → Lane) : (s.modLane h d f).die e = s.die e := rfl

theorem modDie_of_fixed (s : State) (d : DieId) {f : Die → Die} (h : f (s.die d) = s.die d) : s.modDie d f = s := by
  have hv : vmod s.dies d f = s.dies := by
    rw [vmod_congr s.dies d (f := f) (g := fun x => x) h]
    simp [vmod]
  simp only [State.modDie, hv]

/-- A CREDIT field that reaches a die frees what the die kept, and that is all (R15, R283). -/
theorem creditDown_frame (s : State) (h : HubId) (d : DieId) (n : Nat) :
    s.creditDown h d n = { s with dies := (s.creditDown h d n).dies } ∧
      (∀ e, e ≠ d → (s.creditDown h d n).die e = s.die e) ∧
      (s.creditDown h d n).die d = { s.die d with heldFrames := ((s.creditDown h d n).die d).heldFrames } := by
  refine ⟨rfl, fun e he => State.die_modDie_ne _ _ _ _ (Ne.symm he), ?_⟩
  simp only [State.creditDown, State.die_modDie]
  split <;> rfl

/-! ### Output state and Status frames (R110, R111) -/

/-- The channels of Output state frame k are 4k to 4k + 3. -/
theorem mem_outState_chans (k : Fin 4) (c : ChanId) :
    ((List.finRange 4).map fun i => (⟨4 * k.val + i.val, by omega⟩ : ChanId)).contains c = decide (c.val / 4 = k.val) := by
  rw [Bool.eq_iff_iff, List.contains_iff_mem, decide_eq_true_eq, List.mem_map]
  constructor
  · rintro ⟨i, -, rfl⟩
    dsimp only
    omega
  · intro hc
    exact ⟨⟨c.val % 4, Nat.mod_lt _ (by decide)⟩, List.mem_finRange _, Fin.ext (by dsimp only; omega)⟩

/-- The levels that arrive are those of the channels named; the others' stay (R110). -/
theorem applyLevels_levels (d : Die) (di : DieId) (q elapsed : Nat) (cs : List ChanId) (n : ChanId → Levels) (c : ChanId) :
    (d.applyLevels di q elapsed cs n).levels[c.val] = if cs.contains c then n c else d.levels[c.val] := by
  simp only [Die.applyLevels, vmap_at]

/-- The shadows that advance are all that changes. -/
theorem syncShadow_frame (s : State) (d : DieId) (cs : List ChanId) :
    s.syncShadow d cs = { s with core := { s.core with shadow := (s.syncShadow d cs).core.shadow } } := by
  unfold State.syncShadow
  split <;> rfl

/-- The two words of a Status frame stand in its halves (R111). -/
theorem statusOf_halves (d : Die) (k : Fin 8) :
    (d.statusOf k).toNat % 2 ^ 32 = (d.chan ⟨2 * k.val, by omega⟩).word.toNat ∧
      (d.statusOf k).toNat / 2 ^ 32 = (d.chan ⟨2 * k.val + 1, by omega⟩).word.toNat := by
  have ha := (d.chan ⟨2 * k.val, by omega⟩).word.isLt
  have hb := (d.chan ⟨2 * k.val + 1, by omega⟩).word.isLt
  simp only [Die.statusOf, BitVec.toNat_ofNat]
  omega

/-! ### Time frames (R48, R49) -/

/-- A Time frame sets a replica, or after coasting gives what it realigns to (R48, R49). -/
theorem takeTime_of_tracking {d : Die} (v : Tick) (elapsed : Nat) (h : d.coasting = false) :
    d.takeTime v elapsed = { d with replica := ((v : Int) - d.realign).toNat, lastTime := elapsed } := by
  simp only [Die.takeTime, h, Bool.false_eq_true, if_false]
theorem takeTime_of_coasting {d : Die} (v : Tick) (elapsed : Nat) (h : d.coasting = true) :
    d.takeTime v elapsed = { d with coasting := false, realign := (v : Int) - d.replica, lastTime := elapsed } := by
  simp only [Die.takeTime, h, if_true]

/-- A register-class frame to a die changes the lane's books and the frames that the die keeps. -/
theorem frameDown_frame (s : State) (h : HubId) (d : DieId) (type : Nat) (w : Dword) :
    s.frameDown h d type w = { s with hubs := (s.frameDown h d type w).hubs, dies := (s.frameDown h d type w).dies } ∧
      (∀ e, e ≠ d → (s.frameDown h d type w).die e = s.die e) ∧
      (s.frameDown h d type w).die d = { s.die d with heldFrames := ((s.frameDown h d type w).die d).heldFrames } := by
  obtain ⟨-, hother, hdie⟩ := creditDown_frame (s.modLane h d (·.gotDown type w)) h d (s.lane h d).up.creditNow
  exact ⟨rfl, hother, hdie⟩

/-- Settles O27: each frame where it passes, and the row that does nothing where it does not. -/
theorem laneFrames : Obligations.LaneFrames := by
  unfold Obligations.LaneFrames
  refine ⟨fun s h d => ⟨fun htick hlink => ?_, fun hno => ?_, fun k => ⟨fun hlink => ?_, fun hno => ?_⟩, fun hon => ?_, fun hoff => ?_,
    fun k => ⟨fun hno => ?_, fun hlink hh => ?_⟩⟩, fun s h d => ?_, fun s => ?_⟩
  · have hexec : exec (.outputStateSend d) s = execOutputStateSend d s := rfl
    rw [hexec, execOutputStateSend]
    simp only [htick, hlink, Bool.and_self, if_true]
  · have hexec : exec (.outputStateSend d) s = execOutputStateSend d s := rfl
    rw [hexec, execOutputStateSend]
    rcases hno with h | h <;> simp [h]
  · have hexec : exec (.outputStateReceive s.active d k) s = execOutputStateReceive s.active d k s := rfl
    obtain ⟨-, hother, hdie⟩ := frameDown_frame s s.active d FrameType.outputState.code ((s.lane s.active d).outState[k.val])
    have hlevels : ((s.frameDown s.active d FrameType.outputState.code ((s.lane s.active d).outState[k.val])).die d).levels =
        (s.die d).levels := by rw [hdie]
    rw [hexec, execOutputStateReceive]
    simp only [hlink, decide_true, Bool.and_self, if_true]
    rw [syncShadow_frame]
    refine ⟨_, rfl, fun c hc => ?_, fun c hc => ?_, fun e he => ?_, rfl, rfl, rfl⟩
    · refine (congrArg (fun x : Die => x.levels[c.val]) (State.die_modDie ..)).trans ?_
      rw [applyLevels_levels, mem_outState_chans, decide_eq_true hc, if_pos rfl]
    · refine (congrArg (fun x : Die => x.levels[c.val]) (State.die_modDie ..)).trans ?_
      rw [applyLevels_levels, mem_outState_chans, decide_eq_false hc, if_neg Bool.false_ne_true, hlevels]
    · exact (State.die_modDie_ne _ _ _ _ (Ne.symm he)).trans (hother e he)
  · have hexec : exec (.outputStateReceive h d k) s = execOutputStateReceive h d k s := rfl
    rw [hexec, execOutputStateReceive]
    rcases hno with h | h <;> simp [h]
  · refine ⟨s.modDie d fun x => { x with statusTx := Vector.ofFn fun k => x.statusOf k }, ?_, rfl,
      fun e he => State.die_modDie_ne _ _ _ _ (Ne.symm he), ?_, fun k => ?_⟩
    · exact congrArg Host.Outcome.next (modDie_congr s d (by simp only [hon, if_true]))
    · rw [State.die_modDie]
    · simp only [State.die_modDie, Vector.getElem_ofFn]
      exact statusOf_halves (s.die d) k
  · have hexec : exec (.statusSend d) s = execStatusSend d s := rfl
    rw [hexec, execStatusSend, modDie_of_fixed s d (by simp only [hoff, Bool.false_eq_true, if_false])]
  · have hexec : exec (.statusReceive h d k) s = execStatusReceive h d k s := rfl
    rw [hexec, execStatusReceive]
    simp only [hno, Bool.false_eq_true, if_false]
  · have hexec : exec (.statusReceive h d k) s = execStatusReceive h d k s := rfl
    rw [hexec, execStatusReceive]
    simp only [hlink, hh, if_true, if_false]
  · have hsend : exec (.timeFrameSend (.lane h d)) s = execTimeFrameSend (.lane h d) s := rfl
    have hrecv : exec (.timeFrameReceive h (some d)) s = execTimeFrameReceive h (some d) s := rfl
    have hcoast : exec (.coastingStart d) s = execCoastingStart d s := rfl
    have hmeas (rt : Nat) : exec (.laneDelayMeasure h (some d) rt) s = execLaneDelayMeasure h (some d) rt s := rfl
    simp only [hsend, hrecv, hcoast, hmeas, execTimeFrameSend, execTimeFrameReceive, execCoastingStart, execLaneDelayMeasure]
    refine ⟨fun hm hlink => ?_, fun hno => ?_, fun p hp hlink => ?_, fun hno => ?_, fun hon htrack hlate => ?_, fun hno => ?_,
      fun rt hlink => ?_, fun rt hlink => ?_⟩
    · rw [if_pos ⟨hm, hlink⟩]
      rfl
    · rw [if_neg]
      rintro ⟨hm, hlink⟩
      rcases hno with h | h
      · exact h hm
      · rw [h] at hlink; cases hlink
    · simp only [hp, hlink, if_true]
      obtain ⟨hframe, hother, hdie⟩ := frameDown_frame s h d FrameType.time.code (BitVec.ofNat 64 p)
      have htime : ((((s.frameDown h d FrameType.time.code (BitVec.ofNat 64 p)).modLane h d fun l => { l with timeFrame := none }).modDie d
          (·.takeTime (p + (s.lane h d).delay) s.clk.elapsed)).die d) =
          ((s.frameDown h d FrameType.time.code (BitVec.ofNat 64 p)).die d).takeTime (p + (s.lane h d).delay) s.clk.elapsed := by
        rw [State.die_modDie, die_modLane]
      rw [hdie] at htime
      refine ⟨_, rfl, fun htrack => ?_, fun hcoast => ?_, ?_, ?_, ?_, ?_, ?_, rfl,
        fun e he => (State.die_modDie_ne _ _ _ _ (Ne.symm he)).trans (hother e he)⟩
      · rw [htime, takeTime_of_tracking _ _ (by exact htrack)]
        exact ⟨rfl, rfl⟩
      · rw [htime, takeTime_of_coasting _ _ (by exact hcoast)]
        exact ⟨rfl, rfl⟩
      · rw [htime]
        cases hc : (s.die d).coasting with
        | false => rw [takeTime_of_tracking _ _ (by exact hc)]; exact hc
        | true => rw [takeTime_of_coasting _ _ (by exact hc)]
      · rw [htime, Die.takeTime]
        split <;> rfl
      · rw [htime, Die.takeTime]
        split <;> rfl
      · rw [htime, Die.takeTime]
        split <;> rfl
      · rw [lane_modDie, lane_modLane]
    · rcases hno with h | h
      · simp only [h]
      · cases (s.lane _ d).timeFrame <;> simp [h]
    · simp only [hon, htrack, hlate, Bool.not_false, decide_true, Bool.and_self, if_true]
      rfl
    · rw [if_neg]
      simp only [Bool.and_eq_true, Bool.not_eq_true', decide_eq_true_eq]
      rintro ⟨⟨hon, htrack⟩, hlate⟩
      rcases hno with h | h | h
      · rw [h] at hon; cases hon
      · rw [h] at htrack; cases htrack
      · omega
    · simp only [hlink, if_true]
    · simp only [hlink, Bool.false_eq_true, if_false]
  · have hsend : exec (.timeFrameSend .string) s = execTimeFrameSend .string s := rfl
    have hrecv (h : HubId) : exec (.timeFrameReceive h none) s = execTimeFrameReceive h none s := rfl
    have hmeas (h : HubId) (rt : Nat) : exec (.laneDelayMeasure h none rt) s = execLaneDelayMeasure h none rt s := rfl
    simp only [hsend, hrecv, hmeas, execTimeFrameSend, execTimeFrameReceive, execLaneDelayMeasure]
    refine ⟨fun hdual htr => ⟨fun hm => ?_, fun rt => ?_, fun p hp hup => ?_⟩, fun hno => ?_, fun h hno => ⟨?_, fun rt => ?_⟩⟩
    · simp [hdual, htr, hm]
    · simp [hdual, htr]
    · simp only [hp, hdual, htr, hup, beq_self_eq_true, Bool.and_self, if_true]
      exact ⟨_, rfl, rfl, rfl, rfl⟩
    · rcases hno with h | h <;> simp [h]
    · cases s.mirror.str.timeFrame with
      | none => rfl
      | some p => rcases hno with h | h | h <;> simp [h]
    · rcases hno with h | h | h <;> simp [h]

end Sys2Proof
end

section
namespace Sys2Proof
open Machine

/-! ### The shadow of a channel (R113) -/

/-- Pushing intent again changes the die alone. -/
theorem pushIntent_core (s : State) (ch : Chan) : (s.pushIntent ch).core = s.core := by
  have hqueue : (s.pushConfig ch).core = s.core := by
    obtain ⟨⟨hrest, -⟩, -, -⟩ := queueConfig_spec s ⟨ch.die, ((s.die ch.die).unit ch.c).headD ch.c⟩
      ((s.die ch.die).chan (((s.die ch.die).unit ch.c).headD ch.c)).want ((s.die ch.die).chan (((s.die ch.die).unit ch.c).headD ch.c)).cfgSet
      (tenAfterTwenty s.clk.now)
    rw [State.pushConfig, hrest]
  unfold State.pushIntent
  dsimp only
  split
  · exact hqueue
  · exact hqueue

/-- What a skew leaves of the hub's books: the shadow takes the die's word, and the fourth within 1 s sets SKEW (R113). -/
theorem stateSkew_core (s : State) (ch : Chan) (w : Word) :
    (s.stateSkew ch w).core = { s.core with
      shadow := vmod s.core.shadow ch.die fun v => vmod v ch.c fun y => { y with
        word := w, run := 0
        skews := ((s.core.shadow[ch.die.val])[ch.c.val].skews.filter fun t => decide (s.clk.elapsed < t + sec)) ++ [s.clk.elapsed] }
      levels := if 4 ≤ (((s.core.shadow[ch.die.val])[ch.c.val].skews.filter fun t => decide (s.clk.elapsed < t + sec)) ++ [s.clk.elapsed]).length
        then vmod s.core.levels ch.die fun v => vmod v ch.c fun y => { y with skew := true } else s.core.levels } := by
  unfold State.stateSkew
  dsimp only
  split
  · simp only [raiseSrc_core, State.modCore, decide_eq_true_eq]
  · split
    · simp only [pushIntent_core, raiseSrc_core, State.modCore, decide_eq_true_eq]
    · simp only [State.modDie_core, raiseSrc_core, State.modCore, decide_eq_true_eq]

/-- The skews of a channel within the last second. -/
def recentSkews (s : State) (ch : Chan) : List Nat :=
  (s.core.shadow[ch.die.val])[ch.c.val].skews.filter fun t => decide (s.clk.elapsed < t + sec)

theorem stateSkew_levels_of_few {s : State} {ch : Chan} (w : Word) (h : (recentSkews s ch).length < 3) :
    (s.stateSkew ch w).core.levels = s.core.levels := by
  rw [stateSkew_core]
  refine if_neg ?_
  rw [List.length_append, List.length_singleton]
  exact Nat.not_le.2 (Nat.succ_lt_succ h)

theorem stateSkew_levels_of_many {s : State} {ch : Chan} (w : Word) (h : 3 ≤ (recentSkews s ch).length) :
    (s.stateSkew ch w).core.levels = vmod s.core.levels ch.die fun v => vmod v ch.c fun y => { y with skew := true } := by
  rw [stateSkew_core]
  refine if_pos ?_
  rw [List.length_append, List.length_singleton]
  exact Nat.succ_le_succ h

/-- The fourth skew within 1 s pushes nothing (R113). -/
theorem stateSkew_dies {s : State} {ch : Chan} {w : Word}
    (h : 3 ≤ ((s.core.shadow[ch.die.val])[ch.c.val].skews.filter fun t => decide (s.clk.elapsed < t + sec)).length) :
    (s.stateSkew ch w).dies = s.dies := by
  have hrep : decide (4 ≤ (((s.core.shadow[ch.die.val])[ch.c.val].skews.filter fun t => decide (s.clk.elapsed < t + sec)) ++
      [s.clk.elapsed]).length) = true := by
    simp only [List.length_append, List.length_singleton, decide_eq_true_eq]
    omega
  simp only [State.stateSkew, hrep, Bool.true_or, if_true, raiseSrc_dies]
  rfl

/-- Settles O28: a word that agrees, one of the first four differences, and the fifth, which is a skew. -/
theorem stateShadow : Obligations.StateShadow := by
  unfold Obligations.StateShadow
  refine ⟨?_, ?_⟩
  · rintro s ch w x rfl
    refine ⟨fun hw => ?_, fun hw hrun => ?_, ?_⟩
    · simp only [State.compareShadow, hw, if_true, State.modCore, vmod_self]
    · simp only [State.compareShadow, hw, if_false, show (s.core.shadow[ch.die.val])[ch.c.val].run + 1 < 5 by omega, if_true,
        State.modCore, vmod_self, and_self]
    · rintro hw hrun n rfl
      have hskew : s.compareShadow ch w = s.stateSkew ch w := by
        simp only [State.compareShadow, hw, if_false, show ¬(s.core.shadow[ch.die.val])[ch.c.val].run + 1 < 5 by omega]
      rw [hskew]
      refine ⟨?_, ?_, stateSkew_levels_of_few w, fun hmany => ⟨stateSkew_dies hmany, ?_, fun c e hne => ?_⟩⟩
      · simp only [stateSkew_core, vmod_self]
      · simp only [stateSkew_core, vmod_self]
      · simp only [stateSkew_levels_of_many w hmany, vmod_self]
      · rw [stateSkew_levels_of_many w hmany]
        by_cases hd : ch.die.val = e.val
        · have hc : ch.c.val ≠ c.val := fun hc => hne (by rw [Fin.ext hc, Fin.ext hd])
          rw [vmod_at, if_pos hd, vmod_ne _ _ _ _ _ hc]
        · rw [vmod_ne _ _ _ _ _ hd]
  · rintro s d k t hlink rfl
    have hexec : exec (.statusReceive s.active d k) s = execStatusReceive s.active d k s := rfl
    rw [hexec, execStatusReceive]
    simp only [hlink, if_true]

end Sys2Proof
end

section
namespace Sys2Proof
open Machine

/-! ### A buffered frame to a die (R18, R20 to R22) -/

section
variable {s : State} {h : HubId} {d : DieId} {x : DownItem}

theorem sendDown_blocked (w : Dword) (f : State → State)
    (hno : s.carries h d x = false ∨ (s.lane h d).down.canSend = false ∨ (s.lane h d).mayGo s.clk.elapsed x = false) :
    s.sendDown h d x w f = s := by
  unfold State.sendDown
  rcases hno with hno | hno | hno <;> simp [hno]

theorem sendDown_stray (w : Dword) (f : State → State) (hcar : s.carries h d x = true) (hcan : (s.lane h d).down.canSend = true)
    (hmay : (s.lane h d).mayGo s.clk.elapsed x = true) (hseq : (s.lane h d).down.inSeq = false) :
    s.sendDown h d x w f = s.strayDown h d x w := by
  simp [State.sendDown, hcar, hcan, hmay, hseq]

theorem sendDown_passed (w : Dword) (f : State → State) (hcar : s.carries h d x = true) (hcan : (s.lane h d).down.canSend = true)
    (hmay : (s.lane h d).mayGo s.clk.elapsed x = true) (hseq : (s.lane h d).down.inSeq = true) :
    s.sendDown h d x w f = f (s.bufferedDown h d x w) := by
  simp [State.sendDown, hcar, hcan, hmay, hseq]
end

/-- A frame that arrives in order changes the lane's books and the frames that the die keeps (R22, R283). -/
theorem bufferedDown_frame (s : State) (h : HubId) (d : DieId) (x : DownItem) (w : Dword) :
    s.bufferedDown h d x w = { s with hubs := (s.bufferedDown h d x w).hubs, dies := (s.bufferedDown h d x w).dies } ∧
      (∀ e, e ≠ d → (s.bufferedDown h d x w).die e = s.die e) ∧
      (s.bufferedDown h d x w).die d = { s.die d with heldFrames := ((s.bufferedDown h d x w).die d).heldFrames } := by
  obtain ⟨-, hother, hdie⟩ := creditDown_frame (s.modLane h d fun l => (l.ackedDown x s.clk.elapsed).passDown x.type.code w) h d
    (s.lane h d).up.creditNow
  exact ⟨rfl, hother, hdie⟩

theorem lane_bufferedDown (s : State) (h : HubId) (d : DieId) (x : DownItem) (w : Dword) :
    (s.bufferedDown h d x w).lane h d = ((s.lane h d).ackedDown x s.clk.elapsed).passDown x.type.code w := by
  exact lane_modLane ..

/-! ### Promotion (R20, R69, R282, R283) -/

/-- An entry that is changed without its identity keeps its place in the store. -/
theorem entry_modEntry {c : Core} {id : Nat} {e : Entry} (f : Entry → Entry) (he : c.entry id = some e) (hf : ∀ x, (f x).id = x.id) :
    (c.modEntry id f).entry id = some (f e) := by
  have hid : e.id = id := by simpa using List.find?_some he
  have hkeep : ((fun x : Entry => x.id == id) ∘ fun x => if x.id = id then f x else x) = fun x => x.id == id := by
    funext x
    by_cases hx : x.id = id <;> simp [hx, hf]
  have hfind : c.entries.find? (fun x => x.id == id) = some e := he
  simp only [Core.entry, Core.modEntry, List.find?_map, hkeep, hfind, Option.map_some, hid, if_true]

/-- The books of a lane lie apart from what a hub is. -/
theorem hub_modLane (s : State) (h k : HubId) (d : DieId) (f : Lane → Lane) :
    (s.modLane h d f).hub k = { s.hub k with lanes := ((s.modLane h d f).hub k).lanes } := by
  by_cases hk : h = k
  · subst hk
    simp [State.modLane, Hub.modLane]
  · simp [State.modLane, State.hub_modHub_ne _ _ _ _ hk]

@[simp] theorem modLane_mirroring (s : State) (h : HubId) (d : DieId) (f : Lane → Lane) : (s.modLane h d f).mirroring = s.mirroring := by
  have hup (k : HubId) : ((s.modLane h d f).hub k).up = (s.hub k).up := by rw [hub_modLane]
  have hpresent (k : HubId) : ((s.modLane h d f).hub k).present = (s.hub k).present := by rw [hub_modLane]
  have hstate (k : HubId) : ((s.modLane h d f).hub k).hstate = (s.hub k).hstate := by rw [hub_modLane]
  simp only [State.mirroring, act_eq_hub, hup, hpresent, hstate, State.modLane_variant, State.modLane_active, State.modLane_mirror]

theorem modLane_modDie (s : State) (h : HubId) (d e : DieId) (f : Lane → Lane) (g : Die → Die) :
    (s.modDie e g).modLane h d f = (s.modLane h d f).modDie e g := rfl

/-- No due entry of the die goes before the first one (R20). -/
theorem all_of_first {s : State} {e : Entry}
    (h : ∀ x ∈ s.core.entries, x.ch.die = e.ch.die → s.promoDue x = true → x.goesBefore e = false) :
    (s.core.entries.all fun x => !(decide (x.ch.die = e.ch.die) && s.promoDue x && x.goesBefore e)) = true := by
  rw [List.all_eq_true]
  intro x hx
  by_cases hd : x.ch.die = e.ch.die
  · cases hdue : s.promoDue x with
    | false => simp
    | true => simp [h x hx hd hdue]
  · simp [hd]

@[simp] theorem modCoreOf_dies (s : State) (h : HubId) (f : Core → Core) : (s.modCoreOf h f).dies = s.dies := by
  unfold State.modCoreOf
  split <;> rfl

theorem die_modCoreOf (s : State) (h : HubId) (f : Core → Core) (d : DieId) : (s.modCoreOf h f).die d = s.die d := by
  simp only [State.die, modCoreOf_dies]

/-- A commit makes a unit and leaves what waits for one (R282). -/
theorem held_commit (s t : State) : (State.commit s t).mirror.held = t.mirror.held := by
  simp only [State.commit]
  split <;> rfl

theorem lane_commit (s t : State) (h : HubId) (d : DieId) : (State.commit s t).lane h d = t.lane h d := rfl

/-! What waits for a unit changes nothing else (R282). -/

theorem hold_frame (s : State) (a : HeldBack) : s.hold a = { s with mirror := (s.hold a).mirror } := by
  unfold State.hold
  split <;> rfl
@[simp] theorem hold_core (s : State) (a : HeldBack) : (s.hold a).core = s.core := by rw [hold_frame]
@[simp] theorem die_hold (s : State) (a : HeldBack) (d : DieId) : (s.hold a).die d = s.die d := by
  rw [hold_frame]
  rfl
@[simp] theorem lane_hold (s : State) (a : HeldBack) (h : HubId) (d : DieId) : (s.hold a).lane h d = s.lane h d := by
  rw [hold_frame]
  rfl
theorem held_hold (s : State) (a : HeldBack) (h : s.mirroring = true) :
    (s.hold a).mirror.held = s.mirror.held ++ [(s.mirror.committed + 1, a)] := by
  rw [hold_of_mirroring s a h]

/-- Settles O29: the begin of a promotion by what it waits for, and the arrival of a frame by the lane and the lease. -/
theorem promotion : Obligations.Promotion := by
  unfold Obligations.Promotion
  have hexec (id : Nat) (s : State) : exec (.promotionBegin id) s = execPromotionBegin id s := rfl
  have hframe (h : HubId) (d : DieId) (s : State) : exec (.promotionFrameReceive h d) s = execPromotionFrameReceive h d s := rfl
  simp only [hexec, hframe]
  refine ⟨fun s id e he => ⟨fun hdue hfirst hmay hm => ?_, fun hdue hfirst hmay hm => ?_, fun hno => ?_, fun hno => ?_,
    fun x hx hd hdue hbefore => ?_⟩, fun s id he => ?_, fun s h d => ⟨fun hno => ?_, fun id n hnext => ⟨fun hno => ?_,
    fun hcar hcan hgo hseq => ?_⟩, ?_⟩⟩
  · have hall : (s.core.entries.all fun x => !(decide (x.ch.die = e.ch.die) && s.promoDue x && x.goesBefore e)) = true :=
      all_of_first hfirst
    simp only [execPromotionBegin, he, hdue, hmay, hall, hm, Bool.and_self, Bool.false_eq_true, if_false, if_true]
    rw [modLane_modDie, modLane_modLane]
    rfl
  · have hall : (s.core.entries.all fun x => !(decide (x.ch.die = e.ch.die) && s.promoDue x && x.goesBefore e)) = true :=
      all_of_first hfirst
    simp only [execPromotionBegin, he, hdue, hmay, hall, hm, Bool.and_self, if_true]
    refine ⟨_, rfl, ?_, ?_, ?_, ?_, ?_⟩
    · rw [State.commit_core, hold_core]
      exact entry_modEntry _ he fun _ => rfl
    · rw [State.commit_core, hold_core]
      rfl
    · rw [State.die_commit, die_hold, State.die_modDie]
      rfl
    · rw [lane_commit, lane_hold, lane_modDie, lane_modLane]
      rfl
    · rw [held_commit, held_hold]
      · rfl
      · exact (modLane_mirroring ..).trans hm
  · simp only [execPromotionBegin, he, hno, Bool.false_and, Bool.false_eq_true, if_false]
  · simp only [execPromotionBegin, he, hno, Bool.false_and, Bool.and_false, Bool.false_eq_true, if_false]
  · have hall : (s.core.entries.all fun x => !(decide (x.ch.die = e.ch.die) && s.promoDue x && x.goesBefore e)) = false := by
      rw [List.all_eq_false]
      exact ⟨x, hx, by simp [hd, hdue, hbefore]⟩
    simp only [execPromotionBegin, he, hall, Bool.and_false, Bool.false_eq_true, if_false]
  · simp only [execPromotionBegin, he]
  · simp only [execPromotionFrameReceive, hno]
  · simp only [execPromotionFrameReceive, hnext, sendDown_blocked _ _ hno]
  · simp only [execPromotionFrameReceive, hnext, sendDown_stray _ _ hcar hcan hgo hseq]
  · rintro id n t hnext hcar hcan hgo hseq rfl
    simp only [execPromotionFrameReceive, hnext, sendDown_passed _ _ hcar hcan hgo hseq]
    obtain ⟨hrest, hother, hdie⟩ := bufferedDown_frame s h d (.promo id n) (s.promoPayload h id n)
    have hholder : ((s.bufferedDown h d (.promo id n) (s.promoPayload h id n)).die d).holder = (s.die d).holder := by rw [hdie]
    refine ⟨fun hres hag => ?_, fun hne => ?_, fun heq hn => ?_, fun heq hn e he hph => ?_⟩
    · rw [lane_bufferedDown]
      simp only [Lane.passDown, Lane.ackedDown, leftDown_promo _ _ _ _ hres hag]
    · simp only [State.takePromo, hholder, hne, ne_eq, not_false_eq_true, if_true]
      rfl
    · simp only [State.takePromo, hholder, heq, hn, ne_eq, not_true_eq_false, if_true, if_false]
    · have hentry : ((s.bufferedDown h d (.promo id n) (s.promoPayload h id n)).coreOf h).entry id = some e := he
      have hlast : ¬1 < n := by omega
      have hkept : (some e).filter (fun x => x.phase == .promoting) = some e := by simp [hph]
      simp only [State.takePromo, hholder, heq, hlast, hentry, hkept, ne_eq, not_true_eq_false, if_false]
      refine ⟨_, rfl, ?_⟩
      have hu (k : DieId) : (State.commit s (((s.bufferedDown h d (.promo id n) (s.promoPayload h id n)).modDie d
          (·.enqueue (some e))).modCoreOf h (·.modEntry id fun e => if e.phase = .promoting then { e with phase := .queued } else e))).die k =
          ((s.bufferedDown h d (.promo id n) (s.promoPayload h id n)).modDie d (·.enqueue (some e))).die k := die_modCoreOf ..
      rw [hu, State.die_modDie, hdie]
      exact ⟨rfl, rfl, rfl, rfl, rfl, rfl, fun k hk => (hu k).trans ((State.die_modDie_ne _ _ _ _ (Ne.symm hk)).trans (hother k hk))⟩

end Sys2Proof
end

section
namespace Sys2Proof
open Machine

/-! ### Management frames (R16, R20, R21, R26) -/

/-- From a register access on, 31 slots count on the lane (R20). -/
theorem leftDown_access_mgmtDownAt (l : Lane) (m : Option MgmtReq) (elapsed : Nat) : (l.leftDown (.access m) elapsed).mgmtDownAt = elapsed := by
  cases hr : l.down.resend with
  | cons q qs => simp only [Lane.leftDown, hr]
  | nil =>
    cases ha : l.again with
    | cons y ys => simp only [Lane.leftDown, hr, ha]
    | nil => simp only [Lane.leftDown, hr, ha]

theorem sendUp_stray {s : State} {h : HubId} {d : DieId} (x : LaneItem) (f : State → State) (hseq : (s.lane h d).up.inSeq = false) :
    s.sendUp h d x f = s.strayUp h d x := by
  simp only [State.sendUp, hseq, Bool.false_eq_true, if_false]
theorem sendUp_inSeq {s : State} {h : HubId} {d : DieId} (x : LaneItem) (f : State → State) (hseq : (s.lane h d).up.inSeq = true) :
    s.sendUp h d x f = State.commit s (f (s.takeUp h d x)) := by
  simp only [State.sendUp, hseq, if_true]

/-- Settles O30: the request by the lane, the lease and the page; the response by the frame that comes next. -/
theorem managementFrames : Obligations.ManagementFrames := by
  unfold Obligations.ManagementFrames
  intro s h d
  have hexec (m : MgmtReq) : exec (.managementRequestReceive h d m) s = execManagementRequestReceive h d m s := rfl
  have hresp : exec (.managementResponseReceive h d) s = execManagementResponseReceive h d s := rfl
  simp only [hexec, hresp]
  refine ⟨fun m => ⟨fun hno => ?_, fun hcar hcan hgo => ⟨fun hseq => ?_, fun hseq t ht => ?_⟩⟩, fun hno => ?_,
    fun p o wr w hnext => ⟨fun hseq => ?_, fun hseq t ht => ?_⟩⟩
  · rw [execManagementRequestReceive, sendDown_blocked _ _ hno]
  · rw [execManagementRequestReceive, sendDown_stray _ _ hcar hcan hgo hseq]
  · rw [execManagementRequestReceive, sendDown_passed _ _ hcar hcan hgo hseq, ← ht]
    have hholder : (t.die d).holder = (s.die d).holder := by
      rw [ht, (bufferedDown_frame ..).2.2]
    refine ⟨?_, fun hne => ?_, fun heq => ⟨fun x => ⟨fun hw => ?_, fun hr u w huw => ?_⟩, fun hx => ?_⟩⟩
    · rw [ht, lane_bufferedDown]
      exact leftDown_access_mgmtDownAt ..
    · simp only [State.takeAccess, hholder, hne, ne_eq, not_false_eq_true, if_true]
      rfl
    · simp only [State.takeAccess, hholder, heq, ne_eq, not_true_eq_false, if_false, State.dieAccess, x, hw, dif_pos, if_true]
      rfl
    · simp only [State.takeAccess, hholder, heq, ne_eq, not_true_eq_false, if_false, State.dieAccess, x, hr, dif_pos,
        Bool.false_eq_true, ← huw]
      rfl
    · simp only [State.takeAccess, hholder, heq, ne_eq, not_true_eq_false, if_false, State.dieAccess, Nat.not_lt.mpr hx, dif_neg,
        not_false_eq_true]
      rfl
  · unfold execManagementResponseReceive
    split
    · next g page off wr w hnext =>
      have hg : g ≠ h := fun hg => hno page off wr w (hg ▸ hnext)
      simp only [hg, if_false]
    · rfl
  · simp only [execManagementResponseReceive, hnext, if_true, sendUp_stray _ _ hseq]
  · simp only [execManagementResponseReceive, hnext, if_true, sendUp_inSeq _ _ hseq, ← ht]
    refine ⟨fun hact hw => ?_, fun hact hr => ?_, fun hact => ?_⟩
    · simp only [hact, hw, if_true]
    · simp only [hact, hr, if_true, Bool.false_eq_true, if_false]
    · simp only [hact, if_false]

/-! ### Result, Capture, Angle tag and Event frames (R33, R80, R221, R300) -/

/-- A frame that arrives at a hub leaves its die, and at the active hub it counts as taken (R283). -/
theorem takeUp_die (s : State) (h : HubId) (d : DieId) (x : LaneItem) :
    (s.takeUp h d x).die d = (s.die d).sentUp (s.grantFor h d) (s.mgmtUpDue h d) := by
  unfold State.takeUp
  split
  · rw [die_hold, die_modCoreOf, die_modLane, State.die_modDie]
  · rw [die_modCoreOf, die_modLane, State.die_modDie]
theorem takeUp_taken {s : State} {h : HubId} (d : DieId) (x : LaneItem) (hact : h = s.active) :
    (s.takeUp h d x).core.taken[d.val] = (s.core.taken[d.val] + 1) % 65536 := by
  have hcopied (t : State) (f : Core → Core) (ha : t.active = s.active) : (t.modCoreOf s.active f).core = f t.core := by
    simp only [State.modCoreOf, ha, if_true]
  subst hact
  rw [State.takeUp, if_pos rfl, hold_core, hcopied]
  · exact vmod_self ..
  · rfl

/-- Settles O31: each row by the frame that comes next, and by whether it arrives in order. -/
theorem framesOfADie : Obligations.FramesOfADie := by
  unfold Obligations.FramesOfADie
  have hres (d : DieId) (s : State) : exec (.resultFrameReceive d) s = execResultFrameReceive d s := rfl
  have hcap (d : DieId) (s : State) : exec (.captureFrameReceive d) s = execCaptureFrameReceive d s := rfl
  have hang (d : DieId) (s : State) : exec (.angleTagFrameReceive d) s = execAngleTagFrameReceive d s := rfl
  have hev (d : DieId) (s : State) : exec (.eventFrameReceive d) s = execEventFrameReceive d s := rfl
  refine ⟨fun s d => ⟨fun hno => ?_, ?_, fun h x hnext hseq u hu => ?_⟩, fun c id y st r a q hy => ?_⟩
  · simp only [hres, hcap, hang, hev, execResultFrameReceive, execCaptureFrameReceive, execAngleTagFrameReceive,
      execEventFrameReceive, hno, and_self]
  · rintro h x hnext c (⟨rfl, id, ws, st, q, n, z, rfl⟩ | ⟨rfl, id, v, low, r, q, a, rfl⟩ | ⟨rfl, id, ws, st, q, n, rfl⟩ |
      ⟨rfl, r, rfl⟩) hseq
    · simp only [hres, execResultFrameReceive, hnext, sendUp_stray _ _ hseq]
    · simp only [hcap, execCaptureFrameReceive, hnext, sendUp_stray _ _ hseq]
    · simp only [hang, execAngleTagFrameReceive, hnext, sendUp_stray _ _ hseq]
    · simp only [hev, execEventFrameReceive, hnext, sendUp_stray _ _ hseq]
  · refine ⟨by rw [hu, takeUp_die], fun hact => by rw [hu, takeUp_taken d x hact], ?_, ?_, ?_, ?_, ?_⟩
    · rintro id ws st q n z rfl
      simp only [hres, execResultFrameReceive, hnext, sendUp_inSeq _ _ hseq, ← hu]
    · rintro id v low r q a rfl
      simp only [hcap, execCaptureFrameReceive, hnext, sendUp_inSeq _ _ hseq, ← hu]
    · rintro id ws st q n rfl
      simp only [hang, execAngleTagFrameReceive, hnext, sendUp_inSeq _ _ hseq, ← hu]
    · rintro r rfl hact
      simp only [hev, execEventFrameReceive, hnext, sendUp_inSeq _ _ hseq, ← hu, if_pos hact]
    · rintro r rfl hact
      simp only [hev, execEventFrameReceive, hnext, sendUp_inSeq _ _ hseq, ← hu, hact, if_false]
  · simp only [Core.putCapture, hy]

end Sys2Proof
end

section
namespace Sys2Proof
open Machine

/-! ### The books of a link -/

@[simp] theorem link_modLink (s : State) (l : Link) (f : Lane → Lane) : (s.modLink l f).link l = f (s.link l) := by
  cases l with
  | lane h d => exact lane_modLane ..
  | string => rfl
@[simp] theorem modLink_core (s : State) (l : Link) (f : Lane → Lane) : (s.modLink l f).core = s.core := by cases l <;> rfl
@[simp] theorem modLink_clk (s : State) (l : Link) (f : Lane → Lane) : (s.modLink l f).clk = s.clk := by cases l <;> rfl
@[simp] theorem modLink_power (s : State) (l : Link) (f : Lane → Lane) : (s.modLink l f).power = s.power := by cases l <;> rfl

theorem lane_modLane_ne (s : State) {h k : HubId} {d e : DieId} (f : Lane → Lane) (hne : (k, e) ≠ (h, d)) :
    (s.modLane h d f).lane k e = s.lane k e := by
  by_cases hk : h = k
  · subst hk
    have hd : d.val ≠ e.val := fun hd => hne (by rw [Fin.ext hd])
    simp [State.modLane, State.lane, Hub.modLane, vmod_ne _ _ _ _ _ hd]
  · simp [State.modLane, State.lane, State.hub_modHub_ne _ _ _ _ hk]

theorem consume_of_places {f : Flow} (h : f.places ≠ 0) :
    f.consume = { f with places := f.places - 1, toReturn := f.toReturn + 1 } := by
  simp only [Flow.consume, h, if_false]

/-- A Replay request on the String or a lane returns places to its sender and names the SEQ from which it resends (R16, R22). -/
theorem replayOn_up (s : State) (l : Link) (q : Nat) :
    ((s.replayOn l .up q).link l).up = (s.link l).up.credit.replayFrom q ∧ ((s.replayOn l .up q).link l).st = (s.link l).st ∧
      (s.replayOn l .up q).core = s.core ∧ (s.replayOn l .up q).clk = s.clk ∧ (s.replayOn l .up q).power = s.power := by
  cases l with
  | lane h d =>
    have hlane : ((s.replayOn (.lane h d) .up q).link (.lane h d)) =
        (fun x : Lane => { x with up := x.up.replayFrom q }) ((s.lane h d).gotDown FrameType.replayRequest.code (replayPayload q)) := by
      refine (lane_modLane ..).trans ?_
      exact congrArg (fun x : Lane => { x with up := x.up.replayFrom q }) (lane_modLane s h d _)
    rw [hlane]
    exact ⟨rfl, rfl, rfl, rfl, rfl⟩
  | string => exact ⟨rfl, rfl, rfl, rfl, rfl⟩

theorem countFail_up (s : State) (h : HubId) (d : DieId) (b : Bool) : s.countFail (.lane h d) .up b = s.modLane h d fun x => { x with
    crc := satTo 0xFFFF (x.crc + 1), replays := if b then satTo 0xFF (x.replays + 1) else x.replays } := by
  cases b <;> rfl

/-- Credit, errors and replay, on a lane and on the String (R18, R19, R22, R23, R282, R298). -/
theorem creditAndReplay (s : State) (l : Link) (htr : (s.link l).st = .trained) :
    exec (.frameCrcFail l .down false) s = .next ((s.countFail l .down false).modLink l fun x => { x with
      down := { x.down with crcRun := x.down.crcRun + 1 } }) ∧
    exec (.frameCrcFail l .up false) s = .next ((s.countFail l .up false).modLink l fun x => { x with
      up := { x.up with crcRun := x.up.crcRun + 1 } }) ∧
    (∀ dir, s.hasFrame l dir = false → exec (.frameCrcFail l dir true) s = .next s) ∧
    (s.hasFrame l .down = true → ∀ t, t = s.loseFrame l .down →
      exec (.frameCrcFail l .down true) s = .next ((t.countFail l .down true).modLink l fun x => { x with
        down := { x.down.lose with replay := some x.down.expect, crcRun := x.down.crcRun + 1 } })) ∧
    (s.hasFrame l .up = true → ∀ t, t = s.loseFrame l .up →
      exec (.frameCrcFail l .up true) s = .next ((t.countFail l .up true).modLink l fun x => { x with
        up := { x.up.lose with replay := some x.up.expect, crcRun := x.up.crcRun + 1 } })) := by
  have hexec (dir : Dir) (b : Bool) : exec (.frameCrcFail l dir b) s = execFrameCrcFail l dir b s := rfl
  simp only [hexec, execFrameCrcFail, htr, true_and, Bool.false_eq_true, false_imp_iff, if_true, if_false, true_imp_iff]
  refine ⟨rfl, rfl, fun dir hno => ?_, fun hhas t ht => ?_, fun hhas t ht => ?_⟩
  · simp only [hno, Bool.false_eq_true, if_false]
  · simp only [hhas, if_true, ← ht]
    rfl
  · simp only [hhas, if_true, ← ht]
    rfl

@[simp] theorem lane_modHub_of_lanes (s : State) (h k : HubId) (d : DieId) (f : Hub → Hub) (hf : ∀ x, (f x).lanes = x.lanes) :
    (s.modHub h f).lane k d = s.lane k d := by
  by_cases hk : h = k
  · subst hk
    simp [State.lane, hf]
  · simp [State.lane, State.hub_modHub_ne _ _ _ _ hk]

/-- A retrain of a lane is the die's safe states with cause LANE_CRC (R23, R105). -/
theorem laneCrcRun_of_ran {s : State} {h : HubId} {d : DieId} (hran : (s.lane h d).crcRan = true) :
    exec (.laneCrcRun h (some d)) s = .next ((s.modLane h d Lane.retrainNow).modDie d fun k =>
      if k.present then k.setCauses d (s.dq d) 1 allC else k) := by
  have hexec : exec (.laneCrcRun h (some d)) s = execLaneCrcRun h (some d) s := rfl
  simp only [hexec, execLaneCrcRun, hran, if_true]
theorem crcRan_iff (l : Lane) : l.crcRan = true ↔ l.st = .trained ∧ (16 ≤ l.down.crcRun ∨ 16 ≤ l.up.crcRun) := by
  simp [Lane.crcRan]
theorem crcRan_false_iff (l : Lane) : l.crcRan = false ↔ l.st ≠ .trained ∨ (l.down.crcRun < 16 ∧ l.up.crcRun < 16) := by
  rw [← Bool.not_eq_true, crcRan_iff]
  grind

/-- Where training may complete on a lane (R23, R24). -/
theorem trainingComplete_blocked {s : State} {h : HubId} {d : DieId} {v a b : Nat}
    (hno : (s.lane h d).st = .trained ∨ (s.hub h).present = false ∨ (s.hub h).up = false ∨ (s.die d).laneOn = false ∨
      v ≠ s.agreed h d ∨ a ≠ (s.lane h d).down.places ∨ b ≠ (s.lane h d).up.places) :
    exec (.trainingComplete (.lane h d) v a b) s = .next s := by
  have hexec : exec (.trainingComplete (.lane h d) v a b) s = execTrainingComplete (.lane h d) v a b s := rfl
  rw [hexec, execTrainingComplete]
  rcases hno with hno | hno | hno | hno | hno | hno | hno <;> simp [State.link, hno]
theorem trainingComplete_lane {s : State} {h : HubId} {d : DieId} (hst : (s.lane h d).st ≠ .trained) (hpres : (s.hub h).present = true)
    (hup : (s.hub h).up = true) (hon : (s.die d).laneOn = true) :
    exec (.trainingComplete (.lane h d) (s.agreed h d) (s.lane h d).down.places (s.lane h d).up.places) s =
      .next ((s.modLane h d (·.trainedAt (s.agreed h d))).modDie d fun k =>
        if k.holder = some h then { k with heldFrames := k.heldFrames.drop (k.heldFrames.length - (s.lane h d).up.places) } else k) := by
  have hexec (v a b : Nat) : exec (.trainingComplete (.lane h d) v a b) s = execTrainingComplete (.lane h d) v a b s := rfl
  simp only [hexec, execTrainingComplete, State.link, hst, ne_eq, not_true_eq_false, or_self, if_false, beq_self_eq_true, hpres, hup, hon,
    Bool.and_self, if_true]

/-- Both hubs count the same fault of the String (R298). -/
theorem hub_countStr_both (s : State) (f : LinkErr → LinkErr) (k : HubId) :
    (((s.countStr 0 f).countStr 1 f).hub k).strErr = f (s.hub k).strErr := by
  unfold State.countStr
  revert k
  refine Fin.forall_fin_two.2 ⟨?_, ?_⟩
  · rw [State.hub_modHub_ne _ _ _ _ (by decide), State.hub_modHub]
  · rw [State.hub_modHub, State.hub_modHub_ne _ _ _ _ (by decide)]

theorem retryDue_iff (l : Lane) (e : Nat) : l.retryDue e = true ↔ l.st = .failed ∧ l.failAt + 10 * ms ≤ e := by
  simp [Lane.retryDue]

/-- Settles O32: each row by the state of its link. -/
theorem laneCreditsAndTraining : Obligations.LaneCreditsAndTraining := by
  unfold Obligations.LaneCreditsAndTraining
  refine ⟨⟨fun s h d => ?_, fun f => ⟨fun h0 => ?_, fun h0 => consume_of_places h0⟩, fun s l => ⟨fun hst => ?_, fun htr => ?_, fun g q => rfl⟩⟩,
    fun s h d => ?_, fun s h => ?_⟩
  · have hexec (l : Link) (dir : Dir) : exec (.frameConsume l dir) s = execFrameConsume l dir s := rfl
    simp only [hexec]
    refine ⟨rfl, fun hlt => ?_, fun hle => ?_, rfl, rfl⟩
    · simp only [execFrameConsume, if_pos hlt]
    · simp only [execFrameConsume, if_neg (Nat.not_lt.mpr hle)]
  · simp only [Flow.consume, h0, if_true]
  · have hexec (dir : Dir) (b : Bool) : exec (.frameCrcFail l dir b) s = execFrameCrcFail l dir b s := rfl
    have hreplay (dir : Dir) (q : Fin 16) : exec (.replayRequestReceive l dir q) s = execReplayRequestReceive l dir q s := rfl
    simp only [hexec, hreplay, execFrameCrcFail, execReplayRequestReceive, hst, false_and, if_false, implies_true, and_self]
  · have hreplay (dir : Dir) (q : Fin 16) : exec (.replayRequestReceive l dir q) s = execReplayRequestReceive l dir q s := rfl
    obtain ⟨hdown, hup, hnone, hlostDown, hlostUp⟩ := creditAndReplay s l htr
    refine ⟨hdown, hup, hnone, fun hhas t ht => hlostDown hhas t ?_, fun hhas t ht => hlostUp hhas t ?_,
      fun h d b => ⟨rfl, countFail_up s h d b⟩, fun b => ⟨rfl, rfl⟩, fun hasks dir q => ?_, fun h d => ?_, fun q hne => ?_, fun q hne => ?_,
      fun q hasks heq => ?_, fun q hasks heq => ?_⟩
    · cases l <;> exact ht
    · cases l <;> exact ht
    · simp only [hreplay, execReplayRequestReceive, hasks, Bool.false_eq_true, false_and, and_false, if_false]
    · simp [State.asksAgain]
    · simp only [hreplay, execReplayRequestReceive, Lane.flow, hne, and_false, if_false]
    · simp only [hreplay, execReplayRequestReceive, Lane.flow, hne, and_false, if_false]
    · simp only [hreplay, execReplayRequestReceive, Lane.flow, htr, hasks, heq, and_self, if_true]
      rfl
    · simp only [hreplay, execReplayRequestReceive, Lane.flow, htr, hasks, heq, and_self, if_true]
      obtain ⟨hflow, hst, hcore, hclk, hpower⟩ := replayOn_up s l q
      exact ⟨_, rfl, hflow, hst.trans htr, hcore, hclk, hpower⟩
  · have hfailed : exec (.laneFailed h d) s = execLaneFailed h d s := rfl
    have hretry : exec (.laneTrainingRetry h (some d)) s = execLaneTrainingRetry h (some d) s := rfl
    have hidle : exec (.idleFrameReceive h (some d)) s = execIdleFrameReceive h (some d) s := rfl
    have hcrc : exec (.laneCrcRun h (some d)) s = execLaneCrcRun h (some d) s := rfl
    refine ⟨fun htr hrun => ⟨_, laneCrcRun_of_ran ((crcRan_iff _).2 ⟨htr, hrun⟩), ?_⟩, fun hno => ?_,
      fun v a b hno => trainingComplete_blocked hno, fun hst hpres hup hon => ⟨_, trainingComplete_lane hst hpres hup hon, ?_⟩,
      fun hst hthree => ?_, fun hst hthree hup hpres t ht => ?_, fun hst => ?_, fun hst hup hdue => ?_, fun hno => ?_,
      fun hlink w hw => ?_, fun hlink => ?_⟩
    · simp only [lane_modDie, lane_modLane, State.die_modDie, die_modLane, Lane.retrainNow, true_and]
      exact ⟨rfl, fun e he => State.die_modDie_ne _ _ _ _ (Ne.symm he), rfl⟩
    · simp only [hcrc, execLaneCrcRun, (crcRan_false_iff _).2 hno, Bool.false_eq_true, if_false]
    · simp only [lane_modDie, lane_modLane, State.die_modDie, die_modLane, Lane.trainedAt, Flow.trained, true_and]
      refine ⟨fun k e hne => lane_modLane_ne s _ hne, rfl, ?_⟩
      by_cases hh : (s.die d).holder = some h <;> simp only [hh, if_true, if_false]
    · simp only [hfailed, execLaneFailed, hst, hthree, decide_true, beq_self_eq_true, Bool.and_self, if_true]
    · have hlow : ¬3 ≤ (s.lane h d).failRun := Nat.not_le.mpr hthree
      have hholder : (t.die d).holder = (s.die d).holder := by rw [ht]; rfl
      have hredun : t.core.redun = s.core.redun := by rw [ht]; rfl
      simp only [hfailed, execLaneFailed, hst, hlow, hup, hpres, decide_false, beq_self_eq_true, Bool.and_self, Bool.and_false,
        Bool.false_eq_true, if_true, if_false, ← ht, hholder, hredun]
      refine ⟨fun hact => ?_, fun hact hlease hswitch hother => ?_, fun hact hno => ?_⟩
      · simp only [hact, if_false]
      · simp only [if_pos hact, hlease, hswitch, hother, if_true, beq_self_eq_true, Bool.and_self]
      · have hoff : ((s.die d).holder == some h && s.core.redun.laneSwitch && (s.lane (other h) d).st == LaneState.trained) = false := by
          rcases hno with hno | hno | hno <;> simp [hno]
        simp only [if_pos hact, hoff, Bool.false_eq_true, if_false]
    · have hne : ((s.lane h d).st == LaneState.training) = false := by simpa using hst
      simp only [hfailed, execLaneFailed, hne, Bool.false_and, Bool.false_eq_true, if_false]
    · simp only [hretry, execLaneTrainingRetry, hup, (retryDue_iff _ _).2 ⟨hst, hdue⟩, Bool.and_self, if_true]
    · have hoff : ((s.hub h).up && (s.lane h d).retryDue s.clk.elapsed) = false := by
        rw [← Bool.not_eq_true, Bool.and_eq_true, retryDue_iff]
        grind
      simp only [hretry, execLaneTrainingRetry, hoff, Bool.false_eq_true, if_false]
    · simp only [hidle, execIdleFrameReceive, hlink, if_true, ← hw]
    · simp only [hidle, execIdleFrameReceive, hlink, Bool.false_eq_true, if_false]
  · have hretry : exec (.laneTrainingRetry h none) s = execLaneTrainingRetry h none s := rfl
    have hidle : exec (.idleFrameReceive h none) s = execIdleFrameReceive h none s := rfl
    have hcrc : exec (.laneCrcRun h none) s = execLaneCrcRun h none s := rfl
    refine ⟨fun hran => ?_, fun hno => ?_, fun hdual hup hst hdue => ?_, fun hno => ?_, fun hon => ?_, fun hoff => ?_⟩
    · simp only [hcrc, execLaneCrcRun, (crcRan_iff _).2 hran, if_true]
      refine ⟨_, rfl, rfl, rfl, rfl, rfl, fun k => ?_⟩
      rw [hub_countStr_both]
      rfl
    · simp only [hcrc, execLaneCrcRun, (crcRan_false_iff _).2 hno, Bool.false_eq_true, if_false]
    · simp only [hretry, execLaneTrainingRetry, hdual, hup, (retryDue_iff _ _).2 ⟨hst, hdue⟩, Bool.and_self, if_true]
    · have hoff : (s.variant.dual && (s.hub h).up && s.mirror.str.retryDue s.clk.elapsed) = false := by
        rw [← Bool.not_eq_true, Bool.and_eq_true, Bool.and_eq_true, retryDue_iff]
        grind
      simp only [hretry, execLaneTrainingRetry, hoff, Bool.false_eq_true, if_false]
    · simp only [hidle, execIdleFrameReceive, hon, if_true]
      exact ⟨_, rfl⟩
    · simp only [hidle, execIdleFrameReceive, hoff, Bool.false_eq_true, if_false]

end Sys2Proof
end

section
namespace Sys2Proof
open Machine

/-! ### Lease messages (R284 to R287) -/

section
variable {s : State} {h : HubId} {d : DieId}

/-- The row of a lease message sends it where it is the one that leaves next. -/
theorem exec_renewReceive (hnext : (s.lane h d).nextLease = some .renew) : exec (.renewReceive h d) s =
    .next (s.sendDown h d (.lease .renew) (leasePayload h .renew) fun t => t.modDie d fun k =>
      if k.holder = some h then { k with renewAt := s.clk.elapsed, lossFrom := some s.clk.elapsed } else k.foreign) := by
  have hexec : exec (.renewReceive h d) s = execRenewReceive h d s := rfl
  simp only [hexec, execRenewReceive, hnext, State.sendLease]
theorem exec_claimReceive {n : Nat} (hnext : (s.lane h d).nextLease = some (.claim n)) : exec (.claimReceive h d) s =
    .next (s.sendDown h d (.lease (.claim n)) (leasePayload h (.claim n)) (·.takeClaim h d n)) := by
  have hexec : exec (.claimReceive h d) s = execClaimReceive h d s := rfl
  simp only [hexec, execClaimReceive, hnext, State.sendLease]
theorem exec_releaseReceive {n : Nat} (hnext : (s.lane h d).nextLease = some (.release n)) : exec (.releaseReceive h d) s =
    .next (s.sendDown h d (.lease (.release n)) (leasePayload h (.release n)) fun t => t.modDie d fun k =>
      if k.holder = some h then { k with holder := none } else k.foreign) := by
  have hexec : exec (.releaseReceive h d) s = execReleaseReceive h d s := rfl
  simp only [hexec, execReleaseReceive, hnext, State.sendLease]

theorem renewReceive_idle (hno : (s.lane h d).nextLease ≠ some .renew) : exec (.renewReceive h d) s = .next s := by
  have hexec : exec (.renewReceive h d) s = execRenewReceive h d s := rfl
  rw [hexec, execRenewReceive]
  split
  · next hn => exact absurd hn hno
  · rfl
theorem claimReceive_idle (hno : ∀ n, (s.lane h d).nextLease ≠ some (.claim n)) : exec (.claimReceive h d) s = .next s := by
  have hexec : exec (.claimReceive h d) s = execClaimReceive h d s := rfl
  rw [hexec, execClaimReceive]
  split
  · next n hn => exact absurd hn (hno n)
  · rfl
theorem releaseReceive_idle (hno : ∀ n, (s.lane h d).nextLease ≠ some (.release n)) : exec (.releaseReceive h d) s = .next s := by
  have hexec : exec (.releaseReceive h d) s = execReleaseReceive h d s := rfl
  rw [hexec, execReleaseReceive]
  split
  · next n hn => exact absurd hn (hno n)
  · rfl

/-- The row of a lease message is the message's own send, whichever it is. -/
theorem exec_of_lease {m : LeaseMsg} {c : Instr} (hnext : (s.lane h d).nextLease = some m)
    (hc : (m = .renew ∧ c = .renewReceive h d) ∨ ((∃ n, m = .claim n) ∧ c = .claimReceive h d) ∨
      ((∃ n, m = .release n) ∧ c = .releaseReceive h d)) :
    ∃ f, exec c s = .next (s.sendDown h d (.lease m) (leasePayload h m) f) := by
  rcases hc with ⟨rfl, rfl⟩ | ⟨⟨n, rfl⟩, rfl⟩ | ⟨⟨n, rfl⟩, rfl⟩
  · exact ⟨_, exec_renewReceive hnext⟩
  · exact ⟨_, exec_claimReceive hnext⟩
  · exact ⟨_, exec_releaseReceive hnext⟩
end

theorem other_ne (h : HubId) : other h ≠ h := by
  revert h
  decide

/-- A die that no hub holds lets nothing go at a frame of a hub (R283). -/
theorem die_bufferedDown_of_free {s : State} {h : HubId} {d : DieId} (x : DownItem) (w : Dword) (hh : (s.die d).holder = none) :
    (s.bufferedDown h d x w).die d = s.die d := by
  simp [State.bufferedDown, State.creditDown, hh]

/-- The entries whose promotions leave again at a new holder (R289). -/
theorem promo_resumePromotion (s : State) (h : HubId) (d : DieId) (n : Nat) :
    ((s.resumePromotion h d n).lane h d).promoIdx = (n + ((s.resumePromotion h d n).lane h d).promo.length) % 65536 ∧
      ∀ p ∈ ((s.resumePromotion h d n).lane h d).promo, p.2 = 4 ∧
        ∃ e ∈ (s.coreOf h).entries, e.id = p.1 ∧ e.ch.die = d ∧ e.repromoted n = true := by
  simp only [State.resumePromotion, lane_modDie, lane_modLane, List.length_map, true_and]
  intro p hp
  obtain ⟨e, he, rfl⟩ := List.mem_map.1 hp
  rw [List.mem_insertionSort, List.mem_filter] at he
  obtain ⟨hmem, hof⟩ := he
  rw [Bool.and_eq_true, decide_eq_true_eq] at hof
  exact ⟨rfl, e, hmem, rfl, hof⟩

/-- Settles O33: each message at the holder, at the other hub and at a free lease; the GRANT by the hub that it names. -/
theorem fieldLeases : Obligations.FieldLeases := by
  unfold Obligations.FieldLeases
  refine ⟨⟨fun s h => ?_, fun s h d => ?_⟩, fun s h d => ?_⟩
  · have hrenew : exec (.renewSend h) s = execRenewSend h s := rfl
    have hclaim : exec (.claimSend h) s = execClaimSend h s := rfl
    refine ⟨fun hr hm => ?_, fun hno => ?_, fun hc hm => ?_, fun hno => ?_⟩
    · have hne : ((s.hub h).renewMult != some (s.multiple h)) = true := bne_iff_ne.2 hm
      simp only [hrenew, execRenewSend, hr, hne, Bool.and_self, if_true]
    · rw [hrenew, execRenewSend]
      rcases hno with hno | hno <;> simp [hno]
    · have hne : ((s.hub h).claimMult != some (s.multiple h)) = true := bne_iff_ne.2 hm
      simp only [hclaim, execClaimSend, hc, hne, Bool.and_self, if_true]
    · rw [hclaim, execClaimSend]
      rcases hno with hno | hno <;> simp [hno]
  · refine ⟨?_, fun m c hnext hc => ?_, fun m t hnext hcar hgo hcan hseq ht => ?_, fun hh hp hle => ?_, fun hno => ?_⟩
    · rintro c (⟨rfl, hno⟩ | ⟨rfl, hno⟩ | ⟨rfl, hno⟩)
      · exact renewReceive_idle hno
      · exact claimReceive_idle hno
      · exact releaseReceive_idle hno
    · obtain ⟨f, hf⟩ := exec_of_lease hnext hc
      rw [hf]
      refine ⟨fun hno => ?_, fun hcar hgo hcan hseq => ?_⟩
      · rw [sendDown_blocked]
        tauto
      · rw [sendDown_stray _ _ hcar hcan hgo hseq]
    · have hholder : (t.die d).holder = (s.die d).holder := by rw [ht, (bufferedDown_frame ..).2.2]
      refine ⟨fun hres hag => ?_, ?_, ?_, ?_⟩
      · rw [ht, lane_bufferedDown]
        simp only [Lane.passDown, Lane.ackedDown, leftDown_lease _ _ _ hres hag, and_self]
      · rintro rfl
        rw [exec_renewReceive hnext, sendDown_passed _ _ hcar hcan hgo hseq, ← ht]
        refine ⟨fun hh => ?_, fun hh => ?_⟩
        · exact congrArg Host.Outcome.next (modDie_congr t d (if_pos (hholder.trans hh)))
        · exact congrArg Host.Outcome.next (modDie_congr t d (if_neg fun hx => hh (hholder.symm.trans hx)))
      · rintro n rfl
        rw [exec_releaseReceive hnext, sendDown_passed _ _ hcar hcan hgo hseq, ← ht]
        refine ⟨fun hh => ?_, fun hh => ?_⟩
        · exact congrArg Host.Outcome.next (modDie_congr t d (if_pos (hholder.trans hh)))
        · exact congrArg Host.Outcome.next (modDie_congr t d (if_neg fun hx => hh (hholder.symm.trans hx)))
      · rintro n rfl
        rw [exec_claimReceive hnext, sendDown_passed _ _ hcar hcan hgo hseq, ← ht]
        refine ⟨fun hh => ?_, fun hh => ?_, fun hh => ?_⟩
        · simp only [State.takeClaim, hholder, hh, if_true]
        · simp only [State.takeClaim, hholder, hh, other_ne h, if_false]
          rfl
        · simp only [State.takeClaim, hholder, hh]
          refine ⟨_, rfl, ?_⟩
          have hdie : t.die d = s.die d := by rw [ht, die_bufferedDown_of_free _ _ hh]
          simp only [State.die_modDie, die_modLane, lane_modDie, lane_modLane, Die.grant, hdie, true_and]
          have hclk : t.clk.elapsed = s.clk.elapsed := by
            rw [ht]
            rfl
          have hother (f : Lane → Lane) : (t.modLane (other h) d f).lane h d = t.lane h d :=
            lane_modLane_ne _ _ fun heq => other_ne h (congrArg Prod.fst heq).symm
          exact ⟨hclk, congrArg some hclk, congrArg Lane.lease (hother _), fun e he => (State.die_modDie_ne _ _ _ _ (Ne.symm he)).trans (by rw [ht]; exact (bufferedDown_frame ..).2.1 e he),
            by rw [ht]; rfl⟩
    · have hexec : exec (.leaseExpiry d) s = execLeaseExpiry d s := rfl
      have hout : ((s.die d).holder.isSome && (s.die d).pwr != .deepSleep && decide ((s.die d).renewAt + 200 * us ≤ s.clk.elapsed)) = true := by
        simp [Option.isSome_iff_ne_none, hh, hp, hle]
      exact hexec.trans (congrArg Host.Outcome.next (modDie_congr s d (if_pos hout)))
    · have hexec : exec (.leaseExpiry d) s = execLeaseExpiry d s := rfl
      have hin : ¬((s.die d).holder.isSome && (s.die d).pwr != .deepSleep && decide ((s.die d).renewAt + 200 * us ≤ s.clk.elapsed)) = true := by
        rcases hno with hno | hno | hno <;> simp [hno]
      exact hexec.trans (congrArg Host.Outcome.next (modDie_of_fixed s d (if_neg hin)))
  · have hgrant : exec (.grantReceive h d) s = execGrantReceive h d s := rfl
    refine ⟨fun g n hnext => ⟨fun hseq => ?_, fun hseq t ht => ⟨fun hg => ?_, fun hg => ?_⟩⟩, fun hno => ?_,
      fun n => promo_resumePromotion s h d n⟩
    · simp only [hgrant, execGrantReceive, hnext, if_true, sendUp_stray _ _ hseq]
    · subst hg
      simp only [hgrant, execGrantReceive, hnext, if_true, sendUp_inSeq _ _ hseq, ← ht]
      rfl
    · simp only [hgrant, execGrantReceive, hnext, if_true, sendUp_inSeq _ _ hseq, hg, if_false, ← ht]
    · rw [hgrant, execGrantReceive]
      split
      · next g named cnt hnext => rw [if_neg fun hgh => hno named cnt (hnext.trans (by rw [hgh]))]
      · rfl

end Sys2Proof
end

section
namespace Sys2Proof
open Machine

/-! ### Heartbeats and the loss of the active hub (R281, R291 to R293) -/

theorem hub_modHub_twice (s : State) {h k : HubId} (f g : Hub → Hub) (hne : k ≠ h) :
    (((s.modHub h f).modHub k g).hub h = f (s.hub h)) ∧ (((s.modHub h f).modHub k g).hub k = g (s.hub k)) := by
  rw [State.hub_modHub, State.hub_modHub_ne _ _ _ _ hne, State.hub_modHub, State.hub_modHub_ne _ _ _ _ hne.symm]
  exact ⟨rfl, rfl⟩

@[simp] theorem hub_gotStr (s : State) (h k : HubId) (n : Nat) (w : Dword) : (s.gotStr h n w).hub k = s.hub k := rfl

/-- What a heartbeat of the peer leaves (R281, R291). -/
theorem heartbeatReceive_spec {s : State} {h : HubId} {idx st ro : Nat} (hon : s.strung = true)
    (hsent : (s.hub (other h)).hbSent = some (idx, st, ro)) : ∃ t, exec (.heartbeatReceive h) s = .next t ∧
      t.hub h = { s.hub h with peer := (st, ro, idx), hbAt := s.clk.elapsed, hbTime := s.clk.now, hbMiss := 0 } ∧
      t.hub (other h) = { s.hub (other h) with
        hbSent := none
        nvLock := renewRole (s.hub (other h)).nvLock (ro / 2 % 2 == 1) s.clk.elapsed
        keyRole := renewRole (s.hub (other h)).keyRole (ro / 4 % 2 == 1) s.clk.elapsed } ∧
      t.dies = s.dies ∧ t.core = s.core := by
  have hexec : exec (.heartbeatReceive h) s = execHeartbeatReceive h s := rfl
  simp only [hexec, execHeartbeatReceive, hsent, hon, if_true]
  obtain ⟨hown, hpeer⟩ := hub_modHub_twice
    (s.gotStr (other h) StrType.heartbeat.code (heartbeatPayload idx st ro (s.hub (other h)).hbCount))
    (fun x => { x with peer := (st, ro, idx), hbAt := s.clk.elapsed, hbTime := s.clk.now, hbMiss := 0 })
    (fun x => { x with
      hbSent := none
      nvLock := renewRole x.nvLock (ro / 2 % 2 == 1) s.clk.elapsed
      keyRole := renewRole x.keyRole (ro / 4 % 2 == 1) s.clk.elapsed }) (other_ne h)
  exact ⟨_, rfl, hown, hpeer, rfl, rfl⟩

/-- Settles O34: each row by what the hubs have sent and missed. -/
theorem heartbeatsAndTakeover : Obligations.HeartbeatsAndTakeover := by
  unfold Obligations.HeartbeatsAndTakeover
  refine ⟨fun s h => ?_, ?_⟩
  · have hsend : exec (.heartbeatSend h) s = execHeartbeatSend h s := rfl
    have hrec : exec (.heartbeatReceive h) s = execHeartbeatReceive h s := rfl
    have hmiss : exec (.heartbeatMissed h) s = execHeartbeatMissed h s := rfl
    refine ⟨fun hon => ?_, fun hoff => ⟨?_, ?_⟩, fun hno => ?_, fun idx st ro hon hsent => ?_, ?_⟩
    · simp only [hsend, execHeartbeatSend, hon, if_true]
    · simp only [hsend, execHeartbeatSend, hoff, Bool.false_eq_true, if_false]
    · rw [hrec, execHeartbeatReceive]
      split
      · simp only [hoff, Bool.false_eq_true, if_false]
      · rfl
    · simp only [hrec, execHeartbeatReceive, hno]
    · obtain ⟨t, ht, hown, hpeer, hdies, hcore⟩ := heartbeatReceive_spec hon hsent
      exact ⟨t, ht, by rw [hown], by rw [hown], by rw [hown], by rw [hown], by rw [hpeer], by rw [hpeer], by rw [hpeer], hdies, hcore⟩
    · rintro due hdue
      have hbeat : (s.hub h).beatDue = due := hdue.symm
      refine ⟨fun hdual hpres hup hle => ?_, fun hno => ?_⟩
      · simp only [hmiss, execHeartbeatMissed, hbeat, hdual, hpres, hup, hle, decide_true, Bool.and_self, if_true]
      · rw [hmiss, execHeartbeatMissed]
        rcases hno with hno | hno | hno
        · simp [hno]
        · simp [hno]
        · simp [hbeat, Nat.not_le.mpr hno]
  · rintro s o rfl
    have hloss : exec .lossOfActiveHub s = execLossOfActiveHub s := rfl
    have htime : exec .takeoverClaimTimeout s = execTakeoverClaimTimeout s := rfl
    have hstop : exec .activeHubStop s = execActiveHubStop s := rfl
    refine ⟨fun hready hmiss htdet hsw t ht => ?_, fun hno => ?_, fun t0 ht0 => ⟨fun hle hlive u hu => ?_, fun hlt => ?_, fun hnone => ?_⟩,
      fun hnone => ?_, fun hserv => ?_, fun hserv => ?_⟩
    · have htaken : t = if s.serving then ({ s with mirror := { s.mirror with rx := none } } : State) else s.dropMirror := by
        rcases ht with ⟨hs, rfl⟩ | ⟨hs, rfl⟩
        · rw [if_pos hs]
        · rw [hs]
          rfl
      simp only [hloss, execLossOfActiveHub, hready, hmiss, htdet, hsw, decide_true, Option.isNone_none, Bool.not_false, Bool.and_self,
        if_true, ← htaken]
      refine ⟨fun hauto => ?_, fun hauto => ?_⟩
      · simp only [hauto, if_true]
      · simp only [hauto, Bool.false_eq_true, if_false]
    · rw [hloss, execLossOfActiveHub]
      rcases hno with hno | hno | hno | hno
      · simp [hno]
      · simp [Nat.not_le.mpr hno]
      · simp [Option.isNone_iff_eq_none, hno]
      · simp [hno]
    · have hany : (s.presentDies.any fun d => reportHolder (s.lane (other s.active) d) == s.active.val &&
          decide (reportAge (s.lane (other s.active) d) < 200)) = true := by
        simpa [List.any_eq_true] using hlive
      simp only [htime, execTakeoverClaimTimeout, ht0, hle, hany, and_self, if_true, ← hu]
    · have hnot : ¬t0 + 200 * us ≤ s.clk.elapsed := Nat.not_le.mpr hlt
      simp only [htime, execTakeoverClaimTimeout, ht0, hnot, false_and, if_false]
    · have hany : (s.presentDies.any fun d => reportHolder (s.lane (other s.active) d) == s.active.val &&
          decide (reportAge (s.lane (other s.active) d) < 200)) = false := by
        simpa [List.any_eq_false] using hnone
      simp only [htime, execTakeoverClaimTimeout, ht0, hany, Bool.false_eq_true, and_false, if_false]
    · simp only [htime, execTakeoverClaimTimeout, hnone]
    · simp only [hstop, execActiveHubStop, hserv, if_true, State.stoppedState]
    · simp only [hstop, execActiveHubStop, hserv, Bool.false_eq_true, if_false]

end Sys2Proof
end

section
namespace Sys2Proof
open Machine

/-! ### What completing a copy leaves alone -/

/-- What each step of a fold keeps, the fold keeps. -/
theorem foldl_keeps {α β γ : Type} {f : α → β → α} {p : α → γ} (h : ∀ a b, p (f a b) = p a) (l : List β) (a : α) :
    p (l.foldl f a) = p a := by
  induction l generalizing a with
  | nil => rfl
  | cons b bs ih => exact (ih _).trans (h a b)

theorem modHdr_active (s : State) (p : PageRef) (f : PageHdr → PageHdr) : (s.modHdr p f).active = s.active := by cases p <;> rfl

theorem setFreeze_active (s : State) (p : PageRef) (b : Bool) : (s.setFreeze p b).active = s.active := by
  unfold State.setFreeze
  split
  · split
    · rfl
    · exact modHdr_active ..
  · exact modHdr_active ..

theorem resetHubCounters_active (s : State) (h : HubId) (r : Fin 12) : (s.resetHubCounters h r).active = s.active := by
  have hown (f : Core → Core) : ((s.modHub h (·.resetCounters (s.base.hubs[h.val]) r.val)).modCoreOf h f).active = s.active := by
    unfold State.modCoreOf
    split <;> rfl
  unfold State.resetHubCounters
  dsimp only
  split
  · exact hown _
  · split <;> exact hown _

theorem blockReset_active (s : State) (p : PageRef) : (s.blockReset p).active = s.active := by
  cases p with
  | hub h r => exact (modHdr_active ..).trans (resetHubCounters_active ..)
  | die d r => exact modHdr_active ..

theorem writeHdr_active (s : State) (p : PageRef) (off : Nat) (w : Word) : (s.writeHdr p off w).active = s.active := by
  unfold State.writeHdr
  split
  · refine (setFreeze_active ..).trans ?_
    split
    · exact blockReset_active ..
    · rfl
  · exact modHdr_active ..
  · exact modHdr_active ..
  · exact modHdr_active ..
  · rfl

theorem applyUnit_active (s : State) (u : MUnit) : (s.applyUnit u).active = s.active := by
  refine foldl_keeps (p := State.active) (fun t w => ?_) u.hdr s
  split
  · exact writeHdr_active ..
  · rfl

theorem emit_active (s : State) (m : OutMsg) : (s.emit m).active = s.active := by
  unfold State.emit
  split <;> rfl

theorem retire_active (s : State) (id : Nat) (o : EntryOutcome) : (s.retire id o).active = s.active := by
  unfold State.retire
  split
  · rfl
  · dsimp only
    split <;> rfl

theorem release_active (s : State) (a : HeldBack) : (s.release a).active = s.active := by
  cases a with
  | response m w => exact emit_active ..
  | retire id =>
    simp only [State.release]
    split
    · split
      · exact retire_active ..
      · rfl
    · rfl
  | promote id =>
    simp only [State.release]
    split <;> rfl
  | consume d => rfl
  | spiWrite err => rfl

theorem releaseTo_active (s : State) (k : Nat) : (s.releaseTo k).active = s.active :=
  foldl_keeps (p := State.active) release_active _ _

theorem finishMirror_active (s : State) : s.finishMirror.active = s.active :=
  (releaseTo_active ..).trans (foldl_keeps (p := State.active) applyUnit_active _ _)

theorem vmod_of_fixed {α : Type} {n : Nat} (v : Vector α n) (i : Fin n) {f : α → α} (h : f v[i.val] = v[i.val]) : vmod v i f = v := by
  rw [vmod_congr v i (f := f) (g := fun x => x) h]
  simp [vmod]

/-- A session that ends is gone, and the others stay (R360). -/
theorem endSession_sess (s : State) (i : Fin 8) : (s.endSession i false).active = s.active ∧
    (s.endSession i false).core.sess = vmod s.core.sess i fun _ => none := by
  cases hx : s.core.session i with
  | none =>
    have hend : s.endSession i false = s := by simp only [State.endSession, hx]
    rw [hend]
    exact ⟨rfl, (vmod_of_fixed s.core.sess i hx.symm).symm⟩
  | some x =>
    obtain ⟨l, v, hend, -⟩ := endSession_spec hx
    rw [hend]
    exact ⟨rfl, rfl⟩

theorem session_endSession (s : State) (i j : Fin 8) (h : i = j ∨ s.core.session j = none) :
    (s.endSession i false).core.session j = none := by
  by_cases hij : i = j
  · subst hij
    simp [Core.session, endSession_sess]
  · have hval : i.val ≠ j.val := fun hv => hij (Fin.ext hv)
    simpa [Core.session, endSession_sess, vmod_ne _ _ _ _ _ hval] using h.resolve_left hij

theorem session_endSessions (l : List (Fin 8)) (s : State) (i : Fin 8) (h : i ∈ l ∨ s.core.session i = none) :
    (l.foldl (fun (t : State) i => t.endSession i false) s).core.session i = none := by
  induction l generalizing s with
  | nil => exact h.resolve_left List.not_mem_nil
  | cons j js ih =>
    refine ih _ ?_
    rcases h with h | h
    · rcases List.mem_cons.1 h with rfl | h
      · exact .inr (session_endSession s i i (.inl rfl))
      · exact .inl h
    · exact .inr (session_endSession s j i (.inr h))

/-- No session survives (R361). -/
theorem session_dropSessions (s : State) (i : Fin 8) : s.dropSessions.core.session i = none := by
  have hspi (t : State) (x : SpiSession) : (t.modCore fun c => { c with spi := x }).core.session i = t.core.session i := rfl
  rw [State.dropSessions, hspi]
  exact session_endSessions _ s i (.inl (List.mem_finRange i))

theorem dropSessions_active (s : State) : s.dropSessions.active = s.active := by
  rw [State.dropSessions, State.modCore_active]
  exact foldl_keeps (p := State.active) (fun t i => (endSession_sess t i).1) _ _

/-! ### The page headers of the standby (R398, R406) -/

/-- Two page headers agree in what writes make of them. -/
def SameWrites (a b : PageHdr) : Prop := a.locked = b.locked ∧ a.enable = b.enable ∧ a.frozen.isSome = b.frozen.isSome

theorem modHdr_of_fixed {s : State} {p : PageRef} {f : PageHdr → PageHdr} (h : f (s.hdr p) = s.hdr p) : s.modHdr p f = s := by
  cases p with
  | hub k r =>
    have hfix : (s.hub k).modHdr r f = s.hub k := by simp only [Hub.modHdr, vmod_of_fixed _ _ h]
    simp only [State.modHdr, State.modHub, vmod_of_fixed s.hubs k (f := (·.modHdr r f)) hfix]
  | die d r =>
    have hfix : (s.die d).modHdr r f = s.die d := by simp only [Die.modHdr, vmod_of_fixed _ _ h]
    simp only [State.modHdr, State.modDie, vmod_of_fixed s.dies d (f := (·.modHdr r f)) hfix]

/-- A page that is frozen or set free changes its copies alone (R402). -/
theorem setFreeze_spec (s : State) (p : PageRef) (b : Bool) :
    ∃ fr : Option (List (Nat × Word)), s.setFreeze p b = s.modHdr p (fun x => { x with frozen := fr }) ∧ fr.isSome = b := by
  cases b with
  | false => exact ⟨none, rfl, rfl⟩
  | true =>
    cases hfr : (s.hdr p).frozen with
    | none =>
      refine ⟨some (s.freezeCopies p), ?_, rfl⟩
      simp only [State.setFreeze, hfr, Option.isSome_none, Bool.false_eq_true, if_false, if_true]
    | some l =>
      refine ⟨some l, ?_, rfl⟩
      simp only [State.setFreeze, hfr, Option.isSome_some, if_true]
      exact (modHdr_of_fixed (by rw [← hfr])).symm

theorem hdr_modHdr (s : State) (p : PageRef) (f : PageHdr → PageHdr) : (s.modHdr p f).hdr p = f (s.hdr p) := by
  cases p with
  | hub h r => simp [State.modHdr, State.hdr, Hub.modHdr]
  | die d r => simp [State.modHdr, State.hdr, Die.modHdr]

theorem hdr_modHdr_ne (s : State) {h k : HubId} {r q : Fin 12} (f : PageHdr → PageHdr) (hne : h ≠ k ∨ r ≠ q) :
    (s.modHdr (.hub h r) f).hdr (.hub k q) = s.hdr (.hub k q) := by
  by_cases hk : h = k
  · subst hk
    have hr : r.val ≠ q.val := fun hr => hne.elim (fun hn => hn rfl) fun hn => hn (Fin.ext hr)
    simp [State.modHdr, State.hdr, Hub.modHdr, vmod_ne _ _ _ _ _ hr]
  · simp [State.modHdr, State.hdr, State.hub_modHub_ne _ _ _ _ hk]

/-- The standby's page takes over the active hub's header, and no other page changes (R398). -/
theorem copyHdr_spec (s : State) (r : Fin 12) :
    ∃ f : PageHdr → PageHdr, s.copyHdr r = s.modHdr (.hub (other s.active) r) f ∧
      SameWrites (f (s.hdr (.hub (other s.active) r))) (s.hdr (.hub s.active r)) := by
  obtain ⟨fr, hfr, hsome⟩ := setFreeze_spec
    (s.modHdr (.hub (other s.active) r) fun x => { x with enable := (s.hdr (.hub s.active r)).enable, locked := (s.hdr (.hub s.active r)).locked })
    (.hub (other s.active) r) (s.hdr (.hub s.active r)).frozen.isSome
  refine ⟨fun x => { x with
    enable := (s.hdr (.hub s.active r)).enable, locked := (s.hdr (.hub s.active r)).locked, frozen := fr }, ?_, rfl, rfl, hsome⟩
  refine hfr.trans ?_
  simp [State.modHdr, State.modHub, Hub.modHdr, vmod]

theorem copyHdr_frame (s : State) (r : Fin 12) : s.copyHdr r = { s with hubs := (s.copyHdr r).hubs } := by
  obtain ⟨f, hf, -⟩ := copyHdr_spec s r
  rw [hf]
  rfl

theorem foldl_copyHdr_frame (l : List (Fin 12)) (s : State) :
    l.foldl State.copyHdr s = { s with hubs := (l.foldl State.copyHdr s).hubs } := by
  induction l generalizing s with
  | nil => rfl
  | cons r rs ih =>
    rw [List.foldl_cons, ih (s.copyHdr r), copyHdr_frame s r]

theorem copyHdrs_frame (s : State) : s.copyHdrs = { s with hubs := s.copyHdrs.hubs } := by
  unfold State.copyHdrs
  exact foldl_copyHdr_frame ..

/-- Every page of the standby takes over the active hub's header (R398). -/
theorem sameWrites_copyHdrs (s : State) (r : Fin 12) :
    SameWrites (s.copyHdrs.hdr (.hub (other s.active) r)) (s.copyHdrs.hdr (.hub s.active r)) := by
  have hall (l : List (Fin 12)) (t : State) (ha : t.active = s.active)
      (h : r ∈ l ∨ SameWrites (t.hdr (.hub (other s.active) r)) (t.hdr (.hub s.active r))) :
      SameWrites ((l.foldl State.copyHdr t).hdr (.hub (other s.active) r)) ((l.foldl State.copyHdr t).hdr (.hub s.active r)) := by
    induction l generalizing t with
    | nil => exact h.resolve_left List.not_mem_nil
    | cons q qs ih =>
      obtain ⟨f, hf, hsame⟩ := copyHdr_spec t q
      have hact : (t.copyHdr q).hdr (.hub s.active r) = t.hdr (.hub s.active r) := by
        rw [hf, ha]
        exact hdr_modHdr_ne _ _ (.inl (other_ne _))
      refine ih _ (by rw [hf, modHdr_active, ha]) ?_
      by_cases hq : q = r
      · subst hq
        rw [ha] at hsame
        rw [hact, hf, ha, hdr_modHdr]
        exact .inr hsame
      · have hkeep : (t.copyHdr q).hdr (.hub (other s.active) r) = t.hdr (.hub (other s.active) r) := by
          rw [hf, ha]
          exact hdr_modHdr_ne _ _ (.inr hq)
        rw [hact, hkeep]
        rcases h with h | h
        · exact .inl ((List.mem_cons.1 h).resolve_left (Ne.symm hq))
        · exact .inr h
  exact hall _ s rfl (.inl (List.mem_finRange r))

theorem SameWrites.trans {a b c : PageHdr} (hab : SameWrites a b) (hbc : SameWrites b c) : SameWrites a c :=
  ⟨hab.1.trans hbc.1, hab.2.1.trans hbc.2.1, hab.2.2.trans hbc.2.2⟩
theorem SameWrites.symm {a b : PageHdr} (h : SameWrites a b) : SameWrites b a := ⟨h.1.symm, h.2.1.symm, h.2.2.symm⟩

theorem sameWrites_condition (p : PageHdr) (b : Nat) : SameWrites (p.condition b) p := by
  unfold PageHdr.condition
  dsimp only
  split <;> exact ⟨rfl, rfl, rfl⟩

/-- An event sets pending bits and changes nothing that a write made of a page header (R404). -/
theorem sameWrites_take (x : Hub) (at_ : Option (Fin 12 × Nat)) (l : LogRec) (r : Fin 12) :
    SameWrites (x.take at_ l).hdr[r.val] x.hdr[r.val] := by
  unfold Hub.take
  split
  · exact ⟨rfl, rfl, rfl⟩
  · next q b =>
    dsimp only
    rw [vmod_at]
    split
    · exact sameWrites_condition ..
    · exact ⟨rfl, rfl, rfl⟩

theorem sameWrites_raise (s : State) (h k : HubId) (e : Ev) (time : Nat) (st : Bool) (data : List Byte) (r : Fin 12) :
    SameWrites ((s.raise h e time st data).hdr (.hub k r)) (s.hdr (.hub k r)) := by
  by_cases hk : h = k
  · subst hk
    simp only [State.hdr, State.raise, State.hub_modHub]
    exact sameWrites_take ..
  · simp only [State.hdr, State.raise, State.hub_modHub_ne _ _ _ _ hk]
    exact ⟨rfl, rfl, rfl⟩

theorem hdr_modHub_of_hdr (s : State) (h k : HubId) {f : Hub → Hub} (hf : ∀ x, (f x).hdr = x.hdr) (r : Fin 12) :
    (s.modHub h f).hdr (.hub k r) = s.hdr (.hub k r) := by
  by_cases hk : h = k
  · subst hk
    simp [State.hdr, hf]
  · simp [State.hdr, State.hub_modHub_ne _ _ _ _ hk]

/-! ### The standby enters READY (R279, R361, R398) -/

section
variable (s : State) (boot : Nat) (keys : List (Nat × List Byte))

theorem completeCopy_active : (s.completeCopy boot keys).active = s.active := by
  unfold State.completeCopy
  rw [copyHdrs_frame]
  split
  · generalize hu : s.finishMirror = u
    rw [← finishMirror_active s, hu]
    rfl
  · generalize hu : s.finishMirror.dropSessions = u
    rw [← finishMirror_active s, ← dropSessions_active s.finishMirror, hu]
    rfl

/-- The copy is the active hub's state, but for what each hub counts for itself, and every unit counts as applied. -/
theorem completeCopy_copy :
    (s.completeCopy boot keys).copy = (s.completeCopy boot keys).core.asCopy (s.completeCopy boot keys).copy ∧
      (s.completeCopy boot keys).mirror.applied = (s.completeCopy boot keys).mirror.committed ∧
      (s.completeCopy boot keys).mirror.acked = (s.completeCopy boot keys).mirror.committed := by
  unfold State.completeCopy
  generalize (if boot = s.act.nv.boot then s.finishMirror else s.finishMirror.dropSessions).modCore (fun c => { c with keys := keys }) = t
  dsimp only
  rw [copyHdrs_frame]
  exact ⟨rfl, rfl, rfl⟩

theorem session_completeCopy (hne : boot ≠ s.act.nv.boot) (i : Fin 8) : (s.completeCopy boot keys).core.session i = none := by
  unfold State.completeCopy
  rw [copyHdrs_frame, if_neg hne]
  have hgone : s.finishMirror.dropSessions.core.session i = none := session_dropSessions _ i
  generalize s.finishMirror.dropSessions = u at hgone ⊢
  exact hgone

theorem sameWrites_completeCopy (r : Fin 12) :
    SameWrites ((s.completeCopy boot keys).hdr (.hub (other s.active) r)) ((s.completeCopy boot keys).hdr (.hub s.active r)) := by
  have hact := completeCopy_active s boot keys
  unfold State.completeCopy at hact ⊢
  generalize (if boot = s.act.nv.boot then s.finishMirror else s.finishMirror.dropSessions).modCore (fun c => { c with keys := keys }) = t
    at hact ⊢
  dsimp only at hact ⊢
  rw [copyHdrs_frame] at hact
  rw [← hact]
  exact sameWrites_copyHdrs ..
end

/-! ### Frames of the String (R22, R280) -/

section
variable {s : State} {h : HubId} {type : StrType}

theorem sendStr_blocked (w : Dword) (f : State → State) (hno : s.strung = false ∨ (s.strFlow h).canSend = false) :
    s.sendStr h type w f = s := by
  unfold State.sendStr
  rcases hno with hno | hno <;> simp [hno]
theorem sendStr_stray (w : Dword) (f : State → State) (hon : s.strung = true) (hcan : (s.strFlow h).canSend = true)
    (hfree : s.strWaits h type = false) (hseq : (s.strFlow h).inSeq = false) : s.sendStr h type w f = s.strayStr h type w := by
  simp [State.sendStr, hon, hcan, hfree, hseq]
theorem sendStr_passed (w : Dword) (f : State → State) (hon : s.strung = true) (hcan : (s.strFlow h).canSend = true)
    (hfree : s.strWaits h type = false) (hseq : (s.strFlow h).inSeq = true) : s.sendStr h type w f = f (s.passStr h type w) := by
  simp [State.sendStr, hon, hcan, hfree, hseq]
end

/-- Mirror units wait for nothing else on the String (R280). -/
theorem strWaits_mirror (s : State) (h : HubId) : s.strWaits h .mirror = false ∧ s.strWaits h .mirrorCommit = false := by
  simp [State.strWaits]

/-- The boot counters of both hubs after a copy is completed (R361). -/
theorem boot_reconciled (t : State) (n0 n1 : NvStore) (boot : Nat) (o k : HubId) (e : Ev) (time : Nat) (h : HubId) :
    ((((((t.modHub 0 fun x => { x with nv := { n0 with boot := boot } }).modHub 1 fun x => { x with nv := { n1 with boot := boot } }).modHub o
      fun x => { x with hstate := .ready }).raise k e time false []).hub h).nv.boot) = boot := by
  have hstate (u : State) : ((u.modHub o fun x => { x with hstate := .ready }).hub h).nv = (u.hub h).nv := by
    by_cases hk : o = h
    · subst hk
      rw [State.hub_modHub]
    · rw [State.hub_modHub_ne _ _ _ _ hk]
  obtain ⟨h0, h1⟩ := hub_modHub_twice t (fun x => { x with nv := { n0 with boot := boot } })
    (fun x => { x with nv := { n1 with boot := boot } }) (h := 0) (k := 1) (by decide)
  rw [hub_raise]
  dsimp only
  rw [hstate]
  revert h
  exact Fin.forall_fin_two.2 ⟨fun _ => by rw [h0], fun _ => by rw [h1]⟩

end Sys2Proof
end

section
namespace Sys2Proof
open Machine

/-- The page headers after a copy is completed are those that it left (R398). -/
theorem headers_ready (t : State) (n0 n1 : NvStore) (boot : Nat) (o j k : HubId) (e : Ev) (time : Nat) (r : Fin 12) :
    SameWrites (((((t.modHub 0 fun x => { x with nv := { n0 with boot := boot } }).modHub 1
      fun x => { x with nv := { n1 with boot := boot } }).modHub o fun x => { x with hstate := .ready }).raise j e time false []).hdr (.hub k r))
      (t.hdr (.hub k r)) := by
  refine (sameWrites_raise ..).trans ?_
  rw [hdr_modHub_of_hdr, hdr_modHub_of_hdr, hdr_modHub_of_hdr]
  · exact ⟨rfl, rfl, rfl⟩
  all_goals exact fun _ => rfl

/-- MIRROR_READY where the copy can be completed. -/
theorem mirrorReady_spec {s : State} {o : HubId} (ho : o = other s.active) (hon : s.strung = true) (hst : (s.hub o).hstate = .syncing)
    (hlanes : ∀ d ∈ s.presentDies, (s.lane o d).st = .trained ∨ (s.die d).pwr ≠ .run) {boot : Nat}
    (hboot : boot = max (s.hub 0).nv.boot (s.hub 1).nv.boot) : ∃ (n0 n1 : NvStore) (keys : List (Nat × List Byte)),
    exec .mirrorReady s = .next (((((s.completeCopy boot keys).modHub 0 fun x => { x with nv := { n0 with boot := boot } }).modHub 1
      fun x => { x with nv := { n1 with boot := boot } }).modHub o fun x => { x with hstate := .ready }).raise o .mirrorReady s.clk.now
      false []) := by
  have hexec : exec .mirrorReady s = execMirrorReady s := rfl
  subst ho
  have hall : (s.presentDies.all fun d => (s.lane (other s.active) d).st == .trained || (s.die d).pwr != .run) = true := by
    simpa [List.all_eq_true] using hlanes
  rw [hexec, execMirrorReady]
  simp only [hon, hst, hall, beq_self_eq_true, Bool.and_self, if_true, ← hboot]
  exact ⟨_, _, _, rfl⟩

/-- Settles O35: the rows of the String in the order of a unit's way, then its faults and its training. -/
theorem mirroring : Obligations.Mirroring := by
  unfold Obligations.Mirroring
  rintro s o rfl
  have hframe : exec .mirrorFrameReceive s = execMirrorFrameReceive s := rfl
  have hcommit : exec .mirrorCommitReceive s = execMirrorCommitReceive s := rfl
  have hack : exec .mirrorCommitAck s = execMirrorCommitAck s := rfl
  have hready : exec .mirrorReady s = execMirrorReady s := rfl
  have hfault : exec .stringFault s = execStringFault s := rfl
  have htrain (v a b : Nat) : exec (.trainingComplete .string v a b) s = execTrainingComplete .string v a b s := rfl
  refine ⟨fun hno => ?_, fun u rest happ hw hon hrx hcan p hp => ?_, fun hno => ?_, fun u hrx hon hcan p hp => ?_, fun hno => ?_,
    fun hon hlt t ht => ?_, fun k => rfl, fun hno => ?_, fun hon hst hlanes => ?_, fun hno => ?_, fun hdual hst hthree => ?_,
    fun hdual hst hthree t ht => ?_, fun v a b hno => ?_, fun hst hdual h0 h1 hdeep hoff => ?_⟩
  · rw [hframe, execMirrorFrameReceive]
    by_cases happ : s.applying = true
    · simp only [happ, Bool.not_true, Bool.false_eq_true, if_false]
      split
      · next u rest hw hrx =>
        rw [sendStr_blocked]
        simpa [happ, hw, hrx] using hno
      · rfl
    · simp [happ]
  · subst hp
    simp only [hframe, execMirrorFrameReceive, happ, Bool.not_true, Bool.false_eq_true, if_false, hw, hrx]
    refine ⟨fun hseq => ?_, fun hseq t ht => ?_⟩
    · rw [sendStr_stray _ _ hon hcan (strWaits_mirror ..).1 hseq]
    · rw [sendStr_passed _ _ hon hcan (strWaits_mirror ..).1 hseq, ← ht]
  · rw [hcommit, execMirrorCommitReceive]
    split
    · next u hrx =>
      rw [sendStr_blocked]
      simpa [hrx] using hno
    · rfl
  · subst hp
    simp only [hcommit, execMirrorCommitReceive, hrx]
    refine ⟨fun hseq => ?_, fun hseq t ht => ⟨?_, fun hhdr => ?_, ?_, ?_⟩⟩
    · rw [sendStr_stray _ _ hon hcan (strWaits_mirror ..).2 hseq]
    · rw [ht]
      rfl
    · rw [ht]
      simp only [State.applyUnit, hhdr, List.foldl_nil, Core.asCopy]
      exact ⟨rfl, rfl⟩
    · rw [ht]
      rfl
    · rw [sendStr_passed _ _ hon hcan (strWaits_mirror ..).2 hseq, ht]
  · rw [hack, execMirrorCommitAck]
    rcases hno with hno | hno
    · simp [hno]
    · simp [Nat.not_lt.mpr hno]
  · simp only [hack, execMirrorCommitAck, hon, hlt, decide_true, Bool.and_self, if_true, ← ht]
  · rw [hready, execMirrorReady]
    rcases hno with hno | hno
    · simp [hno]
    · simp [hno]
  · obtain ⟨n0, n1, keys, hexec⟩ := mirrorReady_spec rfl hon hst hlanes rfl
    refine ⟨_, hexec, ?_, ?_, ?_, ?_, ?_, ?_, ?_, fun r => ?_⟩
    · rw [raise_hub_hstate, State.hub_modHub]
    · simp only [raise_copy, raise_core, State.modHub_copy, State.modHub_core]
      exact (completeCopy_copy ..).1
    · simp only [raise_mirror, State.modHub_mirror]
      exact (completeCopy_copy ..).2.1
    · simp only [raise_mirror, State.modHub_mirror]
      exact (completeCopy_copy ..).2.2
    · exact boot_reconciled ..
    · rw [boot_reconciled, boot_reconciled]
    · simp only [raise_core, State.modHub_core]
      exact fun hne i => session_completeCopy s _ keys (Ne.symm hne) i
    · exact (headers_ready ..).trans ((sameWrites_completeCopy s _ keys r).trans (headers_ready ..).symm)
  · rw [hfault, execStringFault]
    rcases hno with hno | hno <;> simp [hno]
  · simp only [hfault, execStringFault, hdual, hst, hthree, decide_true, beq_self_eq_true, Bool.and_self, if_true]
  · have hlow : ¬3 ≤ s.mirror.str.failRun := Nat.not_le.mpr hthree
    have hstep : exec .stringFault s = .next (State.commit s (if s.serving then t.stopMirror.raise s.active .stringFault s.clk.now false [] else t)) := by
      simp only [hfault, execStringFault, hdual, hst, hlow, decide_false, beq_self_eq_true, Bool.and_self, Bool.and_false, if_true,
        Bool.false_eq_true, if_false, ht]
      rfl
    rw [hstep]
    refine ⟨fun hserv => ?_, fun hserv => ?_⟩
    · rw [if_pos hserv]
    · rw [hserv, if_neg Bool.false_ne_true]
  · rw [htrain, execTrainingComplete]
    rcases hno with hno | hno | hno | hno | hno | hno | hno <;> simp [State.link, hno]
  · have hp1 : (s.power.st != .deepSleep) = true := bne_iff_ne.2 hdeep
    have hp2 : (s.power.st != .off) = true := bne_iff_ne.2 hoff
    simp only [htrain, execTrainingComplete, State.link, hst, ne_eq, not_true_eq_false, or_self, if_false, beq_self_eq_true, hdual, h0, h1,
      hp1, hp2, Bool.and_self, if_true]
    rfl

end Sys2Proof
end

section
namespace Sys2Proof
open Machine

/-! ### What a synchronisation state, a decision and an event change -/

/-- Records have been staged and counted in the log, and nothing was written (R300). -/
def LogStages (l m : Log) : Prop :=
  m = { l with staged := m.staged, raised := m.raised, logged := m.logged, counted := m.counted, ovf := m.ovf, sums := m.sums }

theorem logStages_iff (l m : Log) : LogStages l m ↔ m.ring = l.ring ∧ m.seq = l.seq ∧ m.bb = l.bb ∧ m.bbHead = l.bbHead ∧
    m.bbWait = l.bbWait ∧ m.bbLast = l.bbLast ∧ m.bbSkip = l.bbSkip ∧ m.bbFrozenCnt = l.bbFrozenCnt ∧ m.bbFrozen = l.bbFrozen ∧
    m.returnMark = l.returnMark := by
  cases l
  cases m
  simp [LogStages]
theorem LogStages.refl (l : Log) : LogStages l l := rfl
theorem LogStages.trans {l m n : Log} (h : LogStages l m) (g : LogStages m n) : LogStages l n := by
  rw [logStages_iff] at *
  grind
theorem logStages_stage (l : Log) (r : LogRec) : LogStages l (l.stage r) := by
  unfold Log.stage LogStages
  dsimp only
  split <;> rfl

/-- A hub has taken records: page headers, the log's queue and the lanes may change, and nothing else. -/
def HubStages (x y : Hub) : Prop := y = { x with hdr := y.hdr, log := y.log, lanes := y.lanes } ∧ LogStages x.log y.log

theorem HubStages.refl (x : Hub) : HubStages x x := ⟨rfl, .refl _⟩
theorem HubStages.trans {x y z : Hub} (h : HubStages x y) (g : HubStages y z) : HubStages x z := by
  refine ⟨?_, h.2.trans g.2⟩
  rw [g.1, h.1]
theorem hubStages_take (x : Hub) (at_ : Option (Fin 12 × Nat)) (r : LogRec) : HubStages x (x.take at_ r) := by
  refine ⟨?_, ?_⟩
  · rw [hub_take_frame]
  · unfold Hub.take
    split
    · exact logStages_stage ..
    · dsimp only
      split
      · exact logStages_stage ..
      · exact .refl _

/-- Only synchronisation, ACCEPT, the free values and what events leave may have changed. -/
def SyncChange (s t : State) : Prop :=
  t = { s with core := { s.core with time := t.core.time }, hubs := t.hubs, sync := t.sync, free := t.free } ∧
    ∀ k, HubStages (s.hub k) (t.hub k)

theorem SyncChange.refl (s : State) : SyncChange s s := ⟨rfl, fun _ => .refl _⟩
theorem SyncChange.trans {s t u : State} (h : SyncChange s t) (g : SyncChange t u) : SyncChange s u := by
  refine ⟨?_, fun k => (h.2 k).trans (g.2 k)⟩
  rw [g.1, h.1]

theorem syncChange_of_sync {s t : State} (h : t = { s with sync := t.sync, free := t.free }) : SyncChange s t := by
  rw [h]
  exact ⟨rfl, fun _ => .refl _⟩
theorem syncChange_take (s : State) (h : HubId) (at_ : Option (Fin 12 × Nat)) (r : LogRec) : SyncChange s (s.modHub h (·.take at_ r)) := by
  refine ⟨rfl, fun k => ?_⟩
  by_cases hk : h = k
  · subst hk
    rw [State.hub_modHub]
    exact hubStages_take ..
  · rw [State.hub_modHub_ne _ _ _ _ hk]
    exact .refl _
theorem syncChange_raiseNow (s : State) (e : Ev) (data : List Byte) : SyncChange s (s.raiseNow e data) := syncChange_take ..

theorem syncChange_noteQuality (old s : State) : SyncChange s (State.noteQuality old s) := by
  unfold State.noteQuality
  split
  · exact .refl s
  · exact syncChange_of_sync rfl
theorem syncChange_noteUsable (old s : State) : SyncChange s (State.noteUsable old s) :=
  (syncChange_of_sync rfl).trans (syncChange_noteQuality ..)

theorem syncChange_enterSync (s : State) (st : SyncState) (ev : Option Ev) : SyncChange s (s.enterSync st ev) := by
  have hstate (y : TimeSync) : SyncChange s { s.tickFree with sync := y } := syncChange_of_sync rfl
  have haccept (t : State) : SyncChange t (if st = .unlocked then t.modCore fun c => { c with time := { c.time with accept := false } } else t) := by
    split
    · exact ⟨rfl, fun _ => .refl _⟩
    · exact .refl t
  cases ev with
  | none => exact ((hstate _).trans (haccept _)).trans (syncChange_noteUsable ..)
  | some e => exact (((hstate _).trans (haccept _)).trans (syncChange_noteUsable ..)).trans (syncChange_raiseNow ..)

theorem syncChange_bmca (s : State) : SyncChange s s.bmca := by
  unfold State.bmca
  have hports (y : TimeSync) : SyncChange s { s with sync := y } := syncChange_of_sync rfl
  dsimp only
  split
  · split
    · exact (hports _).trans (syncChange_enterSync ..)
    · exact (hports _).trans (syncChange_enterSync ..)
    · exact hports _
  · split
    · exact (hports _).trans (syncChange_enterSync ..)
    · split
      · exact (hports _).trans (syncChange_enterSync ..)
      · exact (hports _).trans (syncChange_enterSync ..)
    · exact hports _
  · split <;> exact hports _
  · exact hports _

end Sys2Proof
end

section
namespace Sys2Proof
open Machine

/-- Refutes O36: `∀ orphan : Prop, orphan ↔ (…) → …` reads as `orphan ↔ ((…) → …)`, of every proposition. At reset no hub runs, so the
right side holds of an `orphan` that does not. -/
theorem not_hubRolesAndRestarts : ¬ Obligations.HubRolesAndRestarts := by
  unfold Obligations.HubRolesAndRestarts
  intro h
  have hdown : (State.reset.hub 0).up = false := by
    obtain ⟨b, x, hx⟩ := reset_hub 0
    rw [hx]
    rfl
  refine ((h.2 State.reset 0).1 False).2 fun hup => ?_
  rw [hdown] at hup
  exact absurd hup.1 Bool.false_ne_true

end Sys2Proof
end

section
namespace Sys2Proof
open Machine

/-! ### What leaves the found mismatches, CHECK, as they are (R412) -/

theorem closeRecord_check (c : Core) (id : Nat) (o : EntryOutcome) (elapsed : Nat) : (c.closeRecord id o elapsed).check = c.check := by
  unfold Core.closeRecord
  split
  · rfl
  · dsimp only
    split <;> rfl

theorem retire_check (s : State) (id : Nat) (o : EntryOutcome) : (s.retire id o).core.check = s.core.check := by
  unfold State.retire
  split
  · rfl
  · next e _ =>
    have hbooks : (s.core.retire e o s.clk.elapsed).check = s.core.check := closeRecord_check ..
    dsimp only
    split <;> exact hbooks

theorem release_check (s : State) (a : HeldBack) : (s.release a).core.check = s.core.check := by
  cases a with
  | response m w =>
    simp only [State.release, State.emit]
    split <;> rfl
  | retire id =>
    simp only [State.release]
    split
    · split
      · exact retire_check ..
      · rfl
    · rfl
  | promote id =>
    simp only [State.release]
    split <;> rfl
  | consume d => rfl
  | spiWrite err => rfl

theorem releaseTo_check (s : State) (k : Nat) : (s.releaseTo k).core.check = s.core.check :=
  foldl_keeps (p := fun t : State => t.core.check) release_check _ _

/-- Header writes on the standby's pages leave the active hub's state alone (R398). -/
theorem writeHdr_core {s : State} {h : HubId} (hne : h ≠ s.active) (r : Fin 12) (off : Nat) (w : Word) :
    (s.writeHdr (.hub h r) off w).core = s.core := by
  have hreset : (s.blockReset (.hub h r)).core = s.core := by
    have hcopy (t : State) (f : Core → Core) (ha : t.active = s.active) : (t.modCoreOf h f).core = t.core := by
      simp only [State.modCoreOf, ha, hne, if_false]
    simp only [State.blockReset, State.modHdr, State.modHub_core, State.resetHubCounters, if_pos hne]
    rw [hcopy]
    · rfl
    · rfl
  have hfreeze (t : State) (b : Bool) : (t.setFreeze (.hub h r) b).core = t.core := by
    obtain ⟨fr, hfr, -⟩ := setFreeze_spec t (.hub h r) b
    rw [hfr]
    rfl
  unfold State.writeHdr
  split
  · rw [hfreeze]
    split
    · exact hreset
    · rfl
  · rfl
  · rfl
  · rfl
  · rfl

theorem applyUnit_core (s : State) (u : MUnit) : (s.applyUnit u).core = s.core := by
  have hall (l : List (Nat × Nat × Word)) (t : State) (ha : t.active = s.active) :
      (l.foldl (fun (x : State) w => if h : w.1 < 12 then x.writeHdr (.hub (other s.active) ⟨w.1, h⟩) w.2.1 w.2.2 else x) t).core = t.core := by
    induction l generalizing t with
    | nil => rfl
    | cons w ws ih =>
      rw [List.foldl_cons]
      split
      · rw [ih _ ((writeHdr_active ..).trans ha), writeHdr_core (ha ▸ other_ne _)]
      · exact ih t ha
  exact hall u.hdr s rfl

theorem finishMirror_check (s : State) : s.finishMirror.core.check = s.core.check := by
  unfold State.finishMirror
  rw [releaseTo_check]
  exact congrArg Core.check (foldl_keeps (p := State.core) applyUnit_core _ _)

theorem startSwitchover_check (s : State) (cause : Nat) (req : Option Req) : (s.startSwitchover cause req).core.check = s.core.check := by
  unfold State.startSwitchover
  split
  · exact finishMirror_check s
  · rfl

theorem stopPorts_check (s : State) (h : HubId) : (s.stopPorts h).core.check = s.core.check := by
  unfold State.stopPorts
  dsimp only
  split
  · rw [State.settlePackage, (syncChange_bmca _).1]
  · rfl

theorem hubFault_check (s : State) (h : HubId) : (s.hubFault h).core.check = s.core.check := by
  unfold State.hubFault
  split
  · split
    · exact startSwitchover_check ..
    · rfl
  · exact (releaseTo_check _ _).trans (stopPorts_check ..)

theorem box_core (s : State) (h : HubId) (t : Tick) (l : List (Nat × List Byte)) : (s.box h t l).core = s.core := rfl
theorem boxSnapshot_core (s : State) (hs : List HubId) (ds : List DieId) (t : Tick) : (s.boxSnapshot hs ds t).core = s.core := by
  unfold State.boxSnapshot
  rw [box_core]
  exact foldl_keeps (p := State.core) (fun _ _ => box_core ..) _ _

/-- A pool mismatch of a snapshot enters CHECK where the continuous check found it, and is otherwise acted on without it (R32, R412). -/
theorem poolMismatch_check {s : State} {hs : List HubId} {ds : List DieId} (t : Tick) (cont : Bool)
    (hbad : (∃ h ∈ hs, s.hubFailsOf h ≠ 0) ∨ ∃ d ∈ ds, s.dieFails d ≠ 0) : (s.poolMismatch hs ds t cont).core.check =
      if cont then s.core.check ||| BitVec.ofNat 32 (s.failMask hs ds) else s.core.check := by
  have hsome : ((hs.filter fun h => s.hubFailsOf h != 0).isEmpty && (ds.filter fun d => s.dieFails d != 0).isEmpty) = false := by
    rw [← Bool.not_eq_true, Bool.and_eq_true, List.isEmpty_iff, List.isEmpty_iff, List.filter_eq_nil_iff, List.filter_eq_nil_iff]
    rintro ⟨hh, hd⟩
    rcases hbad with ⟨h, hm, hne⟩ | ⟨d, hm, hne⟩
    · exact hh h hm (bne_iff_ne.2 hne)
    · exact hd d hm (bne_iff_ne.2 hne)
  have hbox (u : State) : (u.boxSnapshot hs ds t).core.check = u.core.check := congrArg Core.check (boxSnapshot_core ..)
  have hraise (x : State) (h : HubId) : (x.raise h .poolMismatch t false []).core.check = x.core.check := rfl
  have hdie (x : State) (d : DieId) :
      (x.modDie d (·.raise .poolMismatch 0 (mkRec .poolMismatch t (srcDie d) s.quality false [] none))).core.check = x.core.check := rfl
  have hfaultD (x : State) (d : DieId) : (x.raiseFault s.active 0 (srcDie d)).core.check = x.core.check := rfl
  have hfaultH (x : State) (h : HubId) : ((x.raiseFault x.active 0 (srcHub h)).hubFault h).core.check = x.core.check := hubFault_check _ h
  have hadmit (u : State) (b : Bool) :
      (if b then u else u.modCore fun c => { c with sched := { c.sched with admits := false } }).core.check = u.core.check := by
    split <;> rfl
  unfold State.poolMismatch
  simp only [hsome, Bool.false_eq_true, if_false]
  refine (foldl_keeps (p := fun x : State => x.core.check) hfaultH _ _).trans ?_
  refine (hadmit _ _).trans ?_
  refine (foldl_keeps (p := fun x : State => x.core.check) hfaultD _ _).trans ?_
  refine (hbox _).trans ?_
  refine (foldl_keeps (p := fun x : State => x.core.check) hdie _ _).trans ?_
  refine (foldl_keeps (p := fun x : State => x.core.check) hraise _ _).trans ?_
  cases cont <;> rfl

theorem poolMismatch_of_whole {s : State} {hs : List HubId} {ds : List DieId} (t : Tick) (cont : Bool)
    (hh : ∀ h ∈ hs, s.hubFailsOf h = 0) (hd : ∀ d ∈ ds, s.dieFails d = 0) : s.poolMismatch hs ds t cont = s := by
  have hnone : ((hs.filter fun h => s.hubFailsOf h != 0).isEmpty && (ds.filter fun d => s.dieFails d != 0).isEmpty) = true := by
    rw [Bool.and_eq_true, List.isEmpty_iff, List.isEmpty_iff, List.filter_eq_nil_iff, List.filter_eq_nil_iff]
    exact ⟨fun h hm => by simp [hh h hm], fun d hm => by simp [hd d hm]⟩
  unfold State.poolMismatch
  simp only [hnone, if_true]

theorem putBit_eq_zero (b : Bool) (i : Nat) : putBit b i = 0 ↔ b = false := by
  cases b <;> simp [putBit]

/-- Settles O37: what a mismatch does, then the check of a die and of a hub, then the audit. -/
theorem poolChecks : Obligations.PoolChecks := by
  unfold Obligations.PoolChecks
  refine ⟨fun s hs ds t => ⟨?_, fun hbad => ?_⟩, fun s hs ds t hh hd c => poolMismatch_of_whole t c hh hd,
    fun s d => ⟨fun hheld hmod hs ds hhs hds => ?_, fun hno => ?_, ?_, fun h hpres hup => ?_⟩,
    fun s => ⟨fun r t rest haud hserv hle m hm => ?_, fun r t rest haud hlt => ?_, fun hno => ?_⟩⟩
  · by_cases hbad : (∃ h ∈ hs, s.hubFailsOf h ≠ 0) ∨ ∃ d ∈ ds, s.dieFails d ≠ 0
    · exact poolMismatch_check t false hbad
    · push Not at hbad
      rw [poolMismatch_of_whole t false hbad.1 hbad.2]
  · exact poolMismatch_check t true hbad
  · have hexec : exec (.poolCheck d) s = execPoolCheck d s := rfl
    have hhubs : (if d = s.checkDie then s.runningHubs else []) = hs := by
      rcases hhs with ⟨hd, rfl⟩ | ⟨hd, rfl⟩
      · rw [if_pos hd]
      · rw [if_neg hd]
    have hdies : (if (s.die d).on then [d] else []) = ds := by
      rcases hds with ⟨hd, rfl⟩ | ⟨hd, rfl⟩
      · rw [if_pos hd]
      · rw [hd, if_neg Bool.false_ne_true]
    simp only [hexec, execPoolCheck, hheld, hmod, decide_true, Bool.and_self, if_true, hhubs, hdies]
  · have hexec : exec (.poolCheck d) s = execPoolCheck d s := rfl
    rw [hexec, execPoolCheck]
    rcases hno with hno | hno <;> simp [hno]
  · simp only [State.dieFails, Nat.add_eq_zero_iff, putBit_eq_zero, Bool.not_eq_false', List.all_eq_true, List.mem_finRange, forall_const,
      Bool.or_eq_true, Bool.not_eq_true', decide_eq_false_iff_not, ne_eq, not_not, and_assoc, imp_iff_not_or, Bool.not_eq_true]
  · simp only [State.hubFailsOf, hpres, hup, Bool.not_true, Bool.or_self, Bool.false_eq_true, if_false, Nat.add_eq_zero_iff,
      putBit_eq_zero]
    by_cases hact : h = s.active
    · simp [hact, putBit_eq_zero, and_assoc]
    · simp [hact, and_assoc]
  · have hexec : exec .poolAuditSnapshot s = execPoolAuditSnapshot s := rfl
    subst hm
    simp only [hexec, execPoolAuditSnapshot, haud, hserv, hle, decide_true, Bool.and_self, if_true]
    rfl
  · have hexec : exec .poolAuditSnapshot s = execPoolAuditSnapshot s := rfl
    have hnot : ¬t ≤ s.clk.now := Nat.not_le.mpr hlt
    simp only [hexec, execPoolAuditSnapshot, haud, hnot, decide_false, Bool.and_false, Bool.false_eq_true, if_false]
  · have hexec : exec .poolAuditSnapshot s = execPoolAuditSnapshot s := rfl
    rw [hexec, execPoolAuditSnapshot]
    split
    · next r t rest haud =>
      have hserv : s.serving = false := hno.resolve_left (by simp [haud])
      simp only [hserv, Bool.false_and, Bool.false_eq_true, if_false]
    · rfl

end Sys2Proof
end

section
namespace Sys2Proof
open Machine

/-! ### Synchronisation states (R44, R47) -/

/-- The record of usable time and of the quality code changes no other field of synchronisation. -/
theorem noteUsable_sync (old s : State) : (State.noteUsable old s).sync.st = s.sync.st ∧ (State.noteUsable old s).sync.since = s.sync.since ∧
    (State.noteUsable old s).sync.good = s.sync.good ∧ (State.noteUsable old s).core = s.core := by
  have hloss (was now : Bool) (t : Tick) : (s.sync.noteLoss was now t).st = s.sync.st ∧ (s.sync.noteLoss was now t).since = s.sync.since ∧
      (s.sync.noteLoss was now t).good = s.sync.good := by
    unfold TimeSync.noteLoss
    split
    · exact ⟨rfl, rfl, rfl⟩
    · split <;> exact ⟨rfl, rfl, rfl⟩
  unfold State.noteUsable State.noteQuality
  obtain ⟨hst, hsince, hgood⟩ := hloss old.usable s.usable (tenAfterTwenty s.clk.now)
  split <;> exact ⟨hst, hsince, hgood, rfl⟩

/-- A synchronisation state that is entered begins now, with its runs at zero; UNLOCKED clears ACCEPT. -/
theorem enterSync_spec (s : State) (st : SyncState) (e : Ev) :
    (s.enterSync st (some e)).sync.st = st ∧ (s.enterSync st (some e)).sync.since = s.clk.elapsed ∧
      (s.enterSync st (some e)).sync.good = 0 ∧ (st = .unlocked → (s.enterSync st (some e)).core.time.accept = false) := by
  have hnoted (t : State) (y : TimeSync) (hy : t.sync = y) (hst : y.st = st) (hsince : y.since = s.clk.elapsed) (hgood : y.good = 0)
      (hacc : st = .unlocked → t.core.time.accept = false) :
      ((State.noteUsable s t).raiseNow e []).sync.st = st ∧ ((State.noteUsable s t).raiseNow e []).sync.since = s.clk.elapsed ∧
        ((State.noteUsable s t).raiseNow e []).sync.good = 0 ∧
        (st = .unlocked → ((State.noteUsable s t).raiseNow e []).core.time.accept = false) := by
    obtain ⟨h1, h2, h3, h4⟩ := noteUsable_sync s t
    subst hy
    exact ⟨h1.trans hst, h2.trans hsince, h3.trans hgood, fun hu => (congrArg (fun c : Core => c.time.accept) h4).trans (hacc hu)⟩
  cases st <;> exact hnoted _ _ rfl rfl rfl rfl (by simp)

theorem enterSync_dies (s : State) (st : SyncState) (ev : Option Ev) : (s.enterSync st ev).dies = s.dies := by
  rw [(syncChange_enterSync s st ev).1]

theorem hears_iff (x : PtpPort) (sdo : BitVec 4) (dom : Byte) :
    x.hears sdo dom = true ↔ (x.act = 1 ∧ sdo = 1#4 ∧ dom = 0#8) ∨ (x.act = 2 ∧ sdo = 0#4 ∧ dom.toNat = x.dom) := by
  simp [PtpPort.hears, and_assoc]

/-! ### Offsets of the SLAVE port (R44, R45) -/

section
variable {s : State} (o : Int)

theorem measure_of_step (h : s.sync.step ≠ none) : s.measure o = { s with sync := { s.sync with offset := o } } := by
  simp only [State.measure, Option.isSome_iff_ne_none.2 h, if_true]

theorem measure_locks (hstep : s.sync.step = none) (hst : s.sync.st = .acquiring) (hsmall : o.natAbs ≤ 60) (hrun : 15 ≤ s.sync.good) :
    s.measure o = { ({ s with sync := { s.sync with offset := o } } : State).enterSync .locked (some .timeLock) with
      sync := { (({ s with sync := { s.sync with offset := o } } : State).enterSync .locked (some .timeLock)).sync with slew := 0, set := true } } := by
  have hsixteen : 16 ≤ s.sync.good + 1 := by omega
  simp only [State.measure, hstep, Option.isSome_none, Bool.false_eq_true, if_false, hst, hsmall, if_true, hsixteen]

theorem measure_acquires (hstep : s.sync.step = none) (hst : s.sync.st = .acquiring) (hno : 60 < o.natAbs ∨ s.sync.good < 15) :
    s.measure o = { ({ s with sync := { s.sync with offset := o } } : State).correct o with
      sync := { (({ s with sync := { s.sync with offset := o } } : State).correct o).sync with
        good := if o.natAbs ≤ 60 then s.sync.good + 1 else 0 } } := by
  have hshort : ¬16 ≤ (if o.natAbs ≤ 60 then s.sync.good + 1 else 0) := by
    split <;> omega
  simp only [State.measure, hstep, Option.isSome_none, Bool.false_eq_true, if_false, hst, hshort]

theorem measure_of_locked (hstep : s.sync.step = none) (hst : s.sync.st = .locked) (hno : o.natAbs ≤ 3000 ∨ s.sync.bad < 3) :
    s.measure o = ({ s with sync := { s.sync with offset := o, bad := if 3000 < o.natAbs then s.sync.bad + 1 else 0 } } : State).servo o := by
  have hshort : ¬4 ≤ (if 3000 < o.natAbs then s.sync.bad + 1 else 0) := by
    split <;> omega
  simp only [State.measure, hstep, Option.isSome_none, Bool.false_eq_true, if_false, hst, hshort]

theorem measure_loses (hstep : s.sync.step = none) (hst : s.sync.st = .locked) (hlarge : 3000 < o.natAbs) (hrun : 3 ≤ s.sync.bad) :
    s.measure o = (({ s with sync := { s.sync with offset := o } } : State).enterSync .acquiring (some .timeLost)).correct o := by
  have hfour : 4 ≤ s.sync.bad + 1 := by omega
  simp only [State.measure, hstep, Option.isSome_none, Bool.false_eq_true, if_false, hst, hlarge, hfour, if_true]
end

/-- Settles O38: the messages and timeouts of a port, the offsets of the SLAVE port, then holdover, steps and SYNC_IN. -/
theorem timeTransfer : Obligations.TimeTransfer := by
  unfold Obligations.TimeTransfer
  refine ⟨?_, ?_, fun s => ?_⟩
  · rintro s p x rfl
    have hsync (m : PtpMedia) (w : SyncMsg) : exec (.syncReceive p m w) s = execSyncReceive p m w s := rfl
    have hann (a : Announce) : exec (.announceReceive p a) s = execAnnounceReceive p a s := rfl
    have hsyncTo : exec (.syncReceiptTimeout p) s = execSyncReceiptTimeout p s := rfl
    have hannTo : exec (.announceReceiptTimeout p) s = execAnnounceReceiptTimeout p s := rfl
    have htx : exec (.txTimestampMissing p) s = execTxTimestampMissing p s := rfl
    have hfaulty : exec (.faultyEnd p) s = execFaultyEnd p s := rfl
    refine ⟨?_, ?_, fun hact a => if_pos hact, ⟨rfl, rfl⟩, fun hst hle hserv => ?_, fun hno => ?_, fun hsome hle hserv => ?_, fun hno => ?_,
      fun hlive => ?_, fun hlive => ?_, fun hst hle => ?_, fun hno => ?_⟩
    · rintro m sdo dom off k w rfl
      refine ⟨hears_iff .., fun hno => ?_, fun hlive hmedia hhears hk t ht => ⟨fun hst hserv => ?_, fun hno => ?_⟩⟩
      · rw [hsync, execSyncReceive]
        rcases hno with hno | hno | hno | hno <;> simp [hno]
      · simp only [hsync, execSyncReceive, hlive, hmedia, hhears, hk, Bool.and_self, if_true, hst, hserv, and_self, ← ht]
      · have hnot : ¬((s.sync.ports[p.val]).st = .slave ∧ s.serving = true) := by
          rcases hno with hno | hno <;> simp [hno]
        simp only [hsync, execSyncReceive, hlive, hmedia, hhears, hk, Bool.and_self, if_true, hnot, if_false, ← ht]
    · rintro a y rfl
      refine ⟨fun hno => ?_, fun hlive hserv hmedia t ht => ⟨fun hhears => ?_, fun hhears => ?_⟩⟩
      · rw [hann, execAnnounceReceive]
        rcases hno with hno | hno | hno <;> simp [hno]
      · simp only [hann, execAnnounceReceive, hlive, hserv, hmedia, Bool.and_self, if_true, hhears, ← ht]
      · simp only [hann, execAnnounceReceive, hlive, hserv, hmedia, Bool.and_self, if_true, hhears, Bool.false_eq_true, if_false, ← ht]
    · simp only [hsyncTo, execSyncReceiptTimeout, hst, hle, hserv, and_self, if_true]
      rfl
    · rw [hsyncTo, execSyncReceiptTimeout]
      rcases hno with hno | hno | hno
      · simp [hno]
      · simp [Nat.not_le.mpr hno]
      · simp [hno]
    · have hheard : ((s.sync.ports[p.val]).ann.isSome || (s.sync.ports[p.val]).st == .listening) = true := by
        rcases hsome with hsome | hsome
        · simp [Option.isSome_iff_ne_none.2 hsome]
        · simp [hsome]
      simp only [hannTo, execAnnounceReceiptTimeout, hheard, hle, hserv, decide_true, Bool.and_self, if_true]
      rfl
    · rw [hannTo, execAnnounceReceiptTimeout]
      rcases hno with ⟨hnone, hst⟩ | hno | hno
      · simp [hnone, hst]
      · simp [Nat.not_le.mpr hno]
      · simp [hno]
    · simp only [htx, execTxTimestampMissing, hlive, if_true]
    · simp only [htx, execTxTimestampMissing, hlive, Bool.false_eq_true, if_false]
    · simp only [hfaulty, execFaultyEnd, hst, hle, and_self, if_true]
    · rw [hfaulty, execFaultyEnd]
      rcases hno with hno | hno
      · simp [hno]
      · simp [Nat.not_le.mpr hno]
  · rintro s o t rfl
    refine ⟨measure_of_step o, fun hstep hst hsmall hrun => ?_, fun hstep hst hno => ⟨fun hle => ?_, fun hlt => ?_⟩, ?_,
      measure_loses o, fun hstep hst => ?_⟩
    · obtain ⟨hlock, hsince, hgood, -⟩ := enterSync_spec ({ s with sync := { s.sync with offset := o } } : State) .locked .timeLock
      rw [measure_locks o hstep hst hsmall hrun]
      refine ⟨hlock, rfl, rfl, hsince, hgood, ?_⟩
      exact enterSync_dies ({ s with sync := { s.sync with offset := o } } : State) .locked (some .timeLock)
    · rw [measure_acquires o hstep hst hno]
      simp only [State.correct, hle, if_true]
    · rw [measure_acquires o hstep hst hno]
      simp only [State.correct, Nat.not_le.mpr hlt, if_false]
    · rintro hstep hst hno v rfl
      rw [measure_of_locked o hstep hst hno]
      rfl
    · rcases hst with hst | hst <;> simp only [State.measure, hstep, hst, Option.isSome_none, Bool.false_eq_true, if_false]
  · have hhold : exec .holdoverLimit s = execHoldoverLimit s := rfl
    have hstep : exec .timeStep s = execTimeStep s := rfl
    have hedge (lo hi : Nat) : exec (.syncInEdge lo hi) s = execSyncInEdge lo hi s := rfl
    refine ⟨fun hst hle htick => ?_, fun hno => ?_, fun ts dl hs => ⟨fun hle => ?_, fun hlt => ?_⟩, fun hs => ?_,
      fun lo hi => ⟨fun hno => ?_, fun hserv hlo hhi => ⟨fun l hl hlt => ?_, fun hpast => ?_⟩⟩⟩
    · obtain ⟨hun, hsince, -, hacc⟩ := enterSync_spec s .unlocked .timeLost
      obtain ⟨hfr, -⟩ := syncChange_enterSync s .unlocked (some .timeLost)
      simp only [hhold, execHoldoverLimit, hst, hle, htick, and_self, if_true]
      refine ⟨_, rfl, hun, hacc rfl, ?_, hsince, ?_⟩
      · rw [State.commit_dies, hfr]
      · rw [State.commit_core, hfr]
    · rw [hhold, execHoldoverLimit]
      rcases hno with hno | hno | hno
      · simp [hno]
      · simp [Nat.not_le.mpr hno]
      · simp [hno]
    · simp only [hstep, execTimeStep, hs, if_pos hle]
    · simp only [hstep, execTimeStep, hs, if_neg (Nat.not_le.mpr hlt)]
    · simp only [hstep, execTimeStep, hs]
    · rw [hedge, execSyncInEdge]
      rcases hno with hno | hno | hno
      · simp [hno]
      · simp [Nat.not_le.mpr hno]
      · simp [Nat.not_le.mpr hno]
    · simp only [hedge, execSyncInEdge, hserv, hlo, hhi, decide_true, Bool.and_self, if_true, hl, hlt]
    · rw [hedge, execSyncInEdge]
      simp only [hserv, hlo, hhi, decide_true, Bool.and_self, if_true]
      cases hl : s.sync.syncLast with
      | none => simp only [Bool.false_eq_true, if_false]
      | some l =>
        have hnot : ¬s.clk.elapsed < l + us := Nat.not_lt.mpr (hpast l hl)
        simp only [hnot, decide_false, Bool.false_eq_true, if_false]

end Sys2Proof
end

section
namespace Sys2Proof
open Machine

/-! ### Link loss and the end of a session (R358, R360) -/

theorem lossDue_iff (s : State) (x : Session) : s.lossDue x = true ↔
    x.control ≠ 0 ∧ x.lost = false ∧ (s.cutOff x.port = true ∨ x.lastRx + 3 * x.ka * ms ≤ s.clk.elapsed) := by
  simp [State.lossDue, and_assoc]

theorem session_modSess (c : Core) (i j : Fin 8) (f : Session → Session) :
    (c.modSess i f).session j = if i = j then (c.session j).map f else c.session j := by
  simp only [Core.session, Core.modSess, vmod_at, Fin.val_inj]

/-- HOLD_REQ is set on the channels in an output mode of the dies that a session controls (R358). -/
theorem levels_setHold (s : State) (mask : Nat) (d : DieId) (c : ChanId) : (((s.setHold mask).core.levels[d.val])[c.val]).hold =
    (((s.core.levels[d.val])[c.val]).hold || (Nat.testBit mask d.val && (s.die d).present && isOutMode ((s.die d).chan c).mode)) := by
  have hone (b : Bool) (v : Vector Levels 16) :
      ((if b then vmap v fun i (x : Levels) => if isOutMode ((s.die d).chan i).mode then { x with hold := true } else x else v)[c.val]).hold =
        ((v[c.val]).hold || (b && isOutMode ((s.die d).chan c).mode)) := by
    cases b with
    | false => simp
    | true =>
      simp only [if_true, vmap_at, Bool.true_and]
      cases hout : isOutMode ((s.die d).chan c).mode <;> simp
  simp only [State.setHold, State.modCore, vmap_at]
  exact hone _ _

theorem session_setHold (s : State) (mask : Nat) (j : Fin 8) : (s.setHold mask).core.session j = s.core.session j := rfl

/-- Link loss that is declared marks its session and asks for a hold (R358). -/
theorem declareLoss_spec {s : State} {i : Fin 8} {x : Session} (hx : s.core.session i = some x) (hdue : s.lossDue x = true) :
    (s.declareLoss i).core.session i = some { x with lost := true } ∧
      (∀ j, j ≠ i → (s.declareLoss i).core.session j = s.core.session j) ∧ (s.declareLoss i).dies = s.dies ∧
      ∀ (d : DieId) (c : ChanId), (((s.declareLoss i).core.levels[d.val])[c.val]).hold =
        (((s.core.levels[d.val])[c.val]).hold || (Nat.testBit x.control d.val && (s.die d).present && isOutMode ((s.die d).chan c).mode)) := by
  have hstep : s.declareLoss i = (s.modCore (·.modSess i fun y => { y with lost := true })).setHold x.control := by
    simp only [State.declareLoss, hx, hdue, if_true]
  have hsess (j : Fin 8) : (s.declareLoss i).core.session j =
      if i = j then (s.core.session j).map (fun y => { y with lost := true }) else s.core.session j := by
    rw [hstep, session_setHold, State.modCore_core, session_modSess]
  refine ⟨?_, fun j hj => ?_, ?_, fun d c => ?_⟩
  · rw [hsess, if_pos rfl, hx]
    rfl
  · rw [hsess, if_neg (Ne.symm hj)]
  · rw [hstep]
    rfl
  · rw [hstep]
    exact levels_setHold (s.modCore (·.modSess i fun y => { y with lost := true })) x.control d c

/-- HOLD_REQ of every channel on the dies of a mask is cleared (R360). -/
theorem levels_clearHold (s : State) (mask : Nat) (d : DieId) (c : ChanId) (hm : Nat.testBit mask d.val = true) :
    (((s.clearHold mask).core.levels[d.val])[c.val]).hold = false := by
  simp only [State.clearHold, State.modCore, vmap_at, hm, if_true, Vector.getElem_map]

/-- A session whose RETRY has run out leaves its place free, its streams closed and its holds gone (R360). -/
theorem endSession_lost {s : State} {i : Fin 8} {x : Session} (hx : s.core.session i = some x) :
    ∃ l v, (s.endSession i true).core = { s.core with streams := l, levels := v, sess := vmod s.core.sess i fun _ => none } ∧
      (∀ y ∈ l, y.who = .udp i x.epoch → y.isOpen = false) ∧
      ∀ (d : DieId) (c : ChanId), Nat.testBit x.control d.val = true → ((v[d.val])[c.val]).hold = false := by
  have hend : s.endSession i true = ((((s.modCore fun c => { (c.closeStreams fun y => y.who == .udp i x.epoch) with
      sess := vmod c.sess i fun _ => none }).sendTo (fun d => Nat.testBit x.control d.val && (s.die d).on)
        fun d k => k.endHolds d (s.dq d)).clearHold x.control).resumeOn).raiseNow .sessionLost [] := by
    simp only [State.endSession, hx, if_true]
  obtain ⟨l, hl, hmem⟩ := resumeOn_streams (((s.modCore fun c => { (c.closeStreams fun y => y.who == .udp i x.epoch) with
    sess := vmod c.sess i fun _ => none }).sendTo (fun d => Nat.testBit x.control d.val && (s.die d).on)
      fun d k => k.endHolds d (s.dq d)).clearHold x.control)
  refine ⟨l, (s.clearHold x.control).core.levels, ?_, fun y hy hwho => ?_, fun d c hm => levels_clearHold s _ d c hm⟩
  · rw [hend, raiseNow_eq, raise_core, hl]
    simp only [State.modCore, State.clearHold, Core.closeStreams, sendTo_core]
  · obtain ⟨z, hz, hyz⟩ := hmem y hy
    have hclosed : z.who = .udp i x.epoch → z.isOpen = false := not_open_of_mem_closeStreams hz
    rcases hyz with hyz | hyz <;> subst hyz <;> exact hclosed hwho

theorem session_ended (c : Core) (i j : Fin 8) : (vmod c.sess i fun _ => none)[j.val] = if i = j then none else c.session j := by
  simp only [vmod_at, Fin.val_inj, Core.session]

/-! ### Octets over the String (R351) -/

theorem sendStr_waits {s : State} {h : HubId} {type : StrType} (w : Dword) (f : State → State) (hw : s.strWaits h type = true) :
    s.sendStr h type w f = s := by
  simp [State.sendStr, hw]

/-- Only the active hub's String frames wait for mirror units (R280). -/
theorem strWaits_other {s : State} {h : HubId} (hne : h ≠ s.active) (type : StrType) : s.strWaits h type = false := by
  simp [State.strWaits, hne]

section
variable {s : State} {p : PortId} {f : List Byte} (hdual : s.variant.dual = true) (hown : s.portOwner p ≠ s.active)
  (hu : (s.hub (s.portOwner p)).up = true) (ha : s.act.up = true)
include hdual hown hu ha

theorem relay_out (hwaits : s.relayWaits p true = true) : exec (.portRelayReceive p true f) s =
    .next (State.commit s (s.sendStr s.active .portRelay (BitVec.ofNat 64 (leAt f 0 8)) fun t =>
      { t with net := { t.net with egress := vmod t.net.egress p carryOut } })) := by
  have hexec : exec (.portRelayReceive p true f) s = execPortRelayReceive p true f s := rfl
  simp only [hexec, execPortRelayReceive, hdual, hown, hu, ha, hwaits, ne_eq, not_false_eq_true, decide_true, Bool.and_self, if_true]

theorem relay_in (hsome : s.net.relay ≠ []) : exec (.portRelayReceive p false f) s =
    .next (State.commit s (s.sendStr (s.portOwner p) .portRelay (BitVec.ofNat 64 (leAt f 0 8)) State.relayIn)) := by
  have hexec : exec (.portRelayReceive p false f) s = execPortRelayReceive p false f s := rfl
  have hwaits : s.relayWaits p false = true := by simp [State.relayWaits, hsome]
  simp only [hexec, execPortRelayReceive, hdual, hown, hu, ha, hwaits, ne_eq, not_false_eq_true, decide_true, Bool.and_self, if_true,
    Bool.false_eq_true, if_false]
end

/-- Settles O39: sessions and keys first, then the ports and the String's relay. -/
theorem linksAndSessions : Obligations.LinksAndSessions := by
  unfold Obligations.LinksAndSessions
  refine ⟨⟨fun s i x hx hserv => ?_, fun s i hserv => ?_, fun s i hno => ?_, fun s => ?_⟩, ?_⟩
  · have hloss : exec (.linkLossDeclare i) s = execLinkLossDeclare i s := rfl
    have htime : exec (.sessionTimeout i) s = execSessionTimeout i s := rfl
    refine ⟨lossDue_iff s x, fun hdue => ?_, fun hno => ?_, fun hlt => ?_, fun hle => ?_⟩
    · obtain ⟨hown, hothers, hdies, hlevels⟩ := declareLoss_spec hx hdue
      refine ⟨State.commit s (s.declareLoss i), ?_, ?_, ?_, ?_, ?_⟩
      · simp only [hloss, execLinkLossDeclare, hserv, if_true]
      · rw [State.commit_core, hown]
      · rw [State.commit_core]
        exact hothers
      · rw [State.commit_dies, hdies]
      · rw [State.commit_core]
        exact hlevels
    · simp only [hloss, execLinkLossDeclare, hserv, if_true, State.declareLoss, hx, hno, Bool.false_eq_true, if_false]
    · have hnot : ¬x.lastRx + x.retry * sec ≤ s.clk.elapsed := Nat.not_le.mpr hlt
      simp only [htime, execSessionTimeout, hx, hnot, decide_false, Bool.and_false, Bool.false_eq_true, if_false]
    · obtain ⟨l, v, hcore, hclosed, hholds⟩ := endSession_lost hx
      simp only [htime, execSessionTimeout, hx, hserv, hle, decide_true, Bool.and_self, if_true]
      refine ⟨_, rfl, ?_, fun j hj => ?_, ?_, ?_, ?_, ?_⟩
      · rw [State.commit_core, hcore]
        exact (session_ended ..).trans (if_pos rfl)
      · rw [State.commit_core, hcore]
        exact (session_ended ..).trans (if_neg (Ne.symm hj))
      · rw [State.commit_core, hcore]
        exact hclosed
      · rw [State.commit_core, hcore]
        exact hholds
      · rw [State.commit_core, hcore]
      · rw [State.commit_core, hcore]
  · have hloss : exec (.linkLossDeclare i) s = execLinkLossDeclare i s := rfl
    have htime : exec (.sessionTimeout i) s = execSessionTimeout i s := rfl
    refine ⟨?_, ?_⟩
    · simp only [hloss, execLinkLossDeclare, hserv, Bool.false_eq_true, if_false]
    · rw [htime, execSessionTimeout]
      split
      · simp only [hserv, Bool.false_and, Bool.false_eq_true, if_false]
      · rfl
  · have htime : exec (.sessionTimeout i) s = execSessionTimeout i s := rfl
    simp only [htime, execSessionTimeout, hno]
  · have hgrace : exec .keyGraceExpiry s = execKeyGraceExpiry s := rfl
    refine ⟨fun hstep b => if_pos hstep, fun hstep => ⟨fun hno b => ?_, fun hdual hstr => ⟨fun hpast => ?_, fun t ht hlt => ?_⟩⟩,
      fun o n till w hg hserv hle => ⟨fun hno => ?_, fun r hr t ht => ?_⟩, fun hno => ?_, fun o n till w hg hlt => ?_⟩
    · have halone : (!s.variant.dual || s.mirror.str.st != .trained) = true := by
        rcases hno with hno | hno <;> simp [hno]
      simp only [State.takeRole, hstep, ne_eq, not_true_eq_false, if_false, halone, if_true]
    · have hfree : heldNow (s.hub (other s.active)).keyRole s.clk.elapsed = false := by
        unfold heldNow
        split
        · next t ht => exact decide_eq_false (Nat.not_lt.mpr (hpast t ht))
        · rfl
      simp only [State.takeRole, hstep, ne_eq, not_true_eq_false, if_false, hdual, hstr, Bool.not_true, bne_self_eq_false, Bool.or_self,
        Bool.false_eq_true, if_true, hfree]
    · have hheld : heldNow (s.hub (other s.active)).keyRole s.clk.elapsed = true := by
        simp only [heldNow, ht, hlt, decide_true]
      simp only [State.takeRole, hstep, ne_eq, not_true_eq_false, if_false, hdual, hstr, Bool.not_true, bne_self_eq_false, Bool.or_self,
        Bool.false_eq_true, if_true, hheld]
    · simp only [hgrace, execKeyGraceExpiry, hg, hserv, hle, decide_true, Bool.and_self, if_true, hno]
    · subst ht
      simp only [hgrace, execKeyGraceExpiry, hg, hserv, hle, decide_true, Bool.and_self, if_true, hr]
      rfl
    · rw [hgrace, execKeyGraceExpiry]
      split
      · next hg =>
        have hserv : s.serving = false := hno.resolve_left (by simp [hg])
        simp only [hserv, Bool.false_and, Bool.false_eq_true, if_false]
      · rfl
    · have hnot : ¬till ≤ s.clk.elapsed := Nat.not_le.mpr hlt
      simp only [hgrace, execKeyGraceExpiry, hg, hnot, decide_false, Bool.and_false, Bool.false_eq_true, if_false]
  · rintro s p x rfl
    have hdown : exec (.linkDown p) s = execLinkDown p s := rfl
    have hup (v : Speed) : exec (.linkUp p v) s = execLinkUp p v s := rfl
    have hspeed (v : Speed) : exec (.speedRenegotiate p v) s = execSpeedRenegotiate p v s := rfl
    have hgate : exec (.gateCycleStart p) s = execGateCycleStart p s := rfl
    have hsuper : exec .supervisionFrameSend s = execSupervisionFrameSend s := rfl
    have hrelay (b : Bool) (f : List Byte) : exec (.portRelayReceive p b f) s = execPortRelayReceive p b f s := rfl
    refine ⟨fun hl hu t ht => ⟨fun hserv => ?_, fun hserv => ?_⟩, fun hno => ?_, fun v => ⟨fun hr hl hv => ?_, fun hno => ?_,
      fun hr hl hv => ?_, fun hno => ?_⟩, fun hu hm => ?_, fun hno => ?_, fun hserv hmode hle => ?_, fun hno => ?_, rfl,
      fun b f => ⟨fun hno => ?_, ?_⟩, fun n x l => ⟨fun h0 => if_pos h0, fun h0 => if_neg h0⟩⟩
    · simp only [hdown, execLinkDown, hl, hu, Bool.and_self, if_true, hserv, ← ht]
    · simp only [hdown, execLinkDown, hl, hu, Bool.and_self, if_true, hserv, Bool.false_eq_true, if_false, ← ht]
    · rw [hdown, execLinkDown]
      rcases hno with hno | hno <;> simp [hno]
    · simp only [hup, execLinkUp, hr, hl, hv, Bool.not_false, decide_true, Bool.and_self, if_true]
    · rw [hup, execLinkUp]
      rcases hno with hno | hno | hno
      · simp [hno]
      · simp [hno]
      · simp [Nat.not_le.mpr hno]
    · simp only [hspeed, execSpeedRenegotiate, hr, hl, hv, decide_true, Bool.and_self, if_true]
    · rw [hspeed, execSpeedRenegotiate]
      rcases hno with hno | hno | hno
      · simp [hno]
      · simp [hno]
      · simp [Nat.not_le.mpr hno]
    · simp only [hgate, execGateCycleStart, hu, hm, decide_true, Bool.and_self, if_true]
      rfl
    · rw [hgate, execGateCycleStart]
      rcases hno with hno | hno <;> simp [hno]
    · have hred : (s.net.mode != 0) = true := bne_iff_ne.2 hmode
      simp only [hsuper, execSupervisionFrameSend, hserv, hred, hle, decide_true, Bool.and_self, if_true]
      rfl
    · rw [hsuper, execSupervisionFrameSend]
      rcases hno with hno | hno | hno
      · simp [hno]
      · simp [hno]
      · simp [Nat.not_le.mpr hno]
    · rw [hrelay, execPortRelayReceive]
      rcases hno with hno | hno | hno | hno | hno <;> simp [hno]
    · rintro hdual hown hu ha w rfl
      refine ⟨fun hwaits => ⟨fun hon hwire hcan => ⟨fun hseq t ht => ?_, fun hseq => ?_⟩, fun hno => ?_⟩, fun q g n rest hrelayed =>
        ⟨fun hno => ?_, fun hon hcan => ⟨fun hseq => ?_, fun hseq t ht => ⟨fun hn => ?_, fun hn => ?_⟩⟩⟩⟩
      · have hfree : s.strWaits s.active .portRelay = false := by simp [State.strWaits, hwire]
        rw [relay_out hdual hown hu ha hwaits, sendStr_passed _ _ hon hcan hfree hseq, ← ht]
      · have hfree : s.strWaits s.active .portRelay = false := by simp [State.strWaits, hwire]
        rw [relay_out hdual hown hu ha hwaits, sendStr_stray _ _ hon hcan hfree hseq]
      · rw [relay_out hdual hown hu ha hwaits]
        rcases hno with hno | hno | hno
        · rw [sendStr_blocked _ _ (.inl hno)]
        · rw [sendStr_waits]
          simp [State.strWaits, hno]
        · rw [sendStr_blocked _ _ (.inr hno)]
      · rw [relay_in hdual hown hu ha (by simp [hrelayed]), sendStr_blocked _ _ hno]
      · rw [relay_in hdual hown hu ha (by simp [hrelayed]), sendStr_stray _ _ hon hcan (strWaits_other hown _) hseq]
      · rw [relay_in hdual hown hu ha (by simp [hrelayed]),
          sendStr_passed _ _ hon hcan (strWaits_other hown _) hseq, ← ht]
        have ht' : t.net.relay = (q, g, n) :: rest := by
          rw [ht, ← hrelayed]
          rfl
        simp only [State.relayIn, ht', Nat.not_le.mpr hn, if_false]
      · rw [relay_in hdual hown hu ha (by simp [hrelayed]),
          sendStr_passed _ _ hon hcan (strWaits_other hown _) hseq, ← ht]
        have ht' : t.net.relay = (q, g, n) :: rest := by
          rw [ht, ← hrelayed]
          rfl
        simp only [State.relayIn, ht', hn, if_true]

end Sys2Proof
end

section
namespace Sys2Proof
open Machine

/-! ### What leaves to sessions (R80, R366, R367, R386) -/

theorem sessOf_live {c : Core} {i : Fin 8} {y : Session} (h : c.session i = some y) : c.sessOf (.udp i y.epoch) = some y := by
  simp [Core.sessOf, h]
theorem sessOf_none_iff (c : Core) (i : Fin 8) (e : Nat) : c.sessOf (.udp i e) = none ↔ ∀ y, c.session i = some y → y.epoch ≠ e := by
  simp [Core.sessOf, Option.filter_eq_none_iff]

/-! ### The writer of the event log (R300 to R303) -/

/-- A write takes the next SEQ and stands first in the ring; what is staged stays. -/
theorem write_spec (l : Log) (mask : Nat) (r : LogRec) :
    (l.write mask r).2.seq = l.seq ∧ (l.write mask r).1.ring = ((l.write mask r).2 :: l.ring).take 4096 ∧
      (l.write mask r).1.seq = (l.seq + 1) % 2 ^ 32 ∧ (l.write mask r).1.staged = l.staged := by
  unfold Log.write Log.waitCopy
  dsimp only
  split
  · split
    · exact ⟨rfl, rfl, rfl, rfl⟩
    · split <;> exact ⟨rfl, rfl, rfl, rfl⟩
  · exact ⟨rfl, rfl, rfl, rfl⟩

theorem writeSummaries_of_staged {l : Log} (hne : l.staged ≠ []) (h : HubId) (mask : Nat) : l.writeSummaries h mask = l := by
  have hsome : l.staged.isEmpty = false := by simpa using hne
  simp only [Log.writeSummaries, hsome, Bool.false_eq_true, if_false]

theorem modHub_of_fixed (s : State) (h : HubId) {f : Hub → Hub} (hf : f (s.hub h) = s.hub h) : s.modHub h f = s := by
  simp only [State.modHub, vmod_of_fixed s.hubs h (f := f) hf]
theorem modHub_congr (s : State) (h : HubId) {f g : Hub → Hub} (hfg : f (s.hub h) = g (s.hub h)) : s.modHub h f = s.modHub h g := by
  simp only [State.modHub, vmod_congr s.hubs h (f := f) (g := g) hfg]

/-- A copy to the black box begins 100 µs after the last at the earliest (R303). -/
theorem copies {s : State} {h : HubId} (hpres : (s.hub h).present = true) (hup : (s.hub h).up = true) (hfree : (s.hub h).log.bbFrozen = false)
    (hlast : ∀ t, (s.hub h).log.bbLast = some t → t + 100 * us ≤ s.clk.elapsed) :
    execBlackBoxCopy h s = .next (s.modHub h fun y => { y with log := y.log.copyNow s.clk.elapsed }) := by
  cases ht : (s.hub h).log.bbLast with
  | none => simp only [execBlackBoxCopy, hpres, hup, hfree, ht, Bool.not_false, Bool.and_self, if_true]
  | some t =>
    have hle := hlast t ht
    simp only [execBlackBoxCopy, hpres, hup, hfree, ht, hle, decide_true, Bool.not_false, Bool.and_self, if_true]

/-- Settles O40: blocks, event datagrams, the writer of the log, and the black box. -/
theorem blocksAndEvents : Obligations.BlocksAndEvents := by
  unfold Obligations.BlocksAndEvents
  have hblock (n : Fin 64) (s : State) : exec (.streamBlockSend n) s = execStreamBlockSend n s := rfl
  have hevent (w : Who) (s : State) : exec (.eventDatagramSend w) s = execEventDatagramSend w s := rfl
  have hlog (h : HubId) (s : State) : exec (.logWrite h) s = execLogWrite h s := rfl
  have hbox (h : HubId) (s : State) : exec (.blackBoxCopy h) s = execBlackBoxCopy h s := rfl
  refine ⟨⟨?_, fun s n hno => ?_, fun s n x hx hno => ?_, fun s => ⟨fun i y hserv hy hq hleaves => ?_, fun i e hno => ?_,
    fun i e => sessOf_none_iff .., fun i y hy hno => ?_, fun hserv hq => ?_, fun hserv => ?_⟩⟩, ?_, fun s h hno => ?_,
    fun s h => ⟨fun hpres hup hfree hlast => ⟨fun r rest hw => ?_, fun hw => ?_⟩, fun hno => ?_⟩⟩
  · rintro s n x i y id b m hx hwho hy hnext rfl
    have hsess : s.core.sessOf x.who = some y := by rw [hwho, sessOf_live hy]
    refine ⟨fun hserv hleaves => ?_, fun hno => ?_⟩
    · rw [hblock, execStreamBlockSend]
      simp only [hx]
      rw [hwho] at *
      simp only [hnext, hsess, hserv, hleaves, Bool.and_self, if_true]
      rfl
    · rw [hblock, execStreamBlockSend]
      simp only [hx]
      rw [hwho] at *
      simp only [hnext, hsess]
      rcases hno with hno | hno <;> simp [hno]
  · simp only [hblock, execStreamBlockSend, hno]
  · rw [hblock, execStreamBlockSend]
    simp only [hx]
    split
    · next i e id b hwho hnext =>
      rcases hno with hno | hno
      · simp [hno] at hnext
      · simp only [hno]
    · rfl
  · have hsome : (y.evq.isEmpty || !s.classLeaves 5 y.port (wireOctets ((y.evq.take 44).flatMap LogRec.bytes).length (s.net.mode == 1))) =
        false := by
      rw [hleaves, List.isEmpty_eq_false_iff.2 hq]
      rfl
    simp only [hevent, execEventDatagramSend, hserv, if_true, sessOf_live hy, hsome, Bool.false_eq_true, if_false]
    rfl
  · rw [hevent, execEventDatagramSend]
    rcases hno with hno | hno <;> simp [hno]
  · have hstays : (y.evq.isEmpty || !s.classLeaves 5 y.port (wireOctets ((y.evq.take 44).flatMap LogRec.bytes).length (s.net.mode == 1))) =
        true := by
      rcases hno with hno | hno
      · rw [hno]
        rfl
      · rw [hno, Bool.not_false, Bool.or_true]
    simp only [hevent, execEventDatagramSend, sessOf_live hy, hstays, if_true, ite_self]
  · have hsome : s.core.spi.evq.isEmpty = false := List.isEmpty_eq_false_iff.2 hq
    simp only [hevent, execEventDatagramSend, hserv, if_true, State.spiEvents, hsome, Bool.false_eq_true, if_false]
    rfl
  · simp only [hevent, execEventDatagramSend, hserv, Bool.false_eq_true, if_false]
  · rintro s h r rest hst hpres hup m l w rfl hlw
    obtain ⟨hseq, hring, hnext, hstaged⟩ := write_spec { (s.hub h).log with staged := rest } (s.coreOf h).logr.bbMask r
    rw [← hlw] at hseq hring hnext hstaged
    refine ⟨hseq, hring, hnext, hstaged, fun hne => writeSummaries_of_staged (by rw [hstaged]; exact hne) h _, fun hact hoff => ?_,
      fun hdeliver => ?_⟩
    · simp only [hlog, execLogWrite, hst, hpres, hup, Bool.and_self, if_true, ← hlw, hact, decide_false, hoff, Bool.or_self,
        Bool.false_eq_true, if_false]
    · have hon : (decide (h = s.active) || s.strung) = true := by
        rcases hdeliver with hdeliver | hdeliver <;> simp [hdeliver]
      simp only [hlog, execLogWrite, hst, hpres, hup, Bool.and_self, if_true, ← hlw, hon]
  · rw [hlog, execLogWrite]
    split
    · next r rest hst =>
      rcases hno with hno | hno | hno
      · simp [hno] at hst
      · simp [hno]
      · simp [hno]
    · rfl
  · rw [hbox, copies hpres hup hfree hlast]
    exact congrArg Host.Outcome.next (modHub_congr s h (by simp only [Log.copyNow, hw]))
  · rw [hbox, copies hpres hup hfree hlast, modHub_of_fixed s h (by simp only [Log.copyNow, hw])]
  · rw [hbox, execBlackBoxCopy]
    rcases hno with hno | hno | ⟨t, ht, hlt⟩
    · simp [hno]
    · simp [hno]
    · simp only [ht, Nat.not_le.mpr hlt, decide_false, Bool.and_false, Bool.false_eq_true, if_false]

end Sys2Proof
end

section
namespace Sys2Proof
open Machine

/-! ### Execution of an entry (R59, R70, R71, R73) -/

theorem execute_waits {s : State} {id : Nat} {e : Entry} (hq : s.queued id = some e)
    (h : (s.die e.ch.die).ripe e = false ∨ s.waitsForT e = true) : exec (.entryExecute id) s = .next s := by
  have hexec : exec (.entryExecute id) s = execEntryExecute id s := rfl
  rw [hexec, execEntryExecute, hq]
  rcases h with h | h <;> simp [h]

/-- Once the replica has reached the entry's instant nothing still to come holds it back. -/
theorem waitsForT_of_reached {s : State} {e : Entry} (ht : e.nextAt ≤ (s.die e.ch.die).replica)
    (htr : ∀ tm, (s.chan e.ch).trans = some tm → e.nextAt < tm + 50 * us) : s.waitsForT e = false := by
  have hnot : (((s.die e.ch.die).chan e.ch.c).trans.any fun tm => decide (tm + 50 * us ≤ e.nextAt)) = false := by
    rw [Option.any_eq_false]
    intro tm htm
    simpa using Nat.not_le.mpr (htr tm htm)
  simp only [State.waitsForT, hnot, decide_eq_false (Nat.not_lt.mpr ht), Bool.and_false, Bool.false_and, Bool.or_false]

theorem waitsForT_of_transition {s : State} {e : Entry} {tm : Tick} (htm : (s.chan e.ch).trans = some tm) (hop : e.e.isTransOut = true)
    (hle : tm + 50 * us ≤ e.nextAt) : s.waitsForT e = true := by
  have htm' : ((s.die e.ch.die).chan e.ch.c).trans = some tm := htm
  simp only [State.waitsForT, htm', hop, Option.any_some, decide_eq_true hle, Bool.and_self, Bool.true_or]

theorem executes {s : State} {id : Nat} {e : Entry} (hq : s.queued id = some e) (hripe : (s.die e.ch.die).ripe e = true)
    (hw : s.waitsForT e = false) :
    (s.missedAt e e.nextAt = true → exec (.entryExecute id) s = .next (s.modDie e.ch.die (·.finish id .missed))) ∧
    (s.missedAt e e.nextAt = false → exec (.entryExecute id) s = .next (State.commit s ((s.perform e e.nextAt).noteExecuted e
      ((s.die e.ch.die).unit e.ch.c ++ ((s.perform e e.nextAt).die e.ch.die).unit e.ch.c)))) := by
  have hexec : exec (.entryExecute id) s = execEntryExecute id s := rfl
  constructor <;> intro hm <;>
    simp only [hexec, execEntryExecute, hq, hripe, hw, hm, Bool.not_false, Bool.and_self, Bool.false_eq_true, if_true, if_false]

/-- In a D variant an entry that has not reached its queue by its TIME is missed (R290). -/
theorem execute_unqueued {s : State} {id : Nat} (hq : s.queued id = none) :
    (∀ e, s.core.entry id = some e → s.variant.dual = true → s.serving = true → e.unqueued = true →
      e.e.time.toNat ≤ s.clk.now → s.isHeld (.retire id) = false →
      exec (.entryExecute id) s = .next (State.commit s (s.outcome id .missed))) ∧
    (∀ e, s.core.entry id = some e → (s.variant.dual = false ∨ s.clk.now < e.e.time.toNat) → exec (.entryExecute id) s = .next s) ∧
    (s.core.entry id = none → exec (.entryExecute id) s = .next s) := by
  have hexec : exec (.entryExecute id) s = .next (s.unqueuedMiss id) := by
    have hexec : exec (.entryExecute id) s = execEntryExecute id s := rfl
    rw [hexec, execEntryExecute, hq]
  rw [hexec, State.unqueuedMiss]
  refine ⟨fun e he hd hs hu ht hh => ?_, fun e he hno => ?_, fun he => ?_⟩
  · simp only [he, hd, hs, hu, hh, decide_eq_true ht, Bool.not_false, Bool.and_self, if_true]
  · rw [he]
    rcases hno with hd | ht
    · simp [hd]
    · simp [Nat.not_le.mpr ht]
  · rw [he]

/-! ### An OUT_SET on one channel (R101, R235, R236) -/

theorem held_out (k : Channel) (off : Bool) : (k.held off).out = { k.out with drive := k.out.drive && !off } := by
  unfold Channel.held
  cases off <;> cases hd : k.out.drive <;> simp
  all_goals rw [← hd]

theorem commanded_drive (o : Output) (m : Nat) (v : Int) (high : Bool) (t : Tick) : (o.commanded m v high t).drive = o.drive := by
  unfold Output.commanded
  split
  · split <;> rfl
  · rfl
/-- Only an on command leaves its instant in onAt. -/
theorem commanded_onAt (o : Output) (m : Nat) (v : Int) (high : Bool) (t : Tick) :
    (o.commanded m v high t).onAt = if 8 ≤ m ∧ m ≤ 10 ∧ v = 1 then some t else o.onAt := by
  unfold Output.commanded
  by_cases hm : 8 ≤ m ∧ m ≤ 10
  · by_cases hv : v = 1 <;> simp [hm, hv]
  · simp only [if_neg hm, if_neg (fun h : 8 ≤ m ∧ m ≤ 10 ∧ v = 1 => hm ⟨h.1, h.2.1⟩)]
theorem set_onAt (o : Output) (m : Nat) (v : Int) (t : Tick) : (o.set m v t).onAt = o.onAt := by
  unfold Output.set
  dsimp only
  split
  · split <;> rfl
  · split <;> rfl
  · split
    · split <;> rfl
    · rfl
  · rfl

/-- Where no backfeed is flagged, a driver that leaves off clears none. -/
theorem backfeedLeft_single {old d : Die} {c : ChanId} (h : (d.chan c).diag.backfeed = false) (di : DieId) (q : Nat) :
    Die.backfeedLeft old d di q [c] = d := by
  simp only [Die.backfeedLeft, List.foldl_cons, List.foldl_nil, h, Bool.false_and, Bool.false_eq_true, if_false]

theorem outSet_single {d : Die} {c : ChanId} (hg : (d.chan c).group = none) (di : DieId) (q : Nat) (w : Word) (t : Tick) :
    d.outSet di q c w t = d.outSetOne di q c w t := by
  simp only [Die.outSet, Die.together, hg, List.foldl_cons, List.foldl_nil]

/-- The value that an OUT_SET of word w gives in mode m. -/
def outSetValue (m : Nat) (w : Word) : Int := if m = 11 ∨ m = 12 then w.toInt else w.toNat

theorem outSetOne_modCh {d : Die} {c : ChanId} (hb : (d.chan c).diag.backfeed = false) (di : DieId) (q : Nat) (w : Word) (t : Tick) :
    d.outSetOne di q c w t =
      d.modCh c fun k => { k with out := k.out.outSet k.mode (outSetValue (d.chan c).mode w) w t } := by
  unfold Die.outSetOne
  refine backfeedLeft_single ?_ di q
  rw [Die.chan_modCh, Channel.settle_diag, Channel.held_diag]
  exact hb

/-- What the output keeps of an OUT_SET: the driver's state, held off with the whole die. -/
theorem out_outSetOne {d : Die} {c : ChanId} (hb : (d.chan c).diag.backfeed = false) (di : DieId) (q : Nat) (w : Word) (t : Tick) :
    ((d.outSetOne di q c w t).chan c).out =
      { (d.chan c).out.outSet (d.chan c).mode (outSetValue (d.chan c).mode w) w t with
        drive := ((d.chan c).out.outSet (d.chan c).mode (outSetValue (d.chan c).mode w) w t).drive && !d.allOff } := by
  rw [outSetOne_modCh hb, Die.chan_modCh, Channel.settle_out, held_out]

/-- In modes 8 to 10 the word is the value itself. -/
theorem outSetValue_eq_one {m : Nat} (hm : 8 ≤ m ∧ m ≤ 10) (w : Word) : outSetValue m w = 1 ↔ w = 1#32 := by
  rw [outSetValue, if_neg (by omega)]
  constructor
  · intro h
    exact BitVec.eq_of_toNat_eq (by simpa using h)
  · rintro rfl
    decide

theorem outSetOne_spec {d : Die} {c : ChanId} (hb : (d.chan c).diag.backfeed = false) (di : DieId) (q : Nat) (w : Word) (t : Tick)
    {gone : Bool} (hgone : gone = ((d.chan c).out.pulse.any fun p => decide (p + 200 * us ≤ t))) :
    (∀ e, e ≠ c → (d.outSetOne di q c w t).chan e = d.chan e) ∧
    ((d.outSetOne di q c w t).chan c).out.last = some (3, w) ∧
    ((d.outSetOne di q c w t).chan c).out.optSkip =
      (if (d.chan c).out.pulse.isSome && !gone then satInc (d.chan c).out.optSkip else (d.chan c).out.optSkip) ∧
    ((d.outSetOne di q c w t).chan c).out.drive =
      (((d.chan c).out.set (d.chan c).mode (outSetValue (d.chan c).mode w) t).drive && !gone && !d.allOff) ∧
    ((d.outSetOne di q c w t).chan c).out.onAt =
      (if 8 ≤ (d.chan c).mode ∧ (d.chan c).mode ≤ 10 ∧ w = 1#32 then some t else (d.chan c).out.onAt) ∧
    ((d.outSetOne di q c w t).chan c).img = (d.chan c).img ∧ (d.outSetOne di q c w t).ntq = d.ntq := by
  subst hgone
  have hout := out_outSetOne hb di q w t
  refine ⟨fun e he => ?_, ?_, ?_, ?_, ?_, ?_, ?_⟩
  · rw [outSetOne_modCh hb, Die.chan_modCh_ne d c e _ he.symm]
  · rw [hout, Output.outSet]
  · rw [hout, Output.outSet]
  · rw [hout]
    simp only [Output.outSet, commanded_drive]
  · rw [hout]
    simp only [Output.outSet, commanded_onAt, set_onAt]
    by_cases hm : 8 ≤ (d.chan c).mode ∧ (d.chan c).mode ≤ 10
    · simp only [outSetValue_eq_one hm]
    · rw [if_neg (fun h => hm ⟨h.1, h.2.1⟩), if_neg (fun h => hm ⟨h.1, h.2.1⟩)]
  · rw [outSetOne_modCh hb, Die.chan_modCh, Channel.settle_img, Channel.held_img]
  · rw [outSetOne_modCh hb, Die.modCh_ntq]

/-! ### Retirement, deferral, cancellation and staleness (R64, R68, R75, R81) -/

theorem retires {s : State} {id : Nat} {e : Entry} {o : EntryOutcome} (hq : s.queued id = some e) (ho : e.phase = .finished o) :
    (s.serving = true → (s.die e.ch.die).holder = some s.active → s.laneUp s.active e.ch.die = true →
      (s.die e.ch.die).drained e = true → s.isHeld (.retire id) = false →
      (s.core.entry id = none → exec (.entryRetire id) s =
        .next (s.modDie e.ch.die fun d => { d with ntq := d.ntq.filter (·.id != id) })) ∧
      (s.core.entry id ≠ none → exec (.entryRetire id) s = .next (State.commit s
        (({ s with core := s.core.modRecord id fun r =>
            { r with status := if e.st = 0 then r.status else e.st } } : State).outcome id o)))) ∧
    (s.serving = false ∨ (s.die e.ch.die).holder ≠ some s.active ∨ s.laneUp s.active e.ch.die = false ∨
      (s.die e.ch.die).drained e = false ∨ s.isHeld (.retire id) = true → exec (.entryRetire id) s = .next s) := by
  have hexec : exec (.entryRetire id) s = execEntryRetire id s := rfl
  constructor
  · intro hs hh hl hd hheld
    constructor
    · intro hn
      simp only [hexec, execEntryRetire, hq, ho, hs, hh, hl, hd, hheld, hn, Option.isNone_none, beq_self_eq_true, Bool.not_false,
        Bool.and_self, if_true]
    · intro hn
      have hsome : (s.core.entry id).isNone = false := by simpa [Option.isSome_iff_ne_none] using hn
      simp only [hexec, execEntryRetire, hq, ho, hs, hh, hl, hd, hheld, hsome, beq_self_eq_true, Bool.not_false, Bool.and_self,
        if_true, Bool.false_eq_true, if_false, State.modCore]
  · intro hno
    rw [hexec, execEntryRetire, hq]
    dsimp only
    rw [ho]
    rcases hno with hno | hno | hno | hno | hno <;> simp [hno]

/-- An entry still under way is not retired. -/
theorem retire_live {s : State} {id : Nat} {e : Entry} (hq : s.queued id = some e) (hl : e.live = true) :
    exec (.entryRetire id) s = .next s := by
  have hexec : exec (.entryRetire id) s = execEntryRetire id s := rfl
  rw [hexec, execEntryRetire, hq]
  dsimp only
  split
  next o ho => simp [Entry.live, ho] at hl
  next => rfl

theorem retire_spec {s : State} {id : Nat} {e : Entry} (o : EntryOutcome) (he : s.core.entry id = some e) :
    (s.retire id o).core = s.core.retire e o s.clk.elapsed ∧ (∀ k, k ≠ e.ch.die → (s.retire id o).die k = s.die k) ∧
      (s.retire id o).die e.ch.die = { s.die e.ch.die with ntq := (s.die e.ch.die).ntq.filter (·.id != id) } := by
  unfold State.retire
  rw [he]
  dsimp only
  split
  · refine ⟨?_, fun k hk => ?_, ?_⟩
    · simp only [raiseSrc_core]
      rfl
    · simp only [raiseSrc_die]
      exact State.die_modDie_ne _ _ _ _ hk.symm
    · simp only [raiseSrc_die]
      exact State.die_modDie _ _ _
  · exact ⟨rfl, fun k hk => State.die_modDie_ne _ _ _ _ hk.symm, State.die_modDie _ _ _⟩

theorem stale {s : State} {rec : Nat} {r : Record} {t : Tick} (hr : s.core.record rec = some r) (ht : r.retired = some t) :
    (t + s.core.staleAge r.dest * ms ≤ s.clk.elapsed → ∃ u, exec (.staleAgeExpiry rec) s = .next u ∧
      u.core.records = s.core.records.filter (·.id != rec) ∧ u.core.store = s.core.store.finish r.used ∧
      u.core.sched.staleRec = satInc s.core.sched.staleRec ∧
      u.core.sched.staleWords = satAdd s.core.sched.staleWords r.len ∧ u.core.entries = s.core.entries ∧ u.dies = s.dies) ∧
    (s.clk.elapsed < t + s.core.staleAge r.dest * ms → exec (.staleAgeExpiry rec) s = .next s) := by
  have hexec : exec (.staleAgeExpiry rec) s = execStaleAgeExpiry rec s := rfl
  constructor <;> intro h
  · simp only [hexec, execStaleAgeExpiry, hr, ht, if_pos h]
    simp only [State.modCore, Core.freeRecord, hr]
    exact ⟨_, rfl, rfl, rfl, rfl, rfl, rfl, rfl⟩
  · simp only [hexec, execStaleAgeExpiry, hr, ht, if_neg (Nat.not_le.mpr h)]

/-- What an entry does at its instant, by its operation (R59). -/
theorem perform_spec (s : State) (e : Entry) (t : Tick) :
    (e.e.op = 1 ∨ e.e.op = 2 → s.perform e t = s.modDie e.ch.die fun d => d.modEntry e.id fun x => { x with phase := .active }) ∧
    (e.e.op = 3 → s.perform e t =
      s.modDie e.ch.die fun d => (d.outSet e.ch.die (s.qualityOf t) e.ch.c e.e.param t).began e.id e.e.readback) ∧
    (e.e.op = 4 → s.perform e t = s.modDie e.ch.die fun d =>
      (d.modCh e.ch.c fun k => { k with out := { k.out with duty := fld e.e.param 0 16, last := some (4, e.e.param) } }).modEntry e.id
        fun x => { x with phase := .active }) ∧
    (e.e.op = 5 → s.perform e t = (s.modDie e.ch.die fun d =>
      (d.modCh e.ch.c fun k => ({ k with out := { k.out with
        period := e.e.param.toNat
        last := some (5, e.e.param)
        nextPk := if k.out.run then some t else k.out.nextPk } } : Channel).recharge d.led.vd).modEntry e.id
          fun x => { x with phase := .active }).settlePools e.ch.die) ∧
    (e.e.op = 6 → s.perform e t = s.modDie e.ch.die (·.auxOccurrence e t)) ∧
    (e.e.op = 7 → s.perform e t = s.modDie e.ch.die fun d =>
      (d.modCh e.ch.c fun k => { k with fsk := k.fsk.start e.id e.e (Img.lead k.img) (s.qualityOf t) }).modEntry e.id
        fun x => { x with phase := .active }) ∧
    (e.e.op = 8 → s.perform e t = s.applyConfig e.ch
      ⟨t, Img.withMode (e.img.getD (s.chan e.ch).img) (fld e.e.param 0 4), fld e.e.param 4 12, some e.id⟩) ∧
    (e.e.op = 9 → s.perform e t = (s.disableAt e.ch t (some e.id)).modDie e.ch.die (·.finish e.id .executed)) ∧
    (e.e.op = 10 → s.perform e t = s.modDie e.ch.die (·.timerOccurrence e.ch.die (s.qualityOf t) e t)) := by
  unfold State.perform
  refine ⟨fun h => ?_, fun h => ?_, fun h => ?_, fun h => ?_, fun h => ?_, fun h => ?_, fun h => ?_, fun h => ?_, fun h => ?_⟩
  · rcases h with h | h <;> (rw [h]; rfl)
  all_goals (rw [h]; rfl)

/-- Settles O41: execution, its order and its misses, one OUT_SET, and the retirement, deferral, cancel and staleness rows. -/
theorem entryExecution : Obligations.EntryExecution := by
  unfold Obligations.EntryExecution
  refine ⟨⟨fun s id e hq => ⟨execute_waits hq, waitsForT_of_reached, fun tm htm hop hle => waitsForT_of_transition htm hop hle,
      fun hr hw hm => (executes hq hr hw).1 hm, fun hr hw hm u hu => ?_⟩, fun s id hq => execute_unqueued hq, ?_⟩, ?_, ?_, ?_, ?_, ?_, ?_⟩
  · rw [hu]
    exact (executes hq hr hw).2 hm
  · rintro s e t di c rfl rfl
    exact perform_spec s e t
  · intro d di q c w t hg
    rw [outSet_single hg]
    exact ⟨rfl, fun hb gone hgone => outSetOne_spec hb di q w t hgone⟩
  · exact fun s id e o hq ho => retires hq ho
  · intro s id hq
    have hexec : exec (.entryRetire id) s = execEntryRetire id s := rfl
    rw [hexec, execEntryRetire, hq]
  · exact fun s id e hq hl => retire_live hq hl
  · intro s id o
    refine ⟨fun hm => ?_, fun e he => ⟨_, rfl, retire_spec o he⟩⟩
    simp only [State.outcome, hm, Bool.false_eq_true, if_false]
  · intro s
    have hretry : exec .deferralRetry s = execDeferralRetry s := rfl
    have hcancel : exec .cancelInstant s = execCancelInstant s := rfl
    refine ⟨fun hs hsw ht => ?_, fun hno => ?_, fun hno => ?_, fun r tc es unk hfind can hcan u hu => ?_, fun rec r t hr ht => stale hr ht,
      fun rec hr => ?_, fun rec r hr ht => ?_⟩
    · simp only [hretry, execDeferralRetry, hs, hsw, ht, decide_true, Bool.not_false, Bool.and_self, if_true, State.modCore]
    · rw [hretry, execDeferralRetry]
      rcases hno with hno | hno | hno <;> simp [hno]
    · have hnone : (s.core.cancels.find? fun p => decide (p.2.1 ≤ s.clk.now)) = none := by
        rw [List.find?_eq_none]
        intro p hp
        simpa using Nat.not_le.mpr (hno p hp)
      rw [hcancel, execCancelInstant, hnone]
    · subst hu
      obtain rfl := funext hcan
      rw [hcancel, execCancelInstant, hfind]
      rfl
    · have hexec : exec (.staleAgeExpiry rec) s = execStaleAgeExpiry rec s := rfl
      rw [hexec, execStaleAgeExpiry, hr]
    · have hexec : exec (.staleAgeExpiry rec) s = execStaleAgeExpiry rec s := rfl
      simp only [hexec, execStaleAgeExpiry, hr, ht]

end Sys2Proof
end

section
namespace Sys2Proof
open Machine

/-! ### What a die's operations leave alone on its other channels -/

/-- Of the die's channels only c may change. -/
def OnlyChan (c : ChanId) (d e : Die) : Prop := ∀ k, k ≠ c → e.chan k = d.chan k

theorem OnlyChan.refl (c : ChanId) (d : Die) : OnlyChan c d d := fun _ _ => rfl
theorem OnlyChan.trans {c : ChanId} {d e f : Die} (h : OnlyChan c d e) (g : OnlyChan c e f) : OnlyChan c d f :=
  fun k hk => (g k hk).trans (h k hk)
theorem onlyChan_of_chans {d e : Die} (h : e.chans = d.chans) (c : ChanId) : OnlyChan c d e := fun k _ => by
  simp only [Die.chan, h]
theorem onlyChan_modCh (d : Die) (c : ChanId) (f : Channel → Channel) : OnlyChan c d (d.modCh c f) :=
  fun k hk => Die.chan_modCh_ne d c k f hk.symm
theorem onlyChan_foldl {β : Type} {c : ChanId} {f : Die → β → Die} (h : ∀ x b, OnlyChan c x (f x b)) (l : List β) (d : Die) :
    OnlyChan c d (l.foldl f d) := by
  induction l generalizing d with
  | nil => exact OnlyChan.refl c d
  | cons b l ih => exact (h d b).trans (ih _)

/-- Where each step changes its own channel alone, a channel of the list ends as its own step leaves it. -/
theorem chan_foldl {f : Die → ChanId → Die} (h : ∀ x c, OnlyChan c x (f x c)) {l : List ChanId} (hl : l.Nodup) {c : ChanId} (hc : c ∈ l)
    (d : Die) : ∃ y, y.chan c = d.chan c ∧ (l.foldl f d).chan c = (f y c).chan c := by
  induction l generalizing d with
  | nil => simp at hc
  | cons b l ih =>
    rw [List.foldl_cons]
    rw [List.nodup_cons] at hl
    obtain ⟨hb, hl⟩ := hl
    rcases List.mem_cons.mp hc with rfl | hmem
    · refine ⟨d, rfl, ?_⟩
      have hkeep : ∀ (l : List ChanId) (x : Die), c ∉ l → (l.foldl f x).chan c = x.chan c := by
        intro l
        induction l with
        | nil => exact fun _ _ => rfl
        | cons a l iha =>
          intro x hx
          rw [List.mem_cons, not_or] at hx
          rw [List.foldl_cons, iha _ hx.2, h x a c hx.1]
      exact hkeep l _ hb
    · obtain ⟨y, hy, hres⟩ := ih hl hmem (f d b)
      exact ⟨y, hy.trans (h d b c fun e => hb (e ▸ hmem)), hres⟩

@[simp] theorem close_chans (d : Die) (p : Entry → Bool) (o : EntryOutcome) : (d.close p o).chans = d.chans := rfl
@[simp] theorem close_chan (d : Die) (p : Entry → Bool) (o : EntryOutcome) (k : ChanId) : (d.close p o).chan k = d.chan k := rfl
@[simp] theorem push_chans (d : Die) (l : List LaneItem) : (d.push l).chans = d.chans := rfl
@[simp] theorem modEntry_chans (d : Die) (id : Nat) (f : Entry → Entry) : (d.modEntry id f).chans = d.chans := rfl
@[simp] theorem dieRaise_chans (d : Die) (e : Ev) (r : Fin 23) (rec : LogRec) : (d.raise e r rec).chans = d.chans := by
  unfold Die.raise
  split <;> rfl

theorem onlyChan_modEntry (d : Die) (c : ChanId) (id : Nat) (f : Entry → Entry) : OnlyChan c d (d.modEntry id f) :=
  onlyChan_of_chans (modEntry_chans d id f) c
theorem onlyChan_finish (d : Die) (c : ChanId) (id : Nat) (o : EntryOutcome) : OnlyChan c d (d.finish id o) :=
  onlyChan_of_chans (close_chans d _ o) c
theorem onlyChan_push (d : Die) (c : ChanId) (l : List LaneItem) : OnlyChan c d (d.push l) := onlyChan_of_chans (push_chans d l) c
theorem onlyChan_sendCapture (d : Die) (c : ChanId) (q : Nat) (p : Nat × Tick × Bool) (angle : Word × Bool) :
    OnlyChan c d (d.sendCapture c q p angle) := by
  unfold Die.sendCapture
  exact (onlyChan_modCh d c _).trans (onlyChan_push _ c _)
theorem onlyChan_capture (d : Die) (c : ChanId) (q : Nat) (t : Tick) (rising : Bool) (angle : Option (Word × Bool)) (e : Entry) :
    OnlyChan c d (d.capture c q t rising angle e) := by
  unfold Die.capture
  dsimp only
  split
  · refine (onlyChan_modEntry d c e.id fun x => { x with done := x.done + 1 }).trans ?_
    split
    · split
      · exact onlyChan_sendCapture _ c _ _ _
      · exact onlyChan_modCh _ c _
    · exact onlyChan_push _ c _
  · exact (onlyChan_modEntry d c e.id _).trans (onlyChan_modCh _ c _)
theorem onlyChan_showLast (d : Die) (c : ChanId) (td : Tick) (q : Tick → Nat) (angle : Nat → Tick → Option (Word × Bool)) :
    OnlyChan c d (d.showLast c td q angle) := by
  unfold Die.showLast
  dsimp only
  generalize (if (d.chan c).din.raw then (d.chan c).din.lastRise else (d.chan c).din.lastFall).getD (d.chan c).din.since = t
  split
  · exact onlyChan_foldl (fun x e => onlyChan_capture x c _ _ _ _ e) _ _
  · exact OnlyChan.refl c d
theorem onlyChan_stopFsk (d : Die) (c : ChanId) (cut : Bool) (st : Nat) (o : EntryOutcome) : OnlyChan c d (d.stopFsk c cut st o) := by
  unfold Die.stopFsk
  split
  · exact OnlyChan.refl c d
  · exact (onlyChan_modCh d c _).trans ((onlyChan_finish _ c _ o).trans (onlyChan_push _ c _))

/-- A visit that ends gives back its own channel alone. -/
theorem onlyChan_endVisits (d : Die) (di : DieId) (q : Nat) (c : ChanId) (reason : Nat) :
    OnlyChan c d (d.endVisits di q [c] reason) := by
  refine onlyChan_foldl (fun x i => ?_) _ _
  dsimp only
  split
  next h =>
    have hch : x.car.spares[i.val].ch = c := by
      simp only [Bool.and_eq_true, List.contains_cons, List.contains_nil, Bool.or_false, beq_iff_eq] at h
      exact h.2
    intro k hk
    rw [hch]
    refine (vmod_ne _ _ _ _ _ fun e => hk (Fin.ext e.symm)).trans ?_
    simp only [Die.calSkip, dieRaise_chans, Die.chan]
  next => exact OnlyChan.refl c x

theorem restartCh_chan (d : Die) (c : ChanId) (f : Channel → Channel) (tq : Tick) (k : ChanId) :
    (d.restartCh c f tq).chan k = (d.modCh c fun k => (f k).restart tq).chan k := rfl
theorem onlyChan_restartCh (d : Die) (c : ChanId) (f : Channel → Channel) (tq : Tick) : OnlyChan c d (d.restartCh c f tq) :=
  fun k hk => (restartCh_chan d c f tq k).trans (onlyChan_modCh d c (fun k => (f k).restart tq) k hk)
theorem chan_restartCh (d : Die) (c : ChanId) (f : Channel → Channel) (tq : Tick) :
    (d.restartCh c f tq).chan c = (d.chan c).settle (((f (d.chan c)).restart tq).held d.allOff) d.replica :=
  (restartCh_chan d c f tq c).trans (Die.chan_modCh ..)
theorem onlyChan_syncLevel (d : Die) (c : ChanId) (t : Tick) : OnlyChan (evenOf c) d (d.syncLevel c t) := by
  unfold Die.syncLevel
  dsimp only
  split
  · exact onlyChan_modCh d _ _
  · exact OnlyChan.refl _ d
theorem onlyChan_showWaits (d : Die) (c : ChanId) : OnlyChan c d (d.showWaits c) := onlyChan_modCh d c _

end Sys2Proof
end

section
namespace Sys2Proof
open Machine

/-! ### The end of a transition (R93, R153, R155, R211, R215) -/

/-- Channel b has the chain and the input of channel a, and drives nothing where a does not. -/
def SameInput (a b : Channel) : Prop :=
  b.trans = a.trans ∧ b.chain = a.chain ∧ b.img = a.img ∧ b.din.enc = a.din.enc ∧ b.din.raw = a.din.raw ∧ b.din.filt = a.din.filt ∧
    b.din.since = a.din.since ∧ (a.out.drive = false → b.out.drive = false)

theorem SameInput.refl (a : Channel) : SameInput a a := ⟨rfl, rfl, rfl, rfl, rfl, rfl, rfl, id⟩
theorem SameInput.trans {a b c : Channel} (h : SameInput a b) (g : SameInput b c) : SameInput a c := by
  obtain ⟨h1, h2, h3, h4, h5, h6, h7, h8⟩ := h
  obtain ⟨g1, g2, g3, g4, g5, g6, g7, g8⟩ := g
  exact ⟨g1.trans h1, g2.trans h2, g3.trans h3, g4.trans h4, g5.trans h5, g6.trans h6, g7.trans h7, fun hd => g8 (h8 hd)⟩
theorem sameInput_settle (old k : Channel) (off : Bool) (r : Tick) : SameInput k (old.settle (k.held off) r) := by
  refine ⟨?_, ?_, ?_, ?_, ?_, ?_, ?_, fun hd => ?_⟩
  case refine_8 => rw [Channel.settle_out, held_out, hd, Bool.false_and]
  all_goals simp only [Channel.settle_trans, Channel.settle_chain, Channel.settle_img, Channel.settle_din, Channel.held_trans,
    Channel.held_chain, Channel.held_img, Channel.held_din]
theorem sameInput_modCh {d : Die} {c : ChanId} {f : Channel → Channel} (hf : ∀ k, SameInput k (f k)) (k : ChanId) :
    SameInput (d.chan k) ((d.modCh c f).chan k) := by
  by_cases hk : c = k
  · subst hk
    rw [Die.chan_modCh]
    exact (hf _).trans (sameInput_settle ..)
  · rw [Die.chan_modCh_ne d c k f hk]
    exact SameInput.refl _
theorem sameInput_syncLevel (d : Die) (c : ChanId) (t : Tick) (k : ChanId) : SameInput (d.chan k) ((d.syncLevel c t).chan k) := by
  unfold Die.syncLevel
  dsimp only
  split
  · refine sameInput_modCh (fun y => ?_) k
    exact ⟨rfl, rfl, rfl, rfl, rfl, rfl, rfl, id⟩
  · exact SameInput.refl _
theorem sameInput_showWaits (d : Die) (c k : ChanId) : SameInput (d.chan k) ((d.showWaits c).chan k) := by
  unfold Die.showWaits
  refine sameInput_modCh (fun y => ?_) k
  exact ⟨rfl, rfl, rfl, rfl, rfl, rfl, rfl, id⟩

/-- A channel at the end of its transition: the chain and the counts begin anew, and an output that a latch or an undervoltage governs
stays off. -/
theorem endTransition_spec (k : Channel) (g : ChanImg) (t : Tick) (uv high : Bool) :
    (k.endTransition g t uv high).trans = none ∧ (k.endTransition g t uv high).chain.dcb = 0 ∧
    (k.endTransition g t uv high).mode = k.mode ∧ (k.endTransition g t uv high).din.enc.cnt = 0 ∧
    (k.endTransition g t uv high).din.raw = (comparing k.mode && high) ∧ (k.endTransition g t uv high).din.filt = false ∧
    (k.endTransition g t uv high).din.since = t ∧
    (isOutMode k.mode = true → k.latched = true ∨ uv = true → (k.endTransition g t uv high).out.drive = false) := by
  unfold Channel.endTransition
  dsimp only
  split
  next => exact ⟨rfl, rfl, rfl, rfl, rfl, rfl, rfl, fun _ _ => rfl⟩
  next hnot =>
    have hdrive : ∀ b : Bool, isOutMode k.mode = true → k.latched = true ∨ uv = true → b = false := by
      intro b hm hl
      refine absurd ?_ hnot
      rw [Bool.and_eq_true, Bool.or_eq_true]
      exact ⟨hm, hl⟩
    split
    · exact ⟨rfl, rfl, rfl, rfl, rfl, rfl, rfl, hdrive _⟩
    · exact ⟨rfl, rfl, rfl, rfl, rfl, rfl, rfl, hdrive _⟩

/-- The channel of a transition that ends is restarted, and beside it only its pair's even channel changes. -/
theorem transitionEnd_spec {d : Die} {c : ChanId} {tm t : Tick} (htr : (d.chan c).trans = some tm) (hpast : d.past (tm + 50 * us) = true)
    (ht : t = max (tm + 50 * us) (d.chan c).chain.tq) (high : Bool) :
    SameInput (((d.chan c).endTransition (d.govern c) t d.uvLow high).restart t) ((d.transitionEnd c high).chan c) ∧
    (∀ k, k ≠ c → k ≠ evenOf c → (d.transitionEnd c high).chan k = d.chan k) ∧
    ∃ x : Die, (d.transitionEnd c high).ntq =
      (x.close (fun e => e.e.op == 8 && e.phase == .active && decide (e.ch.c = c) && decide (e.e.time.toNat = tm)) .executed).ntq := by
  have heq : d.transitionEnd c high =
      ((((d.restartCh c (fun k => k.endTransition (d.govern c) t d.uvLow high) t).syncLevel c t).showWaits c).close
        (fun e => e.e.op == 8 && e.phase == .active && decide (e.ch.c = c) && decide (e.e.time.toNat = tm)) .executed) := by
    unfold Die.transitionEnd
    rw [htr]
    dsimp only
    rw [if_pos hpast, ht]
  refine ⟨?_, fun k hk hev => ?_, _, congrArg Die.ntq heq⟩
  · rw [heq, close_chan]
    refine .trans ?_ (sameInput_showWaits _ c c)
    refine .trans ?_ (sameInput_syncLevel _ c t c)
    rw [chan_restartCh]
    exact sameInput_settle ..
  · rw [heq]
    refine (onlyChan_of_chans (close_chans ..) c k hk).trans ?_
    refine (onlyChan_showWaits _ c k hk).trans ?_
    refine (onlyChan_syncLevel _ c t k hev).trans ?_
    exact onlyChan_restartCh _ c _ t k hk

/-- An entry that the close names does not stay alive. -/
theorem not_close {d : Die} {p : Entry → Bool} {o : EntryOutcome} {e : Entry} (he : e ∈ (d.close p o).ntq) (hl : e.live = true) :
    p e = false := by
  simp only [Die.close, List.mem_map] at he
  obtain ⟨x, -, hx⟩ := he
  by_cases hp : (x.live && p x) = true
  · rw [if_pos hp] at hx
    subst hx
    simp [Entry.live] at hl
  · rw [if_neg hp] at hx
    subst hx
    simpa [hl] using hp

theorem transition_ends {s : State} {ch : Chan} {tm : Tick} (htr : (s.chan ch).trans = some tm)
    (hpast : (s.die ch.die).past (tm + 50 * us) = true) (high : Bool) : ∃ t, exec (.transitionEnd ⟨ch, high⟩) s = .next t ∧
      (t.chan ch).trans = none ∧ (t.chan ch).chain.tq = max (tm + 50 * us) (s.chan ch).chain.tq ∧ (t.chan ch).chain.dcb = 0 ∧
      (t.chan ch).chain.hist = [] ∧ (t.chan ch).chain.settling = hasChain (s.chan ch).mode ∧
      (t.chan ch).din.enc.cnt = 0 ∧ (t.chan ch).din.raw = (comparing (s.chan ch).mode && high) ∧ (t.chan ch).din.filt = false ∧
      (isOutMode (s.chan ch).mode = true → (s.chan ch).latched = true ∨ (s.die ch.die).uvLow = true → (t.chan ch).out.drive = false) ∧
      (t.chan ch).din.since = max (tm + 50 * us) (s.chan ch).chain.tq ∧ (t.chan ch).mode = (s.chan ch).mode ∧
      (∀ e ∈ (t.die ch.die).ntq, e.live = true → e.e.op = 8 → e.phase = .active → e.ch.c = ch.c → e.e.time.toNat ≠ tm) ∧
      (∀ c, c ≠ ch.c → c ≠ evenOf ch.c → (t.die ch.die).chan c = (s.die ch.die).chan c) ∧ (∀ k, k ≠ ch.die → t.die k = s.die k) := by
  have hexec : exec (.transitionEnd ⟨ch, high⟩) s =
    .next (State.commit s ((s.modDie ch.die (·.transitionEnd ch.c high)).syncShadow ch.die [ch.c])) := rfl
  obtain ⟨⟨h1, h2, h3, h4, h5, h6, h7, h8⟩, hothers, x, hntq⟩ := transitionEnd_spec (d := s.die ch.die) (c := ch.c) htr hpast rfl high
  obtain ⟨g1, g2, g3, g4, g5, g6, g7, g8⟩ := endTransition_spec ((s.die ch.die).chan ch.c) ((s.die ch.die).govern ch.c)
    (max (tm + 50 * us) ((s.die ch.die).chan ch.c).chain.tq) (s.die ch.die).uvLow high
  have hdie : ∀ k, (State.commit s ((s.modDie ch.die (·.transitionEnd ch.c high)).syncShadow ch.die [ch.c])).die k =
      (s.modDie ch.die (·.transitionEnd ch.c high)).die k := by
    intro k
    rw [State.die_commit, syncShadow_frame]
    rfl
  have hself := (hdie ch.die).trans (State.die_modDie ..)
  refine ⟨_, hexec, ?_⟩
  simp only [← State.chan_eq] at h1 h2 h3 h4 h5 h6 h7 h8 g1 g2 g3 g4 g5 g6 g7 g8 ⊢
  rw [hself]
  refine ⟨h1.trans g1, ?_, ?_, ?_, ?_, ?_, h5.trans g5, h6.trans g6, fun hm hl => h8 (g8 hm hl), h7.trans g7, ?_, ?_, hothers, ?_⟩
  · rw [h2]
    rfl
  · rw [h2]
    exact g2
  · rw [h2]
    rfl
  · rw [h2]
    exact congrArg hasChain g3
  · rw [h4]
    exact g4
  · rw [Channel.mode, h3]
    exact g3
  · intro e he hlive hop hact hc htime
    rw [hntq] at he
    have hfalse := not_close he hlive
    simp [hop, hact, hc, htime] at hfalse
  · intro k hk
    rw [hdie k, State.die_modDie_ne _ _ _ _ hk.symm]

end Sys2Proof
end

section
namespace Sys2Proof
open Machine

/-! ### Disabling (R74) -/

theorem outcome_chans (s : State) (id : Nat) (o : EntryOutcome) (k : DieId) : ((s.outcome id o).die k).chans = (s.die k).chans := by
  unfold State.outcome
  split
  · unfold State.hold
    split <;> rfl
  · cases he : s.core.entry id with
    | none => simp only [State.retire, he]
    | some e =>
      obtain ⟨-, hne, hself⟩ := retire_spec o he
      by_cases hk : k = e.ch.die
      · rw [hk, hself]
      · rw [hne k hk]
theorem outcomes_chans (s : State) (ids : List Nat) (o : EntryOutcome) (k : DieId) :
    ((s.outcomes ids o).die k).chans = (s.die k).chans :=
  foldl_keeps (p := fun t : State => (t.die k).chans) (fun t i => outcome_chans t i o k) ids s
theorem settlePools_chans (s : State) (d k : DieId) : ((s.settlePools d).die k).chans = (s.die k).chans := by
  rw [(settlePools_spec s d).2 k]

theorem mode_disabled (i : ChanImg) : Img.mode (ChanImg.disabled i) = 0 := by
  simp only [ChanImg.disabled, Img.withMode, Img.mode, fld, BitVec.toNat_ofNat]
  omega

theorem chan_straddle (d : Die) (n : Word) (k : ChanId) : ({ d with straddle := n } : Die).chan k = d.chan k := rfl

/-- A channel that is bound with no other leaves its mode alone. -/
theorem disableAt_spec {s : State} {ch : Chan} (hunit : (s.die ch.die).unit ch.c = [ch.c]) (td : Tick) (self : Option Nat) :
    (∃ (old k : Channel) (off : Bool) (r : Tick), (s.disableAt ch td self).chan ch = old.settle (k.held off) r ∧ k.mode = 0 ∧
      k.out.drive = false ∧ k.out.last = none ∧ k.trans = none ∧ k.hold = none ∧ k.group = none ∧ k.chgHeat = 0 ∧ k.chgBar = 0) ∧
    OnlyChan ch.c (s.die ch.die) ((s.disableAt ch td self).die ch.die) ∧
    ∀ k, k ≠ ch.die → ((s.disableAt ch td self).die k).chans = (s.die k).chans := by
  unfold State.disableAt
  rw [hunit]
  simp only [List.foldl_cons, List.foldl_nil]
  have hchan : ∀ (x : State) (ids : List Nat) (k : DieId) (c : ChanId),
      (((x.outcomes ids .cancelled).settlePools ch.die).die k).chan c = (x.die k).chan c := by
    intro x ids k c
    simp only [Die.chan, settlePools_chans, outcomes_chans]
  refine ⟨?_, ?_, ?_⟩
  · rw [← State.chan_eq, hchan, State.die_modDie, chan_straddle, Die.chan_modCh]
    refine ⟨_, _, _, _, rfl, mode_disabled _, rfl, rfl, rfl, rfl, rfl, rfl, rfl⟩
  · intro k hk
    rw [hchan, State.die_modDie, chan_straddle]
    refine (onlyChan_modCh _ ch.c _ k hk).trans ?_
    refine (onlyChan_endVisits _ _ _ ch.c _ k hk).trans ?_
    refine (onlyChan_of_chans (close_chans ..) ch.c k hk).trans ?_
    exact (onlyChan_stopFsk _ ch.c _ _ _ k hk).trans (onlyChan_showLast _ ch.c _ _ _ k hk)
  · intro k hk
    simp only [settlePools_chans, outcomes_chans]
    rw [State.die_modDie_ne _ _ _ _ hk.symm]

end Sys2Proof
end

section
namespace Sys2Proof
open Machine

/-! ### Mode changes, disables and settings at their instants (R74, R93, R154) -/

theorem syncShadow_not_serving {s : State} (h : s.serving = false) (d : DieId) (cs : List ChanId) : s.syncShadow d cs = s := by
  simp only [State.syncShadow, h, Bool.false_eq_true, if_false]

theorem modeChange_none {s : State} {ch : Chan} (h : ∀ p ∈ (s.chan ch).pend, (s.die ch.die).past p.tm = false) (hs : s.serving = false) :
    exec (.modeChangeStart ch) s = .next (State.commit s s) := by
  have hnone : (((s.die ch.die).chan ch.c).pend.find? fun p => (s.die ch.die).past p.tm) = none := by
    rw [List.find?_eq_none]
    intro p hp
    simpa using h p hp
  have hexec : exec (.modeChangeStart ch) s = execModeChangeStart ch s := rfl
  have hstart : s.startModeChange ch = s := by rw [State.startModeChange, hnone]
  rw [hexec, execModeChangeStart, hstart, syncShadow_not_serving hs]

theorem transition_stays {s : State} {ch : Chan} (h : (s.chan ch).trans = none ∨
    ∃ tm, (s.chan ch).trans = some tm ∧ (s.die ch.die).past (tm + 50 * us) = false) (hs : s.serving = false) (high : Bool) :
    exec (.transitionEnd ⟨ch, high⟩) s = .next (State.commit s s) := by
  have hexec : exec (.transitionEnd ⟨ch, high⟩) s =
    .next (State.commit s ((s.modDie ch.die (·.transitionEnd ch.c high)).syncShadow ch.die [ch.c])) := rfl
  have hsame : (s.die ch.die).transitionEnd ch.c high = s.die ch.die := by
    unfold Die.transitionEnd
    rw [State.chan_eq]
    rcases h with h | ⟨tm, h, hpast⟩
    · rw [h]
    · rw [h]
      simp only [hpast, Bool.false_eq_true, if_false]
  rw [hexec, modDie_of_fixed s ch.die hsame, syncShadow_not_serving hs]

theorem applyFilters_none {d : Die} {c : ChanId} (h : ((d.chan c).pendF.any fun p => d.past p.1) = false) : d.applyFilters c = d := by
  have hnil : ((d.chan c).pendF.filter fun p => d.past p.1) = [] := by
    rw [List.filter_eq_nil_iff]
    intro p hp
    simpa using List.any_eq_false.mp h p hp
  unfold Die.applyFilters
  dsimp only
  rw [hnil]
  rfl

theorem applyVd_none {d : Die} (h : ∀ p ∈ d.led.vdAt, d.past p.1 = false) : d.applyVd = d := by
  have hnil : (d.led.vdAt.filter fun p => d.past p.1) = [] := by
    rw [List.filter_eq_nil_iff]
    intro p hp
    simpa using h p hp
  rw [Die.applyVd, hnil]
  rfl

theorem applyVd_some {d : Die} {p : Tick × Nat} (h : (d.led.vdAt.filter fun p => d.past p.1).getLast? = some p) :
    d.applyVd.led.vd = p.2 ∧ d.applyVd.led.vdAt = d.led.vdAt.filter fun x => !d.past x.1 := by
  have hled : ∀ e : Die, (allC.foldl (fun x c => x.modCh c (·.recharge x.led.vd)) e).led = e.led :=
    foldl_keeps (p := Die.led) (fun x c => Die.modCh_led x c _) allC
  unfold Die.applyVd
  rw [h]
  dsimp only
  rw [hled]
  exact ⟨rfl, rfl⟩

/-! ### The chain's samples and results (R151 to R160) -/

theorem takeSample_early {d : Die} {c : ChanId} (di : DieId) (raw : Int)
    (h : (d.replica : Int) < (d.chan c).chain.origin + (d.chan c).chain.next * 12000 + 20 * us) : d.takeSample di c raw = d := by
  rw [Die.takeSample]
  exact if_pos h

theorem takeSample_due {d : Die} {c : ChanId} (di : DieId) (raw : Int) {t x : Int}
    (ht : t = (d.chan c).chain.origin + (d.chan c).chain.next * 12000) (h : t + 20 * us ≤ (d.replica : Int))
    (hx : x = d.corrected di c raw t.toNat) :
    ∃ e y, d.takeSample di c raw = (d.modCh c fun k => { k with chain := { k.chain with
        dcb := e, next := k.chain.next + 1, hist := (y :: k.chain.hist).take 6200 } }) ∧
      (Img.dcbEn (d.chan c).img = false → y = x ∧ e = (d.chan c).chain.dcb) ∧
      (Img.dcbEn (d.chan c).img = true → y = x - divRound (d.chan c).chain.dcb (2 ^ 24) ∧
        (Img.dcbFreeze (d.chan c).img = true → e = (d.chan c).chain.dcb) ∧
        (Img.dcbFreeze (d.chan c).img = false →
          e = (d.chan c).chain.dcb + divRound (x * 2 ^ 24 - (d.chan c).chain.dcb) (2 ^ Img.dcbK (d.chan c).img))) := by
  subst ht hx
  refine ⟨(dcbStep (d.chan c).img (d.chan c).chain.dcb (d.corrected di c raw
      ((d.chan c).chain.origin + (d.chan c).chain.next * 12000 : Int).toNat)).2, (dcbStep (d.chan c).img (d.chan c).chain.dcb
      (d.corrected di c raw ((d.chan c).chain.origin + (d.chan c).chain.next * 12000 : Int).toNat)).1,
    ?_, fun hoff => ?_, fun hon => ⟨?_, fun hf => ?_, fun hf => ?_⟩⟩
  · rw [Die.takeSample]
    exact if_neg (Int.not_lt.mpr h)
  · simp only [dcbStep, hoff, Bool.false_eq_true, if_false, and_self]
  · simp only [dcbStep, hon, if_true]
  · simp only [dcbStep, hon, hf, if_true]
  · simp only [dcbStep, hon, hf, if_true, Bool.false_eq_true, if_false]

/-- The next result of a grid, of a window, or of a count. -/
theorem nextResult_grid {d : Die} (di : DieId) {c : ChanId} (w : Option Int) {t : Tick} (ht : t = (d.chan c).outAt (d.chan c).chain.nextK)
    (hlock : Img.lock (d.chan c).img ≠ 1) :
    d.nextResult di c w = if !d.past (t + (d.chan c).span) then none
      else if t < (d.chan c).chain.tq + (d.chan c).span then some (t, none, 0)
      else if (d.chan c).counts then some (t, none, ((d.chan c).encAt t).cnt)
      else if Img.lock (d.chan c).img = 2 then w.map fun raw => (t, none, d.corrected di c raw (t - (d.chan c).span))
      else ((d.chan c).resampled t).map fun y => (t, none, y) := by
  subst ht
  unfold Die.nextResult
  dsimp only
  split
  next h => exact absurd h hlock
  next => rfl

/-- The next result of an axis's crossing. -/
theorem nextResult_crossing {d : Die} (di : DieId) {c : ChanId} (w : Option Int) (hlock : Img.lock (d.chan c).img = 1) :
    (((d.chan c).chain.cross = [] → d.nextResult di c w = none) ∧
    ∀ n x rest, (d.chan c).chain.cross = (n, x) :: rest → d.past (x + (d.chan c).span) = true →
      (x < (d.chan c).chain.tq + (d.chan c).span → d.nextResult di c w = some (x, some n, 0)) ∧
      ((d.chan c).chain.tq + (d.chan c).span ≤ x → ∀ y, (d.chan c).resampled x = some y →
        d.nextResult di c w = some (x, some n, y))) := by
  unfold Die.nextResult
  dsimp only
  rw [hlock]
  refine ⟨fun hnil => ?_, fun n x rest hcons hpast => ⟨fun hx => ?_, fun hx y hy => ?_⟩⟩
  · rw [hnil]
    rfl
  · simp only [hcons, List.head?_cons, Option.bind_some, hpast, Bool.not_true, Bool.false_eq_true, if_false, if_pos hx]
  · simp only [hcons, List.head?_cons, Option.bind_some, hpast, Bool.not_true, Bool.false_eq_true, if_false, if_neg (Nat.not_lt.mpr hx), hy,
      Option.map_some]

theorem nextResult_spec {d : Die} (di : DieId) {c : ChanId} (w : Option Int) {t : Tick}
    (ht : t = (d.chan c).outAt (d.chan c).chain.nextK) :
    (Img.lock (d.chan c).img ≠ 1 → d.past (t + (d.chan c).span) = false → d.nextResult di c w = none) ∧
    (Img.lock (d.chan c).img ≠ 1 → d.past (t + (d.chan c).span) = true → t < (d.chan c).chain.tq + (d.chan c).span →
      d.nextResult di c w = some (t, none, 0)) ∧
    (Img.lock (d.chan c).img ≠ 1 → d.past (t + (d.chan c).span) = true → (d.chan c).chain.tq + (d.chan c).span ≤ t →
      (d.chan c).counts = true → d.nextResult di c w = some (t, none, ((d.chan c).encAt t).cnt)) ∧
    (Img.lock (d.chan c).img = 0 → d.past (t + (d.chan c).span) = true → (d.chan c).chain.tq + (d.chan c).span ≤ t →
      (d.chan c).counts = false → ∀ y, (d.chan c).resampled t = some y → d.nextResult di c w = some (t, none, y)) ∧
    (Img.lock (d.chan c).img = 2 → d.past (t + (d.chan c).span) = true → (d.chan c).chain.tq + (d.chan c).span ≤ t →
      (d.chan c).counts = false → ∀ raw, w = some raw →
      d.nextResult di c w = some (t, none, d.corrected di c raw (t - (d.chan c).span))) := by
  refine ⟨fun hl hp => ?_, fun hl hp hx => ?_, fun hl hp hx hc => ?_, fun hl hp hx hc y hy => ?_, fun hl hp hx hc raw hw => ?_⟩
  · simp only [nextResult_grid di w ht hl, hp, Bool.not_false, if_true]
  · simp only [nextResult_grid di w ht hl, hp, Bool.not_true, Bool.false_eq_true, if_false, if_pos hx]
  · simp only [nextResult_grid di w ht hl, hp, hc, Bool.not_true, Bool.false_eq_true, if_false, if_true, if_neg (Nat.not_lt.mpr hx)]
  · have hl1 : Img.lock (d.chan c).img ≠ 1 := by omega
    have hl2 : Img.lock (d.chan c).img ≠ 2 := by omega
    simp only [nextResult_grid di w ht hl1, hp, hc, hy, Bool.not_true, Bool.false_eq_true, if_false, if_neg (Nat.not_lt.mpr hx), if_neg hl2,
      Option.map_some]
  · have hl1 : Img.lock (d.chan c).img ≠ 1 := by omega
    subst hw
    simp only [nextResult_grid di _ ht hl1, hp, hc, Bool.not_true, Bool.false_eq_true, if_false, if_neg (Nat.not_lt.mpr hx), if_pos hl,
      Option.map_some]

/-- A result of the grid: one whose span contains a switch or the restart is counted as straddling; another goes to the entries. -/
theorem giveResult_grid (d : Die) (c : ChanId) (q : Nat) (t : Tick) (y : Int) :
    (d.refCuts ((t : Int) - (d.chan c).span) (t + (d.chan c).span) = true → d.giveResult c q t none y =
      { (d.modCh c fun k => { k with chain := { k.chain with nextK := k.chain.nextK + 1 } }) with straddle := satInc d.straddle }) ∧
    (d.refCuts ((t : Int) - (d.chan c).span) (t + (d.chan c).span) = false → (d.chan c).chain.tq + (d.chan c).span ≤ t →
      ∀ z b, (z, b) = (d.chan c).report y t → d.giveResult c q t none y =
        ((d.modCh c fun k => { k with chain := { k.chain with nextK := k.chain.nextK + 1 } }).modCh c
          (·.noteResult z b t)).deliver c t (timeItems (d.chan c).img (wordOfInt z) t q)) ∧
    (d.refCuts ((t : Int) - (d.chan c).span) (t + (d.chan c).span) = false → t < (d.chan c).chain.tq + (d.chan c).span →
      (d.chan c).chain.tq < t + (d.chan c).span → d.giveResult c q t none y =
        { (d.modCh c fun k => { k with chain := { k.chain with nextK := k.chain.nextK + 1 } }) with straddle := satInc d.straddle }) := by
  unfold Die.giveResult
  dsimp only
  refine ⟨fun hcut => ?_, fun hcut ht z b hz => ?_, fun hcut ht htq => ?_⟩
  · simp only [hcut, Bool.true_or, if_true]
    rfl
  · simp only [hcut, decide_eq_false (Nat.not_lt.mpr ht), Bool.or_self, Bool.false_eq_true, if_false, ← hz]
  · simp only [hcut, decide_eq_true ht, decide_eq_true htq, Bool.false_or, if_true]
    rfl

/-- A crossing known late is counted as straddling, or discarded where its span ended before the restart. -/
theorem giveResult_crossing {d : Die} {c : ChanId} (q : Nat) {t : Tick} (y : Int) (n : Nat)
    (ht : t < (d.chan c).chain.tq + (d.chan c).span) {u : Die}
    (hu : u = d.modCh c fun k => { k with chain := { k.chain with cross := k.chain.cross.tail } }) :
    (d.refCuts ((t : Int) - (d.chan c).span) (t + (d.chan c).span) = true ∨ (d.chan c).chain.tq < t + (d.chan c).span →
      d.giveResult c q t (some n) y = { u with straddle := satInc d.straddle }) ∧
    (d.refCuts ((t : Int) - (d.chan c).span) (t + (d.chan c).span) = false → t + (d.chan c).span ≤ (d.chan c).chain.tq →
      d.giveResult c q t (some n) y = u) := by
  subst hu
  unfold Die.giveResult
  dsimp only
  refine ⟨fun h => ?_, fun hcut hle => ?_⟩
  · have hor : (d.refCuts ((t : Int) - (d.chan c).span) (t + (d.chan c).span) ||
        decide ((d.chan c).chain.tq < t + (d.chan c).span)) = true := by simpa using h
    simp only [decide_eq_true ht, Bool.or_true, if_true, hor]
    rfl
  · simp only [hcut, decide_eq_true ht, decide_eq_false (Nat.not_lt.mpr hle), Bool.or_true, Bool.or_self, Bool.false_eq_true, if_false, if_true]

theorem report_clamps {k : Channel} {y : Int} {t : Tick} (hc : k.counts = false) (hs : k.diag.shunt = false) {off gain : Int}
    (hsys : (off, gain) = k.cal.sysAt t) {z : Int} (hz : z = off + divRound (gain * y) (2 ^ 30)) {sp : Int × Int}
    (hsp : sp = codeSpan k.img k.odd) :
    (sp.1 ≤ z → z ≤ sp.2 → k.report y t = (z, false)) ∧
    (z < sp.1 → k.report y t = (-(2 ^ 31), true)) ∧
    (sp.1 ≤ z → sp.2 < z → k.report y t = (2 ^ 31 - 1, true)) := by
  have hrep : k.report y t = clampCode k.img k.odd z := by
    simp only [Channel.report, hc, hs, Bool.false_eq_true, if_false, ← hsys, sysCorrect, hz]
  subst hsp
  rw [hrep, clampCode]
  refine ⟨fun h1 h2 => ?_, fun h1 => ?_, fun h1 h2 => ?_⟩
  · rw [if_neg (Int.not_lt.mpr h1), if_neg (Int.not_lt.mpr h2)]
  · rw [if_pos h1]
  · rw [if_neg (Int.not_lt.mpr h1), if_pos h2]

theorem chainOutput_spec (s : State) (ch : Chan) (l : List Int) (w : Option Int) {d : Die} (hd : d = s.die ch.die) :
    (d.on = false ∨ hasChain (d.chan ch.c).mode = false ∨ (d.chan ch.c).trans ≠ none ∨ Img.mcEn (d.chan ch.c).img = true →
      exec (.chainOutput ch l w) s = .next s) ∧
    (d.on = true → hasChain (d.chan ch.c).mode = true → (d.chan ch.c).trans = none → Img.mcEn (d.chan ch.c).img = false → ∀ u,
      u = (if Img.lock (d.chan ch.c).img = 2 ∨ (d.chan ch.c).counts = true then d
        else l.foldl (fun x v => x.takeSample ch.die ch.c v) d) →
      (u.nextResult ch.die ch.c w = none → exec (.chainOutput ch l w) s = .next (s.modDie ch.die fun _ => u)) ∧
      (∀ t n y, u.nextResult ch.die ch.c w = some (t, n, y) →
        exec (.chainOutput ch l w) s = .next (s.modDie ch.die fun _ => u.giveResult ch.c (s.qualityOf t) t n y))) := by
  subst hd
  have hexec : exec (.chainOutput ch l w) s = execChainOutput ch l w s := rfl
  rw [hexec, execChainOutput]
  refine ⟨fun hno => ?_, fun hon hch htr hmc u hu => ?_⟩
  · refine congrArg Host.Outcome.next (modDie_of_fixed s ch.die ?_)
    dsimp only
    refine if_pos ?_
    rcases hno with h | h | h | h
    · simp only [h, Bool.not_false, Bool.true_or]
    · simp only [h, Bool.not_false, Bool.or_true, Bool.true_or]
    · simp only [Option.isSome_iff_ne_none.mpr h, Bool.or_true, Bool.true_or]
    · simp only [h, Bool.or_true]
  · have hrun : (!(s.die ch.die).on || !hasChain ((s.die ch.die).chan ch.c).mode || ((s.die ch.die).chan ch.c).trans.isSome ||
        Img.mcEn ((s.die ch.die).chan ch.c).img) = false := by
      simp only [hon, hch, htr, hmc, Bool.not_true, Option.isSome_none, Bool.or_self]
    refine ⟨fun hnone => ?_, fun t n y hsome => ?_⟩ <;> refine congrArg Host.Outcome.next (modDie_congr s ch.die ?_) <;>
      (dsimp only; rw [hrun, if_neg Bool.false_ne_true, ← hu])
    · rw [hnone]
    · rw [hsome]
      rfl

/-! ### Decimator resets (R171, R172) -/

theorem onlyChan_dropWindow (d : Die) (c : ChanId) : OnlyChan c d (d.dropWindow c) := fun k hk =>
  (chan_straddle _ _ k).trans (onlyChan_modCh d c (fun k => { k with chain := { k.chain with mcStart := none } }) k hk)

/-- One channel at a reset: its origin moves, and its chain restarts where it runs. -/
def resetChan (tr : Tick) (x : Die) (c : ChanId) : Die :=
  if Img.exempt (x.chan c).img then x.dropWindow c
  else if !hasChain (x.chan c).mode || (x.chan c).trans.isSome then x.modCh c fun k => { k with chain := { k.chain with origin := tr } }
  else x.restartCh c (fun k => { k with chain := { k.chain with origin := tr } }) tr

theorem onlyChan_resetChan (tr : Tick) (x : Die) (c : ChanId) : OnlyChan c x (resetChan tr x c) := by
  unfold resetChan
  split
  · exact onlyChan_dropWindow x c
  · split
    · exact onlyChan_modCh x c _
    · exact onlyChan_restartCh x c _ tr
theorem chan_resetChains (d : Die) (tr : Tick) (c : ChanId) :
    ∃ y : Die, y.chan c = d.chan c ∧ (d.resetChains tr).chan c = (resetChan tr y c).chan c :=
  chan_foldl (onlyChan_resetChan tr) (List.nodup_finRange 16) (List.mem_finRange c) d

theorem resetChains_origin {d : Die} {c : ChanId} (tr : Tick) (hex : Img.exempt (d.chan c).img = false) :
    ((d.resetChains tr).chan c).chain.origin = tr ∧
    (hasChain (d.chan c).mode = true → (d.chan c).trans = none →
      ((d.resetChains tr).chan c).chain.tq = tr ∧ ((d.resetChains tr).chan c).chain.settling = true) := by
  obtain ⟨y, hy, hres⟩ := chan_resetChains d tr c
  rw [hres, ← hy]
  rw [← hy] at hex
  unfold resetChan
  simp only [hex, Bool.false_eq_true, if_false]
  split
  next hno =>
    refine ⟨?_, fun hch htr => ?_⟩
    · rw [Die.chan_modCh, Channel.settle_chain, Channel.held_chain]
    · simp [hch, htr] at hno
  next hno =>
    refine ⟨?_, fun hch htr => ⟨?_, ?_⟩⟩ <;> rw [chan_restartCh, Channel.settle_chain, Channel.held_chain]
    · rfl
    · rfl
    · exact hch

theorem decimatorReset_due {s : State} {tr src : Nat} (h : s.core.dueReset s.clk.now = some (tr, src)) :
    ∃ t, exec .decimatorReset s = .next t ∧
      t.core.lastReset = tr ∧ t.core.resetCnt = satInc s.core.resetCnt ∧ t.core.resets = s.core.resets.filter (·.1 != tr) ∧
      t.core.mains.origin = tr ∧ t.core.entries = s.core.entries ∧
      ∀ d, (s.linked s.active d = false → t.die d = s.die d) ∧
        (s.linked s.active d = true → (s.die d).holder ≠ some s.active →
          t.die d = { s.die d with foreignDisc := satInc (s.die d).foreignDisc }) ∧
        (s.linked s.active d = true → (s.die d).holder = some s.active → ∀ c,
          Img.exempt ((s.die d).chan c).img = false → ((t.die d).chan c).chain.origin = tr ∧
          (hasChain ((s.die d).chan c).mode = true → ((s.die d).chan c).trans = none →
            ((t.die d).chan c).chain.tq = tr ∧ ((t.die d).chan c).chain.settling = true)) := by
  have hexec : exec .decimatorReset s = .next (State.commit s (s.decimate tr src)) := by
    have hexec : exec .decimatorReset s = execDecimatorReset s := rfl
    rw [hexec, execDecimatorReset, h]
  have hcore : (s.decimate tr src).core = { s.core with
      lastReset := tr
      resetCnt := satInc s.core.resetCnt
      resets := s.core.resets.filter (·.1 != tr)
      mains := s.core.mains.moveOrigin tr } := by
    unfold State.decimate
    dsimp only
    rw [raiseSrc_core]
    rfl
  have hdie : ∀ d, (s.decimate tr src).die d = (s.overLanes fun _ d => d.resetChains tr).die d := by
    intro d
    unfold State.decimate
    dsimp only
    rw [raiseSrc_die]
    rfl
  refine ⟨_, hexec, ?_⟩
  simp only [State.commit_core, State.die_commit, hcore, hdie, overLanes_die]
  refine ⟨trivial, trivial, trivial, rfl, trivial, fun d => ⟨fun hl => if_pos hl, fun hl hh => ?_, fun hl hh c hex => ?_⟩⟩
  · rw [if_neg (by simp [hl]), if_neg hh]
  · rw [if_neg (by simp [hl]), if_pos hh]
    exact resetChains_origin tr hex

/-- Settles O42: transitions, disables, settings, the chain's samples and results, and the resets, each by its own lemma. -/
theorem modeChangesAndResults : Obligations.ModeChangesAndResults := by
  unfold Obligations.ModeChangesAndResults
  refine ⟨⟨?_, ?_, ?_⟩, ?_, ?_, ?_, ?_, ?_, ?_⟩
  · rintro s ch d rfl
    refine ⟨fun p hp t ht => ?_, modeChange_none, fun tm htm hpast high => transition_ends htm hpast high,
      fun h hs high => transition_stays h hs high, fun p hp t ht => ?_, fun h => ?_⟩
    · have hexec : exec (.modeChangeStart ch) s = execModeChangeStart ch s := rfl
      have hstart : s.startModeChange ch = s.applyConfig ch p := by rw [State.startModeChange, hp]
      rw [hexec, execModeChangeStart, hstart, ht]
    · have hexec : exec (.channelDisableInstant ch) s = execChannelDisableInstant ch s := rfl
      rw [hexec, execChannelDisableInstant, hp, ht]
      rfl
    · have hexec : exec (.channelDisableInstant ch) s = execChannelDisableInstant ch s := rfl
      have hnone : (s.core.disables.find? fun p => decide (p.1 = ch) && (s.die ch.die).past p.2) = none := by
        rw [List.find?_eq_none]
        intro p hp
        simpa using h p hp
      rw [hexec, execChannelDisableInstant, hnone]
  · rintro s ch td self t hunit rfl
    obtain ⟨⟨old, k, off, r, hchan, h1, h2, h3, h4, h5, h6, h7, h8⟩, honly, hother⟩ := disableAt_spec hunit td self
    rw [hchan]
    refine ⟨?_, ?_, ?_, ?_, ?_, ?_, ?_, ?_, honly, hother⟩
    · rw [Channel.mode, Channel.settle_img, Channel.held_img]
      exact h1
    · rw [Channel.settle_out, held_out, h2, Bool.false_and]
    · rw [Channel.settle_out, held_out, h3]
    · rw [Channel.settle_trans, Channel.held_trans, h4]
    · rw [Channel.settle_hold, Channel.held_hold, h5]
    · rw [Channel.settle_group, Channel.held_group, h6]
    · rw [Channel.settle_chgHeat, Channel.held_chgHeat, h7]
    · rw [Channel.settle_chgBar, Channel.held_chgBar, h8]
  · rintro s ch d rfl vd had rfl rfl
    refine ⟨?_, applyFilters_none, applyVd_none, fun p hp => applyVd_some hp⟩
    have hexec : exec (.filterChange ch) s = execFilterChange ch s := rfl
    rw [hexec, execFilterChange]
    rw [modDie_congr s ch.die (f := fun d => (d.applyFilters ch.c).applyVd)
      (g := fun _ => ((s.die ch.die).applyFilters ch.c).applyVd) rfl]
  · rintro s ch l w d k hd rfl
    exact chainOutput_spec s ch l w hd
  · rintro d di c raw k t rfl ht
    exact ⟨fun h => takeSample_early di raw (ht ▸ h), fun h x hx => takeSample_due di raw ht h hx⟩
  · rintro d di c w k t rfl ht
    obtain ⟨h1, h2, h3, h4, h5⟩ := nextResult_spec di w ht
    exact ⟨h1, h2, h3, h4, h5, fun hl => (nextResult_crossing di w hl).1, fun hl => (nextResult_crossing di w hl).2⟩
  · rintro d c q t y k rfl
    obtain ⟨h1, h2, h3⟩ := giveResult_grid d c q t y
    exact ⟨h1, h2, h3, fun n ht u hu => giveResult_crossing q y n ht hu⟩
  · intro k y t hc hs off gain hsys z hz sp hsp
    exact report_clamps hc hs hsys hz hsp
  · intro s
    refine ⟨fun h => ?_, fun tr src h => decimatorReset_due h⟩
    have hexec : exec .decimatorReset s = execDecimatorReset s := rfl
    rw [hexec, execDecimatorReset, h]

end Sys2Proof
end

section
namespace Sys2Proof
open Machine

/-! ### An encoder row on a die whose outputs are held off (R108, R213, R256) -/

/-- The reset state but for die 0, whose isolated power is lost while channel 0's driver still stands on. -/
def unpoweredOutput : State := State.reset.modDie 0 fun d => { d with
  isoPower := false
  chans := vmod d.chans 0 fun k => { k with out := { k.out with drive := true } } }

theorem unpoweredOutput_allOff : (unpoweredOutput.die 0).allOff = true := by
  rw [unpoweredOutput, State.die_modDie]
  rfl
theorem unpoweredOutput_chan : unpoweredOutput.chan ⟨0, 0⟩ = { Channel.reset with out := { Channel.reset.out with drive := true } } := by
  rw [← State.chan_eq, unpoweredOutput, State.die_modDie]
  refine (vmod_self _ _ _).trans ?_
  rw [show (State.reset.die (0 : DieId)).chans[(0 : Fin 16).val] = Channel.reset from reset_chan ⟨0, 0⟩]

/-- Whatever is asked of that channel, its driver goes off with the change. -/
theorem unpoweredOutput_modCh_ne (f : Channel → Channel) : unpoweredOutput.modCh ⟨0, 0⟩ f ≠ unpoweredOutput := by
  intro hstay
  have hdrive : (unpoweredOutput.chan ⟨0, 0⟩).out.drive = false := by
    rw [← hstay, ← State.chan_eq, State.modCh, State.die_modDie, Die.chan_modCh, Channel.settle_out, held_out,
      unpoweredOutput_allOff, Bool.not_true, Bool.and_false]
  rw [unpoweredOutput_chan] at hdrive
  exact absurd hdrive (by decide)

/-- Refutes O43: ENCODER_EPISODE_END with no episode open goes through the channel's change all the same, and the change holds a driver
off on a die without isolated power, so that the state does not stay where that driver stands on. -/
theorem not_inputsAndCounts : ¬ Obligations.InputsAndCounts := by
  unfold Obligations.InputsAndCounts
  rintro ⟨⟨hrows, -⟩, -⟩
  obtain ⟨-, -, -, -, -, -, hnone, -⟩ := hrows unpoweredOutput ⟨0, 0⟩ _ _ rfl rfl
  exact unpoweredOutput_modCh_ne _ (Host.Outcome.next.inj (hnone (by rw [State.chan_eq, unpoweredOutput_chan]; rfl)))

/-- Refutes O44: FOLDBACK_RETRY on a channel that is not in mode 0x3 goes through the channel's change all the same, which holds a driver
off on a die without isolated power, so that the state does not stay. -/
theorem not_diagnostics : ¬ Obligations.Diagnostics := by
  unfold Obligations.Diagnostics
  rintro ⟨⟨hrows, -⟩, -⟩
  obtain ⟨-, -, -, -, -, -, -, -, -, -, -, -, hno⟩ := hrows unpoweredOutput ⟨0, 0⟩ _ _ _ rfl rfl rfl
  refine unpoweredOutput_modCh_ne _ (Host.Outcome.next.inj (hno (.inl ?_)))
  rw [State.chan_eq, unpoweredOutput_chan]
  decide

end Sys2Proof
end

section
namespace Sys2Proof
open Machine

/-! ### Off-pulses, ramps and holds (R101, R104, R107) -/

theorem offPulse_starts {s : State} {ch : Chan} {d : Die} (hd : d = s.die ch.die) :
    (d.on = true → d.named ch.c = ch.c → (d.chan ch.c).out.pulse = none → (d.chan ch.c).pulseable (d.govern ch.c) d.replica = true →
      d.replica % (Img.optPeriod (d.govern ch.c) * ms) = (ch.c.val * 250 * us) % (Img.optPeriod (d.govern ch.c) * ms) →
      exec (.offPulseStart ch) s = .next (s.modDie ch.die fun _ => (d.together ch.c).foldl (fun x c =>
        x.modCh c fun y => { y with out := y.out.beginPulse d.replica }) d)) ∧
    (d.on = false ∨ d.named ch.c ≠ ch.c ∨ (d.chan ch.c).out.pulse ≠ none ∨ (d.chan ch.c).pulseable (d.govern ch.c) d.replica = false ∨
        d.replica % (Img.optPeriod (d.govern ch.c) * ms) ≠ (ch.c.val * 250 * us) % (Img.optPeriod (d.govern ch.c) * ms) →
      exec (.offPulseStart ch) s = .next s) := by
  subst hd
  have hexec : exec (.offPulseStart ch) s = execOffPulseStart ch s := rfl
  rw [hexec, execOffPulseStart]
  constructor
  · intro hon hname hp hpulse hinst
    refine congrArg Host.Outcome.next (modDie_congr s ch.die (if_pos ?_))
    simp only [hon, hname, hp, hpulse, hinst, beq_self_eq_true, Option.isNone_none, decide_true, Bool.and_self]
  · intro hno
    refine congrArg Host.Outcome.next (modDie_of_fixed s ch.die (if_neg ?_))
    rcases hno with hno | hno | hno | hno | hno <;> simp [-State.chan_eq, hno]

theorem offPulse_ends {s : State} {ch : Chan} {d : Die} (hd : d = s.die ch.die) (v : Int) :
    ((d.chan ch.c).out.pulse = none ∨ d.on = false → exec (.offPulseEnd ch v) s = .next s) ∧
    (∀ t, (d.chan ch.c).out.pulse = some t → d.past (t + 200 * us) = false → exec (.offPulseEnd ch v) s = .next s) ∧
    (∀ t, d.on = true → (d.chan ch.c).out.pulse = some t → d.past (t + 200 * us) = true → ∀ u,
      u = Die.backfeedLeft d ((d.together ch.c).foldl (fun x c => x.modCh c fun y => { y with out := { y.out with
          drive := if y.mode = 9 then decide (y.out.value ≠ 2) else decide (y.out.value = 1)
          pulse := none, lastPulse := some (d.replica, decide (v ≤ 5000)) } }) d) ch.die (s.dq ch.die) (d.together ch.c) →
      (v ≤ 5000 → exec (.offPulseEnd ch v) s = .next (s.modDie ch.die fun _ => u)) ∧
      (5000 < v → ∀ w, w = (u.modDiag ch.c fun g => { g with shortLp := true }).evUnit ch (s.dq ch.die) .shortLp true →
        (Img.slpSafe (w.govern ch.c) = false → exec (.offPulseEnd ch v) s = .next (s.modDie ch.die fun _ => w)) ∧
        (Img.slpSafe (w.govern ch.c) = true → exec (.offPulseEnd ch v) s =
          .next (s.modDie ch.die fun _ => w.setCauses ch.die (s.dq ch.die) 4 (w.together ch.c))))) := by
  subst hd
  have hexec : exec (.offPulseEnd ch v) s = execOffPulseEnd ch v s := rfl
  rw [hexec, execOffPulseEnd]
  refine ⟨fun hno => ?_, fun t ht hpast => ?_, fun t hon ht hpast u hu => ?_⟩
  · refine congrArg Host.Outcome.next (modDie_of_fixed s ch.die ?_)
    dsimp only
    split
    · rfl
    next t ht =>
      rcases hno with hno | hno
      · exact absurd (hno.symm.trans ht) (by simp)
      · simp only [hno, Bool.false_and, Bool.false_eq_true, if_false]
  · refine congrArg Host.Outcome.next (modDie_of_fixed s ch.die ?_)
    simp only [ht, hpast, Bool.and_false, Bool.false_eq_true, if_false]
  · have hu' : u = Die.backfeedLeft (s.die ch.die) (((s.die ch.die).together ch.c).foldl (fun x c => x.modCh c fun k =>
        { k with out := k.out.endPulse k.mode (s.die ch.die).replica (decide (v ≤ 5000)) }) (s.die ch.die)) ch.die (s.dq ch.die)
          ((s.die ch.die).together ch.c) := hu
    have hrun : ((s.die ch.die).on && (s.die ch.die).past (t + 200 * us)) = true := by simp only [hon, hpast, Bool.and_self]
    refine ⟨fun hv => ?_, fun hv w hw => ⟨fun hs => ?_, fun hs => ?_⟩⟩ <;>
      refine congrArg Host.Outcome.next (modDie_congr s ch.die ?_) <;> dsimp only <;> rw [ht] <;>
      simp only [hrun, if_true, ← hu']
    · rw [if_pos (decide_eq_true hv)]
    · simp only [decide_eq_false (Int.not_le.mpr hv), Bool.false_eq_true, if_false, ← hw, hs]
    · simp only [decide_eq_false (Int.not_le.mpr hv), Bool.false_eq_true, if_false, ← hw, hs, if_true]

theorem ramp_steps {s : State} {ch : Chan} {d : Die} (hd : d = s.die ch.die) :
    (∀ t, (d.chan ch.c).out.ramp = some t →
      (d.past t = true → (d.chan ch.c).isSafe = true → Img.kind (d.govern ch.c) = 3 → exec (.rampStep ch) s = .next (s.modDie ch.die fun _ =>
        d.modCh ch.c fun y => { y with out := y.out.rampStep (d.govern ch.c) t })) ∧
      (d.past t = false ∨ (d.chan ch.c).isSafe = false ∨ Img.kind (d.govern ch.c) ≠ 3 → exec (.rampStep ch) s = .next s)) ∧
    ((d.chan ch.c).out.ramp = none → exec (.rampStep ch) s = .next s) := by
  subst hd
  have hexec : exec (.rampStep ch) s = execRampStep ch s := rfl
  rw [hexec, execRampStep]
  refine ⟨fun t ht => ⟨fun hp hsafe hk => ?_, fun hno => ?_⟩, fun hnone => ?_⟩
  · refine congrArg Host.Outcome.next (modDie_congr s ch.die ?_)
    simp only [ht, hp, hsafe, hk, beq_self_eq_true, Bool.and_self, if_true]
  · refine congrArg Host.Outcome.next (modDie_of_fixed s ch.die ?_)
    rw [ht]
    rcases hno with hno | hno | hno <;> simp [-State.chan_eq, hno]
  · refine congrArg Host.Outcome.next (modDie_of_fixed s ch.die ?_)
    simp only [hnone]

theorem hold_expires {s : State} {ch : Chan} {d : Die} (hd : d = s.die ch.die) :
    (∀ t, (d.chan ch.c).hold = some t →
      (t + Img.holdMs (d.chan ch.c).img * ms ≤ s.clk.elapsed →
        ∀ cs, cs = (allC.filter fun c => (d.chan c).holdEnd == some (t + Img.holdMs (d.chan ch.c).img * ms)) →
        exec (.holdMsExpiry ch) s = .next (s.modDie ch.die fun _ =>
          (cs.foldl (fun x c => x.modCh c fun y => { y with hold := none }) d).setCauses ch.die (d.q s.quality) 2 cs)) ∧
      (s.clk.elapsed < t + Img.holdMs (d.chan ch.c).img * ms → exec (.holdMsExpiry ch) s = .next s)) ∧
    ((d.chan ch.c).hold = none → exec (.holdMsExpiry ch) s = .next s) := by
  subst hd
  have hexec : exec (.holdMsExpiry ch) s = execHoldMsExpiry ch s := rfl
  rw [hexec, execHoldMsExpiry]
  refine ⟨fun t ht => ?_, fun hnone => ?_⟩
  · have hend : ((s.die ch.die).chan ch.c).holdEnd = some (t + Img.holdMs ((s.die ch.die).chan ch.c).img * ms) := by
      rw [Channel.holdEnd, ht, Option.map_some]
    refine ⟨fun hle cs hcs => ?_, fun hlt => ?_⟩
    · refine congrArg Host.Outcome.next (modDie_congr s ch.die ?_)
      dsimp only
      rw [hend]
      dsimp only
      rw [if_pos hle, ← hcs]
    · refine congrArg Host.Outcome.next (modDie_of_fixed s ch.die ?_)
      dsimp only
      rw [hend]
      exact if_neg (Nat.not_le.mpr hlt)
  · refine congrArg Host.Outcome.next (modDie_of_fixed s ch.die ?_)
    dsimp only
    rw [Channel.holdEnd, hnone, Option.map_none]

/-! ### A hub lost, and isolated power lost (R105, R106, R108, R256) -/

/-- Closing every entry of a near-term queue. -/
theorem close_all (d : Die) (o : EntryOutcome) : d.close (fun _ => true) o = { d with
    ntq := d.ntq.map fun e => if e.live then { e with phase := .finished o } else e
    ntqPool := d.ntqPool.finish (d.ntq.countP (·.live)) } := by
  simp only [Die.close, Bool.and_true]

theorem hubLoss_expires {s : State} {di : DieId} {d : Die} (hd : d = s.die di) {t : Nat} (ht : d.lossFrom = some t) :
    (d.pwr = .deepSleep ∨ s.clk.elapsed < t + d.hublossT * us → exec (.hubLossExpiry di) s = .next s) ∧
    (d.pwr ≠ .deepSleep → t + d.hublossT * us ≤ s.clk.elapsed → ∀ u, u = d.setCauses di (d.q s.quality) 0 allC →
      (s.variant.dual = true → ((s.hub 0).hstate = .ready ∨ (s.hub 1).hstate = .ready) →
        exec (.hubLossExpiry di) s = .next (s.modDie di fun _ => u)) ∧
      (s.variant.dual = false ∨ ((s.hub 0).hstate ≠ .ready ∧ (s.hub 1).hstate ≠ .ready) →
        exec (.hubLossExpiry di) s = .next (s.modDie di fun _ =>
          { u with
            ntq := u.ntq.map fun e => if e.live then { e with phase := .finished .missed } else e
            ntqPool := u.ntqPool.finish (u.ntq.countP (·.live))
            missed := u.missed ++ (u.ntq.filter (·.live)).map (·.id) }))) := by
  subst hd
  have hexec : exec (.hubLossExpiry di) s = execHubLossExpiry di s := rfl
  rw [hexec, execHubLossExpiry]
  refine ⟨fun hno => ?_, fun hp hle u hu => ⟨fun hdual hready => ?_, fun hno => ?_⟩⟩
  · refine congrArg Host.Outcome.next (modDie_of_fixed s di ?_)
    dsimp only
    rw [ht]
    refine if_neg fun h => ?_
    rcases hno with hno | hno
    · exact h.1 hno
    · exact absurd h.2 (Nat.not_le.mpr hno)
  · refine congrArg Host.Outcome.next (modDie_congr s di ?_)
    dsimp only
    rw [ht]
    have hr : (s.variant.dual && ((s.hub 0).hstate == .ready || (s.hub 1).hstate == .ready)) = true := by simpa [hdual] using hready
    simp only [if_pos (And.intro hp hle), hr, if_true, ← hu]
  · refine congrArg Host.Outcome.next (modDie_congr s di ?_)
    dsimp only
    rw [ht]
    have hr : (s.variant.dual && ((s.hub 0).hstate == .ready || (s.hub 1).hstate == .ready)) = false := by
      rcases hno with hno | ⟨h0, h1⟩
      · simp [hno]
      · simp [h0, h1]
    simp only [if_pos (And.intro hp hle), hr, Bool.false_eq_true, if_false, ← hu, close_all]

theorem chan_isoPower (d : Die) (b : Bool) (k : ChanId) : ({ d with isoPower := b } : Die).chan k = d.chan k := rfl

/-- Turning every driver off leaves modes and causes. -/
theorem turnedOff_chan (d : Die) (t : Tick) (c : ChanId) {x : Channel}
    (hx : x = (allC.foldl (fun x c => x.modCh c fun ch => { ch with out := ch.out.turnOff t, fsk := ch.fsk.stop }) d).chan c) :
    x.out.drive = false ∧ x.out.run = false ∧ x.mode = (d.chan c).mode ∧ x.cause = (d.chan c).cause := by
  obtain ⟨y, hy, hres⟩ := chan_foldl (c := c) (l := allC)
    (f := fun x c => x.modCh c fun ch => { ch with out := ch.out.turnOff t, fsk := ch.fsk.stop })
    (fun x b => onlyChan_modCh x b _) (List.nodup_finRange 16) (List.mem_finRange c) d
  rw [hx, hres, Die.chan_modCh, Channel.settle_out, held_out, Channel.mode, Channel.settle_img, Channel.held_img, Channel.settle_cause,
    Channel.held_cause, hy]
  exact ⟨rfl, rfl, rfl, rfl⟩

theorem turnedOff_ntq (d : Die) (t : Tick) :
    (allC.foldl (fun x c => x.modCh c fun ch => { ch with out := ch.out.turnOff t, fsk := ch.fsk.stop }) d).ntq = d.ntq := by
  generalize allC = l
  induction l generalizing d with
  | nil => rfl
  | cons c l ih => rw [List.foldl_cons, ih, Die.modCh_ntq]

theorem isolatedPower_lost (s : State) (di : DieId) : ∃ t, exec (.isolatedPowerLost di) s = .next t ∧ (t.die di).isoPower = false ∧
    (∀ c, ((t.die di).chan c).out.drive = false ∧ ((t.die di).chan c).out.run = false ∧
      ((t.die di).chan c).mode = ((s.die di).chan c).mode ∧ ((t.die di).chan c).cause = ((s.die di).chan c).cause) ∧
    (t.die di).ntq = (s.die di).ntq ∧ ∀ e, e ≠ di → t.die e = s.die e := by
  have hexec : exec (.isolatedPowerLost di) s = execIsolatedPowerLost di s := rfl
  rw [hexec, execIsolatedPowerLost]
  refine ⟨_, rfl, ?_, fun c => ?_, ?_, fun e he => State.die_modDie_ne _ _ _ _ he.symm⟩ <;> rw [State.die_modDie]
  · rw [chan_isoPower]
    exact turnedOff_chan (s.die di) (s.die di).replica c rfl
  · dsimp only
    rw [turnedOff_ntq]

/-- Settles O45: off-pulses, ramps, holds, the lost hub and the lost isolated power, each by the lemma of its row. -/
theorem dieSafety : Obligations.DieSafety := by
  unfold Obligations.DieSafety
  rintro s ch d k g q hd rfl rfl rfl
  obtain ⟨hstart, hstay⟩ := offPulse_starts hd
  refine ⟨hstart, hstay, fun p t => ⟨fun h => ?_, fun h => ?_⟩, offPulse_ends hd, (ramp_steps hd).1, (ramp_steps hd).2, (hold_expires hd).1,
    (hold_expires hd).2, fun t ht => hubLoss_expires hd ht, fun hnone => ?_, ?_⟩
  · rw [Output.beginPulse, h]
    rfl
  · rw [Output.beginPulse, h]
    rfl
  · have hexec : exec (.hubLossExpiry ch.die) s = execHubLossExpiry ch.die s := rfl
    rw [hexec, execHubLossExpiry]
    refine congrArg Host.Outcome.next (modDie_of_fixed s ch.die ?_)
    rw [← hd]
    simp only [hnone]
  · rw [hd]
    exact isolatedPower_lost s ch.die

end Sys2Proof
end

section
namespace Sys2Proof
open Machine

/-! ### The regular table (R134 to R137) -/

theorem auxPass_spec {s : State} {d : DieId} {k : Die} (hk : k = s.die d) {te : Tick}
    (hte : te = nextMultiple (k.aux.passMs * ms) k.aux.passFrom) :
    (k.past te = false ∨ k.on = false → exec (.auxPassStart d) s = .next s) ∧
    (k.past te = true → k.on = true → ∀ y, y = { k with aux := { k.aux with passFrom := te + 1 } } →
      (k.aux.entry ≠ none → exec (.auxPassStart d) s = .next (s.modDie d fun _ =>
        { y with aux := { y.aux with passSkip := satInc k.aux.passSkip } })) ∧
      (k.aux.entry = none → y.installAux.aux.run = false →
        exec (.auxPassStart d) s = .next (s.modDie d fun _ => y.installAux)) ∧
      (k.aux.entry = none → y.installAux.aux.run = true → exec (.auxPassStart d) s = .next (s.modDie d fun _ =>
        { y.installAux with aux := { y.installAux.aux with
          entry := (y.installAux.aux.nextFrom 0).map fun i => (i, te) } }))) := by
  subst hk
  have hexec : exec (.auxPassStart d) s = execAuxPassStart d s := rfl
  rw [hexec, execAuxPassStart]
  refine ⟨fun hno => ?_, fun hp hon y hy => ?_⟩
  · refine congrArg Host.Outcome.next (modDie_of_fixed s d (if_pos ?_))
    rw [← hte]
    exact hno.symm
  · have hrun : ¬ ((s.die d).on = false ∨ (s.die d).past te = false) := by simp [hp, hon]
    refine ⟨fun he => ?_, fun he hr => ?_, fun he hr => ?_⟩ <;> refine congrArg Host.Outcome.next (modDie_congr s d ?_) <;>
      dsimp only <;> rw [← hte, if_neg hrun] <;> subst hy
    · exact if_pos (Option.isSome_iff_ne_none.mpr he)
    · exact (if_neg (by simp [he])).trans (if_neg (Bool.eq_false_iff.mp hr))
    · exact (if_neg (by simp [he])).trans (if_pos hr)

theorem installAux_of_host {k : Die} (h : k.aux.auto = false) : k.installAux = { k with aux := { k.aux with
    priv := k.aux.privSh, inj := k.aux.injSh, table := k.aux.tableSh, len := k.aux.lenSh } } := by
  rw [Die.installAux]
  dsimp only
  rw [h]
  rfl
theorem installAux_of_auto {k : Die} (h : k.aux.auto = true) :
    k.installAux.aux.len = k.autoTable.length ∧ k.installAux.aux.table = layTable k.autoTable k.aux.table ∧
      k.installAux.aux.priv = k.aux.privSh ∧ k.installAux.aux.inj = k.aux.injSh := by
  rw [Die.installAux]
  dsimp only
  rw [if_pos h]
  exact ⟨rfl, rfl, rfl, rfl⟩

theorem windows_of_wait {w : Word} (h : AuxEntry.source w = 0xFF) (te : Tick) : AuxEntry.windows w te = [] := by
  simp only [AuxEntry.windows, AuxEntry.isWait, h, beq_self_eq_true, if_true]

theorem auxEntry_stays {s : State} {d : DieId} {k : Die} (hk : k = s.die d) (v : Int) (h : k.aux.entry = none ∨ k.aux.injRun ≠ none) :
    exec (.auxEntryEnd d v) s = .next s := by
  subst hk
  have hexec : exec (.auxEntryEnd d v) s = execAuxEntryEnd d v s := rfl
  rw [hexec, execAuxEntryEnd]
  refine congrArg Host.Outcome.next (modDie_of_fixed s d ?_)
  dsimp only
  split
  next he hi =>
    rcases h with h | h
    · exact absurd (h.symm.trans he) (by simp)
    · exact absurd hi h
  next => rfl

theorem auxEntry_ends {s : State} {d : DieId} {k : Die} (hk : k = s.die d) (v : Int) {i : Nat} {te : Tick} {w : Word} {e : Tick}
    (hentry : k.aux.entry = some (i, te)) (hinj : k.aux.injRun = none) (hw : w = k.aux.entryAt i) (he : e = te + AuxEntry.length w) :
    (k.past e = false ∨ k.on = false → exec (.auxEntryEnd d v) s = .next s) ∧
    (k.past e = true → k.on = true → ∀ ws keep u y, ws = AuxEntry.windows w te →
      keep = (ws.getLast?.any fun v => !k.refCuts v.1 v.2) →
      u = (if keep then k.auxResult (AuxEntry.source w) v else k) →
      y = { u with
        straddle := satAdd u.straddle (ws.countP fun v => k.refCuts v.1 v.2)
        aux := { u.aux with
          result := if keep then vmap u.aux.result fun j x => if j.val = i then wordOfInt v else x else u.aux.result
          entry := if u.aux.run then (u.aux.nextFrom (i + 1)).map fun j => (j, e) else none } } →
      (AuxEntry.source w = 0xFF → ws = []) ∧
      (AuxEntry.source w ≠ 0x35 ∨ keep = false → exec (.auxEntryEnd d v) s = .next (s.modDie d fun _ => y)) ∧
      (AuxEntry.source w = 0x35 → keep = true → exec (.auxEntryEnd d v) s = .next (s.modDie d fun _ => y.refCheck))) := by
  subst hk
  have hexec : exec (.auxEntryEnd d v) s = execAuxEntryEnd d v s := rfl
  rw [hexec, execAuxEntryEnd]
  refine ⟨fun hno => ?_, fun hp hon ws keep u y hws hkeep hu hy => ⟨fun hwait => hws ▸ windows_of_wait hwait te, fun hno => ?_, fun hs hk => ?_⟩⟩
  · refine congrArg Host.Outcome.next (modDie_of_fixed s d ?_)
    simp only [hentry, hinj, ← hw, ← he]
    rcases hno with hno | hno <;> simp only [hno, Bool.and_false, Bool.false_and, Bool.false_eq_true, if_false]
  · refine congrArg Host.Outcome.next (modDie_congr s d ?_)
    simp only [hentry, hinj, ← hw, ← he, hp, hon, Bool.and_self, if_true, ← hws, ← hkeep, ← hu, ← hy]
    rcases hno with hno | hno <;> simp only [hno, decide_false, Bool.and_false, Bool.false_and, Bool.false_eq_true, if_false]
  · refine congrArg Host.Outcome.next (modDie_congr s d ?_)
    simp only [hentry, hinj, ← hw, ← he, hp, hon, Bool.and_self, if_true, ← hws, ← hkeep, ← hu, ← hy]
    simp only [hs, hk, decide_true, Bool.and_self, if_true]

/-! ### Test currents (R132, R134, R140) -/

theorem injTest_before {d : Die} {l : List Word} {ta t : Tick} (h : t < ta) : d.injTest l ta t = 0 := by
  unfold Die.injTest
  split
  · exact if_pos h
  · rfl

/-- The current of the entry of an injected sequence that is connected. -/
theorem injTest_of_entry {d : Die} {l : List Word} {ta t : Tick} {p : Tick × Tick} {w : Word}
    (hf : (((injWindows l ta true).zip l).find? fun v => decide (t < v.1.2)) = some (p, w)) (ht : ta ≤ t) :
    (AuxEntry.test w = 0 ∨ AuxEntry.measured w = none → d.injTest l ta t = 0) ∧
    (∀ c, AuxEntry.measured w = some c → (AuxEntry.test w = 1 ∨ AuxEntry.test w = 3 → d.injTest l ta t = d.testSize c) ∧
      (AuxEntry.test w = 2 → d.injTest l ta t = -(d.testSize c : Int))) := by
  unfold Die.injTest
  rw [hf]
  dsimp only
  rw [if_neg (Nat.not_lt.mpr ht)]
  refine ⟨fun h => ?_, fun c hc => ⟨fun h => ?_, fun h => ?_⟩⟩
  · rcases h with h | h
    · rw [h]
      rfl
    · rw [h]
      dsimp only
      split <;> rfl
  · rw [hc]
    rcases h with h | h <;> (rw [h]; rfl)
  · rw [hc, h]
    rfl

/-- Until the first window has ended no repeat has. -/
theorem countP_windows_first {w : Word} {te t : Tick} (h : t < te + max (AuxEntry.settle w) (40 * us) + AuxEntry.window w) :
    ((AuxEntry.windows w te).countP fun v => decide (v.2 ≤ t)) = 0 := by
  rw [List.countP_eq_zero]
  intro v hv
  unfold AuxEntry.windows at hv
  dsimp only at hv
  split at hv
  · exact absurd hv (by simp)
  · rw [List.mem_map] at hv
    obtain ⟨k, -, rfl⟩ := hv
    have hle : AuxEntry.window w ≤ (k + 1) * AuxEntry.window w := Nat.le_mul_of_pos_left _ (Nat.succ_pos k)
    simp only [decide_eq_true_eq]
    exact Nat.not_le.mpr (Nat.lt_of_lt_of_le h (Nat.add_le_add_left hle _))

/-- The current of a regular entry between its begin and its end. -/
theorem testOf_running {d : Die} {w : Word} {te t : Tick} (h1 : te ≤ t) (h2 : t < te + AuxEntry.length w) :
    (AuxEntry.test w = 0 ∨ AuxEntry.measured w = none → d.testOf w te t = 0) ∧
    (∀ c, AuxEntry.measured w = some c → (AuxEntry.test w = 1 → d.testOf w te t = d.testSize c) ∧
      (AuxEntry.test w = 2 → d.testOf w te t = -(d.testSize c : Int)) ∧
      (AuxEntry.test w = 3 → t < te + max (AuxEntry.settle w) (40 * us) + AuxEntry.window w → d.testOf w te t = d.testSize c)) := by
  have hrun : ¬ (t < te ∨ te + AuxEntry.length w ≤ t) := not_or.mpr ⟨Nat.not_lt.mpr h1, Nat.not_le.mpr h2⟩
  unfold Die.testOf
  dsimp only
  rw [if_neg hrun]
  refine ⟨fun h => ?_, fun c hc => ⟨fun h => ?_, fun h => ?_, fun h hw => ?_⟩⟩
  · rcases h with h | h
    · rw [h]
      rfl
    · rw [h]
      dsimp only
      split
      · rfl
      · rfl
      · split <;> rfl
      · rfl
  · rw [hc, h]
    rfl
  · rw [hc, h]
    rfl
  · rw [hc, h, countP_windows_first hw]
    rfl

/-! ### Urgent triggers (R138 to R142) -/

theorem urgentTrigger_spec {s : State} {d : DieId} {x : Die} (hx : x = s.die d) (id : Nat) :
    (x.queued id = none → exec (.urgentTrigger d id) s = .next s) ∧
    ∀ e, x.queued id = some e →
      (x.aux.slotOf e.ch.c = none → exec (.urgentTrigger d id) s = .next s) ∧
      ∀ sl, x.aux.slotOf e.ch.c = some sl → ∀ l, l = x.aux.waiting[sl.val] →
        (l.find? (fun u => u.id == id && u.ta.isNone) = none → exec (.urgentTrigger d id) s = .next s) ∧
        ∀ u, l.find? (fun u => u.id == id && u.ta.isNone) = some u →
          (x.triggerAt x.aux.priv[sl.val] u = none → exec (.urgentTrigger d id) s = .next s) ∧
          ∀ t, x.triggerAt x.aux.priv[sl.val] u = some t → exec (.urgentTrigger d id) s = .next (s.modDie d fun _ =>
            { x with aux := x.aux.modWait sl fun l => l.map fun y =>
              if y = u then { u with ta := some (t + 125 * fld e.e.param 0 16) } else y }) := by
  subst hx
  have hexec : exec (.urgentTrigger d id) s = execUrgentTrigger d id s := rfl
  rw [hexec, execUrgentTrigger]
  refine ⟨fun hq => ?_, fun e hq => ⟨fun hsl => ?_, fun sl hsl l hl => ?_⟩⟩
  · exact congrArg Host.Outcome.next (modDie_of_fixed s d (by simp only [hq]))
  · exact congrArg Host.Outcome.next (modDie_of_fixed s d (by simp only [hq, hsl]))
  · subst hl
    refine ⟨fun hf => ?_, fun u hf => ⟨fun ht => ?_, fun t ht => ?_⟩⟩
    · exact congrArg Host.Outcome.next (modDie_of_fixed s d (by simp only [hq, hsl, hf]))
    · exact congrArg Host.Outcome.next (modDie_of_fixed s d (by simp only [hq, hsl, hf, ht]))
    · exact congrArg Host.Outcome.next (modDie_congr s d (by simp only [hq, hsl, hf, ht]))

theorem triggerAt_schedule (x : Die) {w : Word} (u : Urgent) (hw : privTrig w = 0) :
    (x.past u.occAt = true → x.triggerAt w u = some u.occAt) ∧ (x.past u.occAt = false → x.triggerAt w u = none) := by
  unfold Die.triggerAt
  dsimp only
  rw [hw]
  exact ⟨fun h => by simp only [h, if_true], fun h => by simp only [h, Bool.false_eq_true, if_false]⟩

/-- The first arrived trigger of a slot, as the model's search and as `Option.any` say it. -/
theorem find_arrived (x : Die) (l : List Urgent) {p : Urgent → Bool} (hp : ∀ u t, u.ta = some t → p u = x.past t)
    (hn : ∀ u, u.ta = none → p u = false) : l.find? p = l.find? fun u => u.ta.any x.past := by
  refine congrArg (fun q => l.find? q) (funext fun u => ?_)
  cases h : u.ta with
  | none => rw [hn u h, Option.any_none]
  | some t => rw [hp u t h, Option.any_some]

/-- A trigger that has arrived leaves its slot; one whose entry lives is dropped with a cause, or its sequence starts. -/
theorem urgentArrival_takes {s : State} {d : DieId} {k : Fin 4} {u : Urgent} {ta : Tick} {y : Die}
    (hf : ((s.die d).aux.waiting[k.val]).find? (fun u => u.ta.any (s.die d).past) = some u) (hta : u.ta = some ta)
    (hy : y = { s.die d with aux := (s.die d).aux.modWait k fun l => l.filter (· != u) }) :
    exec (.urgentArrival d k) s = .next (s.modDie d fun _ =>
      if ((s.die d).queued u.id).any (·.live) then
        ((s.die d).aux.dropCause k u ta).elim { y with aux := { y.aux with injRun := some (k.val, u.id, u.occ, ta, y.aux.sequence k) } }
          fun cause => y.dropUrgent d (s.qualityOf ta) k u cause ta
      else y) := by
  have hexec : exec (.urgentArrival d k) s = execUrgentArrival d k s := rfl
  rw [hexec, execUrgentArrival]
  refine congrArg Host.Outcome.next (modDie_congr s d ?_)
  dsimp only
  rw [find_arrived (s.die d) _ (fun u t h => by rw [h]) (fun u h => by rw [h]), hf]
  dsimp only
  rw [hta, Option.getD_some]
  subst hy
  cases hq : (s.die d).queued u.id with
  | none => rfl
  | some e =>
    dsimp only [Option.any_some]
    cases (s.die d).aux.dropCause k u ta <;> rfl

theorem urgentArrival_spec {s : State} {d : DieId} {x : Die} (hx : x = s.die d) {k : Fin 4} {l : List Urgent}
    (hl : l = x.aux.waiting[k.val]) :
    (l.find? (fun u => u.ta.any x.past) = none → exec (.urgentArrival d k) s = .next s) ∧
    (∀ u ta y, l.find? (fun u => u.ta.any x.past) = some u → u.ta = some ta →
      y = { x with aux := x.aux.modWait k fun l => l.filter (· != u) } →
      (x.queued u.id = none → exec (.urgentArrival d k) s = .next (s.modDie d fun _ => y)) ∧
      ∀ e, x.queued u.id = some e →
        (e.live = false → exec (.urgentArrival d k) s = .next (s.modDie d fun _ => y)) ∧
        (e.live = true →
          (∀ cause, x.aux.dropCause k u ta = some cause → exec (.urgentArrival d k) s =
            .next (s.modDie d fun _ => y.dropUrgent d (s.qualityOf ta) k u cause ta)) ∧
          (x.aux.dropCause k u ta = none → exec (.urgentArrival d k) s = .next (s.modDie d fun _ =>
            { y with aux := { y.aux with injRun := some (k.val, u.id, u.occ, ta, y.aux.sequence k) } })))) := by
  subst hx hl
  refine ⟨fun hf => ?_, fun u ta y hf hta hy => ?_⟩
  · have hexec : exec (.urgentArrival d k) s = execUrgentArrival d k s := rfl
    rw [hexec, execUrgentArrival]
    refine congrArg Host.Outcome.next (modDie_of_fixed s d ?_)
    dsimp only
    rw [find_arrived (s.die d) _ (fun u t h => by rw [h]) (fun u h => by rw [h]), hf]
  · rw [urgentArrival_takes hf hta hy]
    refine ⟨fun hq => ?_, fun e hq => ⟨fun hlive => ?_, fun hlive => ⟨fun cause hc => ?_, fun hc => ?_⟩⟩⟩
    · simp only [hq, Option.any_none, Bool.false_eq_true, if_false]
    · simp only [hq, Option.any_some, hlive, Bool.false_eq_true, if_false]
    · simp only [hq, Option.any_some, hlive, if_true, hc, Option.elim_some]
    · simp only [hq, Option.any_some, hlive, if_true, hc, Option.elim_none]

theorem pwmTimeout_spec {s : State} {d : DieId} {x : Die} (hx : x = s.die d) {k : Fin 4} {l : List Urgent}
    (hl : l = x.aux.waiting[k.val]) :
    (l.find? (fun u => u.ta.isNone && x.past u.limit && privTrig x.aux.priv[k.val] != 0) = none →
      exec (.pwmEventTimeout d k) s = .next s) ∧
    (privTrig x.aux.priv[k.val] = 0 → exec (.pwmEventTimeout d k) s = .next s) ∧
    (∀ u y, l.find? (fun u => u.ta.isNone && x.past u.limit && privTrig x.aux.priv[k.val] != 0) = some u →
      y = { x with aux := x.aux.modWait k fun l => l.filter (· != u) } →
      (x.queued u.id = none → exec (.pwmEventTimeout d k) s = .next (s.modDie d fun _ => y)) ∧
      ∀ e, x.queued u.id = some e →
        (e.live = false → exec (.pwmEventTimeout d k) s = .next (s.modDie d fun _ => y)) ∧
        (e.live = true → exec (.pwmEventTimeout d k) s = .next (s.modDie d fun _ => y.dropUrgent d (s.qualityOf u.limit) k u 3 u.limit))) := by
  subst hx hl
  have hexec : exec (.pwmEventTimeout d k) s = execPwmEventTimeout d k s := rfl
  rw [hexec, execPwmEventTimeout]
  have hnone : ((s.die d).aux.waiting[k.val]).find? (fun u => u.ta.isNone && (s.die d).past u.limit &&
      privTrig (s.die d).aux.priv[k.val] != 0) = none → execPwmEventTimeout d k s = .next s :=
    fun hf => congrArg Host.Outcome.next (modDie_of_fixed s d (by simp only [hf]))
  refine ⟨hnone, fun hp => hnone ?_, fun u y hf hy => ⟨fun hq => ?_, fun e hq => ⟨fun hlive => ?_, fun hlive => ?_⟩⟩⟩
  · rw [List.find?_eq_none]
    intro u _
    simp [hp]
  all_goals refine congrArg Host.Outcome.next (modDie_congr s d ?_)
  · simp only [hf, hq, Bool.false_eq_true, if_false, hy]
  · simp only [hf, hq, hlive, Bool.false_eq_true, if_false, hy]
  · simp only [hf, hq, hlive, if_true, hy]
    rfl

theorem injected_stays {s : State} {d : DieId} {x : Die} (hx : x = s.die d) (rs : List Int) :
    (x.aux.injRun = none → exec (.injectedSequenceEnd d rs) s = .next { s with free := s.free + 8 }) ∧
    ∀ k id occ ta l, x.aux.injRun = some (k, id, occ, ta, l) → (x.past (injEnd l ta) = false ∨ x.on = false →
      exec (.injectedSequenceEnd d rs) s = .next { s with free := s.free + 8 }) := by
  subst hx
  have hexec : exec (.injectedSequenceEnd d rs) s = execInjectedSequenceEnd d rs s := rfl
  rw [hexec, execInjectedSequenceEnd]
  refine ⟨fun hi => ?_, fun k id occ ta l hi hno => ?_⟩ <;> rw [modDie_of_fixed s d]
  · rfl
  · simp only [hi]
  · rfl
  · simp only [hi]
    rcases hno with hno | hno <;> simp only [hno, Bool.and_false, Bool.false_and, Bool.false_eq_true, if_false]

/-- Settles O46: the table, its test currents, and urgent triggers with their sequences. -/
theorem auxiliaryConverter : Obligations.AuxiliaryConverter := by
  unfold Obligations.AuxiliaryConverter
  refine ⟨?_, ?_, ?_⟩
  · intro s d k hk
    refine ⟨fun te hte => auxPass_spec hk hte, installAux_of_host, installAux_of_auto, fun v => ⟨auxEntry_stays hk v, ?_⟩⟩
    exact fun i te w e hentry hinj hw he => auxEntry_ends hk v hentry hinj hw he
  · intro d
    refine ⟨fun hc a b => ?_, fun hi he => ?_, fun k id occ ta l hi => ?_, fun i te w he hi hw h1 h2 => ?_⟩
    · rw [Die.refCuts, hc]
      rfl
    · simp only [Die.testCurrent, hi, he]
    · have hcur : d.testCurrent = d.injTest l ta d.replica := by simp only [Die.testCurrent, hi]
      rw [hcur]
      exact ⟨injTest_before, fun p w hf ht => injTest_of_entry hf ht⟩
    · have hcur : d.testCurrent = d.testOf w te d.replica := by simp only [Die.testCurrent, hi, he, hw]
      rw [hcur]
      exact testOf_running h1 h2
  · intro s d x hx
    refine ⟨urgentTrigger_spec hx, fun w u hw => triggerAt_schedule x u hw, fun k l hl => ?_, fun rs => ⟨(injected_stays hx rs).1, ?_⟩⟩
    · obtain ⟨h1, h2⟩ := urgentArrival_spec hx hl
      obtain ⟨h3, h4, h5⟩ := pwmTimeout_spec hx hl
      exact ⟨h1, h2, h3, h4, h5⟩
    · intro k id occ ta l hinj
      refine ⟨(injected_stays hx rs).2 k id occ ta l hinj, fun hp hon ws hws lost hlost u v hu hv => ?_⟩
      obtain rfl := funext hlost
      subst hx hws hu hv
      have hexec : exec (.injectedSequenceEnd d rs) s = execInjectedSequenceEnd d rs s := rfl
      have hrun : ((s.die d).past (injEnd l ta) && (s.die d).on) = true := by rw [hp, hon, Bool.and_self]
      rw [hexec, execInjectedSequenceEnd]
      refine ⟨fun hq => ?_, fun e hq => ⟨fun hlive => ?_, fun hlive rw hrw a b r q hwin hqual => ?_⟩⟩
      · refine congrArg (fun t => Host.Outcome.next (State.skipFree t 8)) (modDie_congr s d ?_)
        simp only [hinj, hrun, if_true, hq, Bool.false_eq_true, if_false] <;> rfl
      · refine congrArg (fun t => Host.Outcome.next (State.skipFree t 8)) (modDie_congr s d ?_)
        simp only [hinj, hrun, if_true, hq, hlive, Bool.false_eq_true, if_false] <;> rfl
      · subst hrw hqual
        refine congrArg (fun t => Host.Outcome.next (State.skipFree t 8)) (modDie_congr s d ?_)
        simp only [hinj, hrun, if_true, hq, hlive, hwin] <;> rfl

end Sys2Proof
end

section
namespace Sys2Proof
open Machine

/-! ### The references (R129, R131) -/

/-- What every comparison notes: the last 16, its instant, and since when they have been good. -/
def compared (k : Die) (l : List (Tick × Int)) (n : Option Nat) (elapsed : Nat) : Die :=
  { k with aux := { k.aux with diffs := l, cmpAt := some elapsed, goodSince := n } }

/-- A comparison that is due, by the mean of the last 16 and by how long it has been good. -/
theorem refCompare_due {s : State} {d : DieId} (v : Int) (hon : (s.die d).on = true)
    (hat : ∀ t, (s.die d).aux.cmpAt = some t → t + ms ≤ s.clk.elapsed) {l : List (Tick × Int)} {sum : Int} {n : Option Nat}
    (hl : l = (((s.die d).replica, v) :: (s.die d).aux.diffs).take 16) (hsum : sum = (l.map (·.2)).sum)
    (hn : n = (if sum.natAbs * 1000 ≤ 15 * l.length * 2 ^ 30 then some ((s.die d).aux.goodSince.getD s.clk.elapsed) else none)) :
    exec (.refCompare d v) s = .next (s.modDie d fun k =>
      if (decide (l.length = 16) && decide (20 * 16 * 2 ^ 30 < sum.natAbs * 1000)) && !k.aux.suspect then
        ({ compared k l n s.clk.elapsed with aux := { (compared k l n s.clk.elapsed).aux with
            suspect := true, suspAt := some k.replica, episodes := satTo 65535 (k.aux.episodes + 1) } } : Die).refEvent d
          ((l.getLast?.map (·.1)).getD k.replica - ms) (s.qualityOf ((l.getLast?.map (·.1)).getD k.replica - ms)) true false
      else if k.aux.suspect && n.any fun t => decide (t + sec ≤ s.clk.elapsed) then
        ({ compared k l n s.clk.elapsed with aux := { (compared k l n s.clk.elapsed).aux with
            suspect := false, clearAt := some k.replica } } : Die).refEvent d k.replica (s.dq d) false false
      else compared k l n s.clk.elapsed) := by
  have hexec : exec (.refCompare d v) s = execRefCompare d v s := rfl
  have hrun : ¬ ((!(s.die d).on || (s.die d).aux.cmpAt.any fun t => decide (s.clk.elapsed < t + ms)) = true) := by
    have hany : ((s.die d).aux.cmpAt.any fun t => decide (s.clk.elapsed < t + ms)) = false := by
      rw [Option.any_eq_false]
      intro t ht
      simpa using hat t ht
    simp only [hon, hany, Bool.not_true, Bool.or_self, Bool.false_eq_true, not_false_eq_true]
  rw [hexec, execRefCompare]
  refine congrArg Host.Outcome.next (modDie_congr s d ?_)
  have hn' : (if decide (sum.natAbs * 1000 ≤ 15 * l.length * 2 ^ 30) = true then some ((s.die d).aux.goodSince.getD s.clk.elapsed)
      else none) = n := by
    rw [hn]
    simp only [decide_eq_true_eq]
  dsimp only
  rw [if_neg hrun, ← hl, ← hsum, hn']
  exact if_congr Iff.rfl rfl (if_congr Iff.rfl rfl rfl)

theorem refCompare_early {s : State} {d : DieId} (v : Int)
    (h : (s.die d).on = false ∨ ∃ t, (s.die d).aux.cmpAt = some t ∧ s.clk.elapsed < t + ms) : exec (.refCompare d v) s = .next s := by
  have hexec : exec (.refCompare d v) s = execRefCompare d v s := rfl
  rw [hexec, execRefCompare]
  have hstop : (!(s.die d).on || (s.die d).aux.cmpAt.any fun t => decide (s.clk.elapsed < t + ms)) = true := by
    rcases h with h | ⟨t, ht, hlt⟩
    · simp only [h, Bool.not_false, Bool.true_or]
    · rw [ht, Option.any_some, decide_eq_true_eq.mpr hlt, Bool.or_true]
  refine congrArg Host.Outcome.next (modDie_of_fixed s d ?_)
  dsimp only
  rw [if_pos hstop]

theorem refSwitch_spec (s : State) (d : DieId) :
    ((s.die d).aux.refNext = none → exec (.refSwitch d) s = .next s) ∧
    ∀ t b own, (s.die d).aux.refNext = some (t, b, own) →
      ((s.die d).past t = false → exec (.refSwitch d) s = .next s) ∧
      ((s.die d).past t = true → exec (.refSwitch d) s = .next (s.modDie d fun _ =>
        ({ s.die d with aux := { (s.die d).aux with
            inUse := b, refNext := none, switched := (s.die d).aux.switched || own, cutAt := some t } } : Die).refEvent d t
          (s.qualityOf t) (s.die d).aux.suspect true)) := by
  have hexec : exec (.refSwitch d) s = execRefSwitch d s := rfl
  rw [hexec, execRefSwitch]
  refine ⟨fun h => ?_, fun t b own h => ⟨fun hp => ?_, fun hp => ?_⟩⟩
  · exact congrArg Host.Outcome.next (modDie_of_fixed s d (by simp only [h]))
  · exact congrArg Host.Outcome.next (modDie_of_fixed s d (by simp only [h, hp, Bool.false_eq_true, if_false]))
  · refine congrArg Host.Outcome.next (modDie_congr s d ?_)
    simp only [h, hp, if_true]
    rfl


/-- Settles O47: the comparisons by their one lemma, and the switch. -/
theorem references : Obligations.References := by
  unfold Obligations.References
  rintro s d k q rfl rfl
  refine ⟨fun v => ⟨refCompare_early v, fun hon hat l sum n u hl hsum hn hu => ?_⟩, (refSwitch_spec s d).1, (refSwitch_spec s d).2⟩
  have hu' : u = compared (s.die d) l n s.clk.elapsed := hu
  rw [refCompare_due v hon hat hl hsum hn]
  refine ⟨fun hsus => ⟨fun hlen hfar t x hlast => ?_, fun hno => ?_⟩, fun hsus => ⟨fun t ht hle => ?_, fun hno => ?_⟩⟩ <;>
    refine congrArg Host.Outcome.next (modDie_congr s d ?_) <;> dsimp only
  · rw [decide_eq_true_eq.mpr hlen, decide_eq_true_eq.mpr hfar, hsus, hlast]
    subst hu'
    rfl
  · have hfar : (decide (l.length = 16) && decide (20 * 16 * 2 ^ 30 < sum.natAbs * 1000)) = false := by
      rcases hno with hno | hno
      · rw [decide_eq_false hno, Bool.false_and]
      · rw [decide_eq_false (Nat.not_lt.mpr hno), Bool.and_false]
    simp only [hfar, hsus, Bool.false_and, Bool.false_eq_true, if_false, ← hu']
  · subst hu'
    rw [hsus, ht, Option.any_some, decide_eq_true_eq.mpr hle]
    simp only [Bool.not_true, Bool.and_false, Bool.false_eq_true, if_false, Bool.and_self, if_true]
  · have hlate : (n.any fun t => decide (t + sec ≤ s.clk.elapsed)) = false := by
      rw [Option.any_eq_false]
      intro t ht
      rcases hno with hno | ⟨t', ht', hlt⟩
      · exact absurd (hno.symm.trans ht) (by simp)
      · obtain rfl : t' = t := Option.some.inj (ht'.symm.trans ht)
        simpa using hlt
    simp only [hsus, hlate, Bool.not_true, Bool.and_false, Bool.false_eq_true, if_false, ← hu']

end Sys2Proof
end

section
namespace Sys2Proof
open Machine

/-! ### The mains tracker (R123, R125, R126) -/

theorem mainsCrossing_none {s : State} (first : Int) (codes : List Int) (h : s.chanOf s.core.mains.ch = none) :
    exec (.mainsZeroCrossing ⟨first, codes⟩) s = .next s := by
  have hexec : exec (.mainsZeroCrossing ⟨first, codes⟩) s = execMainsZeroCrossing ⟨first, codes⟩ s := rfl
  rw [hexec, execMainsZeroCrossing]
  dsimp only
  rw [h]

/-- A rising crossing that the source channel's codes hold gives a period to the tracker, from the last one on. -/
theorem mainsCrossing_spec {s : State} {first : Int} {codes : List Int} {ch : Chan} (hch : s.chanOf s.core.mains.ch = some ch) {t : Int}
    (ht : t = (s.chan ch).chain.origin + first * 12000) {l : List Int}
    (hl : l = (codes.zipIdx.map fun p => (s.die ch.die).corrected ch.die ch.c p.1 (t + p.2 * 12000).toNat)) :
    (s.core.mains.src = 1 → (s.chan ch).mode = 1 → (s.chan ch).trans = none → s.barred ch.die = none → swings l = true →
      t + (codes.length - 1 : Nat) * 12000 + 20 * us ≤ ((s.die ch.die).replica : Int) →
      (crossingOf t l = none → exec (.mainsZeroCrossing ⟨first, codes⟩) s = .next s) ∧
      (∀ c u, crossingOf t l = some c →
        u = s.modCore (fun x => { x with mains := { x.mains with lastCross := some c.toNat, lastMeas := s.clk.elapsed } }) →
        (s.core.mains.lastCross = none → exec (.mainsZeroCrossing ⟨first, codes⟩) s = .next (State.commit s u)) ∧
        (∀ b, s.core.mains.lastCross = some b → b < c.toNat → exec (.mainsZeroCrossing ⟨first, codes⟩) s =
          .next (State.commit s (u.mainsMeasure (c.toNat - b) (inMains (c.toNat - b))))) ∧
        (∀ b, s.core.mains.lastCross = some b → c.toNat ≤ b →
          exec (.mainsZeroCrossing ⟨first, codes⟩) s = .next (State.commit s s)))) ∧
    (s.core.mains.src ≠ 1 ∨ (s.chan ch).mode ≠ 1 ∨ (s.chan ch).trans ≠ none ∨ s.barred ch.die ≠ none ∨ swings l = false ∨
      ((s.die ch.die).replica : Int) < t + (codes.length - 1 : Nat) * 12000 + 20 * us →
      exec (.mainsZeroCrossing ⟨first, codes⟩) s = .next s) := by
  have hexec : exec (.mainsZeroCrossing ⟨first, codes⟩) s = execMainsZeroCrossing ⟨first, codes⟩ s := rfl
  rw [hexec, execMainsZeroCrossing]
  dsimp only
  rw [hch]
  dsimp only
  rw [← ht, ← hl]
  constructor
  · intro h1 h2 h3 h4 h5 h6
    rw [if_pos ⟨h1, h2, h3, h4, h5, h6⟩]
    refine ⟨fun hc => ?_, fun c u hc hu => ?_⟩
    · rw [hc]
    · rw [hc, hu]
      dsimp only
      refine ⟨fun hb => ?_, fun b hb hlt => ?_, fun b hb hle => ?_⟩
      · rw [hb]
      · rw [hb]
        dsimp only
        rw [if_pos hlt]
      · rw [hb]
        dsimp only
        rw [if_neg (Nat.not_lt.mpr hle)]
  · intro hno
    refine congrArg Host.Outcome.next (if_neg ?_)
    rintro ⟨h1, h2, h3, h4, h5, h6⟩
    rcases hno with hno | hno | hno | hno | hno | hno
    · exact hno h1
    · exact hno h2
    · exact hno h3
    · exact hno h4
    · simp [h5] at hno
    · exact absurd h6 (Int.not_le.mpr hno)

theorem mainsTimeout_spec (s : State) :
    (s.core.mains.st = .locked → s.core.mains.lastMeas + 100 * ms ≤ s.clk.elapsed → exec .mainsSourceTimeout s = .next (State.commit s
      ((s.modCore fun c => { c with mains := { c.mains with st := .hold, holdSince := s.clk.elapsed, meas := [] } }).raiseNow
        .mainsLost []))) ∧
    (s.core.mains.st ≠ .locked ∨ s.clk.elapsed < s.core.mains.lastMeas + 100 * ms → exec .mainsSourceTimeout s = .next s) := by
  have hexec : exec .mainsSourceTimeout s = execMainsSourceTimeout s := rfl
  rw [hexec, execMainsSourceTimeout]
  refine ⟨fun h1 h2 => congrArg Host.Outcome.next (if_pos ⟨h1, h2⟩), fun hno => congrArg Host.Outcome.next (if_neg ?_)⟩
  rintro ⟨h1, h2⟩
  rcases hno with hno | hno
  · exact hno h1
  · exact absurd h2 (Nat.not_le.mpr hno)

theorem mainsHold_spec (s : State) :
    (s.core.mains.st = .hold → s.core.mains.holdSince + s.core.mains.holdS * sec ≤ s.clk.elapsed →
      exec .mainsHoldExpiry s = .next (State.commit s (s.modCore fun c => { c with
        mains := ({ s.core.mains with st := .free, meas := [] } : Mains).setPeriod s.clk.now (nominalPeriod s.core.mains.nom) }))) ∧
    (s.core.mains.st ≠ .hold ∨ s.clk.elapsed < s.core.mains.holdSince + s.core.mains.holdS * sec →
      exec .mainsHoldExpiry s = .next s) := by
  have hexec : exec .mainsHoldExpiry s = execMainsHoldExpiry s := rfl
  rw [hexec, execMainsHoldExpiry]
  refine ⟨fun h1 h2 => congrArg Host.Outcome.next (if_pos ⟨h1, h2⟩), fun hno => congrArg Host.Outcome.next (if_neg ?_)⟩
  rintro ⟨h1, h2⟩
  rcases hno with hno | hno
  · exact hno h1
  · exact absurd h2 (Nat.not_le.mpr hno)

theorem mainsBoundary_spec {s : State} {m : Mains} (hm : m = s.core.mains) :
    (s.serving = true → m.last.2 ≤ s.clk.now → ∀ t b y, t = m.last.2 + m.periodAt m.last.2 + m.carry →
      b = (m.last.1 + 1, t / 125 * 125) →
      y = ({ m with bounds := (b :: m.bounds).take 4, carry := t % 125, perWas := m.perWas.filter fun p => decide (b.2 < p.1) } : Mains) →
      exec .mainsBoundarySend s = .next (State.commit s ((s.modCore fun c => { c with mains := y }).overLanes fun _ d =>
        { d with bounds := (b :: d.bounds).take 4 }))) ∧
    (s.serving = false ∨ s.clk.now < m.last.2 → exec .mainsBoundarySend s = .next s) := by
  subst hm
  have hexec : exec .mainsBoundarySend s = execMainsBoundarySend s := rfl
  rw [hexec, execMainsBoundarySend]
  refine ⟨fun hs hle t b y ht hb hy => ?_, fun hno => ?_⟩
  · have hy' : s.core.mains.nextBoundary = y := by
      subst ht hb hy
      rfl
    have hlast : y.last = b := by
      subst hy
      rfl
    rw [hs, decide_eq_true hle, hy', hlast]
    rfl
  · refine congrArg Host.Outcome.next (if_neg ?_)
    rcases hno with hno | hno <;> simp [hno]

theorem inMains_iff (p : Nat) : inMains p = true ↔ 45 * p ≤ 3000000000 ∧ 3000000000 ≤ 65 * p := by
  simp only [inMains, Bool.and_eq_true, decide_eq_true_eq]
theorem setPeriod_period (m : Mains) (now : Tick) (p : Nat) : (m.setPeriod now p).period = p := by
  unfold Mains.setPeriod
  split
  next h => exact h.symm
  next => rfl
theorem setPeriod_st (m : Mains) (now : Tick) (p : Nat) : (m.setPeriod now p).st = m.st := by
  unfold Mains.setPeriod
  split <;> rfl

/-- What a measured period does to the tracker (R126). -/
theorem measure_locked {m : Mains} (h : m.st = .locked) (p now el : Nat) :
    (m.measure p false now el).2 = some .mainsLost ∧ (m.measure p false now el).1.st = .hold ∧
    (m.measure p true now el).2 = none ∧ (m.measure p true now el).1.st = .locked ∧
      (m.measure p true now el).1.period = meanOf ((p :: m.meas).take 8) := by
  unfold Mains.measure
  dsimp only
  rw [h]
  refine ⟨rfl, rfl, rfl, ?_, setPeriod_period ..⟩
  exact setPeriod_st ..
theorem measure_unlocked {m : Mains} (h : m.st ≠ .locked) (p now el : Nat) :
    (m.measure p false now el).2 = none ∧ (m.measure p false now el).1.st = m.st ∧
    (steady ((p :: m.meas).take 8) = true → (m.measure p true now el).2 = some .mainsLock ∧
      (m.measure p true now el).1.st = .locked ∧ (m.measure p true now el).1.period = meanOf ((p :: m.meas).take 8)) ∧
    (steady ((p :: m.meas).take 8) = false → (m.measure p true now el).2 = none ∧ (m.measure p true now el).1.st = m.st) := by
  have hnil : steady [] = false := rfl
  have hstep : ∀ inside : Bool, m.measure p inside now el =
      if steady (if inside then (p :: m.meas).take 8 else []) then
        (({ m with meas := (if inside then (p :: m.meas).take 8 else []), lastMeas := el, st := .locked } : Mains).setPeriod now
          (meanOf (if inside then (p :: m.meas).take 8 else [])), some .mainsLock)
      else ({ m with meas := (if inside then (p :: m.meas).take 8 else []), lastMeas := el }, none) := by
    intro inside
    unfold Mains.measure
    dsimp only
    split
    next hl => exact absurd hl h
    next => rfl
  refine ⟨?_, ?_, fun hs => ?_, fun hs => ?_⟩
  · rw [hstep, if_neg Bool.false_ne_true, hnil]
    rfl
  · rw [hstep, if_neg Bool.false_ne_true, hnil]
    rfl
  · rw [hstep, if_pos rfl, if_pos hs]
    exact ⟨rfl, setPeriod_st .., setPeriod_period ..⟩
  · rw [hstep, if_pos rfl, hs]
    exact ⟨rfl, rfl⟩

/-! ### Windows of mains cycles (R122 to R124) -/

theorem meets_spec {d : Die} {k : Channel} {b : Tick} (h : d.meets k = some b) :
    b ≤ d.replica ∧ (∃ n, (n, b) ∈ d.bounds ∧ n % (Img.mcN k.img + 1) = 0) ∧ (∀ a, k.chain.mcStart = some a → a < b) ∧
      (k.chain.mcStart = none → k.chain.tq ≤ b) := by
  unfold Die.meets at h
  rw [Option.map_eq_some_iff] at h
  obtain ⟨⟨n, c⟩, hlast, rfl⟩ := h
  have hmem := List.mem_of_getLast? hlast
  rw [List.mem_filter] at hmem
  obtain ⟨hin, hp⟩ := hmem
  rw [Bool.and_eq_true, Bool.and_eq_true, beq_iff_eq, decide_eq_true_eq] at hp
  obtain ⟨⟨hn, hle⟩, hstart⟩ := hp
  refine ⟨hle, ⟨n, hin, hn⟩, fun a ha => ?_, fun hnone => ?_⟩
  · rw [ha] at hstart
    simpa using hstart
  · rw [hnone] at hstart
    simp only [Bool.or_eq_true, decide_eq_true_eq, Bool.and_eq_true, beq_iff_eq] at hstart
    rcases hstart with hlt | ⟨-, heq⟩
    · exact Nat.le_of_lt hlt
    · exact Nat.le_of_eq heq.symm

theorem mainsWindow_spec {s : State} {ch : Chan} {d : Die} (hd : d = s.die ch.die) (raw : Int) :
    (d.on = true → Img.mcEn (d.chan ch.c).img = true → 1 ≤ (d.chan ch.c).mode → (d.chan ch.c).mode ≤ 5 → (d.chan ch.c).trans = none →
      ∀ b, d.meets (d.chan ch.c) = some b →
      ((d.chan ch.c).chain.mcStart = none → exec (.mainsWindowEnd ch raw) s = .next (s.modDie ch.die fun _ =>
        d.modCh ch.c fun k => { k with chain := { k.chain with mcStart := some b } })) ∧
      ∀ a, (d.chan ch.c).chain.mcStart = some a →
        (d.refCuts a b = true → exec (.mainsWindowEnd ch raw) s = .next (s.modDie ch.die fun _ =>
          { (d.modCh ch.c fun k => { k with chain := { k.chain with mcStart := some b } }) with straddle := satInc d.straddle })) ∧
        (d.refCuts a b = false → ∀ z len, z = (d.chan ch.c).report (d.corrected ch.die ch.c raw a) ((a + b) / 2) →
          len = BitVec.ofNat 32 ((b - a) / 125) →
          ∀ u, u = d.modCh ch.c (fun k => { k.noteResult z.1 z.2 ((a + b) / 2) with
            chain := { (k.noteResult z.1 z.2 ((a + b) / 2)).chain with mcLen := len, mcStart := some b } }) →
          exec (.mainsWindowEnd ch raw) s = .next (s.modDie ch.die fun _ => u.deliver ch.c ((a + b) / 2)
            (angleItems (wordOfInt z.1) len ((a + b) / 2) (s.qualityOf ((a + b) / 2)))))) ∧
    (d.on = false ∨ Img.mcEn (d.chan ch.c).img = false ∨ (d.chan ch.c).mode = 0 ∨ 5 < (d.chan ch.c).mode ∨ (d.chan ch.c).trans ≠ none ∨
      d.meets (d.chan ch.c) = none → exec (.mainsWindowEnd ch raw) s = .next s) := by
  subst hd
  have hexec : exec (.mainsWindowEnd ch raw) s = execMainsWindowEnd ch raw s := rfl
  rw [hexec, execMainsWindowEnd]
  refine ⟨fun hon hmc h1 h5 htr b hb => ?_, fun hno => ?_⟩
  · have hrun : ((s.die ch.die).on && Img.mcEn ((s.die ch.die).chan ch.c).img &&
        decide (1 ≤ ((s.die ch.die).chan ch.c).mode ∧ ((s.die ch.die).chan ch.c).mode ≤ 5) &&
        ((s.die ch.die).chan ch.c).trans.isNone) = true := by
      simp only [hon, hmc, htr, decide_eq_true (And.intro h1 h5), Option.isNone_none, Bool.and_self]
    refine ⟨fun ha => ?_, fun a ha => ⟨fun hcut => ?_, fun hcut z len hz hlen u hu => ?_⟩⟩ <;>
      refine congrArg Host.Outcome.next (modDie_congr s ch.die ?_) <;> dsimp only <;> rw [if_pos hrun, hb] <;> dsimp only <;> rw [ha]
    · dsimp only
      rw [if_pos hcut]
    · dsimp only
      rw [hcut, if_neg Bool.false_ne_true, ← hz, ← hlen, hu]
      rfl
  · refine congrArg Host.Outcome.next (modDie_of_fixed s ch.die ?_)
    dsimp only
    rcases hno with hno | hno | hno | hno | hno | hno
    · simp only [hno, Bool.false_and, Bool.false_eq_true, if_false]
    · simp only [hno, Bool.and_false, Bool.false_and, Bool.false_eq_true, if_false]
    · rw [decide_eq_false (by omega)]
      simp only [Bool.and_false, Bool.false_and, Bool.false_eq_true, if_false]
    · rw [decide_eq_false (by omega)]
      simp only [Bool.and_false, Bool.false_and, Bool.false_eq_true, if_false]
    · rw [Option.isNone_eq_false_iff.mpr (Option.isSome_iff_ne_none.mpr hno)]
      simp only [Bool.and_false, Bool.false_eq_true, if_false]
    · rw [hno]
      split <;> rfl

end Sys2Proof
end

section
namespace Sys2Proof
open Machine

/-! ### Axis samples (R163, R164, R180) -/

theorem axisSample_spec {s : State} {a : AxisId} {x : Axis} (hx : x = s.core.axis a) (t : Tick) (p : Int) :
    (x.src ≠ 1 → x.src ≠ 2 → exec (.axisSample a t p) s = .next (State.commit s s)) ∧
    (x.src = 2 → ∀ b, x.posAt = some b → t ≤ b → exec (.axisSample a t p) s = .next (State.commit s
      (s.modCore (·.modAxis a fun y => { y with netDiscard := satInc y.netDiscard })))) ∧
    (x.src = 2 → (∀ b, x.posAt = some b → b < t) →
      exec (.axisSample a t p) s = .next (State.commit s (s.axisMove a t (wrap64 (x.zero + p))))) ∧
    (x.src = 1 → exec (.axisSample a t p) s = .next (State.commit s (s.axisEdge a))) := by
  subst hx
  have hexec : exec (.axisSample a t p) s = execAxisSample a t p s := rfl
  rw [hexec, execAxisSample]
  refine ⟨fun h1 h2 => ?_, fun h2 b hb hle => ?_, fun h2 hlt => ?_, fun h1 => ?_⟩
  · rw [if_neg h1, State.axisSample]
    exact congrArg (fun t => Host.Outcome.next (State.commit s t)) (if_neg h2)
  · rw [if_neg (by omega), State.axisSample]
    rw [if_pos h2, hb]
    dsimp only
    rw [if_pos (decide_eq_true hle)]
  · have hpos : (s.core.axis a).position p = wrap64 ((s.core.axis a).zero + p) := by
      unfold Axis.position
      rw [h2]
      rfl
    rw [if_neg (by omega), State.axisSample]
    rw [if_pos h2, hpos]
    cases hb : (s.core.axis a).posAt with
    | none => rfl
    | some b =>
      dsimp only
      rw [if_neg (by simpa using hlt b hb)]
  · rw [if_pos h1]

/-! ### Edges of an encoder's pair (R163, R165, R214) -/

/-- The axis takes the pair's next edge: a counted one is a sample, a Z edge waits for its own row where it is a reference. -/
theorem axisEdge_spec {s u : State} {a : AxisId} (hu : u = s.axisSettle a) :
    (u.axisNext a = none → s.axisEdge a = u) ∧
    (∀ ch n t v, u.axisNext a = some (ch, n, t, some v) → s.axisEdge a = (u.axisTake a ch n).axisMove a t ((u.core.axis a).position v)) ∧
    (∀ ch n t, u.axisNext a = some (ch, n, t, none) →
      ((u.core.axis a).zref = true → s.axisEdge a = u) ∧ ((u.core.axis a).zref = false → s.axisEdge a = u.axisTake a ch n)) := by
  subst hu
  unfold State.axisEdge
  dsimp only
  refine ⟨fun h => by rw [h], fun ch n t v h => by rw [h], fun ch n t h => ?_⟩
  rw [h]
  exact ⟨fun hz => if_pos hz, fun hz => if_neg (Bool.eq_false_iff.mp hz)⟩

theorem axisZReference_spec {s u : State} {a : AxisId} (hu : u = s.axisSettle a) :
    ((∀ ch n t, u.axisNext a = some (ch, n, t, none) → (u.core.axis a).zref = false) →
      ∀ t, exec (.axisZReference a t) s = .next (State.commit s u)) ∧
    (∀ ch n t, u.axisNext a = some (ch, n, t, none) → (u.core.axis a).zref = true →
      (∀ r, r ≠ t → exec (.axisZReference a r) s = .next (State.commit s u)) ∧
      ((u.core.axis a).posAt = none → exec (.axisZReference a t) s = .next (State.commit s (u.axisTake a ch n))) ∧
      ((u.core.axis a).posAt ≠ none →
        exec (.axisZReference a t) s = .next (State.commit s ((u.axisTake a ch n).axisZero a t)))) := by
  subst hu
  have hexec : ∀ t, exec (.axisZReference a t) s = execAxisZReference a t s := fun _ => rfl
  simp only [hexec, execAxisZReference]
  refine ⟨fun hz t => ?_, fun ch n t h hz => ⟨fun r hr => ?_, fun hp => ?_, fun hp => ?_⟩⟩
  · refine congrArg (fun t => Host.Outcome.next (State.commit s t)) ?_
    split
    next ch n t' h => rw [hz ch n t' h, Bool.false_and, if_neg Bool.false_ne_true]
    next => rfl
  · rw [h]
    have hne : (t == r) = false := beq_false_of_ne fun e => hr e.symm
    dsimp only
    rw [hne, Bool.and_false, if_neg Bool.false_ne_true]
  · rw [h]
    dsimp only
    rw [hz, beq_self_eq_true, Bool.and_self, if_pos rfl, hp]
    rfl
  · rw [h]
    dsimp only
    rw [hz, beq_self_eq_true, Bool.and_self, if_pos rfl, if_pos (Option.isSome_iff_ne_none.mpr hp)]

theorem axisNext_of_src {s : State} {a : AxisId} (h : (s.core.axis a).src ≠ 1) : s.axisNext a = none := by
  have hpair : s.axisPair a = none := if_neg h
  rw [State.axisNext, hpair, Option.bind_none]
theorem axisNext_unreached {s : State} {a : AxisId} {ch : Chan} (hpair : s.axisPair a = some ch) (h : s.reaches ch.die = false) :
    s.axisNext a = none := by
  rw [State.axisNext, hpair, Option.bind_some, if_neg (Bool.eq_false_iff.mp h)]

/-- The Z correction brings the angle word to ZERO by the shorter way (R165). -/
theorem zCorrection_spec (x : Axis) : BitVec.ofInt 32 (x.pos + x.zCorrection) = BitVec.ofInt 32 x.zero ∧
    -(2 ^ 31) ≤ x.zCorrection ∧ x.zCorrection < 2 ^ 31 := by
  refine ⟨?_, ?_, ?_⟩
  · rw [Axis.zCorrection, BitVec.ofInt_add, BitVec.ofInt_toInt, ← BitVec.ofInt_add]
    exact congrArg (BitVec.ofInt 32) (by ring)
  · exact BitVec.le_toInt _
  · exact BitVec.toInt_lt

theorem axisZero_spec {s : State} {a : AxisId} {x : Axis} (hx : x = s.core.axis a) {t : Tick} {e p : Int} {u v : State}
    (he : e = x.zCorrection) (hp : p = wrap64 (x.pos + e))
    (hu : u = s.modCore (·.modAxis a fun y => { y with pos := p, corr := y.corr + e }))
    (hv : v = (if x.cpr * e.natAbs > 2 ^ 32 then u.raiseSrc .axisSlip t (srcHub s.active) false
      (leBytes 8 (BitVec.ofInt 64 e).toNat ++ leBytes 1 a.val) none else u)) :
    (e ≤ 0 → s.axisZero a t = v) ∧ (0 < e → s.axisZero a t = v.overLanes fun _ d => d.skipSteps a x.pos p) := by
  unfold State.axisZero
  dsimp only
  rw [← hx, ← he, ← hp, ← hu, ← hv]
  exact ⟨fun h => if_neg (Int.not_lt.mpr h), fun h => if_pos h⟩

theorem axisStill_spec {s : State} {a : AxisId} {x : Axis} (hx : x = s.core.axis a) :
    (x.moving = true → x.lastRx + x.still * ms ≤ s.clk.elapsed → exec (.axisStill a) s = .next (State.commit s
      ((s.modCore (·.modAxis a fun y => { y with moving := false })).raiseSrc .axisStill s.clk.now (srcHub s.active) false
        (leBytes 1 a.val) none))) ∧
    (x.moving = false ∨ s.clk.elapsed < x.lastRx + x.still * ms → exec (.axisStill a) s = .next s) := by
  subst hx
  have hexec : exec (.axisStill a) s = execAxisStill a s := rfl
  rw [hexec, execAxisStill]
  refine ⟨fun h1 h2 => congrArg Host.Outcome.next (if_pos ⟨h1, h2⟩), fun hno => congrArg Host.Outcome.next (if_neg ?_)⟩
  rintro ⟨h1, h2⟩
  rcases hno with hno | hno
  · simp [h1] at hno
  · exact absurd h2 (Nat.not_le.mpr hno)

/-- An episode that 10 ms have passed over ends. -/
theorem episode_filter (t elapsed : Nat) :
    ((some t).filter fun t => decide (elapsed < t + 10 * ms)) = if t + 10 * ms ≤ elapsed then none else some t := by
  rw [Option.filter_some]
  by_cases h : t + 10 * ms ≤ elapsed
  · rw [if_pos h, decide_eq_false (Nat.not_lt.mpr h), if_neg Bool.false_ne_true]
  · rw [if_neg h, decide_eq_true (Nat.lt_of_not_le h), if_pos rfl]

theorem angleEpisode_spec (s : State) (ch : Chan) :
    exec (.angleEpisodeEnd ch true) s = .next (s.modCh ch fun k => { k with chain := { k.chain with
      overEp := k.chain.overEp.filter fun t => decide (s.clk.elapsed < t + 10 * ms) } }) ∧
    exec (.angleEpisodeEnd ch false) s = .next (s.modCh ch fun k => { k with chain := { k.chain with
      lateEp := k.chain.lateEp.filter fun t => decide (s.clk.elapsed < t + 10 * ms) } }) := by
  have hexec : ∀ b, exec (.angleEpisodeEnd ch b) s = execAngleEpisodeEnd ch b s := fun _ => rfl
  constructor <;> rw [hexec, execAngleEpisodeEnd] <;>
    refine congrArg (fun f => Host.Outcome.next (s.modCh ch f)) (funext fun k => ?_)
  · dsimp only
    rw [if_pos rfl]
    cases k.chain.overEp with
    | none => rfl
    | some t => rw [episode_filter]
  · dsimp only
    rw [if_neg Bool.false_ne_true]
    cases k.chain.lateEp with
    | none => rfl
    | some t => rw [episode_filter]

/-- Settles O48: the tracker and the windows, then the axes, each by the lemma of its row. -/
theorem mainsAndAxes : Obligations.MainsAndAxes := by
  unfold Obligations.MainsAndAxes
  refine ⟨⟨?_, ?_, fun d k b h => meets_spec h, ?_⟩, ?_⟩
  · rintro s m rfl
    refine ⟨fun first codes => ⟨fun ch t l hch ht hl => mainsCrossing_spec hch ht hl, mainsCrossing_none first codes⟩,
      (mainsTimeout_spec s).1, (mainsTimeout_spec s).2, (mainsHold_spec s).1, (mainsHold_spec s).2, mainsBoundary_spec rfl⟩
  · intro m p now el
    refine ⟨by rw [inMains_iff], fun h => ?_, fun h => ?_, fun h => ?_, fun h => ?_, fun h => ?_⟩
    · exact ⟨(measure_locked h p now el).1, (measure_locked h p now el).2.1⟩
    · exact (measure_locked h p now el).2.2
    · exact ⟨(measure_unlocked h p now el).1, (measure_unlocked h p now el).2.1⟩
    · exact (measure_unlocked h p now el).2.2.1
    · exact (measure_unlocked h p now el).2.2.2
  · rintro s ch raw d k o hd rfl rfl
    exact mainsWindow_spec hd raw
  · intro s a x hx
    refine ⟨fun t p => ?_, fun f d => ?_, fun u hu => ?_, fun h => axisNext_of_src (hx ▸ h), fun ch hp h => axisNext_unreached hp h,
      fun h v => ?_, fun t e p u he hp hu v hv => axisZero_spec hx he hp hu hv, zCorrection_spec x, (axisStill_spec hx).1, (axisStill_spec hx).2,
      angleEpisode_spec s⟩
    · obtain ⟨h1, h2, h3, h4⟩ := axisSample_spec hx t p
      refine ⟨h1, h2, h3, h4, fun u v hu hv => ?_⟩
      unfold State.axisMove
      dsimp only
      rw [← hx, ← hu, ← hv]
    · rw [overLanes_die]
      refine ⟨fun h => if_pos h, fun h hh => ?_, fun h hh => ?_⟩
      · rw [if_neg (by simp [h]), if_pos hh]
      · rw [if_neg (by simp [h]), if_neg hh]
    · obtain ⟨h1, h2, h3⟩ := axisEdge_spec hu
      obtain ⟨h4, h5⟩ := axisZReference_spec hu
      exact ⟨h1, h2, h3, h4, h5⟩
    · unfold Axis.position
      rw [h]
      rfl

end Sys2Proof
end

section
namespace Sys2Proof
open Machine

/-! ### Slots of the carousel (R183, R184) -/

/-- The first multiple of m from f − b on, moved by b, is the first instant from f on that lies b after one. -/
theorem shifted_multiple (m b f : Nat) (hb : b < m) :
    (b ≤ f → f ≤ b + nextMultiple m (f - b) ∧ b + nextMultiple m (f - b) < f + m) ∧ (b + nextMultiple m (f - b)) % m = b := by
  obtain ⟨h3, h1, h2⟩ := nextMultiple_bounds m (f - b) (by omega)
  refine ⟨fun _ => by omega, ?_⟩
  rw [Nat.add_mod, h3, Nat.add_zero, Nat.mod_mod, Nat.mod_eq_of_lt hb]

theorem nextMultiple_zero (m : Nat) (h : 0 < m) : nextMultiple m 0 = 0 := by
  obtain ⟨hmod, -, hlt⟩ := nextMultiple_bounds m 0 h
  rw [Nat.zero_add] at hlt
  rwa [Nat.mod_eq_of_lt hlt] at hmod

/-- Slots of spare k begin at multiples of 1 s plus k · 500 ms (R183). -/
theorem nextSlot_spec (p : Spare) (k : SpareId) :
    (p.slotFrom = 0 → p.nextSlot k = k.val * (500 * ms)) ∧
    (k.val * (500 * ms) ≤ p.slotFrom → p.slotFrom ≤ p.nextSlot k ∧ p.nextSlot k < p.slotFrom + sec) ∧
    p.nextSlot k % sec = k.val * (500 * ms) := by
  have hlt : k.val * (500 * ms) < sec :=
    Nat.lt_of_le_of_lt (Nat.mul_le_mul_right _ (Nat.le_of_lt_succ k.isLt)) (by decide)
  refine ⟨fun h0 => ?_, shifted_multiple sec (k.val * (500 * ms)) p.slotFrom hlt⟩
  rw [Spare.nextSlot, h0, Nat.zero_sub, nextMultiple_zero sec (by decide), Nat.add_zero]

theorem slot_stays {s : State} {d : DieId} {k : SpareId} {x : Die} (hx : x = s.die d)
    (h : x.on = false ∨ x.past ((x.spare k).nextSlot k) = false) : exec (.carouselSlotStart d k) s = .next s := by
  subst hx
  have hexec : exec (.carouselSlotStart d k) s = execCarouselSlotStart d k s := rfl
  rw [hexec, execCarouselSlotStart]
  refine congrArg Host.Outcome.next (modDie_of_fixed s d (if_pos ?_))
  rcases h with h | h
  · rw [h, Bool.not_false, Bool.true_or]
  · rw [h, Bool.not_false, Bool.or_true]

/-- A slot that begins: a spare that does not run starts nothing, an awaited handback skips it, a running visit goes on, and a free
spare visits its channel or calibrates itself. -/
theorem slot_begins {s : State} {d : DieId} {k : SpareId} {x y : Die} {p : Spare} {t : Tick} (hx : x = s.die d) (hp : p = x.spare k)
    (ht : t = p.nextSlot k) (hy : y = x.modSpare k (fun p => { p with slotFrom := t + 1 })) (hon : x.on = true) (hpast : x.past t = true) :
    (x.car.run = false ∨ s.enteringSleep d = true ∨ p.fault = true ∨ p.phase = .parked →
      exec (.carouselSlotStart d k) s = .next (s.modDie d fun _ => y)) ∧
    (x.car.run = true → s.enteringSleep d = false → p.fault = false → p.phase ≠ .parked →
      (p.retry ≠ none → exec (.carouselSlotStart d k) s = .next (s.modDie d fun _ => y.calSkip d (s.dq d) p.ch 2)) ∧
      (p.retry = none → p.visiting = true → exec (.carouselSlotStart d k) s = .next (s.modDie d fun _ => y)) ∧
      (p.retry = none → p.visiting = false → ∀ c, c = x.car.visit k t →
        ((x.chan c).visitable = true → exec (.carouselSlotStart d k) s = .next (s.modDie d fun _ =>
          y.modSpare k (·.start (x.chan c) c t x.aux.suspect))) ∧
        ((x.chan c).visitable = false → exec (.carouselSlotStart d k) s = .next (s.modDie d fun _ =>
          y.modSpare k fun p => { p.selfCal with slot := t })))) := by
  subst hx hp ht hy
  have hexec : exec (.carouselSlotStart d k) s = execCarouselSlotStart d k s := rfl
  have hbegin : ¬ (!(s.die d).on || !(s.die d).past (((s.die d).spare k).nextSlot k)) = true := by
    rw [hon, hpast]
    decide
  rw [hexec, execCarouselSlotStart]
  constructor
  · intro h
    refine congrArg Host.Outcome.next (modDie_congr s d ((if_neg hbegin).trans (if_pos ?_)))
    rcases h with h | h | h | h
    · simp only [Die.modSpare, h, Bool.not_false, Bool.true_or]
    · simp only [h, Bool.or_true, Bool.true_or]
    · simp only [h, Bool.or_true, Bool.true_or]
    · simp only [h, beq_self_eq_true, Bool.or_true]
  · intro hrun hsleep hfault hphase
    have hgo : ¬ (!(s.die d).car.run || s.enteringSleep d || ((s.die d).spare k).fault || ((s.die d).spare k).phase == .parked) = true := by
      simp [hrun, hsleep, hfault, hphase]
    refine ⟨fun hr => ?_, fun hr hv => ?_, fun hr hv c hc => ⟨fun hvis => ?_, fun hvis => ?_⟩⟩ <;>
      refine congrArg Host.Outcome.next (modDie_congr s d ((if_neg hbegin).trans ((if_neg hgo).trans ?_)))
    · exact if_pos (Option.isSome_iff_ne_none.mpr hr)
    · rw [hr, if_neg (by decide), if_pos hv]
    · rw [hr, if_neg (by decide), if_neg (Bool.eq_false_iff.mp hv)]
      subst hc
      exact if_pos hvis
    · rw [hr, if_neg (by decide), if_neg (Bool.eq_false_iff.mp hv)]
      subst hc
      exact if_neg (Bool.eq_false_iff.mp hvis)

/-! ### Takeover and handback (R185, R187) -/

theorem matched_iff (m : Int) : matched m = true ↔ m.natAbs ≤ 8192 := decide_eq_true_iff

theorem takeover_stays {s : State} {d : DieId} {k : SpareId} {x : Die} {p : Spare} {own spare : List Int} {l : List (Int × Int)}
    {o : Option Tick} {ok : Bool} (hx : x = s.die d) (hp : p = x.spare k) (hl : l = own.zip spare)
    (ho : o = x.switchAt p.ch (x.phaseEnd p.ch (p.slot + 100 * ms)))
    (hok : ok = (x.chan p.ch).pairsOk (max (x.phaseEnd p.ch (p.slot + 20 * ms)) x.car.cut) (x.phaseEnd p.ch (p.slot + 100 * ms)) l.length)
    (h : x.on = false ∨ p.phase ≠ .shadowIn ∨ (∀ tk, o = some tk → x.past tk = false) ∨ ok = false) :
    exec (.carouselTakeover d k own spare) s = .next { s with free := s.free + 2 } := by
  subst hx hp hl ho
  have hexec : exec (.carouselTakeover d k own spare) s = execCarouselTakeover d k own spare s := rfl
  rw [hexec, execCarouselTakeover, modDie_of_fixed s d]
  · rfl
  · unfold Die.takeover
    dsimp only
    rw [← hok]
    split
    next tk htk =>
      refine if_neg ?_
      rcases h with h | h | h | h
      · simp [h]
      · simp [h]
      · simp [h tk htk]
      · simp [h]
    next => rfl

theorem takeover_due {s : State} {d : DieId} {k : SpareId} {x : Die} {p : Spare} {own spare : List Int} {l : List (Int × Int)} {tk : Tick}
    (hx : x = s.die d) (hp : p = x.spare k) (hl : l = own.zip spare)
    (ho : x.switchAt p.ch (x.phaseEnd p.ch (p.slot + 100 * ms)) = some tk)
    (hok : (x.chan p.ch).pairsOk (max (x.phaseEnd p.ch (p.slot + 20 * ms)) x.car.cut) (x.phaseEnd p.ch (p.slot + 100 * ms)) l.length = true)
    (hon : x.on = true) (hphase : p.phase = .shadowIn) (hpast : x.past tk = true) {e : List Int} {trim m : Int} {y : Die}
    (he : e = pairDiffs (x.ownCo d p.ch p.qty) (p.co d k p.qty) (fun _ => 0) l) (htrim : trim = accMean s.free e)
    (hm : m = accMean (s.free + 1) (e.drop (e.length - (x.chan p.ch).tenMs)) - trim)
    (hy : y = x.modSpare k (fun p => { p with trim := trim })) :
    (m.natAbs ≤ 8192 → exec (.carouselTakeover d k own spare) s = .next { s.modDie d fun _ =>
      ((y.serveUntil d p.ch tk).modSpare k fun p => { p with phase := .serve }).modCh p.ch fun h =>
        { h with cal := { h.cal with server := k.val + 1 } } with free := s.free + 2 }) ∧
    (8192 < m.natAbs → exec (.carouselTakeover d k own spare) s = .next { s.modDie d fun _ =>
      (y.modSpare k (·.selfCal)).calSkip d (s.dq d) p.ch 1 with free := s.free + 2 }) := by
  subst hx hp hl
  have hexec : exec (.carouselTakeover d k own spare) s = execCarouselTakeover d k own spare s := rfl
  rw [hexec, execCarouselTakeover]
  have hrun : ((s.die d).on && ((s.die d).spare k).phase == .shadowIn && (s.die d).past tk) = true := by
    rw [hon, hphase, hpast]
    decide
  have htake : (s.die d).takeover d k (s.dq d) s.free (own.zip spare) = if matched m then
      ((y.serveUntil d ((s.die d).spare k).ch tk).modSpare k fun p => { p with phase := .serve }).modCh ((s.die d).spare k).ch fun h =>
        { h with cal := { h.cal with server := k.val + 1 } }
      else (y.modSpare k (·.selfCal)).calSkip d (s.dq d) ((s.die d).spare k).ch 1 := by
    unfold Die.takeover
    dsimp only
    rw [ho]
    dsimp only
    rw [hok, Bool.and_true, if_pos hrun, ← he, ← htrim, ← hm, ← hy]
  constructor <;> intro hle <;> refine congrArg (fun t => Host.Outcome.next (State.skipFree t 2)) (modDie_congr s d (htake.trans ?_))
  · exact if_pos ((matched_iff m).mpr hle)
  · exact if_neg fun h => absurd ((matched_iff m).mp h) (Nat.not_le.mpr hle)

/-- What a handback does on a spare that shadows out: it waits for its Δ again, or for the switch. -/
theorem handback_runs {s : State} {d : DieId} {k : SpareId} (own spare : List Int) (hon : (s.die d).on = true)
    (hphase : ((s.die d).spare k).phase = .shadowOut) : exec (.carouselHandback d k own spare) s = .next ({ s.modDie d fun _ =>
      ((s.die d).spare k).mustRamp.elim ((s.die d).handback d k (s.dq d) s.free (own.zip spare))
        fun r => (s.die d).rampAgain d k s.free r (own.zip spare) with free := s.free + 1 }) := by
  have hexec : exec (.carouselHandback d k own spare) s = execCarouselHandback d k own spare s := rfl
  have hrun : ((s.die d).on && ((s.die d).spare k).phase == .shadowOut) = true := by
    rw [hon, hphase]
    decide
  rw [hexec, execCarouselHandback]
  refine congrArg (fun t => Host.Outcome.next (State.tickFree t)) (modDie_congr s d ((if_pos hrun).trans ?_))
  cases ((s.die d).spare k).mustRamp <;> rfl

theorem handback_stays {s : State} {d : DieId} {k : SpareId} (own spare : List Int)
    (h : (s.die d).on = false ∨ ((s.die d).spare k).phase ≠ .shadowOut) :
    exec (.carouselHandback d k own spare) s = .next { s with free := s.free + 1 } := by
  have hexec : exec (.carouselHandback d k own spare) s = execCarouselHandback d k own spare s := rfl
  rw [hexec, execCarouselHandback, modDie_of_fixed s d]
  · rfl
  · refine if_neg ?_
    rcases h with h | h <;> simp [h]

/-- The Δ accumulation after a failed match check (R187). -/
theorem rampAgain_spec {x : Die} {d : DieId} {k : SpareId} {p : Spare} (hp : p = x.spare k) (free : Nat) {r e : Tick} {l : List (Int × Int)}
    (he : e = x.phaseEnd p.ch (r + 50 * ms)) :
    (x.past e = false ∨ (x.chan p.ch).pairsOk (max r x.car.cut) e l.length = false → x.rampAgain d k free r l = x) ∧
    (x.past e = true → (x.chan p.ch).pairsOk (max r x.car.cut) e l.length = true → ∀ n,
      n = accMean free (pairDiffs (x.handCo d p) (p.co d k p.qty) (fun _ => p.trim) l) →
      x.rampAgain d k free r l = x.modSpare k fun p => { p with ramp := some (p.trim, n, e), trim := p.trim + n }) := by
  subst hp
  unfold Die.rampAgain
  dsimp only
  rw [← he]
  refine ⟨fun h => if_neg ?_, fun h1 h2 n hn => ?_⟩
  · rcases h with h | h
    · rw [h, Bool.false_and]
      exact Bool.false_ne_true
    · rw [h, Bool.and_false]
      exact Bool.false_ne_true
  · rw [h1, h2, Bool.and_self, if_pos rfl, hn]

/-- The handback at th (R185, R187). -/
theorem handback_spec {x : Die} {d : DieId} {k : SpareId} {p : Spare} (hp : p = x.spare k) (q free : Nat) {th back : Tick} {ok : Bool}
    {l : List (Int × Int)} (hth : x.handAt p = some th)
    (hback : back = (if Img.lock (x.chan p.ch).img = 2 then (x.chan p.ch).tenMs * (x.chan p.ch).step else 10 * ms))
    (hok : ok = (x.chan p.ch).pairsOk (max (th - back) x.car.cut) th l.length) :
    (x.past th = false ∨ ok = false → x.handback d k q free l = x) ∧
    (x.past th = true → ok = true → ∀ m, m = accMean free (pairDiffs (x.handCo d p) (p.co d k p.qty)
        (fun i => x.trimAt k (if Img.mcEn (x.chan p.ch).img || Img.lock (x.chan p.ch).img = 2 then th else th - 12000 * (l.length - i))) l) →
      (m.natAbs ≤ 8192 → x.handback d k q free l = x.handOver d k q th) ∧
      (8192 < m.natAbs → x.handback d k q free l = x.modSpare k fun p => { p with retry := some th })) := by
  subst hp
  unfold Die.handback
  dsimp only
  rw [hth]
  dsimp only
  rw [← hback, ← hok]
  refine ⟨fun h => if_neg ?_, fun h1 h2 m hm => ?_⟩
  · rcases h with h | h <;> simp [h]
  · rw [h1, h2, Bool.and_self, if_pos rfl, ← hm]
    exact ⟨fun h => if_pos ((matched_iff m).mpr h), fun h => if_neg fun hmat => absurd ((matched_iff m).mp hmat) (Nat.not_le.mpr h)⟩
theorem handback_none {x : Die} {d : DieId} {k : SpareId} (q free : Nat) (l : List (Int × Int)) (h : x.handAt (x.spare k) = none) :
    x.handback d k q free l = x := by
  unfold Die.handback
  dsimp only
  rw [h]

theorem mustRamp_none {p : Spare} (h : p.retry = none) : p.mustRamp = none := by
  rw [Spare.mustRamp, h, Option.bind_none]
theorem handAt_first {x : Die} {p : Spare} (hr : p.retry = none) (hramp : p.ramp = none) :
    x.handAt p = x.switchAt p.ch (p.slot + 700 * ms) := by
  unfold Die.handAt
  rw [hr, hramp]
  exact congrArg (x.switchAt p.ch) (Nat.max_self _)

theorem handOver_spec {x y : Die} {d : DieId} {k : SpareId} {p : Spare} (hp : p = x.spare k) {q : Nat} {th : Tick}
    (hy : y = ((x.serveUntil d p.ch th).modSpare k fun p => { p.selfCal with
        phase := if th < p.slot + sec then .selfCal else .idle
        visits := satInc p.visits }).modCh p.ch (fun h => { h with cal := { h.cal with server := 0 } })) :
    (p.solved = none ∨ x.aux.suspect = true → x.handOver d k q th = y) ∧
    (∀ co r temp, p.solved = some (co, r, temp) → x.aux.suspect = false → x.handOver d k q th =
      (y.modCh p.ch fun h => { h with cal := { h.cal with slice := assocSet h.cal.slice p.qty co, warm := true } }).hallmark
        d q th ⟨p.ch.val, by omega⟩ p.ch.val p.qty co temp r (srcCh d p.ch)) := by
  subst hp hy
  unfold Die.handOver
  dsimp only
  refine ⟨fun h => ?_, fun co r temp hs hsus => ?_⟩
  · rcases h with h | h
    · rw [h, ite_self]
    · rw [h, if_pos rfl]
  · rw [hsus, if_neg Bool.false_ne_true, hs]

/-! ### The ends of a visit's points and of self-calibration (R185, R186, R189 to R191) -/

theorem faulty_iff (co : Coeffs) : faulty co = true ↔ 2 ^ 30 < 100 * (co.gain - 2 ^ 30).natAbs ∨ 2 ^ 24 < co.offset.natAbs := by
  rw [faulty, Bool.or_eq_true, decide_eq_true_iff, decide_eq_true_iff]

theorem pointsEnd_stays {s : State} {d : DieId} {k : SpareId} {x : Die} {p : Spare} (hx : x = s.die d) (hp : p = x.spare k) (pts : List Int)
    {l : List (Int × Int)} (temp : Int) {e : Tick} {ok : Bool} (he : e = x.phaseEnd p.ch (p.slot + 650 * ms))
    (hok : ok = (x.chan p.ch).pairsOk (max (x.phaseEnd p.ch (p.slot + 600 * ms)) x.car.cut) e l.length)
    (h : x.on = false ∨ p.phase ≠ .serve ∨ x.past e = false ∨ ok = false) :
    exec (.carouselPointsEnd d k pts l temp) s = .next { s with free := s.free + 4 } := by
  subst hx hp
  have hexec : exec (.carouselPointsEnd d k pts l temp) s = execCarouselPointsEnd d k pts l temp s := rfl
  rw [hexec, execCarouselPointsEnd, modDie_of_fixed s d]
  · rfl
  · unfold Die.pointsEnd
    dsimp only
    rw [← he, ← hok]
    refine if_neg ?_
    rcases h with h | h | h | h <;> simp [h]

/-- The points of a visit end: a faulty own slice parks its channel, and otherwise Δ starts the trim's ramp, with the new coefficients
where they are taken. -/
theorem pointsEnd_due {s : State} {d : DieId} {k : SpareId} {x : Die} {p : Spare} (hx : x = s.die d) (hp : p = x.spare k) {pts : List Int}
    {co : Coeffs} {r : Int} (hco : co = solvePoints s.free (point pts 0) (point pts 1) (point pts 2)) (hr : r = residual co (point pts 3))
    {l : List (Int × Int)} (temp : Int) {e : Tick} (he : e = x.phaseEnd p.ch (p.slot + 650 * ms))
    (hok : (x.chan p.ch).pairsOk (max (x.phaseEnd p.ch (p.slot + 600 * ms)) x.car.cut) e l.length = true)
    (hon : x.on = true) (hphase : p.phase = .serve) (hpast : x.past e = true) :
    (faulty co = true → exec (.carouselPointsEnd d k pts l temp) s = .next { s.modDie d fun _ =>
      (((x.modSpare k fun p => { p with phase := .parked }).modCh p.ch fun h =>
        { h with cal := { h.cal with parked := true } }).sliceFault d (s.dq d) (srcCh d p.ch)).cycle16 with free := s.free + 4 }) ∧
    (faulty co = false → ∀ delta : Coeffs → Int,
      (∀ own, delta own = accMean (s.free + 3) (pairDiffs own (p.co d k p.qty) (fun _ => p.trim) l)) →
      ∀ good, good = (decide (r.natAbs ≤ 4295) && decide ((delta co).natAbs ≤ 214748)) →
      ∀ took, took = (good && x.aux.quiet (x.phaseEnd p.ch (p.slot + 150 * ms)) (x.phaseEnd p.ch (p.slot + 550 * ms))) →
      ∀ n, n = (if took then delta co else delta (x.ownCo d p.ch p.qty)) →
      ∀ y, y = x.modSpare k (fun p => { p with
        phase := .shadowOut
        solved := if took then some (co, r.natAbs, temp) else none
        ramp := some (p.trim, n, e)
        trim := p.trim + n }) →
      (took = true → exec (.carouselPointsEnd d k pts l temp) s =
        .next { s.modDie d fun _ => y with free := s.free + 4 }) ∧
      (took = false → exec (.carouselPointsEnd d k pts l temp) s =
        .next { s.modDie d fun _ => y.calReject (s.dq d) (srcCh d p.ch) r good with free := s.free + 4 })) := by
  subst hx hp
  have hexec : exec (.carouselPointsEnd d k pts l temp) s = execCarouselPointsEnd d k pts l temp s := rfl
  have hrun : ((s.die d).on && ((s.die d).spare k).phase == .serve && (s.die d).past e) = true := by
    rw [hon, hphase, hpast]
    decide
  rw [hexec, execCarouselPointsEnd]
  constructor
  · intro hf
    refine congrArg (fun t => Host.Outcome.next (State.skipFree t 4)) (modDie_congr s d ?_)
    unfold Die.pointsEnd
    dsimp only
    rw [← he, hok, Bool.and_true, if_pos hrun, ← hco, if_pos hf]
  · intro hf delta hdelta good hgood took htook n hn y hy
    have hend : (s.die d).pointsEnd d k (s.dq d) s.free pts l temp =
        if took then y else y.calReject (s.dq d) (srcCh d ((s.die d).spare k).ch) r good := by
      unfold Die.pointsEnd
      dsimp only
      rw [← he, hok, Bool.and_true, if_pos hrun, ← hco, if_neg (Bool.eq_false_iff.mp hf), ← hr]
      simp only [← hdelta]
      rw [← hgood, ← htook, ← hn, ← hy]
    constructor <;> intro ht <;>
      refine congrArg (fun t => Host.Outcome.next (State.skipFree t 4)) (modDie_congr s d (hend.trans ?_))
    · exact if_pos ht
    · exact if_neg (Bool.eq_false_iff.mp ht)

theorem selfCalEnd_stays {s : State} {d : DieId} {k : SpareId} {x : Die} {p : Spare} (hx : x = s.die d) (hp : p = x.spare k) (pts : List Int)
    (temp : Int) (h : x.on = false ∨ p.phase ≠ .selfCal ∨ x.past (p.slot + sec) = false) :
    exec (.carouselSelfCalEnd d k pts temp) s = .next { s with free := s.free + 3 } := by
  subst hx hp
  have hexec : exec (.carouselSelfCalEnd d k pts temp) s = execCarouselSelfCalEnd d k pts temp s := rfl
  rw [hexec, execCarouselSelfCalEnd, modDie_of_fixed s d]
  · rfl
  · refine if_neg ?_
    rcases h with h | h | h <;> simp [h]

/-- A slot of self-calibration ends: a faulty spare is withdrawn, and otherwise its coefficients wait for its next visit, or are
rejected. -/
theorem selfCalEnd_due {s : State} {d : DieId} {k : SpareId} {x : Die} {p : Spare} (hx : x = s.die d) (hp : p = x.spare k) {pts : List Int}
    {co : Coeffs} {r : Int} (hco : co = solvePoints s.free (point pts 0) (point pts 1) (point pts 2)) (hr : r = residual co (point pts 3))
    (temp : Int) (hon : x.on = true) (hphase : p.phase = .selfCal) (hpast : x.past (p.slot + sec) = true) :
    (faulty co = true → exec (.carouselSelfCalEnd d k pts temp) s = .next { s.modDie d fun _ =>
      ((x.modSpare k fun p => { p with phase := .fault, fault := true }).sliceFault d (s.dq d) (srcDie d)).cycle16 with
        free := s.free + 3 }) ∧
    (faulty co = false → ∀ y ok, y = x.modSpare k (fun p => { p with phase := .idle }) →
      ok = x.aux.quiet (p.slot + 750 * ms) (p.slot + sec) →
      (r.natAbs ≤ 4295 → ok = true → exec (.carouselSelfCalEnd d k pts temp) s = .next { s.modDie d fun _ =>
        (y.modSpare k fun p => { p with next := some (p.qty, co) }).hallmark d (s.dq d) (p.slot + sec) ⟨16 + k.val, by omega⟩
          ((k.val + 1) * 16) p.qty co temp r.natAbs (srcDie d) with free := s.free + 3 }) ∧
      (4295 < r.natAbs ∨ ok = false → exec (.carouselSelfCalEnd d k pts temp) s = .next { s.modDie d fun _ =>
        y.calReject (s.dq d) (srcDie d) r (decide (r.natAbs ≤ 4295)) with free := s.free + 3 })) := by
  subst hx hp
  have hexec : exec (.carouselSelfCalEnd d k pts temp) s = execCarouselSelfCalEnd d k pts temp s := rfl
  have hrun : ((s.die d).on && ((s.die d).spare k).phase == .selfCal && (s.die d).past (((s.die d).spare k).slot + sec)) = true := by
    rw [hon, hphase, hpast]
    decide
  rw [hexec, execCarouselSelfCalEnd]
  constructor
  · intro hf
    refine congrArg (fun t => Host.Outcome.next (State.skipFree t 3)) (modDie_congr s d ?_)
    unfold Die.selfCalEnd
    dsimp only
    rw [if_pos hrun, ← hco, if_pos hf]
  · intro hf y ok hy hok
    constructor
    · intro hres hquiet
      refine congrArg (fun t => Host.Outcome.next (State.skipFree t 3)) (modDie_congr s d ?_)
      unfold Die.selfCalEnd
      dsimp only
      rw [if_pos hrun, ← hco, if_neg (Bool.eq_false_iff.mp hf), ← hr, ← hok, hquiet, Bool.and_true, if_pos (decide_eq_true hres), ← hy]
    · intro hrej
      refine congrArg (fun t => Host.Outcome.next (State.skipFree t 3)) (modDie_congr s d ?_)
      unfold Die.selfCalEnd
      dsimp only
      rw [if_pos hrun, ← hco, if_neg (Bool.eq_false_iff.mp hf), ← hr, ← hok, if_neg ?_, ← hy]
      rcases hrej with hrej | hrej <;> simp [hrej]

/-! ### The warm-start store (R194, R200) -/

theorem spoilBank_two {α : Type} (a b : Nat × α) :
    spoilBank (some a) (some b) = if a.1 < b.1 then (none, some b) else (some a, none) := rfl

/-- Where the read-back fails the newest bank stays as it was. -/
theorem spoilWarm_spec (n : NvStore) {a b : Nat × List Hallmark} (ha : n.warmA = some a) (hb : n.warmB = some b) :
    (a.1 < b.1 → n.spoilWarm.warmA = none ∧ n.spoilWarm.warmB = some b) ∧
    (b.1 ≤ a.1 → n.spoilWarm.warmA = some a ∧ n.spoilWarm.warmB = none) := by
  unfold NvStore.spoilWarm
  rw [ha, hb, spoilBank_two]
  refine ⟨fun h => ?_, fun h => ?_⟩
  · rw [if_pos h]
    exact ⟨rfl, rfl⟩
  · rw [if_neg (Nat.not_lt.mpr h)]
    exact ⟨rfl, rfl⟩

theorem takeRole_single {s : State} (h0 : s.power.step = 0) (hd : s.variant.dual = false) (key : Bool) : s.takeRole key = some s := by
  rw [State.takeRole, if_neg (not_not.mpr h0), hd]
  exact if_pos rfl
theorem takeRole_powerDown {s : State} (h0 : s.power.step ≠ 0) (key : Bool) : s.takeRole key = none := if_pos h0

/-- What the warm-start row does at an hour that it has not stored: it stores the set with the lock, and without it waits for the
next. -/
theorem warmStartWrite_due {s : State} {hour : Nat} {persist : Bool} (hhour : hour = s.clk.now / (3600 * sec) * (3600 * sec))
    (hpersist : persist = (s.presentDies.any fun d => (s.die d).car.persist)) (hserve : s.serving = true) (hp : persist = true)
    (hle : s.clk.now ≤ hour + sec) (hat : s.core.warmAt ≠ some hour) :
    exec .warmStartWrite s = .next ((s.takeRole false).elim s fun t => State.commit s
      ((t.tickFree.putStore fun n => if Config.storeOk s.free then n.storeWarm (s.warmSet s.act.nv.warm) else n.spoilWarm).modCore
        fun c => { c with warmAt := some hour })) := by
  have hexec : exec .warmStartWrite s = execWarmStartWrite s := rfl
  rw [hexec, execWarmStartWrite]
  refine congrArg Host.Outcome.next ?_
  dsimp only
  rw [← hhour, ← hpersist, if_pos ?_]
  · cases s.takeRole false <;> rfl
  · rw [hserve, hp, decide_eq_true_eq.mpr hle, bne_iff_ne.mpr hat]
    rfl
theorem warmStartWrite_stays {s : State} {hour : Nat} {persist : Bool} (hhour : hour = s.clk.now / (3600 * sec) * (3600 * sec))
    (hpersist : persist = (s.presentDies.any fun d => (s.die d).car.persist))
    (h : s.serving = false ∨ persist = false ∨ hour + sec < s.clk.now ∨ s.core.warmAt = some hour) :
    exec .warmStartWrite s = .next s := by
  have hexec : exec .warmStartWrite s = execWarmStartWrite s := rfl
  rw [hexec, execWarmStartWrite]
  refine congrArg Host.Outcome.next ?_
  dsimp only
  rw [← hhour, ← hpersist, if_neg ?_]
  intro hall
  simp only [Bool.and_eq_true, decide_eq_true_eq, bne_iff_ne] at hall
  obtain ⟨⟨⟨hserve, hp⟩, hle⟩, hat⟩ := hall
  rcases h with h | h | h | h
  · exact Bool.false_ne_true (h.symm.trans hserve)
  · exact Bool.false_ne_true (h.symm.trans hp)
  · exact absurd hle (Nat.not_le.mpr h)
  · exact hat h

/-- Settles O49: each row of the carousel by its own cases, from the slot's start to the stored warm-start set. -/
theorem carousel : Obligations.Carousel := by
  unfold Obligations.Carousel
  refine ⟨?_, ?_, faulty_iff, fun _ _ _ _ => rfl, fun n => ⟨rfl, rfl, rfl, rfl, fun a b => spoilWarm_spec n⟩, ?_⟩
  · rintro s d k x p h q hx hp rfl rfl
    refine ⟨fun t y ht hy => ?_, fun t hn => ?_, fun t a hsome hle => ?_, fun own spare l o ok hl ho hok => ⟨?_, ?_⟩,
      fun own spare l hl => ⟨?_, ?_⟩, mustRamp_none, handAt_first, fun th y hy => handOver_spec hp hy⟩
    · obtain ⟨hfirst, hnext, hmod⟩ := nextSlot_spec p k
      rw [← ht] at hfirst hnext hmod
      refine ⟨hfirst, hnext, hmod, fun hstay => slot_stays hx (by rwa [← hp, ← ht]), fun hon hpast => ?_⟩
      exact slot_begins hx hp ht hy hon hpast
    · rw [Carousel.visit, hn]
    · rw [Carousel.visit, hsome]
      exact if_pos hle
    · exact takeover_stays hx hp hl ho hok
    · intro hon hphase hok' tk htk hpast e trim m y he htrim hm hy
      exact takeover_due hx hp hl (ho.symm.trans htk) (hok.symm.trans hok') hon hphase hpast he htrim hm hy
    · intro hstay
      subst hx hp
      exact handback_stays own spare hstay
    · intro hon hphase
      subst hx hp hl
      have hwait : ∀ y, y = s.die d → Host.Outcome.next (φ := Fault) (ρ := Refusal) { s.modDie d fun _ => y with free := s.free + 1 } =
          .next { s with free := s.free + 1 } := by
        rintro y rfl
        rw [modDie_of_fixed s d rfl]
      rw [handback_runs own spare hon hphase]
      refine ⟨fun r e hr he => ?_, fun hr hth => ?_, fun th back ok hr hth hback hok => ?_⟩
      · obtain ⟨hstay, hramp⟩ := rampAgain_spec (d := d) (k := k) rfl s.free (l := own.zip spare) he
        rw [hr]
        refine ⟨fun h => hwait _ (hstay h), fun hpast hpairs n hn => ?_⟩
        rw [Option.elim_some, hramp hpast hpairs n hn]
      · rw [hr]
        exact hwait _ (handback_none _ _ _ hth)
      · obtain ⟨hstay, hdue⟩ := handback_spec (d := d) (k := k) rfl (s.dq d) s.free hth hback hok
        rw [hr]
        refine ⟨fun h => hwait _ (hstay h), fun hpast hok' m hm => ?_⟩
        obtain ⟨hover, hretry⟩ := hdue hpast hok' m hm
        rw [Option.elim_none]
        refine ⟨fun h => ?_, fun h => ?_⟩
        · rw [hover h]
        · rw [hretry h]
  · rintro s d k x p h q pts co r hx hp rfl rfl hco hr
    refine ⟨fun l temp e ok he hok => ⟨pointsEnd_stays hx hp pts temp he hok, fun hon hphase hpast hok' => ?_⟩,
      fun temp => ⟨selfCalEnd_stays hx hp pts temp, selfCalEnd_due hx hp hco hr temp⟩⟩
    exact pointsEnd_due hx hp hco hr temp he (hok.symm.trans hok') hon hphase hpast
  · intro s hour persist hhour hpersist
    refine ⟨fun h0 hd => takeRole_single h0 hd false, fun h0 => takeRole_powerDown h0 false, fun hserve hp hle hat => ?_,
      warmStartWrite_stays hhour hpersist⟩
    have hdue := warmStartWrite_due hhour hpersist hserve hp hle hat
    refine ⟨fun t ht => ⟨fun hok => ?_, fun hok => ?_⟩, fun hnone => ?_⟩
    · rw [hdue, ht, hok]
      rfl
    · rw [hdue, ht, hok]
      rfl
    · rw [hdue, hnone]
      rfl

end Sys2Proof
end

section
namespace Sys2Proof
open Machine

/-- Refutes O50: FSK_CARRIER_DETECT on a channel whose mode has no FSK goes through the channel's change all the same, which holds a
driver off on a die without isolated power, so that the state does not stay. -/
theorem not_pwmAndFsk : ¬ Obligations.PwmAndFsk := by
  unfold Obligations.PwmAndFsk
  rintro ⟨-, hfsk, -⟩
  obtain ⟨-, -, hno, -⟩ := hfsk unpoweredOutput ⟨0, 0⟩ _ _ rfl rfl
  refine unpoweredOutput_modCh_ne _ (Host.Outcome.next.inj (hno (.inl ?_)))
  rw [State.chan_eq, unpoweredOutput_chan]
  decide

end Sys2Proof
end

section
namespace Sys2Proof
open Machine

/-- A row that comes once in 1 ms is due when the last one is 1 ms ago. -/
theorem notWithin_of_le {o : Option Nat} {now : Nat} (h : ∀ t, o = some t → t + ms ≤ now) :
    (o.any fun t => decide (now < t + ms)) = false := by
  rw [Option.any_eq_false]
  intro t ht
  exact decide_eq_false (Nat.not_lt.mpr (h t ht))

/-! ### Epochs (R257, R258) -/

theorem ledgerEpoch_due {s : State} {d : DieId} {k : Die} (hk : k = s.die d) (n : Nat) (hpres : k.present = true)
    (hpower : k.isoPower = true) (htime : k.led.epoch * iv ≤ k.replica) :
    exec (.ledgerEpoch d n) s = .next (State.commit s (((s.modDie d fun _ => { k with led := k.led.epochStep n }).modCore
      (·.prunePlan d (k.led.epoch * iv))).settlePools d)) := by
  subst hk
  have hexec : exec (.ledgerEpoch d n) s = execLedgerEpoch d n s := rfl
  rw [hexec, execLedgerEpoch]
  refine congrArg Host.Outcome.next ((if_pos ?_).trans
    (congrArg (fun t => State.commit s (State.settlePools (State.modCore t _) d)) (modDie_congr s d rfl)))
  rw [hpres, hpower, decide_eq_true_eq.mpr htime]
  rfl

theorem ledgerEpoch_stays {s : State} {d : DieId} {k : Die} (hk : k = s.die d) (n : Nat)
    (h : k.present = false ∨ k.isoPower = false ∨ k.replica < k.led.epoch * iv) : exec (.ledgerEpoch d n) s = .next s := by
  subst hk
  have hexec : exec (.ledgerEpoch d n) s = execLedgerEpoch d n s := rfl
  rw [hexec, execLedgerEpoch]
  refine congrArg Host.Outcome.next (if_neg ?_)
  rcases h with h | h | h
  · simp [h]
  · simp [h]
  · simp [Nat.not_le.mpr h]

/-- An epoch conserves the reservoir's energy: what it had and what arrives is left, drawn, or overflows (R27, R257). -/
theorem epochStep_spec (l : DieLedger) (n : Nat) :
    (l.epochStep n).level ≤ 60000 ∧ (l.epochStep n).refilled = l.refilled + 12000 ∧ (l.epochStep n).epoch = l.epoch + 1 ∧
    (l.epochStep n).drawn = l.drawn + min n l.level ∧
    (l.epochStep n).level + (l.epochStep n).drawn + (l.epochStep n).overflowed + l.refilled =
      l.level + l.drawn + l.overflowed + (l.epochStep n).refilled ∧
    (l.level - min n l.level ≤ 48000 → (l.epochStep n).overflowed = l.overflowed) := by
  unfold DieLedger.epochStep
  refine ⟨Nat.min_le_left .., rfl, rfl, rfl, ?_, ?_⟩ <;> dsimp only <;> omega

/-! ### Metering (R267) -/

theorem heatMetering_stays {s : State} {d : DieId} {k : Die} (hk : k = s.die d) (m : HeatSample)
    (h : k.on = false ∨ (∃ t, k.led.meterAt = some t ∧ s.clk.elapsed < t + ms)) : exec (.heatMetering d m) s = .next s := by
  subst hk
  have hexec : exec (.heatMetering d m) s = execHeatMetering d m s := rfl
  rw [hexec, execHeatMetering]
  refine congrArg Host.Outcome.next (if_neg ?_)
  rcases h with h | ⟨t, ht, hlt⟩
  · simp [h]
  · rw [ht, Option.any_some, decide_eq_true_eq.mpr hlt, Bool.not_true, Bool.and_false]
    exact Bool.false_ne_true

theorem heatMetering_due {s : State} {d : DieId} {k : Die} (hk : k = s.die d) (m : HeatSample) (hon : k.on = true)
    (htime : ∀ t, k.led.meterAt = some t → t + ms ≤ s.clk.elapsed) {h : ChanId → Nat} {bad : ChanId → Bool} {l : Bool}
    (hh : h = fun c => k.heatNow m c) (hbad : bad = fun c => decide (11 * (k.chan c).chgHeat < 10 * h c))
    (hl : l = decide (1000 * k.led.vd + 500 < m.lpMv)) {hit : List ChanId} {u v : Die}
    (hhit : hit = allC.filter fun c => bad c && (k.chan c).overMs == 9)
    (hu : u = { k with
      led := { k.led with lpMs := if l then min 10 (k.led.lpMs + 1) else 0, meterAt := some s.clk.elapsed }
      chans := Vector.ofFn fun c => { k.chan c with overMs := if bad c then min 10 ((k.chan c).overMs + 1) else 0 } })
    (hv : v = hit.foldl (fun x c => x.overdraw (srcCh d c) (s.dq d)) u) :
    exec (.heatMetering d m) s = .next (State.commit s (hit.foldl (fun t c => t.chargeMetered ⟨d, c⟩ (h c))
      (s.modDie d fun _ => if l && k.led.lpMs == 9 then v.overdraw (srcDie d) (s.dq d) else v))) := by
  have hexec : exec (.heatMetering d m) s = execHeatMetering d m s := rfl
  have hnot := notWithin_of_le htime
  subst hk
  rw [hexec, execHeatMetering]
  refine congrArg Host.Outcome.next ((if_pos ?_).trans ?_)
  · rw [hon, hnot]
    rfl
  · subst hh hbad hl hhit hu hv
    refine congrArg (fun t => State.commit s (List.foldl _ t _)) (modDie_congr s d rfl)

/-! ### The operating point (R272, R339 to R341) -/

theorem wantPoint_spec (p b f : Nat) : (wantPoint p b f = some (p + 1) ↔ (b < 25 ∨ f < 1250) ∧ p < 2) ∧
    (25 ≤ b → 1250 ≤ f → b ≤ 75 → wantPoint p b f = none) ∧ (75 < b → 1250 ≤ f → 0 < p → wantPoint p b f = some (p - 1)) := by
  unfold wantPoint
  refine ⟨?_, fun hb hf hb' => ?_, fun hb hf hp => ?_⟩
  · by_cases hlow : b < 25 ∨ f < 1250
    · simp [hlow]
    · rw [if_neg hlow]
      refine iff_of_false (fun h => ?_) fun h => hlow h.1
      split at h
      · have := Option.some.inj h
        omega
      · exact absurd h (by simp)
  · rw [if_neg (by omega), if_neg (by omega)]
  · rw [if_neg (by omega), if_pos ⟨hb, hp⟩]

theorem operatingPointAdjust_stays {s : State} {h : HubId} {x : Hub} (hx : x = s.hub h) (n : Nat)
    (hno : x.present = false ∨ x.up = false ∨ s.power.boot ≠ .complete ∨ (∃ t, x.adjAt = some t ∧ s.clk.elapsed < t + ms)) :
    exec (.operatingPointAdjust h n) s = .next s := by
  subst hx
  have hexec : exec (.operatingPointAdjust h n) s = execOperatingPointAdjust h n s := rfl
  rw [hexec, execOperatingPointAdjust]
  refine congrArg Host.Outcome.next (if_neg ?_)
  rcases hno with hno | hno | hno | ⟨t, ht, hlt⟩
  · simp [hno]
  · simp [hno]
  · simp [hno]
  · rw [ht, Option.any_some, decide_eq_true_eq.mpr hlt, Bool.not_true, Bool.and_false]
    exact Bool.false_ne_true

/-- A point that is wanted beyond the limits is an episode: a clip below PT.MAX, a conflict above PT.MIN (R272). -/
def wantedEvent (v : State) (h : HubId) (l : LedgerRegs) (w : Option Nat) : State :=
  w.elim v fun t => if t < l.ptMax then v.policyEvent h true else if l.ptMin < t then v.policyEvent h false else v

theorem operatingPointAdjust_due {s v : State} {h : HubId} {x : Hub} {l : LedgerRegs} (hx : x = s.hub h) (hl : l = s.ledgerOf h) (n : Nat)
    (hpres : x.present = true) (hup : x.up = true) (hboot : s.power.boot = .complete)
    (htime : ∀ t, x.adjAt = some t → t + ms ≤ s.clk.elapsed) (hv : v = s.modHub h (fun y => { y with adjAt := some s.clk.elapsed }))
    {w : Option Nat} (hw : w = wantPoint x.point n s.pkgPool.free) {g : Nat} (hg : g = max l.ptMax (min l.ptMin (w.getD x.point))) :
    exec (.operatingPointAdjust h n) s = .next (State.commit s
      (if decide (g ≠ x.point) && x.change.isNone && decide (x.changeHold ≤ s.clk.elapsed) && (decide (x.point < g) || v.pointFits h g) then
        ((wantedEvent v h l w).modHub h (·.startChange g s.clk.elapsed s.power.straps.psel)).settlePackage
      else wantedEvent v h l w)) := by
  have hexec : exec (.operatingPointAdjust h n) s = execOperatingPointAdjust h n s := rfl
  have hnot := notWithin_of_le htime
  subst hx hl
  rw [hexec, execOperatingPointAdjust]
  refine congrArg Host.Outcome.next ((if_pos ?_).trans ?_)
  · rw [hpres, hup, hboot, hnot]
    rfl
  · have hevent : (if w.isSome && decide (w.getD (s.hub h).point < (s.ledgerOf h).ptMax) then v.policyEvent h true
        else if w.isSome && decide ((s.ledgerOf h).ptMin < w.getD (s.hub h).point) then v.policyEvent h false else v) =
        wantedEvent v h (s.ledgerOf h) w := by
      cases w with
      | none => rfl
      | some t => simp [wantedEvent]
    dsimp only
    rw [← hw, ← hg, ← hv, hevent, hv]
    rfl

/-- An episode's end, of a clip or of a conflict. -/
theorem policyEpisodeEnd_spec {s : State} {h : HubId} {x : Hub} (hx : x = s.hub h) {c : Bool} {o : Option Nat}
    (ho : o = (if c then x.clipEp else x.confEp)) :
    (o = none → exec (.policyEpisodeEnd h c) s = .next s) ∧
    ∀ t, o = some t →
      (s.clk.elapsed < t + 100 * ms → exec (.policyEpisodeEnd h c) s = .next s) ∧
      (t + 100 * ms ≤ s.clk.elapsed → exec (.policyEpisodeEnd h c) s = .next (s.modHub h fun x =>
        if c then { x with clipEp := none } else { x with confEp := none })) := by
  subst hx
  have hexec : exec (.policyEpisodeEnd h c) s = execPolicyEpisodeEnd h c s := rfl
  rw [hexec, execPolicyEpisodeEnd]
  cases c <;> simp only [Bool.false_eq_true, if_false, if_true] at ho ⊢ <;> rw [← ho]
  all_goals
    refine ⟨fun hn => ?_, fun t ht => ⟨fun hlt => ?_, fun hle => ?_⟩⟩
    · rw [hn]
      rfl
    · rw [ht]
      refine congrArg Host.Outcome.next (if_neg ?_)
      rw [decide_eq_true_eq]
      exact Nat.not_le.mpr hlt
    · rw [ht]
      exact congrArg Host.Outcome.next (if_pos (decide_eq_true_eq.mpr hle))

/-- A confirmation, by the internal monitor or by the external regulator, is taken with the strap that asks for it. -/
theorem confirm_spec {s : State} {h : HubId} :
    (s.power.straps.psel = false → exec (.voltageConfirm h) s = .next (State.commit s (s.confirmPoint h)) ∧
      exec (.vreqAck h) s = .next s) ∧
    (s.power.straps.psel = true → exec (.vreqAck h) s = .next (State.commit s (s.confirmPoint h)) ∧
      exec (.voltageConfirm h) s = .next s) := by
  have hconfirm : exec (.voltageConfirm h) s = execVoltageConfirm h s := rfl
  have hack : exec (.vreqAck h) s = execVreqAck h s := rfl
  rw [hconfirm, hack, execVoltageConfirm, execVreqAck]
  refine ⟨fun hp => ?_, fun hp => ?_⟩
  · rw [hp]
    exact ⟨rfl, rfl⟩
  · rw [hp]
    exact ⟨rfl, rfl⟩

theorem confirmPoint_none {s : State} {h : HubId} (hn : (s.hub h).change = none) : s.confirmPoint h = s := by
  rw [State.confirmPoint, hn]
theorem confirmPoint_some {s : State} {h : HubId} {p a : Nat} {b : Bool} (hc : (s.hub h).change = some (p, a, b)) :
    s.confirmPoint h = (s.modHub h fun x => { x with point := p, held := p, change := none }).settlePackage := by
  rw [State.confirmPoint, hc]

theorem vreqTimeout_none {s : State} {h : HubId} (hn : (s.hub h).change = none) : exec (.vreqTimeout h) s = .next s := by
  have hexec : exec (.vreqTimeout h) s = execVreqTimeout h s := rfl
  rw [hexec, execVreqTimeout]
  dsimp only
  rw [hn]

theorem vreqTimeout_some {s : State} {h : HubId} {x : Hub} (hx : x = s.hub h) {p a : Nat} {b : Bool} (hc : x.change = some (p, a, b))
    {e : Tick} (he : e = a + ms + if s.power.straps.psel then 4 * us else 0) :
    (s.clk.elapsed < e → exec (.vreqTimeout h) s = .next s) ∧
    (e ≤ s.clk.elapsed → exec (.vreqTimeout h) s = .next (State.commit s
      (((s.modHub h fun x => { x with
        change := none
        changeHold := if s.power.straps.psel then s.clk.elapsed + 10 * ms else x.changeHold
        vreqTo := if s.power.straps.psel then satInc x.vreqTo else x.vreqTo }).settlePackage).raise h .vreqTimeout s.clk.now
          false []))) := by
  subst hx
  have hexec : exec (.vreqTimeout h) s = execVreqTimeout h s := rfl
  rw [hexec, execVreqTimeout]
  dsimp only
  rw [hc]
  dsimp only
  rw [← he]
  refine ⟨fun hlt => congrArg Host.Outcome.next (if_neg (Nat.not_le.mpr hlt)), fun hle => congrArg Host.Outcome.next ((if_pos hle).trans ?_)⟩
  refine congrArg (fun t => State.commit s ((State.settlePackage t).raise h .vreqTimeout s.clk.now false [])) ?_
  rfl

/-- Settles O51: the epoch's arithmetic, and each row of the ledger and of the operating point by its own cases. -/
theorem ledgerEpochsAndPoints : Obligations.LedgerEpochsAndPoints := by
  unfold Obligations.LedgerEpochsAndPoints
  refine ⟨⟨fun s d k n hk => ⟨ledgerEpoch_due hk n, ledgerEpoch_stays hk n⟩, fun l n _ => epochStep_spec l n,
      fun s d k m hk => ⟨heatMetering_stays hk m, ?_⟩⟩, ⟨fun s h x l n hx hl => ⟨operatingPointAdjust_stays hx n, ?_⟩, wantPoint_spec,
      fun s h x hx => ⟨fun c o ho => policyEpisodeEnd_spec hx ho, ?_, ?_, ?_, ?_⟩⟩⟩
  · intro hon htime hh bad l hhh hbad hl hit u hhit hu v hv
    exact heatMetering_due hk m hon htime hhh hbad hl hhit hu hv
  · intro hpres hup hboot htime v hv w hw g u hg hnone hsome
    have hu : u = wantedEvent v h l w := by
      cases w with
      | none => exact hnone rfl
      | some t =>
        obtain ⟨hclip, hconf, hin⟩ := hsome t rfl
        rw [wantedEvent, Option.elim_some]
        by_cases hlow : t < l.ptMax
        · rw [if_pos hlow, hclip hlow]
        · rw [if_neg hlow]
          by_cases hhigh : l.ptMin < t
          · rw [if_pos hhigh, hconf (Nat.not_lt.mp hlow) hhigh]
          · rw [if_neg hhigh, hin (Nat.not_lt.mp hlow) (Nat.not_lt.mp hhigh)]
    rw [operatingPointAdjust_due hx hl n hpres hup hboot htime hv hw hg, ← hu]
    refine ⟨fun hne hch hhold hfit => ?_, fun hno => ?_⟩
    · rw [if_pos]
      rw [decide_eq_true hne, hch, decide_eq_true_eq.mpr hhold]
      simpa using hfit
    · rw [if_neg]
      intro hall
      simp only [Bool.and_eq_true, Bool.or_eq_true, decide_eq_true_eq, Option.isNone_iff_eq_none] at hall
      obtain ⟨⟨⟨hne, hch⟩, hhold⟩, hfit⟩ := hall
      rcases hno with h1 | h1 | h1 | ⟨h1, h2⟩
      · exact hne h1
      · exact h1 hch
      · exact absurd hhold (Nat.not_le.mpr h1)
      · rcases hfit with hfit | hfit
        · exact absurd hfit (Nat.not_lt.mpr h1)
        · exact Bool.false_ne_true (h2.symm.trans hfit)
  · intro p a b hc u hu
    subst hx
    refine ⟨fun hp => ?_, fun hp => ?_, fun e he => vreqTimeout_some rfl hc he⟩
    · rw [(confirm_spec.1 hp).1, confirmPoint_some hc, hu]
    · rw [(confirm_spec.2 hp).1, confirmPoint_some hc, hu]
  · intro hn
    subst hx
    refine ⟨vreqTimeout_none hn, fun hp => ?_, fun hp => ?_⟩
    · rw [(confirm_spec.1 hp).1, confirmPoint_none hn]
    · rw [(confirm_spec.2 hp).1, confirmPoint_none hn]
  · exact fun hp => (confirm_spec.2 hp).2
  · exact fun hp => (confirm_spec.1 hp).2

end Sys2Proof
end

section
namespace Sys2Proof
open Machine

/-! ### The low-power handshake (R329) -/

/-- Without a request in progress no row of the handshake or of the entry does anything. -/
theorem handshake_none {s : State} (hr : s.power.req = none) : (∀ b a, exec (.powerHandshakeAnswer b a) s = .next s) ∧
    exec .powerHandshakeTimeout s = .next s ∧ exec .commitStart s = .next s ∧ exec .entryComplete s = .next s := by
  have hanswer : ∀ b a, exec (.powerHandshakeAnswer b a) s = execPowerHandshakeAnswer b a s := fun _ _ => rfl
  have htimeout : exec .powerHandshakeTimeout s = execPowerHandshakeTimeout s := rfl
  have hcommit : exec .commitStart s = execCommitStart s := rfl
  have hentry : exec .entryComplete s = execEntryComplete s := rfl
  refine ⟨fun b a => ?_, ?_, ?_, ?_⟩
  · rw [hanswer, execPowerHandshakeAnswer, hr]
  · rw [htimeout, execPowerHandshakeTimeout, hr]
  · rw [hcommit, execCommitStart, hr]
  · rw [hentry, execEntryComplete, hr]

/-- A block that is not asked, or that has granted, answers nothing. -/
theorem handshakeAnswer_stays {s : State} {r : PwrReq} (hr : s.power.req = some r) {b : PwrBlock} (a : PwrAnswer)
    (h : r.tc ≠ none ∨ b ∉ s.pwrBlocks r ∨ b ∈ r.granted) : exec (.powerHandshakeAnswer b a) s = .next s := by
  have hexec : exec (.powerHandshakeAnswer b a) s = execPowerHandshakeAnswer b a s := rfl
  rw [hexec, execPowerHandshakeAnswer, hr]
  refine congrArg Host.Outcome.next (if_pos ?_)
  rcases h with h | h | h
  · simp [Option.isSome_iff_ne_none.mpr h]
  · simp [h]
  · simp [h]

/-- The answer of a block that is asked: it must refuse, must delay, or answers as it will. -/
theorem handshakeAnswer_asked {s : State} {r : PwrReq} (hr : s.power.req = some r) {b : PwrBlock} (a : PwrAnswer) (htc : r.tc = none)
    (hb : b ∈ s.pwrBlocks r) (hg : b ∉ r.granted) :
    (∀ n, s.mustRefuse r b = some n → exec (.powerHandshakeAnswer b a) s = .next (State.commit s (s.refusePower r b n))) ∧
    (s.mustRefuse r b = none →
      (s.mustDelay b = true ∨ a = .delay → exec (.powerHandshakeAnswer b a) s = .next s) ∧
      (s.mustDelay b = false →
        (∀ n, a = .refuse n → exec (.powerHandshakeAnswer b a) s = .next (State.commit s (s.refusePower r b n.toNat))) ∧
        (a = .grant → ∀ g u, g = { r with granted := r.granted ++ [b] } →
          u = { s with power := { s.power with req := some g } } →
          ((∀ x ∈ s.pwrBlocks r, x ∈ g.granted) → exec (.powerHandshakeAnswer b a) s = .next (State.commit s (u.grantPower g))) ∧
          ((∃ x ∈ s.pwrBlocks r, x ∉ g.granted) → exec (.powerHandshakeAnswer b a) s = .next u)))) := by
  have hexec : exec (.powerHandshakeAnswer b a) s = execPowerHandshakeAnswer b a s := rfl
  have hask : ¬ (r.tc.isSome || !(s.pwrBlocks r).contains b || r.granted.contains b) = true := by simp [htc, hb, hg]
  rw [hexec, execPowerHandshakeAnswer, hr]
  dsimp only
  rw [if_neg hask]
  refine ⟨fun n hn => by rw [hn], fun hn => ?_⟩
  rw [hn]
  dsimp only
  refine ⟨fun h => ?_, fun hd => ?_⟩
  · rcases h with h | h
    · rw [if_pos h]
    · rw [h]
      exact congrArg Host.Outcome.next (ite_self s)
  · rw [if_neg (Bool.eq_false_iff.mp hd)]
    refine ⟨fun n ha => by rw [ha], fun ha g u hgr hu => ?_⟩
    subst ha hgr hu
    refine ⟨fun hall => congrArg Host.Outcome.next (if_pos ?_), fun ⟨x, hx, hxg⟩ => congrArg Host.Outcome.next (if_neg fun hall => ?_)⟩
    · exact List.all_eq_true.mpr fun x hx => List.contains_iff_mem.mpr (hall x hx)
    · exact hxg (List.contains_iff_mem.mp (List.all_eq_true.mp hall x hx))

theorem handshakeTimeout_stays {s : State} {r : PwrReq} (hr : s.power.req = some r)
    (h : r.tc ≠ none ∨ s.clk.elapsed < r.tq + 10 * ms ∨ (∀ b ∈ s.pwrBlocks r, b ∈ r.granted)) :
    exec .powerHandshakeTimeout s = .next s := by
  have hexec : exec .powerHandshakeTimeout s = execPowerHandshakeTimeout s := rfl
  rw [hexec, execPowerHandshakeTimeout, hr]
  refine congrArg Host.Outcome.next ?_
  rcases h with h | h | h
  · exact if_neg (by simp [h])
  · refine if_neg ?_
    rw [Bool.and_eq_true, decide_eq_true_eq]
    exact fun hand => absurd hand.2 (Nat.not_le.mpr h)
  · have hfind : (s.pwrBlocks r).find? (fun b => !r.granted.contains b) = none :=
      List.find?_eq_none.mpr fun b hb => by simp [h b hb]
    dsimp only
    rw [hfind]
    exact ite_self s

/-- 10 ms after tq a block that has not granted refuses with reason 4. -/
theorem handshakeTimeout_due {s : State} {r : PwrReq} (hr : s.power.req = some r) (htc : r.tc = none)
    (htime : r.tq + 10 * ms ≤ s.clk.elapsed) {b : PwrBlock} (hb : (s.pwrBlocks r).find? (fun b => !r.granted.contains b) = some b) :
    exec .powerHandshakeTimeout s = .next (State.commit s (s.refusePower r b 4)) := by
  have hexec : exec .powerHandshakeTimeout s = execPowerHandshakeTimeout s := rfl
  rw [hexec, execPowerHandshakeTimeout, hr]
  refine congrArg Host.Outcome.next ((if_pos ?_).trans ?_)
  · rw [htc, decide_eq_true_eq.mpr htime]
    rfl
  · rw [hb]

/-! ### Entry (R330, R331, R391) -/

theorem commitStart_stays {s : State} {r : PwrReq} (hr : s.power.req = some r)
    (h : r.tc = none ∨ r.te ≠ none ∨ (∃ tc, r.tc = some tc ∧ s.clk.now < tc)) : exec .commitStart s = .next s := by
  have hexec : exec .commitStart s = execCommitStart s := rfl
  rw [hexec, execCommitStart, hr]
  refine congrArg Host.Outcome.next ?_
  dsimp only
  rcases h with h | h | ⟨tc, htc, hlt⟩
  · rw [h]
  · obtain ⟨te, hte⟩ := Option.ne_none_iff_exists'.mp h
    rw [hte]
    cases r.tc <;> rfl
  · rw [htc]
    cases r.te with
    | none => exact if_neg (Nat.not_le.mpr hlt)
    | some te => rfl

theorem commitStart_due {s : State} {r : PwrReq} (hr : s.power.req = some r) {tc : Tick} (htc : r.tc = some tc) (hte : r.te = none)
    (hle : tc ≤ s.clk.now) : exec .commitStart s =
      .next (State.commit s { s.loseAnswer r with power := { s.power with req := some { r with te := some (tc + 4 * us) } } }) := by
  have hexec : exec .commitStart s = execCommitStart s := rfl
  rw [hexec, execCommitStart, hr]
  refine congrArg Host.Outcome.next ?_
  dsimp only
  rw [htc, hte]
  exact if_pos hle

theorem loseAnswer_keeps {s : State} {r : PwrReq} (h : r.die ≠ none ∨ r.req = none) : s.loseAnswer r = s := by
  unfold State.loseAnswer
  rcases h with h | h
  · obtain ⟨d, hd⟩ := Option.ne_none_iff_exists'.mp h
    rw [hd]
  · rw [h]
    cases r.die <;> rfl

/-- The response to a package request that has not left is gone, from the tunnel, the ports and what is held back. -/
theorem loseAnswer_gone {s : State} {r : PwrReq} {q : Req} {m : OutMsg} (hdie : r.die = none) (hreq : r.req = some q)
    (hm : m.answersPower q = true) : m ∉ (s.loseAnswer r).core.spi.tunnel ∧
    (∀ p : PortId, ∀ x ∈ (s.loseAnswer r).net.egress[p.val], x.2 ≠ .zcs m) ∧
    ∀ x ∈ (s.loseAnswer r).mirror.held, ∀ w, x.2 ≠ .response m w := by
  unfold State.loseAnswer
  rw [hdie, hreq]
  dsimp only
  refine ⟨fun hin => ?_, fun p x hx heq => ?_, fun x hx w heq => ?_⟩
  · have := (List.mem_filter.mp hin).2
    rw [hm] at this
    exact Bool.false_ne_true this
  · rw [Vector.getElem_map] at hx
    have := (List.mem_filter.mp hx).2
    rw [heq] at this
    dsimp only at this
    rw [hm] at this
    exact Bool.false_ne_true this
  · have := (List.mem_filter.mp hx).2
    rw [heq] at this
    dsimp only at this
    rw [hm] at this
    exact Bool.false_ne_true this

theorem mustDelay_deepSleep {s : State} {d : DieId} (h : (s.die d).pwr = .deepSleep) : s.mustDelay (.die d) = false := by
  unfold State.mustDelay
  dsimp only
  rw [h]
  rfl

theorem entryComplete_stays {s : State} {r : PwrReq} (hr : s.power.req = some r)
    (h : r.te = none ∨ ∃ te, r.te = some te ∧ s.clk.now < te) : exec .entryComplete s = .next s := by
  have hexec : exec .entryComplete s = execEntryComplete s := rfl
  rw [hexec, execEntryComplete, hr]
  refine congrArg Host.Outcome.next ?_
  dsimp only
  rcases h with h | ⟨te, hte, hlt⟩
  · rw [h]
  · rw [hte]
    exact if_neg (Nat.not_le.mpr hlt)

theorem entryComplete_due {s : State} {r : PwrReq} (hr : s.power.req = some r) {te : Tick} (hte : r.te = some te) (hle : te ≤ s.clk.now) :
    exec .entryComplete s = .next (s.completeEntry r te) := by
  have hexec : exec .entryComplete s = execEntryComplete s := rfl
  rw [hexec, execEntryComplete, hr]
  refine congrArg Host.Outcome.next ?_
  dsimp only
  rw [hte]
  exact if_pos hle

/-- The entry of a die at te, with the yo-yo wake of a level seen before it. -/
theorem completeEntry_die {s : State} {r : PwrReq} {d : DieId} (hd : r.die = some d) (te : Tick) {u : State}
    (hu : u = ((s.clearReq.sleepDie r.target d).settlePools d).raiseSrc .pwrEntry te (srcDie d) false [] none) :
    (r.yoyo = none → s.completeEntry r te = State.commit s u) ∧
    (∀ src, r.yoyo = some src → s.completeEntry r te = State.commit s
      (({ u.modDie d (fun k => { k with pwrBusy := true }) with power := { u.power with
          waking := some (src, some d, true)
          yoyoCnt := satInc u.power.yoyoCnt } } : State).raise s.active .yoyoWake te false (leBytes 1 src))) := by
  unfold State.completeEntry
  rw [hd]
  dsimp only
  rw [← hu]
  refine ⟨fun hy => by rw [hy], fun src hy => ?_⟩
  rw [hy]
  rfl

/-- The entry of the package at te. -/
theorem completeEntry_package {s : State} {r : PwrReq} (hd : r.die = none) (te : Tick) {u : State}
    (hu : u = (s.clearReq.sleepPackage r.target te).settlePackage) :
    (r.yoyo = none → s.completeEntry r te = State.commit s u) ∧
    (∀ src, r.yoyo = some src → s.completeEntry r te = State.commit s { u with power := { u.power with
      waking := some (src, none, true)
      yoyoCnt := satInc u.power.yoyoCnt
      heldEvs := u.power.heldEvs ++ [(.yoyoWake, te, leBytes 1 src)] } }) := by
  unfold State.completeEntry
  rw [hd]
  dsimp only
  rw [← hu]
  refine ⟨fun hy => by rw [hy], fun src hy => ?_⟩
  rw [hy]

end Sys2Proof
end

section
namespace Sys2Proof
open Machine

/-! ### Wake events by their instant (R333, R337) -/

theorem startWake_spec {s : State} (src : Nat) :
    ((s.power.st = .sleep ∨ s.power.st = .deepSleep) → s.power.waking = none →
      s.startWake src = { s with power := { s.power with waking := some (src, none, false) } }) ∧
    ((s.power.st ≠ .sleep ∧ s.power.st ≠ .deepSleep) ∨ s.power.waking ≠ none → s.startWake src = s) := by
  unfold State.startWake
  refine ⟨fun hst hw => if_pos ⟨hst, hw⟩, fun h => if_neg fun ⟨hst, hw⟩ => ?_⟩
  rcases h with ⟨h1, h2⟩ | h
  · exact hst.elim h1 h2
  · exact h hw

theorem wakeEvent_off {s : State} {src : Nat} (lv : Bool) (h : s.sourceOn src = false ∨ sourceActs src s.power.target = false) :
    s.wakeEvent src lv = s := by
  unfold State.wakeEvent
  refine if_pos ?_
  rcases h with h | h
  · rw [h, Bool.false_and, Bool.not_false]
  · rw [h, Bool.and_false, Bool.not_false]

/-- A wake event of a source that acts: while a handshake runs, in the commit window, in the power-down, and outside all of them. -/
theorem wakeEvent_acts {s : State} {src : Nat} (lv : Bool) (hon : s.sourceOn src = true) (hacts : sourceActs src s.power.target = true) :
    (∀ r, s.power.req = some r → r.tc = none → s.wakeEvent src lv = State.commit s (s.abortPower r src)) ∧
    (∀ r tc, s.power.req = some r → r.tc = some tc →
      (s.clk.now < tc → s.wakeEvent src lv = State.commit s (s.abortPower r src)) ∧
      (tc ≤ s.clk.now → s.clk.now < tc + 4 * us → (lv = true → r.yoyo = none → s.wakeEvent src lv =
          { s with power := { s.power with req := some { r with yoyo := some src } } }) ∧
        (lv = false ∨ r.yoyo ≠ none → s.wakeEvent src lv = s)) ∧
      (tc + 4 * us ≤ s.clk.now → s.wakeEvent src lv = (s.completeEntry r (tc + 4 * us)).startWake src)) ∧
    (s.power.req = none → s.power.step ≠ 0 → lv = false ∨ s.power.failure = true → s.wakeEvent src lv = s) ∧
    (s.power.req = none → s.power.step = 0 → s.wakeEvent src lv = s.startWake src) := by
  have hgo : ¬ (!(s.sourceOn src && sourceActs src s.power.target)) = true := by
    rw [hon, hacts]
    decide
  unfold State.wakeEvent
  rw [if_neg hgo]
  refine ⟨fun r hr htc => ?_, fun r tc hr htc => ?_, fun hr hstep h => ?_, fun hr hstep => ?_⟩
  · rw [hr]
    dsimp only
    rw [htc]
  · rw [hr]
    dsimp only
    rw [htc]
    dsimp only
    refine ⟨fun hlt => if_pos hlt, fun hle hlt => ⟨fun hlv hy => ?_, fun h => ?_⟩, fun hle => ?_⟩
    · rw [if_neg (Nat.not_lt.mpr hle), if_pos hlt, hlv, hy]
      rfl
    · rw [if_neg (Nat.not_lt.mpr hle), if_pos hlt]
      refine if_neg ?_
      rcases h with h | h
      · simp [h]
      · simp [h]
    · rw [if_neg (Nat.not_lt.mpr (Nat.le_trans (Nat.le_add_right ..) hle)), if_neg (Nat.not_lt.mpr hle)]
  · rw [hr]
    dsimp only
    rw [if_pos hstep]
    refine if_neg ?_
    rcases h with h | h <;> simp [h]
  · rw [hr]
    exact if_neg (not_not.mpr hstep)

theorem sourceActs_spec (src : Nat) : (sourceActs src .sleep = true ↔ src ≤ 3) ∧
    (sourceActs src .deepSleep = true ↔ src ≤ 1 ∨ src = 4 ∨ src = 5) ∧ (sourceActs src .off = true ↔ src = 0) := by
  simp [sourceActs, or_assoc]

/-! ### The sources (R333 to R336) -/

theorem wakeNEvent_spec {s t : State} {low : Bool} (ht : t = { s with power := { s.power with wakeN := low } }) :
    (low = false ∨ (s.sourceLevel 0 = false ∧ s.power.wakeN = true) → exec (.wakeNEvent low) s = .next t) ∧
    (low = true → (s.sourceLevel 0 = true ∨ s.power.wakeN = false) →
      (s.power.boot = .down → s.sourceOn 0 = true → exec (.wakeNEvent low) s = .next (t.startUp s.power.straps true)) ∧
      (s.power.boot = .down → s.sourceOn 0 = false → exec (.wakeNEvent low) s = .next t) ∧
      (s.power.boot ≠ .down → exec (.wakeNEvent low) s = .next (t.wakeEvent 0 (s.sourceLevel 0)))) := by
  have hexec : exec (.wakeNEvent low) s = execWakeNEvent low s := rfl
  rw [hexec, execWakeNEvent]
  dsimp only
  rw [← ht]
  refine ⟨fun h => congrArg Host.Outcome.next (if_pos ?_), fun hlow h => ?_⟩
  · rcases h with h | ⟨h1, h2⟩
    · rw [h]
      rfl
    · rw [h1, h2, Bool.not_true, Bool.or_false, Bool.and_false, Bool.not_false]
  · have hevent : ¬ (!(low && (s.sourceLevel 0 || !s.power.wakeN))) = true := by
      rcases h with h | h <;> simp [hlow, h]
    rw [if_neg hevent]
    refine ⟨fun hb hon => ?_, fun hb hon => ?_, fun hb => ?_⟩
    · rw [if_pos hb, if_pos hon]
    · rw [if_pos hb, if_neg (Bool.eq_false_iff.mp hon)]
    · rw [if_neg hb]

theorem alarmWake_spec {s : State} : (s.alarmSeen = true → exec .alarmWake s = .next (s.wakeEvent 1 (s.sourceLevel 1))) ∧
    (s.alarmSeen = false → exec .alarmWake s = .next s) := by
  have hexec : exec .alarmWake s = execAlarmWake s := rfl
  rw [hexec, execAlarmWake]
  exact ⟨fun h => by rw [if_pos h], fun h => by rw [if_neg (Bool.eq_false_iff.mp h)]⟩

theorem alarmSeen_early {s : State} (h : s.alarmClock < s.core.pwr.alarm) : s.alarmSeen = false := by
  unfold State.alarmSeen
  dsimp only
  rw [decide_eq_false (Nat.not_le.mpr h), Bool.false_and]
theorem alarmSeen_level {s : State} (h : s.core.pwr.alarm ≤ s.alarmClock) (hlevel : s.sourceLevel 1 = true) : s.alarmSeen = true := by
  unfold State.alarmSeen
  dsimp only
  rw [decide_eq_true_eq.mpr h, hlevel, Bool.true_or, Bool.and_self]
theorem alarmClock_awake {s : State} (h : s.power.st ≠ .deepSleep) : s.alarmClock = s.clk.now := by
  unfold State.alarmClock
  split
  next hst _ => exact absurd hst h
  next => rfl

theorem portThere_false_iff (s : State) (p : PortId) : s.portThere p = false ↔ p = 1 ∧ s.variant.dPart = true ∧ s.variant.dual = false := by
  simp [State.portThere, and_assoc]

/-- The rows of a port whose PHY is not there do nothing. -/
theorem portAbsent_stays {s : State} {p : PortId} (h : s.portThere p = false) :
    (∀ b, exec (.linkEnergyWake p b) s = .next s) ∧ ∀ b pl, exec (.wakePattern p b pl) s = .next s := by
  have henergy : ∀ b, exec (.linkEnergyWake p b) s = execLinkEnergyWake p b s := fun _ => rfl
  have hpattern : ∀ b pl, exec (.wakePattern p b pl) s = execWakePattern p b pl s := fun _ _ => rfl
  refine ⟨fun b => ?_, fun b pl => ?_⟩
  · rw [henergy, execLinkEnergyWake]
    refine congrArg Host.Outcome.next (if_pos ?_)
    rw [h, Bool.not_false]
  · rw [hpattern, execWakePattern, h]
    rfl

/-- The port has been without energy for 10 ms of the sleep (R334). -/
def energyGone (s : State) (x : NetPort) : Bool :=
  s.power.sleepFrom.isSome && s.power.req.isNone && x.energyOff.any fun t => decide (t + 10 * ms ≤ s.clk.elapsed)

/-- Energy on a port that is there: a wake event where the port is armed. -/
theorem linkEnergy_on {s : State} {p : PortId} {x : NetPort} (hx : x = s.net.ports[p.val]) {v : Option Nat → State}
    (hv : ∀ o, v o = { s with net := { s.net with ports := vmod s.net.ports p fun y => { y with energyOff := o } } })
    (hthere : s.portThere p = true) : exec (.linkEnergyWake p true) s = .next
      (if !x.linkAtTq || energyGone s x then (v none).wakeEvent (2 + p.val) true else v none) := by
  subst hx
  have hexec : exec (.linkEnergyWake p true) s = execLinkEnergyWake p true s := rfl
  have hhere : ¬ (!s.portThere p) = true := by simp [hthere]
  rw [hexec, execLinkEnergyWake, hv]
  unfold energyGone
  dsimp only
  rw [if_neg hhere, if_pos rfl]
  cases (s.net.ports[p.val]).energyOff with
  | none => rfl
  | some t => rw [Option.any_some]

theorem energyGone_false {s : State} {x : NetPort} (h : s.power.sleepFrom = none ∨ s.power.req ≠ none ∨ x.energyOff = none) :
    energyGone s x = false := by
  unfold energyGone
  rcases h with h | h | h
  · rw [h]
    rfl
  · rw [Option.isNone_eq_false_iff.mpr (Option.isSome_iff_ne_none.mpr h), Bool.and_false, Bool.false_and]
  · rw [h, Option.any_none, Bool.and_false]
theorem energyGone_since {s : State} {x : NetPort} (hs : s.power.sleepFrom ≠ none) (hr : s.power.req = none) {t : Nat}
    (ht : x.energyOff = some t) : energyGone s x = decide (t + 10 * ms ≤ s.clk.elapsed) := by
  unfold energyGone
  rw [Option.isSome_iff_ne_none.mpr hs, hr, ht, Option.any_some, Option.isNone_none, Bool.true_and, Bool.true_and]

/-- The absence of energy is noted once, in Sleep. -/
theorem linkEnergy_off {s : State} {p : PortId} {x : NetPort} (hx : x = s.net.ports[p.val]) {v : Option Nat → State}
    (hv : ∀ o, v o = { s with net := { s.net with ports := vmod s.net.ports p fun y => { y with energyOff := o } } }) :
    (s.portThere p = true → s.power.st = .sleep → x.energyOff = none → exec (.linkEnergyWake p false) s = .next (v (some s.clk.elapsed))) ∧
    (s.power.st ≠ .sleep ∨ x.energyOff ≠ none → exec (.linkEnergyWake p false) s = .next s) := by
  subst hx
  have hexec : exec (.linkEnergyWake p false) s = execLinkEnergyWake p false s := rfl
  rw [hexec, execLinkEnergyWake, hv]
  refine ⟨fun hthere hst ho => ?_, fun h => congrArg Host.Outcome.next ?_⟩
  · have hhere : ¬ (!s.portThere p) = true := by simp [hthere]
    exact congrArg Host.Outcome.next ((if_neg hhere).trans ((if_neg Bool.false_ne_true).trans (if_pos ⟨hst, ho⟩)))
  · cases hthere : s.portThere p
    · rfl
    · refine (if_neg Bool.false_ne_true).trans ((if_neg Bool.false_ne_true).trans (if_neg fun ⟨hst, ho⟩ => ?_))
      exact h.elim (fun h => h hst) fun h => h ho

theorem wakePattern_spec {s : State} {p : PortId} {b : Bool} {pl : List Byte} :
    (s.portThere p = true → (s.net.ports[p.val]).link = true → b = true → holdsToken s.core.pwr.token pl = true →
      exec (.wakePattern p b pl) s = .next (s.wakeEvent (4 + p.val) false)) ∧
    ((s.net.ports[p.val]).link = false ∨ b = false ∨ holdsToken s.core.pwr.token pl = false → exec (.wakePattern p b pl) s = .next s) := by
  have hexec : exec (.wakePattern p b pl) s = execWakePattern p b pl s := rfl
  rw [hexec, execWakePattern]
  refine ⟨fun h1 h2 h3 h4 => congrArg Host.Outcome.next (if_pos ?_), fun h => congrArg Host.Outcome.next (if_neg ?_)⟩
  · rw [h1, h2, h3, h4]
    rfl
  · rcases h with h | h | h <;> simp [h]

/-! ### The end of a wake (R338) -/

theorem dieReady_false_iff (s : State) (d : DieId) :
    s.dieReady d = false ↔ (s.die d).pwr = .deepSleep ∧ (s.lane s.active d).st = .training := by
  simp [State.dieReady]

theorem wakeComplete_die {s : State} {src : Nat} {d : DieId} {y : Bool} (hw : s.power.waking = some (src, some d, y)) :
    (s.dieReady d = true → exec .wakeComplete s = .next (State.commit s
      (State.wakeDies { s with power := { s.power with waking := none, lastWake := (src, y) } } [d]))) ∧
    (s.dieReady d = false → exec .wakeComplete s = .next s) := by
  have hexec : exec .wakeComplete s = execWakeComplete s := rfl
  rw [hexec, execWakeComplete, hw]
  exact ⟨fun h => congrArg Host.Outcome.next (if_pos h), fun h => congrArg Host.Outcome.next (if_neg (Bool.eq_false_iff.mp h))⟩

theorem wakeComplete_package {s : State} {src : Nat} {y : Bool} (hw : s.power.waking = some (src, none, y)) :
    exec .wakeComplete s = .next (State.commit s
      (if s.power.st = .sleep ∨ s.power.st = .deepSleep then s.wakePackage src y else s.wakeReady)) := by
  have hexec : exec .wakeComplete s = execWakeComplete s := rfl
  rw [hexec, execWakeComplete, hw]

/-- The package's wake ends with the last of its dies. -/
theorem wakeReady_spec {s t : State} (ht : t = s.wakeDies (s.stillLow.filter s.dieReady)) :
    (t.stillLow = [] → s.wakeReady = { t with power := { t.power with waking := none } }) ∧ (t.stillLow ≠ [] → s.wakeReady = t) := by
  unfold State.wakeReady
  rw [← ht]
  exact ⟨fun h => if_pos (List.isEmpty_iff.mpr h), fun h => if_neg fun he => h (List.isEmpty_iff.mp he)⟩

/-- Settles O52: the rows of the handshake, of the entry and of the wake by their own cases, and what each wake source asks. -/
theorem powerHandshakeAndWake : Obligations.PowerHandshakeAndWake := by
  unfold Obligations.PowerHandshakeAndWake
  refine ⟨fun s => ⟨handshake_none, fun r hr => ⟨fun b a => ⟨handshakeAnswer_stays hr a, handshakeAnswer_asked hr a⟩,
      handshakeTimeout_stays hr, fun htc htime b hb => handshakeTimeout_due hr htc htime hb, commitStart_stays hr,
      fun tc htc hte hle => commitStart_due hr htc hte hle, loseAnswer_keeps, fun q m hd hq hm => loseAnswer_gone hd hq hm,
      fun d hd => mustDelay_deepSleep hd, fun hte => entryComplete_stays hr (.inl hte), fun te hte =>
      ⟨fun hlt => entryComplete_stays hr (.inr ⟨te, hte, hlt⟩), fun hle => ?_⟩⟩⟩, ⟨fun s => ?_, fun s src lv =>
      ⟨wakeEvent_off lv, wakeEvent_acts lv, (startWake_spec src).1, (startWake_spec src).2⟩, sourceActs_spec⟩⟩
  · rw [entryComplete_due hr hte hle]
    refine ⟨fun d hd u hu => ?_, fun hd u hu => ?_⟩
    · obtain ⟨hplain, hyoyo⟩ := completeEntry_die hd te hu
      exact ⟨fun hy => congrArg Host.Outcome.next (hplain hy), fun src hy => congrArg Host.Outcome.next (hyoyo src hy)⟩
    · obtain ⟨hplain, hyoyo⟩ := completeEntry_package hd te hu
      exact ⟨fun hy => congrArg Host.Outcome.next (hplain hy), fun src hy => congrArg Host.Outcome.next (hyoyo src hy)⟩
  · refine ⟨fun low t ht => wakeNEvent_spec ht, alarmWake_spec.1, alarmWake_spec.2, alarmSeen_early, alarmSeen_level, alarmClock_awake,
      fun p x hx v hv => ⟨portThere_false_iff s p, portAbsent_stays, fun hthere hlink => ?_, fun hthere hlink hs hr t ht =>
        ⟨fun hle => ?_, fun hlt => ?_⟩, fun hthere hlink h => ?_, (linkEnergy_off hx hv).1, (linkEnergy_off hx hv).2⟩,
      fun p b pl => wakePattern_spec, fun hw => ?_, fun src d y hw => wakeComplete_die hw, dieReady_false_iff s,
      fun src y hw => ⟨fun hst => ?_, fun hsl hdeep t ht => ⟨fun he => ?_, fun he => ?_⟩⟩⟩
    · rw [linkEnergy_on hx hv hthere, hlink]
      rfl
    · rw [linkEnergy_on hx hv hthere, energyGone_since hs hr ht, decide_eq_true_eq.mpr hle, Bool.or_true, if_pos rfl]
    · rw [linkEnergy_on hx hv hthere, energyGone_since hs hr ht, hlink, decide_eq_false (Nat.not_le.mpr hlt)]
      rfl
    · rw [linkEnergy_on hx hv hthere, energyGone_false h, hlink]
      rfl
    · have hexec : exec .wakeComplete s = execWakeComplete s := rfl
      rw [hexec, execWakeComplete, hw]
    · rw [wakeComplete_package hw, if_pos hst]
    · rw [wakeComplete_package hw, if_neg fun h => h.elim hsl hdeep, (wakeReady_spec ht).1 he]
    · rw [wakeComplete_package hw, if_neg fun h => h.elim hsl hdeep, (wakeReady_spec ht).2 he]

end Sys2Proof
end

section
namespace Sys2Proof
open Machine

/-! ### Power-up (R342, R422) -/

theorem powerUp_off {s : State} {st : Straps} (h : s.power.boot = .unpowered ∨ s.power.boot = .down) :
    exec (.powerUp st) s = .next (if st.test then s.holdInReset st else s.startUp st false) := by
  have hexec : exec (.powerUp st) s = execPowerUp st s := rfl
  rw [hexec, execPowerUp, if_pos h]
theorem powerUp_on {s : State} {st : Straps} (h1 : s.power.boot ≠ .unpowered) (h2 : s.power.boot ≠ .down) :
    exec (.powerUp st) s = .next s := by
  have hexec : exec (.powerUp st) s = execPowerUp st s := rfl
  rw [hexec, execPowerUp, if_neg fun h => h.elim h1 h2]

/-- In reset no hub runs, and each keeps its non-volatile store. -/
theorem holdInReset_hub (s : State) (st : Straps) (h : HubId) :
    ((s.holdInReset st).hub h).up = false ∧ ((s.holdInReset st).hub h).nv = (s.hub h).nv := by
  have hhub : (s.holdInReset st).hub h =
      { (s.hub h).boot (s.hub h).present (if h = 0 then .active else .syncing) (s.hub h).nv with up := false } :=
    vmap_at s.hubs _ h
  rw [hhub]
  exact ⟨rfl, rfl⟩

theorem powerUpComplete_spec {s : State} : (s.power.boot ≠ .starting → exec .powerUpComplete s = .next s) ∧
    (s.power.boot = .starting → ∀ t, t = State.logHeld { s with power := { s.power with boot := .complete, st := .run } } →
      exec .powerUpComplete s = .next (t.presentDies.foldl State.settlePools t.settlePackage)) := by
  have hexec : exec .powerUpComplete s = execPowerUpComplete s := rfl
  rw [hexec, execPowerUpComplete]
  refine ⟨fun h => by rw [if_neg h], fun h t ht => ?_⟩
  rw [if_pos h, ht]

/-! ### Power failure and power-down (R343, R344, R348) -/

theorem putFld_two (v : Nat) : putFld v 4 2 = 16 * (v % 4) := by
  rw [putFld, Nat.shiftLeft_eq, Nat.mul_comm]
  rfl
theorem putBit_six (b : Bool) : putBit b 6 = 64 * b.toNat := by
  cases b <;> rfl
theorem putBit_three (b : Bool) : putBit b 3 = 8 * b.toNat := by
  cases b <;> rfl

/-- DOWN_EVENT holds the step in its low bits and the cause in bits 5 and 4. -/
theorem downWord_spec {n c : Nat} (hn : n ≤ 5) (hc : c ≤ 3) (y : Bool) : downWord n c y % 8 = n ∧ downWord n c y / 16 % 4 = c := by
  have hstep : putFld n 0 3 = n := by
    rw [putFld, Nat.shiftLeft_zero]
    exact Nat.mod_eq_of_lt (by omega)
  have hbit := Bool.toNat_le (n == 5)
  rw [downWord, putBit_six, putFld_two, putBit_three, hstep]
  omega

theorem noteDown_spec (s : State) {n c : Nat} (hn : n ≤ 5) (hc : c ≤ 3) : (s.noteDown n c).power.step = n ∧
    (s.noteDown n c).power.downEvent % 8 = n ∧ (s.noteDown n c).power.downEvent / 16 % 4 = c ∧ (s.noteDown n c).core = s.core ∧
    (s.noteDown n c).dies = s.dies :=
  ⟨rfl, (downWord_spec hn hc _).1, (downWord_spec hn hc _).2, rfl, rfl⟩

theorem powerFailure_off {s : State} : (s.power.boot = .unpowered → exec .powerFailure s = .next s) ∧
    (s.power.boot = .heldInReset ∨ s.power.boot = .down →
      exec .powerFailure s = .next { s with power := { s.power with boot := .unpowered } }) := by
  have hexec : exec .powerFailure s = execPowerFailure s := rfl
  rw [hexec, execPowerFailure]
  refine ⟨fun h => by rw [h], fun h => ?_⟩
  rcases h with h | h
  · rw [h]
  · rw [h]

/-- The word of a power-down that a failure joins: what it records stands, and a requested cause becomes requested and failing. -/
theorem failingWord_spec (e : Nat) (y : Bool) {w : Nat}
    (hw : w = e % 16 + putFld (if e / 16 % 4 = 1 then 3 else e / 16 % 4) 4 2 + putBit y 6) :
    w % 16 = e % 16 ∧ (e / 16 % 4 = 1 → w / 16 % 4 = 3) := by
  rw [putFld_two, putBit_six] at hw
  refine ⟨by omega, fun h => ?_⟩
  rw [if_pos h] at hw
  omega

theorem powerFailure_on {s : State} (h : s.power.boot = .starting ∨ s.power.boot = .complete) :
    (s.power.step = 0 → exec .powerFailure s = .next (State.beginDown
      { s with power := { s.power with req := none, waking := none, failure := true } } 2)) ∧
    (s.power.step ≠ 0 → ∃ w, exec .powerFailure s = .next { s with power := { s.power with failure := true, downEvent := w } } ∧
      w % 16 = s.power.downEvent % 16 ∧ (s.power.downEvent / 16 % 4 = 1 → w / 16 % 4 = 3)) := by
  have hexec : exec .powerFailure s = execPowerFailure s := rfl
  rw [hexec, execPowerFailure]
  rcases h with h | h
  all_goals
    rw [h]
    dsimp only
    refine ⟨fun hstep => congrArg Host.Outcome.next (if_pos hstep), fun hstep => ?_⟩
    rw [if_neg hstep]
    exact ⟨_, rfl, failingWord_spec _ _ rfl⟩

theorem powerDownStep_stays {s : State} (h : (s.power.step = 0 ∨ 5 ≤ s.power.step) ∨
    (s.power.step = 2 ∧ s.power.failure = false ∧ s.clk.elapsed < s.power.stepAt + ms)) : exec .powerDownStep s = .next s := by
  have hexec : exec .powerDownStep s = execPowerDownStep s := rfl
  rw [hexec, execPowerDownStep]
  refine congrArg Host.Outcome.next ?_
  dsimp only
  rcases h with h | ⟨h, hfail, hlt⟩
  · split
    next h1 => omega
    next h2 => omega
    next h3 => omega
    next h4 => omega
    next => rfl
  · rw [h]
    refine if_neg ?_
    rw [hfail, Bool.false_or, decide_eq_true_eq]
    exact Nat.not_le.mpr hlt

theorem powerDownStep_holds {s : State} (h : s.power.step = 1) (hfail : s.power.failure = false) :
    exec .powerDownStep s = .next (s.presentDies.foldl (fun (x : State) d =>
      x.modDie d fun k => k.setCauses d (s.dq d) 5 allC) (s.noteDown 2 (s.power.downEvent / 16 % 4))) := by
  have hexec : exec .powerDownStep s = execPowerDownStep s := rfl
  rw [hexec, execPowerDownStep, h]
  exact congrArg Host.Outcome.next (if_neg (Bool.eq_false_iff.mp hfail))

/-- Step 3: isolated power goes, 1 ms after the outputs are held, or at once with a failure. -/
theorem powerDownStep_unpowers {s : State} (h : (s.power.step = 1 ∧ s.power.failure = true) ∨ (s.power.step = 2 ∧
    (s.power.failure = true ∨ s.power.stepAt + ms ≤ s.clk.elapsed))) :
    exec .powerDownStep s = .next { s.noteDown 3 (s.power.downEvent / 16 % 4) with dies := s.dies.map Die.unpower } := by
  have hexec : exec .powerDownStep s = execPowerDownStep s := rfl
  rcases h with ⟨h, hfail⟩ | ⟨h, hdue⟩
  · rw [hexec, execPowerDownStep, h]
    exact congrArg Host.Outcome.next (if_pos hfail)
  · rw [hexec, execPowerDownStep, h]
    refine congrArg Host.Outcome.next (if_pos ?_)
    rwa [Bool.or_eq_true, decide_eq_true_eq]

theorem powerDownStep_flushes {s : State} (h : s.power.step = 3) {t : State} (ht : t = s.noteDown 4 (s.power.downEvent / 16 % 4)) :
    exec .powerDownStep s = .next { t with hubs := t.hubs.map fun (h : Hub) =>
      if h.present then { h with log := h.log.flush s.clk.elapsed } else h } := by
  have hexec : exec .powerDownStep s = execPowerDownStep s := rfl
  rw [hexec, execPowerDownStep, h, ht]
  rfl
theorem powerDownStep_rails {s : State} (h : s.power.step = 4) :
    exec .powerDownStep s = .next (s.noteDown 5 (s.power.downEvent / 16 % 4)).railsDown := by
  have hexec : exec .powerDownStep s = execPowerDownStep s := rfl
  rw [hexec, execPowerDownStep, h]
  rfl

/-- With the rails down nothing runs, unless WAKE_N restarts the package at once. -/
theorem railsDown_spec {s : State} (h : s.power.failure = true ∨ bit (BitVec.ofNat 32 s.power.downEvent) 6 = false) :
    s.railsDown.power.st = .off ∧ s.railsDown.power.step = 0 ∧
    s.railsDown.power.boot = (if s.power.failure then .unpowered else .down) ∧ ∀ h, (s.railsDown.hub h).up = false := by
  have hstay : ¬ (!s.power.failure && bit (BitVec.ofNat 32 s.power.downEvent) 6) = true := by
    rcases h with h | h <;> simp [h]
  unfold State.railsDown
  rw [if_neg hstay]
  refine ⟨rfl, rfl, rfl, fun h => ?_⟩
  rw [State.hub]
  dsimp only
  rw [Vector.getElem_map]

/-- Settles O53: the rows of power-up, of a power failure and of each step of a power-down. -/
theorem powerUpAndDown : Obligations.PowerUpAndDown := by
  unfold Obligations.PowerUpAndDown
  refine ⟨fun s => ⟨fun st => ⟨fun hoff => ⟨fun htest => ⟨?_, rfl, rfl, rfl, rfl, rfl, holdInReset_hub s st⟩, fun htest => ?_⟩,
      powerUp_on⟩, powerUpComplete_spec.1, powerUpComplete_spec.2, powerFailure_off.1, powerFailure_off.2, powerFailure_on, ?_⟩,
    fun s n c hn hc => noteDown_spec s hn hc, fun s => railsDown_spec⟩
  · rw [powerUp_off hoff, if_pos htest]
  · rw [powerUp_off hoff, if_neg (Bool.eq_false_iff.mp htest)]
  · rintro c rfl
    exact ⟨fun h => powerDownStep_stays (.inl h), powerDownStep_holds, fun h1 h2 h3 => powerDownStep_stays (.inr ⟨h1, h2, h3⟩),
      powerDownStep_unpowers, fun h t ht => powerDownStep_flushes h ht, powerDownStep_rails⟩

end Sys2Proof
end

section
namespace Sys2Proof
open Machine

/-! ### A read of one register (R327, R383) -/

/-- `RegRead` of one aligned register: a page of an absent block is refused, and any other location is read. -/
theorem regRead_one {s : State} {r : Req} {addr : Word} (hruns : Runs s r 0x0010) (haddr : addr.toNat % 4 = 0) :
    (s.locate addr.toNat = .absent → exec (.regRead r addr 1#16) s = .next (replied s s r (resp 0x0010 .badArg []))) ∧
    (s.locate addr.toNat ≠ .absent → exec (.regRead r addr 1#16) s = .next (replied s (s.readAddr addr.toNat).1 r
      (resp 0x0010 (if s.unpowered addr.toNat then .blockOff else .ok) (leBytes 4 (s.readAddr addr.toNat).2.toNat)))) := by
  have hexec : exec (.regRead r addr 1#16) s = execRegRead r addr 1#16 s := rfl
  have hfit : addr.toNat + 4 * 1 ≤ 2 ^ 32 := by
    have := addr.isLt
    omega
  have hrun : runOf addr.toNat 1 = [addr.toNat] := rfl
  have hok : s.runOk addr.toNat 1 = (s.locate addr.toNat != .absent) := by
    rw [State.runOk, hrun, haddr, decide_eq_true hfit]
    simp
  have hone : (1#16).toNat = 1 := rfl
  rw [hexec, execRegRead, command_of_runs hruns, hone, hok, hrun]
  refine ⟨fun h => ?_, fun h => ?_⟩
  · rw [h]
    rfl
  · rw [if_pos (bne_iff_ne.mpr h)]
    simp only [State.readRun, List.any_cons, List.any_nil, Bool.or_false, List.flatMap_cons, List.flatMap_nil, List.append_nil]

theorem readAddr_reserved {s : State} {addr : Nat} (h : s.locate addr = .reserved) :
    s.readAddr addr = (s, 0#32) ∧ s.unpowered addr = false := by
  rw [State.readAddr, State.unpowered, h]
  exact ⟨rfl, rfl⟩
theorem readAddr_off {s : State} {addr off : Nat} {pg : PageRef} (h : s.locate addr = .page pg off) (hon : s.locOn pg off = false) :
    s.readAddr addr = (s, offWord) ∧ s.unpowered addr = true := by
  rw [State.readAddr, State.unpowered, h]
  dsimp only
  rw [hon]
  exact ⟨rfl, rfl⟩
theorem readAddr_on {s : State} {addr off : Nat} {pg : PageRef} (h : s.locate addr = .page pg off) (hon : s.locOn pg off = true)
    (hheard : s.pageHeard pg off = true) : s.readAddr addr = s.readReg pg off ∧ s.unpowered addr = false := by
  rw [State.readAddr, State.unpowered, h]
  dsimp only
  rw [hon, hheard]
  exact ⟨rfl, rfl⟩

/-! ### Latched partners (R25, R30) -/

theorem assoc_assocSet {α : Type} (l : List (Nat × α)) (k o : Nat) (v : α) :
    assoc (assocSet l k v) o = if o = k then some v else assoc l o := by
  unfold assoc assocSet
  by_cases h : o = k
  · subst h
    simp
  · have hne : (k == o) = false := beq_eq_false_iff_ne.mpr (Ne.symm h)
    rw [if_neg h, List.find?_cons, hne, List.find?_filter]
    refine congrArg _ (congrArg (fun p => List.find? p l) (funext fun x => ?_))
    by_cases hx : x.1 = o
    · simp [hx, h]
    · simp [hx]

/-- A list of keys set in turn: each of them holds its value, and every other key holds what it held. -/
theorem assoc_foldl_assocSet {α : Type} (g : Nat → α) (ps : List Nat) (l : List (Nat × α)) (o : Nat) :
    assoc (ps.foldl (fun l o => assocSet l o (g o)) l) o = if o ∈ ps then some (g o) else assoc l o := by
  induction ps generalizing l with
  | nil => simp
  | cons a ps ih =>
    rw [List.foldl_cons, ih, assoc_assocSet]
    by_cases hps : o ∈ ps
    · rw [if_pos hps, if_pos (List.mem_cons_of_mem a hps)]
    · by_cases ha : o = a
      · subst ha
        rw [if_neg hps, if_pos rfl, if_pos List.mem_cons_self]
      · rw [if_neg hps, if_neg ha, if_neg fun h => (List.mem_cons.mp h).elim ha hps]

theorem modHdr_congr {s : State} {p : PageRef} {f g : PageHdr → PageHdr} (h : f (s.hdr p) = g (s.hdr p)) : s.modHdr p f = s.modHdr p g := by
  cases p with
  | hub k r => exact modHub_congr s k (congrArg (fun v => { s.hub k with hdr := v }) (vmod_congr _ r h))
  | die d r => exact modDie_congr s d (congrArg (fun v => { s.die d with hdr := v }) (vmod_congr _ r h))

/-- A read changes its page's latches alone, of which it sets the partners of the offset. -/
theorem readReg_latches (s : State) (pg : PageRef) (off : Nat) :
    ∃ l, (s.readReg pg off).1 = s.modHdr pg (fun h => { h with latch := l }) ∧
      (∀ o ∈ (latchOf pg off).1, assoc l o = some (s.current pg o)) ∧
      (∀ o, o ∉ (latchOf pg off).1 → assoc l o = assoc (s.hdr pg).latch o) := by
  refine ⟨(latchOf pg off).1.foldl (fun l o => assocSet l o (s.current pg o)) (s.hdr pg).latch, ?_, fun o ho => ?_, fun o ho => ?_⟩
  · unfold State.readReg
    dsimp only
    cases hps : (latchOf pg off).1 with
    | nil => exact (modHdr_of_fixed rfl).symm
    | cons a ps => exact modHdr_congr rfl
  · rw [assoc_foldl_assocSet, if_pos ho]
  · rw [assoc_foldl_assocSet, if_neg ho]

theorem readReg_unlatching {s : State} {pg : PageRef} {off : Nat} (h : (latchOf pg off).1 = []) : (s.readReg pg off).1 = s := by
  unfold State.readReg
  rw [h]
  rfl
theorem readReg_latched {s : State} {pg : PageRef} {off : Nat} {v : Word} (h : assoc (s.hdr pg).latch off = some v) :
    (s.readReg pg off).2 = v := by
  unfold State.readReg
  dsimp only
  rw [h]
theorem readReg_unlatched {s : State} {pg : PageRef} {off : Nat} (h : assoc (s.hdr pg).latch off = none) :
    (s.readReg pg off).2 = if zeroLatched pg off then 0#32 else s.current pg off := by
  unfold State.readReg
  dsimp only
  rw [h]

end Sys2Proof
end

section
namespace Sys2Proof
open Machine

/-! ### The common header (R399 to R406) -/

theorem putFld_of_lt {v n : Nat} (lo : Nat) (h : v < 2 ^ n) : putFld v lo n = v * 2 ^ lo := by
  rw [putFld, Nat.mod_eq_of_lt h, Nat.shiftLeft_eq]

theorem pageId_hub (h : HubId) (r : Fin 12) : pageId (.hub h r) = (0x100 + r.val) * 65536 + h.val * 256 + 1 := by
  have hr := r.isLt
  have hh := h.isLt
  rw [pageId, putFld_of_lt 16 (by omega), putFld_of_lt 8 (by omega)]
  rfl
theorem pageId_die (d : DieId) : pageId (.die d 0) = 0x200 * 65536 + d.val * 256 + 1 := by
  have hd := d.isLt
  have hid : pageId (.die d 0) = putFld 0x200 16 16 + putFld d.val 8 8 + 1 := rfl
  rw [hid, putFld_of_lt 16 (by decide), putFld_of_lt 8 (by omega)]
  rfl
theorem pageId_channel (ch : Chan) : pageId (.die ch.die (chPage ch.c)) = 0x201 * 65536 + (16 * ch.die.val + ch.c.val) * 256 + 1 := by
  have hd := ch.die.isLt
  have hc := ch.c.isLt
  have hid : pageId (.die ch.die (chPage ch.c)) = putFld 0x201 16 16 + putFld (16 * ch.die.val + ch.c.val) 8 8 + 1 := by
    simp only [pageId, chPage, Nat.add_sub_cancel_left]
    rw [if_neg (by omega), if_pos (by omega)]
  rw [hid, putFld_of_lt 16 (by decide), putFld_of_lt 8 (by omega)]
  rfl

theorem chPage_val (c : ChanId) : (chPage c).val = 1 + c.val := rfl

theorem pageCaps_channel (s : State) (ch : Chan) :
    s.pageCaps (.die ch.die (chPage ch.c)) = 0x3FFF + if (s.lane s.active ch.die).version = 2 then 65536 else 0 := by
  have hc := ch.c.isLt
  have hval := chPage_val ch.c
  have h0 : ¬ (chPage ch.c).val = 0 := by omega
  have h16 : (chPage ch.c).val ≤ 16 := by omega
  rw [State.pageCaps, if_neg h0, if_pos h16, putBit]
  simp only [beq_iff_eq]
  rfl

/-- The channel of a channel page is the page's own. -/
theorem channel_chPage (ch : Chan) (h : (chPage ch.c).val - 1 < 16) : (⟨(chPage ch.c).val - 1, h⟩ : ChanId) = ch.c :=
  Fin.ext (Nat.add_sub_cancel_left ..)

theorem pageEn_channel (s : State) (ch : Chan) : s.pageEn (.die ch.die (chPage ch.c)) = decide ((s.chan ch).mode ≠ 0) := by
  have hc := ch.c.isLt
  have hval := chPage_val ch.c
  have hpage : 1 ≤ (chPage ch.c).val ∧ (chPage ch.c).val ≤ 16 := by omega
  rw [State.pageEn, dif_pos hpage, channel_chPage, State.chan_eq]
  by_cases h : (s.chan ch).mode = 0 <;> simp [h]

/-- The words of PAGE_CTRL and PAGE_STATUS (R402, R403). -/
def pageCtrlWord (frozen en : Bool) : Word := BitVec.ofNat 32 (putBit frozen 1 + putBit en 0)
def pageStatusWord (coast err locked frozen powered : Bool) : Word :=
  BitVec.ofNat 32 (putBit coast 8 + putBit err 4 + putBit locked 3 + putBit frozen 2 + putBit powered 1 + 1)

theorem pageCtrlWord_bits : ∀ frozen en : Bool, bit (pageCtrlWord frozen en) 0 = en ∧ bit (pageCtrlWord frozen en) 1 = frozen ∧
    bit (pageCtrlWord frozen en) 2 = false := by
  decide
theorem pageStatusWord_bits : ∀ coast err locked frozen powered : Bool, bit (pageStatusWord coast err locked frozen powered) 0 = true ∧
    bit (pageStatusWord coast err locked frozen powered) 2 = frozen ∧ bit (pageStatusWord coast err locked frozen powered) 3 = locked ∧
    bit (pageStatusWord coast err locked frozen powered) 4 = err := by
  decide

theorem current_pageId (s : State) (pg : PageRef) : s.current pg 0x00 = BitVec.ofNat 32 (pageId pg) := rfl
theorem current_pageCaps (s : State) (pg : PageRef) : s.current pg 0x04 = BitVec.ofNat 32 (s.pageCaps pg) := rfl
theorem current_pageCtrl (s : State) (pg : PageRef) : s.current pg 0x08 = pageCtrlWord (s.hdr pg).frozen.isSome (s.pageEn pg) := rfl
theorem current_pageStatus (s : State) (pg : PageRef) : ∃ coast powered, s.current pg 0x0C =
    pageStatusWord coast ((s.hdr pg).err.count != 0) (s.hdr pg).locked (s.hdr pg).frozen.isSome powered := ⟨_, _, rfl⟩
theorem current_locked (s : State) (pg : PageRef) : s.current pg 0x28 = if (s.hdr pg).locked then 1#32 else 0#32 := by
  have hword : s.current pg 0x28 = BitVec.ofNat 32 (putBit (s.hdr pg).locked 0) := rfl
  rw [hword]
  cases (s.hdr pg).locked <;> rfl

/-- The rest of the header is reserved. -/
theorem current_headerRest (s : State) (pg : PageRef) {off : Nat} (h1 : 0x30 ≤ off) (h2 : off < 0x40) : s.current pg off = 0#32 := by
  have hnone : (s.headerRegs pg).find? (·.off == off) = none := by
    refine List.find?_eq_none.mpr fun x hx => ?_
    simp only [State.headerRegs, ro, roW, rw, rwW, List.mem_cons, List.not_mem_nil, or_false] at hx
    rw [beq_iff_eq]
    rcases hx with h | h | h | h | h | h | h | h | h | h | h | h <;> rw [h] <;> dsimp only <;> omega
  rw [State.current, if_pos h2, hnone]

/-! ### Block registers (R397, R402) -/

theorem current_frozen {s : State} {pg : PageRef} {l : List (Nat × Word)} {off : Nat} {v : Word} (hl : (s.hdr pg).frozen = some l)
    (hoff : 0x40 ≤ off) (hv : assoc l off = some v) : s.current pg off = v := by
  rw [State.current, if_neg (Nat.not_lt.mpr hoff), hl, Option.bind_some, hv]

/-- A page that is not frozen shows its registers, and zero where it has none. -/
theorem current_block {s : State} {pg : PageRef} {off : Nat} (hfrozen : (s.hdr pg).frozen = none) (hoff : 0x40 ≤ off) :
    s.current pg off = ((s.pageRegs pg).find? (·.off == off)).elim 0#32 Reg.val := by
  rw [State.current, if_neg (Nat.not_lt.mpr hoff), hfrozen, Option.bind_none]
  dsimp only
  cases (s.pageRegs pg).find? (·.off == off) <;> rfl

theorem find_rwArr_above {o off : Nat} {l : List Word} (h : o + 4 * l.length ≤ off) : (rwArr o l).find? (·.off == off) = none := by
  refine List.find?_eq_none.mpr fun x hx => ?_
  obtain ⟨i, hi, rfl⟩ := List.mem_map.mp hx
  have hlt := List.mem_range.mp hi
  rw [beq_iff_eq]
  dsimp only [rwW]
  omega

/-- The key material of NET reads zero (R363, R373). -/
theorem net_writeOnly {s : State} {h : HubId} (hfrozen : (s.hdr (.hub h 10)).frozen = none) : s.current (.hub h 10) 0x88 = 0#32 ∧
    s.current (.hub h 10) 0xA0 = 0#32 ∧ s.current (.hub h 10) 0xBC = 0#32 := by
  have hpage : s.pageRegs (.hub h 10) = s.netRegs h := rfl
  have harr : ∀ off, 0x70 ≤ off → (rwArr 0x60 (s.coreOf h).net.ipv6.toList).find? (·.off == off) = none := fun off hoff =>
    find_rwArr_above (by rw [Vector.length_toList]; omega)
  rw [current_block hfrozen (by decide), current_block hfrozen (by decide), current_block hfrozen (by decide), hpage, State.netRegs]
  simp only [List.find?_append, harr 0x88 (by decide), harr 0xA0 (by decide), harr 0xBC (by decide)]
  exact ⟨rfl, rfl, rfl⟩

/-- The registers of a channel page (R396). -/
theorem pageRegs_channel (s : State) (ch : Chan) :
    s.pageRegs (.die ch.die (chPage ch.c)) = s.chRegs ch ++ s.filtRegs ch ++ s.dinRegs ch ++ s.outRegs ch := by
  have hc := ch.c.isLt
  have hval := chPage_val ch.c
  have h0 : ¬ (chPage ch.c).val = 0 := by omega
  have h16 : (chPage ch.c).val ≤ 16 := by omega
  rw [State.pageRegs, State.diePage, if_neg h0, dif_pos h16]
  dsimp only
  rw [channel_chPage]

/-- The registers of a channel's image, and those that read zero, on a page that is not frozen (R203, R226, R252). -/
theorem channel_image {s : State} {ch : Chan} {pg : PageRef} {i : ChanImg} (hpg : pg = .die ch.die (chPage ch.c)) (hi : i = (s.chan ch).want)
    (hfrozen : (s.hdr pg).frozen = none) :
    s.current pg 0x44 = (s.chan ch).word ∧ s.current pg 0x48 = i.safe ∧ s.current pg 0x4C = i.safeVal ∧ s.current pg 0x50 = i.linkloss ∧
    s.current pg 0x54 = i.diag ∧ s.current pg 0x58 = i.opt ∧ s.current pg 0x5C = 0#32 ∧ s.current pg 0x80 = i.convCfg ∧
    s.current pg 0x100 = i.filtCfg ∧ s.current pg 0x104 = i.perInt ∧ s.current pg 0x10C = i.maLen ∧ s.current pg 0x110 = i.dcbCfg ∧
    s.current pg 0x118 = i.angCfg ∧ s.current pg 0x200 = i.dinCfg ∧ s.current pg 0x210 = 0#32 ∧ s.current pg 0x300 = i.outCfg ∧
    s.current pg 0x31C = i.fskCfg ∧ ((s.chan ch).heldFrac = none → s.current pg 0x108 = i.perFrac) := by
  subst hpg hi
  have hread : ∀ off, 0x40 ≤ off → s.current (.die ch.die (chPage ch.c)) off =
      ((s.chRegs ch ++ s.filtRegs ch ++ s.dinRegs ch ++ s.outRegs ch).find? (·.off == off)).elim 0#32 Reg.val := fun off hoff => by
    rw [current_block hfrozen hoff, pageRegs_channel]
  refine ⟨?_, ?_, ?_, ?_, ?_, ?_, ?_, ?_, ?_, ?_, ?_, ?_, ?_, ?_, ?_, ?_, ?_, fun hheld => ?_⟩
  case refine_18 =>
    rw [hread _ (by decide)]
    have hval : ((s.chRegs ch ++ s.filtRegs ch ++ s.dinRegs ch ++ s.outRegs ch).find? (·.off == 0x108)).elim 0#32 Reg.val =
      (s.chan ch).heldFrac.getD (s.chan ch).want.perFrac := rfl
    rw [hval, hheld, Option.getD_none]
  all_goals
    rw [hread _ (by decide)]
    rfl

/-- Registers of hub pages that are not frozen: the instant of TIME, and those that are written only (R25, R345, R373). -/
theorem hub_writeOnly {s : State} {h : HubId} (htime : (s.hdr (.hub h 1)).frozen = none) (hpwr : (s.hdr (.hub h 4)).frozen = none)
    (hwd : (s.hdr (.hub h 5)).frozen = none) : s.current (.hub h 1) 0x48 = lo32 s.clk.now ∧ s.current (.hub h 1) 0x4C = hi32 s.clk.now ∧
    s.current (.hub h 4) 0x40 = 0#32 ∧ s.current (.hub h 4) 0x5C = 0#32 ∧ s.current (.hub h 4) 0x60 = 0#32 ∧
    s.current (.hub h 5) 0x48 = 0#32 := by
  rw [current_block htime (by decide), current_block htime (by decide), current_block hpwr (by decide), current_block hpwr (by decide),
    current_block hpwr (by decide), current_block hwd (by decide)]
  exact ⟨rfl, rfl, rfl, rfl, rfl, rfl⟩

/-- Settles O58: what a location answers by its place and its power, what a read latches, and the word of each register read. -/
theorem registerReads : Obligations.RegisterReads := by
  unfold Obligations.RegisterReads
  refine ⟨fun s r addr hruns haddr => ⟨(regRead_one hruns haddr).1, fun hres => ?_, fun pg off hloc => ⟨fun hoff => ?_, fun hon hheard => ?_⟩⟩,
    fun s pg off w hw => ⟨readReg_unlatching, readReg_latches s pg off, fun v hv => hw.trans (readReg_latched hv), fun hnone =>
      ⟨fun hz => ?_, fun hz => ?_⟩⟩, fun s pg h hh => ?_, fun s h htime _ hpwr hwd hnet => ?_, fun s ch pg i => channel_image⟩
  · rw [(regRead_one hruns haddr).2 (by rw [hres]; exact Loc.noConfusion), (readAddr_reserved hres).1, (readAddr_reserved hres).2]
    rfl
  · rw [(regRead_one hruns haddr).2 (by rw [hloc]; exact Loc.noConfusion), (readAddr_off hloc hoff).1, (readAddr_off hloc hoff).2]
    rfl
  · rw [(regRead_one hruns haddr).2 (by rw [hloc]; exact Loc.noConfusion), (readAddr_on hloc hon hheard).1, (readAddr_on hloc hon hheard).2]
    rfl
  · rw [hw, readReg_unlatched hnone, hz]
    rfl
  · rw [hw, readReg_unlatched hnone, hz]
    rfl
  · subst hh
    obtain ⟨coast, powered, hstatus⟩ := current_pageStatus s pg
    obtain ⟨hen, hfr, hzero⟩ := pageCtrlWord_bits (s.hdr pg).frozen.isSome (s.pageEn pg)
    obtain ⟨hone, hcopy, hlock, herr⟩ := pageStatusWord_bits coast ((s.hdr pg).err.count != 0) (s.hdr pg).locked
      (s.hdr pg).frozen.isSome powered
    rw [← current_pageCtrl] at hen hfr hzero
    rw [← hstatus] at hone hcopy hlock herr
    refine ⟨fun hb r hpg => ?_, fun d hpg => ?_, fun ch hpg => ?_, hfr, hzero, hone, hcopy, hlock, herr.trans ?_, rfl, rfl, rfl, rfl, rfl,
      current_locked s pg, rfl, fun off => current_headerRest s pg, fun l off v hl hoff hv => current_frozen hl hoff hv,
      fun off hoff hnone hno => ?_⟩
    · subst hpg
      refine ⟨by rw [current_pageId, pageId_hub], ?_, hen⟩
      rw [current_pageCaps, State.pageCaps]
      split <;> rfl
    · rw [hpg, current_pageId, pageId_die]
    · subst hpg
      rw [current_pageId, pageId_channel, current_pageCaps, pageCaps_channel, hen, pageEn_channel]
      exact ⟨rfl, rfl, rfl⟩
    · rw [Bool.eq_iff_iff, bne_iff_ne, decide_eq_true_iff]
    · have hfind : (s.pageRegs pg).find? (·.off == off) = none :=
        List.find?_eq_none.mpr fun x hx => by simpa using hno x hx
      rw [current_block hnone hoff, hfind, Option.elim_none]
  · obtain ⟨hlo, hhi, hrequest, h5c, h60, h48⟩ := hub_writeOnly htime hpwr hwd
    obtain ⟨h88, ha0, hbc⟩ := net_writeOnly hnet
    exact ⟨hlo, hhi, rfl, rfl, rfl, rfl, hrequest, h5c, h60, h48, h88, ha0, hbc⟩

end Sys2Proof
end
